-- ==== Sys2Proof/Word.lean ====
section
/-! DEFINITION. Word.lean: the word types of the VK9612 (octet, 16-, 32- and 64-bit words) and the plainest
arithmetic on them. Widths follow the structures that the spec lays out (R7: words of 32 bits). -/
namespace Sys2Proof

/-- An octet. -/
abbrev Byte := BitVec 8

/-- A 16-bit half. -/
abbrev W16 := BitVec 16

/-- A 32-bit word: a register, or one word of a structure (R7). -/
abbrev W32 := BitVec 32

/-- A 64-bit value: an address, an accumulator. -/
abbrev W64 := BitVec 64

/-- A table keyed by a number, keys strictly rising; the operations are in Machine/Maps.lean. -/
abbrev Map (α : Type) := List (Nat × α)

end Sys2Proof
end

