-- ==== Sys2Proof/Syntax.lean ====
section
/-! DEFINITION. Syntax.lean: the commands of the block. Instr has one constructor per row of spec/opcode_table.json,
in the table's order; the operand types before it are what the outside supplies with a command (a submission entry
of R360, a received frame of R105, what the HBM stack or a partner returned). -/
namespace Sys2Proof

/-- An Aedob command: the sixteen words of its submission entry (R360), its input octets, and by whom and under which
acceptance token it was admitted (R31). -/
structure Cmd where
  /-- Issuing function: 0 PF0, 1 to 64 VF (R317). -/
  fn : Nat
  /-- Queue pair that carried it, 0 to 15 (R352). -/
  qp : Nat
  /-- Acceptance token (R31). -/
  tok : Nat
  /-- Words 0 to 15 of the submission entry (R360). -/
  words : List W32
  /-- The input range's octets (R361). -/
  input : List Byte
  /-- For sys.qcreate and sheet.ring: Dado's translation of the two memories that the command names (R331), each as
  extents (IOVA, bus address, octets); none where a page of it does not translate. -/
  maps : List (Option (List (Nat × Nat × Nat)))
  /-- Dado's translation of the output range at admission (R332), as extents. -/
  outMap : List (Nat × Nat × Nat)
  deriving DecidableEq, Repr, Inhabited

/-- One ASDU of an SV frame (R77, R155, R156). -/
structure Asdu where
  /-- First 16 octets of SHA3-256 of its svID (R131). -/
  nameh : List Byte
  smpCnt : Nat
  confRev : Nat
  smpSynch : Nat
  /-- seqData octets. -/
  data : List Byte
  deriving DecidableEq, Repr, Inhabited

/-- The IEC 62351-6 extension of a frame (R146). -/
structure AuthExt where
  /-- MACALG code that the extension names. -/
  alg : Nat
  keyId : Nat
  tag : List Byte
  deriving DecidableEq, Repr, Inhabited

/-- A received GOOSE message (R157, R158). -/
structure GooseMsg where
  nameh : List Byte
  confRev : Nat
  stNum : Nat
  sqNum : Nat
  /-- t, 8 octets as received: four octets of seconds, three of fraction, one of TimeQuality. -/
  t : List Byte
  /-- timeAllowedToLive in ms. -/
  talMs : Nat
  allData : List Byte
  deriving DecidableEq, Repr, Inhabited

/-- A heartbeat frame's payload (R113). -/
structure Heartbeat where
  version : Nat
  /-- 0x00 heartbeat, 0x01 failure announcement. -/
  type : Nat
  devnum : Nat
  bp : Nat
  pairId : Nat
  generation : Nat
  slot : Nat
  epoch : Nat
  journal : Nat
  cause : Nat
  tag : List Byte
  deriving DecidableEq, Repr, Inhabited

/-- What an Announce says of its grandmaster: the attributes that the best master clock algorithm of IEEE 1588-2019
compares (R57). -/
structure PtpDs where
  priority1 : Nat
  clockClass : Nat
  accuracy : Nat
  variance : Nat
  priority2 : Nat
  /-- grandmaster clockIdentity. -/
  gm : Nat
  stepsRemoved : Nat
  deriving DecidableEq, Repr, Inhabited

/-- A PTP message as the time unit uses it (R56 to R58): its domain, its sequenceId (R86), and for Sync and Follow_Up the
correctionField in 1/65,536 ns (R104). -/
inductive PtpMsg where
  /-- Announce: the grandmaster's attributes, currentUtcOffset and its validity. -/
  | announce (domain : Nat) (ds : PtpDs) (utcOffset : Int) (utcValid : Bool)
  /-- Sync. Of a one-step Sync, the offset o it measured in ns (source minus the device's time) and the source's TAI time
  at that moment; a two-step Sync measures with its Follow_Up. -/
  | sync (domain seq : Nat) (twoStep : Bool) (corr : Int) (offset : Int) (time : Nat)
  /-- Follow_Up of a two-step Sync, with what the two measured. -/
  | followUp (domain seq : Nat) (corr : Int) (offset : Int) (time : Nat)
  /-- A neighbour's Pdelay request, with the port identity (10 octets) that it names as its source. -/
  | pdelayReq (domain seq : Nat) (port : List Byte)
  /-- Pdelay response: the request's sequenceId and the peer delay that it completes, in ns. -/
  | pdelayResp (domain seq : Nat) (delay : Nat)
  deriving DecidableEq, Repr, Inhabited

/-- What a frame carries (R119). -/
inductive Payload where
  | sv (appid : Nat) (sim : Bool) (noAsdu : Nat) (asdus : List Asdu) (ext : Option AuthExt)
  | goose (appid : Nat) (sim : Bool) (msg : GooseMsg) (ext : Option AuthExt)
  /-- An IEC 61850-90-5 datagram to UDP port 102: addresses of 16 octets, whether it is unfragmented and without options
  or extension headers, whether it carries exactly one PDU (R149), and that PDU. -/
  | routedSv (dstIp srcIp : List Byte) (plain onePdu : Bool) (appid : Nat) (sim : Bool) (noAsdu : Nat) (asdus : List Asdu)
      (ext : Option AuthExt)
  | routedGoose (dstIp srcIp : List Byte) (plain onePdu : Bool) (appid : Nat) (sim : Bool) (msg : GooseMsg)
      (ext : Option AuthExt)
  | heartbeat (h : Heartbeat)
  | ptp (m : PtpMsg)
  /-- An ARP request or IPv6 neighbour solicitation for a target address of 16 octets, and its sender's (R94). -/
  | arp (target sender : List Byte)
  /-- A PRP supervision frame (R100). -/
  | supervision
  /-- Anything else. -/
  | other
  deriving DecidableEq, Repr, Inhabited

/-- The SecTAG of a MACsec frame and the outcome of its ICV under the key named (R108). -/
structure SecTag where
  sci : List Byte
  an : Nat
  pn : Nat
  /-- ICV as received. -/
  icv : List Byte
  deriving DecidableEq, Repr, Inhabited

/-- A Lath word as read: sixteen data octets and the check octets P and Q (R510). -/
structure LathWord where
  data : List Byte
  p : Byte
  q : Byte
  deriving DecidableEq, Repr, Inhabited

/-- A frame as it arrives at a port (R105): what PCS and FEC decoding deliver. -/
structure RxFrame where
  /-- Octets on the wire, FCS and every tag included (R92). -/
  octets : Nat
  fcsOk : Bool
  /-- Corrected and uncorrectable FEC codewords met (R117). -/
  fecCorr : Nat
  fecUncorr : Nat
  dst : Nat
  src : Nat
  /-- S-tag present (R92). -/
  stag : Bool
  /-- Tag control words of the 802.1Q tags, outermost first. -/
  ctags : List Nat
  secTag : Option SecTag
  /-- RCT: sequence number and LAN ID (R100). -/
  rct : Option (Nat × Nat)
  /-- HSR tag sequence number (R102). -/
  hsr : Option Nat
  /-- Octets from the destination address to the end of the payload, MACsec removed, without RCT, HSR tag and 802.1Q tags
  (R124, R674). -/
  body : List Byte
  payload : Payload
  /-- What befalls its words in the ingress buffer before they are read (R122): word index, and the octets added to the
  stored data and check octets. -/
  upsets : List (Nat × LathWord)
  deriving DecidableEq, Repr, Inhabited

/-- A UCIe or span flit as received: its sequence number, its control bits and its fourteen words (R310, R630). -/
structure Flit where
  fseq : Nat
  words : List LathWord
  deriving DecidableEq, Repr, Inhabited

/-- What the HBM stack returns for one sealed sector (R508, R517 to R522). -/
structure SectorRead where
  /-- The sector's 32 words as its bursts return them, P and Q from the ECC bits of a word's two beats. -/
  words : List LathWord
  /-- The second reads of words, by their place in the sector (R524). -/
  again : List (Nat × LathWord)
  /-- The eight words of its metadata line, and of each node above it from level 1 upwards (R519, R520). -/
  items : List (List LathWord)
  /-- Their second reads: level, place in the item, word. -/
  itemsAgain : List (Nat × Nat × LathWord)
  deriving DecidableEq, Repr, Inhabited

/-- A row of the stack: its pseudo-channel and its number there (R509, R532). -/
structure HbmRow where
  pc : Nat
  row : Nat
  deriving DecidableEq, Repr, Inhabited

/-- A client's access to a sealed sector (R517, R526, R527). -/
inductive SealOp where
  | read
  | writeWhole (plain : List Byte)
  /-- Offset in the sector and octets. -/
  | writePart (off : Nat) (plain : List Byte)
  deriving DecidableEq, Repr, Inhabited

/-- What Primer finds at START-UP (R594 to R597): the outcomes of its checks on OTP, images, HBM and cores. -/
structure BootFacts where
  /-- The die comes from power-up, not from a device reset. -/
  powerUp : Bool
  /-- The VBAT-domain state word is valid (R559). -/
  vbatValid : Bool
  otpOk : Bool
  /-- Components 0 to 7 whose committed image passes, and whose image in the other bank passes (R596). -/
  imgOk : List Bool
  altOk : List Bool
  /-- Stack of R507: 0 none, 1 8 GB, 2 16 GB, 3 24 GB, and rate 3.6 Gb/s. -/
  stack : Nat
  fastRate : Bool
  /-- Pseudo-channels whose training fails (R594 step 9). -/
  trainFail : List Nat
  /-- Sealed regions whose check fails after a device reset (R597). -/
  badRegions : List Nat
  /-- Key slots whose tag fails: slot and copy (R488, R489). -/
  badCopies : List (Nat × Nat)
  /-- Trowel cores that fail their test (R594 step 11). -/
  badCores : List Nat
  deriving DecidableEq, Repr, Inhabited

/-- A JTAG access (R591, R663). -/
inductive JtagOp where
  /-- Ocartin's factory test blows the factory-done fuse. -/
  | blowFactoryDone
  /-- Any other JTAG instruction. -/
  | other
  deriving DecidableEq, Repr, Inhabited

/-- A request to the SPDM responder (R321, R322, R614). -/
inductive SpdmReq where
  | getCertificate (slot : Nat)
  | getMeasurement (block : Nat)
  /-- A key exchange, and whether the requester's credentials verify (R322). -/
  | keyExchange (verified : Bool)
  /-- IDE_KM: set the keys of the link stream, or of a selective stream with the function range it covers. -/
  | ideLinkKey
  | ideSelKey (stream : Nat) (firstFn lastFn : Nat)
  | ideStop (stream : Option Nat)
  deriving DecidableEq, Repr, Inhabited

/-- One 64-byte row of a sheet (R191): the fields of its header, eight values and eight quality words. -/
structure Row where
  /-- SV context number, or 0x8000 plus a derived-row number. -/
  stream : Nat
  sub : Nat
  /-- Row status code (R191). -/
  rstat : Nat
  /-- Source flags (R192). -/
  srcf : Nat
  /-- Provenance code. -/
  prov : Nat
  lanb : Bool
  /-- Class of smpSynch. -/
  sync : Nat
  xsmp : Nat
  vals : List W32
  qual : List W16
  deriving DecidableEq, Repr, Inhabited

/-- What the active mirrors to the standby (R568). -/
inductive MirrorItem where
  /-- A configuration change: the command and the state epoch it created. -/
  | config (c : Cmd) (epoch : Nat)
  /-- A journal entry: an admitted command, or the outcome (status, result) of one. -/
  | admission (c : Cmd)
  | outcome (tok : Nat) (status : Nat) (result : W32) (epoch : Nat)
  /-- A context delta: the SV replay state, or the GOOSE sequence state (R569). -/
  | svDelta (ctx : Nat) (highx : Nat) (window : W64)
  | gooseDelta (ctx : Nat) (stNum sqNum : Nat) (t : List Byte) (gvalid : Bool)
  /-- Publication state (R296): stNum, t, argument and HOST words, the raise that made it (program, entry, slot), and
  the token of a pub.send, 0 for another change. -/
  | pubState (ctx : Nat) (stNum : Nat) (t : List Byte) (arg : W32) (host : List Byte) (raise : Option (Nat × Nat × Nat))
      (tok : Nat)
  /-- Context delta of a publication: SQNUM, NEXTTX, STEP, SPDUNUM and LASTSLOT after a frame that is no state change (R40,
  R143, R568). -/
  | pubDelta (ctx sqNum nextTx stepPos spdu lastSlot : Nat)
  /-- A ring's PROD and LASTSLOT after a sheet. -/
  | ring (fn ring prod lastSlot : Nat)
  | recnum (n : Nat)
  /-- A mailbox message: program, delivery slot, octets and token. -/
  | mailbox (prog slot : Nat) (msg : List Byte) (tok : Nat)
  /-- RINGSALT of a ring that was created or reset (R195, R568). -/
  | salt (fn ring : Nat) (octs : List Byte)
  /-- A journal entry whose completion has been released (R371). -/
  | released (tok : Nat)
  /-- A state epoch that no mirrored command created (R30). -/
  | epoch (e : Nat)
  /-- The active's answer to an admission entry of the standby: the command with its token (R570). -/
  | granted (c : Cmd)
  /-- The active's refusal of an admission entry of the standby, with its status (R348, R366). -/
  | denied (c : Cmd) (status : Nat)
  /-- Data partition of a program, as the copy of R584 brings it. -/
  | trowelData (prog : Nat) (octs : List Byte)
  deriving DecidableEq, Repr, Inhabited

/-- A span packet (R640). -/
structure Packet where
  dst : Nat
  src : Nat
  /-- 1 COMMAND, 2 OUTCOME, 3 SHEET, 4 EVENT, 5 VOLUME, 6 ROUTE, 7 NUMBER. -/
  ptype : Nat
  seq : Nat
  arg : W64
  body : List Byte
  /-- Virtual channel on the link that carries it (R630, R637). -/
  vc : Nat
  deriving DecidableEq, Repr, Inhabited

/-- What a verified group of the pair link carries besides the rows of the pair (R576, R586). -/
inductive PairRx where
  | heartbeat (h : Heartbeat)
  | report (octs : List Byte)
  deriving DecidableEq, Repr, Inhabited

/-- A general register or another 4-bit field of an EZS-32 word (R253, R257). -/
abbrev Fld4 := BitVec 4

/-- The commands of the block, one per row of spec/opcode_table.json. -/
inductive Instr where
  /-- SYS_INFO: Returns 256 octets of identity, firmware versions, limits, DEVNUM, share count and the fused MAC base address (R373). -/
  | sysInfo (c : Cmd)
  /-- SYS_QCREATE: Creates a queue pair of the issuing function, with its pinned maps and MSI-X vector (R358). -/
  | sysQcreate (c : Cmd)
  /-- SYS_QDELETE: Waits until every command of the named queue pair is settled, then removes its pinned maps and sets it to NONE (R359). -/
  | sysQdelete (c : Cmd)
  /-- SYS_LEDGER: Copies a function's reset ledger to the output and, when the clear flag is set, empties it and clears UNREAD (R346). -/
  | sysLedger (c : Cmd)
  /-- SYS_TIMECFG: Sets the time-source priority list, revert hold, qualification, step and holdover limits, oscillator drift, PTP domains and UTC offset (R669). -/
  | sysTimecfg (c : Cmd)
  /-- SYS_TIMESTEP: In SERVICE, steps TAI time to the selected source's time in one step (R63). -/
  | sysTimestep (c : Cmd)
  /-- SYS_PORTCFG: Sets the line type, FEC, redundancy protocol, MACsec policy, degrade threshold and routed IP addresses of a bus pair, and retrains both ports (R91). -/
  | sysPortcfg (c : Cmd)
  /-- SYS_HOSTCFG: In SERVICE, sets the IDE REQUIRED policy (R323). -/
  | sysHostcfg (c : Cmd)
  /-- SYS_FNMAP: Binds or unbinds a VF's Dado table root (R328). -/
  | sysFnmap (c : Cmd)
  /-- SYS_DADOINV: Invalidates a VF's translations over an IOVA range, stopping rings, erroring queues and marking commands that overlap it (R333). -/
  | sysDadoinv (c : Cmd)
  /-- SYS_FNRESET: Starts a reset of the named function (R342). -/
  | sysFnreset (c : Cmd)
  /-- CMD_ABORT: Marks the earliest admitted, uncompleted command with the named TAG on the named queue pair, so that it stops at its next safe point (R375). -/
  | cmdAbort (c : Cmd)
  /-- STREAM_MRATE: Sets the master rate of a bus pair that has no subscription, publication or view (R73). -/
  | streamMrate (c : Cmd)
  /-- STREAM_CYCREF: Sets the primary and alternate references, arming threshold, coast limit and nominal frequency of a phase-cycle tracker (R79). -/
  | streamCycref (c : Cmd)
  /-- STREAM_SUB: Allocates an SV or GOOSE subscription context from a 256-byte entry (R133). -/
  | streamSub (c : Cmd)
  /-- STREAM_UNSUB: Removes a subscription's index entry, sets it DRAINING and ends its supervision (R135). -/
  | streamUnsub (c : Cmd)
  /-- STREAM_KEYS: Installs the next key, key ID, SWITCH and OVERLAP of a subscription or publication (R152). -/
  | streamKeys (c : Cmd)
  /-- STREAM_STATS: Returns, and optionally clears, the 16 counters of a subscription context (R132). -/
  | streamStats (c : Cmd)
  /-- SHEET_HISTORY: Sets the device history depth T_h while no subscription or derived row exists (R168). -/
  | sheetHistory (c : Cmd)
  /-- SHEET_GROUP: Sets a stream group's closing deadline, substitution policy and hold limit (R172). -/
  | sheetGroup (c : Cmd)
  /-- SHEET_KEY: Binds a SIGN_ONLY slot as a function's sheet key (R193). -/
  | sheetKey (c : Cmd)
  /-- SHEET_RING: Creates, resets or deletes a sheet ring or event ring, drawing a new RINGSALT (R198). -/
  | sheetRing (c : Cmd)
  /-- SHEET_VIEW: Sets the ordered view of streams and derived rows, and optionally a tracker, for one sheet ring (R197). -/
  | sheetView (c : Cmd)
  /-- TROWEL_LOAD: Verifies and loads a signed program image into a core and program slot, or installs it for a hot swap (R221). -/
  | trowelLoad (c : Cmd)
  /-- TROWEL_BIND: Sets a program's home group, schedule, sheet, history and derived-row bindings (R224). -/
  | trowelBind (c : Cmd)
  /-- TROWEL_START: Returns a program to RUNNING from SUSPENDED or LOADED (R238). -/
  | trowelStart (c : Cmd)
  /-- TROWEL_STOP: Puts a program in LOADED (R238). -/
  | trowelStop (c : Cmd)
  /-- TROWEL_UNLOAD: Frees a program's slot at the next release boundary and unbinds it (R238). -/
  | trowelUnload (c : Cmd)
  /-- TROWEL_MBSEND: Stamps a mailbox message with a delivery slot for delivery at the program's release (R241). -/
  | trowelMbsend (c : Cmd)
  /-- TROWEL_RETIRE: In SERVICE, retires the named Trowel core (R249). -/
  | trowelRetire (c : Cmd)
  /-- PUB_OPEN: Opens a publication context from a validated template (R289). -/
  | pubOpen (c : Cmd)
  /-- PUB_CLOSE: Sets a publication DRAINING, cancels later retransmissions and unbinds its raise entries (R295). -/
  | pubClose (c : Cmd)
  /-- PUB_SEND: Makes a state change of a GOOSE publication from host input and transmits its frame (R290). -/
  | pubSend (c : Cmd)
  /-- PUB_CURVE: Sets a publication's retransmission curve from its next state change (R300). -/
  | pubCurve (c : Cmd)
  /-- PUB_STATS: Returns, and optionally clears, a publication's counters (R308). -/
  | pubStats (c : Cmd)
  /-- CPH_OPEN: Opens a cipher session with a mode, key source and IV (R414). -/
  | cphOpen (c : Cmd)
  /-- CPH_CLOSE: Closes a host session after every earlier command on it (R411). -/
  | cphClose (c : Cmd)
  /-- CPH_RUN: Processes input through a cipher session to the output, or unwraps a key into a session (R415). -/
  | cphRun (c : Cmd)
  /-- CPH_SAVE: Writes a session's state as a clear or wrapped 576-octet blob (R425). -/
  | cphSave (c : Cmd)
  /-- CPH_RESTORE: Checks a saved blob and loads it into an open session (R429). -/
  | cphRestore (c : Cmd)
  /-- HSH_DIGEST: Computes a one-shot digest or XOF output (R418). -/
  | hshDigest (c : Cmd)
  /-- HSH_MAC: Generates, verifies or derives with a keyed MAC under a key slot (R418). -/
  | hshMac (c : Cmd)
  /-- HSH_OPEN: Opens a hash session with a function code and optional key slot (R416). -/
  | hshOpen (c : Cmd)
  /-- HSH_UPDATE: Absorbs input into a hash session (R417). -/
  | hshUpdate (c : Cmd)
  /-- HSH_FINAL: Finishes a hash session, writing or checking its result, and closes it (R418). -/
  | hshFinal (c : Cmd)
  /-- PKE_SIGN: Signs a message or digest under a SIGN_ONLY slot in fixed time (R438). -/
  | pkeSign (c : Cmd)
  /-- PKE_VERIFY: Verifies a signature under a VERIFY_ONLY slot or a supplied public key in fixed time (R450). -/
  | pkeVerify (c : Cmd)
  /-- PKE_AGREE: Computes a shared secret from a peer key into a session, consuming a key-pair session (R442). -/
  | pkeAgree (c : Cmd)
  /-- PKE_ENCAP: Encapsulates to an ML-KEM-1024 key, writing the ciphertext and installing the secret (R438). -/
  | pkeEncap (c : Cmd)
  /-- PKE_DECAP: Decapsulates an ML-KEM-1024 ciphertext and installs the secret, with implicit rejection (R451). -/
  | pkeDecap (c : Cmd)
  /-- PKE_KEYGEN: Generates a key pair, writing the public key and making a key-pair session (R441). -/
  | pkeKeygen (c : Cmd)
  /-- RNG_GET: Makes one generate of OUTLEN octets on the caller's DRBG instance (R467). -/
  | rngGet (c : Cmd)
  /-- RNG_RESEED: Reseeds the caller's instance, or, from PF0 in SERVICE with word 8 bit 0 set, leaves FAILED (R467). -/
  | rngReseed (c : Cmd)
  /-- RNG_PATTERN: In FACTORY, replaces or removes the test pattern that stands in for the entropy sources (R476). -/
  | rngPattern (c : Cmd)
  /-- KEY_APPLY: Checks and applies a key update envelope as one configuration change (R494). -/
  | keyApply (c : Cmd)
  /-- KEY_INFO: Returns a slot descriptor and any public key (R483). -/
  | keyInfo (c : Cmd)
  /-- KEY_TARGET: Returns DEVID, update counter, owner epoch and device KEM public key (R493). -/
  | keyTarget (c : Cmd)
  /-- REC_TRIG: Configures a Hawk trigger (R205). -/
  | recTrig (c : Cmd)
  /-- REC_FIRE: Fires a HOST trigger at the current slot (R205). -/
  | recFire (c : Cmd)
  /-- REC_LOCK: Locks or unlocks a record against release from the archive volume (R213). -/
  | recLock (c : Cmd)
  /-- REC_LIST: Returns the record notices of sealed records (R373). -/
  | recList (c : Cmd)
  /-- VOL_ATTACH: Attaches the archive volume with its transfer ring and staging buffer, formatting or recovering it (R535). -/
  | volAttach (c : Cmd)
  /-- VOL_IO: Reports the host outcome of one outstanding volume transfer request (R539). -/
  | volIo (c : Cmd)
  /-- VOL_READ: Reads a record from the volume, verifies every sector tag and returns it in the clear (R540). -/
  | volRead (c : Cmd)
  /-- VOL_REKEY: Under quorum, replaces the archive volume key and starts a re-key walk (R542). -/
  | volRekey (c : Cmd)
  /-- PAIR_CFG: Sets PAIR_ID, partner, pair link, heartbeat key slots, silence limit and heartbeat address (R564). -/
  | pairCfg (c : Cmd)
  /-- PAIR_STATUS: Returns the partner's latest health report and the device's own report (R586). -/
  | pairStatus (c : Cmd)
  /-- PAIR_HANDOVER: Stops admission on the active and waits up to 20 ms before handing the role to a FIT standby (R589). -/
  | pairHandover (c : Cmd)
  /-- PAIR_RENUMBER: Under quorum, sets the generation of both members to 1 (R583). -/
  | pairRenumber (c : Cmd)
  /-- LOG_READ: Returns the fixed header and whole records from a given sequence number (R627). -/
  | logRead (c : Cmd)
  /-- LOG_POLICY: Sets native or SEVERITY log policy (R625). -/
  | logPolicy (c : Cmd)
  /-- LOG_CLEAR: Empties the log and writes LOG_CLEARED as its first record (R626). -/
  | logClear (c : Cmd)
  /-- SVC_ENTER: Under quorum, moves the device to SERVICE (R502). -/
  | svcEnter (c : Cmd)
  /-- SVC_EXIT: Leaves SERVICE through a device reset toward ACTIVE, or zeroizes toward SEALED (R593). -/
  | svcExit (c : Cmd)
  /-- SVC_CHALLENGE: Issues a 32-octet nonce for quorum tokens, replacing any outstanding one (R503). -/
  | svcChallenge (c : Cmd)
  /-- SVC_OFFICER: Under quorum in SERVICE, replaces the officer set and quorum size (R502). -/
  | svcOfficer (c : Cmd)
  /-- SVC_TAMPER: Under quorum in SERVICE, sets tamper responses, filters and backup period (R561). -/
  | svcTamper (c : Cmd)
  /-- SVC_FLAGCLEAR: Clears sticky tamper flags by mask and optionally the evidence VALID bits (R555). -/
  | svcFlagclear (c : Cmd)
  /-- SVC_ENROL: Enrols the owner key authority and officers, draws a new BBKEK and generates the record and volume keys (R499). -/
  | svcEnrol (c : Cmd)
  /-- SVC_RELEASE: Under quorum, blows an owner-epoch step and releases a SEALED device toward BLANK (R498). -/
  | svcRelease (c : Cmd)
  /-- SVC_ATTEST: Writes signed attestation evidence over a nonce (R612). -/
  | svcAttest (c : Cmd)
  /-- SVC_FWLOAD_IMAGE: Verifies a firmware image of component 0 to 7 and writes it to the uncommitted bank for a Putty swap, shadow switch or next START-UP (R604). -/
  | svcFwloadImage (c : Cmd)
  /-- SVC_FWLOAD_BUDGET: In SERVICE, checks a budget table and places it in the shadow copy (R398). -/
  | svcFwloadBudget (c : Cmd)
  /-- SVC_FWLOAD_TRIMS: In SERVICE, loads signed monitor trims (R603). -/
  | svcFwloadTrims (c : Cmd)
  /-- SVC_FWLOAD_SERVO: In SERVICE, loads PTP servo settings (R603). -/
  | svcFwloadServo (c : Cmd)
  /-- SPAN_CFG: Numbers a device by DEVID and sets the topology and link keys (R635). -/
  | spanCfg (c : Cmd)
  /-- SPAN_STATUS: Returns link and route state and unnumbered neighbours (R635). -/
  | spanStatus (c : Cmd)
  /-- SPAN_ROUTE: Replaces the route table and may dedicate a pair link (R638). -/
  | spanRoute (c : Cmd)
  /-- SPAN_OUTCOME: Returns the journalled outcome of a command handed to another span device (R381). -/
  | spanOutcome (c : Cmd)
  /-- DIAG_KAT: Runs a known-answer test on the named engine (R373). -/
  | diagKat (c : Cmd)
  /-- DIAG_SELFTEST: Runs the built-in self-test of the named block (R373). -/
  | diagSelftest (c : Cmd)
  /-- DIAG_INJECT: Injects a Lath error for test (R373). -/
  | diagInject (c : Cmd)
  /-- COMMAND_FETCH: Fetches a submission entry, checks it in order and refuses it or admits it through the journal (R366). -/
  | commandFetch (fn qp : Nat) (mem : List Host.Cell)
  /-- COMPLETION_WRITE: Writes a completion entry in token order once its outcome is journalled and earlier completions are written, then raises MSI-X (R364). -/
  | completionWrite (fn qp : Nat)
  /-- CONFIG_TAKE_EFFECT: Applies an admitted configuration change between two closing sequences and increments the state epoch (R27). -/
  | configTakeEffect
  /-- SAFE_POINT_STOP: A marked command reaches its safe point and its outcome is decided and journalled (R343). -/
  | safePointStop (tok : Nat)
  /-- BUDGET_WAIT_EXCEEDED: An admitted command that has not started within the wait limit ends with BUDGET_WAIT_EXCEEDED (R395). -/
  | budgetWaitExceeded (tok : Nat)
  /-- ENGINE_WORK_DONE: Engine work of a command ends and its outcome is journalled and mirrored before any external effect (R33). -/
  | engineWorkDone (tok : Nat)
  /-- PKE_RESULT_READY: A PKE operation's fixed engine time ends, its output is written and its outcome journalled while the wipe starts (R436). -/
  | pkeResultReady (unit : Nat)
  /-- PKE_WIPE_DONE: An instance finishes overwriting its operand memory and becomes free (R454). -/
  | pkeWipeDone (unit : Nat)
  /-- ADD: d = a + b (R261). -/
  | add (p : Nat) (s : Bool) (d a b : Fld4)
  /-- SUB: d = a - b (R261). -/
  | sub (p : Nat) (s : Bool) (d a b : Fld4)
  /-- ADDS: Saturating signed add (R261). -/
  | adds (p : Nat) (s : Bool) (d a b : Fld4)
  /-- SUBS: Saturating signed subtract (R261). -/
  | subs (p : Nat) (s : Bool) (d a b : Fld4)
  /-- AND: Bitwise AND (R261). -/
  | and (p : Nat) (s : Bool) (d a b : Fld4)
  /-- OR: Bitwise OR (R261). -/
  | or (p : Nat) (s : Bool) (d a b : Fld4)
  /-- XOR: Bitwise XOR (R261). -/
  | xor (p : Nat) (s : Bool) (d a b : Fld4)
  /-- ANDN: a AND NOT b (R261). -/
  | andn (p : Nat) (s : Bool) (d a b : Fld4)
  /-- SHL: Shift left by b[7:0], zero fill (R262). -/
  | shl (p : Nat) (s : Bool) (d a b : Fld4)
  /-- SHR: Shift right by b[7:0], zero fill (R262). -/
  | shr (p : Nat) (s : Bool) (d a b : Fld4)
  /-- SAR: Shift right by b[7:0], sign fill (R262). -/
  | sar (p : Nat) (s : Bool) (d a b : Fld4)
  /-- ABS: Absolute value, 0x8000_0000 giving 0x7FFF_FFFF (R261). -/
  | abs (p : Nat) (s : Bool) (d a : Fld4)
  /-- MIN: Signed minimum (R261). -/
  | min (p : Nat) (s : Bool) (d a b : Fld4)
  /-- MAX: Signed maximum (R261). -/
  | max (p : Nat) (s : Bool) (d a b : Fld4)
  /-- MINU: Unsigned minimum (R261). -/
  | minu (p : Nat) (s : Bool) (d a b : Fld4)
  /-- MAXU: Unsigned maximum (R261). -/
  | maxu (p : Nat) (s : Bool) (d a b : Fld4)
  /-- CLZ: Count of leading zero bits (R261). -/
  | clz (p : Nat) (s : Bool) (d a : Fld4)
  /-- MUL: Low 32 bits of a × b (R261). -/
  | mul (p : Nat) (s : Bool) (d a b : Fld4)
  /-- MULH: High 32 bits of the signed product (R261). -/
  | mulh (p : Nat) (s : Bool) (d a b : Fld4)
  /-- MULHU: High 32 bits of the unsigned product (R261). -/
  | mulhu (p : Nat) (s : Bool) (d a b : Fld4)
  /-- ADDI: d = a + sign-extended immediate (R260). -/
  | addi (p : Nat) (d a : Fld4) (imm : BitVec 18)
  /-- ANDI: d = a AND sign-extended immediate (R260). -/
  | andi (p : Nat) (d a : Fld4) (imm : BitVec 18)
  /-- ORI: d = a OR sign-extended immediate (R260). -/
  | ori (p : Nat) (d a : Fld4) (imm : BitVec 18)
  /-- XORI: d = a XOR sign-extended immediate (R260). -/
  | xori (p : Nat) (d a : Fld4) (imm : BitVec 18)
  /-- SHLI: Shift left by an immediate (R259). -/
  | shli (p : Nat) (d a : Fld4) (n : BitVec 5)
  /-- SHRI: Shift right by an immediate, zero fill (R259). -/
  | shri (p : Nat) (d a : Fld4) (n : BitVec 5)
  /-- SARI: Shift right by an immediate, sign fill (R259). -/
  | sari (p : Nat) (d a : Fld4) (n : BitVec 5)
  /-- LUI: d = imm[17:0] << 14 (R259). -/
  | lui (p : Nat) (d : Fld4) (imm : BitVec 18)
  /-- CMPI: Sets FLAGS from a - immediate (R271). -/
  | cmpi (p : Nat) (a : Fld4) (imm : BitVec 18)
  /-- LD_W: Loads 32 bits (R268). -/
  | ldW (p : Nat) (d a : Fld4) (mode : BitVec 3) (b : Fld4) (sc : BitVec 2) (disp : BitVec 9)
  /-- LD_H: Loads 16 bits sign-extended (R268). -/
  | ldH (p : Nat) (d a : Fld4) (mode : BitVec 3) (b : Fld4) (sc : BitVec 2) (disp : BitVec 9)
  /-- LD_HU: Loads 16 bits zero-extended (R268). -/
  | ldHu (p : Nat) (d a : Fld4) (mode : BitVec 3) (b : Fld4) (sc : BitVec 2) (disp : BitVec 9)
  /-- LD_B: Loads 8 bits sign-extended (R268). -/
  | ldB (p : Nat) (d a : Fld4) (mode : BitVec 3) (b : Fld4) (sc : BitVec 2) (disp : BitVec 9)
  /-- LD_BU: Loads 8 bits zero-extended (R268). -/
  | ldBu (p : Nat) (d a : Fld4) (mode : BitVec 3) (b : Fld4) (sc : BitVec 2) (disp : BitVec 9)
  /-- LD_A: Loads 64 bits into an accumulator (R270). -/
  | ldA (p : Nat) (d a : Fld4) (mode : BitVec 3) (b : Fld4) (sc : BitVec 2) (disp : BitVec 9)
  /-- ST_W: Stores 32 bits (R268). -/
  | stW (p : Nat) (d a : Fld4) (mode : BitVec 3) (b : Fld4) (sc : BitVec 2) (disp : BitVec 9)
  /-- ST_H: Stores 16 bits (R268). -/
  | stH (p : Nat) (d a : Fld4) (mode : BitVec 3) (b : Fld4) (sc : BitVec 2) (disp : BitVec 9)
  /-- ST_B: Stores 8 bits (R268). -/
  | stB (p : Nat) (d a : Fld4) (mode : BitVec 3) (b : Fld4) (sc : BitVec 2) (disp : BitVec 9)
  /-- ST_A: Stores an accumulator, 64 bits (R270). -/
  | stA (p : Nat) (d a : Fld4) (mode : BitVec 3) (b : Fld4) (sc : BitVec 2) (disp : BitVec 9)
  /-- B_CC: Branches on a condition (R273). -/
  | bCc (p : Nat) (cond : Fld4) (off : BitVec 22)
  /-- CALL_CC: Pushes the return address and calls on a condition (R275). -/
  | callCc (p : Nat) (cond : Fld4) (off : BitVec 22)
  /-- DBNZ: Decrements a register and branches if not zero (R274). -/
  | dbnz (p : Nat) (cond : Fld4) (off : BitVec 22)
  /-- DADD: Saturating add in two 16-bit lanes (R263). -/
  | dadd (p : Nat) (d a b : Fld4)
  /-- DSUB: Saturating subtract in two 16-bit lanes (R263). -/
  | dsub (p : Nat) (d a b : Fld4)
  /-- DMUL: Rounded Q15 multiply in two lanes (R263). -/
  | dmul (p : Nat) (d a b : Fld4)
  /-- DPACK: Packs two saturated 16-bit values (R263). -/
  | dpack (p : Nat) (d a b : Fld4)
  /-- DSWAP: Swaps the two 16-bit lanes (R263). -/
  | dswap (p : Nat) (d a : Fld4)
  /-- MUL_AX: ax = a × b signed (R264). -/
  | mulAx (p : Nat) (s : Bool) (d a b : Fld4)
  /-- MAC: ax += a × b signed (R264). -/
  | mac (p : Nat) (s : Bool) (d a b : Fld4)
  /-- MSU: ax -= a × b signed (R264). -/
  | msu (p : Nat) (s : Bool) (d a b : Fld4)
  /-- MULU: ax = a × b unsigned (R264). -/
  | mulu (p : Nat) (s : Bool) (d a b : Fld4)
  /-- MACU: ax += a × b unsigned (R264). -/
  | macu (p : Nat) (s : Bool) (d a b : Fld4)
  /-- MSUU: ax -= a × b unsigned (R264). -/
  | msuu (p : Nat) (s : Bool) (d a b : Fld4)
  /-- MACS: Saturating multiply-accumulate (R264). -/
  | macs (p : Nat) (s : Bool) (d a b : Fld4)
  /-- MSUS: Saturating multiply-subtract (R264). -/
  | msus (p : Nat) (s : Bool) (d a b : Fld4)
  /-- DMAC: ax += lo·lo + hi·hi (R264). -/
  | dmac (p : Nat) (s : Bool) (d a b : Fld4)
  /-- DMACN: ax += lo·lo - hi·hi (R265). -/
  | dmacn (p : Nat) (s : Bool) (d a b : Fld4)
  /-- DMACX: ax += lo·hi + hi·lo (R265). -/
  | dmacx (p : Nat) (s : Bool) (d a b : Fld4)
  /-- ACCLR: Clears an accumulator (R264). -/
  | acclr (p : Nat) (s : Bool) (d : Fld4)
  /-- ACW: Writes an accumulator from two registers (R264). -/
  | acw (p : Nat) (s : Bool) (d a b : Fld4)
  /-- ACL: Reads the low half of an accumulator (R264). -/
  | acl (p : Nat) (s : Bool) (d a : Fld4)
  /-- ACH: Reads the high half of an accumulator (R264). -/
  | ach (p : Nat) (s : Bool) (d a : Fld4)
  /-- ACR: Rounds, shifts right and saturates an accumulator into a register (R265). -/
  | acr (p : Nat) (s : Bool) (d a : Fld4) (n : BitVec 6)
  /-- JR: Jumps to a register address (R266). -/
  | jr (p : Nat) (a : Fld4)
  /-- CALLR: Calls a register address (R275). -/
  | callr (p : Nat) (a : Fld4)
  /-- RET: Pops PC from the stack (R275). -/
  | ret (p : Nat)
  /-- BRK: Raises BREAK (R266). -/
  | brk (p : Nat)
  /-- YIELD: Ends slot work, posting OUTLEN and firing TRIGSET triggers (R235). -/
  | yield (p : Nat)
  /-- WAIT_EV: Waits within slot work for ROWS or CYCLE, returning at once if it has occurred (R236). -/
  | waitEv (p : Nat) (d e : Fld4)
  /-- WAIT_EV_RETURN: The awaited ROWS or CYCLE event occurs and a waiting wait.ev returns (R236). -/
  | waitEvReturn (p : Nat)
  /-- ROW_FIXED_WAKE: A row is fixed and a program load waiting for it completes (R178). -/
  | rowFixedWake (p : Nat)
  /-- PUB_RAISE: Raises a bound GOOSE publication entry with an argument and returns RAISED, UNBOUND or REPEAT (R239). -/
  | pubRaise (p : Nat) (d a i : Fld4)
  /-- MFS: Reads a special register (R254). -/
  | mfs (p : Nat) (d sr : Fld4)
  /-- MTS: Writes a special register (R254). -/
  | mts (p : Nat) (sr a : Fld4)
  /-- BUDGET_STOP: BUDGET reaches 0 and the program's slot work stops between instructions (R280). -/
  | budgetStop (p : Nat)
  /-- TROWEL_CUTOFF: 7 µs after the slot-close event, slot work that has not ended stops (R177). -/
  | trowelCutoff (p : Nat)
  /-- SQ_TAIL_DOORBELL: A write of the submission tail makes entries wait for fetch, or puts the pair in ERROR when out of range (R353). -/
  | sqTailDoorbell (fn qp : Nat) (v : W32)
  /-- QUEUE_BOOTSTRAP: A write of 0 to SQ0_TAIL while queue pair 0 is NONE reads a sys.qcreate from address 0 (R357). -/
  | queueBootstrap (fn : Nat) (mem : List Host.Cell)
  /-- CQ_HEAD_DOORBELL: A write of the completion head releases consumed completion entries (R354). -/
  | cqHeadDoorbell (fn qp : Nat) (v : W32)
  /-- RING_CONS_WRITE: A write of a ring's consumer index frees space, or is ignored with BADCONS set (R203). -/
  | ringConsWrite (fn ring : Nat) (v : W32)
  /-- SYS_RESET_WRITE: A write to SYS_RESET starts a device reset with the right key, or sets RESET_REFUSED (R324). -/
  | sysResetWrite (v : W32)
  /-- EVT_W1C_WRITE: A write to a W1C event register clears each bit written as 1 (R12). -/
  | evtW1cWrite (fn off : Nat) (v : W32)
  /-- REGISTER_WRITE: A write to any other register takes the value or is ignored under its type (R12). -/
  | registerWrite (fn off : Nat) (v : W32)
  /-- LO_REGISTER_READ: A read of a LO register latches its HI register (R87). -/
  | loRegisterRead (fn off : Nat)
  /-- SH_FIELD_READ: A read of an SH field compares it with its inverted shadow (R549). -/
  | shFieldRead (off : Nat)
  /-- PCIE_CONFIG_REQUEST: A configuration request, answered with Request Retry Status during START-UP (R320). -/
  | pcieConfigRequest (fn : Nat)
  /-- FUNCTION_LEVEL_RESET: Fences, stops, ledgers, wipes and releases one function (R342). -/
  | functionLevelReset (fn : Nat)
  /-- CONVENTIONAL_RESET: A Hot Reset or link down resets every function at once (R339). -/
  | conventionalReset
  /-- VF_ENABLE_CHANGE: VF Enable changes, resetting every VF when cleared and changing the share count (R336). -/
  | vfEnableChange (on : Bool) (num : Nat)
  /-- BUS_MASTER_ENABLE_CHANGE: A function's Bus Master Enable changes, pausing or resuming its DMA and writing waiting completions (R337). -/
  | busMasterEnableChange (fn : Nat) (on : Bool)
  /-- SPDM_REQUEST: An SPDM request over DOE on PF0, answered by the responder (R614). -/
  | spdmRequest (r : SpdmReq)
  /-- UCIE_LINK_TRAINING: UCIe link trains, requiring the partner's Lath carriage capability (R313); rates as SYS_LINK.RATE
  codes them. -/
  | ucieLinkTraining (partnerLath : Bool) (rates : List Nat) (repaired : Bool)
  /-- UCIE_FLIT_RECEIVE: A received flit is decoded, corrected or NAKed, and released when all words pass (R312). -/
  | ucieFlitReceive (f : Flit)
  /-- UCIE_RETRAIN: Replay rate above 1 in 10^6 over a second retrains the module at the next lower rate (R314). -/
  | ucieRetrain (replays flits : Nat)
  /-- PORST_N_ASSERT: PORST_N asserted: main-power monitors masked, device reset, backup operation begins (R546). -/
  | porstNAssert
  /-- PORST_N_DEASSERT: PORST_N deasserted: monitors armed and START-UP runs (R594). -/
  | porstNDeassert (b : BootFacts)
  /-- RAIL_UNDERVOLTAGE: A main rail below 90 % of its minimum holds the die in reset as if PORST_N were asserted (R658). -/
  | railUndervoltage
  /-- VAUX_LOW: VAUX falls below 1.6 V and backup operation begins on VBAT (R558). -/
  | vauxLow
  /-- BACKUP_SAMPLE: At each backup period the VBAT domain samples its sources and may erase BBKEK and record a pending advance (R558). -/
  | backupSample (events : BitVec 18)
  /-- ADVANCE_RETRY: Primer retries a blocked pending advance every 100 ms (R560). -/
  | advanceRetry
  /-- SCRIM_CHECK: Every 2 µs a die net or package loop is driven and checked (R547). -/
  | scrimCheck (net : Nat) (sent got : W32) (short : Bool)
  /-- TAMPER_EVENT: A monitor detects the condition of a tamper source (R544). -/
  | tamperEvent (src : Nat) (engine lane cls owner : Nat)
  /-- JTAG_ACCESS: JTAG input, ignored outside FACTORY (R663). -/
  | jtagAccess (op : JtagOp)
  /-- PORT_SIGNAL_LOSS: Loss of signal or block lock takes a port DOWN (R95). -/
  | portSignalLoss (port : Nat)
  /-- PORT_UP: Block lock held for 10 ms, and negotiation complete, takes a port UP (R95). -/
  | portUp (port : Nat) (negotiated : Bool)
  /-- PORT_DEGRADED: Errors in the last second reach the degrade threshold and the port enters DEGRADED (R96). -/
  | portDegraded (port errs : Nat)
  /-- PORT_UNDEGRADE: Ten consecutive seconds below threshold return a DEGRADED port to UP (R96). -/
  | portUndegrade (port : Nat)
  /-- FRAME_RECEIVE: A frame arrives at a port and passes decoding, timestamping, checks, MACsec, HSR decision and tag stripping (R105). -/
  | frameReceive (port : Nat) (f : RxFrame)
  /-- DUP_WAIT_RELEASE: A copy waiting at step 3 is released when the pending copy is accepted or dropped (R125). -/
  | dupWaitRelease (bp src seq : Nat)
  /-- CONTEXT_FETCH_DONE: A context fetched from HBM through the Sealer arrives and the waiting frame continues (R141). -/
  | contextFetchDone (ctx : Nat) (ok : Bool)
  /-- DUP_WINDOW_CLEAR: A source silent for 400 ms has its duplicate window cleared (R129). -/
  | dupWindowClear (bp src : Nat)
  /-- INDEX_SWAP: A rebuilt classification index is swapped in at a slot boundary (R139). -/
  | indexSwap
  /-- CACHE_LATH_FAULT: A context cache entry fails its Lath check and is refetched or rebuilt (R144). -/
  | cacheLathFault (ctx : Nat) (modified : Bool)
  /-- ANNOUNCE_TIMEOUT: Announce times out and the bus pair is disqualified (R58). -/
  | announceTimeout (bp : Nat) (lanB : Bool)
  /-- FREERUN_ENTRY: The holdover error estimate exceeds the holdover limit and the time unit enters FREERUN (R69). -/
  | freerunEntry
  /-- REVERT_HOLD_EXPIRY: A higher-priority bus pair has stayed qualified for the revert hold and becomes the source (R60). -/
  | revertHoldExpiry (bp : Nat)
  /-- PPS_IN_EDGE: A PPS_IN rising edge is timestamped and its offset reported (R72). -/
  | ppsInEdge
  /-- PPS_IN_TIMEOUT: No PPS_IN edge for 2 s clears PPS_IN_OK (R72). -/
  | ppsInTimeout
  /-- PPS_OUT_PULSE: PPS_OUT rises at each TAI second boundary and falls 10 ms later (R72). -/
  | ppsOutPulse (rise : Bool)
  /-- OSC10M_CHANGE: OSC10M_IN appears, disappears or leaves range, changing OSC10M_OK (R66): its frequency error from 10
  MHz in 0.001 ppm, none when it is absent. -/
  | osc10mChange (err : Option Int)
  /-- SLOT_START_EVENT: The slot-start event of a bus pair's slot fires, sending heartbeats (R75). -/
  | slotStartEvent (bp : Nat)
  /-- KEY_PROMOTE: At slot SWITCH + OVERLAP the next key becomes current (R151). -/
  | keyPromote (ctx : Nat)
  /-- SUPERVISION_EXPIRY: A GOOSE context's supervision expires, making it STALE and writing EXPIRED (R159). -/
  | supervisionExpiry (ctx : Nat)
  /-- GOOSE_RETRANSMIT: A retransmission falls due and a frame with the next sqNum is sent (R298). -/
  | gooseRetransmit (ctx : Nat)
  /-- PUB_FIRST_STATE: The first state, stNum 1, is sent at the first slot-start after pub.open takes effect (R292). -/
  | pubFirstState (ctx : Nat)
  /-- TIME_TRIGGER: A TIME trigger fires at its set slot (R205). -/
  | timeTrigger (trig : Nat)
  /-- PENDING_RAISE_DISCARD: A standby's pending raise is discarded 64 slots after its slot (R297). -/
  | pendingRaiseDiscard
  /-- BUDGET_PERIOD_BOUNDARY: At each period boundary every leaf resets its deficit counter (R390). -/
  | budgetPeriodBoundary
  /-- SLOT_CLOSE_EVENT: A group's slot-close event fixes its rows, substitutes and starts Trowel slot work (R175). -/
  | slotCloseEvent (bp group : Nat)
  /-- TRACKER_COAST: No crossing within 1.25·E: the tracker coasts, fires synthetic events, and moves to the alternate or LOST (R84). -/
  | trackerCoast (bp : Nat)
  /-- SHEET_WRITE: After Trowel end, derived rows and header are written, MAC computed and PROD updated (R22). -/
  | sheetWrite (fn ring : Nat)
  /-- SV_FRAME_BUILD: Once its derived rows are fixed, a published SV frame is built and sent (R302). -/
  | svFrameBuild (ctx : Nat)
  /-- PORT_TRANSMIT: A port transmits the next frame of its egress queues in strict priority (R106). -/
  | portTransmit (port : Nat)
  /-- PRP_SUPERVISION: Every 2 s a PRP supervision frame is sent on both LANs (R100). -/
  | prpSupervision (bp : Nat)
  /-- RECORD_COPY_START: 64 slots after its last slot closes, Hawk starts copying a record (R209). -/
  | recordCopyStart (recNo : Nat)
  /-- RECORD_SEAL: A copied record is signed and sealed into the archive volume, or dropped (R213). -/
  | recordSeal (recNo : Nat)
  /-- CORE_SELFTEST: A core runs its built-in self-test and is retired when it fails (R249). -/
  | coreSelftest (core : Nat) (pass : Bool)
  /-- HEALTH_WINDOW_END: A 4,096-bit health window ends; a pass conditions and releases a block, a failure stops DRBG output (R461). -/
  | healthWindowEnd (src : Nat) (error0 error1 : List Byte) (raw : List Byte)
  /-- ENTROPY_TIMEOUT: Instance 0 is not instantiated within 50 ms and held draws complete ENTROPY_TIMEOUT (R470). -/
  | entropyTimeout
  /-- RNG_RESUME_TIMEOUT: Output does not resume within 50 ms of a failure and waiting draws time out (R473). -/
  | rngResumeTimeout
  /-- CHALLENGE_EXPIRY: A quorum nonce becomes invalid 60 s after issue (R503). -/
  | challengeExpiry
  /-- SEALER_ACCESS: The Sealer reads or writes a sealed sector, verifying tags and tree, and halts the device on a failed check (R524). -/
  | sealerAccess (rid lbn : Nat) (op : SealOp) (r : SectorRead)
  /-- REKEY_WALK: The re-key walker rewrites sectors of the old epoch and erases its keys at the end (R530). -/
  | rekeyWalk (rid : Nat)
  /-- ROW_REPAIR: A failing HBM row is copied aside and repaired by soft post-package repair (R532). -/
  | rowRepair (row : HbmRow) (spareRow : Bool)
  /-- VOL_WRITE_REPOST: A failed volume WRITE is reposted once per second (R539). -/
  | volWriteRepost (idx : Nat)
  /-- PUTTY_SWAP: At a slot-start event the incoming control-core pair takes over queues and journal (R606). -/
  | puttySwap
  /-- SHADOW_SWITCH: A loaded component 2 to 7 takes effect at a budget-grid slot-start event (R609). -/
  | shadowSwitch (comp : Nat)
  /-- LOG_RECORD: The recorder takes a queued event and opens, folds or drops a record under the policy (R618). -/
  | logRecord
  /-- PAIR_LISTEN_END: The 64-slot pair listen ends in STANDBY or ACTIVE (R566). -/
  | pairListenEnd
  /-- PAIR_HEARTBEAT_TX: The active sends a pair-link heartbeat every 10 µs (R576). -/
  | pairHeartbeatTx
  /-- MIRROR_ENTRY: The standby applies a mirrored configuration change, journal entry, context delta or publication state (R568). -/
  | mirrorEntry (m : MirrorItem)
  /-- MIRROR_ACK: The active receives the standby's acknowledgement and releases the admission or external effect (R33). -/
  | mirrorAck (tok : Nat)
  /-- STANDBY_ADMISSION: The active takes a standby's admission entry, assigns its token and acknowledges it (R570). -/
  | standbyAdmission (c : Cmd)
  /-- FIX_RECORD: The standby compares a fix record with its rows and requests the active's rows on a difference (R572). -/
  | fixRecord (bp group slot : Nat) (digest : List Byte)
  /-- ROWS_ADOPT: The standby replaces its rows with the active's rows for a group (R572). -/
  | rowsAdopt (bp group slot : Nat) (rows : List Row)
  /-- FIX_RECORD_ACK: The active receives the standby's acknowledgement and updates PROD (R573). -/
  | fixRecordAck (bp group slot : Nat)
  /-- SLOT_CONFIRM: The standby discards held sheets of a confirmed slot (R574). -/
  | slotConfirm (slot : Nat)
  /-- TAKEOVER: Both paths silent for T slots, or an announcement, make the standby take over (R578). -/
  | takeover (announced : Bool)
  /-- PARTNER_LOST: The active hears no pair-link traffic for T slots and proceeds without mirroring (R579). -/
  | partnerLost
  /-- RESYNC_COMPLETE: A new standby finishes its copy and 64 slots of fix records and sets SYNCED (R584). -/
  | resyncComplete (epoch token recnum proto : Nat)
  /-- HANDOVER_SWITCH: After the handover wait, at the next slot-start the standby takes over and the old active becomes standby (R589). -/
  | handoverSwitch
  /-- HEALTH_REPORT: Each second a member makes a health report, sent by a standby to the active (R586). -/
  | healthReport
  /-- SPAN_LINK_TRAINING: A span link trains, exchanges nonces and proves its link keys (R633). -/
  | spanLinkTraining (link peer : Nat) (peerId peerNonce proof : List Byte)
  /-- SPAN_FLIT_RECEIVE: A span flit is decoded and its group authenticated, or NAKed for replay (R632). -/
  | spanFlitReceive (link : Nat) (f : Flit) (gcmTagOk : Bool) (msg : Option PairRx)
  /-- SPAN_LINK_DOWN: Tag failures, lost lock, replay rate or 1 µs of silence take a span link DOWN (R634). -/
  | spanLinkDown (link tagFails : Nat)
  /-- SPAN_LINK_RETRAIN: A span link retrains 100 ms after going DOWN (R634). -/
  | spanLinkRetrain (link : Nat)
  /-- ROUTE_PACKET: A flooded ROUTE packet recomputes the route table (R646). -/
  | routePacket (failedA failedB : Nat)
  /-- SPAN_PACKET_RECEIVE: A packet is forwarded or delivered in SEQ order, or held ahead of a gap (R641). -/
  | spanPacketReceive (link : Nat) (k : Packet)
  /-- SPAN_GAP_TIMEOUT: A sequence gap unfilled for 1 ms makes the source unreachable (R641). -/
  | spanGapTimeout (src : Nat)
  /-- REMOTE_COMMAND: A device executes a command handed over by the gateway and returns its outcome (R378). -/
  | remoteCommand (c : Cmd)
  /-- REMOTE_OUTCOME: The gateway journals a returned outcome and writes output and completion (R378). -/
  | remoteOutcome (tok : Nat) (status : Nat) (result : W32) (epoch dev : Nat) (output : List Byte)
  /-- GATEWAY_UNREACHABLE: After 1 ms without a route, a handed-over command is cancelled, or the gateway ends it DEVICE_UNREACHABLE (R380). -/
  | gatewayUnreachable (tok : Nat)
  /-- NUMBER_PACKET: A numbering packet floods the domain and the matching device takes the number (R635). -/
  | numberPacket (devid : List Byte) (num : Nat)
  /-- SHEET_PACKET: The gateway writes a sheet arriving from a span device and updates PROD (R644). -/
  | sheetPacket (fn ring slot : Nat) (octets : List Byte)
  /-- PDELAY_REQUEST: Each LAN's PTP port periodically sends a Pdelay request to measure its peer delay continuously (R57). -/
  | pdelayRequest (port : Nat)
  /-- PATH_SUSPECT: One heartbeat path has been silent for T slots while the other has not, so the standby sets PATH_SUSPECT and logs the event without taking over (R577). -/
  | pathSuspect
  /-- VOL_STALL: A volume transfer request has been outstanding for over 1 s, so SLR_STATUS.VOL_STALL is set (R543). -/
  | volStall (idx : Nat)
  /-- VAUX_WITHIN_LIMITS: VAUX returns within its limits, and the VBAT domain goes back from drawing on VBAT to drawing on VAUX, clearing ON_VBAT (R558). -/
  | vauxWithinLimits
  /-- STANDBY_SELF_TEST: In idle capacity, a standby runs known-answer tests on every engine and built-in self-tests on every testable block, and its results feed FIT and the health report (R585). -/
  | standbySelfTest (sub run fail cover code : Nat)
  deriving DecidableEq, Repr

end Sys2Proof
end

