-- ==== Sys2Proof/Decode.lean ====
section
/-! DEFINITION. Decode.lean: the command that a word spells by the table's bits. No row of spec/opcode_table.json gives
bits (its commands arrive as submission entries, register accesses, pins and frames), so no word spells a command
(log 34). The encoding of EZS-32 words (R257 to R276), which a Trowel core fetches inside the block, is in
Machine/Operands.lean. -/
namespace Sys2Proof

/-- The command of a word of the opcode table. -/
def decodeTableWord (_nbits _w : Nat) : Option Instr := none

end Sys2Proof
end

