-- ==== Sys2Proof/Config.lean ====
section
/-! DEFINITION. Config.lean: what a die fixes (fuses), the algorithms that the spec takes from other standards, and the
free values. All are constants without a body: no proof can see a value of them (log 2, log 8, log 9). -/
namespace Sys2Proof.Config

/-- Die stepping, a fuse (R324). -/
opaque stepping : BitVec 8
/-- Vendor ID and subsystem IDs, fuses (R317). -/
opaque vendorId : BitVec 16
opaque subVendorId : BitVec 16
opaque subDeviceId : BitVec 16
/-- The fused MAC base address, in wire order as a 48-bit integer (R93). -/
opaque macBase : BitVec 48
/-- Device root key, 64 octets of OTP (R485). -/
opaque drk : List Byte
/-- The Ocartin firmware key in Primer ROM (R602). -/
opaque firmwareKey : List Byte
/-- Credits of a virtual channel of a span link at training (R637). -/
opaque vcCredits : Nat
/-- Certificates of the slot 0 and slot 1 keys (R613). -/
opaque certificate : Nat → List Byte

/-- A hash function by its code of R416 (SHA-2, SHA-3): FIPS 180-4, FIPS 202. -/
opaque hash (alg : Nat) (msg : List Byte) : List Byte
/-- SHAKE and cSHAKE by code, with function name and customisation, to a number of octets (R417). -/
opaque xof (alg : Nat) (name custom msg : List Byte) (n : Nat) : List Byte
/-- KMAC by code 10 or 11: key, input, output octets, customisation (SP 800-185). -/
opaque kmac (alg : Nat) (key msg : List Byte) (n : Nat) (custom : List Byte) : List Byte
/-- HMAC by code 16 to 21. -/
opaque hmac (alg : Nat) (key msg : List Byte) : List Byte
/-- AES modes of R413 by code: direction, key, IV, data; the output octets. -/
opaque cipher (mode : Nat) (dir : Bool) (key iv data : List Byte) : List Byte
/-- Tag of GCM (3), GMAC (4) or CMAC (6): key, IV, additional data, ciphertext or message (SP 800-38D, 38B). -/
opaque tag (mode : Nat) (key iv aad data : List Byte) : List Byte
/-- KW (7) and KWP (8): wrap, and unwrap that can fail (SP 800-38F). -/
opaque wrap (mode : Nat) (key data : List Byte) : List Byte
opaque unwrap (mode : Nat) (key data : List Byte) : Option (List Byte)
/-- The 512 octets of a session's state block under the session key, whose cipher the spec does not name (R409, log 39).
The chaining state of a session in the 496 octets of a saved blob (R427), and back, from IV, additional data, input
absorbed, its octets, and the flags STREAMED and FINAL (log 39). -/
opaque stateBlock (sesKey : List Byte) (session : Nat) (key state : List Byte) : List Byte
opaque packState (iv aad chain : List Byte) (octets : Nat) (streamed final : Bool) : List Byte
opaque unpackState (state : List Byte) : List Byte × List Byte × List Byte × Nat × Bool × Bool
/-- The nonce that IEC 62351-6 and IEC 61850-90-5 take for AES-GMAC from the octets covered (R146). -/
opaque busNonce (octets : List Byte) : List Byte
/-- GHASH tags of the Sealer (R518, R521, R536): key material and the octets covered; 64 and 128 bits. -/
opaque sealTag (keys octets nonce : List Byte) : Nat
opaque volTag (keys octets nonce : List Byte) : List Byte
/-- Keyed 32-bit digest of a frame (R124) and keyed 64-bit index hash (R137). -/
opaque frameDigest (key octets : List Byte) : W32
opaque indexHash (seed : W64) (key : List Byte) : W64

/-- A private key generated from seed octets, by PKE algorithm code (R437, R487). -/
opaque pkePrivate (alg : Nat) (seed : List Byte) : List Byte
/-- The public key of a private key. -/
opaque pkePublic (alg : Nat) (priv : List Byte) : List Byte
/-- A signature: algorithm and padding word, private key, context string, message, random octets; none when none of
the 96 iterations of ML-DSA yields one (R447, R448). -/
opaque pkeSign (alg : W32) (priv ctx msg rnd : List Byte) : Option (List Byte)
/-- Whether a well-formed signature verifies (R450). -/
opaque pkeVerify (alg : W32) (pub ctx msg sig : List Byte) : Bool
/-- The input checks of R449 by algorithm and command: key, signature or peer value. -/
opaque pkeValid (alg : W32) (key input : List Byte) : Bool
/-- Shared secret of a private key and a peer's public key (R439). -/
opaque pkeAgree (alg : Nat) (priv peer : List Byte) : List Byte
/-- ML-KEM-1024: ciphertext and secret from a public key and a seed; secret from a ciphertext (R451). -/
opaque kemEncap (pub seed : List Byte) : List Byte × List Byte
opaque kemDecap (priv ct : List Byte) : List Byte

/-- Output of a CTR_DRBG from its seed material, generate number and length (SP 800-90A). -/
opaque drbg (seed : List Byte) (gen n : Nat) : List Byte

/-- Lane or core of an engine that takes a client's block, by the time (R405, R406): the device's choice. -/
opaque laneOf (engine client clock : Nat) : Nat
/-- Engine cycles of an amount of work whose cycles the spec does not state, by kind (log 42): 0 an index rebuild (R139),
1 a closing sequence, 2 octets written to host memory (R179), 3 a context fetch, 4 a history write, 5 a history read (R385),
6 a publication build (R306), 7 a sector of a walk (R530), 8 slots of a record copy (R209), 9 sectors of a volume transfer, 10 a command
fetched and checked, 11 octets moved to or from host memory, 12 a table walk, 13 a completion, 14 a test by its parameter,
15 octets of a record written, 16 octets of the log read, 17 octets of a generate
(R385, R467). -/
opaque workCycles (kind amount : Nat) : Nat
/-- Where the metadata area holds an item, in items of 128 octets, by stack, region, level and position (R515, log 90). -/
opaque metaPlace (stack rid level idx : Nat) : Nat
/-- The row, bank included, of a physical word address of the stack (R532, log 90). -/
opaque rowOf (addr : Nat) : Nat
/-- The engine that a diag. test by its parameter runs on (R385, log 55). -/
opaque testEngine (param : W32) : Nat
/-- The gateway's share count S at a period boundary of a span device, by the time (R388, log 42). -/
opaque gatewayShares (clock : Nat) : Nat
/-- Which entry a displacement of the classification index moves, by insertion and step (R139). -/
opaque indexVictim (insertion step : Nat) : Nat
/-- Octets of a member whose type and source the spec gives no encoding for: type, source, word (R288, log 26). -/
opaque oddMember (type src : Nat) (w : W32) : List Byte
/-- Free values: what the spec leaves open, by the model's counter (log 2). -/
opaque freeNat : Nat → Nat
opaque freeByte : Nat → Byte
opaque freeWord : Nat → W32
opaque freeBool : Nat → Bool

end Sys2Proof.Config
end

