-- ==== Sys2Proof/Machine/Maps.lean ====
section
/-! DEFINITION. Maps.lean: tables keyed by a number in one canonical form (keys strictly rising), lists read and
written by index, sparse octet memories, bit fields and octet order. The laws are in Laws/Maps.lean. -/
namespace Sys2Proof.Machine

/-- The entry of key k. -/
def mget {α : Type} : Map α → Nat → Option α
  | [], _ => none
  | (k', v) :: m, k => if k = k' then some v else mget m k

/-- The table with v at key k, keys kept rising. -/
def mset {α : Type} : Map α → Nat → α → Map α
  | [], k, v => [(k, v)]
  | (k', v') :: m, k, v =>
    if k < k' then (k, v) :: (k', v') :: m
    else if k = k' then (k, v) :: m
    else (k', v') :: mset m k v

/-- The table without key k. -/
def mdel {α : Type} : Map α → Nat → Map α
  | [], _ => []
  | (k', v') :: m, k => if k = k' then m else (k', v') :: mdel m k

/-- The table with the entry of k changed by f, where there is one. -/
def mupd {α : Type} : Map α → Nat → (α → α) → Map α
  | [], _, _ => []
  | (k', v') :: m, k, f => if k = k' then (k', f v') :: m else (k', v') :: mupd m k f

/-- The entry of k, or d. -/
def mgetD {α : Type} (m : Map α) (k : Nat) (d : α) : α := (mget m k).getD d

/-- Keys strictly rising, all above lo. -/
def msorted {α : Type} : Option Nat → Map α → Bool
  | _, [] => true
  | none, (k, _) :: m => msorted (some k) m
  | some lo, (k, _) :: m => decide (lo < k) && msorted (some k) m

/-- The list with index i changed by f, unchanged outside its length. -/
def lupd {α : Type} : List α → Nat → (α → α) → List α
  | [], _, _ => []
  | a :: l, 0, f => f a :: l
  | a :: l, n + 1, f => a :: lupd l n f

/-- The element at index i, or d. -/
def lget {α : Type} (l : List α) (i : Nat) (d : α) : α := l.getD i d

/-- Octet a of a memory whose unlisted octets read 0. -/
def memRd : List Host.Cell → Nat → Byte
  | [], _ => 0
  | (k, v) :: m, a => if a = k then v else memRd m a

/-- The memory with octet a written: an octet of value 0 is not listed. -/
def memWr : List Host.Cell → Nat → Byte → List Host.Cell
  | [], a, v => if v = 0 then [] else [(a, v)]
  | (k, v') :: m, a, v =>
    if a < k then (if v = 0 then (k, v') :: m else (a, v) :: (k, v') :: m)
    else if a = k then (if v = 0 then m else (a, v) :: m)
    else (k, v') :: memWr m a v

/-- Canonical form: addresses strictly rising and no entry equal to 0, what an unlisted address reads as. -/
def memWf : Option Nat → List Host.Cell → Bool
  | _, [] => true
  | none, (k, v) :: m => decide (v ≠ 0) && memWf (some k) m
  | some lo, (k, v) :: m => decide (lo < k) && decide (v ≠ 0) && memWf (some k) m

/-- n octets from address a. -/
def memRdN (m : List Host.Cell) (a : Nat) : Nat → List Byte
  | 0 => []
  | n + 1 => memRd m a :: memRdN m (a + 1) n

/-- Octets written from address a upwards. -/
def memWrN (m : List Host.Cell) (a : Nat) : List Byte → List Host.Cell
  | [] => m
  | b :: bs => memWrN (memWr m a b) (a + 1) bs

/-- A little-endian number from octets (R7). -/
def leNat : List Byte → Nat
  | [] => 0
  | b :: bs => b.toNat + 256 * leNat bs

/-- n octets of a number, lowest first (R7). -/
def leOctets : Nat → Nat → List Byte
  | 0, _ => []
  | n + 1, v => BitVec.ofNat 8 v :: leOctets n (v / 256)

/-- n octets of a number, highest first (wire order, R8). -/
def beOctets (n v : Nat) : List Byte := (leOctets n v).reverse

/-- A number from octets in wire order. -/
def beNat (l : List Byte) : Nat := leNat l.reverse

/-- Exactly n octets: cut, or filled with zeros. -/
def fit (n : Nat) (l : List Byte) : List Byte := l.take n ++ List.replicate (n - l.length) 0

/-- Octets [off, off + n) of a list, zeros beyond its end. -/
def octets (l : List Byte) (off n : Nat) : List Byte := fit n (l.drop off)

/-- A 32-bit little-endian word at an octet offset. -/
def word32 (l : List Byte) (off : Nat) : W32 := BitVec.ofNat 32 (leNat (octets l off 4))

/-- A little-endian field of n octets at an offset. -/
def field (l : List Byte) (off n : Nat) : Nat := leNat (octets l off n)

/-- Bits [hi:lo] of a word as a number. -/
def bits (w : W32) (hi lo : Nat) : Nat := w.toNat / 2 ^ lo % 2 ^ (hi + 1 - lo)

/-- Bit i of a word. -/
def bit (w : W32) (i : Nat) : Bool := w.getLsbD i

/-- A bit as a number. -/
def b2n (b : Bool) : Nat := if b then 1 else 0

/-- A word from fields: value and lowest bit of each. -/
def pack : List (Nat × Nat) → W32
  | [] => 0
  | (v, lo) :: fs => BitVec.ofNat 32 (v * 2 ^ lo) ||| pack fs

/-- The word with bit i set. -/
def setBit (w : W32) (i : Nat) : W32 := w ||| BitVec.ofNat 32 (2 ^ i)

/-- A list padded to a multiple of n octets. -/
def padTo (n : Nat) (l : List Byte) : List Byte := l ++ List.replicate ((n - l.length % n) % n) 0

/-- A count that saturates. -/
def satAdd (lim a b : Nat) : Nat := min lim (a + b)

/-- A counter of 32 bits, saturating (R132). -/
def sat32 (n : Nat) : Nat := min 0xFFFFFFFF n

/-- A 64-bit signed number from octets as two's complement of n octets. -/
def sInt (n : Nat) (v : Nat) : Int := if v < 2 ^ (8 * n - 1) then v else (v : Int) - 2 ^ (8 * n)

/-- A signed number as 32 bits. -/
def w32OfInt (i : Int) : W32 := BitVec.ofInt 32 i

/-- Octets of a word, lowest first. -/
def w32le (w : W32) : List Byte := leOctets 4 w.toNat

end Sys2Proof.Machine
end

