-- ==== Sys2Proof/Machine/State.lean ====
section
/-! DEFINITION. State.lean: everything the spec lets the VK9612 hold, as plain data, and the state right after reset.
Each field's comment gives its width, the rule of spec/ that names it and its reset value; 'log n' is a row of
notes/assumptions. Counters of 64 bits that do not wrap in the device's life are natural numbers (log 3). -/
namespace Sys2Proof.Machine

/-- An SH field: the value and its inverted shadow (R549). -/
structure Sh where
  val : W32
  inv : W32
  deriving DecidableEq, Repr, Inhabited

/-- One contiguous extent of a pinned map (R331): IOVA, bus address, octets. -/
structure Extent where
  iova : Nat
  bus : Nat
  len : Nat
  deriving DecidableEq, Repr, Inhabited

/-- A translation cache entry of one function (R330): page base, page size, bus address, permissions of the walk. -/
structure CacheEnt where
  page : Nat
  size : Nat
  bus : Nat
  rd : Bool
  wr : Bool
  deriving DecidableEq, Repr, Inhabited

/-- A ledger entry (R345). -/
structure LEntry where
  tag : W32
  status : Nat
  queue : Nat
  tok : Nat
  epoch : Nat
  result : W32
  opc : Nat
  resetNo : Nat
  deriving DecidableEq, Repr, Inhabited

/-- A completion that waits for its turn on a queue pair, in fetch order (R368). -/
inductive Waiting where
  /-- A refused entry: TAG and status (R367). -/
  | refused (tag : W32) (status : Nat) (noirq : Bool) (dev : Nat)
  /-- An admitted command by its token. -/
  | admitted (tok : Nat)
  deriving DecidableEq, Repr, Inhabited

/-- A queue pair (R352 to R359). -/
structure Queue where
  /-- 2 bits; QSTATE: 0 NONE, 1 RUNNING, 2 ERROR (R325, 09); PAUSED is read from Bus Master Enable; reset 0. -/
  st : Nat
  /-- 6 bits; QCAUSE (R325, 09); reset 0. -/
  cause : Nat
  /-- 13 bits; entries N (R352, 10); reset 0 (log 1). -/
  n : Nat
  /-- 64 bits; submission queue base (R358, 10); reset 0 (log 1). -/
  sqBase : Nat
  /-- 64 bits; completion queue base (R358, 10); reset 0 (log 1). -/
  cqBase : Nat
  /-- 8 bits; MSI-X vector (R358, 10); reset 0 (log 1). -/
  vec : Nat
  /-- 1 bit; MSI-X vector enabled (R358, 10); reset false (log 1). -/
  vecEn : Bool
  /-- 12 bits; submission head H (R353, 10); reset 0. -/
  head : Nat
  /-- 12 bits; submission tail T, SQq_TAIL (R325, 09); reset 0. -/
  tail : Nat
  /-- count; entries fetched since creation (R354, 10); reset 0. -/
  fetched : Nat
  /-- count; completion entries written since creation (R364, 10); reset 0. -/
  written : Nat
  /-- count; completion entries released through CQq_HEAD (R354, 10); reset 0. -/
  released : Nat
  /-- list; pinned map of the submission queue (R331, 09); reset empty. -/
  sqMap : List Extent
  /-- list; pinned map of the completion queue (R331, 09); reset empty. -/
  cqMap : List Extent
  /-- list; completions waiting, in fetch order (R368, 10); reset empty. -/
  waiting : List Waiting
  /-- list; journal tokens of entries written and not yet released, oldest first, 0 for a refused entry (R371, 10); reset empty. -/
  unreleased : List Nat
  deriving DecidableEq, Repr, Inhabited

/-- A sheet ring or event ring (R198 to R204). -/
structure Ring where
  /-- 1 bit; Rr_STATUS.ACTIVE (R327, 09); reset 0. -/
  active : Bool
  /-- 1 bit; Rr_STATUS.STOPPED (R327, 09); reset 0. -/
  stopped : Bool
  /-- 1 bit; Rr_STATUS.BADCONS (R327, 09); reset 0. -/
  badCons : Bool
  /-- 1 bit; Rr_STATUS.FULL (R327, 09); reset 0. -/
  full : Bool
  /-- 32 bits; Rr_CONS (R327, R203); reset 0. -/
  cons : W32
  /-- 64 bits; PROD (R201, 05); reset 0. -/
  prod : Nat
  /-- 5 bits; log2 of the buffer's octets m (R198, 05); reset 0 (log 1). -/
  m : Nat
  /-- 64 bits; buffer address (R198, 05); reset 0 (log 1). -/
  buf : Nat
  /-- 64 bits; control block address (R198, 05); reset 0 (log 1). -/
  ctl : Nat
  /-- list; pinned map of the buffer (R331, 09); reset empty. -/
  bufMap : List Extent
  /-- list; pinned map of the control block (R331, 09); reset empty. -/
  ctlMap : List Extent
  /-- 8 bits; MSI-X vector (R198, 05); reset 0 (log 1). -/
  vec : Nat
  /-- 1 bit; MSI-X vector enabled (R198, 05); reset false (log 1). -/
  vecEn : Bool
  /-- 16 octets; RINGSALT (R195, R201); reset empty. -/
  salt : List Byte
  /-- list of 16-bit row identifiers; the view (R197, 05); reset empty. -/
  view : List Nat
  /-- 2 bits, optional; phase-cycle tracker of the view (R197, 05); reset none. -/
  tracker : Option Nat
  /-- 1 bit; no sheet written since creation or reset: FIRST is owed (R46, R190); reset false. -/
  first : Bool
  /-- 64 bits; LASTSLOT (R201, 05); reset 0. -/
  lastSlot : Nat
  /-- 64 bits; MISSED (R201, 05); reset 0. -/
  missed : Nat
  /-- 64 bits; EPOCH of creation or reset (R201, 05); reset 0. -/
  epoch : Nat
  /-- 16 bits; entries not written since the previous entry, LOST (R160, R161); reset 0. -/
  lost : Nat
  deriving DecidableEq, Repr, Inhabited

/-- What a function owns: PF0 is number 0, VF n number n (R317). -/
structure Fn where
  /-- 1 bit; VFS_STATUS.FENCED (R326, 09); reset 0. -/
  fenced : Bool
  /-- 1 bit; Bus Master Enable, NOBME is its complement (R326, R337); reset true: NOBME resets to 0. -/
  bme : Bool
  /-- 1 bit; a Dado root is bound, NOROOT is its complement (R326, R328); reset keep, at first power-up false. -/
  rootBound : Bool
  /-- 64 bits with inverted shadow; Dado table root, SH (R328, R549); reset keep, at first power-up 0. -/
  root : W64
  rootInv : W64
  /-- 32 bits; VFS_EVT, W1C (R326, 09); reset 8 for a VF: FLR is 1. -/
  evt : W32
  /-- 8 bits; count of resets modulo 256, RESETNO (R345, 09); reset 0 (log 1). -/
  resetNo : Nat
  /-- up to 65,536 entries of 32 octets and those that the journal holds (R345, R348); reset empty at power-up. -/
  ledger : List LEntry
  /-- 1 bit; LEDGER.UNREAD (R325, R347); reset keep, at power-up false. -/
  unread : Bool
  /-- 16 queue pairs (R352, 10); reset NONE each. -/
  queues : List Queue
  /-- 5 rings: sheet rings 0 to 3 and the event ring 4 (R198, 05); reset inactive each. -/
  rings : List Ring
  /-- 16 bits, optional; key slot bound as sheet key (R193, 05); reset none. -/
  sheetKey : Option Nat
  /-- 32 octets; context key for wrapped save (R428, 12); drawn at each reset; reset empty (log 1). -/
  ctxKey : List Byte
  /-- list; translation cache entries, oldest first (R330, 09); reset empty. -/
  cache : List CacheEnt
  /-- 16 bits; DDO_FNf.FAULTS (R338, 09); reset 0. -/
  faults : Nat
  deriving DecidableEq, Repr, Inhabited

/-- Who marked a running command (R343, R376, R333). -/
inductive Mark where
  | none
  /-- By cmd.abort with this acceptance token. -/
  | abort (by_ : Nat)
  | reset
  | dado
  deriving DecidableEq, Repr, Inhabited

/-- A status, result word and epoch, and the device that executed (R363). -/
structure Outcome where
  status : Nat
  result : W32
  epoch : Nat
  dev : Nat
  deriving DecidableEq, Repr, Inhabited

/-- The result of engine work that has not been journalled yet (R33). -/
structure Staged where
  status : Nat
  result : W32
  out : List Byte
  /-- Octets of the output range that the engine has already written in place (R420, R423). -/
  wrote : Nat
  deriving DecidableEq, Repr, Inhabited

/-- A journal entry (R31, R33, R371). -/
structure JEntry where
  cmd : Cmd
  /-- Elapsed time of admission in ns (R395), and TAI time then: the instant of a pub.send's state change (R291). -/
  at_ : Nat
  tai : Nat
  /-- The admission is mirrored, or there is no pair (R31). -/
  admAck : Bool
  started : Bool
  mark : Mark
  staged : Option Staged
  outcome : Option Outcome
  /-- The outcome is mirrored, or there is no pair (R33). -/
  outAck : Bool
  /-- The completion entry is written (R37). -/
  written : Bool
  /-- Recorded in a ledger (R38, R371). -/
  ledgered : Bool
  /-- Handed to another span device (R378). -/
  remote : Bool
  /-- The nonce that the admission of a quorum command consumed, where it was valid (R503). -/
  nonce : Option (List Byte)
  deriving DecidableEq, Repr, Inhabited

/-- What a frame that the device sends carries (R106). -/
inductive TxBody where
  /-- Domain and sequenceId; of a response also the requester's port identity. -/
  | pdelayReq (domain seq : Nat)
  | pdelayResp (domain seq : Nat) (port : List Byte)
  | heartbeat (h : Heartbeat)
  /-- GOOSE, routed when the flag is set: context, stNum, sqNum, t, timeAllowedToLive, member words (type and octets),
  key ID used, tag, SPDU number. -/
  | goose (routed : Bool) (ctx stNum sqNum : Nat) (t : List Byte) (ttlMs : Nat) (members : List (Nat × List Byte))
      (keyId : Nat) (tag : List Byte) (spdu : Nat)
  /-- SV: context, ASDUs as (smpCnt, smpSynch, members). -/
  | sv (routed : Bool) (ctx : Nat) (asdus : List (Nat × Nat × List (Nat × List Byte))) (keyId : Nat) (tag : List Byte)
      (spdu : Nat)
  /-- An HSR frame forwarded from the other port (R102): the elapsed ns of its arrival and the peer delay of the link it
  came over (R104). -/
  | hsrForward (f : RxFrame) (rxAt delay : Nat)
  /-- A PRP supervision frame with its sequence number (R100). -/
  | prpSupervision (seq : Nat)
  | arpReply (target : List Byte)
  deriving DecidableEq, Repr, Inhabited

/-- A frame in an egress queue. -/
structure TxFrame where
  body : TxBody
  /-- Octets from the destination address to the end of the payload, without 802.1Q tag, RCT, HSR tag and MACsec. -/
  plain : List Byte
  /-- Redundancy tag: 0 none, 1 RCT, 2 HSR tag, with this sequence number (R100, R102). -/
  red : Nat
  seq : Nat
  /-- 802.1Q tag control, 0 untagged. -/
  vlan : Nat
  src : Nat
  /-- Octets on the wire before MACsec, FCS included (R92). -/
  octets : Nat
  /-- Under MACsec: packet number and secure association context (R111). -/
  macsec : Option (Nat × Nat)
  /-- All octets on the wire less the FCS, once the frame has started on its port. -/
  wire : List Byte
  deriving DecidableEq, Repr, Inhabited

/-- Between two members of a pair (R568 to R576). -/
inductive PairMsg where
  | heartbeat (h : Heartbeat)
  | mirror (m : MirrorItem)
  | ack (tok : Nat)
  /-- Fix record: bus pair, group (16 + group for derived rows), slot, digest (R571). -/
  | fix (bp group slot : Nat) (digest : List Byte)
  | fixAck (bp group slot : Nat)
  | wantRows (bp group slot : Nat)
  | rows (bp group slot : Nat) (rows : List Row)
  | confirm (slot : Nat)
  | health (report : List Byte)
  | admission (c : Cmd)
  | refuse (tok status : Nat)
  /-- key.apply or pair.renumber handed to the partner (R496, R583). -/
  | handOver (c : Cmd)
  deriving DecidableEq, Repr, Inhabited

/-- A 72-bit beat of a pseudo-channel (R507, R508): 64 data bits and eight ECC bits, at a physical word address. -/
structure Beat where
  word : Nat
  data : List Byte
  ecc : Byte
  deriving DecidableEq, Repr, Inhabited

/-- What a function's configuration space says (R316 to R318). -/
structure PcieConfig where
  vendor : Nat
  device : Nat
  subVendor : Nat
  subDevice : Nat
  classCode : Nat
  /-- Routing ID, as the distance from PF0's. -/
  routing : Nat
  /-- BARs, all 64-bit and non-prefetchable: number and octets. -/
  bars : List (Nat × Nat)
  /-- MSI-X: vectors, and in BAR2 the offsets of the table and of the pending bits. -/
  vectors : Nat
  table : Nat
  pba : Nat
  /-- Greatest Max_Payload_Size and Max_Read_Request_Size, and non-posted requests outstanding. -/
  maxPayload : Nat
  maxRead : Nat
  tags : Nat
  /-- AER, Function Level Reset, DOE. -/
  aer : Bool
  flr : Bool
  doe : Bool
  /-- SR-IOV: TotalVFs, First VF Offset, VF Stride; 0 on a VF. -/
  totalVfs : Nat
  firstVf : Nat
  stride : Nat
  deriving DecidableEq, Repr, Inhabited

/-- What leaves the die, in order. -/
inductive Output where
  /-- DMA write by a function: address as the function gives it, octets (R362, R364, R202). -/
  | hostWrite (fn : Nat) (addr : Nat) (octets : List Byte)
  | msix (fn vec : Nat)
  /-- Value read from a register window. -/
  | mmio (fn off : Nat) (v : W32)
  /-- Request Retry Status, or Unsupported Request, to the host (R320, R323). -/
  | retryStatus (fn : Nat)
  | unsupported (fn : Nat)
  /-- A function's configuration space, as a configuration read finds it (R316 to R318). -/
  | config (fn : Nat) (v : PcieConfig)
  | frame (port : Nat) (f : TxFrame)
  /-- The frame in progress on a port ends with an invalid FCS (R99). -/
  | frameCut (port : Nat)
  | pps (high : Bool)
  | pair (m : PairMsg)
  | span (link : Nat) (k : Packet)
  | spanTrain (link devnum : Nat) (nonce proof : List Byte)
  | spanNak (link fseq : Nat)
  /-- A UCIe flit of 256 octets in the Lath layout (R310). -/
  | ucieFlit (octets : List Byte)
  /-- Sideband parameter exchange: the capability "Lath carriage" in a version (R313). -/
  | sideband (version : Nat)
  /-- Credits returned to the sender of a virtual channel of a span link (R630, R637). -/
  | spanCredit (link vc n : Nat)
  | spdm (octets : List Byte)
  /-- Sealed sector to HBM: region, LBN, ciphertext in beats, tag, generation (R508, R526). -/
  | hbm (rid lbn : Nat) (beats : List Beat) (tag gen : Nat)
  /-- A metadata line (level 0) or tree node written back to HBM: region, level, position, beats (R508, R519, R520). -/
  | metaItem (rid level idx : Nat) (beats : List Beat)
  /-- Sealed sector delivered to its client (R517). -/
  | sector (rid lbn : Nat) (octets : List Byte)
  /-- Transfer request of the archive volume (R538), posted at its ring index. -/
  | volReq (idx op nsec lba buf : Nat) (phase : Bool)
  deriving DecidableEq, Repr, Inhabited

/-- A bus pair's PTP instance and grid (R56 to R60, R73). -/
structure BpTime where
  /-- 3 bits; PTPSTATE (R87, 02); reset 0. -/
  ptp : Nat
  /-- 1 bit; LANSEL (R87, 02); reset 0. -/
  lanB : Bool
  /-- 1 bit; QUALIFIED (R87, 02); reset 0. -/
  qualified : Bool
  /-- 2 × 1 bit; Announce timed out on LAN A, LAN B (R57, R87); reset false. -/
  annToA : Bool
  annToB : Bool
  /-- 64 bits; grandmaster clockIdentity in use (R87, 02); reset 0. -/
  gm : Nat
  /-- 2, optional; grandmaster each LAN sees, by its last Announce (R57, 02); reset none. -/
  annA : Option PtpDs
  annB : Option PtpDs
  /-- 8 bits; CLOCKCLASS (R87, 02); reset 0. -/
  clockClass : Nat
  /-- signed ns in units of 1/256, optional; filtered offset f (R58, 02); reset none. -/
  filt : Option Int
  /-- 64 bits and elapsed ns; the source's TAI time at its last Sync, and when that was (R54, R63, 02); reset 0. -/
  srcTime : Nat
  srcAt : Nat
  /-- 5 bits; consecutive Sync intervals within the limit (R58, 02); reset 0. -/
  good : Nat
  /-- ns; elapsed time at which it last became qualified (R60, 02); reset 0. -/
  since : Nat
  /-- 2 × 16 bits, optional; sequenceId of a two-step Sync on LAN A, LAN B that waits for its Follow_Up (R56, R86, 02); reset none. -/
  syncA : Option Nat
  syncB : Option Nat
  /-- 2 × 16 bits; sequenceId of the next Pdelay request on LAN A, LAN B (R86, 02); reset 0. -/
  pdSeqA : Nat
  pdSeqB : Nat
  /-- 2 × 16 bits, optional; sequenceId of the Pdelay request on LAN A, LAN B that waits for its response (R86, 02); reset none. -/
  pdOpenA : Option Nat
  pdOpenB : Option Nat
  /-- 2 × 32 bits; mean path delay measured on LAN A, LAN B (R57, R87); reset 0. -/
  mpdA : Nat
  mpdB : Nat
  /-- 16 bits; master rate, 0 unset, TIM_BPn_MRATE (R73, R87); reset 0. -/
  mrate : Nat
  /-- 64 bits, optional; last slot whose slot-start event fired (R667, 02); reset none. -/
  fired : Option Nat
  /-- list of slot and signed ns, one per step of TAI time: the closing instants of slots up to that one are moved by it (R668, 02); reset empty. -/
  moved : List (Nat × Int)
  /-- list of two slots, one per forward step: the last slot started before it and the first after it; none between them closes (R667, 02); reset empty. -/
  gap : List (Nat × Nat)
  deriving DecidableEq, Repr, Inhabited

/-- A reference of a phase-cycle tracker (R79): SV stream index and channel. -/
structure CycRef where
  stream : Nat
  chan : Nat
  deriving DecidableEq, Repr, Inhabited

/-- A phase-cycle tracker (R79 to R85, R676); slots and intervals are in units of 1/65,536 slot. -/
structure Tracker where
  /-- 2 bits; CSTATE (R87, 02); reset 0. -/
  st : Nat
  /-- 2 × 16 bits, optional; primary and alternate reference (R79, 02); reset none. -/
  prim : Option CycRef
  altRef : Option CycRef
  /-- 1 bit; ALT (R87, 02); reset 0. -/
  alt : Bool
  /-- 31 bits; arming threshold h (R79, 02); reset 0 (log 1). -/
  arm : Nat
  /-- 4 bits; coast limit N (R84, 02); reset 3, the default. -/
  coastN : Nat
  /-- 1 bit; nominal 60 Hz (R79, R85); reset false (log 1). -/
  hz60 : Bool
  /-- 1 bit; armed (R80, 02); reset false. -/
  armed : Bool
  /-- optional pair; the reference's value at the previous slot, and that slot (R80, 02); reset none. -/
  prev : Option (Nat × Int)
  /-- optional; previous accepted crossing (R82, 02); reset none. -/
  last : Option Nat
  /-- optional; previous accepted one-cycle interval (R82, 02), numerator and divisor; reset none. -/
  interval : Option (Nat × Nat)
  /-- 4 bits; COASTN, consecutive coasted cycles (R84, R87); reset 0. -/
  coasted : Nat
  /-- 64 bits; cycle count (R83, R87); reset 0. -/
  count : Nat
  /-- 32 bits; TIM_CYCn_FREQ in mHz (R82, R87); reset 0. -/
  freq : Nat
  /-- 32 bits; TIM_CYCn_FFREQ in mHz (R82, R87); reset 0. -/
  ffreq : Nat
  /-- list of up to 8; accepted one-cycle frequencies of the mean (R82, 02); reset empty. -/
  freqs : List Nat
  /-- 64 bits; TIM_CYCn_XSLOT (R87, 02); reset 0. -/
  xslot : Nat
  /-- 16 bits; TIM_CYCn_XFRAC (R87, 02); reset 0. -/
  xfrac : Nat
  /-- 1 bit; the next accepted crossing carries the discontinuity mark (R85, 02); reset false. -/
  markNext : Bool
  /-- 2 × 1 bit; the last cycle event was coasted; carried the discontinuity mark (R84, R85, R240); reset false. -/
  evCoasted : Bool
  evDisc : Bool
  /-- 64 bits, optional; slot of the last evaluation, and whether a cycle event fired there (R236, 02); reset none. -/
  evalSlot : Option Nat
  evalFired : Bool
  deriving DecidableEq, Repr, Inhabited

/-- The time unit (R52 to R72). -/
structure TimeUnit where
  /-- ns; elapsed time since the model's start, counts every tick (log 4); reset 0. -/
  clock : Nat
  /-- 64 bits; TAI time in ns (R52, R87); reset 0. -/
  tai : Nat
  /-- 2 bits; TSTATE: 0 UNSET, 1 LOCKED, 2 HOLDOVER, 3 FREERUN (R87, 02); reset 0. -/
  tstate : Nat
  /-- 2 bits; SRC (R87, 02); reset 0. -/
  src : Nat
  /-- 1 bit; a bus pair is selected (R59, 02); reset false. -/
  hasSrc : Bool
  /-- 2 bits; HOREF (R87, 02); reset 0. -/
  horef : Nat
  /-- 1 bit; OSC10M_OK (R87, R66); reset 0. -/
  osc : Bool
  /-- 1 bit; PPS_IN_OK (R87, R72); reset 0. -/
  ppsOk : Bool
  /-- ns; elapsed time of the last PPS_IN edge (R72, 02); reset 0. -/
  ppsAt : Nat
  /-- 1 bit; PPS condition of R62 (02); reset false. -/
  ppsBad : Bool
  /-- 1 bit; PPS_OUT level (R72, 02); reset false. -/
  ppsOut : Bool
  /-- 64 bits, optional; TAI second at which PPS_OUT last rose (R72, 02); reset none. -/
  ppsSec : Option Nat
  /-- ns; elapsed time at which PPS_OUT last rose (R72, 02); reset 0. -/
  ppsRise : Nat
  /-- 1 bit; DISAGREE (R62, R87); reset 0. -/
  disagree : Bool
  /-- 5 bits; Sync intervals with all conditions of R62 false (02); reset 0. -/
  calm : Nat
  /-- signed ns; offset that remains to be slewed away (R61, R62); reset 0. -/
  slew : Int
  /-- 1 bit; the newly selected source's offset exceeded the step limit (R62, 02); reset false. -/
  selBad : Bool
  /-- 32 bits; TIM_EVT, W1C (R87, 02); reset 0. -/
  evt : W32
  /-- 32 bits; holdover error estimate at holdover entry, ns (R67, 02); reset 0. -/
  errBase : Nat
  /-- ns; elapsed time of holdover entry (R67, 02); reset 0. -/
  hoAt : Nat
  /-- signed ns; TIM_OFFSET (R58, R87); reset 0. -/
  offset : Int
  /-- signed, 0.001 ppm; TIM_FADJ (R87, 02); reset 0. -/
  fadj : Int
  /-- 16 bits signed; currentUtcOffset received (R53, R87); reset 0. -/
  utc : Int
  /-- 1 bit; TIM_UTC valid (R87, 02); reset 0. -/
  utcValid : Bool
  /-- signed ns; TIM_PPS_OFFSET (R72, R87); reset 0. -/
  ppsOff : Int
  /-- 32 bits; TIM_SRC_CHANGES (R86, R87); reset 0. -/
  srcChanges : Nat
  /-- list of 1 to 4 bus pairs; priority list (R59, 02); reset 0, 1, 2, 3. -/
  prio : List Nat
  /-- s; revert hold (R60, 02); reset 60. -/
  revert : Nat
  /-- ns; qualification limit (R58, 02); reset 1,000. -/
  qualLim : Nat
  /-- ns; step limit (R62, 02); reset 10,000. -/
  stepLim : Nat
  /-- ns; holdover limit (R69, 02); reset 10,000. -/
  holdLim : Nat
  /-- 0.1 ns/s; OSC10M_IN drift (R67, 02); reset 100. -/
  drift : Nat
  /-- 4 × 8 bits; PTP domain of each bus pair (R56, 02); reset 0. -/
  domains : List Nat
  /-- 16 bits signed, s; UTC offset set by sys.timecfg (R157, R290); reset 0 (log 1). -/
  utcCfg : Int
  /-- 4 PTP instances (R56, 02). -/
  bps : List BpTime
  /-- 4 trackers (R79, 02). -/
  trk : List Tracker
  deriving DecidableEq, Repr, Inhabited

/-- A process-bus port (R95, R117). -/
structure Port where
  /-- 3 bits; LSTATE: 0 DISABLED, 1 DOWN, 2 UP, 3 DEGRADED (R117, 03); reset 0. -/
  st : Nat
  /-- 1 bit; SIGNAL (R117, 03); reset 0. -/
  signal : Bool
  /-- 1 bit; PN_WARN (R117, 03); reset 0. -/
  pnWarn : Bool
  /-- 1 bit; TXSA_EXH (R117, 03); reset 0. -/
  txsaExh : Bool
  /-- 32 bits; PBn_EVT, W1C (R117, 03); reset 0. -/
  evt : W32
  /-- 16 × 64 bits; the counters of R117 from PBn_RX_FRAMES to PBn_LINK_DOWNS, in map order (03); reset 0. -/
  cnt : List Nat
  /-- 4 lists; egress queues (R106, 03); reset empty. -/
  queues : List (List TxFrame)
  /-- ns, optional; elapsed time since which a DEGRADED port stays below its threshold (R96, 03); reset none. -/
  calmAt : Option Nat
  /-- list; source and HSR sequence number of the ring frames forwarded to the opposite port (R102, 03); reset empty. -/
  fwd : List (Nat × Nat)
  /-- ns; elapsed time at which the frame in progress has left the port (R99, R106, 03); reset 0. -/
  lineEnd : Nat
  /-- list; source, sequenceId and residence in ns of forwarded two-step Sync messages whose Follow_Up is awaited (R104, 03); reset empty. -/
  resid : List (Nat × Nat × Nat)
  deriving DecidableEq, Repr, Inhabited

/-- The configuration of a bus pair (R89 to R91). -/
structure BpCfg where
  /-- 1 bit; sys.portcfg has configured it (R95, 03); reset false. -/
  configured : Bool
  /-- 2 bits; LTYPE (R117, 03); reset 0. -/
  ltype : Nat
  /-- 2 bits; FEC (R117, 03); reset 0. -/
  fec : Nat
  /-- 2 bits; REDUN (R117, 03); reset 0. -/
  redun : Nat
  /-- 1 bit; MACSEC (R117, 03); reset 0. -/
  macsec : Bool
  /-- 1 bit; XPN (R117, 03); reset 0. -/
  xpn : Bool
  /-- 16 bits; degrade threshold (R96, 03); reset 10. -/
  degrade : Nat
  /-- 2 × 16 octets; addresses for routed publications: IPv4 as ::ffff:a.b.c.d, and IPv6 (R94, 03); reset empty. -/
  ip4 : List Byte
  ip6 : List Byte
  /-- 16 bits; redundancy sequence counter of sent frames (R100, R102); reset 0 (log 1). -/
  seq : Nat
  /-- ns, optional; elapsed time of the last PRP supervision frame (R100, 03); reset none. -/
  supAt : Option Nat
  /-- 16 bits; sequence number of PRP supervision frames (R100, 03); reset 0 (log 1). -/
  supSeq : Nat
  deriving DecidableEq, Repr, Inhabited

/-- A position of a source's duplicate window (R123). -/
structure DupPos where
  seq : Nat
  accepted : Bool
  digest : W32
  /-- Context of the copy, once classified. -/
  ctx : Option Nat
  deriving DecidableEq, Repr, Inhabited

/-- A source of the duplicate table (R123, R129). -/
structure Source where
  bp : Nat
  mac : Nat
  highest : Nat
  /-- Non-EMPTY positions of the window of 128. -/
  win : List DupPos
  lastAt : Nat
  deriving DecidableEq, Repr, Inhabited

/-- A frame held in Skim: a copy waiting at step 3 (R125), or a frame that waits for its context (R141). -/
structure HeldFrame where
  port : Nat
  frame : RxFrame
  rxTai : Nat
  rxSlot : Nat
  /-- Ingress-buffer address of its first word, and its words as they stand there (R122). -/
  at_ : Nat
  words : List LathWord
  deriving DecidableEq, Repr, Inhabited

/-- SV part of a context (R131). -/
structure SvPart where
  highx : Nat
  window : W64
  rate : Nat
  wvalid : Bool
  nasdu : Nat
  group : Nat
  confRev : W32
  voff : List Nat
  qoff : List Nat
  deriving DecidableEq, Repr, Inhabited

/-- GOOSE part of a context (R131). -/
structure GoosePart where
  stNum : Nat
  sqNum : Nat
  t : List Byte
  expiry : Nat
  /-- First slot whose start event may expire it: none that has fired already does (R667, log 80). -/
  expFrom : Nat
  confRev : W32
  gvalid : Bool
  fresh : Nat
  dsLen : Nat
  /-- Functions of the valid event targets TGT0 to TGT3, in order. -/
  targets : List Nat
  trig : Nat
  /-- SIM bit of the last accepted message (R160). -/
  sim : Bool
  /-- The next accepted message is INITIAL with the FAULT flag (R144). -/
  fault : Bool
  deriving DecidableEq, Repr, Inhabited

/-- Publication part of a context (R285). -/
structure PubPart where
  stNum : Nat
  sqNum : Nat
  t : List Byte
  nextTx : Nat
  /-- First slot whose start event may bring the retransmission (R667, log 80). -/
  txFrom : Nat
  ptype : Nat
  svalid : Bool
  stepPos : Nat
  nasdu : Nat
  argLast : W32
  srcMac : Nat
  vlan : Nat
  nextHop : Nat
  dscp : Nat
  hops : Nat
  spdu : Nat
  curve : List Nat
  tsteady : Nat
  lastSlot : Nat
  /-- A curve set by pub.curve, from the next state change on (R300). -/
  nextCurve : Option (List Nat × Nat)
  /-- Input of the last pub.send (R292); none before the first. -/
  host : Option (List Byte)
  /-- Frames of the context still queued at ports (R295). -/
  inFlight : Nat
  deriving DecidableEq, Repr, Inhabited

/-- MACsec secure association (R108 to R111). -/
structure SaPart where
  port : Nat
  tx : Bool
  sci : List Byte
  an : Nat
  xpn : Bool
  /-- Transmit: next packet number; receive: lowest acceptable. -/
  pn : Nat
  replayWin : Nat
  /-- The channel is set for confidentiality with offset 0; else for integrity only (R108). -/
  conf : Bool
  keySlot : Nat
  /-- Current association of its channel; the other is next. -/
  current : Bool
  deriving DecidableEq, Repr, Inhabited

/-- Host session part (R409): 1 cipher, 2 hash, 3 key pair (R441). -/
structure SesPart where
  skind : Nat
  code : Nat
  dir : Bool
  derive_ : Bool
  keyset : Bool
  pubOk : Bool
  streamed : Bool
  final : Bool
  tlen : Nat
  unitlg : Nat
  nlen : Nat
  slen : Nat
  keyFp : List Byte
  saveSeq : Nat
  octets : Nat
  /-- State block: the key held, the IV and the input absorbed so far (R409). -/
  key : List Byte
  iv : List Byte
  chain : List Byte
  aad : List Byte
  deriving DecidableEq, Repr, Inhabited

/-- A context entry (R131). -/
structure Ctx where
  kind : Nat
  st : Nat
  bp : Nat
  dclass : Nat
  auth : Nat
  pin : Bool
  sim : Bool
  fn : Nat
  gen : Nat
  ckey : List Byte
  nameh : List Byte
  keyCur : Nat
  keyNxt : Nat
  keyIdCur : W32
  keyIdNxt : W32
  macAlg : Nat
  nxtValid : Bool
  overlap : Nat
  switch : Nat
  /-- First slot whose start event may promote the next key (R667, log 80). -/
  swFrom : Nat
  /-- CNT0 to CNT15. -/
  cnt : List Nat
  sv : SvPart
  gs : GoosePart
  pub : PubPart
  sa : SaPart
  ses : SesPart
  deriving DecidableEq, Repr, Inhabited

/-- An entry of the classification index (R137): fingerprint, context number, drop class. -/
structure IdxEnt where
  fp : Nat
  ctx : Nat
  dclass : Nat
  deriving DecidableEq, Repr, Inhabited

/-- Skim (R118 to R165). -/
structure Skim where
  /-- table of 65,536 entries of 256 octets (R130, R131); contexts not listed are FREE; reset kept, lost at power-up. -/
  ctx : Map Ctx
  /-- 16 bits each; GEN of each context entry (R131, 04); reset 0. -/
  gens : Map Nat
  /-- 64 bits; seed of the classification index (R137, 04); drawn at reset; reset 0 (log 1). -/
  seed : W64
  /-- 16,384 buckets of up to eight entries; the classification index (R137, 04); buckets not listed are empty; reset empty. -/
  index : Map (List IdxEnt)
  /-- 32 octets; key of the duplicate digest (R124, 04); drawn at reset; reset empty (log 1). -/
  digestKey : List Byte
  /-- list; sources of the duplicate table (R123, 04); reset empty. -/
  sources : List Source
  /-- list; copies waiting at step 3 (R125, 04); reset empty. -/
  dupWait : List HeldFrame
  /-- list; frames waiting for a context, by context (R141, R142); reset empty. -/
  fetchWait : List (Nat × HeldFrame)
  /-- list; contexts resident in the cache beyond the always resident ones, most recently used first (R140); reset empty. -/
  resident : List Nat
  /-- list; contexts modified since their fetch (R143, 04); reset empty. -/
  dirty : List Nat
  /-- 1 bit; REHASH (R139, R165); reset 0. -/
  rehash : Bool
  /-- list; commands that complete after the swap: token, and the state epoch that each created (R28, R139, 04); reset empty. -/
  rehashFor : List (Nat × Nat)
  /-- 4 bits; OVL of SKM_STATUS (R163, R165); reset 0. -/
  ovl : BitVec 4
  /-- octets; ingress-buffer occupancy (R122, R163); reset 0. -/
  buf : Nat
  /-- 16 bits; SKM_BUF high-water mark in KiB (R165, 04); reset 0. -/
  bufHigh : Nat
  /-- 9 bits; SKM_MISSQ high-water mark (R165, 04); reset 0. -/
  missHigh : Nat
  /-- 32 bits; SKM_EVT, W1C (R165, 04); reset 0. -/
  evt : W32
  /-- 22 × 64 bits; the counters of R165 from SKM_RX_FRAMES to SKM_EVRING_LOST in map order (04); reset 0. -/
  cnt : List Nat
  /-- list; contexts whose KEYFAULT entry has been logged (R148, 04); reset empty. -/
  kfLogged : List Nat
  /-- list; index changes deferred to the boundary: always empty outside a command (R134, 04); reset empty. -/
  drainWait : List Nat
  deriving DecidableEq, Repr, Inhabited

/-- A stream group (R172, R174). -/
structure Group where
  /-- 6 bits; closing deadline in quarter slots (R172, 05); reset 4 (log 5). -/
  deadline : Nat
  /-- 2 bits; policy 0 HOLD, 1 ZERO, 2 INTERP (R172, 05); reset 0 (log 5). -/
  policy : Nat
  /-- 8 bits; hold limit (R172, 05); reset 4. -/
  hold : Nat
  /-- 64 bits, optional; last slot closed and its effective closing instant in TAI ns (R174, 05); reset none. -/
  closed : Option (Nat × Nat)
  deriving DecidableEq, Repr, Inhabited

/-- Rows fixed by a group, or derived rows fixed by a program, for one slot (R180, R237). -/
structure FixSet where
  bp : Nat
  /-- 0 to 15 a group's stream rows; 16 + group the derived rows of its programs. -/
  part : Nat
  slot : Nat
  rows : List Row
  deriving DecidableEq, Repr, Inhabited

/-- A trigger's source (R205). -/
inductive TrigSrc where
  | off
  | host
  | goose
  | trowel (prog : Nat)
  | level (row chan : Nat) (high low : Int) (run : Nat)
  | quality (row : Nat)
  | cycle (bp : Nat) (coastLost : Bool) (lo hi : Nat)
  /-- At the start event of a slot, or of the first slot from `since` on; none when the slot had passed before (R667). -/
  | time (slot : Nat) (since : Option Nat)
  deriving DecidableEq, Repr, Inhabited

/-- A trigger (R205). -/
structure Trigger where
  src : TrigSrc
  rows : List Nat
  bp : Nat
  pre : Nat
  post : Nat
  maxLen : Nat
  archive : Bool
  fns : List Nat
  /-- Consecutive rows past a limit (LEVEL). -/
  runLen : Nat
  /-- Slots for which it has fired: firings of one trigger in one slot count once (R206). -/
  fires : List Nat
  deriving DecidableEq, Repr, Inhabited

/-- A record open, copying or waiting for its seal (R206 to R213). -/
structure Rec where
  num : Nat
  trig : Nat
  trigSlot : Nat
  first : Nat
  last : Nat
  source : Nat
  trigData : List Byte
  bp : Nat
  rows : List Nat
  mrate : Nat
  epoch : Nat
  gen : Nat
  tstate : Nat
  copying : Bool
  truncated : Bool
  /-- Slot blocks copied: slot and rows. -/
  body : List (Nat × List Row)
  /-- Volume sectors posted and not yet reported written; none before the seal. -/
  posted : Option Nat
  deriving DecidableEq, Repr, Inhabited

/-- A sheet ring whose sheet of one slot is being made (R176). -/
structure Closing where
  fn : Nat
  ring : Nat
  slot : Nat
  /-- Epoch, time state and DISAGREE at the start of the closing sequence (R27, R71, R190). -/
  epoch : Nat
  tstate : Nat
  disagree : Bool
  /-- View and tracker of the ring at the start of the closing sequence (R27). -/
  view : List Nat
  tracker : Option Nat
  /-- Groups (bp × 16 + group) that have closed. -/
  groups : List Nat
  /-- Elapsed ns of the latest effective closing instant (R22). -/
  at_ : Nat
  deriving DecidableEq, Repr, Inhabited

/-- A sheet built and not yet allowed to reach the host: standby's held sheets (R574), or waiting for fix acks (R573). -/
structure HeldSheet where
  fn : Nat
  ring : Nat
  slot : Nat
  epoch : Nat
  tstate : Nat
  disagree : Bool
  /-- Cycle count of the view's tracker after the closing sequence (R190). -/
  cycle : Nat
  /-- The view that it follows, as it stood at its first slot-close event (R27, R573). -/
  view : List Nat
  rows : List Row
  deriving DecidableEq, Repr, Inhabited

/-- Hawk (R166 to R215). -/
structure Hawk where
  /-- 16 bits; T_h in ms, HWK_DEPTH (R168, R215); reset 3,000, the default. -/
  depth : Nat
  /-- MiB; history region held (R166, R170); reset 0 until the stack is trained. -/
  region : Nat
  /-- 64 stream groups, by bp × 16 + group (R172, 05). -/
  groups : List Group
  /-- history entries by row identifier, then by slot × 256 + sub-sample (R166, R167); reset empty: MISSING. -/
  hist : Map (Map Row)
  /-- list; rows fixed for recent slots (R180, R237); reset empty. -/
  fixed : List FixSet
  /-- last RECEIVED row by context (R180, 05); reset empty. -/
  lastRx : Map Row
  /-- consecutive substituted rows by context (R180, 05); reset empty. -/
  substRun : Map Nat
  /-- source flags gathered since the last close, by context (R192, 05); reset empty. -/
  srcf : Map Nat
  /-- accepted samples whose second copy has not been seen: bp, source, sequence, context, slot (R192); reset empty. -/
  single : List (Nat × Nat × Nat × Nat × Nat)
  /-- list; closing sequences in progress (R176, 05); reset empty. -/
  closing : List Closing
  /-- list; sheets that wait (R573, R574); reset empty. -/
  held : List HeldSheet
  /-- 256 triggers (R205, 05); reset off. -/
  trigs : List Trigger
  /-- list of up to 16; records open or being copied (R208, 05); reset empty. -/
  recs : List Rec
  /-- 64 bits; last RECNUM used (R211, 05); reset keep, 0 in a new device. -/
  recNum : Nat
  /-- 64 bits; end of the RECNUM block reserved in MRAM (R211, R29); reset keep, 0 in a new device. -/
  recTop : Nat
  /-- 1 bit; VOL_FULL (R213, R215); reset 0. -/
  volFull : Bool
  /-- 1 bit; HIST_SHRINK of HWK_STATUS (R170, R215); reset 0. -/
  shrink : Bool
  /-- 32 bits; HWK_EVT, W1C (R215, 05); reset 0. -/
  evt : W32
  /-- 10 × 64 bits; counters of R215 from HWK_SHEETS to HWK_REC_DROP in map order (05); reset 0. -/
  cnt : List Nat
  /-- 32 bits; HWK_CLOSE_MAX in ns (R215, 05); reset 0. -/
  closeMax : Nat
  /-- list; sealed record notices in RECNUM order for rec.list (R214, R373); reset empty. -/
  notices : List (List Byte)
  deriving DecidableEq, Repr, Inhabited

/-- A program image (R219). -/
structure Image where
  oepoch : Nat
  pver : Nat
  code : List W32
  idata : List Byte
  zdata : Nat
  entry : W32
  restart : W32
  budget : Nat
  nsheet : Nat
  nhist : Nat
  nderiv : Nat
  /-- Raise entries 0 to 7: context and name hash when valid. -/
  raises : List (Option (Nat × List Byte))
  /-- SHA3-512 measurement of the signed octets (R611). -/
  meas : List Byte
  deriving DecidableEq, Repr, Inhabited

/-- Where a program's slot work stands (R232 to R236). -/
inductive Phase where
  | idle
  | queued
  | running
  /-- A load of register d waits for its row (R178): nothing of the instruction has happened yet. -/
  | waitRow
  /-- wait.ev with its destination and event (R236). -/
  | waitEv (d : Nat) (e : Nat)
  deriving DecidableEq, Repr, Inhabited

/-- A schedule (R230). -/
inductive Sched where
  | slot (k p : Nat)
  | cycle
  deriving DecidableEq, Repr, Inhabited

/-- A program's bindings (R224). -/
structure Binding where
  bound : Bool
  bp : Nat
  group : Nat
  sched : Sched
  /-- Row identifier × 256 + sub of each sheet-window binding. -/
  sheets : List Nat
  hists : List Nat
  derivs : List Nat
  deriving DecidableEq, Repr, Inhabited

/-- A loaded program (R216 to R246, R253 to R255). -/
structure Prog where
  /-- 3 bits; PSTATE without SWAP_PENDING: 1 LOADED, 2 RUNNING, 3 SUSPENDED, 4 UNPLACED (R252, 06). -/
  st : Nat
  core : Nat
  pslot : Nat
  fn : Nat
  img : Image
  /-- New image, swap slot, KEEP (R245). -/
  swap : Option (Image × Nat × Bool)
  bind_ : Binding
  /-- 16 × 32 bits; g0 to g15 (R253). -/
  regs : List W32
  /-- 64 bits each; a0, a1 (R253). -/
  a0 : W64
  a1 : W64
  flags : W32
  pc : W32
  slot : Nat
  cycle : Nat
  budget : Nat
  cause : W32
  epc : W32
  phase : Phase
  /-- The next release starts at RESTART (R234), at ENTRY when first is set. -/
  restartNext : Bool
  firstNext : Bool
  swapped : Bool
  /-- Consecutive stopped releases (R238). -/
  stops : Nat
  stopped : Bool
  /-- Data partition by offset (R217); unlisted octets read 0. -/
  data : List Host.Cell
  /-- Derived window by offset (R227). -/
  dwin : List Host.Cell
  /-- Mailbox region by offset (R240). -/
  mbox : List Host.Cell
  /-- Inbound message waiting: octets, delivery slot, token (R241). -/
  inMsg : Option (List Byte × Nat × Nat)
  inSeq : Nat
  outSeq : Nat
  /-- Raise entries used in this slot work (R239). -/
  raised : List Nat
  /-- Row latches of its core that it has filled, most recently used first: row address and 64 octets (R278). -/
  latches : List (Nat × List Byte)
  /-- Last produced row of each derived row (R237). -/
  produced : List (Option Row)
  /-- Releases to skip after a relocation (R250). -/
  skip : Nat
  /-- TAI instant of its last release, ns (R232). -/
  relAt : Nat
  deriving DecidableEq, Repr, Inhabited

/-- Trowel (R216 to R252). -/
structure Trowel where
  /-- loaded programs by program number, 0 to 511 (R216, 06); reset kept in a device reset, empty at power-up. -/
  progs : Map Prog
  /-- list; retired cores (R249, 06); reset empty. -/
  retired : List Nat
  /-- 64 × optional; program that runs on each core (R232, 06); reset none. -/
  running : List (Option Nat)
  /-- lists; released programs waiting on each core, in order of release (R232, 06); reset empty. -/
  ready : List (List Nat)
  /-- 32 bits each; highest PVER by program number, MRAM (R222, 06); reset keep, empty in a new device. -/
  pvers : Map Nat
  /-- allocated derived rows: number to program (R225, 06); reset empty. -/
  derived : Map Nat
  /-- 1 bit; SPARE_SHORT (R251, R252); reset 0. -/
  spareShort : Bool
  /-- 32 bits; TRW_EVT, W1C (R252, 06); reset 0. -/
  evt : W32
  /-- 12 × 64 bits; counters of R252 from TRW_RELEASES to TRW_RELOC in map order (06); reset 0. -/
  cnt : List Nat
  /-- list; unloads that wait for the release boundary (R238, 06); reset empty. -/
  unloading : List Nat
  deriving DecidableEq, Repr, Inhabited

/-- A publication's template (R286 to R288). -/
structure Template where
  dstMac : Nat
  appid : Nat
  dsLen : Nat
  goidLen : Nat
  confRev : W32
  ndsCom : Bool
  sim : Bool
  smpRate : Bool
  name : List Byte
  ds : List Byte
  goid : List Byte
  srcIp : List Byte
  dstIp : List Byte
  /-- TYPE, SRC, PARAM, VALUE of each member. -/
  members : List (Nat × Nat × Nat × W32)
  deriving DecidableEq, Repr, Inhabited

/-- A pending raise of a standby (R297). -/
structure PendRaise where
  slot : Nat
  prog : Nat
  entry : Nat
  arg : W32
  ctx : Nat
  bp : Nat
  deriving DecidableEq, Repr, Inhabited

/-- Publication (R284 to R308). -/
structure Publ where
  /-- template store by context number less 0x5000 (R286, 08); reset kept, empty at power-up. -/
  templates : Map Template
  /-- list; pending raises of a standby (R297, 08); reset empty. -/
  pend : List PendRaise
  /-- list; raises whose state change the active has mirrored, by program, entry and slot (R297, 08); reset empty. -/
  taken : List (Nat × Nat × Nat)
  /-- list; frames that wait for the mirroring of their state: token (0 for a raise), bus pair, context, frame (R296); reset empty. -/
  heldTx : List (Nat × Nat × Nat × TxFrame)
  deriving DecidableEq, Repr, Inhabited

/-- Registers of a logical lane or core of the cipher and hash engines: its client, 0 none, and the key and chaining state
that it holds for it (R405). -/
structure EngLane where
  client : Nat
  /-- Token of the command whose work the lane holds, 0 for an internal client (R433); reset 0. -/
  tok : Nat
  regs : List Byte
  deriving DecidableEq, Repr, Inhabited

/-- Cipher and hash engines (R402 to R433). -/
structure Engines where
  /-- 8 lanes, 24 SHA-2 cores, 8 Keccak cores; client and registers of each (R402, R403, R405); reset no client, zero. -/
  lanes : List EngLane
  /-- 1 bit; ENG_STATUS.STOPPED (R433, 12); reset 0. -/
  stopped : Bool
  /-- 32 bits; ENG_EVT, W1C (R433, 12); reset 0. -/
  evt : W32
  /-- 19 bits; ENG_MISMATCH, MRAM (R433, 12); reset keep, 0 in a new device. -/
  mismatch : W32
  /-- 6 × 64 bits; counters of R433 in map order (12); reset 0. -/
  cnt : List Nat
  /-- 32 octets; session key of the state blocks (R409, 12); drawn at reset; reset empty (log 1). -/
  sesKey : List Byte
  deriving DecidableEq, Repr, Inhabited

/-- A PKE instance (R434, R454, R459). -/
structure PkeUnit where
  /-- 7 bits; OWNER (R459, 13); reset 0x7F. -/
  owner : Nat
  /-- 8 bits; ALG (R459, 13); reset 0. -/
  alg : Nat
  /-- 1 bit; BUSY (R459, 13); reset 0. -/
  busy : Bool
  /-- 1 bit; WIPING (R459, 13); reset 0. -/
  wiping : Bool
  /-- 64 bits; token of the command it runs, 0 an internal client (R434, 13); reset 0. -/
  tok : Nat
  /-- ns; elapsed time at which the engine time began (R436, 13); reset 0. -/
  at_ : Nat
  /-- octets; random octets drawn before the engine time (R452, 13); reset empty. -/
  rnd : List Byte
  /-- up to 64 KiB; operand memory (R434, R454, 13); reset empty: zeros. -/
  mem : List Byte
  deriving DecidableEq, Repr, Inhabited

/-- The public-key engine (R434 to R459). -/
structure Pke where
  /-- 4 instances (R434, 13). -/
  units : List PkeUnit
  /-- 1 bit; STOPPED (R459, 13); reset 0. -/
  stopped : Bool
  /-- 32 bits; ENG_PKE_EVT, W1C (R459, 13); reset 0. -/
  evt : W32
  /-- 23 bits; ENG_PKE_MISMATCH, MRAM (R459, 13); reset keep, 0 in a new device. -/
  mismatch : W32
  /-- 5 × 64 bits; counters of R459 in map order (13); reset 0. -/
  cnt : List Nat
  /-- 64 bits; signature count of internal signers, MRAM (R452, 13); reset keep, 0 in a new device. -/
  sigCount : Nat
  deriving DecidableEq, Repr, Inhabited

/-- An entropy source (R460 to R473, R477). -/
structure RngSrc where
  /-- 2 bits; SSTATE: 0 STARTUP, 1 RUNNING, 2 RESTARTING, 3 STOPPED (R477, 14); reset 0. -/
  st : Nat
  /-- 2 bits; LASTFAIL (R477, 14); reset 0. -/
  lastFail : Nat
  /-- 8 bits; FAILS (R477, 14); reset 0. -/
  fails : Nat
  /-- 32 octets, optional; block held back one window (R463, 14); reset none. -/
  held : Option (List Byte)
  /-- octets; octets of the test pattern that this source has used (R476, 14); reset 0. -/
  patPos : Nat
  /-- 1 bit, count; last raw bit, and how often it has come in a row (R461, 14); reset 0. -/
  lastBit : Bool
  run : Nat
  deriving DecidableEq, Repr, Inhabited

/-- A CTR_DRBG instance (R464 to R466). -/
structure Drbg where
  /-- 1 bit; instantiated (R464, 14); reset false. -/
  inst : Bool
  /-- octets; working state as its seed material (R465, 14); reset empty. -/
  seed : List Byte
  /-- count; generates since the last seed (R466, 14); reset 0. -/
  gens : Nat
  /-- ns; elapsed time of the last seed (R466, 14); reset 0. -/
  at_ : Nat
  /-- 1 bit; reseed requested (R466, 14); reset false. -/
  want : Bool
  deriving DecidableEq, Repr, Inhabited

/-- Random numbers (R460 to R477). -/
structure Rng where
  /-- 2 bits; RSTATE: 0 STARTING, 1 RUNNING, 2 STOPPED (R477, 14); reset 0. -/
  st : Nat
  /-- 1 bit; FAILED, MRAM (R475, R477); reset keep, false in a new device. -/
  failed : Bool
  /-- 1 bit; FALLBACK (R471, R477); reset 0. -/
  fallback : Bool
  /-- octets, optional; test pattern (R476, 14); reset none. -/
  pattern : Option (List Byte)
  /-- 2 bits; CONSEC, MRAM (R474, R477); reset keep, 0 in a new device. -/
  consec : Nat
  /-- optional; source restarted after the most recent failure (R474, 14); reset none. -/
  lastBad : Option Nat
  /-- 32 bits; RNG_EVT, W1C (R477, 14); reset 0. -/
  evt : W32
  /-- 5 × 64 bits; counters of R477 in map order (14); reset 0. -/
  cnt : List Nat
  /-- 4 sources (R460, 14). -/
  srcs : List RngSrc
  /-- up to 32 blocks of 32 octets; the pool (R463, 14); reset empty. -/
  pool : List (List Byte)
  /-- 72 instances (R464, 14). -/
  drbg : List Drbg
  /-- ns; elapsed time of power-up or reset start (R470, 14); reset 0. -/
  startAt : Nat
  /-- ns; elapsed time of the last health failure (R473, 14); reset 0. -/
  failAt : Nat
  /-- 1 bit; the 50 ms of R470 have ended without instance 0 (14); reset false. -/
  timedOut : Bool
  deriving DecidableEq, Repr, Inhabited

/-- A key slot (R478, R479): descriptor and payload. -/
structure KSlot where
  /-- 3 bits with inverted shadow; ATTR, SH (R479, R549). -/
  attr : Nat
  attrInv : Nat
  ktype : Nat
  /-- 4 bits with inverted shadow; purposes PROG, PUBLIC, GROUP, MACSEC, SH (R479, R549). -/
  purpose : Nat
  purposeInv : Nat
  source : Nat
  klen : Nat
  oepoch : Nat
  ucount : Nat
  epoch : Nat
  keyId : W32
  label : List Byte
  keyFp : List Byte
  payload : List Byte
  deriving DecidableEq, Repr, Inhabited

/-- The key store (R478 to R506). -/
structure KeyStore where
  /-- 8,192 slots; slots not listed are EMPTY (R478, 15); reset keep, empty in a new device. -/
  slots : Map KSlot
  /-- list; corrupt slots detected (R488, 15); reset keep, empty. -/
  corrupt : List Nat
  /-- 1 bit; OWNED, MRAM (R506, 15); reset keep, false in a new device. -/
  owned : Bool
  /-- 1 bit; KEYS_OK (R506, 15); reset 0. -/
  keysOk : Bool
  /-- 32 octets, optional; BBKEK in the VBAT domain (R485, R490); reset keep, none before enrolment. -/
  bbkek : Option (List Byte)
  /-- 32 octets, optional; integrity key KIK, derived from DRK at START-UP (R485, 15); reset none. -/
  kik : Option (List Byte)
  /-- 32 octets, optional; store key KSK, derived from DRK, BBKEK and OEPOCH at START-UP and at an enrolment (R485, R490, 15); reset none. -/
  ksk : Option (List Byte)
  /-- 1 bit; RESV_FAULT (R506, 15); reset 0. -/
  resvFault : Bool
  /-- 32 octets and elapsed ns of issue, optional; outstanding nonce (R503, 15); reset none. -/
  nonce : Option (List Byte × Nat)
  /-- 64 bits; challenge count, MRAM (R503, 15); reset keep, 0 in a new device. -/
  chalCount : Nat
  /-- 32 bits; update counter, KST_UCOUNT (R506, 15); reset keep, 0 in a new device. -/
  ucount : Nat
  /-- 7 bits; owner epoch, OTP steps (R498, R506); reset fuse, 0 in a new device. -/
  oepoch : Nat
  /-- 3 bits; quorum size (R506, 15); reset keep, 0 in a new device. -/
  quorum : Nat
  /-- 32 bits; KST_EVT, W1C (R506, 15); reset 0 (log 1). -/
  evt : W32
  /-- 4 × 64 bits; counters of R506 in map order (15); reset 0. -/
  cnt : List Nat
  deriving DecidableEq, Repr, Inhabited

/-- A sector's line in the Sealer's view (R517, R519). -/
structure Sector where
  gen : Nat
  tag : Nat
  /-- Key epoch bit EBITS (R520). -/
  ebit : Bool
  deriving DecidableEq, Repr, Inhabited

/-- A line or node that the metadata cache holds (R522): region, level (0 the lines), position in its level. -/
structure MetaEnt where
  rid : Nat
  level : Nat
  idx : Nat
  /-- Changed since it was read or written back. -/
  dirty : Bool
  deriving DecidableEq, Repr, Inhabited

/-- A sealed region (R515, R529, R530). -/
structure Region where
  /-- 16 bits; size in MiB (R515, R543); reset 0 until the stack is trained. -/
  size : Nat
  /-- 32 bits; key epoch (R529, R543); reset 0. -/
  kepoch : Nat
  /-- sector number, optional; position of the re-key walk (R530, 16); reset none. -/
  walk : Option Nat
  /-- frame map: physical frame of each frame that retirement has moved (R509, R533, 16); reset empty: the frames of the
  partition (log 90). -/
  frames : Map Nat
  /-- sectors written, by LBN (R517, 16); reset empty: generation 0. -/
  sectors : Map Sector
  /-- 64 bits each; write-back counters of metadata lines (level 0) and tree nodes, by level × 2^56 + index, those of the
  level below the root registers on die (R520, R521, 16); reset empty: 0. -/
  ctrs : Map Nat
  deriving DecidableEq, Repr, Inhabited

/-- A record of the archive volume's directory (R537). -/
structure VolRec where
  recNum : Nat
  lba : Nat
  nsec : Nat
  locked : Bool
  vepoch : Nat
  damaged : Bool
  /-- Fingerprint of the key of slot 0x000D that its sectors are encrypted under. -/
  keyFp : List Byte
  /-- Manifest and body, padded to whole sectors. -/
  octets : List Byte
  deriving DecidableEq, Repr, Inhabited

/-- An outstanding transfer request (R538, R539). -/
structure VolReq where
  idx : Nat
  op : Nat
  nsec : Nat
  lba : Nat
  buf : Nat
  /-- Transfer it belongs to: kind, record, token of the vol.read it serves. -/
  kind : Nat
  recNum : Nat
  tok : Nat
  at_ : Nat
  failed : Bool
  deriving DecidableEq, Repr, Inhabited

/-- A transfer of whole records through the ring (R538 to R542). -/
structure VolJob where
  /-- 0 a new record is written, 1 vol.read, 2 the walk of R542, 3 the RECOVER pass. -/
  kind : Nat
  recNum : Nat
  tok : Nat
  /-- Sectors posted and sectors finished. -/
  next : Nat
  done : Nat
  /-- A sector has not verified. -/
  bad : Bool
  /-- Octets read and verified so far. -/
  data : List Byte
  deriving DecidableEq, Repr, Inhabited

/-- The archive volume (R535 to R542). -/
structure Volume where
  /-- 10 bits; size in GiB, 0 when none is attached (R535, R543); reset 0. -/
  gib : Nat
  /-- 4 bits, 64 bits; log2 of the ring's entries and its bus address (R535); reset 0 (log 1). -/
  ringM : Nat
  ringAddr : Nat
  /-- 7 bits, 64 bits; staging buffer in MiB and its bus address (R535); reset 0 (log 1). -/
  stageMib : Nat
  stageAddr : Nat
  /-- 8 bits, 1 bit; MSI-X vector and its enable (R535); reset 0 (log 1). -/
  vec : Nat
  vecEn : Bool
  /-- count; requests posted since attach (R538, 16); reset 0. -/
  posted : Nat
  /-- list; outstanding or failed transfer requests (R538, R539); reset empty. -/
  reqs : List VolReq
  /-- list; transfers in progress (R538 to R542); reset empty. -/
  jobs : List VolJob
  /-- up to 262,144 records of the directory, oldest first (R537); reset empty. -/
  dir : List VolRec
  /-- list; records written to the host's storage, which the device finds again with RECOVER (R541); reset empty. -/
  stored : List VolRec
  /-- tag and generation of each volume sector (R537, 16); reset empty. -/
  tags : Map (List Byte × Nat)
  /-- 1 bit; VOL_RECOVER (R541, R543); reset 0. -/
  recover : Bool
  /-- 1 bit; VOL_STALL (R543, 16); reset 0. -/
  stall : Bool
  /-- 32 bits; volume key epoch v (R536, 16), MRAM; reset keep, 0 in a new device. -/
  vepoch : Nat
  /-- 32 bits; tag epoch t, MRAM (R536, 16); reset keep, 0 in a new device. -/
  tepoch : Nat
  /-- optional; record number reached by the volume walk, MRAM (R542, 16); reset keep, none. -/
  walk : Option Nat
  /-- optional; previous volume key held until the walk ends (R542, 16); reset keep, none. -/
  oldKey : Option (List Byte)
  deriving DecidableEq, Repr, Inhabited

/-- The Sealer and the HBM (R507 to R543). -/
structure Sealer where
  /-- 1 bit; HBM_OK (R543, 16); reset 0. -/
  hbmOk : Bool
  /-- 2 bits; STACK (R543, 16); reset 0. -/
  stack : Nat
  /-- 1 bit; RATE (R543, 16); reset 0. -/
  fast : Bool
  /-- 16 bits; INSERV (R543, 16); reset 0. -/
  inserv : W16
  /-- 4 bits, optional; RETIRED and RVALID, MRAM (R543, 16); reset keep, none in a new device. -/
  retired : Option Nat
  /-- MiB; spare frames left (R515, R533); reset 0 until the stack is trained. -/
  spare : Nat
  /-- 32 octets; master key MK (R523, 16); drawn at power-up; reset empty (log 1). -/
  master : List Byte
  /-- 10 regions (R515, 16). -/
  regs : List Region
  /-- 13 bits; SLR_FAIL, MRAM (R543, 16); reset keep, 0 in a new device. -/
  fail : W32
  /-- 64 bits; SLR_FAIL_LBN, MRAM (R543, 16); reset keep, 0 in a new device (log 1). -/
  failLbn : Nat
  /-- 32 bits; SLR_EVT, W1C (R543, 16); reset 0. -/
  evt : W32
  /-- 10 × 64 bits; counters of R543 from SLR_LATH_CORR to SLR_FAILS in map order (16); reset 0, SLR_FAILS keep. -/
  cnt : List Nat
  /-- 4 MiB, 32,768 items; the metadata cache, least recently used first (R522, 16); reset keep, empty at power-up. -/
  mdc : List MetaEnt
  /-- frame map of the metadata area (R509, R515, R533); reset keep, empty at power-up. -/
  metaFrames : Map Nat
  /-- list; rows of words corrected in the last 60 s, with the elapsed ns (R532, 16); reset empty. -/
  fixedRows : List (Nat × Nat)
  /-- list; rows that wait for repair (R532, 16); reset empty. -/
  dueRows : List Nat
  /-- list; repairs recorded in MRAM: rows (R532, 16); reset keep, empty. -/
  repairs : List Nat
  /-- ns, optional; elapsed time of the last repair (R532, 16); reset none. -/
  ppcAt : Option Nat
  /-- the archive volume (R535, 16). -/
  vol : Volume
  deriving DecidableEq, Repr, Inhabited

/-- A tamper source's configuration and filter (R544, R545). -/
structure TmpSrc where
  /-- 22 bits with inverted shadow; TMP_CFGs: RESP, N, W, SH (R562, 17); reset keep, the defaults of R544. -/
  cfg : Sh
  /-- list of elapsed ns; events inside the window since the last trip (R545, 17); reset empty. -/
  events : List Nat
  /-- 64 bits; TMP_ALARMSs (R562, 17); reset 0. -/
  alarms : Nat
  /-- 1 bit; in event condition, TMP_ALARM (R562, 17); reset 0 (log 1). -/
  cond : Bool
  deriving DecidableEq, Repr, Inhabited

/-- The tamper controller and the VBAT domain (R544 to R562). -/
structure Tamper where
  /-- 18 sources (R544, 17). -/
  srcs : List TmpSrc
  /-- 1 bit; ARMED (R562, 17); reset 0. -/
  armed : Bool
  /-- 5 bits, optional; PENDING: source of a pending advance, VBAT domain (R556, R562); reset keep, none in a new device. -/
  pending : Option Nat
  /-- list; non-zeroizing sources recorded in backup operation (R558, R559); reset keep, empty. -/
  recorded : List Nat
  /-- 1 bit; ADV_BLOCKED (R562, 17); reset 0. -/
  advBlocked : Bool
  /-- 1 bit; BACKUP_LOST (R562, 17); reset keep, false in a new device. -/
  backupLost : Bool
  /-- 1 bit; ON_VBAT (R562, 17); reset 0. -/
  onVbat : Bool
  /-- 1 bit; VAUX within its limits (R650, 22); reset true (log 1). -/
  vauxOk : Bool
  /-- 1 bit; backup operation (R558, 17); reset false. -/
  backup : Bool
  /-- 1 bit; RUNNING (R562, 17); reset 0. -/
  running : Bool
  /-- 32 bits; TMP_EVT, W1C (R562, 17); reset 0. -/
  evt : W32
  /-- 19 bits; TMP_STICKY, VBAT domain (R555, R562); reset keep, 0 in a new device. -/
  sticky : W32
  /-- 7 bits; TMP_COUNT.STEPS, OTP (R556, R562); reset fuse, 0 in a new device. -/
  steps : Nat
  /-- 11 bits; TMP_BPERIOD in ms, SH (R562, 17); reset keep, 64 the default. -/
  bperiod : Sh
  /-- 13 bits; TMP_LASTZ, VBAT domain (R562, 17); reset keep, SOURCE 0x1F none in a new device. -/
  lastz : W32
  /-- 12 bits; TMP_VDD in mV (R562, 17); reset 750 (log 1). -/
  vdd : Nat
  /-- 13 bits; TMP_VBAT in mV (R562, 17); reset 3,000 (log 1). -/
  vbat : Nat
  /-- 16 bits signed; TMP_TEMP in 0.1 degree C (R562, 17); reset 250 (log 1). -/
  temp : Int
  /-- list of elapsed ns; tamper resets (R552, 17); reset empty. -/
  resets : List Nat
  deriving DecidableEq, Repr, Inhabited

/-- The pair controller (R563 to R590). -/
structure Pair where
  /-- 1 bit; PAIRED (R590, 18); reset keep, false in a new device. -/
  paired : Bool
  /-- 32 bits; PAIR_ID (R564, 18); reset keep, 0 (log 1). -/
  pairId : Nat
  /-- 6 bits; partner device number (R590, 18); reset keep, 0 (log 1). -/
  partner : Nat
  /-- 2 bits; pair link (R590, 18); reset keep, 0 (log 1). -/
  link : Nat
  /-- 2 × 16 bits; SIGN_ONLY and VERIFY_ONLY slots of the heartbeat key (R564, 18); reset keep, 0 (log 1). -/
  signSlot : Nat
  verSlot : Nat
  /-- 8 bits; silence limit T (R564, R590); reset keep, 4 the default. -/
  silence : Nat
  /-- 48 bits; heartbeat destination (R113, 03); reset keep, 0F-56-4B-48-42-00 the default. -/
  hbAddr : Nat
  /-- 16 bits; 802.1Q tag control of heartbeat frames, 0 untagged (R113, 03); reset keep, 0xE000: priority 7 (log 51). -/
  hbTag : Nat
  /-- 1 bit; ROLE: standby (R590, 18); reset 0. -/
  standby : Bool
  /-- 1 bit; SYNCED (R590, 18); reset 0. -/
  synced : Bool
  /-- 1 bit; FIT (R590, 18); reset 0. -/
  fit : Bool
  /-- 1 bit; PATH_SUSPECT (R590, 18); reset 0. -/
  pathSuspect : Bool
  /-- 1 bit; PARTNER_LOST (R590, 18); reset 0. -/
  partnerLost : Bool
  /-- 1 bit; GEN_EXHAUSTED (R590, 18); reset keep, false in a new device. -/
  genExh : Bool
  /-- 32 bits; pair generation, PRC_GEN, MRAM (R580, R590); reset keep, 0 in a new device. -/
  gen : Nat
  /-- 64 bits; PRC_LASTHB (R590, 18); reset 0. -/
  lastHb : Nat
  /-- ns, optional; elapsed time of the last heartbeat on the pair link and on the bus pairs (R577, 18); reset none. -/
  hbSpanAt : Option Nat
  hbBpAt : Option Nat
  /-- 64 bits each; last slot accepted by device number × 4 + bus pair (R116, 03); reset empty. -/
  hbSlots : Map Nat
  /-- 64 bits each; last slot for which a heartbeat was sent, by bus pair (R112, 03); reset empty. -/
  hbSent : Map Nat
  /-- ns, optional; elapsed time of the last pair-link heartbeat sent (R576, 18); reset none. -/
  hbTxAt : Option Nat
  /-- ns, optional; elapsed time of the last pair-link traffic heard by the active (R579, 18); reset none. -/
  heardAt : Option Nat
  /-- 64 bits; highest acceptance token mirrored to the standby (R113, R586); reset 0. -/
  mirroredTok : Nat
  /-- 1 bit; the standby would hold more than 64 slots of sheets, and no confirmation has come since (R574, R588); reset false. -/
  heldOver : Bool
  /-- 1 bit; a failure announcement has been accepted (R577, 18); reset false. -/
  announced : Bool
  /-- list; mirrored changes, with their epochs, that wait on a standby for the end of a closing sequence (R27, R568); reset empty. -/
  mcfg : List (Cmd × Nat)
  /-- journal entries of the other member, by token (R31, R568, R570); reset empty. -/
  mjournal : Map JEntry
  /-- 32 bits; PRC_EVT, W1C (R590, 18); reset 0. -/
  evt : W32
  /-- 7 × 64 bits; counters of R590 in map order (18); reset 0. -/
  cnt : List Nat
  /-- 3 counts; heartbeats and adoptions at the last report, for the figures of the last second (R586, 18); reset 0. -/
  lastCnt : List Nat
  /-- 64 bits; report number (R586, 18); reset 0. -/
  reportSeq : Nat
  /-- 256 octets each; the partner's latest report and the device's own (R586, 18); reset empty. -/
  partnerRep : List Byte
  ownRep : List Byte
  /-- 16 bits; the partner's PROTO (R588, 18); reset 0. -/
  partnerProto : Nat
  /-- 16 entries; test results by subsystem: run, fail, cover, last failed code (R586, 18); reset 0. -/
  subs : List (Nat × Nat × Nat × Nat)
  /-- ns, optional; elapsed time of the last failed test outside PARTIAL parts (R588, 18); reset none. -/
  failAt : Option Nat
  /-- optional; fix records the standby owes an acknowledgement: bus pair, part, slot (R573, 18); reset empty. -/
  unacked : List (Nat × Nat × Nat)
  /-- 7 bits; consecutive slots of fix records applied since the copy (R584, 18); reset 0. -/
  fixRun : Nat
  /-- 64 bits, optional; slot of the last fix record applied (R584, 18); reset none. -/
  fixLast : Option Nat
  /-- ns, optional; elapsed time of the last health report (R586, 18); reset none. -/
  reportAt : Option Nat
  /-- token and elapsed time in ns, optional; pair.handover in progress (R589, 18); reset none. -/
  handover : Option (Nat × Nat)
  /-- ns, optional; elapsed time at which the pair listen began (R566, 18); reset none. -/
  listen : Option Nat
  /-- 1 bit; a heartbeat of PAIR_ID was accepted during the listen (R566, 18); reset false. -/
  listenHb : Bool
  /-- list; admission entries of the own host that wait for the active's token (R570, 18); reset empty. -/
  asked : List Cmd
  deriving DecidableEq, Repr, Inhabited

/-- A span link (R629 to R634). -/
structure SpanLink where
  /-- 2 bits; LSTATE: 0 DISABLED, 1 DOWN, 2 TRAINING, 3 UP (R647, 21); reset 0. -/
  st : Nat
  /-- 1 bit; PAIR (R647, 21); reset keep, false in a new device. -/
  pair : Bool
  /-- 6 bits; PEER (R647, 21); reset 0. -/
  peer : Nat
  /-- 14 bits, optional; slot of the domain key (R633, 21); reset none. -/
  keySlot : Option Nat
  /-- 32 bits; next FSEQ expected (R631, 21); reset 0. -/
  fseq : Nat
  /-- 64 bits; group number G (R632, 21); reset 0. -/
  group : Nat
  /-- 2 bits; flits of the current group received (R632, 21); reset 0. -/
  inGroup : Nat
  /-- list of elapsed ns; tag failures of the last second (R634, 21); reset empty. -/
  tagFails : List Nat
  /-- ns; elapsed time at which it went DOWN (R634, 21); reset 0. -/
  downAt : Nat
  /-- 32 octets each direction; link keys (R633, 21); reset empty. -/
  keyTx : List Byte
  keyRx : List Byte
  /-- 4 × 64 bits; FLITS, LATH_CORR, REPLAY, TAGFAIL (R647, 21); reset 0. -/
  cnt : List Nat
  /-- list; packets sent and not acknowledged (R646, 21); reset empty. -/
  unacked : List Packet
  /-- list; packets that wait for the link or for credit of their virtual channel (R637, R642, 21); reset empty. -/
  waiting : List Packet
  /-- 2 × 8 bits; credits of VC0 and VC1, in packets (R637, 21); reset 0 until the link trains (log 53). -/
  credits : List Nat
  deriving DecidableEq, Repr, Inhabited

/-- The span (R629 to R647). -/
structure Span where
  /-- 32 bits; SPN_EVT, W1C (R647, 21); reset 0. -/
  evt : W32
  /-- 2 bits; TOPO: 0 single, 1 ring, 2 torus (R647, 21); reset keep, 0 in a new device. -/
  topo : Nat
  /-- 7 bits; ring size N (R647, 21); reset keep, 0 in a new device. -/
  ringN : Nat
  /-- 4 bits each; torus X, Y (R636, R647); reset keep, 1 in a new device (log 1). -/
  x : Nat
  y : Nat
  /-- 4 links (R629, 21). -/
  links : List SpanLink
  /-- 64 × 2 bits, optional; route table by destination (R638, 21); reset empty. -/
  routes : Map Nat
  /-- list; failed links by device pair (R646, 21); reset empty. -/
  failed : List (Nat × Nat)
  /-- 64 bits each; last SEQ delivered, by source (R641, 21); reset empty. -/
  rxSeq : Map Nat
  /-- 64 bits each; last SEQ sent, by destination (R640, 21); reset empty. -/
  txSeq : Map Nat
  /-- list; packets held ahead of a gap, with the elapsed time at which the gap appeared (R641, 21); reset empty. -/
  ahead : List (Nat × Packet)
  /-- list; sources counted as unreachable for a gap (R641); reset empty. -/
  unreach : List Nat
  /-- list; device numbers that two devices announce (R639); reset empty. -/
  dups : List Nat
  /-- 2 × 64 bits; SPN_REROUTES, SPN_E2E_DUP (R647, 21); reset 0. -/
  cnt : List Nat
  /-- list; unnumbered neighbours by DEVID (R635, 21); reset empty. -/
  unnumbered : List (List Byte)
  /-- 64 octets each; DEVID that announced a device number (R633, R639); reset empty. -/
  ids : Map (List Byte)
  /-- elapsed ns at which the last route to a device was lost, by device (R380, R646); reset empty. -/
  lostAt : Map Nat
  /-- statuses that devices returned for commands ended DEVICE_UNREACHABLE, by token (R381, 10); reset empty. -/
  late : Map Nat
  /-- list; commands executed here for the gateway: cmd, gateway's device number, outcome when journalled (R378, R380); reset empty. -/
  foreign : List (Cmd × Option Outcome)
  deriving DecidableEq, Repr, Inhabited

/-- A record of the log (R616). -/
structure LogRec where
  seq : Nat
  type : Nat
  sev : Nat
  body : List W64
  repeat_ : Nat
  boot : Nat
  deriving DecidableEq, Repr, Inhabited

/-- The event recorder (R615 to R628). -/
structure Recorder where
  /-- 1 bit; POLICY: SEVERITY (R615, R628); reset keep, false in a new device. -/
  severity : Bool
  /-- 1 bit; FULL (R615, R628); reset keep, false in a new device. -/
  full : Bool
  /-- 64 bits; NEXTSEQ (R615, R617); reset keep, 1 in a new device. -/
  nextSeq : Nat
  /-- records held, ascending SEQ (R616, 20); reset keep, empty in a new device. -/
  recs : List LogRec
  /-- 32 bits; CLEARS (R615, 20); reset keep, 0 in a new device. -/
  clears : Nat
  /-- 3 × 64 bits; OVERFLOW, DROPPED, OVERWRITTEN (R615, 20); reset keep, 0 in a new device. -/
  overflow : Nat
  dropped : Nat
  overwritten : Nat
  /-- up to 512 events: type, severity, body (R619, 20); reset empty. -/
  queue : List (Nat × Nat × List W64)
  /-- 32 bits; EVR_EVT, W1C (R628, 20); reset 0 (log 1). -/
  evt : W32
  deriving DecidableEq, Repr, Inhabited

/-- A host or other leaf of the slot budget unit (R389): the deficit counter and cycles left below 64. -/
structure Leaf where
  d : Int
  frac : Nat
  deriving DecidableEq, Repr, Inhabited

/-- The slot budget unit (R382 to R401). -/
structure Budget where
  /-- 7 × 10 × 11 bits with inverted shadow; the table in force, SH (R386, R549); reset the default table. -/
  table : List (List Nat)
  tableInv : List (List Nat)
  /-- optional; table and wait limit in the shadow copy, its epoch, and its measurement (R400, 11); reset none. -/
  next : Option (List (List Nat) × Nat × Nat × List Byte)
  /-- 16 bits; wait limit in ms (R395, R401); reset 1,000. -/
  wait : Nat
  /-- 64 bits; BGT_TEPOCH (R401, 11); reset 0. -/
  tepoch : Nat
  /-- 13 bits; P (R383, R401); reset 1,356. -/
  p : Nat
  /-- 1 bit, 2 bits; SRC and GRID of BGT_PERIOD (R401, 11); reset 0. -/
  src : Nat
  grid : Nat
  /-- 7 bits; share count S in force (R336, R396); reset 1. -/
  shares : Nat
  /-- leaves by (engine × 10 + class) × 65 + function (R387 to R390); unlisted leaves hold a full quantum; reset empty. -/
  leaves : Map Leaf
  /-- count; slot of the grid, or free-running period, of the last boundary (R382, 11); reset 0. -/
  last : Nat
  /-- 7 bits; GSHORT (R401, 11); reset 0. -/
  gshort : BitVec 7
  /-- 7 bits; engines on which a guaranteed class has reached D = 0 in the current period (R397, 11); reset 0. -/
  gnow : BitVec 7
  /-- 32 bits; BGT_EVT, W1C (R401, 11); reset 0. -/
  evt : W32
  /-- 3 × 64 bits; BGT_PERIODS, BGT_GUAR_SHORT, BGT_WAIT_EXC (R401, 11); reset 0. -/
  cnt : List Nat
  deriving DecidableEq, Repr, Inhabited

/-- An image of the firmware store (R602, R605). -/
structure FwImage where
  comp : Nat
  fwver : Nat
  svn : Nat
  proto : Nat
  meas : List Byte
  deriving DecidableEq, Repr, Inhabited

/-- Firmware, measurements and boot (R594 to R614). -/
structure Firmware where
  /-- 8 × 2 optional images; banks 0 and 1 of each component, MRAM (R605, 19); reset keep; component version 1 (log 1). -/
  banks : List (Option FwImage × Option FwImage)
  /-- 8 × 1 bit; committed bank of each component (R605, 19); reset keep, bank 0. -/
  committed : List Bool
  /-- 8 × 7 bits; fused security versions F (R599, 19); reset fuse, 0 in a new device. -/
  svns : List Nat
  /-- list; deferred security-version steps: component, SVN (R601, 19); reset keep, empty. -/
  defer_ : List (Nat × Nat)
  /-- 16 × 512 bits; MEAS0 to MEAS15 (R611, 19); reset 0. -/
  meas : List (List Byte)
  /-- token, optional; control-firmware image that waits for the Putty swap (R606, 19); reset none. -/
  putty : Option (Nat × FwImage)
  /-- list; components 2 to 7 that wait for their shadow switch: token, image (R609, 19); reset empty. -/
  shadow : List (Nat × FwImage)
  /-- octets; monitor trims and servo settings in force (R603, R610); reset empty (log 1). -/
  trims : List Byte
  servo : List Byte
  /-- 64 bits; boot count, MRAM (R471, 14); reset keep, 0 in a new device. -/
  boots : Nat
  /-- 1 bit; factory-done fuse (R591, 19); reset fuse, true: the die has left the factory. -/
  factoryDone : Bool
  /-- what Primer would find at the next START-UP, from the last PORST_N deassertion (R594, log 6); reset all checks pass. -/
  facts : BootFacts
  /-- mode that svc.exit named, svc.release completed: what leads the next START-UP (R593, R598); reset none. -/
  exitSealed : Bool
  released : Bool
  deriving DecidableEq, Repr, Inhabited

/-- The UCIe module, PCIe and the system registers (R309 to R324). -/
structure Sys where
  /-- 4 bits with inverted shadow; MODE, SH (R324, 09); reset keep, 1 BLANK as delivered (R591). -/
  mode : Sh
  /-- 1 bit; STARTUP (R324, 09); reset 1. -/
  startup : Bool
  /-- 1 bit; PLOCK (R324, R13); reset 0. -/
  plock : Bool
  /-- 1 bit; PUTTY (R324, 09); reset 0. -/
  putty : Bool
  /-- 6 bits, optional; DEVNUM, MRAM (R324, R635); reset keep, none in a new device. -/
  devnum : Option Nat
  /-- 1 bit; GATEWAY (R324, 09); reset keep, true (log 1). -/
  gateway : Bool
  /-- 32 bits; SYS_EVT, W1C (R324, 09); reset 2: DEVRESET is 1. -/
  evt : W32
  /-- 64 bits; state epoch (R25 to R29, R324); reset keep, 0 in a new device. -/
  epoch : Nat
  /-- 64 bits; end of the epoch block reserved in MRAM (R29, 01); reset keep, 1,048,576 in a new device. -/
  epochTop : Nat
  /-- 64 bits; highest acceptance token issued (R34, R324); reset keep, 0 in a new device. -/
  token : Nat
  /-- 64 bits; end of the token block reserved in MRAM (R34, R29); reset keep, 1,048,576 in a new device. -/
  tokenTop : Nat
  /-- 3 bits; SYS_LINK.RATE (R324, 09); reset 0 (log 1). -/
  rate : Nat
  /-- 1 bit; SYS_LINK.REPAIRED (R324, 09); reset 0 (log 1). -/
  repaired : Bool
  /-- 2 bits; IDELINK (R324, 09); reset 0. -/
  ideLink : Nat
  /-- 1 bit; IDEREQ (R323, R324); reset keep, false in a new device. -/
  ideReq : Bool
  /-- selective streams in Secure state with their function range, IDESEL (R321, R324); reset empty. -/
  ideSel : Map (Nat × Nat)
  /-- 1 bit; VF Enable (R324, 09); reset 0. -/
  vfe : Bool
  /-- 7 bits; NumVFs (R324, 09); reset 0. -/
  numVfs : Nat
  /-- 64 bits; SYS_LATH_CORR (R324, 09); reset 0 (log 1). -/
  lathCorr : Nat
  /-- 64 bits; SYS_REPLAY (R324, 09); reset 0 (log 1). -/
  replay : Nat
  /-- 1 bit; UCIe link trained (R313, 09); reset false. -/
  ucieUp : Bool
  /-- list; rates of SYS_LINK.RATE that both dies supported at the last training (R309, 09); reset empty. -/
  rates : List Nat
  /-- 3 bits; highest rate allowed since the last device or conventional reset (R314, 09); reset 4. -/
  rateCap : Nat
  /-- 1 bit; a secured CMA/SPDM session is established (R321, R322); reset false. -/
  spdm : Bool
  /-- 32 bits; next FSEQ expected on receive (R311, 09); reset 0. -/
  fseq : Nat
  /-- 32 bits; FSEQ of the next flit to send (R311, 09); reset 0. -/
  txSeq : Nat
  /-- list of FSEQ and octets; flits sent and not acknowledged (R312, 09); reset empty. -/
  txBuf : List (Nat × List Byte)
  /-- 1 bit; PORST_N asserted or a rail held low: the die is held in reset (R546, R658); reset false. -/
  held : Bool
  /-- 1 bit; a sys.dadoinv is in progress: DDO_STATUS.INVAL (R338, 09); reset 0. -/
  inval : Bool
  /-- 32 bits; DDO_EVT, W1C (R338, 09); reset 0. -/
  ddoEvt : W32
  /-- 32 bits; DDO_FAULT (R338, 09); reset 0. -/
  ddoFault : W32
  /-- 64 bits; DDO_FAULT_IOVA (R338, 09); reset 0. -/
  ddoIova : Nat
  /-- 5 × 64 bits; DDO_LOOKUPS to DDO_INVALS (R338, 09); reset 0. -/
  ddoCnt : List Nat
  /-- 32 bits each; HI registers latched by a read of their LO register, by function × 65,536 + offset (R87, 02); reset empty. -/
  hiLatch : Map W32
  /-- ns; elapsed time of the host's last command, for UNTESTABLE[1] (R587, 18); reset 0. -/
  hostAt : Nat
  deriving DecidableEq, Repr, Inhabited

/-- The VK9612. -/
structure State where
  /-- UCIe, PCIe, mode, epoch and Dado registers (R309 to R338). -/
  sys : Sys
  /-- 65 functions: PF0 and VF 1 to 64 (R316, R317). -/
  fns : List Fn
  /-- the journal by acceptance token (R31, 01); reset kept, empty at power-up. -/
  journal : Map JEntry
  /-- tokens of configuration commands that wait for the end of closing sequences (R27, 01); reset empty. -/
  deferred : List Nat
  /-- the time unit (R52 to R87). -/
  time : TimeUnit
  /-- 8 process-bus ports (R88, 03). -/
  ports : List Port
  /-- 4 bus pairs (R88, 03). -/
  bpcfg : List BpCfg
  /-- Skim (R118 to R165). -/
  skim : Skim
  /-- Hawk (R166 to R215). -/
  hawk : Hawk
  /-- Trowel (R216 to R252). -/
  trowel : Trowel
  /-- publication (R284 to R308). -/
  publ : Publ
  /-- cipher and hash engines (R402 to R433). -/
  eng : Engines
  /-- public-key engine (R434 to R459). -/
  pke : Pke
  /-- random numbers (R460 to R477). -/
  rng : Rng
  /-- key store (R478 to R506). -/
  keys : KeyStore
  /-- Sealer, HBM and archive volume (R507 to R543). -/
  sealer : Sealer
  /-- tamper controller (R544 to R562). -/
  tamper : Tamper
  /-- pair controller (R563 to R590). -/
  pair : Pair
  /-- span (R629 to R647). -/
  span : Span
  /-- event recorder (R615 to R628). -/
  log : Recorder
  /-- slot budget unit (R382 to R401). -/
  budget : Budget
  /-- firmware, measurements and boot (R594 to R614). -/
  fw : Firmware
  /-- word locations with an injected Lath error: memory identifier, 256 higher for an error that Lath corrects, and word address (diag.inject, R373, R511); reset empty. -/
  injected : List (Nat × Nat)
  /-- the model's own counter of free values (log 2); reset 0, DESIGN CHOICE. -/
  freeCtr : Nat
  /-- what has left the die, oldest first (log 7); reset empty. -/
  outbox : List Output
  /-- the model's queue of commands, first in first out; reset empty. -/
  pending : List Instr
  deriving DecidableEq, Repr

/-- Why the block stops with a fault. No meaning of this model faults: the spec gives every condition an effect. -/
inductive Fault where
  /-- Raised by nothing; the type of step needs a fault reason. Safe. -/
  | neverRaised
  deriving DecidableEq, Repr

/-- Why a command is not carried out. -/
inductive Refusal where
  /-- A command without a meaning in Dispatch.lean, by its mnemonic. Safe. -/
  | notModelled (mnemonic : String)
  /-- JTAG_ACCESS in FACTORY with an instruction other than the factory-done fuse: the spec does not give the debug
  port's instructions (R663). Safe: the model stops where the die goes on. -/
  | jtagInstruction
  deriving DecidableEq, Repr

/-- A shadowed field holding v (R549). -/
def Sh.of (v : W32) : Sh := { val := v, inv := ~~~v }

/-- A function after reset (R325 to R327): no queue pair, no ring, no root; FLR set for a VF. -/
def Fn.reset (n : Nat) : Fn :=
  { (default : Fn) with
    bme := true, rootInv := ~~~(0 : W64), evt := if n = 0 then 0 else 8
    queues := List.replicate 16 default, rings := List.replicate 5 default }

/-- The time unit after reset (R54, R59, R60, R58, R62, R67, R69: the defaults). -/
def TimeUnit.reset : TimeUnit :=
  { (default : TimeUnit) with
    prio := [0, 1, 2, 3], revert := 60, qualLim := 1000, stepLim := 10000, holdLim := 10000, drift := 100
    domains := [0, 0, 0, 0], bps := List.replicate 4 default
    trk := List.replicate 4 { (default : Tracker) with coastN := 3 } }

/-- A port after reset (R117). -/
def Port.reset : Port := { (default : Port) with cnt := List.replicate 16 0, queues := List.replicate 4 [] }

/-- A bus pair's configuration before any sys.portcfg (R96). -/
def BpCfg.reset : BpCfg := { (default : BpCfg) with degrade := 10 }

/-- Hawk after reset: the default history depth (R168), hold limit 4 (R172), no trigger. -/
def Hawk.reset : Hawk :=
  { (default : Hawk) with
    depth := 3000
    groups := List.replicate 64 { deadline := 4, policy := 0, hold := 4, closed := none }
    trigs := List.replicate 256 { (default : Trigger) with src := .off }
    cnt := List.replicate 10 0 }

/-- A tamper source at its default configuration: response, N, W (R544). -/
def TmpSrc.dflt (resp n w : Nat) : TmpSrc :=
  { cfg := Sh.of (BitVec.ofNat 32 (resp + 4 * n + 64 * w)), events := [], alarms := 0, cond := false }

/-- The default configuration of sources 0 to 17 (R544). -/
def Tamper.defaults : List TmpSrc :=
  List.replicate 8 (TmpSrc.dflt 3 1 1) ++
  [TmpSrc.dflt 1 1 1, TmpSrc.dflt 2 2 1, TmpSrc.dflt 2 3 1000, TmpSrc.dflt 1 1 1, TmpSrc.dflt 3 1 1,
   TmpSrc.dflt 2 1 1, TmpSrc.dflt 2 1 1, TmpSrc.dflt 2 1 1, TmpSrc.dflt 0 3 1000, TmpSrc.dflt 3 1 1]

/-- The tamper controller of a new device (R562). -/
def Tamper.reset : Tamper :=
  { (default : Tamper) with
    srcs := Tamper.defaults, vauxOk := true, bperiod := Sh.of 64, lastz := 0x1F, vdd := 750, vbat := 3000
    temp := 250 }

/-- The default budget table, by engine and class (R386). -/
def Budget.defaultTable : List (List Nat) :=
  [[64, 64, 0, 64, 640, 64, 32, 32, 32, 32],
   [0, 512, 0, 0, 384, 0, 0, 96, 16, 16],
   [128, 384, 0, 64, 320, 0, 64, 32, 16, 16],
   [800, 0, 0, 64, 128, 0, 0, 0, 16, 16],
   [0, 0, 0, 0, 640, 0, 0, 256, 64, 64],
   [0, 0, 0, 0, 0, 992, 0, 0, 32, 0],
   [256, 256, 128, 64, 128, 0, 96, 64, 16, 16]]

/-- The inverted shadow of a budget table, 16 bits an entry (R549). -/
def Budget.shadowOf (t : List (List Nat)) : List (List Nat) := t.map (fun r => r.map (fun b => 65535 - b))

/-- The slot budget unit after reset (R401). -/
def Budget.reset : Budget :=
  { (default : Budget) with
    table := Budget.defaultTable, tableInv := Budget.shadowOf Budget.defaultTable, wait := 1000, p := 1356, shares := 1
    cnt := [0, 0, 0] }

/-- A firmware image as delivered (log 1). -/
def FwImage.delivered (c : Nat) : FwImage := { comp := c, fwver := 1, svn := 0, proto := 1, meas := [] }

/-- Firmware of a new device (R599, R605, R611). -/
def Firmware.reset : Firmware :=
  { (default : Firmware) with
    banks := (List.range 8).map (fun c => (some (FwImage.delivered c), none))
    committed := List.replicate 8 false, svns := List.replicate 8 0
    meas := List.replicate 16 (List.replicate 64 0)
    factoryDone := true
    facts := { powerUp := true, vbatValid := true, otpOk := true, imgOk := List.replicate 8 true
               altOk := List.replicate 8 true, stack := 2, fastRate := true, trainFail := [], badRegions := []
               badCopies := [], badCores := [] } }

/-- System registers right after reset, of a device as it leaves Ocartin: BLANK (R324, R591). -/
def Sys.reset : Sys :=
  { (default : Sys) with
    mode := Sh.of 1, startup := true, gateway := true, evt := 2, epochTop := 1048576, tokenTop := 1048576
    ddoCnt := List.replicate 5 0, rateCap := 4 }

/-- The random numbers after reset (R477). -/
def Rng.reset : Rng :=
  { (default : Rng) with
    cnt := List.replicate 5 0, srcs := List.replicate 4 default, drbg := List.replicate 72 default }

/-- The Sealer after reset (R543). -/
def Sealer.reset : Sealer :=
  { (default : Sealer) with regs := List.replicate 10 default, cnt := List.replicate 10 0 }

/-- The pair controller of a new device (R590). -/
def Pair.reset : Pair :=
  { (default : Pair) with
    silence := 4, hbAddr := 0x0F564B484200, hbTag := 0xE000, cnt := List.replicate 7 0, lastCnt := [0, 0, 0]
    subs := List.replicate 16 (0, 0, 0, 0) }

/-- The span of a new device (R647). -/
def Span.reset : Span :=
  { (default : Span) with
    x := 1, y := 1, cnt := [0, 0], links := List.replicate 4 { (default : SpanLink) with cnt := [0, 0, 0, 0] } }

/-- The VK9612 right after reset, before START-UP: a device as it leaves Ocartin (R591), every register at its reset
value, memories empty and no command waiting. -/
def State.reset : State :=
  { sys := Sys.reset
    fns := (List.range 65).map Fn.reset
    journal := [], deferred := []
    time := TimeUnit.reset
    ports := List.replicate 8 Port.reset
    bpcfg := List.replicate 4 BpCfg.reset
    skim := { (default : Skim) with cnt := List.replicate 22 0 }
    hawk := Hawk.reset
    trowel := { (default : Trowel) with
                running := List.replicate 64 none, ready := List.replicate 64 [], cnt := List.replicate 12 0 }
    publ := default
    eng := { (default : Engines) with lanes := List.replicate 40 default, cnt := List.replicate 6 0 }
    pke := { (default : Pke) with
             units := List.replicate 4 { (default : PkeUnit) with owner := 0x7F }, cnt := List.replicate 5 0 }
    rng := Rng.reset
    keys := { (default : KeyStore) with cnt := List.replicate 4 0 }
    sealer := Sealer.reset
    tamper := Tamper.reset
    pair := Pair.reset
    span := Span.reset
    log := { (default : Recorder) with nextSeq := 1 }
    budget := Budget.reset
    fw := Firmware.reset
    injected := [], freeCtr := 0, outbox := [], pending := [] }

end Sys2Proof.Machine
end

