-- ==== Sys2Proof/Machine/Status.lean ====
section
/-! DEFINITION. Status.lean: named views of the state that many commands share: mode and role, slots and grids (R75,
R382, R670), link availability (R97), and the status register of each window (R324 to R647). -/
namespace Sys2Proof.Machine

/-- SYS_MODE.MODE (R324): 0 FACTORY, 1 BLANK, 2 ACTIVE, 3 STANDBY, 4 SERVICE, 5 HALTED, 6 SEALED, 7 SPENT. -/
def mode (s : State) : Nat := bits s.sys.mode.val 3 0

/-- In a mode in which the process bus and sheets run (Modes in summary, 01): ACTIVE, STANDBY, SERVICE, not START-UP. -/
def inService (s : State) : Bool := !s.sys.startup && !s.sys.held && (mode s == 2 || mode s == 3 || mode s == 4)

/-- The device publishes and writes sheets: ACTIVE, or the active role in SERVICE (R592). -/
def publishes (s : State) : Bool := inService s && (mode s == 2 || (mode s == 4 && !s.pair.standby))

/-- HALTED, SEALED or SPENT: ports, queues and engines are stopped (R550, R525). -/
def isStopped (s : State) : Bool := mode s == 5 || mode s == 6 || mode s == 7

/-- The active mirrors to a standby (R568), not when the partner is lost or not yet SYNCED (R579, R584). -/
def mirrors (s : State) : Bool := s.pair.paired && !s.pair.standby && s.pair.synced && !s.pair.partnerLost && inService s

/-- The function f, or a function that holds nothing. -/
def fnOf (s : State) (f : Nat) : Fn := lget s.fns f default

/-- The function exists and is enabled: PF0, or a VF while VF Enable is set (R336). -/
def fnEnabled (s : State) (f : Nat) : Bool := f == 0 || (s.sys.vfe && decide (f ≤ s.sys.numVfs) && decide (f ≤ 64))

/-- Queue pair q of function f. -/
def queueOf (s : State) (f q : Nat) : Queue := lget (fnOf s f).queues q default

/-- Ring r of function f. -/
def ringOf (s : State) (f r : Nat) : Ring := lget (fnOf s f).rings r default

/-- The PTP instance and grid of bus pair b. -/
def bpOf (s : State) (b : Nat) : BpTime := lget s.time.bps b default

/-- The first slot of bus pair b whose start event is still to come: no slot up to the last one fired has a further one
(R667). -/
def nextFire (s : State) (b : Nat) : Nat := match (bpOf s b).fired with
  | some n => n + 1
  | none => 0

/-- The configuration of bus pair b. -/
def cfgOf (s : State) (b : Nat) : BpCfg := lget s.bpcfg b default

/-- The port of bus pair b on LAN A or B (R88). -/
def portOf (s : State) (b : Nat) (lanB : Bool) : Port := lget s.ports (2 * b + b2n lanB) default

/-- A port is UP or DEGRADED (R97). -/
def portUp (p : Port) : Bool := p.st == 2 || p.st == 3

/-- A LAN can carry a publication: UP or DEGRADED, and its transmit association not exhausted (R97, R111). -/
def lanAvail (s : State) (b : Nat) (lanB : Bool) : Bool := portUp (portOf s b lanB) && !(portOf s b lanB).txsaExh

/-- Some LAN of bus pair b is UP or DEGRADED. -/
def bpUp (s : State) (b : Nat) : Bool := portUp (portOf s b false) || portUp (portOf s b true)

/-- Slots per second of bus pair b: its master rate, or 4,000 (R670). -/
def slotRate (s : State) (b : Nat) : Nat := if (bpOf s b).mrate = 0 then 4000 else (bpOf s b).mrate

/-- Nominal sample instant of slot n at rate m, in TAI ns (R75). -/
def slotInstant (n m : Nat) : Nat := n / m * 1000000000 + n % m * 1000000000 / m

/-- The slot whose instant is the latest at or before a TAI time (R75). -/
def slotAt (tai m : Nat) : Nat :=
  tai / 1000000000 * m + (((tai % 1000000000 + 1) * m + 999999999) / 1000000000 - 1)

/-- Current slot of bus pair b (R75, R670). -/
def curSlot (s : State) (b : Nat) : Nat := slotAt s.time.tai (slotRate s b)

/-- The budget grid: the lowest-numbered bus pair with the highest master rate (R382); none without one or while time is UNSET. -/
def budgetGrid (s : State) : Option Nat :=
  if s.time.tstate = 0 then none
  else
    let best := (List.range 4).foldl (fun b n => if (bpOf s n).mrate > (match b with | some x => (bpOf s x).mrate | none => 0)
                                                 then some n else b) none
    best

/-- Length of a slot of the budget grid in tenths of a ns: 86,784 FCLK cycles when it runs free (R382, R565). -/
def gridPeriod10 (s : State) : Nat :=
  match budgetGrid s with
  | some b => 10000000000 / (bpOf s b).mrate
  | none => 694272

/-- T slots of the pair controller have passed since an elapsed time (R565, R577). -/
def slotsPast (s : State) (since n : Nat) : Bool := decide ((s.time.clock - since) * 10 ≥ n * gridPeriod10 s)

/-- Slot number of the budget grid, or the count of free-running periods (R565). -/
def gridSlot (s : State) : Nat :=
  match budgetGrid s with
  | some b => curSlot s b
  | none => s.time.clock * 10 / 694272

/-- Bus pair b closes slots: it has a master rate and time is not UNSET (R55, R670, HWK_STATUS.GRID). -/
def closes (s : State) (b : Nat) : Bool := inService s && decide (s.time.tstate ≠ 0) && decide ((bpOf s b).mrate ≠ 0)

/-- TIM_ERR_EST: the error estimate grown since holdover entry (R67, R69); outside HOLDOVER and FREERUN it reads 0 (DESIGN CHOICE,
log 97). -/
def errEst (s : State) : Nat :=
  if s.time.tstate = 2 ∨ s.time.tstate = 3 then
    let d10 := if s.time.horef = 1 then s.time.drift else 20000
    sat32 (s.time.errBase + (s.time.clock - s.time.hoAt) * d10 / 10000000000)
  else 0

/-- The share count S that VF Enable asks for (R336). -/
def shareCount (s : State) : Nat := if s.sys.vfe then s.sys.numVfs + 1 else 1

/-- SYS_MODE (R324). -/
def sysModeWord (s : State) : W32 :=
  pack [(mode s, 0), (b2n s.sys.startup, 4), (b2n s.sys.plock, 5), (b2n s.sys.putty, 6),
        (s.sys.devnum.getD 0, 8), (b2n s.sys.gateway, 14)]

/-- TMP_STATUS (R562). -/
def tmpStatus (s : State) : W32 :=
  pack [(b2n s.tamper.armed, 0), (b2n s.tamper.pending.isSome, 1), (b2n s.tamper.advBlocked, 2),
        (b2n s.tamper.backupLost, 3), (b2n s.tamper.onVbat, 4), (b2n s.tamper.running, 5)]

/-- EVR_STATUS (R628). -/
def evrStatus (s : State) : W32 :=
  pack [(b2n s.log.severity, 0), (b2n s.log.full, 1), (min 255 (s.log.queue.length / 2), 2)]

/-- BGT_STATUS (R401). -/
def bgtStatus (s : State) : W32 :=
  pack [(b2n (s.budget.src == 0), 0), (b2n s.budget.next.isSome, 1), (s.budget.gshort.toNat, 8)]

/-- Bits n of the qualified bus pairs. -/
def qualBits (s : State) : Nat :=
  ((List.range 4).map (fun n => b2n (bpOf s n).qualified * 2 ^ n)).sum

/-- TIM_STATUS (R87); SRC is reported while a bus pair is selected. -/
def timStatus (s : State) : W32 :=
  pack [(s.time.tstate, 0), (s.time.src, 4), (s.time.horef, 6), (b2n s.time.osc, 8), (b2n s.time.ppsOk, 9),
        (b2n s.time.disagree, 10), (b2n (decide (s.time.slew.natAbs > 50)), 11), (qualBits s, 12)]

/-- The duplicate table is full and no source is replaceable (R129). -/
def srcFull (s : State) : Bool :=
  decide (s.skim.sources.length ≥ 4096) &&
  s.skim.sources.all (fun x => decide (s.time.clock - x.lastAt < 1000000000))

/-- Context fetches outstanding (R142). -/
def outFetches (s : State) : Nat := (s.skim.fetchWait.map (·.1)).eraseDups.length

/-- SKM_STATUS (R165). -/
def skmStatus (s : State) : W32 :=
  pack [(s.skim.ovl.toNat, 0), (b2n s.skim.rehash, 4), (b2n (decide (outFetches s ≥ 256)), 5), (b2n (srcFull s), 6),
        (b2n (s.skim.ctx.any (fun x => x.2.st == 3)), 7), (b2n (s.skim.ctx.any (fun x => x.2.st == 4)), 8)]

/-- HWK_STATUS (R215): VOL_FULL while every record is locked. -/
def hwkStatus (s : State) : W32 :=
  pack [(((List.range 4).map (fun n => b2n (closes s n) * 2 ^ n)).sum, 0), (b2n (!s.hawk.recs.isEmpty), 4),
        (b2n (s.hawk.volFull && s.sealer.vol.dir.all (·.locked)), 5), (b2n s.hawk.shrink, 6)]

/-- TRW_STATUS (R252). -/
def trwStatus (s : State) : W32 :=
  pack [(b2n (s.trowel.progs.any (fun x => x.2.st == 4)), 0), (b2n s.trowel.spareShort, 1),
        (b2n (s.trowel.progs.any (fun x => x.2.st == 3)), 2)]

/-- A walk is in progress in a region or in the volume (R530, R542). -/
def walking (s : State) : Bool := s.sealer.regs.any (fun r => r.walk.isSome) || s.sealer.vol.walk.isSome

/-- SLR_STATUS (R543); a retirement's migration is one step of the model, so MIGRATE reads 0 between steps (log 10). -/
def slrStatus (s : State) : W32 :=
  pack [(b2n s.sealer.hbmOk, 0), (b2n (walking s), 1), (b2n (decide (s.sealer.vol.gib ≠ 0)), 3),
        (b2n s.sealer.vol.recover, 4), (b2n s.sealer.vol.stall, 5)]

/-- A nonce is outstanding and valid for 60 s (R503, KST_STATUS.CHAL). -/
def chalValid (s : State) : Bool :=
  match s.keys.nonce with
  | some (_, at_) => decide (s.time.clock - at_ ≤ 60000000000)
  | none => false

/-- KST_STATUS (R506). -/
def kstStatus (s : State) : W32 :=
  pack [(b2n s.keys.owned, 0), (b2n s.keys.keysOk, 1), (b2n s.keys.resvFault, 2), (b2n (chalValid s), 3)]

/-- RNG_STATUS (R477). -/
def rngStatus (s : State) : W32 :=
  pack [(s.rng.st, 0), (b2n s.rng.failed, 2), (b2n s.rng.fallback, 3), (b2n s.rng.pattern.isSome, 4), (s.rng.consec, 5)]

/-- A command's opcode (R360). -/
def Cmd.opc (c : Cmd) : Nat := bits (lget c.words 0 0) 15 0

/-- Journal entries whose engine work is staged and not journalled. -/
def stagedCount (s : State) (lo hi : Nat) : Nat :=
  (s.journal.filter (fun e => e.2.staged.isSome && e.2.outcome.isNone && decide (lo ≤ Cmd.opc e.2.cmd ∧ Cmd.opc e.2.cmd < hi))).length

/-- ENG_STATUS (R433): a logical lane holds work while the work of its command is staged. -/
def engStatus (s : State) : W32 :=
  let busy (n : Nat) : Bool := (mget s.journal (lget s.eng.lanes n default).tok).any (fun j => j.staged.isSome && j.outcome.isNone)
  pack [(((List.range 8).map (fun n => b2n (busy n) * 2 ^ n)).sum, 0), (b2n s.eng.stopped, 8)]

/-- ENG_PKE_STATUS (R459). -/
def pkeStatus (s : State) : W32 :=
  pack [(((List.range 4).map (fun i => b2n (lget s.pke.units i default).busy * 2 ^ i)).sum, 0),
        (((List.range 4).map (fun i => b2n (lget s.pke.units i default).wiping * 2 ^ i)).sum, 4), (b2n s.pke.stopped, 8)]

/-- Devices of the domain by its topology (R636). -/
def domainSize (s : State) : Nat :=
  if s.span.topo = 1 then s.span.ringN else if s.span.topo = 2 then s.span.x * s.span.y else 1

/-- This device's number; 0 when it holds none. -/
def devnum (s : State) : Nat := s.sys.devnum.getD 0

/-- A device is in the span domain: its number lies in the topology (R366 step 3). -/
def inDomain (s : State) (d : Nat) : Bool := d == devnum s || decide (d < domainSize s)

/-- A device can be reached: in the domain, not counted as unreachable, and with a route (R639, R641, R646). -/
def reachable (s : State) (d : Nat) : Bool := inDomain s d && !s.span.unreach.contains d && !s.span.dups.contains d && (mget s.span.lostAt d).isNone

/-- SPN_STATUS (R647); a recomputation is one step, so REROUTING reads 0 between steps (log 10). -/
def spnStatus (s : State) : W32 :=
  pack [(b2n s.sys.devnum.isSome, 0),
        (((List.range 64).filter (fun d => d != devnum s && reachable s d)).length, 8)]

/-- PRC_STATUS (R590). -/
def prcStatus (s : State) : W32 :=
  pack [(b2n s.pair.paired, 0), (b2n s.pair.standby, 1), (b2n s.pair.synced, 2), (b2n s.pair.fit, 3),
        (b2n s.pair.pathSuspect, 4), (b2n s.pair.partnerLost, 5), (b2n s.pair.genExh, 6)]

/-- DDO_STATUS (R338). -/
def ddoStatus (s : State) : W32 :=
  pack [((s.fns.filter (fun f => f.rootBound)).length, 0), (b2n s.sys.inval, 7)]

/-- PBn_STATUS (R117). -/
def pbStatus (s : State) (n : Nat) : W32 :=
  let p := lget s.ports n default
  let c := cfgOf s (n / 2)
  pack [(p.st, 0), (b2n p.signal, 3), (c.ltype, 4), (c.fec, 6), (c.redun, 8), (n % 2, 10), (b2n c.macsec, 11),
        (b2n c.xpn, 12), (b2n p.pnWarn, 13), (b2n p.txsaExh, 14)]

/-- The status register of a window by its index (R621). -/
def windowStatus (s : State) (w : Nat) : W32 :=
  match w with
  | 0 => sysModeWord s
  | 1 => tmpStatus s
  | 2 => evrStatus s
  | 3 => bgtStatus s
  | 4 => timStatus s
  | 5 => skmStatus s
  | 6 => hwkStatus s
  | 7 => trwStatus s
  | 8 => slrStatus s
  | 9 => kstStatus s
  | 10 => rngStatus s
  | 11 => engStatus s
  | 12 => spnStatus s
  | 13 => prcStatus s
  | 14 => ddoStatus s
  | _ => 0

/-- A slot-start event of the budget grid, or the start of a free-running period, is now (R382). -/
def atSlotStart (s : State) : Bool :=
  match budgetGrid s with
  | some b => slotInstant (curSlot s b) (slotRate s b) == s.time.tai
  | none => decide (s.time.clock * 10 % 694272 < 10)

end Sys2Proof.Machine
end

