-- ==== Sys2Proof/Machine/Ops.lean ====
section
/-! DEFINITION. Ops.lean: the named operations over the state that every family shares: outputs, events and their
records (R621, R673), counters, updates of one part, the state epoch (R26, R29), tokens (R34), free values. -/
namespace Sys2Proof.Machine

/-- Sends an output. -/
def emit (o : Output) (s : State) : State := { s with outbox := s.outbox ++ [o] }

/-- Sends outputs in order. -/
def emits (os : List Output) (s : State) : State := { s with outbox := s.outbox ++ os }

/-- Changes function f. -/
def updFn (f : Nat) (g : Fn → Fn) (s : State) : State := { s with fns := lupd s.fns f g }

/-- Changes queue pair q of function f. -/
def updQueue (f q : Nat) (g : Queue → Queue) (s : State) : State :=
  updFn f (fun x => { x with queues := lupd x.queues q g }) s

/-- Changes ring r of function f. -/
def updRing (f r : Nat) (g : Ring → Ring) (s : State) : State := updFn f (fun x => { x with rings := lupd x.rings r g }) s

/-- Changes the PTP instance of bus pair b. -/
def updBp (b : Nat) (g : BpTime → BpTime) (s : State) : State :=
  { s with time := { s.time with bps := lupd s.time.bps b g } }

/-- Changes tracker b. -/
def updTrk (b : Nat) (g : Tracker → Tracker) (s : State) : State :=
  { s with time := { s.time with trk := lupd s.time.trk b g } }

/-- Changes port n. -/
def updPort (n : Nat) (g : Port → Port) (s : State) : State := { s with ports := lupd s.ports n g }

/-- Changes the configuration of bus pair b. -/
def updCfg (b : Nat) (g : BpCfg → BpCfg) (s : State) : State := { s with bpcfg := lupd s.bpcfg b g }

/-- Context k, none when FREE (R131). -/
def ctxOf (s : State) (k : Nat) : Option Ctx := mget s.skim.ctx k

/-- Puts an element in front of a list that does not hold it. -/
def addOnce (k : Nat) (l : List Nat) : List Nat := if l.contains k then l else k :: l

/-- A context's entry has changed since its fetch (R143, R144). -/
def dirtyCtx (k : Nat) (s : State) : State :=
  { s with skim := { s.skim with dirty := if (mget s.skim.ctx k).isSome then addOnce k s.skim.dirty else s.skim.dirty } }

/-- Changes context k where it is not FREE. -/
def updCtx (k : Nat) (g : Ctx → Ctx) (s : State) : State :=
  dirtyCtx k { s with skim := { s.skim with ctx := mupd s.skim.ctx k g } }

/-- Program p. -/
def progOf (s : State) (p : Nat) : Option Prog := mget s.trowel.progs p

/-- Changes program p where it is loaded. -/
def updProg (p : Nat) (g : Prog → Prog) (s : State) : State :=
  { s with trowel := { s.trowel with progs := mupd s.trowel.progs p g } }

/-- Journal entry of a token (R31). -/
def jent (s : State) (t : Nat) : Option JEntry := mget s.journal t

/-- Changes the journal entry of a token. -/
def updJ (t : Nat) (g : JEntry → JEntry) (s : State) : State := { s with journal := mupd s.journal t g }

/-- Changes region r of the Sealer. -/
def updReg (r : Nat) (g : Region → Region) (s : State) : State :=
  { s with sealer := { s.sealer with regs := lupd s.sealer.regs r g } }

/-- Changes the archive volume. -/
def updVol (g : Volume → Volume) (s : State) : State := { s with sealer := { s.sealer with vol := g s.sealer.vol } }

/-- Changes span link l. -/
def updLink (l : Nat) (g : SpanLink → SpanLink) (s : State) : State :=
  { s with span := { s.span with links := lupd s.span.links l g } }

/-- Changes tamper source i. -/
def updSrc (i : Nat) (g : TmpSrc → TmpSrc) (s : State) : State :=
  { s with tamper := { s.tamper with srcs := lupd s.tamper.srcs i g } }

/-- Changes PKE instance i. -/
def updUnit (i : Nat) (g : PkeUnit → PkeUnit) (s : State) : State :=
  { s with pke := { s.pke with units := lupd s.pke.units i g } }

/-- Adds n to counter i of a list of 64-bit counters. -/
def addAt (l : List Nat) (i n : Nat) : List Nat := lupd l i (fun x => x + n)

/-- Counts in the Skim, Hawk, Trowel and other windows' 64-bit counters, by their place in the register map. -/
def cntSkim (i n : Nat) (s : State) : State := { s with skim := { s.skim with cnt := addAt s.skim.cnt i n } }
def cntHawk (i n : Nat) (s : State) : State := { s with hawk := { s.hawk with cnt := addAt s.hawk.cnt i n } }
def cntTrw (i n : Nat) (s : State) : State := { s with trowel := { s.trowel with cnt := addAt s.trowel.cnt i n } }
def cntEng (i n : Nat) (s : State) : State := { s with eng := { s.eng with cnt := addAt s.eng.cnt i n } }
def cntPke (i n : Nat) (s : State) : State := { s with pke := { s.pke with cnt := addAt s.pke.cnt i n } }
def cntRng (i n : Nat) (s : State) : State := { s with rng := { s.rng with cnt := addAt s.rng.cnt i n } }
def cntKst (i n : Nat) (s : State) : State := { s with keys := { s.keys with cnt := addAt s.keys.cnt i n } }
def cntSlr (i n : Nat) (s : State) : State := { s with sealer := { s.sealer with cnt := addAt s.sealer.cnt i n } }
def cntPrc (i n : Nat) (s : State) : State := { s with pair := { s.pair with cnt := addAt s.pair.cnt i n } }
def cntSpn (i n : Nat) (s : State) : State := { s with span := { s.span with cnt := addAt s.span.cnt i n } }
def cntDdo (i n : Nat) (s : State) : State := { s with sys := { s.sys with ddoCnt := addAt s.sys.ddoCnt i n } }
def cntBgt (i n : Nat) (s : State) : State := { s with budget := { s.budget with cnt := addAt s.budget.cnt i n } }
def cntPort (p i n : Nat) (s : State) : State := updPort p (fun x => { x with cnt := addAt x.cnt i n }) s
def cntLink (l i n : Nat) (s : State) : State := updLink l (fun x => { x with cnt := addAt x.cnt i n }) s

/-- Counts in a context's 32-bit saturating counter (R132). -/
def cntCtx (k i n : Nat) (s : State) : State :=
  updCtx k (fun c => { c with cnt := lupd c.cnt i (fun x => sat32 (x + n)) }) s

/-- Severities of the bits of each window's main EVT register, in bit order (R673). -/
def evtSeverity : List (List Nat) :=
  [[2, 2, 1, 3, 6, 6],
   [7, 7, 7, 7, 7, 1, 7],
   [3, 3, 3, 1],
   [3, 4, 1, 2],
   [2, 3, 4, 2, 3, 3, 0, 0, 3, 3, 3, 3, 4, 4, 4, 4],
   [3, 3, 3, 3, 4, 3, 4, 4, 4, 4, 4, 4, 1],
   [3, 3, 3, 4, 1, 4, 4, 4],
   [3, 4, 5, 3, 1, 4],
   [3, 3, 3, 5, 1, 1, 4, 4, 5],
   [1, 6, 5, 6, 5],
   [3, 5, 4, 3, 2],
   [4, 3, 4, 6],
   [3, 6, 3, 4, 4],
   [2, 3, 3, 4, 3, 3, 4],
   [4, 4, 4, 1]]

/-- Severity of the bits of PBn_EVT, ENG_PKE_EVT and VFS_EVT (R673). -/
def pbSeverity : List Nat := [3, 2, 3, 3, 4, 3, 4, 3]
def pkeSeverity : List Nat := [4, 1, 1, 6]
def vfsSeverity : List Nat := [4, 4, 4, 1]

/-- A record of the recorder's own EVR_EVT events (R671). -/
def ownRecord (type : Nat) : Bool := decide (0x0200 ≤ type ∧ type < 0x0220)

/-- A record is counted as not written under the policy, with EVR_EVT.DROP (R619, R623, R624). -/
def countDrop (s : State) : State :=
  if s.log.severity then { s with log := { s.log with dropped := s.log.dropped + 1, evt := setBit s.log.evt 1 } }
  else { s with log := { s.log with overflow := s.log.overflow + 1, evt := setBit s.log.evt 1 } }

/-- Hands an event to the recorder's queue (R619): an event that finds it full is counted under the policy, unless it is
the recorder's own (R671). -/
def logEv (type sev : Nat) (body : List W64) (s : State) : State :=
  if s.log.queue.length < 512 then
    { s with log := { s.log with queue := s.log.queue ++ [(type, sev, body)] } }
  else if ownRecord type then s else countDrop s

/-- Sets bit b of the main EVT register of window w. -/
def setEvt (w b : Nat) (s : State) : State :=
  match w with
  | 0 => { s with sys := { s.sys with evt := setBit s.sys.evt b } }
  | 1 => { s with tamper := { s.tamper with evt := setBit s.tamper.evt b } }
  | 2 => { s with log := { s.log with evt := setBit s.log.evt b } }
  | 3 => { s with budget := { s.budget with evt := setBit s.budget.evt b } }
  | 4 => { s with time := { s.time with evt := setBit s.time.evt b } }
  | 5 => { s with skim := { s.skim with evt := setBit s.skim.evt b } }
  | 6 => { s with hawk := { s.hawk with evt := setBit s.hawk.evt b } }
  | 7 => { s with trowel := { s.trowel with evt := setBit s.trowel.evt b } }
  | 8 => { s with sealer := { s.sealer with evt := setBit s.sealer.evt b } }
  | 9 => { s with keys := { s.keys with evt := setBit s.keys.evt b } }
  | 10 => { s with rng := { s.rng with evt := setBit s.rng.evt b } }
  | 11 => { s with eng := { s.eng with evt := setBit s.eng.evt b } }
  | 12 => { s with span := { s.span with evt := setBit s.span.evt b } }
  | 13 => { s with pair := { s.pair with evt := setBit s.pair.evt b } }
  | 14 => { s with sys := { s.sys with ddoEvt := setBit s.sys.ddoEvt b } }
  | _ => s

/-- An event of a window's main EVT register: the bit is set and the recorder gets the type, with the window's status
register in word 0 (R621), whether or not the bit was set before. -/
def event (w b : Nat) (s : State) : State :=
  let s := setEvt w b s
  logEv (w * 256 + b) (lget (lget evtSeverity w []) b 0) [BitVec.ofNat 64 (windowStatus s w).toNat] s

/-- The same with words of its own: word 0 [63:32] and the words after it (R621). -/
def eventB (w b : Nat) (hi : W32) (body : List W64) (s : State) : State :=
  let s := setEvt w b s
  logEv (w * 256 + b) (lget (lget evtSeverity w []) b 0)
    (BitVec.ofNat 64 ((windowStatus s w).toNat + 4294967296 * hi.toNat) :: body) s

/-- An event of PBn_EVT (R117, R621). -/
def portEvent (n b : Nat) (s : State) : State :=
  let s := updPort n (fun p => { p with evt := setBit p.evt b }) s
  logEv (0x0540 + 8 * n + b) (lget pbSeverity b 0) [BitVec.ofNat 64 (pbStatus s n).toNat] s

/-- An event of ENG_PKE_EVT (R459, R621). -/
def pkeEvent (b : Nat) (s : State) : State :=
  let s := { s with pke := { s.pke with evt := setBit s.pke.evt b } }
  logEv (0x0B40 + b) (lget pkeSeverity b 0) [BitVec.ofNat 64 (pkeStatus s).toNat] s

/-- An event of VFS_EVT of function f, or the same event of PF0, about queue pair or ring i (R326, R621). -/
def fnEvent (f b i : Nat) (s : State) : State :=
  let s := if f = 0 then s else updFn f (fun x => { x with evt := setBit x.evt b }) s
  logEv (0x0F40 + b) (lget vfsSeverity b 0) [BitVec.ofNat 64 (f + 256 * i)] s

/-- Changes the mode: both copies of the SH field, SYS_EVT.MODE and its record, whose severity follows the mode
entered (R591, R673). The epoch is left to the caller. -/
def setModeField (m : Nat) (s : State) : State :=
  { s with sys := { s.sys with mode := Sh.of (BitVec.ofNat 32 m) } }

/-- Severity of a mode change (R673). -/
def modeSeverity (m : Nat) : Nat := if m = 5 then 5 else if m = 6 ∨ m = 7 then 7 else 2

/-- One configuration change: the state epoch grows by exactly one, and a new block of 2^20 is reserved in MRAM when
the reserved one is used up (R26, R29). -/
def bumpEpoch (s : State) : State :=
  let e := s.sys.epoch + 1
  { s with sys := { s.sys with epoch := e, epochTop := if e < s.sys.epochTop then s.sys.epochTop else s.sys.epochTop + 1048576 } }

/-- The mode becomes m where it is another one: SYS_EVT.MODE is set and logged (R591); a command that changes the mode is
itself the configuration change (R25). -/
def changeMode (m : Nat) (s : State) : State :=
  if mode s = m then s
  else
    let s := setEvt 0 0 (setModeField m s)
    logEv 0 (modeSeverity m) [BitVec.ofNat 64 (sysModeWord s).toNat] s

/-- Mirrors an item to the standby (R568). -/
def mirrorItem (m : MirrorItem) (s : State) : State := if mirrors s then emit (.pair (.mirror m)) s else s

/-- Enters mode m where it is another one: a configuration change of its own, whose epoch is mirrored (R25, R30, R591). -/
def enterMode (m : Nat) (s : State) : State :=
  if mode s = m then s else bumpEpoch (changeMode m (mirrorItem (.epoch (s.sys.epoch + 1)) s))

/-- A configuration change that no command of the pair carries to the standby: its state epoch is mirrored (R30). -/
def bumpMirrored (s : State) : State := bumpEpoch (mirrorItem (.epoch (s.sys.epoch + 1)) s)

/-- The next acceptance token (R34). -/
def nextToken (s : State) : Nat × State :=
  let t := s.sys.token + 1
  (t, { s with sys := { s.sys with token := t, tokenTop := if t < s.sys.tokenTop then s.sys.tokenTop else s.sys.tokenTop + 1048576 } })

/-- A fresh index of free values (log 2). -/
def fresh (s : State) : Nat × State := (s.freeCtr, { s with freeCtr := s.freeCtr + 1 })

/-- A link-state change that no bit of PBn_EVT reports is written as PORT_STATE (R621). -/
def portStateLog (n old new : Nat) (s : State) : State :=
  logEv 0x0520 2 [BitVec.ofNat 64 (n + 16 * old + 256 * new)] s

/-- Records a measurement extension of MEASi, and logs it with the measurement (R611, R621 MEASURE). -/
def measure (i : Nat) (m : List Byte) (s : State) : State :=
  let m := fit 64 m
  let s := { s with fw := { s.fw with meas := lupd s.fw.meas i (fun old => fit 64 (Config.hash 5 (fit 64 old ++ m))) } }
  logEv 0x0025 1 (BitVec.ofNat 64 i :: (List.range 8).map (fun k => BitVec.ofNat 64 (field m (8 * k) 8))) s

/-- Word i of a submission entry (R360). -/
def cw (c : Cmd) (i : Nat) : W32 := lget c.words i 0

/-- Words i and i + 1 as a 64-bit number, the lower word first (R7). -/
def cw64 (c : Cmd) (i : Nat) : Nat := (cw c i).toNat + 4294967296 * (cw c (i + 1)).toNat

/-- Fields of the submission entry (R360). -/
def cFence (c : Cmd) : Bool := bit (cw c 0) 16
def cNoirq (c : Cmd) : Bool := bit (cw c 0) 17
def cDev (c : Cmd) : Nat := bits (cw c 0) 29 24
def cTag (c : Cmd) : W32 := cw c 1
def cCtx (c : Cmd) : Nat := (cw c 2).toNat
def cLen (c : Cmd) : Nat := (cw c 3).toNat
def cIn (c : Cmd) : Nat := cw64 c 4
def cOut (c : Cmd) : Nat := cw64 c 6
def cOutLen (c : Cmd) : Nat := (cw c 15).toNat

/-- Octets of an ASCII text. -/
def text (s : String) : List Byte := s.toList.map (fun ch => BitVec.ofNat 8 ch.toNat)

/-- Private key of the device identity, ML-DSA-87, from the device root key (R485, R487). -/
def identityKey : List Byte := Config.pkePrivate 0x0B (Config.kmac 11 Config.drk [0, 0] 64 (text "VK9612 identity seed"))

/-- DEVID: SHA3-512 of the device identity public key (R210, R487). -/
def devId : List Byte := fit 64 (Config.hash 5 (Config.pkePublic 0x0B identityKey))

/-- Bus pair and group that fix a row; a derived row is fixed by the group of its program (R224). -/
def rowHome (s : State) (id : Nat) : Option (Nat × Nat) :=
  if id < 0x8000 then (ctxOf s id).map (fun x => (x.bp, x.sv.group))
  else match mget s.trowel.derived (id - 0x8000) with
    | some p => (progOf s p).map (fun g => (g.bind_.bp, g.bind_.group))
    | none => none

end Sys2Proof.Machine
end

