-- ==== Sys2Proof/Machine/Leaves.lean ====
section
/-! DEFINITION. Leaves.lean: the leaves of the slot budget unit (R383 to R391, R397) and what an engine's lanes and cores hold
(R402, R403, R405). Charged are the engine cycles that the spec states: PKE engine times, AES blocks, SHA-2 blocks and Keccak
permutations; work without stated cycles is charged an open number of them (log 42). -/
namespace Sys2Proof.Machine

/-- Lanes of engine e (R384). -/
def lanesOf (e : Nat) : Nat := lget [1, 2, 8, 24, 8, 4, 8] e 0

/-- U of a class on an engine (R387). -/
def unitsOf (s : State) (e c : Nat) : Nat := lanesOf e * s.budget.p * lget (lget s.budget.table e []) c 0 / 1024

/-- A host class: split into one leaf per function (R385, R388). -/
def hostClass (c : Nat) : Bool := c == 4 || c == 5

/-- What a leaf receives in a period (R387, R388). -/
def quantum (s : State) (e c : Nat) : Nat := if hostClass c then unitsOf s e c / max 1 s.budget.shares else unitsOf s e c

/-- Key of a leaf. -/
def leafKey (e c f : Nat) : Nat := (e * 10 + c) * 65 + f

/-- A leaf's deficit counter (R389). -/
def leafD (s : State) (e c f : Nat) : Int :=
  match mget s.budget.leaves (leafKey e c f) with
  | some l => l.d
  | none => quantum s e c

/-- A leaf starts a work item only while D > 0 (R391). -/
def mayStart (s : State) (e c f : Nat) : Bool := decide (leafD s e c f > 0)

/-- A guaranteed class has reached D = 0 on engine e: the period counts once, and the event is logged (R397). -/
def guarShort (e : Nat) (s : State) : State :=
  let s := if s.budget.gnow = 0 then cntBgt 1 1 s else s
  if s.budget.gnow.getLsbD e then s
  else event 3 0 { s with budget := { s.budget with gnow := s.budget.gnow ||| BitVec.ofNat 7 (2 ^ e) } }

/-- Charges engine cycles to a leaf: D falls by one for each 64 (R389). The work is done whatever D of a guaranteed class
becomes: how long it waits is timing (R397, log 89). -/
def charge (e c f cycles : Nat) (s : State) : State :=
  let k := leafKey e c f
  let l := (mget s.budget.leaves k).getD { d := leafD s e c f, frac := 0 }
  let n := l.frac + cycles
  let d : Int := l.d - (n / 64 : Nat)
  let s := { s with budget := { s.budget with leaves := mset s.budget.leaves k { d := d, frac := n % 64 } } }
  if c < 4 ∧ d ≤ 0 then guarShort e s else s

/-- Work for function f whose cycles the spec does not state is charged like any other (R385, R388, log 42). -/
def workFor (kind amount e c f : Nat) (s : State) : State := charge e c f (Config.workCycles kind amount) s

/-- Such work of a class that is not split. -/
def openWork (kind amount e c : Nat) (s : State) : State := workFor kind amount e c 0 s

/-- Octets moved between the die and host memory for a command of function f (R385). -/
def hostMove (octs f : Nat) (s : State) : State := if octs = 0 then s else workFor 11 octs 1 4 f s

/-- Class of a command's work on the control cores: PKE for the pke. commands, HOSTCMD for the others (R385). -/
def ctlClass (opc : Nat) : Nat := if opc / 4096 = 7 then 5 else 4

/-- Instance i of the public-key engine, and the lowest-numbered one that is free (R434). -/
def unitOf (s : State) (i : Nat) : PkeUnit := lget s.pke.units i default
def freeUnit (s : State) : Option Nat := (List.range 4).find? (fun i => !(unitOf s i).busy && !(unitOf s i).wiping)

/-- An internal client's operation runs from start to wipe on the lowest-numbered free instance, whose OWNER and ALG then name
it (R434, R454, R459): 0x70 control firmware, 0x71 Trowel loader, 0x72 key store, 0x73 Hawk records, 0x74 attestation, 0x75
span, 0x76 pair controller. -/
def clientOp (owner alg : Nat) (s : State) : State :=
  match freeUnit s with
  | some i => updUnit i (fun u => { u with owner := owner, alg := alg, rnd := [], mem := List.replicate u.mem.length 0 }) s
  | none => s

/-- An internal client's operation for function f, with its cycles, charged to the PKE leaf of f (R223, R385, R388, R444). -/
def clientWork (owner alg cycles f : Nat) (s : State) : State := clientOp owner alg (cntPke 0 1 (charge 5 5 f cycles s))

/-- A HashML-DSA-87 signature is verified, or made, by an internal client. -/
def verifyWork (owner f : Nat) (s : State) : State := clientWork owner 0xB 262500 f s
def signWork (owner f : Nat) (s : State) : State := clientWork owner 0xB 3625000 f s

/-- Signatures of n quorum tokens, verified by the control firmware (R505). -/
def tokensWork (n f : Nat) (s : State) : State := (List.range n).foldl (fun s _ => verifyWork 0x70 f s) s

/-- Cycles of a SHA3-512 over n octets (R406). -/
def digestCycles (n : Nat) : Nat := 24 * (n / 72 + 1)

/-- An image of n octets is hashed for HOSTCMD, and its signature verified for PKE, of function f (R223, R604). -/
def imageWork (owner f n : Nat) (s : State) : State := charge 4 4 f (digestCycles n) (verifyWork owner f s)

/-- First of the lanes or cores of engines CPH, SHA and KEC. -/
def laneBase (e : Nat) : Nat := if e = 2 then 0 else if e = 3 then 8 else 32

/-- A lane or core holds the work of a command: its work is staged and not journalled (R433). -/
def laneBusy (s : State) (l : EngLane) : Bool := (jent s l.tok).any (fun j => j.staged.isSome && j.outcome.isNone)

/-- Lane n of engine e. -/
def laneAt (s : State) (e n : Nat) : EngLane := lget s.eng.lanes (laneBase e + n) default

/-- Lanes of an engine that hold no command's work, and lanes that hold work of function f. -/
def freeLanes (s : State) (e : Nat) : List Nat := (List.range (lanesOf e)).filter (fun n => !laneBusy s (laneAt s e n))
def heldLanes (s : State) (e f : Nat) : Nat :=
  ((List.range (lanesOf e)).filter (fun n => laneBusy s (laneAt s e n) && (jent s (laneAt s e n).tok).any (fun j => j.cmd.fn == f))).length

/-- A host leaf of an engine starts a work item: it has something left, a lane is free, and it holds fewer lanes than
max(1, lanes / S) (R391, R394). -/
def mayRun (s : State) (e c f : Nat) : Bool :=
  mayStart s e c f && !(freeLanes s e).isEmpty && decide (heldLanes s e f < max 1 (lanesOf e / max 1 s.budget.shares))

/-- A free lane or core of the engine takes a block of a client, for the command of a token: the registers that another client
left are overwritten with zeros before the client's key and chaining state go in (R405). Which lane it is the device decides. -/
def takeLane (e client tok : Nat) (regs : List Byte) (s : State) : State :=
  let c := Config.laneOf e client s.time.clock
  let l := freeLanes s e
  let n := lget l (c % max 1 l.length) (c % lanesOf e)
  let load (l : EngLane) : EngLane :=
    let l := if l.client = client then l else { client := client, tok := tok, regs := List.replicate l.regs.length 0 }
    { l with tok := tok, regs := regs }
  { s with eng := { s.eng with lanes := lupd s.eng.lanes (laneBase e + n) load } }

/-- Work of a client on an engine: charged to a leaf, and held by a lane (R389, R405). -/
def engineWork (e c f cycles client tok : Nat) (regs : List Byte) (s : State) : State :=
  takeLane e client tok regs (charge e c f cycles s)

/-- Cycles of an HMAC-SHA256 over n octets, and of a GMAC (R406). -/
def hmacCycles (n : Nat) : Nat := 64 * ((n + 9 + 63) / 64 + 2)
def gmacCycles (n : Nat) : Nat := (n + 15) / 16

/-- A tag of an authentication extension is computed on the hash or the cipher engine for class c (R121, R306). -/
def tagWork (alg c client : Nat) (key octs : List Byte) (s : State) : State :=
  if alg = 0 then s
  else if alg ≤ 3 then engineWork 3 c 0 (hmacCycles octs.length) client 0 key s
  else engineWork 2 c 0 (gmacCycles octs.length) client 0 key s

/-- A generate of n octets by a DRBG instance runs on the cipher engine, charged to the HOSTCMD leaf of the function that it
serves (R467, log 42). -/
def generateWork (f i n : Nat) (key : List Byte) (s : State) : State :=
  engineWork 2 4 f (Config.workCycles 17 n) (0x20000 + i) 0 key s

end Sys2Proof.Machine
end

