-- ==== Sys2Proof/Machine/Packets.lean ====
section
/-! DEFINITION. Packets.lean: routes and packets of the span (R636 to R641, R646). -/
namespace Sys2Proof.Machine

/-- Device at the other end of link l of device d (R636). -/
def neighbour (s : State) (d l : Nat) : Option Nat :=
  let n := s.span.ringN
  let x := s.span.x
  let y := s.span.y
  if s.span.topo = 1 then
    (if n = 0 then none else if l = 0 then some ((d + 1) % n) else if l = 1 then some ((d + n - 1) % n) else none)
  else if s.span.topo = 2 then
    (if x = 0 ∨ y = 0 then none
     else match l with
      | 0 => some (d / x * x + (d % x + 1) % x)
      | 1 => some (d / x * x + (d % x + x - 1) % x)
      | 2 => some ((d / x + 1) % y * x + d % x)
      | _ => some ((d / x + y - 1) % y * x + d % x))
  else none

/-- Default route from device d to another (R636): X before Y, the shorter direction, ties by the lower link. -/
def defaultRoute (s : State) (d dst : Nat) : Option Nat :=
  let short (at_ dest n plus minus : Nat) : Option Nat :=
    let f := (dest + n - at_) % n
    if f = 0 then none else if f ≤ n - f then some plus else some minus
  if s.span.topo = 1 then (if s.span.ringN = 0 then none else short (d % s.span.ringN) (dst % s.span.ringN) s.span.ringN 0 1)
  else if s.span.topo = 2 then
    (if s.span.x = 0 ∨ s.span.y = 0 then none
     else match short (d % s.span.x) (dst % s.span.x) s.span.x 0 1 with
      | some l => some l
      | none => short (d / s.span.x % s.span.y) (dst / s.span.x % s.span.y) s.span.y 2 3)
  else none

/-- The link between two devices has failed (R646). -/
def linkFailed (s : State) (a b : Nat) : Bool := s.span.failed.contains (a, b) || s.span.failed.contains (b, a)

/-- The default route reaches its destination over links that work. -/
def defaultWorks (s : State) (dst : Nat) : Nat → Nat → Bool
  | 0, d => d == dst
  | n + 1, d =>
    if d = dst then true
    else match (defaultRoute s d dst).bind (neighbour s d) with
      | some e => !linkFailed s d e && defaultWorks s dst n e
      | none => false

/-- Devices within n hops of one over links that work. -/
def ball (s : State) (dst : Nat) : Nat → List Nat
  | 0 => [dst]
  | n + 1 =>
    let b := ball s dst n
    (b ++ b.flatMap (fun d => (List.range 4).filterMap (fun l =>
      match neighbour s d l with
      | some e => if linkFailed s d e then none else some e
      | none => none))).eraseDups

/-- Hops from a device to a destination over links that work, at most 64. -/
def hops (s : State) (d dst : Nat) : Nat := ((List.range 64).find? (fun n => (ball s dst n).contains d)).getD 64

/-- The recomputed route to a destination (R646): the default one where it works, else the shortest, by the lowest link. -/
def reroute (s : State) (dst : Nat) : Option Nat :=
  let me := devnum s
  if defaultWorks s dst 128 me then defaultRoute s me dst
  else (List.range 4).foldl (fun (o : Option Nat) l =>
    match neighbour s me l with
    | some e =>
      if linkFailed s me e || decide (hops s e dst ≥ 64) then o
      else match o with
        | some k => if hops s e dst < hops s ((neighbour s me k).getD me) dst then some l else o
        | none => some l
    | none => o) none

/-- Output link to a destination: the route table's entry, else the default route (R636, R638). -/
def routeLink (s : State) (dst : Nat) : Option Nat :=
  match mget s.span.routes dst with
  | some l => some l
  | none => defaultRoute s (devnum s) dst

/-- The output link is the dateline of its dimension, crossed in either direction (R637). -/
def dateline (s : State) (l : Nat) : Bool :=
  let d := devnum s
  let edge (at_ n : Nat) (plus : Bool) : Bool := n != 0 && at_ == (if plus then n - 1 else 0)
  if s.span.topo = 1 then decide (l < 2) && edge d s.span.ringN (l == 0)
  else if s.span.topo = 2 then
    (if l < 2 then edge (d % s.span.x) s.span.x (l == 0) else edge (d / s.span.x) s.span.y (l == 2))
  else false

/-- A packet leaves by a link once the link is UP and its virtual channel has credit, behind those of the channel that wait, and
is kept until it is acknowledged; across the dateline it moves to VC1 (R637, R642, R645, R646). -/
def sendOn (l : Nat) (k : Packet) (s : State) : State :=
  let k := if dateline s l then { k with vc := 1 } else k
  let x := lget s.span.links l default
  if x.st = 3 ∧ lget x.credits k.vc 0 ≠ 0 ∧ (x.waiting.any (fun w => w.vc == k.vc)) = false then
    emit (.span l k) (updLink l (fun x => { x with unacked := x.unacked ++ [k], credits := lupd x.credits k.vc (· - 1) }) s)
  else updLink l (fun x => { x with waiting := x.waiting ++ [k] }) s

/-- What waits at a link is offered to it again, in order. -/
def sendWaiting (l : Nat) (s : State) : State :=
  (lget s.span.links l default).waiting.foldl (fun s k => sendOn l k s) (updLink l (fun x => { x with waiting := [] }) s)

/-- A packet of this device: the next SEQ to its destination (R640). Without any route it waits at link 0. -/
def sendPacket (dst ptype arg : Nat) (body : List Byte) (s : State) : State :=
  let n := mgetD s.span.txSeq dst 0 + 1
  let s := { s with span := { s.span with txSeq := mset s.span.txSeq dst n } }
  sendOn ((routeLink s dst).getD 0)
    { dst := dst, src := devnum s, ptype := ptype, seq := n, arg := BitVec.ofNat 64 arg, body := body, vc := 0 } s

end Sys2Proof.Machine
end

