-- ==== Sys2Proof/Machine/Dado.lean ====
section
/-! DEFINITION. Dado.lean: DMA translation (R328 to R338): the table walk over host memory, the translation cache, pinned
maps and their extents. Host memory arrives as a list of cells; a table word with no listed octet is not answered
(KIND 5, log 11). -/
namespace Sys2Proof.Machine

/-- Some octet of [a, a + n) is listed: the host answers a read there (log 11). -/
def hostAnswers (mem : List Host.Cell) (a n : Nat) : Bool := mem.any (fun x => decide (a ≤ x.1 ∧ x.1 < a + n))

/-- A translation that fails: evidence, counters, events (R335, R338). -/
def dadoFault (f iova : Nat) (wr : Bool) (level kind : Nat) (s : State) : State :=
  let w := pack [(f, 0), (b2n wr, 7), (level, 8), (kind, 11)]
  let s := { s with sys := { s.sys with ddoFault := w, ddoIova := iova } }
  let s := cntDdo 3 1 s
  let s := updFn f (fun x => { x with faults := min 65535 (x.faults + 1) }) s
  let s := eventB 14 0 w [BitVec.ofNat 64 iova] s
  let s := if kind = 5 then eventB 14 1 w [BitVec.ofNat 64 iova] s else s
  fnEvent f 0 0 s

/-- One step of the walk at a level, from the table at base: fault kind, or the next base with the permissions so far, or
the page (R329). -/
inductive Walk where
  | fault (level kind : Nat)
  | page (bus size : Nat) (rd wr : Bool)
  deriving DecidableEq, Repr

/-- The walk from a level down (R329): an entry is checked for V, for reserved bits, LEAF and alignment, then for the
permission that the access needs (log 12). -/
def walkFrom (mem : List Host.Cell) (iova : Nat) (write : Bool) : Nat → Nat → Bool → Bool → Walk
  | 0, _, _, _ => .fault 0 0
  | l + 1, base, rd, wr =>
    let shift := 12 + 9 * l
    let a := base + 8 * (iova / 2 ^ shift % 512)
    if !hostAnswers mem a 8 then .fault (l + 1) 5
    else
      let e := leNat (memRdN mem a 8)
      let leaf := e / 8 % 2 = 1
      let adr := e / 4096 % 2 ^ 40 * 4096
      if e % 2 = 0 then .fault (l + 1) 2
      else if e / 16 % 256 ≠ 0 ∨ e / 2 ^ 52 ≠ 0 ∨ (leaf ∧ l = 3) ∨ (¬leaf ∧ l = 0) ∨ (leaf ∧ adr % 2 ^ shift ≠ 0) then
        .fault (l + 1) 4
      else if (if write then e / 4 % 2 else e / 2 % 2) = 0 then .fault (l + 1) 3
      else
        let rd := rd && decide (e / 2 % 2 = 1)
        let wr := wr && decide (e / 4 % 2 = 1)
        if leaf then .page adr (2 ^ shift) rd wr else walkFrom mem iova write l adr rd wr

/-- Cache entries of one function (R330, R336). -/
def cacheCap (s : State) : Nat := 4096 / shareCount s

/-- The translation of one address of function f (R328 to R332): the bus address when it succeeds. -/
def translate (mem : List Host.Cell) (f iova : Nat) (write : Bool) (s : State) : State × Option Nat :=
  if f = 0 then (s, some iova)
  else
    let s := cntDdo 0 1 s
    let x := fnOf s f
    if iova / 2 ^ 48 ≠ 0 then (dadoFault f iova write 0 6 s, none)
    else
      match x.cache.find? (fun e => decide (e.page ≤ iova ∧ iova < e.page + e.size)) with
      | some e =>
        let s := cntDdo 1 1 s
        if (if write then e.wr else e.rd) then (s, some (e.bus + (iova - e.page)))
        else (dadoFault f iova write 0 3 s, none)
      | none =>
        if !x.rootBound then (dadoFault f iova write 0 1 s, none)
        else
          let s := workFor 12 1 1 4 f (cntDdo 2 1 s)
          match walkFrom mem iova write 4 x.root.toNat true true with
          | .fault l k => (dadoFault f iova write l k s, none)
          | .page bus size rd wr =>
            let e : CacheEnt := { page := iova / size * size, size := size, bus := bus, rd := rd, wr := wr }
            let keep := cacheCap s
            (updFn f (fun y => { y with cache := (y.cache ++ [e]).drop (y.cache.length + 1 - keep) }) s,
             some (bus + iova % size))

/-- Every page of [a, a + n) translates (R332): the state after the walks, and whether all pages passed. -/
def translateRange (mem : List Host.Cell) (f : Nat) (write : Bool) : Nat → Nat → State → State × Bool
  | 0, _, s => (s, true)
  | k + 1, a, s =>
    match translate mem f a write s with
    | (s, none) => (s, false)
    | (s, some _) => translateRange mem f write k (a / 4096 * 4096 + 4096) s

/-- Pages that [a, a + n) touches. -/
def pagesOf (a n : Nat) : Nat := if n = 0 then 0 else (a + n - 1) / 4096 - a / 4096 + 1

/-- Dado's check of a command's range (R332, R361). -/
def checkRange (mem : List Host.Cell) (f a n : Nat) (write : Bool) (s : State) : State × Bool :=
  translateRange mem f write (pagesOf a n) a s

/-- Adds a piece to a list of extents, joined to the last when it continues it (R331). -/
def addExtent : List (Nat × Nat × Nat) → Nat × Nat × Nat → List (Nat × Nat × Nat)
  | [], p => [p]
  | [(i, b, n)], (i', b', n') => if i + n = i' ∧ b + n = b' then [(i, b, n + n')] else [(i, b, n), (i', b', n')]
  | e :: es, p => e :: addExtent es p

/-- The extents of k pages of 4 KiB from a (R331), none where a page does not translate. -/
def extentsFrom (mem : List Host.Cell) (f : Nat) (write : Bool) : Nat → Nat → List (Nat × Nat × Nat) → State →
    State × Option (List (Nat × Nat × Nat))
  | 0, _, acc, s => (s, some acc)
  | k + 1, a, acc, s =>
    match translate mem f a write s with
    | (s, none) => (s, none)
    | (s, some b) => extentsFrom mem f write k (a + 4096) (addExtent acc (a, b, 4096)) s

/-- The pinned map of n octets at a: a PF0 memory is one extent (R328, R331). -/
def pinnedMap (mem : List Host.Cell) (f a n : Nat) (write : Bool) (s : State) : State × Option (List (Nat × Nat × Nat)) :=
  if f = 0 then (s, some [(a, a, n)])
  else extentsFrom mem f write (pagesOf a n) (a / 4096 * 4096) [] s

/-- A pinned map as State holds it. -/
def toExtents (l : List (Nat × Nat × Nat)) : List Extent := l.map (fun e => { iova := e.1, bus := e.2.1, len := e.2.2 })

/-- The bus address of an address inside a pinned map. -/
def pinnedBus (m : List Extent) (a : Nat) : Option Nat :=
  match m.find? (fun e => decide (e.iova ≤ a ∧ a < e.iova + e.len)) with
  | some e => some (e.bus + (a - e.iova))
  | none => none

/-- The writes that octets at an address of function f become: PF0's go out as they are, a VF's page by page at the bus
addresses of a translation (R328, R331). -/
def dmaWrites (f : Nat) (m : List Extent) (addr : Nat) (octs : List Byte) : List Output :=
  if f = 0 then [.hostWrite 0 addr octs]
  else (List.range (pagesOf addr octs.length)).filterMap (fun i =>
    let a := if i = 0 then addr else addr / 4096 * 4096 + 4096 * i
    (pinnedBus m a).map (fun b => .hostWrite f b ((octs.drop (a - addr)).take (4096 - a % 4096))))

/-- A command's write of octets at the start of its output range. -/
def outWrites (c : Cmd) (octs : List Byte) : List Output := dmaWrites c.fn (toExtents c.outMap) (cOut c) octs

/-- A pinned map overlaps an address range. -/
def mapOverlaps (m : List Extent) (a n : Nat) : Bool := m.any (fun e => decide (e.iova < a + n ∧ a < e.iova + e.len))

/-- A lookup answered by a pinned map (R338). -/
def pinnedLookup (f : Nat) (s : State) : State := if f = 0 then s else cntDdo 1 1 (cntDdo 0 1 s)

/-- A queue or ring that needed more than 64 extents (R331, R338). -/
def extentLimit (s : State) : State := event 14 2 s

/-- Octets read through Dado from a range that has been checked: page by page. -/
def readOctets (mem : List Host.Cell) (f : Nat) : Nat → Nat → State → List Byte
  | 0, _, _ => []
  | k + 1, a, s =>
    match translate mem f a false s with
    | (_, some b) => memRdN mem b (4096 - a % 4096) ++ readOctets mem f k (a / 4096 * 4096 + 4096) s
    | (_, none) => []

/-- n octets of function f at address a. -/
def readRange (mem : List Host.Cell) (f a n : Nat) (s : State) : List Byte := (readOctets mem f (pagesOf a n) a s).take n

/-- DMA for function f may be issued: not fenced, Bus Master Enable set, the device not stopped, and no IDE policy
in the way (R323, R337, R342, R550). -/
def ideCovers (s : State) (f : Nat) : Bool :=
  s.sys.ideLink == 2 || s.sys.ideSel.any (fun x => decide (x.2.1 ≤ f ∧ f ≤ x.2.2))

/-- The IDE policy stands in the way of a memory request to a BAR of function f (R323). -/
def ideDrop (s : State) (f : Nat) : Bool := s.sys.ideReq && !ideCovers s f

/-- A memory write of the host to a BAR of function f, which does g (R320, R323, R336): no answer while the die is held in
reset or for a function that is not enabled, Unsupported Request in START-UP; dropped under the IDE policy. -/
def barWrite (f : Nat) (g : State → State) (s : State) : State :=
  if s.sys.held || !fnEnabled s f then s
  else if s.sys.startup then emit (.unsupported f) s
  else if ideDrop s f then event 0 4 s
  else g s

def dmaOk (s : State) (f : Nat) : Bool :=
  !(fnOf s f).fenced && (fnOf s f).bme && (!s.sys.ideReq || ideCovers s f)

end Sys2Proof.Machine
end

