-- ==== Sys2Proof/Machine/Index.lean ====
section
/-! DEFINITION. Index.lean: the classification index (R137, R139): two buckets of eight for each key, insertion with
displacements, removal and rebuilding. -/
namespace Sys2Proof.Machine

/-- The two buckets of a key and its fingerprint, of the 64-bit hash under a seed (R137; which bits give which: log 25). -/
def idxPlace (seed : W64) (key : List Byte) : Nat × Nat × Nat :=
  let h := (Config.indexHash seed key).toNat
  (h % 16384, h / 16384 % 16384, h / 4294967296)

/-- A bucket. -/
def bucketOf (ix : Map (List IdxEnt)) (b : Nat) : List IdxEnt := mgetD ix b []

/-- Entries with the key's fingerprint in its two buckets (R137). -/
def candidates (s : State) (key : List Byte) : List IdxEnt :=
  let (a, b, fp) := idxPlace s.skim.seed key
  (bucketOf s.skim.index a ++ bucketOf s.skim.index b).filter (fun e => e.fp == fp)

/-- Inserts an entry of a key: into the first of its buckets with room, or in place of an entry that moves to its other
bucket, at most n times (R139). `keyOf` gives the CKEY of a context, `pick` the entry that moves. -/
def idxInsert (seed : W64) (keyOf : Nat → List Byte) (pick : Nat → Nat) : Nat → IdxEnt → Map (List IdxEnt) →
    Option (Map (List IdxEnt))
  | n, e, ix =>
    let (a, b, fp) := idxPlace seed (keyOf e.ctx)
    let e := { e with fp := fp }
    if (bucketOf ix a).length < 8 then some (mset ix a (e :: bucketOf ix a))
    else if (bucketOf ix b).length < 8 then some (mset ix b (e :: bucketOf ix b))
    else match n with
      | 0 => none
      | n + 1 =>
        let c := if pick n / 8 % 2 = 0 then a else b
        match (bucketOf ix c)[pick n % 8]? with
        | some v => idxInsert seed keyOf pick n v (mset ix c (e :: (bucketOf ix c).eraseP (· == v)))
        | none => none

/-- Contexts that the index finds: subscriptions that are not DRAINING, and MACsec receive associations (R134, R135, R139). -/
def indexed (x : Ctx) : Bool := (decide (1 ≤ x.kind ∧ x.kind ≤ 4) && x.st != 2) || (x.kind == 6 && !x.sa.tx)

/-- CKEY of context k. -/
def ckeyOf (s : State) (k : Nat) : List Byte := ((ctxOf s k).getD default).ckey

/-- The index with context k inserted; none where 512 displacements do not find it a place (R139). -/
def withContext (k : Nat) (s : State) : Option (Map (List IdxEnt)) :=
  idxInsert s.skim.seed (ckeyOf s) (Config.indexVictim s.freeCtr) 512
    { fp := 0, ctx := k, dclass := ((ctxOf s k).getD default).dclass } s.skim.index

/-- The whole index under a seed, over the contexts that it finds; none where one of them finds no place. -/
def buildIndex (seed : W64) (s : State) : Option (Map (List IdxEnt)) :=
  (s.skim.ctx.filter (fun e => indexed e.2)).foldl (fun o e => o.bind (fun ix =>
    idxInsert seed (ckeyOf s) (Config.indexVictim (s.freeCtr + e.1)) 512 { fp := 0, ctx := e.1, dclass := e.2.dclass } ix)) (some [])

/-- The entry of context k leaves the index (R135). -/
def dropIndex (k : Nat) (s : State) : State :=
  let (a, b, _) := idxPlace s.skim.seed (ckeyOf s k)
  let drop (ix : Map (List IdxEnt)) (b : Nat) : Map (List IdxEnt) :=
    let l := (bucketOf ix b).filter (fun e => e.ctx != k)
    if l.isEmpty then mdel ix b else mset ix b l
  { s with skim := { s.skim with index := drop (drop s.skim.index a) b } }

/-- Context k enters the index, or a rebuild begins: true where it found a place (R139). -/
def addIndex (k : Nat) (s : State) : State × Bool :=
  match withContext k s with
  | some ix => ({ s with skim := { s.skim with index := ix }, freeCtr := s.freeCtr + 1 }, true)
  | none => ({ s with skim := { s.skim with rehash := true }, freeCtr := s.freeCtr + 1 }, false)

/-- The index is built anew under a seed and replaces the old one; where a key finds no place REHASH stays, for another seed
(R139). -/
def swapIndex (seed : W64) (s : State) : State × Bool :=
  match buildIndex seed s with
  | some ix => ({ s with skim := { s.skim with index := ix, seed := seed, rehash := false }, freeCtr := s.freeCtr + 65536 }, true)
  | none => ({ s with skim := { s.skim with rehash := true }, freeCtr := s.freeCtr + 65536 }, false)

/-- The index under a seed drawn in START-UP, over the contexts that are kept (R137, R340). -/
def startIndex (s : State) : State :=
  match buildIndex s.skim.seed s with
  | some ix => { s with skim := { s.skim with index := ix }, freeCtr := s.freeCtr + 65536 }
  | none => { s with skim := { s.skim with index := [], rehash := true }, freeCtr := s.freeCtr + 65536 }

end Sys2Proof.Machine
end

