-- ==== Sys2Proof/Machine/Lath.lean ====
section
/-! DEFINITION. Lath.lean: the Lath code (R510 to R514): check octets over GF(2^8), decoding of a word against the
location value that the reader expects, and the words of a received flit (R310, R311, R630, R631). -/
namespace Sys2Proof.Machine

/-- Multiplication by α modulo x^8 + x^4 + x^3 + x^2 + 1 (R510). -/
def mulAlpha (b : Byte) : Byte := (b <<< 1) ^^^ (if b.msb then 0x1D else 0)

/-- Multiplication by α^k. -/
def mulPow (b : Byte) : Nat → Byte
  | 0 => b
  | k + 1 => mulAlpha (mulPow b k)

/-- The twenty symbols d0 to d19 of a word at location L (R510). -/
def lathSymbols (loc : Nat) (data : List Byte) : List Byte := fit 16 data ++ leOctets 4 loc

/-- P: the sum of the symbols. -/
def lathP (loc : Nat) (data : List Byte) : Byte := (lathSymbols loc data).foldl (· ^^^ ·) 0

/-- Q: the sum of α^(i+1)·d_i, from the symbol at index i. -/
def lathQFrom : Nat → List Byte → Byte
  | _, [] => 0
  | i, d :: ds => mulPow d (i + 1) ^^^ lathQFrom (i + 1) ds

/-- Q (R510). -/
def lathQ (loc : Nat) (data : List Byte) : Byte := lathQFrom 0 (lathSymbols loc data)

/-- A word as it is stored at a location (R510). -/
def lathWord (loc : Nat) (data : List Byte) : LathWord := { data := fit 16 data, p := lathP loc data, q := lathQ loc data }

/-- A word that moves from a location to another keeps its data octets; its check octets take the location delta alone
(R512). -/
def lathMove (l1 l2 : Nat) (w : LathWord) : LathWord :=
  let d := List.zipWith (fun a b => a ^^^ b) (leOctets 4 l1) (leOctets 4 l2)
  { w with p := w.p ^^^ d.foldl (· ^^^ ·) 0, q := w.q ^^^ lathQFrom 16 d }

/-- Octets added to a stored word by a fault. -/
def lathUpset (w e : LathWord) : LathWord :=
  { data := List.zipWith (fun a b => a ^^^ b) w.data (fit 16 e.data), p := w.p ^^^ e.p, q := w.q ^^^ e.q }

/-- Octets as Lath words from a word address on (R511). -/
def lathWords (loc : Nat) (octs : List Byte) : List LathWord :=
  (List.range ((octs.length + 15) / 16)).map (fun i => lathWord ((loc + i) % 4294967296) (octets octs (16 * i) 16))

/-- What decoding a word gives (R513). -/
inductive LathOut where
  | clean (data : List Byte)
  | corrected (data : List Byte)
  | uncorrectable
  deriving DecidableEq, Repr

/-- Decoding of a word against the location expected (R513). -/
def lathDecode (loc : Nat) (w : LathWord) : LathOut :=
  let d := fit 16 w.data
  let s0 := w.p ^^^ lathP loc d
  let s1 := w.q ^^^ lathQ loc d
  if s0 = 0 ∧ s1 = 0 then .clean d
  else if s0 = 0 ∨ s1 = 0 then .corrected d
  else match (List.range 16).find? (fun j => decide (s1 = mulPow s0 (j + 1))) with
    | some j => .corrected (lupd d j (fun x => x ^^^ s0))
    | none => .uncorrectable

/-- Data of a decoded word, where it passes. -/
def LathOut.data? : LathOut → Option (List Byte)
  | .clean d => some d
  | .corrected d => some d
  | .uncorrectable => none

/-- A word needed correction. -/
def LathOut.fixed : LathOut → Bool
  | .corrected _ => true
  | _ => false

/-- The fourteen words of a flit, each at (FSEQ × 14 + w) mod 2^32 (R311, R631). -/
def flitWords (f : Flit) : List LathOut :=
  (List.range 14).map (fun w => lathDecode ((f.fseq * 14 + w) % 4294967296) (lget f.words w default))

/-- Control word 13 of a flit whose words all pass; none where one is uncorrectable (R312). -/
def flitControl (f : Flit) : Option (List Byte) :=
  let ws := flitWords f
  if ws.all (fun w => w.data?.isSome) then (lget ws 13 .uncorrectable).data? else none

/-- Words of a flit that were corrected (R312). -/
def flitFixed (f : Flit) : Nat := ((flitWords f).filter LathOut.fixed).length

/-- The 256 octets of a flit: words 0 to 12, control word 13, and P and Q of each at its location (R310, R311, R630). -/
def flitOctets (fseq : Nat) (body control : List Byte) : List Byte :=
  let ws := (List.range 14).map (fun w =>
    lathWord ((fseq * 14 + w) % 4294967296) (if w = 13 then control else octets body (16 * w) 16))
  ws.flatMap (·.data) ++ ws.flatMap (fun w => [w.p, w.q]) ++ List.replicate 4 0

/-- A control word with FSEQ, ACKSEQ, ACK and NAK (R310, R630). -/
def controlWord (fseq ackSeq : Nat) (ack nak : Bool) : List Byte :=
  leOctets 4 fseq ++ leOctets 4 ackSeq ++ [BitVec.ofNat 8 (b2n ack + 2 * b2n nak)] ++ List.replicate 7 0

/-- FSEQ and ACKSEQ of a control word, and a bit of it (R310, R630). -/
def ctlFseq (c : List Byte) : Nat := field c 0 4
def ctlAckSeq (c : List Byte) : Nat := field c 4 4
def ctlBit (c : List Byte) (i : Nat) : Bool := field c 0 16 / 2 ^ i % 2 == 1

/-- The flit that the receiver expects, all its words passing: its control word (R312). -/
def flitAccept (want : Nat) (f : Flit) : Option (List Byte) :=
  match flitControl f with
  | some c => if ctlFseq c = f.fseq % 4294967296 ∧ f.fseq = want then some c else none
  | none => none

end Sys2Proof.Machine
end

