-- ==== Sys2Proof/Machine/Seal.lean ====
section
/-! DEFINITION. Seal.lean: how the Sealer keeps a sector (R507 to R523, R526, R529, R531): the partition and its frames, keys,
tags and tree, the words of a sector in the stack, writes, and the entries of the context table (R131, R143). -/
namespace Sys2Proof.Machine

/-! The partition (R515). -/

/-- Sizes in MiB of regions 0 to 9, by stack: 1 8 GB, 2 16 GB, 3 24 GB. -/
def regionSizes (stack : Nat) : List Nat :=
  lget [[], [4096, 16, 320, 130, 24, 128, 64, 64, 2560, 24], [12288, 16, 320, 130, 24, 128, 64, 64, 2560, 24],
    [20480, 16, 320, 130, 24, 128, 64, 64, 2560, 24]] stack []

/-- Spare frames in MiB, and octets of the whole stack in MiB. -/
def spareSize (stack : Nat) : Nat := lget [0, 552, 318, 84] stack 0
def stackMib (stack : Nat) : Nat := 8192 * stack

/-- Region rid. -/
def regOf (s : State) (rid : Nat) : Region := lget s.sealer.regs rid default

/-- Sectors of a region. -/
def regSectors (s : State) (rid : Nat) : Nat := (regOf s rid).size * 2048

/-- The metadata area in MiB (R515). -/
def metaSize (stack : Nat) : Nat := lget [0, 214, 448, 682] stack 0

/-- Frames of 2 MiB of the regions and, as number 10, of the metadata area. -/
def partFrames (stack : Nat) : List Nat := (regionSizes stack ++ [metaSize stack]).map (· / 2)

/-- Frames on pseudo-channel pc of all parts before part rid: each part rotates from pseudo-channel 0 (R509). -/
def columnBase (stack rid pc : Nat) : Nat := (((partFrames stack).take rid).map (fun n => (n + 15 - pc) / 16)).sum

/-- Physical frame that the partition gives frame f of a part; frame p lies on pseudo-channel p mod 16 (log 90). -/
def frameHome (stack rid f : Nat) : Nat := 16 * (columnBase stack rid (f % 16) + f / 16) + f % 16

/-- Physical frame of frame f of a region or, as number 10, of the metadata area (R509). -/
def frameAt (s : State) (rid f : Nat) : Nat :=
  mgetD (if rid = 10 then s.sealer.metaFrames else (regOf s rid).frames) f (frameHome s.sealer.stack rid f)

/-- The pseudo-channel of a sector (R509). -/
def pcOf (s : State) (rid lbn : Nat) : Nat := frameAt s rid (lbn / 4096) % 16

/-- Physical address of word w of a sector (R511). -/
def sectorWord (s : State) (rid lbn w : Nat) : Nat := frameAt s rid (lbn / 4096) * 131072 + lbn % 4096 * 32 + w

/-- Physical address of word w of a metadata line or node (R515). -/
def metaWord (s : State) (rid level idx w : Nat) : Nat :=
  let a := 8 * Config.metaPlace s.sealer.stack rid level idx + w
  frameAt s 10 (a / 131072) * 131072 + a % 131072

/-- The two beats of a word: P in the ECC bits of the first, Q in those of the second (R508). -/
def beatsOf (addr : Nat) (w : LathWord) : List Beat :=
  [{ word := addr, data := w.data.take 8, ecc := w.p }, { word := addr, data := w.data.drop 8, ecc := w.q }]

/-- The 64 beats of a sector. Its words come with their check symbols from the cipher's lane and take the location delta of
their place in the stack (R315, R512). -/
def sectorBeats (s : State) (rid lbn : Nat) (cipher : List Byte) : List Beat :=
  (List.range 32).flatMap (fun w =>
    let a := sectorWord s rid lbn w
    beatsOf a (lathMove w a (lathWord w (octets cipher (16 * w) 16))))

/-! Keys, tags and the tree (R517 to R523). -/

/-- XTS key, KT and H of region rid and key epoch e. -/
def sealKeys (s : State) (rid e : Nat) : List Byte :=
  Config.kmac 11 s.sealer.master (leOctets 1 rid ++ leOctets 4 e) 112 (text "VK9612 sealer")

/-- KN and H2 of region rid. -/
def treeKeys (s : State) (rid : Nat) : List Byte :=
  Config.kmac 11 s.sealer.master (leOctets 1 rid ++ leOctets 4 0xFFFFFFFF) 48 (text "VK9612 sealer tree")

/-- Ciphertext and plaintext of a sector: XTS with the LBN as tweak. -/
def sealCipher (s : State) (rid e lbn : Nat) (plain : List Byte) : List Byte :=
  fit 512 (Config.cipher 5 false ((sealKeys s rid e).take 64) (leOctets 16 lbn) (fit 512 plain))
def sealPlain (s : State) (rid e lbn : Nat) (cipher : List Byte) : List Byte :=
  fit 512 (Config.cipher 5 true ((sealKeys s rid e).take 64) (leOctets 16 lbn) (fit 512 cipher))

/-- TAG of R518. -/
def sectorTag (s : State) (rid e lbn gen : Nat) (cipher : List Byte) : Nat :=
  Config.sealTag ((sealKeys s rid e).drop 64) (cipher ++ leOctets 8 lbn ++ leOctets 4 gen ++ leOctets 4 e)
    (leOctets 8 lbn ++ leOctets 4 gen ++ leOctets 1 rid ++ [0, 0, 0]) % 2 ^ 64

/-- LMAC or NMAC of an item at a level (0 the lines) with its counter in its parent (R521). -/
def nodeMac (s : State) (rid level idx ctr : Nat) (octs : List Byte) : Nat :=
  let t := leOctets 8 (idx + level * 2 ^ 56) ++ leOctets 8 ctr
  Config.sealTag (treeKeys s rid) (fit 0x78 octs ++ t) t % 2 ^ 64

/-- Position of a sector's item in a level: lines of ten sectors, nodes of eight children. -/
def itemIdx (lbn : Nat) : Nat → Nat
  | 0 => lbn / 10
  | l + 1 => itemIdx lbn l / 8

/-- Items of a level of a region. -/
def itemCount (s : State) (rid : Nat) : Nat → Nat
  | 0 => (regSectors s rid + 9) / 10
  | l + 1 => (itemCount s rid l + 7) / 8

/-- Levels of items in HBM, the lines included; the nodes of the next level are the root registers (R520). -/
def treeLevels (s : State) (rid : Nat) : Nat :=
  ((List.range 12).filter (fun l => decide (l ≥ 1 ∧ itemCount s rid (l - 1) > 64))).length

/-- Counter of an item. -/
def itemCtr (s : State) (rid level idx : Nat) : Nat := mgetD (regOf s rid).ctrs (level * 2 ^ 56 + idx) 0

/-- A sector as the tree knows it: generation 0 when never written. -/
def sectorOf (s : State) (rid lbn : Nat) : Sector := mgetD (regOf s rid).sectors lbn default

/-- The key epoch of a sector (R529): its EBITS bit names the current epoch or, during a walk, the one before. -/
def sectorEpoch (s : State) (rid lbn : Nat) : Nat :=
  let g := regOf s rid
  if (sectorOf s rid lbn).ebit = (g.kepoch % 2 == 1) then g.kepoch else g.kepoch - 1

/-! Lines, nodes and the metadata cache (R519 to R522). -/

/-- Octets 0x00 to 0x77 of a metadata line: tags and generations of its ten sectors. -/
def lineBody (s : State) (rid idx : Nat) : List Byte :=
  (List.range 10).flatMap (fun j => leOctets 8 (sectorOf s rid (10 * idx + j)).tag) ++
  (List.range 10).flatMap (fun j => leOctets 4 (sectorOf s rid (10 * idx + j)).gen)

/-- Octets 0x00 to 0x77 of a node: its children's counters and, at level 1, the key-epoch bits of 80 sectors. -/
def nodeBody (s : State) (rid level idx : Nat) : List Byte :=
  (List.range 8).flatMap (fun j => leOctets 8 (itemCtr s rid (level - 1) (8 * idx + j))) ++
  fit 56 (if level = 1 then
    leOctets 10 ((List.range 80).map (fun j => b2n (sectorOf s rid (80 * idx + j)).ebit * 2 ^ j)).sum else [])

/-- The 128 octets of a line or node, LMAC or NMAC last. -/
def itemOctets (s : State) (rid level idx : Nat) : List Byte :=
  let b := if level = 0 then lineBody s rid idx else nodeBody s rid level idx
  b ++ leOctets 8 (nodeMac s rid level idx (itemCtr s rid level idx) b)

/-- The cache holds an item. -/
def inCache (s : State) (rid level idx : Nat) : Bool :=
  s.sealer.mdc.any (fun e => e.rid == rid && e.level == level && e.idx == idx)

/-- Items that an access to a sector reads: the line and its ancestors up to the first that is cached or to the root
registers; a cached line needs none. -/
def missCount (s : State) (rid lbn : Nat) : Nat :=
  ((List.range (treeLevels s rid)).takeWhile (fun l => !inCache s rid l (itemIdx lbn l))).length

def updMdc (g : List MetaEnt → List MetaEnt) (s : State) : State := { s with sealer := { s.sealer with mdc := g s.sealer.mdc } }

/-- An item comes to the end of the cache's list, changed or as it was. -/
def touchItem (rid level idx : Nat) (dirty : Bool) (s : State) : State :=
  let is_ (e : MetaEnt) : Bool := e.rid == rid && e.level == level && e.idx == idx
  updMdc (fun l => l.filter (fun e => !is_ e) ++
    [{ rid := rid, level := level, idx := idx, dirty := dirty || l.any (fun e => is_ e && e.dirty) }]) s

/-- An item is written back: its counter in its parent grows by one, and the parent is changed (R521). -/
def writeBackItem (e : MetaEnt) (s : State) : State :=
  let k := e.level * 2 ^ 56 + e.idx
  let s := updReg e.rid (fun r => { r with ctrs := mset r.ctrs k (mgetD r.ctrs k 0 + 1) }) s
  let o := itemOctets s e.rid e.level e.idx
  emit (.metaItem e.rid e.level e.idx ((List.range 8).flatMap (fun w =>
      let a := metaWord s e.rid e.level e.idx w
      beatsOf a (lathWord a (octets o (16 * w) 16)))))
    (updMdc (fun l => l.map (fun x =>
      if x.rid = e.rid ∧ x.level = e.level + 1 ∧ x.idx = e.idx / 8 then { x with dirty := true } else x)) s)

/-- The least recently used item leaves a full cache, written back where it has changed (R522; which item leaves: log 46). -/
def evictItem (s : State) : State :=
  match s.sealer.mdc with
  | e :: l =>
    if l.length ≥ 32768 then
      let s := updMdc (fun _ => l) s
      if e.dirty then writeBackItem e s else s
    else s
  | [] => s

/-- The line of a sector and its ancestors are in the cache, line first; a write changes the line and, with another key-epoch
bit, the node above it. -/
def touchPath (rid lbn : Nat) (line node : Bool) (s : State) : State :=
  (List.range (treeLevels s rid)).foldl (fun s l =>
    evictItem (touchItem rid l (itemIdx lbn l) ((line && l == 0) || (node && l == 1)) s)) s

/-! Writes (R526 to R531). -/

/-- A sector is written under the current key epoch with a generation. -/
def putSector (rid lbn gen : Nat) (plain : List Byte) (s : State) : State :=
  let e := (regOf s rid).kepoch
  let c := sealCipher s rid e lbn plain
  let t := sectorTag s rid e lbn gen c
  let turned := (sectorOf s rid lbn).ebit != (e % 2 == 1)
  let s := updReg rid (fun g => { g with sectors := mset g.sectors lbn { gen := gen, tag := t, ebit := e % 2 == 1 } }) s
  emit (.hbm rid lbn (sectorBeats s rid lbn c) t gen) (touchPath rid lbn true turned s)

/-- A whole-sector write: at the last generation the region moves to the next key epoch, and a write that would need a
further one waits for the walk (R529, R531). -/
def sealWrite (rid lbn : Nat) (plain : List Byte) (s : State) : State :=
  let x := sectorOf s rid lbn
  let g := regOf s rid
  if x.gen < 0xFFFFFFFF then putSector rid lbn (x.gen + 1) plain s
  else if g.walk.isNone then
    putSector rid lbn 1 plain (event 8 4 (updReg rid (fun g => { g with kepoch := g.kepoch + 1, walk := some 0 }) s))
  else if sectorEpoch s rid lbn = g.kepoch then cntSlr 5 1 s
  else putSector rid lbn 1 plain s

/-! The context table (R131, R285, R409). -/

/-- A field of a 32-bit word of an entry. -/
def packLe (l : List (Nat × Nat)) : List Byte := leOctets 4 ((l.map (fun e => e.1 * 2 ^ e.2)).sum % 2 ^ 32)

/-- Kind-specific part of an entry, 96 octets: SV, GOOSE, publication, session; of a MACsec association, whose layout the
spec does not give, the fields of R108 to R111 in order (log 87). -/
def partOctets (x : Ctx) : List Byte :=
  fit 96 (if x.kind = 1 ∨ x.kind = 3 then
      leOctets 8 x.sv.highx ++ leOctets 8 x.sv.window.toNat ++
      packLe [(x.sv.rate, 0), (b2n x.sv.wvalid, 3), (x.sv.nasdu, 4), (x.sv.group, 8)] ++ w32le x.sv.confRev ++ leOctets 8 0 ++
      (List.range 8).flatMap (fun i => leOctets 2 (lget x.sv.voff i 0xFFFF)) ++
      (List.range 8).flatMap (fun i => leOctets 2 (lget x.sv.qoff i 0))
    else if x.kind = 2 ∨ x.kind = 4 then
      leOctets 4 x.gs.stNum ++ leOctets 4 x.gs.sqNum ++ fit 8 x.gs.t ++ leOctets 8 x.gs.expiry ++ w32le x.gs.confRev ++
      leOctets 4 (b2n x.gs.gvalid) ++ leOctets 2 x.gs.fresh ++ leOctets 2 x.gs.dsLen ++
      fit 16 (x.gs.targets.flatMap (fun f => leOctets 4 (f + 128))) ++ leOctets 2 x.gs.trig
    else if x.kind = 5 then
      let p := x.pub
      leOctets 4 p.stNum ++ leOctets 4 p.sqNum ++ fit 8 p.t ++ leOctets 8 p.nextTx ++
      packLe [(p.ptype, 0), (b2n p.svalid, 2), (p.stepPos, 3), (p.nasdu, 7)] ++ w32le p.argLast ++ beOctets 6 p.srcMac ++
      leOctets 2 p.vlan ++ beOctets 6 p.nextHop ++ [BitVec.ofNat 8 p.dscp, BitVec.ofNat 8 p.hops] ++ leOctets 4 p.spdu ++
      (List.range 6).flatMap (fun i => leOctets 2 (lget p.curve i 0)) ++ leOctets 4 p.tsteady ++ leOctets 8 p.lastSlot
    else if x.kind = 6 then
      [BitVec.ofNat 8 x.sa.port, BitVec.ofNat 8 (b2n x.sa.tx), BitVec.ofNat 8 x.sa.an, BitVec.ofNat 8 (b2n x.sa.xpn)] ++
      fit 8 x.sa.sci ++ leOctets 8 x.sa.pn ++ leOctets 4 x.sa.replayWin ++
      [BitVec.ofNat 8 (b2n x.sa.conf), BitVec.ofNat 8 (b2n x.sa.current)] ++ leOctets 2 x.sa.keySlot
    else
      let p := x.ses
      packLe [(p.skind, 0), (p.code, 2), (b2n p.dir, 7), (b2n p.derive_, 8), (b2n p.keyset, 9), (b2n p.pubOk, 10),
        (b2n p.streamed, 11), (b2n p.final, 12)] ++
      packLe [(p.tlen, 0), (p.unitlg, 8), (p.nlen, 16), (p.slen, 24)] ++ fit 16 p.keyFp ++ leOctets 8 p.saveSeq ++
      leOctets 8 p.octets)

/-- A context entry as its 256 octets (R131). -/
def ctxOctets (k : Nat) (x : Ctx) : List Byte :=
  packLe [(x.kind, 0), (x.st, 4), (x.bp, 8), (x.dclass, 10), (x.auth, 12), (b2n x.pin, 14), (b2n x.sim, 15), (x.fn, 16)] ++
  leOctets 2 k ++ leOctets 2 x.gen ++ fit 40 x.ckey ++ fit 16 x.nameh ++ leOctets 2 x.keyCur ++ leOctets 2 x.keyNxt ++
  w32le x.keyIdCur ++ w32le x.keyIdNxt ++ packLe [(x.macAlg, 0), (b2n x.nxtValid, 4), (x.overlap, 16)] ++ leOctets 8 x.switch ++
  leOctets 8 0 ++ partOctets x ++ (List.range 16).flatMap (fun i => leOctets 4 (lget x.cnt i 0))

/-- The sector of the context table that holds entry k: two entries. -/
def ctxSector (s : State) (k : Nat) : List Byte :=
  let e (n : Nat) : List Byte := match ctxOf s n with
    | some x => ctxOctets n x
    | none => List.replicate 256 0
  e (2 * (k / 2)) ++ e (2 * (k / 2) + 1)

/-- A modified entry is written back to HBM (R143). -/
def writeBackCtx (k : Nat) (s : State) : State :=
  let s := if s.sealer.hbmOk then sealWrite 1 (k / 2) (ctxSector s k) s else s
  { s with skim := { s.skim with dirty := s.skim.dirty.filter (· != k) } }

end Sys2Proof.Machine
end

