-- ==== Sys2Proof/Machine/Cache.lean ====
section
/-! DEFINITION. Cache.lean: the context cache (R140, R143) and how a context entry is taken and given up (R131). -/
namespace Sys2Proof.Machine

/-- A kind of SV subscription: Layer 2 or routed (R131); and of GOOSE. -/
def isSvKind (k : Nat) : Bool := k == 1 || k == 3
def isGooseKind (k : Nat) : Bool := k == 2 || k == 4

/-- Always resident (R140). -/
def alwaysResident (x : Ctx) : Bool := isSvKind x.kind || x.kind == 5 || x.kind == 6 || (isGooseKind x.kind && x.pin)

/-- Entries left for the contexts that are not always resident (R140). -/
def cacheRoom (s : State) : Nat := 8192 - (s.skim.ctx.filter (fun e => alwaysResident e.2)).length

/-- The cache holds what it has room for: the least recently used contexts leave it, and the changes of those are written
back (R140, R143). -/
def trimCache (s : State) : State :=
  let out := s.skim.resident.drop (cacheRoom s)
  let s := { s with skim := { s.skim with resident := s.skim.resident.take (cacheRoom s) } }
  out.foldl (fun s k => if s.skim.dirty.contains k then writeBackCtx k s else s) s

/-- A context that is not always resident becomes the most recently used (R140). -/
def touchCtx (k : Nat) (s : State) : State :=
  trimCache { s with skim := { s.skim with resident := k :: s.skim.resident.filter (· != k) } }

/-- A context entry is allocated: written in the cache, where it is the most recently used or always resident (R131, R140). -/
def newCtx (k : Nat) (x : Ctx) (s : State) : State :=
  let s := dirtyCtx k { s with skim := { s.skim with ctx := mset s.skim.ctx k x, gens := mset s.skim.gens k x.gen } }
  if alwaysResident x then trimCache s else touchCtx k s

/-- GEN of the next allocation of an entry (R131). -/
def nextGen (s : State) (k : Nat) : Nat := (mgetD s.skim.gens k 0 + 1) % 65536

/-- A context entry becomes FREE: index, cache and log forget it. -/
def freeCtx (k : Nat) (s : State) : State :=
  let drop (l : List Nat) : List Nat := l.filter (· != k)
  { s with skim := { s.skim with
    ctx := mdel s.skim.ctx k, resident := drop s.skim.resident, dirty := drop s.skim.dirty, kfLogged := drop s.skim.kfLogged } }

end Sys2Proof.Machine
end

