-- ==== Sys2Proof/Machine/Journal.lean ====
section
/-! DEFINITION. Journal.lean: how an admitted command runs and ends (R31 to R42, R363 to R377): which opcodes are
configuration, which a mode accepts, when a command may run, and the journalling of its outcome. -/
namespace Sys2Proof.Machine

/-- Opcodes whose Cfg column holds Y (R373, R284). -/
def cfgOps : List Nat :=
  [0x0010, 0x0011, 0x0020, 0x0021, 0x0030, 0x0040, 0x0041, 0x1001, 0x1002, 0x1003, 0x1004, 0x1005, 0x2001, 0x2002,
   0x2003, 0x2004, 0x2005, 0x3001, 0x3002, 0x3003, 0x3004, 0x3005, 0x4001, 0x4002, 0x4004, 0x8003, 0x9001, 0xA001,
   0xA003, 0xA010, 0xA013, 0xB001, 0xB003, 0xB004, 0xC002, 0xD001, 0xD002, 0xD004, 0xD005, 0xD007, 0xD008, 0xD00A,
   0xE001, 0xE003]

/-- The command is configuration (R25, R373). -/
def isCfg (c : Cmd) : Bool := cfgOps.contains (Cmd.opc c)

/-- Queue commands of R372. -/
def queueOps : List Nat := [0x0010, 0x0011, 0x0012, 0x0F01]

/-- Opcodes that each mode accepts (R372); none means every command that is not confined to another mode. -/
def modeOps : Nat → Option (List Nat)
  | 0 => some ([0x0001, 0xF001, 0xF002, 0xF003, 0x8003, 0x9003, 0xD009, 0xC001] ++ queueOps)
  | 1 => some ([0x0001, 0x9003, 0xD003, 0xD007, 0xD009, 0xC001] ++ queueOps)
  | 3 => some ([0x0001, 0xB001, 0xB002, 0xB003, 0xB004, 0x1006, 0x4005, 0x9002, 0x9003, 0xE002, 0xD003, 0xD001, 0xD009,
                0xC001, 0xF001] ++ queueOps)
  | 5 => some [0x0001, 0xC001, 0x0010]
  | 6 => some ([0x0001, 0x9003, 0xD003, 0xD008, 0xD009, 0xC001] ++ queueOps)
  | 7 => some ([0x0001, 0xD009, 0xC001] ++ queueOps)
  | _ => none

/-- Modes to which an opcode is confined by its entry in R373; empty: none. -/
def confined : Nat → List Nat
  | 0x0021 => [4]
  | 0x0040 => [4]
  | 0x3007 => [4]
  | 0x8003 => [0]
  | 0xA013 => [4]
  | 0xB004 => [4]
  | 0xC003 => [4]
  | 0xD002 => [4]
  | 0xD004 => [4]
  | 0xD005 => [4]
  | 0xD006 => [4]
  | 0xD007 => [1]
  | 0xD008 => [6]
  | 0xF003 => [0, 4]
  | _ => []

/-- Mode m accepts an opcode from queue pair qp of function fn (R372; svc.fwload by its type, R603). -/
def modeAccepts (m : Nat) (opc fn qp : Nat) (fwType : Nat) : Bool :=
  (match modeOps m with
   | some l => l.contains opc
   | none => true) &&
  (confined opc == [] || (confined opc).contains m) &&
  (m != 5 || (fn == 0 && qp == 0)) && ((m != 6 && m != 7) || fn == 0) &&
  (opc != 0xD00A || m == 4 || (m == 2 && decide (fwType < 8)))

/-- The current mode accepts the command; HALTED takes sys.qcreate only as the bootstrap of queue pair 0 of PF0 (R372). -/
def modeOk (s : State) (c : Cmd) : Bool :=
  !s.sys.startup && !s.sys.held && modeAccepts (mode s) (Cmd.opc c) c.fn c.qp (bits (cw c 8) 7 0) &&
  (mode s != 5 || Cmd.opc c != 0x0010 || (cCtx c == 0 && (queueOf s 0 0).st == 0))

/-- FENCE: every earlier-admitted command of the pair has a journalled outcome (R360, R370). -/
def fenceOk (s : State) (c : Cmd) : Bool :=
  !cFence c || s.journal.all (fun e => decide (e.1 ≥ c.tok) || e.2.cmd.fn != c.fn || e.2.cmd.qp != c.qp || e.2.outcome.isSome)

/-- The command is admitted with the standby's acknowledgement, has not started, is not marked, not handed to another
device and not waiting for the end of a closing sequence, and its mode accepts it (R31, R37, R372, R376). -/
def runnable (s : State) (c : Cmd) : Bool :=
  match jent s c.tok with
  | none => false
  | some j =>
    decide (j.cmd = c) && j.admAck && !j.started && j.outcome.isNone && decide (j.mark = .none) && !j.remote &&
    fenceOk s c && !s.deferred.contains c.tok && modeOk s c

/-- What a command does: the state after it, its status, result word and output. -/
structure Eff where
  st : State
  status : Nat := 0
  result : W32 := 0
  out : List Byte := []

/-- The outcome of a command executed here for the gateway is returned with its result word and output (R378, log 53). -/
def answerGateway (tok : Nat) (o : Outcome) (out : List Byte) (s : State) : State :=
  if s.span.foreign.any (fun x => x.1.tok == tok && x.2.isNone) then
    let fs := s.span.foreign.map (fun x => if x.1.tok = tok then (x.1, some o) else x)
    sendPacket 0 2 tok (leOctets 4 o.status ++ w32le o.result ++ leOctets 8 o.epoch ++ out)
      (updJ tok (fun j => { j with ledgered := true }) { s with span := { s.span with foreign := fs } })
  else s

/-- Journals the outcome of a token, with the epoch and number of the device that executed it (R30, R363), and mirrors it
(R33); its output is written before its completion entry (R362). -/
def settleAs (epoch dev tok status : Nat) (result : W32) (out : List Byte) (s : State) : State :=
  let o : Outcome := { status := status, result := result, epoch := epoch, dev := dev }
  let s1 := updJ tok (fun j => { j with
    started := true, staged := some { status := status, result := result, out := out, wrote := 0 }
    outcome := some o, outAck := !mirrors s }) s
  answerGateway tok o out (if mirrors s then emit (.pair (.mirror (.outcome tok status result epoch))) s1 else s1)

/-- The outcome of a command that this device executed (R33). -/
def settle (tok status : Nat) (result : W32) (out : List Byte) (s : State) : State :=
  settleAs s.sys.epoch (devnum s) tok status result out s

/-- Runs a command whose outcome follows at once: the first failing check's status, or its effect. -/
def runPlain (check : Cmd → State → Option Nat) (eff : Cmd → State → Eff) (c : Cmd) (s : State) : State :=
  if runnable s c then
    match check c s with
    | some st => settle c.tok st 0 [] s
    | none => let e := eff c s; settle c.tok e.status e.result e.out e.st
  else s

/-- No earlier-admitted configuration command still has to take effect (R370); deferred ones keep their order. -/
def configTurn (s : State) (c : Cmd) : Bool :=
  s.journal.all (fun e => decide (e.1 ≥ c.tok) || e.2.outcome.isSome || e.2.remote || !isCfg e.2.cmd ||
    s.deferred.contains e.1)

/-- Applies a configuration command: a check that fails, or an effect that ends with another status than OK, changes no
configuration (R369; such an effect keeps to logs and counters); otherwise the change is mirrored (R568) and the state
epoch grows by exactly one (R26, R28); its outcome is journalled and mirrored in the same step (R33, log 99). -/
def applyConfig (check : Cmd → State → Option Nat) (eff : Cmd → State → Eff) (c : Cmd) (s : State) : State :=
  match check c s with
  | some st => settle c.tok st 0 [] s
  | none =>
    let e := eff c s
    if e.status = 0 then settle c.tok 0 e.result e.out (bumpEpoch (mirrorItem (.config c (s.sys.epoch + 1)) e.st)) else settle c.tok e.status e.result e.out e.st

/-- Opcodes whose change no sheet shows: queues, host settings, publications, RNG patterns, records, the volume, the log. -/
def sheetless : List Nat := [0x0010, 0x0011, 0x0040, 0x0041, 0x4001, 0x4002, 0x4004, 0x8003, 0xA001, 0xA003, 0xA010, 0xA013, 0xC002]

/-- A change affects a closing sequence: what makes the sheet's rows, its ring or its key is what the command names (R27,
R176, log 94). -/
def affects (c : Cmd) (s : State) (x : Closing) : Bool :=
  let p := (cw c 8).toNat
  match Cmd.opc c with
  | 0x1001 => x.view.any (fun id => (rowHome s id).any (fun h => h.1 == cCtx c))
  | 0x1002 => x.view.any (fun id => (rowHome s id).any (fun h => h.1 == cCtx c))
  | 0x1003 => x.view.contains (cCtx c)
  | 0x1004 => x.view.any (fun id => id == cCtx c || decide (id ≥ 0x8000))
  | 0x1005 => x.view.contains (cCtx c)
  | 0x2002 => x.view.any (fun id => rowHome s id == some (cCtx c % 4, bits (cw c 8) 3 0))
  | 0x2003 => x.fn == p
  | 0x2004 => x.fn == (cw c 14).toNat && x.ring == cCtx c
  | 0x2005 => x.fn == (cw c 14).toNat && x.ring == cCtx c
  | 0x3001 => x.view.any (fun id => decide (id ≥ 0x8000) && mget s.trowel.derived (id - 0x8000) == some p)
  | 0x3002 => x.view.any (fun id => decide (id ≥ 0x8000))
  | 0x3003 => x.view.any (fun id => decide (id ≥ 0x8000) && mget s.trowel.derived (id - 0x8000) == some p)
  | 0x3004 => x.view.any (fun id => decide (id ≥ 0x8000) && mget s.trowel.derived (id - 0x8000) == some p)
  | 0x3005 => x.view.any (fun id => decide (id ≥ 0x8000) && mget s.trowel.derived (id - 0x8000) == some p)
  | o => !sheetless.contains o

/-- A sheet that waits for the standby's acknowledgement is still in its closing sequence (R176, R573). -/
def heldClosing (h : HeldSheet) : Closing :=
  { (default : Closing) with fn := h.fn, ring := h.ring, slot := h.slot, epoch := h.epoch, view := h.view }

/-- A closing sequence that the change affects is in progress (R176). -/
def closingFor (c : Cmd) (s : State) : Bool :=
  s.hawk.closing.any (affects c s) || (publishes s && s.hawk.held.any (fun h => affects c s (heldClosing h)))

/-- A closing sequence that the change affects is in progress, or an earlier change waits for one (R27, R370). -/
def closingBusy (c : Cmd) (s : State) : Bool := closingFor c s || !s.deferred.isEmpty || !s.pair.mcfg.isEmpty

/-- Runs a configuration command that takes effect by `apply`: in token order, when no closing sequence that it affects is in
progress (R27, R176, R370). -/
def runConfigBy (apply : Cmd → State → State) (c : Cmd) (s : State) : State :=
  if runnable s c && configTurn s c then
    if closingBusy c s then { s with deferred := s.deferred ++ [c.tok] } else apply c s
  else s

/-- Runs a configuration command. -/
def runConfig (check : Cmd → State → Option Nat) (eff : Cmd → State → Eff) (c : Cmd) (s : State) : State :=
  runConfigBy (applyConfig check eff) c s

/-- Runs a command on an engine: its work is staged, and ENGINE_WORK_DONE journals it (R33). -/
def runWork (check : Cmd → State → Option Nat) (eff : Cmd → State → Eff) (c : Cmd) (s : State) : State :=
  if runnable s c then
    match check c s with
    | some st => settle c.tok st 0 [] s
    | none =>
      let e := eff c s
      updJ c.tok (fun j => { j with
        started := true, staged := some { status := e.status, result := e.result, out := e.out, wrote := 0 } }) e.st
  else s

/-- Marks a command as started: its outcome comes with a later event. -/
def startCmd (tok : Nat) (s : State) : State := updJ tok (fun j => { j with started := true }) s

/-- What R366 checks of an opcode before admission: who may issue it, the used bits of word 2 and of words 8 to 14 (and
15 where it is a parameter), and whether it takes input and output. -/
structure OpRow where
  opc : Nat
  /-- R373, From: 0 PF0, 1 Own, 2 Owner, 3 Any, 4 PF0 and named functions. -/
  who : Nat
  ctx : Nat
  inp : Bool
  out : Bool
  params : List Nat
  deriving DecidableEq, Repr

/-- An effect that only changes the state. -/
def done (s : State) : Eff := { st := s }

/-- An effect with output, cut to the capacity given. -/
def output (c : Cmd) (out : List Byte) (s : State) : Eff :=
  let o := out.take (cOutLen c)
  { st := s, result := if o.length < cOutLen c then BitVec.ofNat 32 o.length else 0, out := o }

/-- No check fails. -/
def noCheck (_ : Cmd) (_ : State) : Option Nat := none

/-- The first failing check of a list: condition and status. -/
def firstFail : List (Bool × Nat) → Option Nat
  | [] => none
  | (b, st) :: l => if b then some st else firstFail l

/-- The epoch that a completion or ledger entry carries (R28, R30, R367). -/
def outEpoch (s : State) (j : JEntry) (o : Outcome) : Nat :=
  if j.remote || (isCfg j.cmd && o.status == 0) then o.epoch else s.sys.epoch

/-- The ledger entry of a journal entry (R345). -/
def ledgerEntry (s : State) (tok : Nat) (j : JEntry) (o : Outcome) : LEntry :=
  { tag := cTag j.cmd, status := o.status, queue := j.cmd.qp, tok := tok, epoch := outEpoch s j o, result := o.result
    opc := Cmd.opc j.cmd, resetNo := (fnOf s j.cmd.fn).resetNo }

/-- Octets of a ledger entry (R345). -/
def ledgerOctets (e : LEntry) : List Byte :=
  leOctets 4 e.tag.toNat ++ leOctets 2 e.status ++ leOctets 2 e.queue ++ leOctets 8 e.tok ++ leOctets 8 e.epoch ++
  leOctets 4 e.result.toNat ++ leOctets 2 e.opc ++ leOctets 2 e.resetNo

/-- Records every settled, unwritten command of function f in its ledger, in token order, and sets UNREAD when it
records one (R38, R345, R347). -/
def ledgerFn (f : Nat) (s : State) : State :=
  let es := s.journal.filter (fun e => e.2.cmd.fn == f && !e.2.written && !e.2.ledgered && e.2.outcome.isSome)
  let ls := es.map (fun e => ledgerEntry s e.1 e.2 (e.2.outcome.getD default))
  let s := { s with journal := s.journal.map (fun e =>
    if e.2.cmd.fn == f && !e.2.written && !e.2.ledgered && e.2.outcome.isSome then (e.1, { e.2 with ledgered := true }) else e) }
  updFn f (fun x => { x with ledger := x.ledger ++ ls, unread := x.unread || !ls.isEmpty }) s

/-- Octets of a completion entry (R363). -/
def complOctets (tag : W32) (status head tok epoch : Nat) (result : W32) (phase : Bool) (dev : Nat) : List Byte :=
  leOctets 4 tag.toNat ++ leOctets 4 (status + 65536 * (head % 4096)) ++ leOctets 8 tok ++ leOctets 8 epoch ++
  leOctets 4 result.toNat ++ leOctets 4 (b2n phase + 2 * (dev % 64))

end Sys2Proof.Machine
end

