-- ==== Sys2Proof/Machine/Time.lean ====
section
/-! DEFINITION. Time.lean: the time unit (R52 to R72): PTP instances and qualification, source selection, slewing,
holdover, PPS, sys.timecfg and sys.timestep, and the tick of one nanosecond that an empty queue takes (log 4). -/
namespace Sys2Proof.Machine

/-- A source's TAI time now: its time at the last Sync plus the elapsed time since (R54, R63). -/
def srcNow (s : State) (b : Nat) : Nat := (bpOf s b).srcTime + (s.time.clock - (bpOf s b).srcAt)

/-- Offset of a source from TAI time. -/
def srcOffset (s : State) (b : Nat) : Int := (srcNow s b : Int) - (s.time.tai : Int)

/-- A filtered offset in whole ns (kept in 1/256 ns, log 13). -/
def filtNs (b : BpTime) : Int := b.filt.getD 0 / 256

/-- Starts slewing towards source b (R61, R62). -/
def slewTo (b : Nat) (s : State) : State :=
  let o := srcOffset s b
  { s with time := { s.time with slew := o, selBad := decide (o.natAbs > s.time.stepLim) } }

/-- Bus pair b is the source from now on; TIM_OFFSET shows its filtered offset (R58). -/
def selectSrc (b : Nat) (s : State) : State :=
  { s with time := { s.time with src := b, hasSrc := true, offset := filtNs (bpOf s b) } }

/-- A source change (R59, R65, R86). -/
def sourceChange (b : Nat) (s : State) : State :=
  let s := slewTo b (selectSrc b { s with time := { s.time with srcChanges := sat32 (s.time.srcChanges + 1) } })
  event 4 0 s

/-- HOLDOVER (R66, R67). -/
def enterHoldover (s : State) : State :=
  event 4 1 { s with time := { s.time with
    tstate := 2, hasSrc := false, errBase := (filtNs (bpOf s s.time.src)).natAbs, hoAt := s.time.clock
    horef := if s.time.osc then 1 else 2 } }

/-- LOCKED from HOLDOVER or FREERUN (R70): the source may be another one. -/
def relock (b : Nat) (s : State) : State :=
  let s := if b = s.time.src then slewTo b s else sourceChange b s
  event 4 3 (selectSrc b { s with time := { s.time with tstate := 1, horef := 0 } })

/-- The highest qualified bus pair of the priority list (R59). -/
def bestSource (s : State) : Option Nat := s.time.prio.find? (fun b => (bpOf s b).qualified)

/-- The conditions of R62 that hold now: a newly selected source whose offset still exceeds the step limit, two
qualified bus pairs apart, a PPS edge away from a second. -/
def disagreeNow (s : State) : Bool :=
  (s.time.selBad && decide (s.time.slew.natAbs > s.time.stepLim)) ||
  (List.range 4).any (fun a => (List.range 4).any (fun b =>
    (bpOf s a).qualified && (bpOf s b).qualified && decide (((srcNow s a : Int) - srcNow s b).natAbs > s.time.stepLim))) ||
  (s.time.ppsBad && decide (s.time.tstate ≠ 0))

/-- Sets DISAGREE when a condition holds (R62). -/
def noteDisagree (s : State) : State :=
  if disagreeNow s then
    let s := { s with time := { s.time with calm := 0 } }
    if s.time.disagree then s else event 4 4 { s with time := { s.time with disagree := true } }
  else s

/-- Source selection (R54, R59, R66, R70): a qualified source is kept; only the revert hold replaces it (R60). With no
listed bus pair qualified none can be selected, and LOCKED goes to HOLDOVER even while an unlisted one is qualified (DESIGN
CHOICE, log 81). -/
def choose (s : State) : State :=
  if s.time.tstate = 1 ∧ s.time.hasSrc ∧ (bpOf s s.time.src).qualified then s
  else
    match bestSource s with
    | some b =>
      if s.time.tstate = 0 then selectSrc b { s with time := { s.time with tai := srcNow s b, tstate := 1 } }
      else if s.time.tstate = 1 then sourceChange b s
      else relock b s
    | none => if s.time.tstate = 1 then enterHoldover s else s

/-- Source selection after a change of qualification, with DISAGREE as it then stands (R62). -/
def reselect (s : State) : State := noteDisagree (choose s)

/-- Disqualifies bus pair b at once (R58). -/
def disqualify (b : Nat) (s : State) : State :=
  if (bpOf s b).qualified then reselect (updBp b (fun x => { x with qualified := false, good := 0 }) s)
  else updBp b (fun x => { x with good := 0 }) s

/-- Bus pair b leaves SLAVE for a state in which it has no master: the holdover estimate starts from its last filtered
offset (R58, R67). -/
def leaveSlave (b st : Nat) (s : State) : State :=
  updBp b (fun x => { x with ptp := st, filt := none, syncA := none, syncB := none }) (disqualify b s)

/-- State of an instance none of whose LANs is up: DISABLED with both ports DISABLED, else FAULTY (R87, R95). -/
def deadState (s : State) (b : Nat) : Nat := if (portOf s b false).st = 0 ∧ (portOf s b true).st = 0 then 5 else 4

/-- The instance of bus pair b has no LAN up: both its PTP ports have stopped (R58, R95). -/
def bpDead (b : Nat) (s : State) : State :=
  leaveSlave b (deadState s b) (updBp b (fun x => { x with annA := none, annB := none }) s)

/-- One Sync interval of the selected source, or one second without one, with every condition false (R62). -/
def calmInterval (s : State) : State :=
  if disagreeNow s then noteDisagree s
  else
    let n := s.time.calm + 1
    { s with time := { s.time with calm := min 16 n, disagree := s.time.disagree && decide (n < 16)
                                   selBad := s.time.selBad && decide (n < 16) } }

/-- The better of two grandmasters: the attributes compared in order, the lower value wins (IEEE 1588-2019; PRESUMED, log
82). -/
def dsKey (d : PtpDs) : List Nat :=
  [d.priority1, d.clockClass, d.accuracy, d.variance, d.priority2, d.gm, d.stepsRemoved]
def dsBetter : List Nat → List Nat → Bool
  | a :: as, b :: bs => decide (a < b) || (a == b && dsBetter as bs)
  | _, _ => false

/-- The LAN from which Sync is taken: the one whose grandmaster is the better, LAN A when both see one grandmaster (R57);
none when neither sees one. -/
def bestLan (x : BpTime) : Option (Bool × PtpDs) :=
  match x.annA, x.annB with
  | none, none => none
  | some a, none => some (false, a)
  | none, some b => some (true, b)
  | some a, some b => if a.gm ≠ b.gm ∧ dsBetter (dsKey b) (dsKey a) then some (true, b) else some (false, a)

/-- The instance of bus pair b takes its master from what its LANs see (R57, R58): a move between LANs that keeps the
grandmaster keeps the filter, the count and the qualification; another grandmaster or a clockClass other than 6 and 7
disqualifies at once; with none it listens. A new master leaves LISTENING for UNCALIBRATED (log 82). -/
def takeMaster (b : Nat) (s : State) : State :=
  let x := bpOf s b
  if x.ptp = 0 ∨ x.ptp = 4 ∨ x.ptp = 5 then s
  else match bestLan x with
    | none => leaveSlave b 1 s
    | some (l, d) =>
      let s := if x.gm ≠ d.gm ∨ (d.clockClass ≠ 6 ∧ d.clockClass ≠ 7) then disqualify b s else s
      updBp b (fun y => { y with
        lanB := l, gm := d.gm, clockClass := d.clockClass, ptp := if x.ptp = 3 then 3 else 2
        filt := if x.gm ≠ d.gm then none else y.filt }) s

/-- An Announce on a LAN of bus pair b (R53, R57, R58). TIM_UTC shows the last one received on the selected LAN of any bus
pair (DESIGN CHOICE, log 83). -/
def ptpAnnounce (b : Nat) (lanB : Bool) (d : PtpDs) (utc : Int) (utcOk : Bool) (s : State) : State :=
  let s := takeMaster b (updBp b (fun x =>
    if lanB then { x with annB := some d, annToB := false } else { x with annA := some d, annToA := false }) s)
  if (bpOf s b).lanB = lanB then { s with time := { s.time with utc := utc, utcValid := utcOk } } else s

/-- One Sync interval of bus pair b with its measured offset (R57, R58, R62): filter, count of 16, qualification. -/
def ptpSync (b : Nat) (lanB : Bool) (o : Int) (t : Nat) (s : State) : State :=
  let x := bpOf s b
  if (x.ptp ≠ 2 ∧ x.ptp ≠ 3) ∨ x.lanB ≠ lanB then s
  else
    let f := match x.filt with
      | none => o * 256
      | some f => f + (o * 256 - f) / 8
    let ok := decide ((f / 256).natAbs ≤ s.time.qualLim) && (x.clockClass == 6 || x.clockClass == 7) && bpUp s b
    let good := if ok then min 16 (x.good + 1) else 0
    let s := updBp b (fun y => { y with ptp := 3, filt := some f, good := good, srcTime := t, srcAt := s.time.clock }) s
    let s :=
      if !ok then disqualify b s
      else if good = 16 ∧ ¬x.qualified then reselect (updBp b (fun y => { y with qualified := true, since := s.time.clock }) s)
      else s
    let sel := s.time.hasSrc && s.time.src == b && s.time.tstate == 1
    let s := if sel then { s with time := { s.time with offset := f / 256, fadj := (Config.freeNat s.freeCtr % 200001 : Int) - 100000 }, freeCtr := s.freeCtr + 1 } else s
    if sel then calmInterval (noteDisagree s) else noteDisagree s

/-- The two-step Sync of a LAN that waits for its Follow_Up. -/
def syncOpen (x : BpTime) (lanB : Bool) : Option Nat := if lanB then x.syncB else x.syncA
def setSyncOpen (b : Nat) (lanB : Bool) (o : Option Nat) (s : State) : State :=
  updBp b (fun x => if lanB then { x with syncB := o } else { x with syncA := o }) s

/-- A PTP message other than a Pdelay request received on a port (R56, R57, R86): messages of another domain are ignored,
and a pair of messages belongs together when their sequenceIds are equal. -/
def ptpReceive (port : Nat) (m : PtpMsg) (s : State) : State :=
  let b := port / 2
  let lanB := port % 2 == 1
  let dom := lget s.time.domains b 0
  match m with
  | .announce d ds utc ok => if d = dom then ptpAnnounce b lanB ds utc ok s else s
  | .sync d q two _ o t =>
    if d ≠ dom then s
    else if two then setSyncOpen b lanB (some q) s
    else ptpSync b lanB o t (setSyncOpen b lanB none s)
  | .followUp d q _ o t =>
    if d = dom ∧ syncOpen (bpOf s b) lanB = some q then ptpSync b lanB o t (setSyncOpen b lanB none s) else s
  | .pdelayReq .. => s
  | .pdelayResp d q delay =>
    if d = dom ∧ (if lanB then (bpOf s b).pdOpenB else (bpOf s b).pdOpenA) = some q then
      updBp b (fun x => if lanB then { x with mpdB := delay, pdOpenB := none } else { x with mpdA := delay, pdOpenA := none }) s
    else s

/-- ANNOUNCE_TIMEOUT (R57, R58): the instance moves to the other LAN when that sees the same grandmaster, and keeps its
qualification; with another one it is disqualified, and with none it also leaves SLAVE. -/
def execAnnounceTimeout (b : Nat) (lanB : Bool) (s : State) : Host.Outcome State Fault Refusal :=
  .next <|
    takeMaster b (updBp b (fun x =>
      if lanB then { x with annB := none, annToB := true } else { x with annA := none, annToA := true }) s)

/-- Drives PPS_OUT low (R72). -/
def ppsLow (s : State) : State :=
  if s.time.ppsOut then emit (.pps false) { s with time := { s.time with ppsOut := false } } else s

/-- FREERUN_ENTRY (R69, R72): in HOLDOVER, when the error estimate exceeds the holdover limit; PPS_OUT is held low from
then on. -/
def execFreerunEntry (s : State) : Host.Outcome State Fault Refusal :=
  .next <|
    if s.time.tstate = 2 ∧ errEst s > s.time.holdLim then ppsLow (event 4 2 { s with time := { s.time with tstate := 3 } })
    else s

/-- REVERT_HOLD_EXPIRY (R60): a bus pair of higher priority than the source has stayed qualified for the hold time. The
highest qualified one alone is considered: while it has been qualified for less, none is taken (DESIGN CHOICE, log 84). -/
def execRevertHoldExpiry (b : Nat) (s : State) : Host.Outcome State Fault Refusal :=
  .next <|
    if s.time.tstate = 1 ∧ s.time.hasSrc ∧ s.time.revert ≠ 0 ∧ bestSource s = some b ∧ b ≠ s.time.src ∧
       s.time.clock - (bpOf s b).since ≥ s.time.revert * 1000000000
    then noteDisagree (sourceChange b s) else s

/-- Offset of a TAI time from its nearest second boundary (R72). -/
def ppsOffset (tai : Nat) : Int :=
  let r := tai % 1000000000
  if r ≤ 500000000 then r else (r : Int) - 1000000000

/-- PPS_IN_EDGE (R62, R72): the edge marks presence; outside UNSET it is timestamped. -/
def execPpsInEdge (s : State) : Host.Outcome State Fault Refusal :=
  .next <|
    let s := { s with time := { s.time with ppsOk := true, ppsAt := s.time.clock } }
    if s.time.tstate = 0 then s
    else
      let o := ppsOffset s.time.tai
      noteDisagree { s with time := { s.time with ppsOff := o, ppsBad := decide (o.natAbs > s.time.stepLim) } }

/-- PPS_IN_TIMEOUT (R72): no edge for 2 s. -/
def execPpsInTimeout (s : State) : Host.Outcome State Fault Refusal :=
  .next <|
    if s.time.ppsOk && decide (s.time.clock - s.time.ppsAt ≥ 2000000000) then
      { s with time := { s.time with ppsOk := false } } else s

/-- A TAI time within 20 ns of a second boundary (R72). -/
def atSecond (tai : Nat) : Bool := decide ((tai + 20) % 1000000000 ≤ 40)

/-- PPS_OUT_PULSE (R72): in LOCKED and HOLDOVER the output rises at a TAI second boundary, within 20 ns, and falls 10 ms
later; in UNSET and FREERUN it is held low. -/
def execPpsOutPulse (rise : Bool) (s : State) : Host.Outcome State Fault Refusal :=
  .next <|
    if s.time.tstate = 1 ∨ s.time.tstate = 2 then
      if rise then
        if atSecond s.time.tai ∧ ¬s.time.ppsOut then
          emit (.pps true) { s with time := { s.time with
            ppsOut := true, ppsSec := some ((s.time.tai + 20) / 1000000000), ppsRise := s.time.clock } }
        else s
      else if s.time.clock - s.time.ppsRise ≥ 10000000 then ppsLow s
      else s
    else ppsLow s

/-- OSC10M_IN counts as in range: within 20 ppm of 10 MHz, as measured against locked time; outside LOCKED nothing can be
measured, and a present oscillator keeps its standing (R66; DEDUCED, log 85). -/
def oscOk (s : State) (err : Option Int) : Bool :=
  match err with
  | none => false
  | some e => if s.time.tstate = 1 then decide (e.natAbs ≤ 20000) else s.time.osc

/-- OSC10M_CHANGE (R66, R67, R69): in HOLDOVER the reference follows, and the estimate goes on from its value at the new
drift; FREERUN keeps its reference. -/
def execOsc10mChange (err : Option Int) (s : State) : Host.Outcome State Fault Refusal :=
  .next <|
    let e := errEst s
    let ok := oscOk s err
    let s := { s with time := { s.time with osc := ok } }
    if s.time.tstate = 2 then
      { s with time := { s.time with errBase := e, hoAt := s.time.clock, horef := if ok then 1 else 2 } }
    else s

/-- sys.timecfg: octets of the input (log 14): count, four bus pairs, three reserved, revert hold in s, qualification,
step and holdover limits in ns, drift in 0.1 ns/s, four PTP domains, UTC offset, six reserved. -/
def sysTimecfgRow : OpRow := { opc := 0x0020, who := 0, ctx := 0, inp := true, out := false, params := [] }

/-- R669: fields outside their ranges are refused before admission. -/
def sysTimecfgPre (c : Cmd) : Option Nat :=
  let n := field c.input 0 1
  let l := (List.range n).map (fun i => field c.input (1 + i) 1)
  firstFail
    [(cLen c != 40, 0x0106),
     (field c.input 5 3 != 0 || field c.input 34 6 != 0 || (List.range 4).any (fun i => decide (i ≥ n) && field c.input (1 + i) 1 != 0), 0x0105),
     (n == 0 || decide (n > 4) || l.any (fun b => decide (b > 3)) || !l.Nodup, 0x0106),
     (decide (field c.input 8 4 > 3600), 0x0106),
     (decide (field c.input 12 4 < 100 ∨ field c.input 12 4 > 100000), 0x0106),
     (decide (field c.input 16 4 < 1000 ∨ field c.input 16 4 > 1000000000), 0x0106),
     (decide (field c.input 20 4 < 1000 ∨ field c.input 20 4 > 1000000000), 0x0106),
     (decide (field c.input 24 4 < 1 ∨ field c.input 24 4 > 10000), 0x0106)]

/-- The settings of sys.timecfg (R56, R58, R59, R60, R62, R67, R69); a source that the list no longer names is left. -/
def sysTimecfgEff (c : Cmd) (s : State) : Eff :=
  let n := field c.input 0 1
  let e := errEst s
  done <| reselect { s with time := { s.time with
    prio := (List.range n).map (fun i => field c.input (1 + i) 1)
    revert := field c.input 8 4, qualLim := field c.input 12 4, stepLim := field c.input 16 4
    holdLim := field c.input 20 4, drift := field c.input 24 4
    domains := (List.range 4).map (fun i => field c.input (28 + i) 1)
    utcCfg := sInt 2 (field c.input 32 2), errBase := e, hoAt := s.time.clock
    hasSrc := s.time.hasSrc && ((List.range n).map (fun i => field c.input (1 + i) 1)).contains s.time.src } }

/-- SYS_TIMECFG (R669). -/
def execSysTimecfg (c : Cmd) (s : State) : Host.Outcome State Fault Refusal :=
  .next (runConfig noCheck sysTimecfgEff c s)

/-- sys.timestep (R63). -/
def sysTimestepRow : OpRow := { opc := 0x0021, who := 0, ctx := 0, inp := false, out := false, params := [] }

/-- R63: no bus pair is qualified. -/
def sysTimestepCheck (_ : Cmd) (s : State) : Option Nat :=
  if s.time.hasSrc && (bpOf s s.time.src).qualified then none else some 0x0702

/-- The step to the selected source's time (R63); closing instants of slots whose start event has fired keep their
elapsed time (R668). -/
def sysTimestepEff (_ : Cmd) (s : State) : Eff :=
  let t := srcNow s s.time.src
  let d : Int := (t : Int) - (s.time.tai : Int)
  let move (x : Nat × Nat) : Nat × Nat := (x.1, if x.2 = 0 then 0 else ((x.2 : Int) + d).toNat)
  done { s with
    time := { s.time with
      tai := t, slew := 0, selBad := false
      bps := s.time.bps.map (fun b => { b with moved := b.moved ++ (b.fired.map (fun n => (n, d))).toList }) }
    hawk := { s.hawk with groups := s.hawk.groups.map (fun g => { g with closed := g.closed.map move }) } }

/-- SYS_TIMESTEP (R63). -/
def execSysTimestep (c : Cmd) (s : State) : Host.Outcome State Fault Refusal :=
  .next (runConfig sysTimestepCheck sysTimestepEff c s)

/-- One nanosecond passes (log 4): time that is not UNSET advances, and slewing moves it by 100 ppm, 1 ns in 10,000
(R52, R61); while no bus pair is selected each second counts as a Sync interval of R62. -/
def tick (s : State) : State :=
  let t := s.time
  let adj : Int := if t.tstate = 1 ∧ t.slew ≠ 0 ∧ t.clock % 10000 = 0 then (if t.slew > 0 then 1 else -1) else 0
  let s : State := { s with time := { t with
      clock := t.clock + 1
      tai := if t.tstate = 0 then t.tai else ((t.tai : Int) + 1 + adj).toNat
      slew := t.slew - adj } }
  if (t.clock + 1) % 1000000000 = 0 ∧ ¬(t.tstate = 1 ∧ t.hasSrc) then calmInterval s else s

end Sys2Proof.Machine
end

