-- ==== Sys2Proof/Machine/Wire.lean ====
section
/-! DEFINITION. Wire.lean: octets on the wire (R92, R100, R102, R108, R113, R146, R287, R288, R301, R304): frames from the
destination address to the end of their payload, tags, and the sizes that R92 and R289 count. What the spec takes from
another standard is encoded as that standard has it (PRESUMED, log 86). -/
namespace Sys2Proof.Machine

/-! Octets in general. -/

/-- n as one octet. -/
def oct (n : Nat) : Byte := BitVec.ofNat 8 n

/-- A two's-complement number without the leading octets that say nothing (BER minimal length, R288). -/
def trimInt : List Byte → List Byte
  | a :: b :: l => if (a = 0 ∧ b.msb = false) ∨ (a = 0xFF ∧ b.msb = true) then trimInt (b :: l) else a :: b :: l
  | l => l

/-- INTEGER contents of an unsigned number and of a signed word, at minimal length. -/
def berUint (n : Nat) : List Byte := trimInt (beOctets 9 n)
def berInt (w : W32) : List Byte := trimInt (beOctets 4 w.toNat)

/-- A BER length. -/
def berLen (n : Nat) : List Byte :=
  if n < 128 then [oct n] else if n < 256 then [0x81, oct n] else 0x82 :: beOctets 2 n

/-- Tag, length and contents. -/
def tlv (tag : Byte) (v : List Byte) : List Byte := tag :: (berLen v.length ++ v)

/-- A BIT STRING of n bits whose first bit is bit 0 of the word: unused bits, then octets with the first bit highest. -/
def bitString (n : Nat) (w : W32) : List Byte :=
  let octs := (n + 7) / 8
  oct (8 * octs - n) :: (List.range octs).map (fun i =>
    oct (((List.range 8).map (fun j => if 8 * i + j < n then b2n (bit w (8 * i + j)) * 2 ^ (7 - j) else 0)).sum))

/-- One's-complement sum of 16-bit words, and the checksum of the Internet protocols. -/
def sum16 : List Byte → Nat
  | [] => 0
  | [a] => a.toNat * 256
  | a :: b :: l => a.toNat * 256 + b.toNat + sum16 l
def fold16 (n : Nat) : Nat :=
  let m := n % 65536 + n / 65536
  m % 65536 + m / 65536
def checksum (l : List Byte) : Nat := 65535 - fold16 (sum16 l)

/-! Members (R288, R675). -/

/-- One member of allData: type and its source octets, highest first; `none` opens or closes a structure. -/
def gooseMember (m : Nat × List Byte) : List Byte :=
  let w : W32 := BitVec.ofNat 32 (beNat m.2)
  match m.1 with
  | 2 => tlv 0x83 [if w = 0 then 0 else 1]
  | 3 => tlv 0x84 [6, oct (w.toNat % 4 * 64)]
  | 4 => tlv 0x84 (bitString 13 w)
  | 5 => tlv 0x85 (berInt w)
  | 6 => tlv 0x86 (berUint w.toNat)
  | 7 => tlv 0x87 (8 :: beOctets 4 w.toNat)
  | _ => tlv 0x91 (fit 8 m.2)

/-- The allData entries in order, structures nested: the open structures, innermost first, with their contents so far. -/
def gooseMembers : List (Nat × List Byte) → List (List Byte) → List Byte
  | [], st => st.headD []
  | m :: l, st =>
    match m.1, st with
    | 0, _ => gooseMembers l ([] :: st)
    | 1, a :: b :: r => gooseMembers l ((b ++ tlv 0xA2 a) :: r)
    | _, a :: r => gooseMembers l ((a ++ gooseMember m) :: r)
    | _, [] => gooseMembers l [gooseMember m]

/-- Entries of the data set at its top level. -/
def topEntries : List (Nat × List Byte) → Nat → Nat
  | [], _ => 0
  | (0, _) :: l, d => b2n (d == 0) + topEntries l (d + 1)
  | (1, _) :: l, d => topEntries l (d - 1)
  | _ :: l, d => b2n (d == 0) + topEntries l d

/-- Members of one ASDU: raw big-endian octets (R288). -/
def svMembers (ms : List (Nat × List Byte)) : List Byte := ms.flatMap (fun m => fit 4 m.2)

/-! PDUs of a template (R287, R301). -/

/-- The APDU of a GOOSE message: stNum, sqNum, t, timeAllowedToLive and the members of a state. -/
def gooseApdu (t : Template) (stNum sqNum : Nat) (time : List Byte) (ttl : Nat) (ms : List (Nat × List Byte)) : List Byte :=
  tlv 0x61 (tlv 0x80 t.name ++ tlv 0x81 (berUint ttl) ++ tlv 0x82 t.ds ++ tlv 0x83 t.goid ++ tlv 0x84 (fit 8 time) ++
    tlv 0x85 (berUint stNum) ++ tlv 0x86 (berUint sqNum) ++ tlv 0x87 [oct (b2n t.sim)] ++ tlv 0x88 (berUint t.confRev.toNat) ++
    tlv 0x89 [oct (b2n t.ndsCom)] ++ tlv 0x8A (berUint (topEntries ms 0)) ++ tlv 0xAB (gooseMembers ms [[]]))

/-- One ASDU: svID, datSet where DSLEN is not 0, smpCnt, confRev, smpSynch, smpRate where the template asks for it, and the
members (R287, R301). -/
def svAsdu (t : Template) (rate : Nat) (a : Nat × Nat × List (Nat × List Byte)) : List Byte :=
  tlv 0x30 (tlv 0x80 t.name ++ (if t.ds.isEmpty then [] else tlv 0x81 t.ds) ++ tlv 0x82 (beOctets 2 a.1) ++
    tlv 0x83 (beOctets 4 t.confRev.toNat) ++ tlv 0x85 [oct a.2.1] ++
    (if t.smpRate then tlv 0x86 (beOctets 2 rate) else []) ++ tlv 0x87 (svMembers a.2.2))

/-- The APDU of an SV frame. -/
def svApdu (t : Template) (rate : Nat) (asdus : List (Nat × Nat × List (Nat × List Byte))) : List Byte :=
  tlv 0x60 (tlv 0x80 (berUint asdus.length) ++ tlv 0xA2 (asdus.flatMap (svAsdu t rate)))

/-! Authentication (R146, R306, R674). -/

/-- Octets of the tag of a MACALG code (R146). -/
def macTagLen (alg : Nat) : Nat := lget [0, 10, 16, 32, 8, 16, 8, 16] alg 0

/-- Tag of an authentication extension (R146): HMAC-SHA256, or AES-GMAC with the nonce that IEC 62351-6 takes from the
covered octets, cut to the algorithm's length. -/
def busTag (alg : Nat) (key octs : List Byte) : List Byte :=
  if alg = 0 then []
  else fit (macTagLen alg) (if alg ≤ 3 then Config.hmac 16 key octs else Config.tag 4 key (Config.busNonce octs) octs [])

/-- The IEC 62351-6 extension less its tag: algorithm, unused time fields, key ID. -/
def extHead (alg keyId : Nat) : List Byte := if alg = 0 then [] else oct alg :: (List.replicate 6 0 ++ beOctets 4 keyId)

/-- Addresses and EtherType. -/
def etherHead (dst src type : Nat) : List Byte := beOctets 6 dst ++ beOctets 6 src ++ beOctets 2 type

/-- An SV or GOOSE frame up to its tag: APPID, length, the simulation bit with the extension's length, and the APDU. -/
def l2Frame (t : Template) (sv : Bool) (src alg keyId : Nat) (apdu : List Byte) : List Byte :=
  etherHead t.dstMac src (if sv then 0x88BA else 0x88B8) ++ beOctets 2 t.appid ++ beOctets 2 (8 + apdu.length) ++
    beOctets 2 (32768 * b2n t.sim + (extHead alg keyId).length + macTagLen alg) ++ [0, 0] ++ apdu ++ extHead alg keyId

/-- An IEC 61850-90-5 session PDU with its one PDU, up to its signature (R304). -/
def sessionPdu (t : Template) (sv : Bool) (spdu alg keyId : Nat) (apdu : List Byte) : List Byte :=
  let payload := [if sv then 0x82 else 0x81, oct (b2n t.sim)] ++ beOctets 2 t.appid ++ beOctets 2 (2 + apdu.length) ++ apdu
  let user := beOctets 4 (payload.length + 2) ++ payload
  [0x01, 0x40, if sv then 0xA2 else 0xA1, 24, 0x80, 22] ++ beOctets 4 (user.length + 14) ++ beOctets 4 spdu ++ [0, 2] ++
    List.replicate 6 0 ++ [0, oct alg] ++ beOctets 4 keyId ++ user

/-- The addresses of an IP block are IPv4 (R287). -/
def isV4 (ip : List Byte) : Bool := decide (octets ip 0 12 = List.replicate 10 0 ++ [0xFF, 0xFF])

/-- A UDP datagram from port 102 to port 102 with its checksum, in one IP packet without options or extension headers, DF
set and identification 0 (R304). -/
def datagram (src dst : List Byte) (dscp hops : Nat) (data : List Byte) : List Byte :=
  let n := 8 + data.length
  let pseudo := if isV4 src then octets src 12 4 ++ octets dst 12 4 ++ [0, 17] ++ beOctets 2 n
    else octets src 0 16 ++ octets dst 0 16 ++ beOctets 4 n ++ [0, 0, 0, 17]
  let udp (ck : Nat) := beOctets 2 102 ++ beOctets 2 102 ++ beOctets 2 n ++ beOctets 2 ck ++ data
  let ck := checksum (pseudo ++ udp 0)
  let body := udp (if ck = 0 then 65535 else ck)
  if isV4 src then
    let head (c : Nat) := [0x45, oct (4 * dscp)] ++ beOctets 2 (20 + n) ++ [0, 0, 0x40, 0, oct hops, 17] ++ beOctets 2 c ++
      octets src 12 4 ++ octets dst 12 4
    head (checksum (head 0)) ++ body
  else beOctets 4 (0x60000000 + 4 * dscp * 1048576) ++ beOctets 2 n ++ [17, oct hops] ++ octets src 0 16 ++ octets dst 0 16 ++ body

/-- A publication's frame without 802.1Q tag, from its APDU and the tag that its octets get (R306, R674): layer 2, or routed
to the next hop under a session PDU with SPDU number. -/
def pubFrame (t : Template) (p : PubPart) (spdu alg keyId : Nat) (apdu : List Byte) (tagOf : List Byte → List Byte) : List Byte :=
  let sv := p.ptype == 1 || p.ptype == 3
  if p.ptype ≥ 2 then
    let s := sessionPdu t sv spdu alg keyId apdu
    let sig := if alg = 0 then [] else 0x85 :: oct (macTagLen alg) :: tagOf s
    etherHead p.nextHop p.srcMac (if isV4 t.srcIp then 0x0800 else 0x86DD) ++ datagram t.srcIp t.dstIp p.dscp p.hops (s ++ sig)
  else
    let f := l2Frame t sv p.srcMac alg keyId apdu
    f ++ (if alg = 0 then [] else tagOf f)

/-! Frames of the device's own. -/

/-- PTP port identity of a LAN of bus pair b: the EUI-64 of the bus pair's address, and port 1 or 2. -/
def portIdentity (mac : Nat) (lanB : Bool) : List Byte :=
  beOctets 3 (mac / 2 ^ 24) ++ [0xFF, 0xFE] ++ beOctets 3 (mac % 2 ^ 24) ++ beOctets 2 (1 + b2n lanB)

/-- Destination of Pdelay messages. -/
def pdelayDst : Nat := 0x0180C200000E

/-- A Pdelay message: message type 2 (request) or 3 (response), domain, sender, sequenceId, and the octets after the
header. -/
def pdelayFrame (mac : Nat) (lanB : Bool) (type domain seq : Nat) (rest : List Byte) : List Byte :=
  etherHead pdelayDst mac 0x88F7 ++ [oct type, 2] ++ beOctets 2 54 ++ [oct domain, 0, 0, 0] ++ List.replicate 12 0 ++
    portIdentity mac lanB ++ beOctets 2 seq ++ [5, 0x7F] ++ rest

/-- A PRP-1 supervision frame with TLV type 20 (R100): its sequence number and the device's address. -/
def supervisionFrame (mac seq : Nat) : List Byte :=
  etherHead 0x01154E000100 mac 0x88FB ++ [0, 1] ++ beOctets 2 seq ++ [20, 6] ++ beOctets 6 mac ++ [0, 0]

/-- The answer to an ARP request or neighbour solicitation for an address (R94). -/
def addressReply (mac asker : Nat) (ip sender : List Byte) : List Byte :=
  if isV4 ip then
    etherHead asker mac 0x0806 ++ [0, 1, 8, 0, 6, 4, 0, 2] ++ beOctets 6 mac ++ octets ip 12 4 ++ beOctets 6 asker ++ octets sender 12 4
  else
    let na (c : Nat) := [136, 0] ++ beOctets 2 c ++ [0x60, 0, 0, 0] ++ octets ip 0 16 ++ [2, 1] ++ beOctets 6 mac
    let pseudo := octets ip 0 16 ++ octets sender 0 16 ++ beOctets 4 32 ++ [0, 0, 0, 58]
    etherHead asker mac 0x86DD ++ [0x60, 0, 0, 0] ++ beOctets 2 32 ++ [58, 255] ++ octets ip 0 16 ++ octets sender 0 16 ++
      na (checksum (pseudo ++ na 0))

/-- Payload of a heartbeat frame less its tag (R113). -/
def heartbeatHead (h : Heartbeat) : List Byte :=
  [oct h.version, oct h.type, oct h.devnum, oct h.bp] ++ beOctets 4 h.pairId ++ beOctets 4 h.generation ++ beOctets 8 h.slot ++
    beOctets 8 h.epoch ++ beOctets 8 h.journal ++ beOctets 2 h.cause ++ List.replicate 10 0

/-- A heartbeat frame (R113). -/
def heartbeatFrame (dst mac : Nat) (h : Heartbeat) : List Byte := etherHead dst mac 0x88B5 ++ heartbeatHead h ++ fit 16 h.tag

/-! Redundancy tags and the line (R92, R100, R102, R108). -/

/-- The 802.1Q tag of a tag control word; none for 0 (R285). -/
def vlanTag (tci : Nat) : List Byte := if tci = 0 then [] else beOctets 2 0x8100 ++ beOctets 2 tci

/-- The frame with octets put after its addresses. -/
def putAfterAddresses (tag plain : List Byte) : List Byte := plain.take 12 ++ tag ++ plain.drop 12

/-- A frame filled to 60 octets before the FCS. -/
def fill60 (l : List Byte) : List Byte := l ++ List.replicate (60 - l.length) 0

/-- Redundancy control trailer (R100): sequence number, LAN ID and size of the LSDU with the trailer, suffix 0x88FB. -/
def rct (seq lanId size : Nat) : List Byte := beOctets 2 seq ++ beOctets 2 (4096 * lanId + size % 4096) ++ [0x88, 0xFB]

/-- HSR tag (R102): EtherType 0x892F, path and size, sequence number. -/
def hsrTag (seq path size : Nat) : List Byte := [0x89, 0x2F] ++ beOctets 2 (4096 * path + size % 4096) ++ beOctets 2 seq

/-- A frame with its 802.1Q tag and its redundancy tag as it leaves a port, before MACsec and FCS. -/
def tagged (port : Nat) (f : TxFrame) : List Byte :=
  let l := putAfterAddresses (vlanTag f.vlan) f.plain
  let v := (vlanTag f.vlan).length
  if f.red = 1 then
    let l := fill60 l
    l ++ rct f.seq (0xA + port % 2) (l.length - 14 - v + 6)
  else if f.red = 2 then fill60 (l.take (12 + v) ++ hsrTag f.seq (port % 2) (l.length - 14 - v + 6) ++ l.drop (12 + v))
  else fill60 l

/-- Octets on the wire of a frame without MACsec: with 802.1Q tag, redundancy tag and FCS (R92). -/
def wireOctets (f : TxFrame) : Nat := max 60 (f.plain.length + (vlanTag f.vlan).length + 6 * b2n (f.red != 0)) + 4

/-- Octets of the SecTAG with its SCI, and of the ICV. -/
def secOctets : Nat := 16 + 16

/-- SecTAG of a frame under an association (R108): TCI with the SCI present, encryption and change of text where the channel
is confidential, the packet number's low 32 bits, and the SCI. -/
def secTagOctets (sa : SaPart) (pn : Nat) : List Byte :=
  [0x88, 0xE5, oct (0x20 + (if sa.conf then 0x0C else 0) + sa.an % 4), 0] ++ beOctets 4 (pn % 2 ^ 32) ++ fit 8 sa.sci

/-- The IV of a packet number (R108): SCI and number under GCM-AES-256; under XPN the salt combined with SSCI and number,
both of the key slot (R110). -/
def secIv (sa : SaPart) (key : List Byte) (pn : Nat) : List Byte :=
  if sa.xpn then List.zipWith (fun a b => a ^^^ b) (octets key 32 12) (octets key 44 4 ++ beOctets 8 pn)
  else fit 8 sa.sci ++ beOctets 4 pn

/-- Secure data and ICV of a frame (R108): everything after the addresses, enciphered at offset 0 or in clear. -/
def secProtect (sa : SaPart) (key : List Byte) (pn : Nat) (l : List Byte) : List Byte × List Byte :=
  let iv := secIv sa key pn
  let head := l.take 12 ++ secTagOctets sa pn
  if sa.conf then
    let c := Config.cipher 3 true (key.take 32) iv (l.drop 12)
    (c, Config.tag 3 (key.take 32) iv head c)
  else (l.drop 12, Config.tag 3 (key.take 32) iv (head ++ l.drop 12) [])

end Sys2Proof.Machine
end

