-- ==== Sys2Proof/Machine/Ports.lean ====
section
/-! DEFINITION. Ports.lean: process-bus ports (R88 to R117): link states, egress queues, transmission with MACsec packet
numbers, redundancy sequence numbers, heartbeats and announcements, sys.portcfg. -/
namespace Sys2Proof.Machine

/-- Unicast MAC address of a bus pair (R93). -/
def bpMac (b : Nat) : Nat := (Config.macBase.toNat + b) % 2 ^ 48

/-- The redundancy sequence number that the next frame of a bus pair takes: with no protocol configured it stays 0
(R100, R102). -/
def nextSeq (b : Nat) (s : State) : Nat × State :=
  let c := cfgOf s b
  if c.redun = 0 then (0, s) else (c.seq, updCfg b (fun x => { x with seq := (x.seq + 1) % 65536 }) s)

/-- A frame can be queued at a port: UP or DEGRADED, and its transmit association not exhausted (R97, R111). -/
def canQueue (s : State) (port : Nat) : Bool :=
  portUp (lget s.ports port default) && !(lget s.ports port default).txsaExh

/-- Puts a frame in an egress queue of a port that can take one (R106). -/
def enqueue (port q : Nat) (f : TxFrame) (s : State) : State :=
  if canQueue s port then updPort port (fun p => { p with queues := lupd p.queues q (fun l => l ++ [f]) }) s else s

/-- A frame of bus pair b as it is queued, with the redundancy tag of the bus pair's protocol (R100, R102). -/
def newFrame (s : State) (b seq : Nat) (body : TxBody) (plain : List Byte) (vlan src : Nat) : TxFrame :=
  let f : TxFrame := { body := body, plain := plain, red := (cfgOf s b).redun, seq := seq, vlan := vlan, src := src, octets := 0
                       macsec := none, wire := [] }
  { f with octets := wireOctets f }

/-- One frame sent on both LANs of a bus pair under one sequence number (R97, R100, R102). -/
def sendBoth (b q : Nat) (body : TxBody) (plain : List Byte) (vlan src : Nat) (s : State) : State :=
  let (n, s) := nextSeq b s
  let f := newFrame s b n body plain vlan src
  enqueue (2 * b + 1) q f (enqueue (2 * b) q f s)

/-- The current transmit association of a port, and the next one installed (R109). -/
def txSa (s : State) (port : Nat) (cur : Bool) : Option Nat :=
  (s.skim.ctx.find? (fun x => x.2.kind == 6 && x.2.st == 1 && x.2.sa.tx && x.2.sa.port == port && x.2.sa.current == cur)).map (·.1)

/-- Last packet number of an association, and three quarters of its range (R111). -/
def pnLast (xpn : Bool) : Nat := if xpn then 2 ^ 64 - 1 else 2 ^ 32 - 1
def pnWarnAt (xpn : Bool) : Nat := if xpn then 0xC000000000000000 else 0xC0000000

/-- KEY_PROMOTE record (R621). -/
def keyPromoteLog (ctx slot : Nat) (keyId : W32) (s : State) : State :=
  logEv 0x0521 2 [BitVec.ofNat 64 (ctx % 65536 + 4294967296 * keyId.toNat), BitVec.ofNat 64 slot] s

/-- Switches a port to its next transmit association (R110, R111). -/
def switchTxSa (port : Nat) (s : State) : State :=
  match txSa s port true, txSa s port false with
  | old, some nx =>
    let s := match old with
      | some o => freeCtx o s
      | none => s
    let s := updCtx nx (fun x => { x with sa := { x.sa with current := true } }) s
    let s := updPort port (fun p => { p with pnWarn := false, txsaExh := false }) s
    keyPromoteLog nx (curSlot s (port / 2)) ((ctxOf s nx).getD default).keyIdCur s
  | _, none => s

/-- A packet number for the next frame of a port under MACsec (R111): the number and context, and the state with the
number used; at the last number the port switches or is exhausted. -/
def takePn (port : Nat) (s : State) : Option (Nat × Nat) × State :=
  match txSa s port true with
  | none => (none, s)
  | some k =>
    let sa := ((ctxOf s k).getD default).sa
    let n := sa.pn
    let s := updCtx k (fun x => { x with sa := { x.sa with pn := n + 1 } }) s
    let s := if n + 1 > pnWarnAt sa.xpn ∧ ¬(lget s.ports port default).pnWarn then
        portEvent port 5 (updPort port (fun p => { p with pnWarn := true }) s) else s
    let s := if n = pnLast sa.xpn then
        (if (txSa s port false).isSome then switchTxSa port s
         else portEvent port 6 (updPort port (fun p => { p with txsaExh := true }) s)) else s
    (some (n, k), s)

/-- AES-256 key, or other payload, that a slot holds. -/
def slotKey (s : State) (n : Nat) : List Byte := ((mget s.keys.slots n).getD default).payload

/-- Slots that need no KSK: the device's own in SRAM, and the public keys of slots 0x0004 to 0x000C (R486, R487). -/
def storedClear (k : Nat) : Bool := decide (k < 3) || decide (4 ≤ k ∧ k ≤ 0xC)

/-- The slot of a key use: empty, corrupt, or without one of the attributes (R483, R488); one whose KSK is gone cannot be read
(R490). -/
def slotFail (s : State) (k : Nat) (attrs : List Nat) : Option Nat :=
  match mget s.keys.slots k with
  | none => if s.keys.corrupt.contains k then some 0x0302 else some 0x0301
  | some x => if s.keys.corrupt.contains k || !(storedClear k || s.keys.ksk.isSome) then some 0x0302 else if attrs.contains x.attr then none else some 0x0303

/-- Line time in ns of an octet count with preamble and interframe gap, by LTYPE (R89, R307). -/
def wireNs (ltype n : Nat) : Nat :=
  let g := match ltype with | 1 => 1 | 2 => 10 | _ => 25
  (n + 20) * 8 / g

/-- The octets of a frame on a port: its tags, and under MACsec the SecTAG, the protected data and the ICV (R108). -/
def onLine (s : State) (n : Nat) (f : TxFrame) : Option (Nat × Nat) → List Byte
  | none => tagged n f
  | some (pn, k) =>
    let sa := ((ctxOf s k).getD default).sa
    let (d, icv) := secProtect sa (slotKey s sa.keySlot) pn (tagged n f)
    (tagged n f).take 12 ++ secTagOctets sa pn ++ d ++ icv

/-- A frame starts on a port and is counted (R106, R117); it is in progress until its line time has passed (R99). -/
def startFrame (n : Nat) (f : TxFrame) (m : Option (Nat × Nat)) (w : List Byte) (s : State) : State :=
  let oct := if m.isSome then f.octets + secOctets else f.octets
  let s := updPort n (fun p => { p with lineEnd := s.time.clock + wireNs (cfgOf s (n / 2)).ltype oct }) s
  emit (.frame n { f with macsec := m, wire := w }) (cntPort n 11 oct (cntPort n 10 1 s))

/-- A frame leaves a port (R106, R108, R111): under MACsec it takes a packet number; with the association exhausted every
frame for the LAN is discarded. The frame is protected under the association that gave the number. -/
def transmit (n : Nat) (f : TxFrame) (s : State) : State :=
  if (cfgOf s (n / 2)).macsec then
    if (lget s.ports n default).txsaExh then s
    else match takePn n s with
      | (some m, s') => startFrame n f (some m) (onLine s n f (some m)) s'
      | (none, s') => s'
  else startFrame n f none (onLine s n f none) s

/-- A failure announcement leaves a port's queue 0 (R24, R115): it is sent before the ports stop. -/
def isAnnounce (f : TxFrame) : Bool := match f.body with
  | .heartbeat h => h.type == 1
  | _ => false
def flushAnnounce (n : Nat) (s : State) : State :=
  let q := lget (lget s.ports n default).queues 0 []
  let s := updPort n (fun p => { p with queues := lupd p.queues 0 (fun l => l.filter (fun f => !isAnnounce f)) }) s
  (q.filter isAnnounce).foldl (fun s f => transmit n f s) s

/-- The heartbeat or announcement of bus pair b (R113, R114): the tag covers addresses, EtherType and octets 0 to 47. -/
def heartbeatOf (s : State) (b type cause : Nat) : Heartbeat :=
  let h : Heartbeat :=
    { version := 1, type := type, devnum := devnum s, bp := b, pairId := s.pair.pairId, generation := s.pair.gen
      slot := curSlot s b, epoch := s.sys.epoch, journal := s.pair.mirroredTok, cause := cause, tag := [] }
  let iv := [oct (devnum s), oct b, oct type, 0] ++ beOctets 8 h.slot
  { h with tag := Config.tag 4 (slotKey s s.pair.signSlot) iv (etherHead s.pair.hbAddr (bpMac b) 0x88B5 ++ heartbeatHead h) [] }

/-- One heartbeat or announcement on both LANs of bus pair b, with the 802.1Q tag that pair.cfg sets (R113); an
announcement goes from queue 0 (R106, R115). -/
def sendHeartbeat (b type cause : Nat) (s : State) : State :=
  if bpUp s b then
    let h := heartbeatOf s b type cause
    sendBoth b (if type = 0 then 1 else 0) (.heartbeat h) (heartbeatFrame s.pair.hbAddr (bpMac b) h) s.pair.hbTag (bpMac b) s
  else s

/-- The failure announcement of an active pair member (R24, R115): on the span link and every LAN that is up. -/
def announceFailure (cause : Nat) (s : State) : State :=
  if s.pair.paired && !s.pair.standby && inService s then
    let s := emit (.pair (.heartbeat { heartbeatOf s 0 1 cause with tag := [] })) s
    let s := (List.range 4).foldl (fun s b => sendHeartbeat b 1 cause s) s
    (List.range 8).foldl (fun s n => flushAnnounce n s) s
  else s

/-- A frame of publication context c has left a port's queue: a DRAINING publication is FREE once its last frame has left
(R295). -/
def frameGone (c : Nat) (s : State) : State :=
  let s := updCtx c (fun x => { x with pub := { x.pub with inFlight := x.pub.inFlight - 1 } }) s
  match ctxOf s c with
  | some x =>
    if x.kind == 5 && x.st == 2 && x.pub.inFlight == 0 then
      { freeCtx c s with publ := { s.publ with templates := mdel s.publ.templates (c - 0x5000) } }
    else s
  | none => s

/-- Publication contexts of the frames in a port's queues. -/
def queuedPubs (p : Port) : List Nat := p.queues.flatMap (fun q => q.filterMap (fun f => match f.body with
  | .goose _ c .. => some c
  | .sv _ c .. => some c
  | _ => none))

/-- A frame in progress on a port ends with an invalid FCS, counted in TX_ABORT (R99). -/
def cutFrame (n : Nat) (s : State) : State :=
  if s.time.clock < (lget s.ports n default).lineEnd then
    emit (.frameCut n) (cntPort n 12 1 (updPort n (fun p => { p with lineEnd := 0 }) s))
  else s

/-- A port leaves UP and DEGRADED, or stays out of them, for state st (R95, R99): a frame in progress is cut short, its
queued frames are discarded, the LAN's PTP port stops, and the bus pair loses qualification with its last LAN. -/
def portLeave (n st : Nat) (s : State) : State :=
  let p := lget s.ports n default
  let b := n / 2
  let s := if portUp p then cutFrame n s else s
  let s := updPort n (fun p => { p with st := st, queues := List.replicate 4 [], calmAt := none, resid := [] }) s
  let s := (queuedPubs p).foldl (fun s c => frameGone c s) s
  let s := updBp b (fun x => if n % 2 = 1 then { x with annB := none, syncB := none, pdOpenB := none }
    else { x with annA := none, syncA := none, pdOpenA := none }) s
  if bpUp s b then takeMaster b s else bpDead b s

/-- The port enters DOWN from another state: counted, with PBn_EVT.DOWN (R95, R117). -/
def portDown (n : Nat) (s : State) : State :=
  if (lget s.ports n default).st = 1 then s else portEvent n 0 (cntPort n 15 1 (portLeave n 1 s))

/-- The port enters DISABLED, which no event bit reports (R95, R621). -/
def portDisable (n : Nat) (s : State) : State :=
  let old := (lget s.ports n default).st
  if old = 0 then s else portStateLog n old 0 (portLeave n 0 s)

/-- The device may run its ports: in service (R95), or listening for its partner (R567). -/
def portsEnabled (s : State) : Bool := inService s || s.pair.listen.isSome

/-- Ports of configured bus pairs leave DISABLED for DOWN where the device may run them; the PTP instances of bus pairs
without a LAN up stand as R95 gives them. -/
def enablePorts (s : State) : State :=
  let s := (List.range 8).foldl (fun s n =>
    if (cfgOf s (n / 2)).configured ∧ portsEnabled s = true ∧ (lget s.ports n default).st = 0 then portDown n s else s) s
  (List.range 4).foldl (fun s b => if bpUp s b then s else updBp b (fun x => { x with ptp := deadState s b }) s) s

/-- PORT_SIGNAL_LOSS (R95): a port that is UP or DEGRADED goes DOWN. -/
def execPortSignalLoss (n : Nat) (s : State) : Host.Outcome State Fault Refusal :=
  .next <|
    let s := updPort n (fun p => { p with signal := false }) s
    if portUp (lget s.ports n default) then portDown n s else s

/-- PORT_UP (R95): from DOWN with block lock for 10 ms, and at 1000BASE-X negotiation complete. -/
def execPortUp (n : Nat) (negotiated : Bool) (s : State) : Host.Outcome State Fault Refusal :=
  .next <|
    let p := lget s.ports n default
    let c := cfgOf s (n / 2)
    if c.configured ∧ portsEnabled s ∧ (p.st = 0 ∨ p.st = 1) ∧ (c.ltype ≠ 1 ∨ negotiated) then
      let s := portDown n s
      let s := updPort n (fun p => { p with st := 2, signal := true, calmAt := none }) s
      let s := updBp (n / 2) (fun x => if x.ptp = 4 ∨ x.ptp = 5 ∨ x.ptp = 0 then { x with ptp := 1 } else x) s
      portEvent n 1 s
    else s

/-- PORT_DEGRADED (R95, R96): the errors of the last second reach the threshold; in DEGRADED that restarts the ten seconds
of R96. -/
def execPortDegraded (n errs : Nat) (s : State) : Host.Outcome State Fault Refusal :=
  .next <|
    let p := lget s.ports n default
    if errs ≥ (cfgOf s (n / 2)).degrade then
      if p.st = 2 then portEvent n 2 (updPort n (fun p => { p with st := 3, calmAt := some s.time.clock }) s)
      else if p.st = 3 then updPort n (fun p => { p with calmAt := some s.time.clock }) s
      else s
    else s

/-- PORT_UNDEGRADE (R96): after ten consecutive seconds below the threshold. -/
def execPortUndegrade (n : Nat) (s : State) : Host.Outcome State Fault Refusal :=
  .next <|
    let p := lget s.ports n default
    if p.st = 3 ∧ p.calmAt.any (fun t => decide (s.time.clock - t ≥ 10000000000)) then
      portStateLog n 3 2 (updPort n (fun p => { p with st := 2, calmAt := none }) s)
    else s

/-- The next frame of a port in strict priority: its queue and the rest (R106). -/
def popQueue : List (List TxFrame) → Option (TxFrame × List (List TxFrame))
  | [] => none
  | (f :: q) :: qs => some (f, q :: qs)
  | [] :: qs => match popQueue qs with
    | some (f, r) => some (f, [] :: r)
    | none => none

/-- The correctionField of a forwarded Sync or Follow_Up grows by ns (R104); it stands in the message as 1/65,536 ns. -/
def addCorr (f : RxFrame) (ns : Nat) : RxFrame :=
  let at_ (c : Int) : List Byte := f.body.take 22 ++ beOctets 8 (BitVec.ofInt 64 c).toNat ++ f.body.drop 30
  match f.payload with
  | .ptp (.sync d q two c o t) =>
    let c := c + 65536 * (ns : Int)
    { f with payload := .ptp (.sync d q two c o t), body := at_ c }
  | .ptp (.followUp d q c o t) =>
    let c := c + 65536 * (ns : Int)
    { f with payload := .ptp (.followUp d q c o t), body := at_ c }
  | _ => f

/-- A forwarded frame as it leaves a port (R104): the residence time and the upstream peer delay go into a one-step Sync;
those of a two-step Sync wait for its Follow_Up. -/
def correct (n : Nat) (f : TxFrame) (s : State) : TxFrame × State :=
  match f.body with
  | .hsrForward r at_ delay =>
    let held := s.time.clock - at_ + delay
    let put (r : RxFrame) : TxFrame := { f with body := .hsrForward r at_ delay, plain := r.body }
    match r.payload with
    | .ptp (.sync _ q true ..) => (f, updPort n (fun p => { p with resid := (r.src, q, held) :: p.resid.take 15 }) s)
    | .ptp (.sync _ _ false ..) => (put (addCorr r held), s)
    | .ptp (.followUp _ q ..) =>
      match (lget s.ports n default).resid.find? (fun e => e.1 == r.src && e.2.1 == q) with
      | some e => (put (addCorr r e.2.2), updPort n (fun p => { p with resid := p.resid.filter (· != e) }) s)
      | none => (f, s)
    | _ => (f, s)
  | _ => (f, s)

/-- PORT_TRANSMIT (R106): the line is free, and the next frame of the queues in strict priority starts. -/
def execPortTransmit (n : Nat) (s : State) : Host.Outcome State Fault Refusal :=
  .next <|
    let p := lget s.ports n default
    match popQueue p.queues with
    | none => s
    | some (f, qs) =>
      if !portUp p then s
      else
        let s := updPort n (fun p => { p with queues := qs }) s
        let s := match f.body with
          | .goose _ c .. => frameGone c s
          | .sv _ c .. => frameGone c s
          | _ => s
        let (f, s) := correct n f s
        transmit n f s

/-- PRP_SUPERVISION (R100): every 2 s on both LANs of a bus pair set to PRP. -/
def execPrpSupervision (b : Nat) (s : State) : Host.Outcome State Fault Refusal :=
  .next <|
    let c := cfgOf s b
    let due : Bool := c.supAt.all (fun t => decide (s.time.clock - t ≥ 2000000000))
    if c.redun = 1 ∧ due ∧ bpUp s b ∧ inService s then
      sendBoth b 3 (.prpSupervision c.supSeq) (supervisionFrame (bpMac b) c.supSeq) 0 (bpMac b)
        (updCfg b (fun x => { x with supAt := some s.time.clock, supSeq := (x.supSeq + 1) % 65536 }) s)
    else s

/-- Queues a PTP message on one port, without RCT on PRP and with an HSR tag on HSR (R57, R100, R102, R106). -/
def sendPdelay (n : Nat) (body : TxBody) (plain : List Byte) (s : State) : State :=
  let b := n / 2
  let (q, s) := if (cfgOf s b).redun = 2 then nextSeq b s else (0, s)
  let f := newFrame s b q body plain 0 (bpMac b)
  let f := if f.red = 1 then { f with red := 0 } else f
  enqueue n 0 { f with octets := wireOctets f } s

/-- PDELAY_REQUEST (R56, R57, R86, R106): a LAN's PTP port sends a Pdelay request under its next sequenceId. -/
def execPdelayRequest (n : Nat) (s : State) : Host.Outcome State Fault Refusal :=
  .next <|
    if portUp (lget s.ports n default) then
      let b := n / 2
      let lanB := n % 2 == 1
      let q := if lanB then (bpOf s b).pdSeqB else (bpOf s b).pdSeqA
      let dom := lget s.time.domains b 0
      let s := updBp b (fun x =>
        if lanB then { x with pdSeqB := (q + 1) % 65536, pdOpenB := some q }
        else { x with pdSeqA := (q + 1) % 65536, pdOpenA := some q }) s
      sendPdelay n (.pdelayReq dom q) (pdelayFrame (bpMac b) lanB 2 dom q (List.replicate 20 0)) s
    else s

/-- A neighbour's Pdelay request is answered on its port with its sequenceId (R56, R106); a request of another domain is
ignored. -/
def answerPdelay (n domain q : Nat) (port : List Byte) (s : State) : State :=
  let b := n / 2
  if domain = lget s.time.domains b 0 then
    sendPdelay n (.pdelayResp domain q (fit 10 port))
      (pdelayFrame (bpMac b) (n % 2 == 1) 3 domain q (List.replicate 10 0 ++ fit 10 port)) s
  else s

/-- sys.portcfg (log 16, log 87): CTX bus pair; word 8 [1:0] line type, [3:2] FEC and [5:4] redundancy of LAN A, [9:8],
[11:10], [13:12] of LAN B, [6] MACsec, [7] XPN; word 9 [15:0] degrade threshold; input empty, or two addresses of 16
octets, or those and up to 16 secure associations of 32 octets. -/
def sysPortcfgRow : OpRow :=
  { opc := 0x0030, who := 0, ctx := 0x3, inp := true, out := false, params := [0x3FFF, 0xFFFF] }

/-- A secure association as sys.portcfg carries it (R108 to R110, log 87): context, flags, key slot, packet number window,
SCI, switch slot. -/
structure SaSpec where
  ctx : Nat
  lanB : Bool
  tx : Bool
  conf : Bool
  next : Bool
  an : Nat
  key : Nat
  window : Nat
  overlap : Nat
  sci : List Byte
  switch : Nat
  /-- Octets that hold 0. -/
  rest : Nat

/-- Association i of the input: octets 0 and 1 context, 2 flags ([0] LAN B, [1] transmit, [2] confidentiality, [3] next
association, [5:4] AN), 4 to 7 key slot and overlap, 8 to 11 replay window, 16 to 23 SCI, 24 to 31 switch slot. -/
def saSpec (l : List Byte) (i : Nat) : SaSpec :=
  let o := 32 + 32 * i
  let fl := field l (o + 2) 1
  { ctx := field l o 2, lanB := fl % 2 == 1, tx := fl / 2 % 2 == 1, conf := fl / 4 % 2 == 1, next := fl / 8 % 2 == 1
    an := fl / 16 % 4, key := field l (o + 4) 2, overlap := field l (o + 6) 2, window := field l (o + 8) 4
    sci := octets l (o + 16) 8, switch := field l (o + 24) 8
    rest := fl / 64 + field l (o + 3) 1 + field l (o + 12) 4 }

/-- The associations of an input. -/
def saSpecs (c : Cmd) : List SaSpec := (List.range ((cLen c - 32) / 32)).map (saSpec c.input)

/-- R90, R96, R108: undefined codes, thresholds and replay windows are refused before admission. -/
def sysPortcfgPre (c : Cmd) : Option Nat :=
  let w := cw c 8
  firstFail
    [(bits w 1 0 == 0 || bits w 9 8 == 0, 0x0106), (bits w 3 2 == 3 || bits w 11 10 == 3, 0x0106),
     (bits w 5 4 == 3 || bits w 13 12 == 3, 0x0106), ((cw c 9).toNat == 0, 0x0106),
     (bit w 7 && !bit w 6, 0x0106), (cLen c % 32 != 0 || decide (cLen c > 544), 0x0106),
     ((saSpecs c).any (fun a => a.rest != 0), 0x0105), ((saSpecs c).any (fun a => decide (a.window > 2 ^ 30)), 0x0106)]

/-- A bus pair has a subscription, publication or view (R73, R91). -/
def bpInUse (s : State) (b : Nat) : Bool :=
  s.skim.ctx.any (fun x => decide (1 ≤ x.2.kind ∧ x.2.kind ≤ 5) && x.2.bp == b) ||
  s.fns.any (fun f => f.rings.any (fun r => r.view.any (fun id =>
    if id < 0x8000 then ((mget s.skim.ctx id).getD default).bp == b
    else match mget s.trowel.derived (id - 0x8000) with
      | some p => ((progOf s p).getD default).bind_.bp == b
      | none => false)))

/-- The change touches line type, FEC, redundancy or MACsec policy (R91). -/
def portcfgRetrains (c : Cmd) (s : State) : Bool :=
  let w := cw c 8
  let k := cfgOf s (cCtx c)
  !k.configured || k.ltype != bits w 1 0 || k.fec != bits w 3 2 || k.redun != bits w 5 4 || k.macsec != bit w 6 || k.xpn != bit w 7

/-- An association cannot be installed: its context lies outside the range of R109 or is in use by another channel, or its
key slot is not a MACsec key of the bus pair's cipher suite (R110). -/
def saFail (xpn : Bool) (b : Nat) (s : State) (a : SaSpec) : Option Nat :=
  let port := 2 * b + b2n a.lanB
  let same (x : Ctx) : Bool := x.kind == 6 && x.sa.port == port && x.sa.tx == a.tx && decide (x.sa.sci = a.sci)
  match firstFail
    [(decide (a.ctx < 0x5800) || decide (a.ctx > 0x59FF), 0x0705),
     ((ctxOf s a.ctx).any (fun x => !same x), 0x0706)] with
  | some st => some st
  | none =>
    match slotFail s a.key [if a.tx then 0 else 1] with
    | some st => some st
    | none =>
      let k := (mget s.keys.slots a.key).getD default
      if k.ktype ≠ (if xpn then 6 else 2) ∨ k.purpose / 8 % 2 = 0 then some 0x0303 else none

/-- The associations of a port's channel: those of one direction and SCI (R109). -/
def channelOf (port : Nat) (tx : Bool) (sci : List Byte) (x : Nat × Ctx) : Bool :=
  x.2.kind == 6 && x.2.sa.port == port && x.2.sa.tx == tx && decide (x.2.sa.sci = sci)

/-- Classification key of a receive association (R136). -/
def saKey (port an : Nat) (sci : List Byte) : List Byte := [6, oct port, oct an, 0, 0, 0] ++ fit 8 sci ++ List.replicate 26 0

/-- An association leaves its channel. -/
def dropSa (k : Nat) (s : State) : State := freeCtx k (dropIndex k s)

/-- Installs an association as the current or the next one of its channel, in place of the one that stood there (R109,
R110). An exhausted port goes on with a next one at once (R111). False where its index entry needs a rebuild (R139). -/
def installSa (xpn : Bool) (b : Nat) (a : SaSpec) (s : State) : State × Bool :=
  let port := 2 * b + b2n a.lanB
  let x : Ctx := { (default : Ctx) with
    kind := 6, st := 1, bp := b, gen := nextGen s a.ctx, keyCur := a.key, overlap := a.overlap, switch := a.switch
    swFrom := nextFire s b
    keyIdCur := ((mget s.keys.slots a.key).getD default).keyId, cnt := List.replicate 16 0
    ckey := if a.tx then [] else saKey port a.an a.sci
    sa := { port := port, tx := a.tx, sci := a.sci, an := a.an, xpn := xpn, pn := 1, replayWin := a.window, conf := a.conf
            keySlot := a.key, current := !a.next } }
  let old := (s.skim.ctx.filter (fun e => channelOf port a.tx a.sci e && (e.2.sa.current == !a.next || e.1 == a.ctx))).map (·.1)
  let s := newCtx a.ctx x (old.foldl (fun s k => dropSa k s) s)
  if a.tx then (if a.next ∧ (lget s.ports port default).txsaExh then switchTxSa port s else s, true)
  else addIndex a.ctx s

/-- R90, R91, R101, R109, R110, in the order of the rules. -/
def sysPortcfgCheck (c : Cmd) (s : State) : Option Nat :=
  let w := cw c 8
  let t := bits w 1 0
  let fec := bits w 3 2
  firstFail
    [(bits w 9 8 != t || bits w 11 10 != fec || bits w 13 12 != bits w 5 4, 0x0704),
     ((t == 1 && fec != 0) || (t == 2 && fec == 2), 0x0704), (t == 1 && bits w 5 4 == 2, 0x0704),
     (portcfgRetrains c s && mode s != 4 && bpInUse s (cCtx c), 0x0201),
     (decide (saSpecs c ≠ []) && !bit w 6, 0x0704)] <|>
  (saSpecs c).findSome? (saFail (bit w 7) (cCtx c) s)

/-- The configuration; both ports are taken to DOWN and retrained where it changes the line (R91). -/
def sysPortcfgEff (c : Cmd) (s : State) : State × Bool :=
  let w := cw c 8
  let b := cCtx c
  let retrain := portcfgRetrains c s
  let s := updCfg b (fun k => { k with
    configured := true, ltype := bits w 1 0, fec := bits w 3 2, redun := bits w 5 4, macsec := bit w 6, xpn := bit w 7
    degrade := bits (cw c 9) 15 0
    ip4 := if cLen c ≠ 0 then octets c.input 0 16 else k.ip4
    ip6 := if cLen c ≠ 0 then octets c.input 16 16 else k.ip6 }) s
  let (s, ok) := (saSpecs c).foldl (fun (r : State × Bool) a =>
    let (s, ok) := installSa (bit w 7) b a r.1
    (s, r.2 && ok)) (s, true)
  (if retrain && portsEnabled s then portDown (2 * b + 1) (portDown (2 * b) s) else s, ok)

/-- Applies a configuration command that puts keys into the classification index. Where an insertion fails after 512
displacements the index is rebuilt, and the command completes after the swap (R139). -/
def applyIndexed (check : Cmd → State → Option Nat) (eff : Cmd → State → State × Bool) (c : Cmd) (s : State) : State :=
  match check c s with
  | some st => settle c.tok st 0 [] s
  | none =>
    let (t, ok) := eff c s
    let t := bumpEpoch (mirrorItem (.config c (s.sys.epoch + 1)) t)
    if ok then settle c.tok 0 0 [] t
    else startCmd c.tok { t with skim := { t.skim with rehashFor := t.skim.rehashFor ++ [(c.tok, t.sys.epoch)] } }

/-- SYS_PORTCFG (R91). -/
def execSysPortcfg (c : Cmd) (s : State) : Host.Outcome State Fault Refusal :=
  .next (runConfigBy (applyIndexed sysPortcfgCheck sysPortcfgEff) c s)

end Sys2Proof.Machine
end

