-- ==== Sys2Proof/Machine/Envelope.lean ====
section
/-! DEFINITION. Envelope.lean: the form of a key update envelope (R491, R494 step 1). -/
namespace Sys2Proof.Machine

/-- An item of an envelope: 1 WRITE, 2 ERASE, 3 GENERATE. -/
structure EnvItem where
  op : Nat
  attr : Nat
  ktype : Nat
  purpose : Nat
  slot : Nat
  klen : Nat
  keyId : W32
  label : List Byte
  wrap : List Byte
  deriving DecidableEq, Repr

/-- Items from an offset: none when one is malformed; with the offset after the last. -/
def parseItems (l : List Byte) : Nat → Nat → Option (List EnvItem × Nat)
  | 0, off => some ([], off)
  | n + 1, off =>
    let w0 := word32 l off
    let w1 := word32 l (off + 4)
    let w2 := word32 l (off + 8)
    let op := bits w0 7 0
    let klen := bits w2 13 0
    let wl := if op = 1 then (klen + 7) / 8 * 8 + 8 else 0
    if op = 0 ∨ op > 3 ∨ bits w0 15 11 ≠ 0 ∨ bits w0 31 28 ≠ 0 ∨ bits w1 31 16 ≠ 0 ∨ bits w2 31 14 ≠ 0 ∨
       bits w1 15 0 > 0x1FFF ∨ (op ≠ 2 ∧ (klen = 0 ∨ klen > 8192)) ∨ off + 32 + wl > l.length then none
    else
      match parseItems l n (off + 32 + wl) with
      | none => none
      | some (is, e) =>
        some ({ op := op, attr := bits w0 10 8, ktype := bits w0 23 16, purpose := bits w0 27 24, slot := bits w1 15 0
                klen := klen, keyId := word32 l (off + 12), label := octets l (off + 16) 16
                wrap := octets l (off + 32) wl } :: is, e)

/-- The header's counts, and the offset of recipient entry i. -/
def envRcpts (l : List Byte) : Nat := field l 5 1
def rcptAt (i : Nat) : Nat := 64 + 1696 * i

/-- The envelope's items where it is well formed (R491, R494 step 1). -/
def parseEnvelope (l : List Byte) : Option (List EnvItem) :=
  let nr := envRcpts l
  if octets l 0 4 ≠ [0x56, 0x4B, 0x4B, 0x45] ∨ field l 4 1 ≠ 1 ∨ nr = 0 ∨ nr > 2 ∨ field l 6 2 = 0 ∨ field l 6 2 > 64 ∨
     field l 9 3 ≠ 0 ∨ field l 0xC 4 ≠ l.length ∨ l.length > 1048576 ∨ field l 0x10 48 ≠ 0 ∨
     (List.range nr).any (fun i => field l (rcptAt i + 0x44) 12 != 0 || field l (rcptAt i + 0x698) 8 != 0) then none
  else
    match parseItems l (field l 6 2) (rcptAt nr) with
    | some (is, e) => if e + 4627 = l.length ∧ (is.map (·.slot)).Nodup then some is else none
    | none => none

/-- The envelope generates a key: its draw waits like any other (R470). -/
def envGenerates (c : Cmd) : Bool := ((parseEnvelope c.input).getD []).any (fun i => i.op == 3)

end Sys2Proof.Machine
end

