-- ==== Sys2Proof/Machine/Rng.lean ====
section
/-! DEFINITION. Rng.lean: random numbers (R460 to R477): health windows, the block pool, the 72 DRBG instances, draws
that wait, fail or time out, and the rng. commands. -/
namespace Sys2Proof.Machine

/-- DRBG instance i. -/
def drbgOf (s : State) (i : Nat) : Drbg := lget s.rng.drbg i default

/-- Instance 0 is instantiated. -/
def rngSeeded (s : State) : Bool := (drbgOf s 0).inst

/-- A draw that cannot be made later either ends at once: FAILED, or after the 50 ms of start-up (R470, R475). -/
def drawRefused (s : State) : Option Nat :=
  if s.rng.failed then some 0x0603 else if s.rng.timedOut && !rngSeeded s then some 0x0601 else none

/-- Instance i must reseed before its next generate (R466). -/
def reseedDue (s : State) (i : Nat) : Bool :=
  let d := drbgOf s i
  decide (d.gens ≥ 1048576) || decide (s.time.clock - d.at_ ≥ 1000000000) || d.want

/-- Blocks that instance i takes before its next generate (R465, R466, R469). -/
def blocksNeeded (s : State) (i : Nat) : Nat := if !(drbgOf s i).inst then 2 else if reseedDue s i then 1 else 0

/-- Instance i can generate now: output runs, instance 0 is instantiated, and the pool holds the blocks it needs. -/
def drawReady (s : State) (i : Nat) : Bool :=
  s.rng.st == 1 && rngSeeded s && decide (blocksNeeded s i ≤ s.rng.pool.length)

/-- Changes instance i. -/
def updDrbg (i : Nat) (g : Drbg → Drbg) (s : State) : State :=
  { s with rng := { s.rng with drbg := lupd s.rng.drbg i g } }

/-- Instantiates instance i from two blocks: entropy input, nonce, personalisation string (R465). -/
def instantiate (i : Nat) (s : State) : State :=
  let e := lget s.rng.pool 0 []
  let n := (lget s.rng.pool 1 []).take 16
  let s := { s with rng := { s.rng with pool := s.rng.pool.drop 2 } }
  cntRng 2 1 (updDrbg i (fun _ =>
    { inst := true, seed := e ++ n ++ [BitVec.ofNat 8 i] ++ devId, gens := 0, at_ := s.time.clock, want := false }) s)

/-- Reseeds instance i from one block (R465, R466). -/
def reseed (i : Nat) (s : State) : State :=
  let e := lget s.rng.pool 0 []
  let s := { s with rng := { s.rng with pool := s.rng.pool.drop 1 } }
  cntRng 2 1 (updDrbg i (fun d =>
    { d with seed := Config.drbg d.seed d.gens 48 ++ e, gens := 0, at_ := s.time.clock, want := false }) s)

/-- Seeds instance i as its next generate needs it. -/
def seedFor (i : Nat) (s : State) : State :=
  if !(drbgOf s i).inst then instantiate i s else if reseedDue s i then reseed i s else s

/-- One generate of n octets on instance i, which is ready, for function f (R466, R467). -/
def generate (f i n : Nat) (s : State) : List Byte × State :=
  let s := seedFor i s
  let d := drbgOf s i
  (Config.drbg d.seed d.gens n, generateWork f i n d.seed (cntRng 3 1 (updDrbg i (fun d => { d with gens := d.gens + 1 }) s)))

/-- Octets that the model leaves free (log 2). -/
def freeOctets (n : Nat) (s : State) : List Byte × State :=
  ((List.range n).map (fun i => Config.freeByte (s.freeCtr + i)), { s with freeCtr := s.freeCtr + n })

/-- A host command draws random bits: RNG, hedged and salted signatures, encap and keygen (R452), wrapped save, ring
creation, key generation, enrolment, volume key. -/
def cmdDraws (c : Cmd) : Bool :=
  let o := Cmd.opc c
  let a := bits (cw c 8) 7 0
  if o = 0x7001 then a == 1 || a == 2 || a == 0xA || a == 0xB || (decide (7 ≤ a ∧ a ≤ 9) && bits (cw c 8) 9 8 == 1)
  else if o = 0x5004 then bit (cw c 8) 0
  else if o = 0x2004 then bits (cw c 12) 4 0 != 0
  else if o = 0x9001 then envGenerates c
  else ([0x8001, 0x8002, 0x7004, 0x7006, 0xD007, 0xA013] : List Nat).contains o

/-- Tokens of draws that wait, or of generates that have not ended (R470, R472, R473). -/
def openDraws (s : State) : List Nat :=
  (s.journal.filter (fun e => e.2.outcome.isNone && cmdDraws e.2.cmd &&
    (runnable s e.2.cmd || (e.2.staged.isSome && Cmd.opc e.2.cmd == 0x8001)))).map (·.1)

/-- Every open draw completes with a status. -/
def endDraws (st : Nat) (s : State) : State :=
  let ts := openDraws s
  cntRng 4 ts.length (ts.foldl (fun s t => settle t st 0 [] s) s)

/-- Values that R124, R137, R409 and R428 draw, from octets by purpose (R471): classification seed, digest key, session
key, and one context key for each function. -/
def drawnValues (src : Nat → List Byte) (s : State) : State :=
  { s with
    skim := { s.skim with seed := BitVec.ofNat 64 (leNat ((src 0).take 8)), digestKey := fit 32 (src 1) }
    eng := { s.eng with sesKey := fit 32 (src 2) }
    fns := (List.range s.fns.length).map (fun f => { lget s.fns f default with ctxKey := fit 32 (src (3 + f)) }) }

/-- The value that the fallback derives for a purpose (R471, R523). -/
def fallbackOf (purpose : List Byte) (s : State) : List Byte :=
  Config.kmac 11 (Config.kmac 11 Config.drk (text "fallback") 32 []) (purpose ++ leOctets 8 s.fw.boots) 32 []

/-- The fallback derivation of R471. -/
def fallbackValues (s : State) : State :=
  let s := startIndex (drawnValues (fun k => fallbackOf (leOctets 4 k) s) s)
  event 10 3 { s with rng := { s.rng with fallback := true } }

/-- Draws those values from instance 0, or leaves them to the fallback while the RNG is FAILED (R471); the draw is one
free value of each, made within START-UP (log 17). -/
def startValues (s : State) : State :=
  if s.rng.failed then fallbackValues s
  else
    let s' := drawnValues (fun k => (List.range 32).map (fun i => Config.freeByte (s.freeCtr + 32 * k + i))) s
    startIndex { s' with freeCtr := s.freeCtr + 32 * 68 }

/-- Every instance uninstantiated and every source in its start-up tests (R469, R475). -/
def rngRestart (s : State) : State :=
  { s with rng := { s.rng with
      st := 0, fallback := false, pattern := none, timedOut := false, startAt := s.time.clock, pool := []
      srcs := s.rng.srcs.map (fun x => { x with st := if s.rng.failed then 3 else 0, held := none, patPos := 0, run := 0 })
      drbg := List.replicate 72 default } }

/-- Changes source i. -/
def updRsrc (i : Nat) (g : RngSrc → RngSrc) (s : State) : State :=
  { s with rng := { s.rng with srcs := lupd s.rng.srcs i g } }

/-- Releases the block held by source i into the pool; a full pool discards it (R463, R474). -/
def releaseBlock (i : Nat) (b : List Byte) (s : State) : State :=
  let pool := if s.rng.pool.length < 32 then s.rng.pool ++ [b] else s.rng.pool
  let clear := decide (s.rng.lastBad = some i)
  cntRng 0 1 { s with rng := { s.rng with
    pool := pool, consec := if clear then 0 else s.rng.consec, lastBad := if clear then none else s.rng.lastBad } }

/-- Instantiates instance 0 from the first two blocks (R469). -/
def firstSeed (s : State) : State :=
  if s.rng.st = 0 ∧ ¬rngSeeded s ∧ s.rng.pool.length ≥ 2 then
    let s := instantiate 0 s
    { s with rng := { s.rng with st := 1 } }
  else s

/-- A health window of source i fails (R472, R474, R475). -/
def healthFail (i kind : Nat) (s : State) : State :=
  let s := updRsrc i (fun x => { x with st := 2, lastFail := kind, fails := min 255 (x.fails + 1), held := none, run := 0 }) s
  let n := min 3 (s.rng.consec + 1)
  let s := cntRng 1 1 { s with rng := { s.rng with st := 2, consec := n, lastBad := some i, failAt := s.time.clock } }
  let s := event 10 0 s
  let s := endDraws 0x0602 s
  if n = 3 then
    event 10 1 { s with rng := { s.rng with
      failed := true, srcs := s.rng.srcs.map (fun x => { x with st := 3, held := none }) } }
  else s

/-- Output resumes when the restarted source passes its start-up tests: every instantiated instance is marked for reseed
(R473). -/
def rngResume (i : Nat) (s : State) : State :=
  if s.rng.st = 2 ∧ s.rng.lastBad = some i then
    event 10 4 { s with rng := { s.rng with
      st := if rngSeeded s then 1 else 0, drbg := s.rng.drbg.map (fun d => if d.inst then { d with want := true } else d) } }
  else s

/-- The 4,096 raw bits of a window, the least significant bit of each octet first (log 100). -/
def rawBits (raw : List Byte) : List Bool := (fit 512 raw).flatMap (fun b => (List.range 8).map (fun i => b.getLsbD i))

/-- The repetition count test over bits that follow a run (R461): last bit, its run, and whether a run reached the cutoff. -/
def repetition : List Bool → Bool → Nat → Bool → Bool × Nat × Bool
  | [], last, run, bad => (last, run, bad)
  | b :: bs, last, run, bad =>
    let n := if b = last then run + 1 else 1
    repetition bs b n (bad || decide (n ≥ 161))

/-- The adaptive proportion test of a window of 1,024 bits: how often its first bit comes in it reaches the cutoff (R461). -/
def proportionBad (bs : List Bool) : Bool :=
  match bs with
  | [] => false
  | b :: _ => decide ((bs.filter (· == b)).length ≥ 944)

/-- One of the four adaptive proportion windows fails. -/
def windowsBad (bs : List Bool) : Bool := (List.range 4).any (fun i => proportionBad ((bs.drop (1024 * i)).take 1024))

/-- The raw octets of a window: a test pattern in force stands in for the source (R476). -/
def windowRaw (x : RngSrc) (raw : List Byte) (s : State) : List Byte :=
  match s.rng.pattern with
  | some p => (List.range 512).map (fun k => lget p ((x.patPos + k) % p.length) 0)
  | none => fit 512 raw

/-- How a window of a source in this state fails: 1 repetition count, 2 adaptive proportion, 0 not at all (R461). -/
def windowFail (x : RngSrc) (octs : List Byte) : Nat :=
  if (repetition (rawBits octs) x.lastBit x.run false).2.2 then 1 else if windowsBad (rawBits octs) then 2 else 0

/-- What a half of the conditioning core makes of a window: the first 256 bits of its SHA3-512, and the half's own error
(R462). -/
def condHalf (octs error : List Byte) : List Byte := List.zipWith (· ^^^ ·) (fit 32 (Config.hash 5 octs)) (fit 32 error)

/-- A health window of source i ends (R463, R469, R472, R473); `block` is what has been conditioned from it, none where the
core's halves disagree and the block is withheld. -/
def healthWindow (i : Nat) (octs : List Byte) (block : Option (List Byte)) (s : State) : State :=
  let x := lget s.rng.srcs i default
  let k := windowFail x octs
  let r := repetition (rawBits octs) x.lastBit x.run false
  let s := updRsrc i (fun x => { x with patPos := x.patPos + 512, lastBit := r.1, run := r.2.1 }) s
  if k ≠ 0 then healthFail i k s
  else if x.st = 1 then
    let s := match x.held with
      | some h => releaseBlock i h s
      | none => s
    firstSeed (updRsrc i (fun x => { x with held := block }) s)
  else rngResume i (updRsrc i (fun x => { x with st := 1 }) s)

/-- ENTROPY_TIMEOUT (R470, R471): 50 ms after power-up or reset without instance 0. -/
def execEntropyTimeout (s : State) : Host.Outcome State Fault Refusal :=
  .next <|
    if ¬rngSeeded s ∧ ¬s.rng.timedOut ∧ ¬s.rng.failed ∧ s.time.clock - s.rng.startAt ≥ 50000000 then
      let s := endDraws 0x0601 s
      fallbackValues (event 10 2 { s with rng := { s.rng with timedOut := true } })
    else s

/-- RNG_RESUME_TIMEOUT (R473): 50 ms after a failure without output. -/
def execRngResumeTimeout (s : State) : Host.Outcome State Fault Refusal :=
  .next <|
    if s.rng.st = 2 ∧ ¬s.rng.failed ∧ s.time.clock - s.rng.failAt ≥ 50000000 then event 10 2 (endDraws 0x0601 s) else s

/-- rng.get (R467): OUTLEN 1 to 65,536, LEN 0. -/
def rngGetRow : OpRow := { opc := 0x8001, who := 3, ctx := 0, inp := true, out := true, params := [] }
def rngGetPre (c : Cmd) : Option Nat :=
  firstFail [(cLen c != 0, 0x0106), (cOutLen c == 0 || decide (cOutLen c > 65536), 0x0106)]

/-- A draw ends at once where it can never be made (R470, R475); a draw that ends so is counted. -/
def drawCheck (_ : Cmd) (s : State) : Option Nat := drawRefused s

/-- One generate of OUTLEN octets on the caller's instance (R467). -/
def rngGetEff (c : Cmd) (s : State) : Eff :=
  let (o, s) := generate c.fn c.fn (cOutLen c) s
  { st := s, out := o }

/-- A command that draws: it waits while its instance can be ready later (R466, R470, R473), and a refused draw is
counted in RNG_FAULTED. -/
def withDraw (inst : Nat) (run : Cmd → State → State) (c : Cmd) (s : State) : State :=
  match drawRefused s with
  | some _ => if runnable s c then cntRng 4 1 (run c s) else s
  | none => if drawReady s inst then run c s else s

/-- RNG_GET (R394, R467, R468): generate work starts like other work of the cipher engine; the output is staged, and
ENGINE_WORK_DONE is the end of generation. -/
def execRngGet (c : Cmd) (s : State) : Host.Outcome State Fault Refusal :=
  .next (if mayRun s 2 4 c.fn || (drawRefused s).isSome then withDraw c.fn (runWork drawCheck rngGetEff) c s else s)

/-- rng.reseed (R467, R475): word 8 [0] leaves FAILED. -/
def rngReseedRow : OpRow := { opc := 0x8002, who := 3, ctx := 0, inp := false, out := false, params := [1] }

/-- The reseed leaves FAILED: from PF0 in SERVICE with word 8 bit 0 set (R475). -/
def leavesFailed (c : Cmd) (s : State) : Bool := s.rng.failed && c.fn == 0 && mode s == 4 && bit (cw c 8) 0

/-- The reseed of the caller's instance, or every source restarted. -/
def rngReseedEff (c : Cmd) (s : State) : Eff :=
  if leavesFailed c s then done (rngRestart { s with rng := { s.rng with failed := false, consec := 0, lastBad := none } })
  else if (drbgOf s c.fn).inst then done (reseed c.fn (updDrbg c.fn (fun d => { d with want := true }) s))
  else done (instantiate c.fn s)

/-- A reseed finds the blocks that it takes (R466). -/
def reseedReady (c : Cmd) (s : State) : Bool :=
  leavesFailed c s || (drawRefused s).isSome ||
  (s.rng.st == 1 && decide ((if (drbgOf s c.fn).inst then 1 else 2) ≤ s.rng.pool.length))

/-- Statuses of rng.reseed (R470, R475). -/
def rngReseedCheck (c : Cmd) (s : State) : Option Nat := if leavesFailed c s then none else drawRefused s

/-- RNG_RESEED (R467, R475): it waits for a block while the pool is empty. -/
def execRngReseed (c : Cmd) (s : State) : Host.Outcome State Fault Refusal :=
  .next (if reseedReady c s then
      (if (rngReseedCheck c s).isSome && runnable s c then cntRng 4 1 (runPlain rngReseedCheck rngReseedEff c s)
       else runPlain rngReseedCheck rngReseedEff c s)
    else s)

/-- rng.pattern (R476): 64 to 65,536 octets, or none to remove it. -/
def rngPatternRow : OpRow := { opc := 0x8003, who := 0, ctx := 0, inp := true, out := false, params := [] }
def rngPatternPre (c : Cmd) : Option Nat :=
  firstFail [(cLen c != 0 && (decide (cLen c < 64) || decide (cLen c > 65536)), 0x0106)]
def rngPatternEff (c : Cmd) (s : State) : Eff :=
  done { s with rng := { s.rng with pattern := if cLen c = 0 then none else some c.input
                                    srcs := s.rng.srcs.map (fun x => { x with patPos := 0 }) } }

/-- RNG_PATTERN (R476). -/
def execRngPattern (c : Cmd) (s : State) : Host.Outcome State Fault Refusal :=
  .next (runConfig noCheck rngPatternEff c s)

end Sys2Proof.Machine
end

