-- ==== Sys2Proof/Machine/Reset.lean ====
section
/-! DEFINITION. Reset.lean: function reset (R342 to R351), device reset (R339, R340), stopping and HALTED (R525, R550),
zeroization (R490, R551, R556), and START-UP (R594 to R598). -/
namespace Sys2Proof.Machine

/-- Withdraws the mailbox message of a token that has not been delivered (R343). -/
def withdrawMbox (tok : Nat) (s : State) : State :=
  { s with trowel := { s.trowel with progs := s.trowel.progs.map (fun e =>
      match e.2.inMsg with
      | some (_, _, t) => if t = tok then (e.1, { e.2 with inMsg := none }) else e
      | none => e) } }

/-- Ends an admitted command that has no journalled outcome: it leaves the deferred list, its message is withdrawn and
its PKE instance freed for wiping (R343). -/
def cancel (tok st : Nat) (s : State) : State :=
  let s := withdrawMbox tok { s with deferred := s.deferred.filter (· != tok) }
  let s := { s with pke := { s.pke with units := s.pke.units.map (fun u =>
    if u.busy && u.tok == tok then { u with busy := false, wiping := true } else u) } }
  settle tok st 0 [] s

/-- A subscription, or port configuration with associations, that has taken effect and waits for the rebuilt index (R139): its safe point is its end (R343). -/
def inRehash (j : JEntry) : Bool := j.started && (Cmd.opc j.cmd == 0x1003 || Cmd.opc j.cmd == 0x0030)

/-- The safe point of a command is reached at once: it has not started, or it waits on no engine (R343). -/
def safeAtOnce (j : JEntry) : Bool :=
  !j.started || (j.staged.isNone && !(decide (0x7000 ≤ Cmd.opc j.cmd ∧ Cmd.opc j.cmd < 0x8000)) && !inRehash j)

/-- The subscription under rebuild ends OK with the epoch that it created (R28, R139). -/
def endRehash (tok : Nat) (s : State) : State :=
  let e := ((s.skim.rehashFor.find? (fun e => e.1 == tok)).map (·.2)).getD s.sys.epoch
  let s := { s with skim := { s.skim with rehashFor := s.skim.rehashFor.filter (fun e => e.1 != tok) } }
  updJ tok (fun j => { j with outcome := j.outcome.map (fun o => { o with epoch := e }) }) (settle tok 0 0 [] s)

/-- Tokens of function f admitted and without an outcome. -/
def openToks (f : Nat) (s : State) : List Nat :=
  (s.journal.filter (fun e => e.2.cmd.fn == f && e.2.outcome.isNone)).map (·.1)

/-- A command whose admission the standby has not acknowledged was never admitted: it leaves no trace here or there (R31,
R38). -/
def dropUnadmitted (p : JEntry → Bool) (s : State) : State :=
  let gone (j : JEntry) : Bool := p j && !j.admAck
  let s := (s.journal.filter (fun e => gone e.2)).foldl (fun s e => mirrorItem (.released e.1) s) s
  { s with journal := s.journal.filter (fun e => !gone e.2) }

/-- Step 5 of R342: queues, rings, views and sessions of f are freed, and the epoch grows by one. -/
def releaseFn (f : Nat) (s : State) : State :=
  let s := ((s.skim.ctx.filter (fun x => x.2.kind == 7 && x.2.fn == f)).map (·.1)).foldl (fun s k => freeCtx k s) s
  let s := { s with
    journal := s.journal.filter (fun e => !(e.2.cmd.fn == f && e.2.written))
    hawk := { s.hawk with held := s.hawk.held.filter (fun h => h.fn != f), closing := s.hawk.closing.filter (fun h => h.fn != f) } }
  bumpMirrored (updFn f (fun x => { x with
    queues := List.replicate 16 default, rings := List.replicate 5 default }) s)

/-- Step 4 of R342: the engines forget what they hold for f's sessions and commands. -/
def wipeLanes (f : Nat) (s : State) : State :=
  let mine (l : EngLane) : Bool := l.client == 0x10000 + f || (l.client ≥ 0x5A00 && (ctxOf s l.client).any (fun x => x.fn == f))
  { s with eng := { s.eng with lanes := s.eng.lanes.map (fun l =>
      if mine l then { client := 0, tok := 0, regs := List.replicate l.regs.length 0 } else l) } }

/-- Steps 3 to 6 of R342, once every stopped command has reached its safe point. -/
def finishFnReset (f : Nat) (s : State) : State :=
  let s := wipeLanes f (ledgerFn f s)
  let (key, s) := freeOctets 32 s
  let s := updDrbg f (fun _ => default) (updFn f (fun x => { x with ctxKey := key }) s)
  let s := if drawReady s f then instantiate f s else s
  let s := updFn f (fun x => { x with fenced := false, evt := 0 }) (releaseFn f s)
  fnEvent f 3 0 (event 0 2 s)

/-- The reset of f has no command left that is on its way to a safe point. -/
def fnResetReady (f : Nat) (s : State) : Bool := (openToks f s).isEmpty

/-- A reset of function f (R342): fence, stop, and the rest once every safe point is reached. A request that meets a
reset in progress is absorbed (R350). -/
def functionReset (f : Nat) (s : State) : State :=
  if (fnOf s f).fenced then s
  else
    let s := dropUnadmitted (fun j => j.cmd.fn == f) { s with pair := { s.pair with asked := s.pair.asked.filter (fun c => c.fn != f) } }
    let s := updFn f (fun x => { x with
      fenced := true, cache := [], resetNo := (x.resetNo + 1) % 256
      queues := x.queues.map (fun q => if q.st = 0 then q else { q with st := 2, cause := 4, sqMap := [], cqMap := [] })
      rings := x.rings.map (fun r => { r with bufMap := [], ctlMap := [] }) }) s
    let s := (openToks f s).foldl (fun s t =>
      match jent s t with
      | some j => if safeAtOnce j then cancel t 0x0503 s else updJ t (fun j => { j with mark := .reset }) s
      | none => s) s
    if fnResetReady f s then finishFnReset f s else s

/-- The lifecycle record measured by MEAS8 (R611): lifecycle bits, tamper steps, owner epoch, security versions. -/
def lifecycle (s : State) : List Byte :=
  [BitVec.ofNat 8 (b2n s.fw.factoryDone), BitVec.ofNat 8 s.tamper.steps, BitVec.ofNat 8 s.keys.oepoch] ++
  s.fw.svns.map (BitVec.ofNat 8)

/-- Extends MEAS8 after a step has been blown (R611). -/
def measureLife (s : State) : State := measure 8 (Config.hash 5 (lifecycle s)) s

/-- Payloads and quorum measured by MEAS9 (R611). -/
def measureOfficers (s : State) : State :=
  measure 9 (Config.hash 5 ((List.range 9).flatMap (fun i => ((mget s.keys.slots (4 + i)).getD default).payload) ++
    [BitVec.ofNat 8 s.keys.quorum])) s

/-- The tamper configuration image (R561), as `svc.tamper` carries it. -/
def tamperImage (s : State) : List Byte :=
  leOctets 4 (1 + 256 * 18 + 65536 * s.tamper.bperiod.val.toNat) ++ s.tamper.srcs.flatMap (fun x => w32le x.cfg.val)

/-- Owner slots and slots 0x0003 and 0x000D become EMPTY (R490). -/
def wipeOwnerSlots (s : State) : State :=
  let keep (k : Nat) : Bool := decide (k < 0x10) && k != 3 && k != 0xD
  { s with keys := { s.keys with
    slots := s.keys.slots.filter (fun e => keep e.1), corrupt := s.keys.corrupt.filter keep } }

/-- BBKEK is erased: from then on KSK cannot be derived, and no owner key can be used (R490). -/
def eraseBbkek (s : State) : State := { s with keys := { s.keys with bbkek := none, ksk := none, keysOk := false } }

/-- Every port, queue pair, engine, Trowel core and DMA stops (R525, R550). -/
def stopDevice (s : State) : State :=
  let s := (List.range 8).foldl (fun s n => portDisable n s) s
  { s with
    eng := { s.eng with stopped := true }
    pke := { s.pke with stopped := true }
    trowel := { s.trowel with running := List.replicate 64 none, ready := List.replicate 64 [] }
    hawk := { s.hawk with closing := [] } }

/-- HALTED: announcement, stop, mode (R550, R591). -/
def enterHalted (s : State) : State :=
  if isStopped s then s
  else
    let was := mode s
    let s := enterMode 5 (stopDevice (announceFailure 1 s))
    if was = 0 then rngRestart s else s

/-- Blows one step of the tamper counter, or records it as pending while VAUX is out of its limits (R556). -/
def advanceTamper (src : Nat) (s : State) : State :=
  if s.tamper.vauxOk then measureLife { s with tamper := { s.tamper with steps := min 64 (s.tamper.steps + 1) } }
  else { s with tamper := { s.tamper with pending := some src } }

/-- ZEROIZE_STEP record (R621). -/
def zeroizeLog (step src : Nat) (s : State) : State := logEv 0x0122 7 [BitVec.ofNat 64 (step + 256 * src)] s

/-- Evidence of a zeroizing alarm, TMP_LASTZ (R551, R562). -/
def lastzWord (s : State) (src : Nat) (backup owed : Bool) : W32 :=
  pack [(src, 0), (mode s, 5), (b2n backup, 9), (b2n s.sys.startup, 10), (b2n owed, 11), (1, 12)]

/-- Steps 1 and 2 of R551. -/
def zeroizeTwo (src : Nat) (s : State) : State :=
  let owed := s.keys.bbkek.isSome
  let s := zeroizeLog 1 src (eraseBbkek s)
  zeroizeLog 2 src { s with tamper := { s.tamper with
    sticky := setBit s.tamper.sticky src, lastz := lastzWord s src false owed } }

/-- ZEROIZE in full, in the order of R551. -/
def zeroize (src : Nat) (s : State) : State :=
  let owed := s.keys.bbkek.isSome
  let s := zeroizeTwo src s
  let next := if s.tamper.steps + b2n owed ≥ 64 then 7 else 6
  let s := zeroizeLog 3 src (announceFailure (if next = 7 then 3 else 2) s)
  let s := zeroizeLog 4 src (stopDevice s)
  let s := zeroizeLog 5 src (if owed then advanceTamper src s else s)
  let s := zeroizeLog 6 src (wipeOwnerSlots s)
  let s := { s with sys := { s.sys with startup := false } }
  zeroizeLog 7 src (enterMode (if s.tamper.steps ≥ 64 then 7 else 6) s)

/-- Host sessions are gone after a device reset (R412), and so are DRAINING contexts, whose last frame is gone (R135, R295). -/
def dropSessions (s : State) : State :=
  let gone := s.skim.ctx.filter (fun x => x.2.kind == 7 || (decide (x.2.kind ≤ 5) && x.2.st == 2))
  { s with
    skim := { s.skim with ctx := s.skim.ctx.filter (fun x => !(x.2.kind == 7 || (decide (x.2.kind ≤ 5) && x.2.st == 2))) }
    publ := { s.publ with templates := s.publ.templates.filter (fun t => !gone.any (fun x => x.1 == t.1 + 0x5000)) } }

/-- A program that has been stopped by a device reset: idle, released from RESTART (R234, R340). -/
def idleProg (p : Prog) : Prog :=
  { p with phase := .idle, restartNext := true, inMsg := none, raised := [], latches := [], stopped := false, cause := 0 }

/-- What a device reset leaves of the registers and of the state that is not kept (R14, R340). -/
def resetRegisters (s : State) : State :=
  let c := s.time.clock
  { s with
    sys := { Sys.reset with
      mode := s.sys.mode, devnum := s.sys.devnum, gateway := s.sys.gateway, epoch := s.sys.epoch
      epochTop := s.sys.epochTop, token := s.sys.token, tokenTop := s.sys.tokenTop, ideReq := s.sys.ideReq
      held := s.sys.held, hostAt := s.sys.hostAt }
    fns := (List.range 65).map (fun f =>
      let x := fnOf s f
      { Fn.reset f with
        rootBound := x.rootBound, root := x.root, rootInv := x.rootInv, ledger := x.ledger, unread := x.unread
        sheetKey := x.sheetKey, resetNo := (x.resetNo + 1) % 256
        rings := x.rings.map (fun r => { (default : Ring) with view := r.view, tracker := r.tracker }) })
    deferred := []
    time := { TimeUnit.reset with
      clock := c, prio := s.time.prio, revert := s.time.revert, qualLim := s.time.qualLim, stepLim := s.time.stepLim
      holdLim := s.time.holdLim, drift := s.time.drift, domains := s.time.domains, utcCfg := s.time.utcCfg
      bps := s.time.bps.map (fun b => { (default : BpTime) with mrate := b.mrate })
      trk := s.time.trk.map (fun t => { (default : Tracker) with
        prim := t.prim, altRef := t.altRef, arm := t.arm, coastN := t.coastN, hz60 := t.hz60, st := if t.prim.isSome then 1 else 0 }) }
    ports := List.replicate 8 Port.reset
    bpcfg := s.bpcfg.map (fun b => { b with supAt := none })
    skim := { (default : Skim) with
      ctx := s.skim.ctx.map (fun x => (x.1, { x.2 with pub := { x.2.pub with inFlight := 0 } }))
      gens := s.skim.gens, cnt := List.replicate 22 0 }
    hawk := { Hawk.reset with
      depth := s.hawk.depth, region := s.hawk.region
      groups := s.hawk.groups.map (fun g => { g with closed := none })
      trigs := s.hawk.trigs.map (fun t => { t with runLen := 0, fires := [] })
      recNum := s.hawk.recNum, recTop := s.hawk.recTop, notices := s.hawk.notices }
    trowel := { s.trowel with
      progs := s.trowel.progs.map (fun e => (e.1, idleProg e.2))
      running := List.replicate 64 none, ready := List.replicate 64 [], spareShort := false, evt := 0, retired := []
      cnt := List.replicate 12 0, unloading := [] }
    publ := { s.publ with pend := [], taken := [], heldTx := [] }
    eng := { (default : Engines) with lanes := List.replicate 40 default, cnt := List.replicate 6 0, mismatch := s.eng.mismatch }
    pke := { (default : Pke) with
      units := List.replicate 4 { (default : PkeUnit) with owner := 0x7F }, cnt := List.replicate 5 0
      mismatch := s.pke.mismatch, sigCount := s.pke.sigCount }
    rng := { Rng.reset with
      failed := s.rng.failed, consec := s.rng.consec, startAt := c
      srcs := List.replicate 4 { (default : RngSrc) with st := if s.rng.failed then 3 else 0 } }
    keys := { s.keys with keysOk := false, kik := none, ksk := none, resvFault := false, nonce := none, evt := 0, cnt := List.replicate 4 0 }
    sealer := { s.sealer with
      hbmOk := false, stack := 0, fast := false, inserv := 0, evt := 0, ppcAt := none, fixedRows := [], dueRows := []
      cnt := List.replicate 9 0 ++ [lget s.sealer.cnt 9 0]
      vol := { s.sealer.vol with gib := 0, reqs := [], jobs := [], posted := 0, recover := false, stall := false, dir := [], tags := [] } }
    tamper := { s.tamper with
      armed := false, advBlocked := false, running := false, evt := 0
      srcs := s.tamper.srcs.map (fun x => { x with alarms := 0, events := [] }) }
    pair := { Pair.reset with
      paired := s.pair.paired, pairId := s.pair.pairId, partner := s.pair.partner, link := s.pair.link
      signSlot := s.pair.signSlot, verSlot := s.pair.verSlot, silence := s.pair.silence, hbAddr := s.pair.hbAddr
      hbTag := s.pair.hbTag
      genExh := s.pair.genExh, gen := s.pair.gen }
    span := { Span.reset with
      topo := s.span.topo, ringN := s.span.ringN, x := s.span.x, y := s.span.y
      links := s.span.links.map (fun l => { (default : SpanLink) with cnt := [0, 0, 0, 0], pair := l.pair, keySlot := l.keySlot })
      routes := s.span.routes, rxSeq := s.span.rxSeq, txSeq := s.span.txSeq, foreign := s.span.foreign, late := s.span.late }
    log := { s.log with evt := 0 }
    budget := { Budget.reset with table := s.budget.table, tableInv := s.budget.tableInv, wait := s.budget.wait, tepoch := s.budget.tepoch }
    fw := { s.fw with meas := List.replicate 16 (List.replicate 64 0), putty := none, shadow := [] }
    injected := [] }

/-- A device reset (R339, R340) up to START-UP: every function fenced and settled, ledgers written, state lost. -/
def deviceReset (s : State) : State :=
  let s := dropUnadmitted (fun _ => true) s
  let open_ := (s.journal.filter (fun e => e.2.outcome.isNone)).map (·.1)
  let s := open_.foldl (fun s t => if (jent s t).any inRehash then endRehash t s else cancel t 0x0503 s) s
  let s := (List.range 65).foldl (fun s f => ledgerFn f s) s
  let s := { s with journal := s.journal.filter (fun e => !e.2.written) }
  resetRegisters (dropSessions (if s.time.ppsOut then emit (.pps false) s else s))

/-- What power-up loses besides (R516): all that lives in HBM, and the settings that no rule keeps (log 18). -/
def powerLoss (s : State) : State :=
  { s with
    journal := [], fns := s.fns.map (fun x => { x with ledger := [], unread := false, rootBound := false, root := 0, rootInv := ~~~(0 : W64), sheetKey := none })
    skim := { (default : Skim) with cnt := List.replicate 22 0 }
    rng := { s.rng with consec := 0 }
    hawk := { Hawk.reset with recNum := s.hawk.recTop, recTop := s.hawk.recTop + 1048576 }
    trowel := { s.trowel with progs := [], derived := [], retired := [] }
    publ := default
    span := { s.span with routes := [], rxSeq := [], txSeq := [], foreign := [], late := [] }
    time := { TimeUnit.reset with clock := s.time.clock }
    bpcfg := List.replicate 4 BpCfg.reset
    budget := Budget.reset
    sys := { s.sys with ideReq := false, epoch := s.sys.epochTop, epochTop := s.sys.epochTop + 1048576, token := s.sys.tokenTop, tokenTop := s.sys.tokenTop + 1048576 }
    sealer := { s.sealer with regs := List.replicate 10 default, mdc := [], metaFrames := [], vol := { s.sealer.vol with tepoch := s.sealer.vol.tepoch + 1 } } }

end Sys2Proof.Machine
end

