-- ==== Sys2Proof/Machine/Rings.lean ====
section
/-! DEFINITION. Rings.lean: sheet rings and event rings (R193 to R204): rows as octets, the ring MAC, writing an entry,
a ring that stops, and sheet.key, sheet.ring, sheet.view, and the write of a consumer index. -/
namespace Sys2Proof.Machine

/-- A row as 64 octets (R191). -/
def rowOctets (r : Row) : List Byte :=
  leOctets 2 r.stream ++ leOctets 2 (r.sub % 256 + 256 * (r.rstat % 16)) ++
  leOctets 4 (r.srcf % 65536 + 65536 * (r.prov % 4) + 262144 * b2n r.lanb + 524288 * (r.sync % 4)) ++ leOctets 8 r.xsmp ++
  (List.range 8).flatMap (fun i => w32le (lget r.vals i 0)) ++
  (List.range 8).flatMap (fun i => leOctets 2 (lget r.qual i 0).toNat)

/-- Units U of a ring's buffer (R200). -/
def ringUnits (r : Ring) : Nat := 2 ^ (r.m - 6)

/-- Free space in units (R203). -/
def ringFree (r : Ring) : Nat := ringUnits r - (r.prod + 4294967296 - r.cons.toNat) % 4294967296

/-- The ring's MAC key KR (R193). -/
def ringKey (s : State) (f ring : Nat) (r : Ring) : List Byte :=
  match (fnOf s f).sheetKey with
  | some k => Config.kmac 11 (slotKey s k) (r.salt ++ [BitVec.ofNat 8 f, BitVec.ofNat 8 ring]) 32 (text "VK9612 ring key")
  | none => []

/-- The MAC of an entry that starts at an index: GMAC over octets 0x00 to 0x2F and the body (R194). -/
def entryMac (s : State) (f ring : Nat) (r : Ring) (idx : Nat) (head body : List Byte) : List Byte :=
  fit 16 (Config.tag 4 (ringKey s f ring r) ([0, 0, 0, 0] ++ leOctets 8 idx) (head ++ body) [])

/-- The control block (R201). -/
def controlBlock (f ring : Nat) (r : Ring) : List Byte :=
  leOctets 8 r.prod ++ leOctets 8 r.lastSlot ++ fit 16 r.salt ++
  leOctets 4 (f % 128 + 256 * (ring % 8) + 65536 * b2n r.stopped + 131072 * b2n r.badCons) ++ leOctets 4 (ringUnits r) ++
  leOctets 8 r.missed ++ leOctets 8 r.epoch ++ leOctets 8 0

/-- Writes a ring's control block where DMA is allowed (R201, R337); without a host attachment the gateway does (R644). -/
def writeControl (f ring : Nat) (s : State) : State :=
  let r := ringOf s f ring
  if s.sys.gateway && dmaOk s f && !r.ctlMap.isEmpty then
    emits (dmaWrites f r.ctlMap r.ctl (controlBlock f ring r)) (pinnedLookup f s) else s

/-- A ring stops: STOPPED where the control block is still reachable, HWK_EVT.RING_FAULT, VFS_EVT.RING_FAULT (R204). -/
def stopRing (f ring : Nat) (reach : Bool) (s : State) : State :=
  if (ringOf s f ring).active && !(ringOf s f ring).stopped then
    let s := updRing f ring (fun r => { r with stopped := true }) s
    let s := if reach then writeControl f ring s else s
    fnEvent f 2 ring (event 6 6 s)
  else s

/-- The device's own host attachment holds the ring (R644): otherwise its entries travel to the gateway. -/
def ringSend (f ring : Nat) (slot : Nat) (addr : Nat) (octs : List Byte) (s : State) : State :=
  if s.sys.gateway then emits (dmaWrites f (ringOf s f ring).bufMap addr octs) s
  else sendPacket 0 (if ring = 4 then 4 else 3) (f + 256 * ring + 65536 * slot) octs s

/-- The MAC and the write of an entry are work of class ALIGN (R179, R385). -/
def entryWork (f ring : Nat) (entry : List Byte) (s : State) : State :=
  openWork 2 entry.length 1 1 (engineWork 2 1 0 (gmacCycles entry.length) 2 0 (ringKey s f ring (ringOf s f ring)) s)

/-- Writes an entry of whole units at PROD, continuing at the buffer's base, then PROD, then the MSI-X message (R200,
R202). The caller has checked the room. -/
def putEntry (f ring slot : Nat) (entry : List Byte) (s : State) : State :=
  let s := entryWork f ring entry s
  let r := ringOf s f ring
  let u := ringUnits r
  let at_ := r.prod % u * 64
  let first := entry.take (u * 64 - at_)
  let rest := entry.drop (u * 64 - at_)
  let s := ringSend f ring slot (r.buf + at_) first (pinnedLookup f s)
  let s := if rest.isEmpty then s else ringSend f ring slot r.buf rest s
  let s := updRing f ring (fun r => { r with prod := r.prod + entry.length / 64, full := false }) s
  let s := writeControl f ring s
  if r.vecEn && s.sys.gateway then emit (.msix f r.vec) s else s

/-- Slots of sheets of a ring that wait for the gateway (R645). -/
def sheetsWaiting (s : State) (f ring : Nat) : Nat :=
  let ks := s.span.links.flatMap (fun l => l.unacked ++ l.waiting)
  ((ks.filter (fun k => k.ptype == 3 && k.arg.toNat % 65536 == f + 256 * ring)).map (fun k => k.arg.toNat / 65536)).eraseDups.length

/-- A ring can take n units: it exists, runs, has the room, and its function may use DMA (R45, R161, R337); a device that
holds 64 slots of sheets for it has no room (R645). -/
def ringTakes (s : State) (f ring n : Nat) : Bool :=
  let r := ringOf s f ring
  r.active && !r.stopped && dmaOk s f && decide (n ≤ ringFree r) && !r.bufMap.isEmpty &&
  (s.sys.gateway || decide (sheetsWaiting s f ring < 64))

/-- Writes an entry of an event ring: head of 48 octets with LOST at [0x06], body without padding (R160, R161, R194,
R214, R243). An entry that finds no room is counted; a standby writes none (R575). -/
def writeEvent (f : Nat) (head body : List Byte) (s : State) : State :=
  if !publishes s then s
  else
    let r := ringOf s f 4
    let n := 1 + (body.length + 63) / 64
    if ringTakes s f 4 n then
      let h := head.take 6 ++ leOctets 2 r.lost ++ head.drop 8
      let mac := entryMac s f 4 r r.prod h body
      updRing f 4 (fun r => { r with lost := 0 }) (putEntry f 4 0 (h ++ mac ++ padTo 64 body) s)
    else
      let s := updRing f 4 (fun r => if r.active then { r with lost := min 65535 (r.lost + 1), missed := r.missed + 1, full := true } else r) s
      event 5 11 (cntSkim 21 1 s)

/-- Sub-samples per slot of an SV stream under its bus pair's master rate, 1 for the others (R185, R187). -/
def svRate : Nat → Nat
  | 0 => 4000
  | 1 => 4800
  | 2 => 12800
  | 3 => 14400
  | _ => 96000
def subsOf (s : State) (x : Ctx) : Nat :=
  let m := slotRate s x.bp
  let r := svRate x.sv.rate
  if r > m then r / m else 1

/-- Rows of a view, as (row identifier, sub-sample), in view order (R185, R187). -/
def viewRows (s : State) (view : List Nat) : List (Nat × Nat) :=
  view.flatMap (fun id =>
    if id < 0x8000 then
      match ctxOf s id with
      | some x => (List.range (subsOf s x)).map (fun k => (id, k))
      | none => []
    else [(id, 0)])

/-- sheet.key (R193): CTX key slot; word 8 function. -/
def sheetKeyRow : OpRow := { opc := 0x2003, who := 0, ctx := 0xFFFF, inp := false, out := false, params := [0x7F] }
def sheetKeyPre (c : Cmd) : Option Nat := firstFail [(decide ((cw c 8).toNat > 64), 0x0106)]

/-- The slot holds a usable AES-256 or 32-octet SIGN_ONLY key (R193). -/
def sheetKeyCheck (c : Cmd) (s : State) : Option Nat :=
  match slotFail s (cCtx c) [4] with
  | some st => some st
  | none => if (slotKey s (cCtx c)).length = 32 then none else some 0x0303

def sheetKeyEff (c : Cmd) (s : State) : Eff :=
  done (updFn (cw c 8).toNat (fun x => { x with sheetKey := some (cCtx c) }) s)

/-- SHEET_KEY (R193). -/
def execSheetKey (c : Cmd) (s : State) : Host.Outcome State Fault Refusal :=
  .next (runConfig sheetKeyCheck sheetKeyEff c s)

/-- sheet.ring (R198, R373): words 8 and 9 buffer, 10 and 11 control block, word 12 m, vector and enable, word 14 function. -/
def sheetRingRow : OpRow :=
  { opc := 0x2004, who := 1, ctx := 0x7, inp := false, out := false
    params := [0xFFFFFFFF, 0xFFFFFFFF, 0xFFFFFFFF, 0xFFFFFFFF, 0x1FF1F, 0, 0x7F] }

/-- R198, R318: fields outside their ranges. -/
def sheetRingPre (c : Cmd) : Option Nat :=
  let m := bits (cw c 12) 4 0
  let f := (cw c 14).toNat
  firstFail
    [(decide (f > 64), 0x0106),
     (m != 0 && (decide (m < 16) || decide (m > 30)), 0x0106),
     (m != 0 && (cw64 c 8 % 4096 != 0 || cw64 c 10 % 64 != 0), 0x0106),
     (bit (cw c 12) 16 && decide (f ≠ 0) && decide (bits (cw c 12) 15 8 > 31), 0x0106)]

/-- Key, geometry and translation (R196, R199, R331), for a creation or reset; a deletion needs none of them. -/
def sheetRingCheck (c : Cmd) (s : State) : Option Nat :=
  let m := bits (cw c 12) 4 0
  let f := (cw c 14).toNat
  if cCtx c > 4 then some 0x0705
  else if m = 0 then none
  else
    let view := (ringOf s f (cCtx c)).view
    match (match (fnOf s f).sheetKey with
      | none => some 0x0301
      | some k => slotFail s k [4]) with
    | some st => some st
    | none => firstFail
      [(cCtx c != 4 && !view.isEmpty && decide (2 * 64 * (1 + (viewRows s view).length) > 2 ^ m), 0x0506),
       ((lget c.maps 0 none).isNone || (lget c.maps 1 none).isNone, 0x0802),
       (((lget c.maps 0 none).getD []).length > 64 || ((lget c.maps 1 none).getD []).length > 64, 0x0506),
       ((drawRefused s).isSome, (drawRefused s).getD 0)]

/-- The ring is created, reset with a new salt and index 0, or deleted with its view (R195, R198, R200, R201). A device
without a host attachment returns the salt to the gateway, which writes the control block (R644, log 53). -/
def sheetRingEff (c : Cmd) (s : State) : Eff :=
  let m := bits (cw c 12) 4 0
  let f := (cw c 14).toNat
  let n := cCtx c
  let s := { s with hawk := { s.hawk with held := s.hawk.held.filter (fun h => !(h.fn == f && h.ring == n)) } }
  if m = 0 then done (updRing f n (fun _ => default) s)
  else
    let (salt, s) := generate c.fn 0 16 s
    let s := updRing f n (fun r => { (default : Ring) with
      active := true, m := m, buf := cw64 c 8, ctl := cw64 c 10
      bufMap := toExtents ((lget c.maps 0 none).getD []), ctlMap := toExtents ((lget c.maps 1 none).getD [])
      vec := bits (cw c 12) 15 8, vecEn := bit (cw c 12) 16, salt := salt, view := r.view, tracker := r.tracker
      first := true, epoch := s.sys.epoch + 1 }) s
    { st := writeControl f n (mirrorItem (.salt f n salt) s), out := if s.sys.gateway then [] else salt }

/-- SHEET_RING (R195, R198): a creation waits for its salt like any draw. -/
def execSheetRing (c : Cmd) (s : State) : Host.Outcome State Fault Refusal :=
  .next (if bits (cw c 12) 4 0 = 0 then runConfig sheetRingCheck sheetRingEff c s
         else withDraw 0 (runConfig sheetRingCheck sheetRingEff) c s)

/-- sheet.view (R197): CTX ring 0 to 3, word 8 tracker, word 14 function; input: row identifiers. -/
def sheetViewRow : OpRow :=
  { opc := 0x2005, who := 0, ctx := 0x3, inp := true, out := false, params := [0x7, 0, 0, 0, 0, 0, 0x7F] }
def sheetViewPre (c : Cmd) : Option Nat :=
  firstFail [(decide ((cw c 14).toNat > 64), 0x0106), (cLen c % 2 != 0 || cLen c == 0, 0x0106)]

/-- Row identifiers of the input. -/
def viewIds (c : Cmd) : List Nat := (List.range (cLen c / 2)).map (fun i => field c.input (2 * i) 2)

/-- Streams are SV subscriptions and derived rows are in range (log 19), one grid (R21), row limit (R187), ring size
(R199). A derived row that no program produces yet passes the grid check, and a program bound later may give it a home of
another master rate: the view then mixes grids (DESIGN CHOICE, log 96). -/
def sheetViewCheck (c : Cmd) (s : State) : Option Nat :=
  let ids := viewIds c
  let bps := ids.filterMap (fun id => (rowHome s id).map (·.1)) ++ (if bit (cw c 8) 0 then [bits (cw c 8) 2 1] else [])
  let n := (viewRows s ids).length
  let r := ringOf s (cw c 14).toNat (cCtx c)
  firstFail
    [(ids.any (fun id => if id < 0x8000 then
        (match ctxOf s id with | some x => (x.kind != 1 && x.kind != 3) || x.st == 2 | none => true) else decide (id > 0x8FFF)), 0x0705),
     (bps.any (fun b => (bpOf s b).mrate != (bpOf s (lget bps 0 0)).mrate), 0x0701),
     (decide (n > 4096), 0x070B),
     (r.active && decide (2 * 64 * (1 + n) > 2 ^ r.m), 0x0506)]

def sheetViewEff (c : Cmd) (s : State) : Eff :=
  done (updRing (cw c 14).toNat (cCtx c) (fun r => { r with
    view := viewIds c, tracker := if bit (cw c 8) 0 then some (bits (cw c 8) 2 1) else none }) s)

/-- SHEET_VIEW (R197). -/
def execSheetView (c : Cmd) (s : State) : Host.Outcome State Fault Refusal :=
  .next (runConfig sheetViewCheck sheetViewEff c s)

/-- A write of Rr_CONS (R203, R204, R342): a value that would make PROD − CONS exceed U is ignored with BADCONS set, which a
stopped ring no longer writes; a function
that is fenced, or a ring that does not exist, ignores the write. -/
def writeCons (f ring : Nat) (v : W32) (s : State) : State :=
  let r := ringOf s f ring
  if !r.active || (fnOf s f).fenced then s
  else if (r.prod + 4294967296 - v.toNat) % 4294967296 > ringUnits r then
    let s := updRing f ring (fun r => { r with badCons := true }) s
    event 6 5 (if r.stopped then s else writeControl f ring s)
  else updRing f ring (fun r => { r with cons := v }) s

/-- RING_CONS_WRITE (R203); without a host attachment it stands for the index that the gateway passes on (log 53). -/
def execRingConsWrite (f ring : Nat) (v : W32) (s : State) : Host.Outcome State Fault Refusal :=
  .next (if s.sys.gateway then barWrite f (writeCons f ring v) s else writeCons f ring v s)

end Sys2Proof.Machine
end

