-- ==== Sys2Proof/Machine/Rows.lean ====
section
/-! DEFINITION. Rows.lean: Hawk's history and rows (R166 to R171, R182 to R192), the rows of a slot once fixed, and
triggers and the records they open (R205 to R208, R211). -/
namespace Sys2Proof.Machine

/-- Eight values or quality words that are all the same. -/
def eight {α : Type} (a : α) : List α := List.replicate 8 a

/-- A row without a sample and without a substitute (R180, R181, R183). -/
def missingRow (id sub xsmp : Nat) : Row :=
  { stream := id, sub := sub, rstat := 2, srcf := 0, prov := 0, lanb := false, sync := 0, xsmp := xsmp, vals := eight 0
    qual := eight 0xC001 }

/-- Slots between two nominal samples of a stream, 1 at the master rate and above (R76). -/
def divOf (s : State) (x : Ctx) : Nat :=
  let m := slotRate s x.bp
  let r := svRate x.sv.rate
  if m > r then m / r else 1

/-- Slot and sub-sample of an extended sample number (R76). -/
def placeOf (s : State) (x : Ctx) (n : Nat) : Nat × Nat :=
  if divOf s x > 1 then (n * divOf s x, 0) else (n / subsOf s x, n % subsOf s x)

/-- The extended sample number that a slot's sub-sample stands for (R76; log 22). -/
def sampleOf (s : State) (x : Ctx) (slot sub : Nat) : Nat :=
  if divOf s x > 1 then slot / divOf s x else slot * subsOf s x + sub

/-- Slots of history that bus pair b keeps (R168). -/
def histSlots (s : State) (b : Nat) : Nat := s.hawk.depth * slotRate s b / 1000

/-- Key of a history entry. -/
def histKey (slot sub : Nat) : Nat := slot * 256 + sub

/-- The history entry of a row for a slot (R166); none where nothing was written or the ring has moved on. -/
def histGet (s : State) (id slot sub : Nat) : Option Row := mget (mgetD s.hawk.hist id []) (histKey slot sub)

/-- Writes a history entry: the ring overwrites what is older than its depth (R166, R168); the write is work of class INGRESS
(R385). -/
def histPut (b id slot sub : Nat) (r : Row) (s : State) : State :=
  let old := (mgetD s.hawk.hist id []).filter (fun e => decide (slot < e.1 / 256 + histSlots s b))
  openWork 4 0 6 0 { s with hawk := { s.hawk with hist := mset s.hawk.hist id (mset old (histKey slot sub) r) } }

/-- The history of a row is given up. -/
def histDrop (id : Nat) (s : State) : State := { s with hawk := { s.hawk with hist := mdel s.hawk.hist id } }

/-- Sets a source flag of a stream for its next fixed row (R192). -/
def flagSrc (k f : Nat) (s : State) : State :=
  { s with hawk := { s.hawk with srcf := mset s.hawk.srcf k (mgetD s.hawk.srcf k 0 ||| 2 ^ f) } }

/-- Bytes that a row rate reserves in the history region at a depth (R169), per 1,000 ms. -/
def histBytes (rate depth : Nat) : Nat := 64 * rate * depth / 1000

/-- Bytes of the history region that are reserved at a depth (R169). -/
def histReserved (s : State) (depth : Nat) : Nat :=
  ((s.skim.ctx.filter (fun e => isSvKind e.2.kind)).map (fun e => histBytes (svRate e.2.sv.rate) depth)).sum +
  (s.trowel.derived.map (fun e => histBytes (slotRate s (match rowHome s (0x8000 + e.1) with | some h => h.1 | none => 0)) depth)).sum

/-- Bytes of the history region (R166, R170). -/
def histRegion (s : State) : Nat := s.hawk.region * 1048576

/-- Class of smpSynch (R191). -/
def syncClass (n : Nat) : Nat := if n = 0 then 0 else if n = 1 ∨ (5 ≤ n ∧ n ≤ 254) then 1 else if n = 2 then 2 else 3

/-- Channel value and IEC quality bits of an ASDU (R155, R156, R182): wire order; bits above 12 are ignored. -/
def chanValue (x : Ctx) (a : Asdu) (i : Nat) : W32 :=
  let o := lget x.sv.voff i 0xFFFF
  if o = 0xFFFF then 0 else BitVec.ofNat 32 (beNat (octets a.data o 4))
def chanQual (x : Ctx) (a : Asdu) (origin i : Nat) : W16 :=
  if lget x.sv.voff i 0xFFFF = 0xFFFF then 0xC001
  else BitVec.ofNat 16 (beNat (octets a.data (lget x.sv.qoff i 0) 4) % 8192 + 8192 * origin)

/-- The row of a received sample: VALID, or LATE with its ORIGIN (R180, R188). -/
def sampleRow (k : Nat) (x : Ctx) (n sub : Nat) (a : Asdu) (lanB late : Bool) : Row :=
  { stream := k, sub := sub, rstat := if late then 7 else 0, srcf := 0, prov := x.auth, lanb := lanB
    sync := syncClass a.smpSynch, xsmp := n
    vals := (List.range 8).map (chanValue x a), qual := (List.range 8).map (chanQual x a (if late then 5 else 0)) }

/-- Group g of bus pair b. -/
def groupOf (s : State) (b g : Nat) : Group := lget s.hawk.groups (16 * b + g) default

/-- The group closes no further slot up to this one: it has closed it, or it began after it. -/
def closedThrough (s : State) (b g slot : Nat) : Bool :=
  match (groupOf s b g).closed with
  | some (n, _) => decide (slot ≤ n)
  | none => false

/-- The closing sequence of a slot of the group has started (R175, R188); before its first one there is no instant. -/
def groupClosed (s : State) (b g slot : Nat) : Bool :=
  match (groupOf s b g).closed with
  | some (n, at_) => decide (slot ≤ n) && at_ != 0
  | none => false

/-- Stores an accepted sample: EARLY beyond 64 slots (R171), LATE once its group has closed the slot (R188), else the
row of its slot. `copy` is its place in the duplicate table, where a second copy can still come (R192). -/
def storeSample (k : Nat) (x : Ctx) (n : Nat) (a : Asdu) (lanB : Bool) (copy : Option (Nat × Nat)) (s : State) : State :=
  let (slot, sub) := placeOf s x n
  if slot > curSlot s x.bp + 64 then flagSrc k 9 (event 6 1 (cntHawk 5 1 s))
  else if groupClosed s x.bp x.sv.group slot then
    flagSrc k 7 (cntHawk 4 1 (histPut x.bp k slot sub (sampleRow k x n sub a lanB true) s))
  else
    let s := histPut x.bp k slot sub (sampleRow k x n sub a lanB false) s
    match copy with
    | some (src, seq) => { s with hawk := { s.hawk with single := (x.bp, src, seq, k, slot) :: s.hawk.single } }
    | none => s

/-- The rows that a group, or its programs, fixed for a slot (R180, R237). -/
def fixedRows (s : State) (b part slot : Nat) : Option (List Row) :=
  (s.hawk.fixed.find? (fun f => f.bp == b && f.part == part && f.slot == slot)).map (·.rows)

/-- One row as fixed for a slot: of a stream by its group, of a derived row by the group of its program. -/
def fixedRow (s : State) (id sub slot : Nat) : Option Row :=
  match rowHome s id with
  | some (b, g) =>
    match fixedRows s b (if id < 0x8000 then g else 16 + g) slot with
    | some rs => rs.find? (fun r => r.stream == id && r.sub == sub)
    | none => none
  | none => none

/-- Records fixed rows, 64 slots of them at most for one bus pair and part (R574). -/
def putFixed (b part slot : Nat) (rows : List Row) (s : State) : State :=
  let old := s.hawk.fixed.filter (fun f => !(f.bp == b && f.part == part && (f.slot == slot || decide (f.slot + 64 ≤ slot))))
  { s with hawk := { s.hawk with fixed := ⟨b, part, slot, rows⟩ :: old } }

/-- The next record number (R211, R29), mirrored (R568). -/
def nextRecnum (s : State) : Nat × State :=
  let n := s.hawk.recNum + 1
  let s := { s with hawk := { s.hawk with
    recNum := n, recTop := if n < s.hawk.recTop then s.hawk.recTop else s.hawk.recTop + 1048576 } }
  (n, if mirrors s then emit (.pair (.mirror (.recnum n))) s else s)

/-- Trigger number t. -/
def trigOf (s : State) (t : Nat) : Trigger := lget s.hawk.trigs t default

/-- Changes trigger t. -/
def updTrig (t : Nat) (g : Trigger → Trigger) (s : State) : State :=
  { s with hawk := { s.hawk with trigs := lupd s.hawk.trigs t g } }

/-- Records open or being copied, and those whose sectors are not all written (R208, R539). -/
def openRecs (s : State) : List Rec := s.hawk.recs

/-- Opens a record from slot `first`, or counts a dropped firing (R206, R208, R211). -/
def openRec (t slot first source : Nat) (data : List Byte) (s : State) : State :=
  let g := trigOf s t
  let full := decide ((openRecs s).length ≥ 16)
  let (n, s) := nextRecnum s
  if full then event 6 3 (cntHawk 9 1 s)
  else { s with hawk := { s.hawk with recs := s.hawk.recs ++ [{
    num := n, trig := t, trigSlot := slot, first := first, last := slot + g.post, source := source
    trigData := fit 32 data, bp := g.bp, rows := g.rows, mrate := (bpOf s g.bp).mrate, epoch := s.sys.epoch
    gen := if s.pair.paired then s.pair.gen else 0, tstate := s.time.tstate, copying := false, truncated := false
    body := [], posted := none }] } }

/-- Fires trigger t with trigger slot T (R205, R206): once per slot; an open record whose window holds T grows up to
MAXLEN slots, and a firing beyond it opens a record after that one (log 23). Only the member that publishes cuts records
(log 24). -/
def fireTrig (t slot source : Nat) (data : List Byte) (s : State) : State :=
  let g := trigOf s t
  if !publishes s || g.fires.contains slot then s
  else
    let s := updTrig t (fun g => { g with fires := slot :: g.fires }) (event 6 4 (cntHawk 7 1 s))
    let mine (r : Rec) : Bool := r.trig == t && !r.copying && r.posted.isNone
    if s.hawk.recs.any (fun r => mine r && decide (r.first ≤ slot ∧ slot ≤ r.last)) then
      { s with hawk := { s.hawk with recs := s.hawk.recs.map (fun r =>
          if mine r && decide (r.first ≤ slot ∧ slot ≤ r.last) then
            { r with last := max r.last (min (slot + g.post) (r.first + g.maxLen - 1)) } else r) } }
    else
      let prev := ((s.hawk.recs.filter (fun r => mine r && decide (r.last + 1 ≥ r.first + g.maxLen))).map (fun r => r.last + 1)).foldl max 0
      openRec t slot (max (slot - g.pre) prev) source data s

/-! LEVEL and QUALITY triggers (R205): evaluated on each row as it is fixed. -/

/-- TRIGDATA of a LEVEL firing: row, channel and value, four octets each (log 37). -/
def levelData (row chan : Nat) (v : W32) : List Byte := leOctets 4 row ++ leOctets 4 chan ++ w32le v

/-- A row is SUBST or MISSING; a row has a channel in use whose VALIDITY is invalid. -/
def rowGone (r : Row) : Bool := r.rstat == 1 || r.rstat == 2
def rowInvalid (r : Row) : Bool := r.qual.any (fun q => q.toNat % 4 == 1 && (q != 0xC001 || r.rstat == 6))

/-- Trigger t sees a fixed row of its bus pair: LEVEL fires when the run of rows past a limit reaches its length, QUALITY
when the row changes to SUBST or MISSING, or to invalid. -/
def rowTrigger (t slot : Nat) (r : Row) (s : State) : State :=
  let g := trigOf s t
  let id := r.stream * 256 + r.sub
  match g.src with
  | .level row chan high low run =>
    if row = id then
      let v := lget r.vals chan 0
      if v.toInt > high ∨ v.toInt < low then
        let s := updTrig t (fun g => { g with runLen := min 256 (g.runLen + 1) }) s
        if g.runLen + 1 = run then fireTrig t slot 3 (levelData r.stream chan v) s else s
      else updTrig t (fun g => { g with runLen := 0 }) s
    else s
  | .quality row =>
    if row = id then
      let now := b2n (rowGone r) + 2 * b2n (rowInvalid r)
      let s := updTrig t (fun g => { g with runLen := now }) s
      if (rowGone r && g.runLen % 2 == 0) || (rowInvalid r && g.runLen / 2 == 0) then fireTrig t slot 4 [] s else s
    else s
  | _ => s

/-- Every trigger of bus pair b sees the rows fixed for a slot. -/
def rowTriggers (b slot : Nat) (rows : List Row) (s : State) : State :=
  (List.range 256).foldl (fun s t =>
    if (trigOf s t).bp = b then rows.foldl (fun s r => rowTrigger t slot r s) s else s) s

end Sys2Proof.Machine
end

