-- ==== Sys2Proof/Machine/Skim.lean ====
section
/-! DEFINITION. Skim.lean: how a received frame passes Skim (R118 to R165): duplicate discard, classification, overload,
the context cache, context checks, smpCnt extension, authentication, replay and sequence. -/
namespace Sys2Proof.Machine

/-! Duplicate discard (R123 to R129). -/

/-- What step 3 says of a frame (R125, R128, R129): no duplicate check, an EMPTY position taken, a PENDING or ACCEPTED
copy met. -/
inductive Dup where
  | unchecked
  | taken
  | pending
  | accepted
  deriving DecidableEq, Repr

/-- The source of a bus pair and MAC address. -/
def isSource (b mac : Nat) (x : Source) : Bool := x.bp == b && x.mac == mac

/-- Changes a source of the duplicate table. -/
def updSource (b mac : Nat) (g : Source → Source) (s : State) : State :=
  { s with skim := { s.skim with sources := s.skim.sources.map (fun x => if isSource b mac x then g x else x) } }

/-- The position of a sequence number in a source's window. -/
def dupPos (s : State) (b mac seq : Nat) : Option DupPos :=
  match s.skim.sources.find? (isSource b mac) with
  | some x => x.win.find? (fun p => p.seq == seq)
  | none => none

/-- The longest silent source (R129). -/
def oldestSource (l : List Source) : Option Source :=
  l.foldl (fun o x => match o with | some y => if x.lastAt < y.lastAt then some x else some y | none => some x) none

/-- Octets of a frame with the 802.1Q tags that it came with, which the digest covers (R124). -/
def digestOctets (f : RxFrame) : List Byte :=
  putAfterAddresses (f.ctags.flatMap (fun t => beOctets 2 0x8100 ++ beOctets 2 t)) f.body

/-- Digest of a frame (R124). -/
def digestOf (s : State) (f : RxFrame) : W32 := Config.frameDigest s.skim.digestKey (digestOctets f)

/-- A second copy meets a first one: DIVERGE when the digests differ (R126). -/
def meetCopy (p : DupPos) (d : W32) (s : State) : State :=
  if p.digest = d then s
  else
    let s := event 5 4 (cntSkim 4 1 s)
    match p.ctx with
    | some k => flagSrc k 1 (cntCtx k 2 1 s)
    | none => s

/-- The copy is discarded as DUP; the accepted sample has its second copy (R125, R192). -/
def dropDup (b mac seq : Nat) (p : DupPos) (s : State) : State :=
  let s := cntSkim 3 1 s
  let s := match p.ctx with | some k => cntCtx k 1 1 s | none => s
  { s with hawk := { s.hawk with single := s.hawk.single.filter (fun e => !(e.1 == b && e.2.1 == mac && e.2.2.1 == seq)) } }

/-- Step 3 for a source that the table holds (R125, R128, R129). -/
def dupKnown (x : Source) (seq : Nat) (d : W32) (s : State) : State × Dup :=
  let win := if s.time.clock - x.lastAt ≥ 400000000 then [] else x.win
  let up := (seq + 65536 - x.highest) % 65536
  let down := (x.highest + 65536 - seq) % 65536
  let p : DupPos := { seq := seq, accepted := false, digest := d, ctx := none }
  let now := s.time.clock
  let save (h : Nat) (w : List DupPos) (s : State) : State :=
    updSource x.bp x.mac (fun y => { y with highest := h, win := w, lastAt := now }) s
  if 1 ≤ up ∧ up ≤ 32767 then
    (save seq (p :: win.filter (fun q => decide ((seq + 65536 - q.seq) % 65536 < 128))) s, .taken)
  else if down < 128 then
    match win.find? (fun q => q.seq == seq) with
    | none => (save x.highest (p :: win) s, .taken)
    | some q => (meetCopy q d (save x.highest win s), if q.accepted then .accepted else .pending)
  else (save x.highest win s, .unchecked)

/-- Step 3 of R118 for a frame with an RCT or HSR sequence number (R123 to R129). -/
def dupCheck (b mac seq : Nat) (d : W32) (s : State) : State × Dup :=
  match s.skim.sources.find? (isSource b mac) with
  | some x => dupKnown x seq d s
  | none =>
    let x : Source := ⟨b, mac, seq, [⟨seq, false, d, none⟩], s.time.clock⟩
    if s.skim.sources.length < 4096 then
      ({ s with skim := { s.skim with sources := s.skim.sources ++ [x] } }, .taken)
    else match oldestSource s.skim.sources with
      | some o =>
        if s.time.clock - o.lastAt ≥ 1000000000 then
          ({ s with skim := { s.skim with sources := s.skim.sources.filter (fun y => !isSource o.bp o.mac y) ++ [x] } }, .taken)
        else (event 5 5 (cntSkim 5 1 s), .unchecked)
      | none => (s, .unchecked)

/-- The position of an accepted frame becomes ACCEPTED, that of a dropped one EMPTY (R127). -/
def dupDone (b mac seq : Nat) (ok : Bool) (ctx : Option Nat) (s : State) : State :=
  let mark (w : List DupPos) : List DupPos :=
    if ok then w.map (fun p => if p.seq == seq then { p with accepted := true, ctx := ctx } else p)
    else w.filter (fun p => p.seq != seq)
  updSource b mac (fun x => { x with win := mark x.win }) s

/-- Sequence number that step 3 works on: of the RCT under PRP, of the HSR tag under HSR (R100, R123). -/
def dupSeq (s : State) (b : Nat) (f : RxFrame) : Option Nat :=
  match (cfgOf s b).redun with
  | 1 => f.rct.map (·.1)
  | 2 => f.hsr
  | _ => none

/-! Classification (R136 to R139). -/

/-- VLAN ID of a frame for its classification key: 0 when untagged or priority-tagged (R136). -/
def vlanId (f : RxFrame) : Nat := match f.ctags with | t :: _ => t % 4096 | [] => 0

/-- Classification key of an SV or GOOSE frame (R136). -/
def frameKey (b : Nat) (f : RxFrame) : Option (List Byte) :=
  let l2 (kind appid : Nat) : List Byte :=
    [BitVec.ofNat 8 kind, BitVec.ofNat 8 b] ++ beOctets 2 appid ++ beOctets 2 (vlanId f) ++ beOctets 6 f.dst ++
    List.replicate 10 0 ++ beOctets 6 f.src ++ List.replicate 12 0
  let ip (kind appid : Nat) (dst src : List Byte) : List Byte :=
    [BitVec.ofNat 8 kind, BitVec.ofNat 8 b] ++ beOctets 2 appid ++ [0, 0] ++ fit 16 dst ++ fit 16 src ++ [0, 0]
  match f.payload with
  | .sv appid _ _ _ _ => some (l2 1 appid)
  | .goose appid _ _ _ => some (l2 2 appid)
  | .routedSv d r _ _ appid _ _ _ _ => some (ip 3 appid d r)
  | .routedGoose d r _ _ appid _ _ _ => some (ip 4 appid d r)
  | _ => none

/-- The context that a key belongs to: one whose index entry has the key's fingerprint in one of its two buckets, and whose
CKEY equals the key octet for octet (R137). -/
def classify (s : State) (key : List Byte) : Option Nat :=
  ((candidates s key).find? (fun e => (ctxOf s e.ctx).any (fun x => decide (x.ckey = key)))).map (·.ctx)

/-! The ingress buffer (R122). -/

/-- Words that parsing reads: those of the shortest frame (R118 step 2, log 88). -/
def parsedWords : Nat := 4

/-- A frame in the ingress buffer, from a word address that the device chooses: its words, with what befalls them there. -/
def heldFrame (port : Nat) (f : RxFrame) (s : State) : HeldFrame × State :=
  let (i, s) := fresh s
  let at_ := Config.freeNat i % 262144
  let words := (f.upsets).foldl (fun l u => lupd l u.1 (fun w => lathUpset w u.2)) (lathWords at_ (digestOctets f))
  ({ port := port, frame := f, rxTai := s.time.tai, rxSlot := curSlot s (port / 2), at_ := at_, words := words }, s)

/-- Words of a held frame as they decode, from word lo on. -/
def decodeFrom (h : HeldFrame) (lo n : Nat) : List LathOut :=
  (List.range n).map (fun i => lathDecode ((h.at_ + lo + i) % 4294967296) (lget h.words (lo + i) default))

/-- Reads n words of a frame from word lo on: corrected errors are counted; with an uncorrectable one the frame is dropped at
this step (R122). -/
def readWords (h : HeldFrame) (lo n : Nat) (s : State) : State × Bool :=
  let ws := decodeFrom h lo (min n (h.words.length - lo))
  let s := cntSkim 15 (ws.filter LathOut.fixed).length s
  if ws.all (fun w => w.data?.isSome) then (s, true) else (event 5 9 (cntSkim 16 1 s), false)

/-! Overload (R162, R163). -/

/-- Occupancy above which a drop class is dropped, of 4 MiB (R163). -/
def ovlLimit (cls : Nat) : Nat :=
  match cls with
  | 0 => 4194304
  | 1 => 3565158
  | 2 => 2936012
  | _ => 2097152

/-- The OVL bits follow the occupancy (R163, R165). -/
def settleOvl (s : State) : State :=
  let v := ((List.range 4).map (fun c => b2n (s.skim.ovl.getLsbD c && decide (s.skim.buf > ovlLimit c)) * 2 ^ c)).sum
  { s with skim := { s.skim with ovl := BitVec.ofNat 4 v } }

/-- Takes octets of the ingress buffer, or gives them back (R122). -/
def bufTake (n : Nat) (s : State) : State :=
  { s with skim := { s.skim with buf := s.skim.buf + n, bufHigh := max s.skim.bufHigh ((s.skim.buf + n) / 1024) } }
def bufFree (n : Nat) (s : State) : State := settleOvl { s with skim := { s.skim with buf := s.skim.buf - n } }

/-- A frame of class cls is dropped as OVERLOAD against context k (R142, R163). -/
def dropOvl (k cls : Nat) (s : State) : State := flagSrc k 4 (cntCtx k 11 1 (cntSkim (17 + cls) 1 s))

/-- The same at step 5, with the class's bits (R163). -/
def dropOvl5 (k cls : Nat) (s : State) : State :=
  let s := dropOvl k cls s
  if s.skim.ovl.getLsbD cls then s
  else event 5 cls { s with skim := { s.skim with ovl := s.skim.ovl ||| BitVec.ofNat 4 (2 ^ cls) } }

/-- The context is in the cache. -/
def resident (s : State) (k : Nat) (x : Ctx) : Bool := alwaysResident x || s.skim.resident.contains k

/-! Authentication (R145 to R152, R674). -/

/-- Key selection by key ID and slot (R150): the slot of the key. -/
def selectKey (x : Ctx) (keyId slot : Nat) : Option Nat :=
  if keyId = x.keyIdCur.toNat ∧ (!x.nxtValid ∨ slot < x.switch + x.overlap) then some x.keyCur
  else if keyId = x.keyIdNxt.toNat ∧ x.nxtValid ∧ slot ≥ x.switch - x.overlap then some x.keyNxt
  else none

/-- A frame dropped as AUTH (R145, R165, R192). -/
def dropAuth (k : Nat) (s : State) : State := flagSrc k 2 (event 5 6 (cntCtx k 3 1 (cntSkim 7 1 s)))

/-- A frame dropped as KEY (R132, R150). -/
def dropKey (k : Nat) (s : State) : State := cntCtx k 4 1 (cntSkim 8 1 s)

/-- The selected key slot cannot be used: KEY, and the context enters KEYFAULT, logged once for each context (R148); one that
is DRAINING stays so (DESIGN CHOICE, log 98). -/
def keyFault (k : Nat) (s : State) : State :=
  let s := updCtx k (fun x => { x with st := if x.st = 2 then 2 else 3 }) (dropKey k s)
  if s.skim.kfLogged.contains k then setEvt 5 7 s
  else event 5 7 { s with skim := { s.skim with kfLogged := k :: s.skim.kfLogged } }

/-- The octets that a tag covers in a frame as it stands without 802.1Q tag (R674): at layer 2 all before the tag, of a
routed frame its session PDU before the signature. -/
def coveredOctets (routed : Bool) (alg : Nat) (body : List Byte) : List Byte :=
  let n := macTagLen alg
  if !routed then body.take (body.length - n)
  else
    let head := if octets body 12 2 = [8, 0] then 42 else 62
    (body.drop head).take (body.length - head - 2 - n)

/-- Steps 7 and 9 for the authentication of a frame whose samples or message belong to the slots given (R121, R145 to
R150, R674): the state after it, and whether the frame goes on. -/
def authFrame (k : Nat) (x : Ctx) (macsec : Bool) (ext : Option AuthExt) (body : List Byte) (slots : List Nat) (s : State) :
    State × Bool :=
  if (x.auth == 2 || x.auth == 3) && !macsec then (dropAuth k s, false)
  else if x.auth == 0 || x.auth == 2 then (s, true)
  else match ext with
    | none => (dropAuth k s, false)
    | some e =>
      if e.alg ≠ x.macAlg then (dropAuth k s, false)
      else match slots.map (selectKey x e.keyId) with
        | [] => (s, false)
        | none :: _ => (dropKey k s, false)
        | some n :: more =>
          if more.any (· != some n) then (dropKey k s, false)
          else if (slotFail s n [5]).isSome then (keyFault k s, false)
          else
            let octs := coveredOctets (decide (x.kind ≥ 3)) x.macAlg body
            let s := tagWork x.macAlg 0 1 (slotKey s n) octs s
            if busTag x.macAlg (slotKey s n) octs = e.tag then
              (updCtx k (fun x => { x with st := if x.st = 3 then 1 else x.st }) s, true)
            else (dropAuth k s, false)

/-- A frame dropped as FORMAT, as SIM, or as NOTIME against its context (R55, R132, R155, R165). -/
def dropFormat (k : Nat) (s : State) : State := cntCtx k 9 1 (cntSkim 6 1 s)
def dropSim (k : Nat) (s : State) : State := cntCtx k 14 1 (cntSkim 6 1 s)
def dropNotime (k : Nat) (s : State) : State := cntCtx k 8 1 (cntSkim 11 1 s)

/-! SV (R77, R78, R153 to R156). -/

/-- Wrap of smpCnt and its period in ns (R77). -/
def smpWrap (rate : Nat) : Nat := if svRate rate = 96000 then 48000 else svRate rate
def smpPeriod (rate : Nat) : Nat := if svRate rate = 96000 then 500000000 else 1000000000

/-- The extended sample number, none when it is ambiguous (R78); instants are scaled by the rate to be exact. -/
def extendSmp (rate cnt rx : Nat) : Option Nat :=
  let r := svRate rate
  let p := smpPeriod rate
  let t : Int := (rx * r : Nat)
  let c0 : Int := ((rx / p * p) * r + cnt * 1000000000 : Nat)
  let step : Int := (p * r : Nat)
  let near (a b : Int) : Int := if (b - t).natAbs < (a - t).natAbs then b else a
  let c := near (near (c0 - step) c0) (c0 + step)
  if (c - t).natAbs ≥ (p / 2 - 1000000) * r then none else some (c.toNat / 1000000000)

/-- An SV frame breaks one of the context checks of R155. -/
def svFormat (x : Ctx) (noAsdu : Nat) (asdus : List Asdu) : Bool :=
  noAsdu != x.sv.nasdu || asdus.length != noAsdu ||
  asdus.any (fun a => a.nameh != x.nameh || a.confRev != x.sv.confRev.toNat || decide (a.smpCnt ≥ smpWrap x.sv.rate) ||
    (List.range 8).any (fun i => lget x.sv.voff i 0xFFFF != 0xFFFF &&
      (decide (lget x.sv.voff i 0 + 4 > a.data.length) || decide (lget x.sv.qoff i 0 + 4 > a.data.length))))

/-- What the replay window says of a sample number (R153): the part after it, and accepted with the numbers skipped, or
dropped as OLD, or as REPLAY. -/
inductive Replay where
  | accept (p : SvPart) (gap : Nat)
  | old
  | replay
  deriving DecidableEq, Repr

/-- The replay check of one ASDU (R153). -/
def svReplay (p : SvPart) (n : Nat) : Replay :=
  if !p.wvalid then .accept { p with highx := n, window := 1, wvalid := true } 0
  else if n > p.highx then
    let d := n - p.highx
    .accept { p with highx := n, window := if d ≥ 64 then 1 else (p.window <<< d) ||| 1 } (d - 1)
  else if p.highx - n ≥ 64 then .old
  else if p.window.getLsbD (p.highx - n) then .replay
  else .accept { p with window := p.window ||| BitVec.ofNat 64 (2 ^ (p.highx - n)) } 0

/-- One ASDU through steps 10 and 11 (R153, R154, R156): whether it is accepted. -/
def oneAsdu (k : Nat) (lanB : Bool) (copy : Option (Nat × Nat)) (a : Asdu) (n : Nat) (s : State) : State × Bool :=
  match ctxOf s k with
  | none => (s, false)
  | some x =>
    match svReplay x.sv n with
    | .old => (flagSrc k 5 (cntCtx k 6 1 (cntSkim 9 1 s)), false)
    | .replay => (flagSrc k 5 (cntCtx k 5 1 (cntSkim 9 1 s)), false)
    | .accept p gap =>
      let s := updCtx k (fun x => { x with sv := p, st := if x.st = 4 then 1 else x.st }) s
      let s := cntCtx k 0 1 (cntCtx k 12 gap (cntSkim 12 1 s))
      (storeSample k x n a lanB copy s, true)

/-- The ASDUs of an SV frame in order (R153, R154). -/
def svAsdus (k : Nat) (lanB : Bool) (copy : Option (Nat × Nat)) : List (Asdu × Option Nat) → State → State × Bool
  | [], s => (s, false)
  | (_, none) :: l, s => svAsdus k lanB copy l s
  | (a, some n) :: l, s =>
    let (s, ok) := oneAsdu k lanB copy a n s
    let (s, more) := svAsdus k lanB copy l s
    (s, ok || more)

/-- Steps 7 to 11 for an SV frame of context k (R118): whether it is accepted. -/
def svFrame (k : Nat) (x : Ctx) (h : HeldFrame) (macsec : Bool) (sim : Bool) (noAsdu : Nat) (asdus : List Asdu)
    (ext : Option AuthExt) (copy : Option (Nat × Nat)) (s : State) : State × Bool :=
  if svFormat x noAsdu asdus then (dropFormat k s, false)
  else if sim != x.sim then (dropSim k s, false)
  else if (x.auth == 2 || x.auth == 3) && !macsec then (dropAuth k s, false)
  else if s.time.tstate = 0 then (dropNotime k s, false)
  else
    let xs := asdus.map (fun a => (a, extendSmp x.sv.rate a.smpCnt h.rxTai))
    let bad := (xs.filter (fun e => e.2.isNone)).length
    let s := if bad > 0 then event 4 5 (cntCtx k 7 bad (cntSkim 10 bad s)) else s
    let slots := xs.filterMap (fun e => e.2.map (fun n => (placeOf s x n).1))
    if slots.isEmpty then (s, false)
    else match authFrame k x macsec ext h.frame.body slots s with
      | (s, false) => (s, false)
      | (s, true) =>
        let (s, ok) := svAsdus k (h.port % 2 == 1) copy xs s
        match ctxOf s k with
        | some y => (if ok then mirrorItem (.svDelta k y.sv.highx y.sv.window) s else s, ok)
        | none => (s, ok)

/-! GOOSE (R157 to R160). -/

/-- Successor of a state or sequence number (R157). -/
def succ32 (v : Nat) : Nat := if v = 0xFFFFFFFF then 1 else v + 1

/-- q is ahead of Q (R157). -/
def ahead32 (q base : Nat) : Bool :=
  let d := (q + 4294967296 - base) % 4294967296
  decide (1 ≤ d ∧ d ≤ 2147483647)

/-- stNum values that the successor chain passes over from `base` to q, 0 never among them (R158). -/
def passed (q base : Nat) : Nat := (q + 4294967296 - base) % 4294967296 - 1 - (if q < base then 1 else 0)

/-- The time a UtcTime encodes, in units of 2^-24 s; TimeQuality is ignored (R157). -/
def utcTime (t : List Byte) : Nat := beNat (octets t 0 7)

/-- The freshness test (R157): t in TAI lies within FRESH of the receive time. -/
def freshOk (s : State) (x : Ctx) (t : List Byte) (rx : Nat) : Bool :=
  let u := utcTime t
  let ns : Int := ((u / 16777216 * 1000000000 + u % 16777216 * 1000000000 / 16777216 : Nat) : Int) + s.time.utcCfg * 1000000000
  decide ((ns - (rx : Int)).natAbs ≤ x.gs.fresh * 1000000)

/-- The first slot whose instant is at or after a TAI time (R159). -/
def slotFrom (tai m : Nat) : Nat := if slotInstant (slotAt tai m) m = tai then slotAt tai m else slotAt tai m + 1

/-- The case of R158 that applies: accepted with an event type (0 for none) and GAP, or dropped with a counter. -/
inductive GooseCase where
  | accept (event gap : Nat)
  | drop (counter : Nat)
  deriving DecidableEq, Repr

/-- R158: the first case that applies. -/
def gooseCase (g : GoosePart) (m : GooseMsg) (fresh : Bool) : GooseCase :=
  let later := decide (utcTime m.t > utcTime g.t)
  if !g.gvalid then .accept 1 0
  else if m.stNum = g.stNum ∧ ahead32 m.sqNum g.sqNum ∧ m.t = g.t then .accept 0 0
  else if m.stNum = g.stNum ∧ m.t ≠ g.t then .drop 6
  else if m.stNum = g.stNum then .drop 5
  else if ahead32 m.stNum g.stNum ∧ fresh ∧ later then .accept 2 (passed m.stNum g.stNum)
  else if m.stNum = 1 ∧ fresh ∧ later then .accept 3 0
  else if ahead32 m.stNum g.stNum ∨ m.stNum = 1 then .drop 10
  else .drop 5

/-- The first 48 octets of a GOOSE event entry (R160). -/
def gooseHead (k type : Nat) (gap sim fault : Bool) (len : Nat) (g : GoosePart) (slot epoch : Nat) : List Byte :=
  leOctets 2 k ++ [BitVec.ofNat 8 type, BitVec.ofNat 8 (b2n gap + 2 * b2n sim + 4 * b2n fault)] ++ leOctets 2 len ++
  leOctets 2 0 ++ leOctets 4 g.stNum ++ leOctets 4 g.sqNum ++ fit 8 g.t ++ leOctets 8 slot ++ leOctets 8 epoch ++ leOctets 8 0

/-- An event of a GOOSE context goes to every target's event ring, and fires its trigger unless it is EXPIRED (R160). -/
def gooseEvent (k type : Nat) (gap sim fault : Bool) (g : GoosePart) (slot : Nat) (data : List Byte) (s : State) : State :=
  let s := g.targets.foldl (fun s f => writeEvent f (gooseHead k type gap sim fault data.length g slot s.sys.epoch) data s) s
  if type ≠ 4 ∧ g.trig ≠ 0xFFFF ∧ (trigOf s g.trig).src = .goose then
    fireTrig g.trig slot 1 (leOctets 4 k ++ leOctets 4 g.stNum ++ leOctets 4 g.sqNum) s
  else s

/-- An accepted GOOSE message is stored, arms supervision and raises its event (R158 to R160); a DRAINING context is not
armed (R135). -/
def gooseAccept (k : Nat) (x : Ctx) (h : HeldFrame) (m : GooseMsg) (ev gap : Nat) (s : State) : State :=
  let exp := if x.st = 2 then 0 else slotFrom (h.rxTai + m.talMs * 1000000) (slotRate s x.bp)
  let g : GoosePart := { x.gs with
    stNum := m.stNum, sqNum := m.sqNum, t := m.t, gvalid := true, expiry := exp, expFrom := nextFire s x.bp, sim := x.sim
    fault := x.gs.fault && ev == 0 }
  let s := updCtx k (fun x => { x with gs := g, st := if x.st = 5 then 1 else x.st }) s
  let s := cntCtx k 0 1 (cntCtx k 12 gap (cntSkim 13 1 s))
  let s := if ev = 3 then cntCtx k 13 1 s else s
  let s := mirrorItem (.gooseDelta k m.stNum m.sqNum m.t true) s
  if ev = 0 then s
  else gooseEvent k ev (ev == 2 && m.stNum != succ32 x.gs.stNum) x.sim (x.gs.fault) g h.rxSlot m.allData s

/-- Steps 7 to 11 for a GOOSE frame of context k: whether it is accepted. -/
def gooseFrame (k : Nat) (x : Ctx) (h : HeldFrame) (macsec : Bool) (sim : Bool) (m : GooseMsg) (ext : Option AuthExt)
    (s : State) : State × Bool :=
  if m.nameh != x.nameh || m.confRev != x.gs.confRev.toNat || (x.gs.dsLen != 0 && decide (m.allData.length > x.gs.dsLen)) then
    (dropFormat k s, false)
  else if sim != x.sim then (dropSim k s, false)
  else if (x.auth == 2 || x.auth == 3) && !macsec then (dropAuth k s, false)
  else if s.time.tstate = 0 then (dropNotime k s, false)
  else match authFrame k x macsec ext h.frame.body [h.rxSlot] s with
    | (s, false) => (s, false)
    | (s, true) =>
      match gooseCase x.gs m (freshOk s x m.t h.rxTai) with
      | .drop c => (cntCtx k c 1 (cntSkim 9 1 s), false)
      | .accept ev gap =>
        match ctxOf s k with
        | some y => (gooseAccept k y h m ev gap s, true)
        | none => (s, false)

/-- The words of a frame after its header, where they have not been read already for a duplicate record (R122, R125). -/
def readBody (h : HeldFrame) (s : State) : State × Bool :=
  if (dupSeq s (h.port / 2) h.frame).isSome then (s, true) else readWords h parsedWords h.words.length s

/-- Steps 7 to 11 of R118 for a classified frame (R149 for the routed ones): whether it is accepted. A frame without a
sequence number, which step 3 has not read, is read here to its end (R122). -/
def verifyFrame (k : Nat) (h : HeldFrame) (copy : Option (Nat × Nat)) (s : State) : State × Bool :=
  match ctxOf s k, readBody h s with
  | none, _ => (s, false)
  | some _, (s, false) => (s, false)
  | some x, (s, true) =>
    let macsec := (cfgOf s (h.port / 2)).macsec
    match h.frame.payload with
    | .sv _ sim n as ext => svFrame k x h macsec sim n as ext copy s
    | .goose _ sim m ext => gooseFrame k x h macsec sim m ext s
    | .routedSv _ _ plain one _ sim n as ext =>
      if plain && one then svFrame k x h macsec sim n as ext copy s else (dropFormat k s, false)
    | .routedGoose _ _ plain one _ sim m ext =>
      if plain && one then gooseFrame k x h macsec sim m ext s else (dropFormat k s, false)
    | _ => (s, false)

/-- A DRAINING subscription becomes FREE once no frame that passed step 4 is left (R135). -/
def freeDrained (k : Nat) (s : State) : State :=
  match ctxOf s k with
  | some x =>
    if decide (1 ≤ x.kind ∧ x.kind ≤ 4) && x.st == 2 && !s.skim.fetchWait.any (fun e => e.1 == k) then
      let s := histDrop k (freeCtx k s)
      { s with hawk := { s.hawk with
          lastRx := mdel s.hawk.lastRx k, substRun := mdel s.hawk.substRun k, srcf := mdel s.hawk.srcf k } }
    else s
  | none => s

/-- Place of a frame in the duplicate table, for SINGLE: a frame without a sequence number has no second copy (R100,
R192). -/
def copyOf (s : State) (h : HeldFrame) : Option (Nat × Nat) :=
  if (cfgOf s (h.port / 2)).redun = 0 then none else some (h.frame.src, (dupSeq s (h.port / 2) h.frame).getD 65536)

/-- Step 11 for the duplicate record of a frame whose outcome is known (R127). -/
def closeDup (h : HeldFrame) (tracked : Bool) (ok : Bool) (ctx : Option Nat) (s : State) : State :=
  if tracked then
    match dupSeq s (h.port / 2) h.frame with
    | some q => dupDone (h.port / 2) h.frame.src q ok ctx s
    | none => s
  else s

/-- The frame holds a PENDING position of the duplicate table. -/
def isTracked (s : State) (h : HeldFrame) : Bool :=
  match dupSeq s (h.port / 2) h.frame with
  | some q => ((dupPos s (h.port / 2) h.frame.src q).map (fun p => !p.accepted)).getD false
  | none => false

/-- Steps 4 to 11 of R118 for an SV or GOOSE frame. `tracked`: it holds a PENDING position. -/
def skimFrom4 (h : HeldFrame) (tracked : Bool) (s : State) : State :=
  let b := h.port / 2
  match frameKey b h.frame with
  | none => closeDup h tracked false none s
  | some key =>
    match classify s key with
    | none => closeDup h tracked false none (cntSkim 2 1 s)
    | some k =>
      let x := (ctxOf s k).getD default
      let s := match dupSeq s b h.frame with
        | some q =>
          let mark (w : List DupPos) := w.map (fun p => if p.seq == q then { p with ctx := some k } else p)
          if tracked then updSource b h.frame.src (fun y => { y with win := mark y.win }) s else s
        | none => s
      if s.skim.buf > ovlLimit x.dclass then closeDup h tracked false (some k) (dropOvl5 k x.dclass s)
      else if !resident s k x then
        if outFetches s ≥ 256 ∧ ¬s.skim.fetchWait.any (fun e => e.1 == k) then
          closeDup h tracked false (some k) (dropOvl k x.dclass s)
        else
          let s := if s.skim.fetchWait.any (fun e => e.1 == k) then s else cntSkim 14 1 s
          let s := { s with skim := { s.skim with
            fetchWait := s.skim.fetchWait ++ [(k, h)], buf := s.skim.buf + h.frame.octets } }
          { s with skim := { s.skim with missHigh := max s.skim.missHigh (outFetches s) } }
      else
        let s := if alwaysResident x then s else touchCtx k s
        let (s, ok) := verifyFrame k h (copyOf s h) s
        closeDup h tracked ok (some k) s

/-- CONTEXT_FETCH_DONE (R141): the frames that wait for the context go on; a failed check stops the device, and no frame
goes on. -/
def resumeFetch (k : Nat) (s : State) : State :=
  let mine := (s.skim.fetchWait.filter (fun e => e.1 == k)).map (·.2)
  let s := { s with skim := { s.skim with fetchWait := s.skim.fetchWait.filter (fun e => e.1 != k) } }
  let s := touchCtx k (openWork 3 0 6 0 s)
  let s := mine.foldl (fun s h =>
    let (s, ok) := verifyFrame k h (copyOf s h) s
    closeDup h (isTracked s h) ok (some k) (bufFree h.frame.octets s)) s
  freeDrained k s

end Sys2Proof.Machine
end

