-- ==== Sys2Proof/Machine/Sys.lean ====
section
/-! DEFINITION. Sys.lean: the sys. and cmd. commands (R328, R333, R342, R346, R358, R359, R373, R375 to R377). -/
namespace Sys2Proof.Machine

/-- The committed image of component c (R605). -/
def committedImage (s : State) (c : Nat) : Option FwImage :=
  let b := lget s.fw.banks c (none, none)
  if lget s.fw.committed c false then b.2 else b.1

/-- Firmware version and security version of component c, 0 without an image. -/
def fwVersion (s : State) (c : Nat) : Nat := ((committedImage s c).map (·.fwver)).getD 0
def fwSvn (s : State) (c : Nat) : Nat := ((committedImage s c).map (·.svn)).getD 0

/-- SYS_ID and SYS_FWVER (R324, R602, log 20). -/
def sysIdWord : W32 := pack [(0x9612, 0), (Config.stepping.toNat, 16)]
def sysFwverWord (s : State) : W32 := pack [(fwVersion s 1 % 16777216, 0), (fwSvn s 1 % 128, 24)]

/-- sys.info (R93, R373): 256 octets; the layout apart from the MAC base address is the model's (log 20). -/
def sysInfoRow : OpRow := { opc := 0x0001, who := 3, ctx := 0, inp := false, out := true, params := [] }
def sysInfoPre (c : Cmd) : Option Nat := firstFail [(decide (cOutLen c < 256), 0x0106)]

/-- The 256 octets. -/
def infoOctets (s : State) : List Byte :=
  fit 0x40 (w32le sysIdWord ++ w32le (sysFwverWord s) ++ (List.range 8).flatMap (fun c => leOctets 4 (fwVersion s c)) ++
    leOctets 4 65536 ++ leOctets 4 4096 ++ leOctets 4 16384 ++ leOctets 4 2048 ++ leOctets 4 (devnum s) ++
    leOctets 4 (shareCount s)) ++
  beOctets 6 Config.macBase.toNat ++ List.replicate 186 0

def sysInfoEff (c : Cmd) (s : State) : Eff := output c (infoOctets s) s

/-- SYS_INFO (R373). -/
def execSysInfo (c : Cmd) (s : State) : Host.Outcome State Fault Refusal := .next (runPlain noCheck sysInfoEff c s)

/-- sys.qcreate (R358). -/
def sysQcreateRow : OpRow :=
  { opc := 0x0010, who := 1, ctx := 0xF, inp := false, out := false
    params := [0xFFFFFFFF, 0xFFFFFFFF, 0xFFFFFFFF, 0xFFFFFFFF, 0x1FF0F] }

/-- The command is a bootstrap: it comes over a pair 0 that does not exist yet (R357). -/
def isBootstrap (c : Cmd) (s : State) : Bool := c.qp == 0 && (queueOf s c.fn 0).st == 0

/-- R352, R358: state and geometry, then translation and extents (R331). -/
def sysQcreateCheck (c : Cmd) (s : State) : Option Nat :=
  let n := bits (cw c 12) 3 0
  let m0 := lget c.maps 0 none
  let m1 := lget c.maps 1 none
  firstFail
    [((queueOf s c.fn (cCtx c)).st != 0, 0x0108), (decide (n < 4) || decide (n > 12), 0x0108),
     (cw64 c 8 % 4096 != 0 || cw64 c 10 % 4096 != 0, 0x0108),
     (decide (c.fn ≠ 0) && decide (bits (cw c 12) 15 8 > 31), 0x0108),
     (m0.isNone || m1.isNone, 0x0802)]

/-- The pair runs; the completion of a bootstrap takes entry 0 of the new completion queue (R357). -/
def sysQcreateEff (c : Cmd) (s : State) : Eff :=
  let m0 := (lget c.maps 0 none).getD []
  let m1 := (lget c.maps 1 none).getD []
  if m0.length > 64 ∨ m1.length > 64 then { st := extentLimit s, status := 0x0802 }
  else
    let boot := isBootstrap c s
    done (updQueue c.fn (cCtx c) (fun _ => { (default : Queue) with
      st := 1, n := 2 ^ bits (cw c 12) 3 0, sqBase := cw64 c 8, cqBase := cw64 c 10
      vec := bits (cw c 12) 15 8, vecEn := bit (cw c 12) 16, sqMap := toExtents m0, cqMap := toExtents m1
      fetched := b2n boot, waiting := if boot then [.admitted c.tok] else [] }) s)

/-- A bootstrap that was admitted and failed is recorded in the ledger and reported (R355, R357). -/
def bootstrapFailed (c : Cmd) (boot : Bool) (s : State) : State :=
  match jent s c.tok with
  | some j =>
    if boot && (match j.outcome with | some o => o.status != 0 | none => false) then fnEvent c.fn 1 0 (ledgerFn c.fn s) else s
  | none => s

/-- SYS_QCREATE (R358). -/
def execSysQcreate (c : Cmd) (s : State) : Host.Outcome State Fault Refusal :=
  .next (if runnable s c then bootstrapFailed c (isBootstrap c s) (runConfig sysQcreateCheck sysQcreateEff c s) else s)

/-- sys.qdelete (R359). -/
def sysQdeleteRow : OpRow := { opc := 0x0011, who := 1, ctx := 0xF, inp := false, out := false, params := [] }
def sysQdeleteCheck (c : Cmd) (s : State) : Option Nat :=
  firstFail [(cCtx c == c.qp, 0x0108), ((queueOf s c.fn (cCtx c)).st == 0, 0x0108)]

/-- Every admitted command of the named pair is settled: written and released, or in the ledger (R359, R371). -/
def qdeleteReady (c : Cmd) (s : State) : Bool :=
  s.journal.all (fun e => e.2.cmd.fn != c.fn || e.2.cmd.qp != cCtx c || e.2.ledgered)

def sysQdeleteEff (c : Cmd) (s : State) : Eff := done (updQueue c.fn (cCtx c) (fun _ => default) s)

/-- SYS_QDELETE (R359): it waits. -/
def execSysQdelete (c : Cmd) (s : State) : Host.Outcome State Fault Refusal :=
  .next (if (sysQdeleteCheck c s).isSome || qdeleteReady c s then runConfig sysQdeleteCheck sysQdeleteEff c s else s)

/-- sys.ledger (R346, R348): word 8 function and clear flag. -/
def sysLedgerRow : OpRow := { opc := 0x0012, who := 1, ctx := 0, inp := false, out := true, params := [0x17F] }
def sysLedgerPre (c : Cmd) : Option Nat := firstFail [(decide (bits (cw c 8) 6 0 > 64), 0x0106)]

/-- Copies the whole entries that fit; a clear removes the entries copied, and UNREAD clears when none is left (log 21). -/
def sysLedgerEff (c : Cmd) (s : State) : Eff :=
  let f := bits (cw c 8) 6 0
  let es := (fnOf s f).ledger.take (cOutLen c / 32)
  let o := es.flatMap ledgerOctets
  let toks := es.map (·.tok)
  let s := if bit (cw c 8) 8 then
      { updFn f (fun x => { x with ledger := x.ledger.drop es.length, unread := x.unread && decide (x.ledger.length > es.length) }) s with
        journal := s.journal.filter (fun e => !(e.2.cmd.fn == f && e.2.ledgered && toks.contains e.1)) }
    else s
  { st := s, result := BitVec.ofNat 32 es.length, out := o }

/-- SYS_LEDGER (R346). -/
def execSysLedger (c : Cmd) (s : State) : Host.Outcome State Fault Refusal := .next (runPlain noCheck sysLedgerEff c s)

/-- sys.hostcfg (R323): word 8 [0] sets or clears IDE REQUIRED (log 20). -/
def sysHostcfgRow : OpRow := { opc := 0x0040, who := 0, ctx := 0, inp := false, out := false, params := [1] }
def sysHostcfgEff (c : Cmd) (s : State) : Eff := done { s with sys := { s.sys with ideReq := bit (cw c 8) 0 } }

/-- SYS_HOSTCFG (R323). -/
def execSysHostcfg (c : Cmd) (s : State) : Host.Outcome State Fault Refusal := .next (runConfig noCheck sysHostcfgEff c s)

/-- sys.fnmap (R328): word 8 VF; words 10 and 11 table root, 0 to unbind. -/
def sysFnmapRow : OpRow :=
  { opc := 0x0041, who := 0, ctx := 0, inp := false, out := false, params := [0x7F, 0, 0xFFFFFFFF, 0xFFFFFFFF] }
def sysFnmapPre (c : Cmd) : Option Nat :=
  firstFail [((cw c 8).toNat == 0 || decide ((cw c 8).toNat > 64), 0x0106),
             (cw64 c 10 % 4096 != 0 || decide (cw64 c 10 ≥ 2 ^ 52), 0x0106)]
def sysFnmapEff (c : Cmd) (s : State) : Eff :=
  let r := BitVec.ofNat 64 (cw64 c 10)
  done (updFn (cw c 8).toNat (fun x => { x with root := r, rootInv := ~~~r, rootBound := decide (cw64 c 10 ≠ 0), cache := [] }) s)

/-- A queue pair enters ERROR (R355). -/
def queueError (f q cause : Nat) (s : State) : State :=
  if (queueOf s f q).st = 1 then fnEvent f 1 q (updQueue f q (fun x => { x with st := 2, cause := cause }) s) else s

/-- sys.dadoinv (R333): word 8 VF; words 10 and 11 base, 12 and 13 octets, all ones for the whole space (log 20). -/
def sysDadoinvRow : OpRow :=
  { opc := 0x0042, who := 0, ctx := 0, inp := false, out := false
    params := [0x7F, 0, 0xFFFFFFFF, 0xFFFFFFFF, 0xFFFFFFFF, 0xFFFFFFFF] }
def sysDadoinvPre (c : Cmd) : Option Nat :=
  firstFail [((cw c 8).toNat == 0 || decide ((cw c 8).toNat > 64), 0x0106)]

/-- The range named: base and octets. -/
def invRange (c : Cmd) : Nat × Nat :=
  if cw64 c 10 = 2 ^ 64 - 1 ∧ cw64 c 12 = 2 ^ 64 - 1 then (0, 2 ^ 64) else (cw64 c 10, cw64 c 12)

/-- A command's input or output range overlaps a range. -/
def buffersOverlap (c : Cmd) (a n : Nat) : Bool :=
  (decide (cLen c ≠ 0) && decide (cIn c < a + n ∧ a < cIn c + cLen c)) ||
  (decide (cOutLen c ≠ 0) && decide (cOut c < a + n ∧ a < cOut c + cOutLen c))

def sysDadoinvEff (c : Cmd) (s : State) : Eff :=
  let f := (cw c 8).toNat
  let (a, n) := invRange c
  let s := updFn f (fun x => { x with cache := x.cache.filter (fun e => !decide (e.page < a + n ∧ a < e.page + e.size)) }) s
  let s := (List.range 5).foldl (fun s r =>
    let ctl := mapOverlaps (ringOf s f r).ctlMap a n
    if mapOverlaps (ringOf s f r).bufMap a n || ctl then stopRing f r (!ctl) s else s) s
  let s := (List.range 16).foldl (fun s q =>
    if mapOverlaps (queueOf s f q).sqMap a n || mapOverlaps (queueOf s f q).cqMap a n then queueError f q 3 s else s) s
  let s := { s with journal := s.journal.map (fun e =>
    if e.2.cmd.fn == f && !e.2.written && !e.2.ledgered && decide (e.2.mark = .none) && buffersOverlap e.2.cmd a n then
      (e.1, { e.2 with mark := .dado }) else e) }
  done (event 14 3 (cntDdo 4 1 s))

/-- SYS_DADOINV (R333). -/
def execSysDadoinv (c : Cmd) (s : State) : Host.Outcome State Fault Refusal := .next (runPlain noCheck sysDadoinvEff c s)

/-- sys.fnreset (R342): word 8 function. -/
def sysFnresetRow : OpRow := { opc := 0x0043, who := 0, ctx := 0, inp := false, out := false, params := [0x7F] }
def sysFnresetPre (c : Cmd) : Option Nat := firstFail [(decide ((cw c 8).toNat > 64), 0x0106)]

/-- A function that is not enabled has nothing to reset (log 20). -/
def sysFnresetCheck (c : Cmd) (s : State) : Option Nat := if fnEnabled s (cw c 8).toNat then none else some 0x0705

/-- SYS_FNRESET (R342): the command's own outcome is journalled, and the reset starts. -/
def execSysFnreset (c : Cmd) (s : State) : Host.Outcome State Fault Refusal :=
  .next <|
    if runnable s c then
      match sysFnresetCheck c s with
      | some st => settle c.tok st 0 [] s
      | none => functionReset (cw c 8).toNat (settle c.tok 0 0 [] s)
    else s

/-- cmd.abort (R375): CTX [3:0] queue pair, word 8 TAG. -/
def cmdAbortRow : OpRow := { opc := 0x0F01, who := 3, ctx := 0xF, inp := false, out := false, params := [0xFFFFFFFF] }

/-- The target: the one marked for this abort, else the earliest admitted command with the TAG on the pair whose
completion is not written and that is no abort (R375). -/
def abortTarget (c : Cmd) (s : State) : Option (Nat × JEntry) :=
  match s.journal.find? (fun e => decide (e.2.mark = .abort c.tok)) with
  | some e => some e
  | none => s.journal.find? (fun e => e.2.cmd.fn == c.fn && e.2.cmd.qp == cCtx c && cTag e.2.cmd == cw c 8 && !e.2.written &&
      (!e.2.ledgered || s.span.foreign.any (fun x => x.1.tok == e.1)) && decide (e.1 ≠ c.tok) && Cmd.opc e.2.cmd != 0x0F01)

/-- Marks the target at admission (R376). -/
def abortMark (c : Cmd) (s : State) : State :=
  match abortTarget c s with
  | some (t, j) => if decide (j.mark = .none) then updJ t (fun j => { j with mark := .abort c.tok }) s else s
  | none => s

/-- Completes the aborts that wait for a target: OK where it ended ABORTED, else ABORT_TOO_LATE (R376, R377). -/
def settleAborts (tok : Nat) (s : State) : State :=
  match jent s tok with
  | none => s
  | some j =>
    let st := if (j.outcome.map (·.status)) = some 0x0501 then 0 else 0x0502
    let ws := (s.journal.filter (fun e => Cmd.opc e.2.cmd == 0x0F01 && e.2.started && e.2.outcome.isNone &&
      e.2.cmd.fn == j.cmd.fn && cCtx e.2.cmd == j.cmd.qp && cw e.2.cmd 8 == cTag j.cmd)).map (·.1)
    ws.foldl (fun s w => settle w st (if st = 0 then BitVec.ofNat 32 tok else 0) [] s) s

/-- What follows a journalled outcome: the aborts that wait for it, and the reset of its function once its last stopped
command has ended (R342, R377). -/
def afterOutcome (tok : Nat) (s : State) : State :=
  match jent s tok with
  | none => s
  | some j =>
    let s := settleAborts tok s
    if (fnOf s j.cmd.fn).fenced && fnResetReady j.cmd.fn s then finishFnReset j.cmd.fn s else s

/-- CMD_ABORT (R375 to R377): a target that waits on no engine ends ABORTED at once; one that runs is stopped at its next
safe point, and the abort waits for its outcome. -/
def execCmdAbort (c : Cmd) (s : State) : Host.Outcome State Fault Refusal :=
  .next <|
    if runnable s c then
      match abortTarget c s with
      | none => settle c.tok 0x050A 0 [] s
      | some (t, j) =>
        match j.outcome with
        | some o =>
          if o.status = 0x0501 ∧ j.mark = .abort c.tok then settle c.tok 0 (BitVec.ofNat 32 t) [] s
          else settle c.tok 0x0502 0 [] s
        | none =>
          let s := startCmd c.tok (abortMark c s)
          if safeAtOnce j then settleAborts t (cancel t 0x0501 s) else s
    else s

end Sys2Proof.Machine
end

