-- ==== Sys2Proof/Machine/Streams.lean ====
section
/-! DEFINITION. Streams.lean: the stream. commands (R73, R79, R132 to R135, R152, R672, R676) and Skim's own events: index
swap, duplicate windows, cache faults, key promotion and supervision (R129, R139, R144, R151, R159). -/
namespace Sys2Proof.Machine

/-- stream.mrate (R73): CTX bus pair, word 8 rate. -/
def streamMrateRow : OpRow := { opc := 0x1001, who := 0, ctx := 0x3, inp := false, out := false, params := [0xFFFFFFFF] }
def streamMratePre (c : Cmd) : Option Nat :=
  firstFail [(!([4000, 4800, 12800, 14400] : List Nat).contains (cw c 8).toNat, 0x0106)]
def streamMrateCheck (c : Cmd) (s : State) : Option Nat := firstFail [(bpInUse s (cCtx c), 0x0701)]

/-- The grid of the new rate starts at its current slot (R75, R670). -/
def streamMrateEff (c : Cmd) (s : State) : Eff :=
  let b := cCtx c
  let s := updBp b (fun x => { x with mrate := (cw c 8).toNat, fired := none, moved := [], gap := [] }) s
  done { s with hawk := { s.hawk with
    groups := (List.range 64).map (fun i => let g := lget s.hawk.groups i default
                                            if i / 16 = b then { g with closed := none } else g)
    fixed := s.hawk.fixed.filter (fun f => f.bp != b) } }

/-- STREAM_MRATE (R73). -/
def execStreamMrate (c : Cmd) (s : State) : Host.Outcome State Fault Refusal :=
  .next (runConfig streamMrateCheck streamMrateEff c s)

/-- stream.cycref (R79). -/
def streamCycrefRow : OpRow :=
  { opc := 0x1002, who := 0, ctx := 0x3, inp := false, out := false, params := [0xFFFFFF, 0x80FFFFFF, 0x7FFFFFFF, 0x10F] }
def streamCycrefPre (c : Cmd) : Option Nat :=
  firstFail [(decide (bits (cw c 8) 23 16 > 7) || decide (bits (cw c 9) 23 16 > 7) || bits (cw c 11) 3 0 == 0, 0x0106)]

/-- The references that the command names. -/
def cycPrim (c : Cmd) : CycRef := { stream := bits (cw c 8) 15 0, chan := bits (cw c 8) 23 16 }
def cycAlt (c : Cmd) : Option CycRef :=
  if bit (cw c 9) 31 then some { stream := bits (cw c 9) 15 0, chan := bits (cw c 9) 23 16 } else none

/-- A reference that names no SV subscription of bus pair b, or an unused channel (R79). -/
def badRef (s : State) (b : Nat) (r : CycRef) : Bool :=
  match ctxOf s r.stream with
  | some x => !isSvKind x.kind || x.st == 2 || x.bp != b || lget x.sv.voff r.chan 0xFFFF == 0xFFFF
  | none => true

/-- A reference that does not run at the master rate (R79). -/
def offRate (s : State) (b : Nat) (r : CycRef) : Bool :=
  svRate ((ctxOf s r.stream).getD default).sv.rate != (bpOf s b).mrate

def streamCycrefCheck (c : Cmd) (s : State) : Option Nat :=
  let b := cCtx c
  let refs := cycPrim c :: (cycAlt c).toList
  firstFail [((bpOf s b).mrate == 0, 0x0701), (refs.any (badRef s b), 0x070D), (refs.any (offRate s b), 0x0701)]

/-- The reference in use (R84). -/
def refInUse (t : Tracker) : Option CycRef := if t.alt then t.altRef else t.prim

/-- R676: a change of the reference in use starts the tracker on the new primary; otherwise only the settings change. With
the alternate in use it is kept where the new alternate is the same reference; one that returns as the new primary counts as
changed (DESIGN CHOICE, log 95). -/
def streamCycrefEff (c : Cmd) (s : State) : Eff :=
  done (updTrk (cCtx c) (fun t =>
    let n := { t with
      prim := some (cycPrim c), altRef := cycAlt c, arm := bits (cw c 10) 30 0, coastN := bits (cw c 11) 3 0
      hz60 := bit (cw c 11) 8 }
    let keeps := (refInUse t).isSome && decide (refInUse t = if t.alt then cycAlt c else some (cycPrim c))
    if keeps then n
    else { n with
      alt := false, st := 1, armed := false, prev := none, last := none, interval := none, freqs := [], coasted := 0
      markNext := decide (t.count > 0) }) s)

/-- STREAM_CYCREF (R79, R676). -/
def execStreamCycref (c : Cmd) (s : State) : Host.Outcome State Fault Refusal :=
  .next (runConfig streamCycrefCheck streamCycrefEff c s)

/-- stream.sub (R133). -/
def streamSubRow : OpRow := { opc := 0x1003, who := 0, ctx := 0xFFFF, inp := true, out := false, params := [] }
def streamSubPre (c : Cmd) : Option Nat := firstFail [(cLen c != 256, 0x0106)]

/-- Bits of a little-endian word of the entry. -/
def eb (l : List Byte) (off hi lo : Nat) : Nat := bits (word32 l off) hi lo

/-- All octets of a range are zero. -/
def zeroAt (l : List Byte) (off n : Nat) : Bool := (octets l off n).all (· == 0)

/-- Reserved fields of an entry (R131). -/
def entryReserved (l : List Byte) : Bool :=
  eb l 0 31 23 != 0 || eb l 0x4C 15 5 != 0 || !zeroAt l 0x58 8 ||
  (if isSvKind (eb l 0 3 0) then eb l 0x70 31 12 != 0 || !zeroAt l 0x78 8 || !zeroAt l 0xA0 32
   else if isGooseKind (eb l 0 3 0) then eb l 0x7C 31 1 != 0 || (List.range 4).any (fun i => eb l (0x84 + 4 * i) 31 8 != 0) ||
     eb l 0x94 31 16 != 0 || !zeroAt l 0x98 40
   else false)

/-- The context entry of an input (R131); what the device owns is at its start value (R133). -/
def parseEntry (l : List Byte) : Ctx :=
  let w (off hi lo : Nat) : Nat := eb l off hi lo
  { (default : Ctx) with
    kind := w 0 3 0, st := 1, bp := w 0 9 8, dclass := w 0 11 10, auth := w 0 13 12, pin := w 0 14 14 == 1
    sim := w 0 15 15 == 1, fn := w 0 22 16, ckey := octets l 8 40, nameh := octets l 0x30 16
    keyCur := w 0x40 15 0, keyNxt := w 0x40 31 16, keyIdCur := word32 l 0x44, keyIdNxt := word32 l 0x48
    macAlg := w 0x4C 3 0, nxtValid := w 0x4C 4 4 == 1, overlap := w 0x4C 31 16, switch := field l 0x50 8
    cnt := List.replicate 16 0
    sv := { (default : SvPart) with
      rate := w 0x70 2 0, nasdu := w 0x70 7 4, group := w 0x70 11 8, confRev := word32 l 0x74
      voff := (List.range 8).map (fun i => field l (0x80 + 2 * i) 2)
      qoff := (List.range 8).map (fun i => field l (0x90 + 2 * i) 2) }
    gs := { (default : GoosePart) with
      confRev := word32 l 0x78, fresh := w 0x80 15 0, dsLen := w 0x80 31 16
      targets := (List.range 4).filterMap (fun i => if w (0x84 + 4 * i) 7 7 = 1 then some (w (0x84 + 4 * i) 6 0) else none)
      trig := w 0x94 15 0 } }

/-- Context numbers of a kind of subscription (R130). -/
def inRange (kind k : Nat) : Bool :=
  if isSvKind kind then decide (k < 0x1000) else if isGooseKind kind then decide (0x1000 ≤ k ∧ k < 0x5000) else false

/-- Key octets that a MACALG code needs (R146). -/
def macKeyLen (alg : Nat) : Nat := if alg = 4 ∨ alg = 5 then 16 else 32

/-- The key slot of a context cannot be used with an attribute: number, state, attribute, length (R133, R146, R408). -/
def macKeyFail (s : State) (attr alg k : Nat) : Option Nat :=
  match slotFail s k [attr] with
  | some st => some st
  | none => if alg ≠ 0 ∧ (slotKey s k).length ≠ macKeyLen alg then some 0x0303 else none

/-- Key fields of the entry (R133). -/
def usesKeys (x : Ctx) : Bool := x.auth == 1 || x.auth == 3

/-- CONTEXT_RANGE of R133 and R164. -/
def entryRange (k : Nat) (l : List Byte) (x : Ctx) : Bool :=
  !inRange x.kind k || decide (x.macAlg > 7) || decide (x.fn > 64) ||
  lget x.ckey 0 0 != BitVec.ofNat 8 x.kind || lget x.ckey 1 0 != BitVec.ofNat 8 x.bp ||
  (usesKeys x && x.macAlg == 0) ||
  (!usesKeys x && (x.macAlg != 0 || x.keyCur != 0 || x.keyNxt != 0 || x.keyIdCur != 0 || x.keyIdNxt != 0 || x.nxtValid ||
    x.overlap != 0 || x.switch != 0)) ||
  (if isSvKind x.kind then decide (x.sv.rate > 4) || x.sv.nasdu == 0 || decide (x.sv.nasdu > 8)
   else x.dclass == 0 || x.gs.fresh == 0 || decide (x.gs.fresh > 60000) ||
     (List.range 4).any (fun i => decide (eb l (0x84 + 4 * i) 6 0 > 64)) || (x.gs.trig != 0xFFFF && decide (x.gs.trig > 255)))

/-- The rate breaks R74. -/
def rateBad (m r : Nat) : Bool := m == 0 || (r % m != 0 && m % r != 0)

/-- R133, R169, in the order of the rule's list; key slots only where the entry uses them. -/
def streamSubCheck (c : Cmd) (s : State) : Option Nat :=
  let l := c.input
  let k := cCtx c
  let x := parseEntry l
  let sv := isSvKind x.kind
  match firstFail
    [(entryReserved l, 0x0105), (entryRange k l x, 0x0705), ((ctxOf s k).isSome, 0x0706),
     (s.skim.ctx.any (fun e => decide (e.2.kind ≠ 7) && decide (e.2.ckey = x.ckey)), 0x0707),
     (!sv && x.pin && decide ((s.skim.ctx.filter (fun e => isGooseKind e.2.kind && e.2.pin)).length ≥ 1024), 0x0708),
     (sv && x.sv.rate == 4 && decide ((s.skim.ctx.filter (fun e => isSvKind e.2.kind && e.2.sv.rate == 4)).length ≥ 256), 0x0709),
     (sv && rateBad (bpOf s x.bp).mrate (svRate x.sv.rate), 0x0701),
     ((x.auth == 2 || x.auth == 3) && !(cfgOf s x.bp).macsec, 0x0704)] with
  | some st => some st
  | none =>
    match (if usesKeys x then macKeyFail s 5 x.macAlg x.keyCur else none),
          (if usesKeys x && x.nxtValid then macKeyFail s 5 x.macAlg x.keyNxt else none) with
    | some st, _ => some st
    | none, some st => some st
    | none, none =>
      firstFail [(sv && decide (histReserved s s.hawk.depth + histBytes (svRate x.sv.rate) s.hawk.depth > histRegion s), 0x0801)]

/-- The entry is allocated and enters the index, and its history starts empty (R131, R133, R134, R169). -/
def streamSubEff (c : Cmd) (s : State) : State × Bool :=
  let k := cCtx c
  let x := { parseEntry c.input with gen := nextGen s k, swFrom := nextFire s (parseEntry c.input).bp }
  addIndex k (histDrop k (newCtx k x s))

/-- STREAM_SUB (R133, R134, R139). -/
def execStreamSub (c : Cmd) (s : State) : Host.Outcome State Fault Refusal :=
  .next (runConfigBy (applyIndexed streamSubCheck streamSubEff) c s)

/-- INDEX_SWAP (R139): at a slot boundary the index rebuilt under a new seed from the internal DRBG replaces the old one, and
the commands that wait complete; the rebuild is charged to HOSTCMD. Where a key finds no place under that seed either, REHASH stays. -/
def execIndexSwap (s : State) : Host.Outcome State Fault Refusal :=
  .next <|
    if s.skim.rehash && atSlotStart s then
      let (seed, s) := freeOctets 8 (charge 0 4 0 (Config.workCycles 0 0) s)
      match swapIndex (BitVec.ofNat 64 (leNat seed)) s with
      | (s, false) => s
      | (s, true) =>
        (s.skim.rehashFor.map (·.1)).foldl (fun s t => match jent s t with
          | some j => if j.outcome.isNone then afterOutcome t (endRehash t s) else s
          | none => s) (event 5 12 s)
    else s

/-- stream.unsub (R135). -/
def streamUnsubRow : OpRow := { opc := 0x1004, who := 0, ctx := 0xFFFF, inp := false, out := false, params := [] }

/-- The context in CTX is a subscription, not DRAINING unless allowed (R672). -/
def notSub (s : State) (k : Nat) (draining : Bool) : Bool :=
  match ctxOf s k with
  | some x => !decide (1 ≤ x.kind ∧ x.kind ≤ 4) || (x.st == 2 && !draining)
  | none => true

def streamUnsubCheck (c : Cmd) (s : State) : Option Nat := firstFail [(notSub s (cCtx c) false, 0x0705)]

/-- The index entry goes, supervision ends, the stream leaves every view (R135, R197). -/
def streamUnsubEff (c : Cmd) (s : State) : Eff :=
  let k := cCtx c
  let s := updCtx k (fun x => { x with st := 2, gs := { x.gs with expiry := 0 } }) (dropIndex k s)
  let s := { s with fns := s.fns.map (fun f => { f with rings := f.rings.map (fun r => { r with view := r.view.filter (· != k) }) }) }
  done (freeDrained k s)

/-- STREAM_UNSUB (R135). -/
def execStreamUnsub (c : Cmd) (s : State) : Host.Outcome State Fault Refusal :=
  .next (runConfig streamUnsubCheck streamUnsubEff c s)

/-- stream.keys (R152). -/
def streamKeysRow : OpRow :=
  { opc := 0x1005, who := 0, ctx := 0xFFFF, inp := false, out := false
    params := [0xFFFF, 0xFFFFFFFF, 0xFFFFFFFF, 0xFFFFFFFF, 0xFFFFFFFF] }
def streamKeysPre (c : Cmd) : Option Nat := firstFail [(decide ((cw c 12).toNat > 65535), 0x0106)]

/-- R152, in its order; R501 for GROUP slots. -/
def streamKeysCheck (c : Cmd) (s : State) : Option Nat :=
  match ctxOf s (cCtx c) with
  | none => some 0x0705
  | some x =>
    let k := bits (cw c 8) 15 0
    let slot := (mget s.keys.slots k).getD default
    if !decide (1 ≤ x.kind ∧ x.kind ≤ 5) || x.st == 2 then some 0x0705
    else match macKeyFail s (if x.kind = 5 then 4 else 5) x.macAlg k with
      | some st => some st
      | none => firstFail
        [(slot.purpose / 4 % 2 == 1 && slot.keyId != cw c 9, 0x0303),
         (x.nxtValid && s.time.tstate != 0 && decide (curSlot s x.bp ≥ x.switch - x.overlap), 0x0306),
         (cw c 9 == x.keyIdCur, 0x0307)]

def streamKeysEff (c : Cmd) (s : State) : Eff :=
  done (updCtx (cCtx c) (fun x => { x with
    keyNxt := bits (cw c 8) 15 0, keyIdNxt := cw c 9, switch := cw64 c 10, overlap := (cw c 12).toNat, nxtValid := true
    swFrom := nextFire s x.bp }) s)

/-- STREAM_KEYS (R152). -/
def execStreamKeys (c : Cmd) (s : State) : Host.Outcome State Fault Refusal :=
  .next (runConfig streamKeysCheck streamKeysEff c s)

/-- The slot-start event of slot n, or of the first slot from `since` on that comes after it, has fired for bus pair b (R667,
log 80). -/
def slotReached (s : State) (b n since : Nat) : Bool := (bpOf s b).fired.any (fun f => decide (f ≥ max n since))

/-- The current association of the channel that a next one belongs to. -/
def currentOf (s : State) (a : SaPart) : Option Nat :=
  (s.skim.ctx.find? (fun e => channelOf a.port a.tx a.sci e && e.2.sa.current)).map (·.1)

/-- A next receive association becomes the current one (R110). -/
def promoteRx (k : Nat) (x : Ctx) (s : State) : State :=
  let s := match currentOf s x.sa with
    | some o => dropSa o s
    | none => s
  keyPromoteLog k (x.switch + x.overlap) x.keyIdCur (updCtx k (fun x => { x with sa := { x.sa with current := true } }) s)

/-- KEY_PROMOTE (R110, R151, R667): at the slot-start event of SWITCH + OVERLAP the next key of a subscription or publication
becomes current, and a next receive association stands alone; a transmit association is switched at slot SWITCH. -/
def execKeyPromote (k : Nat) (s : State) : Host.Outcome State Fault Refusal :=
  .next <|
    match ctxOf s k with
    | some x =>
      if decide (1 ≤ x.kind ∧ x.kind ≤ 5) && x.nxtValid && slotReached s x.bp (x.switch + x.overlap) x.swFrom then
        let s := updCtx k (fun x => { x with keyCur := x.keyNxt, keyIdCur := x.keyIdNxt, nxtValid := false }) s
        keyPromoteLog k (x.switch + x.overlap) x.keyIdNxt s
      else if x.kind = 6 ∧ x.sa.current = false then
        if x.sa.tx then (if slotReached s x.bp x.switch x.swFrom then switchTxSa x.sa.port s else s)
        else if slotReached s x.bp (x.switch + x.overlap) x.swFrom then promoteRx k x s else s
      else s
    | none => s

/-- Octets of a context's counters (R132, R308). -/
def cntOctets (x : Ctx) : List Byte := (List.range 16).flatMap (fun i => leOctets 4 (lget x.cnt i 0))

/-- stream.stats (R132, R672): word 8 [0] clears. -/
def streamStatsRow : OpRow := { opc := 0x1006, who := 2, ctx := 0xFFFF, inp := false, out := true, params := [1] }
def statsPre (c : Cmd) : Option Nat := firstFail [(decide (cOutLen c < 64), 0x0106)]
def streamStatsCheck (c : Cmd) (s : State) : Option Nat := firstFail [(notSub s (cCtx c) true, 0x0705)]

/-- The counters go to the output, and clear where asked. -/
def statsEff (c : Cmd) (s : State) : Eff :=
  let e := { output c (cntOctets ((ctxOf s (cCtx c)).getD default)) s with result := 0 }
  if bit (cw c 8) 0 then { e with st := updCtx (cCtx c) (fun x => { x with cnt := List.replicate 16 0 }) e.st } else e

/-- STREAM_STATS (R132). -/
def execStreamStats (c : Cmd) (s : State) : Host.Outcome State Fault Refusal := .next (runPlain streamStatsCheck statsEff c s)

/-- DUP_WINDOW_CLEAR (R129): a source silent for 400 ms; under HSR its forwarded frames are forgotten with it. -/
def execDupWindowClear (b src : Nat) (s : State) : Host.Outcome State Fault Refusal :=
  .next <|
    if s.skim.sources.any (fun x => isSource b src x && decide (s.time.clock - x.lastAt ≥ 400000000)) then
      let s := updSource b src (fun x => { x with win := [] }) s
      let clear (p : Port) : Port := { p with fwd := p.fwd.filter (fun e => e.1 != src) }
      updPort (2 * b + 1) clear (updPort (2 * b) clear s)
    else s

/-- CACHE_LATH_FAULT (R144): an unchanged entry is fetched again; a modified subscription is rebuilt, and the standby gets its
new state (R143); a modified publication or association, of which the rule says nothing, is fetched again (log 91). A
DRAINING entry keeps its STATE (log 91). -/
def execCacheLathFault (k : Nat) (modified : Bool) (s : State) : Host.Outcome State Fault Refusal :=
  .next <|
    match ctxOf s k with
    | some x =>
      if !resident s k x || modified != s.skim.dirty.contains k then s
      else if modified && isSvKind x.kind then
        let r := svRate x.sv.rate
        let now := s.time.tai / 1000000000 * r + s.time.tai % 1000000000 * r / 1000000000
        let s := updCtx k (fun x => { x with
          st := if x.st = 2 then 2 else 4, sv := { x.sv with highx := now, window := BitVec.allOnes 64, wvalid := true } }) s
        mirrorItem (.svDelta k now (BitVec.allOnes 64)) (event 5 8 s)
      else if modified && isGooseKind x.kind then
        let s := updCtx k (fun x => { x with gs := { x.gs with gvalid := false, fault := true } }) s
        mirrorItem (.gooseDelta k x.gs.stNum x.gs.sqNum x.gs.t false) (event 5 8 s)
      else
        logEv 0x0508 (lget (lget evtSeverity 5 []) 8 0) [BitVec.ofNat 64 (skmStatus s).toNat] (cntSkim 14 1 s)
    | none => s

/-- SUPERVISION_EXPIRY (R159, R160, R667): no later message came by the slot-start event of EXPIRY. -/
def execSupervisionExpiry (k : Nat) (s : State) : Host.Outcome State Fault Refusal :=
  .next <|
    match ctxOf s k with
    | some x =>
      let e := x.gs.expiry
      if isGooseKind x.kind && e != 0 && slotReached s x.bp e x.gs.expFrom then
        let s := updCtx k (fun x => { x with st := 5, gs := { x.gs with expiry := 0 } }) (cntCtx k 15 1 s)
        gooseEvent k 4 false x.gs.sim false x.gs e [] (event 5 10 s)
      else s
    | none => s

end Sys2Proof.Machine
end

