-- ==== Sys2Proof/Machine/Publ.lean ====
section
/-! DEFINITION. Publ.lean: publication (R284 to R308): templates, state changes, frames, retransmissions, published SV, and
the pub. commands. -/
namespace Sys2Proof.Machine

/-- GOOSE and routed GOOSE, SV and routed SV (PTYPE, R285). -/
def isGoosePub (x : Ctx) : Bool := x.kind == 5 && (x.pub.ptype == 0 || x.pub.ptype == 2)
def isSvPub (x : Ctx) : Bool := x.kind == 5 && (x.pub.ptype == 1 || x.pub.ptype == 3)
def isRouted (x : Ctx) : Bool := x.pub.ptype == 2 || x.pub.ptype == 3

/-- Template of context k (R286). -/
def templateOf (s : State) (k : Nat) : Template := (mget s.publ.templates (k - 0x5000)).getD default

/-- Changes the publication part of context k. -/
def updPub (k : Nat) (g : PubPart → PubPart) (s : State) : State := updCtx k (fun x => { x with pub := g x.pub }) s

/-! Members (R288, R292, R305, R675). -/

/-- The bits that a word gives a member: BOOLEAN and Dbpos take one and two bits from PARAM[4:0], or a BOOLEAN whether the
word is nonzero (PARAM[5]); for an ARG the other types take the word from that bit (R288). -/
def memberBits (type src param : Nat) (w : W32) : W32 :=
  let lo := param % 32
  if type = 2 then
    if param / 32 % 2 = 1 then (if w = 0 then 0 else 1) else BitVec.ofNat 32 (bits w lo lo)
  else if type = 3 then (w >>> lo) &&& 3
  else if src = 1 then w >>> lo
  else w

/-- Octets of a member's value from its source word, highest first (R288). -/
def memberOctets (type src param : Nat) (w : W32) : List Byte :=
  let v := if src = 0 then (if type = 2 then w &&& 1 else if type = 3 then w &&& 3 else w) else memberBits type src param w
  if type = 8 then Config.oddMember type src w
  else beOctets 4 v.toNat

/-- A derived row as fixed for a slot. -/
def derivedFixed (s : State) (d slot : Nat) : Option Row := fixedRow s (0x8000 + d) 0 slot

/-- One member's type and octets: argument, host words, t of the state and slot of the rows (R288, R292). -/
def memberValue (s : State) (arg : W32) (host : Option (List Byte)) (t : List Byte) (slot : Nat)
    (m : Nat × Nat × Nat × W32) : Nat × List Byte :=
  let (type, src, param, value) := m
  let row := (derivedFixed s (param % 4096) slot).getD default
  let octs : List Byte :=
    if type ≤ 1 then []
    else match src with
      | 0 => memberOctets type 0 0 value
      | 1 => memberOctets type 1 param arg
      | 2 => memberOctets type 2 param (match host with | some h => word32 h param | none => value)
      | 3 => beOctets 4 (lget row.vals (param / 4096 % 8) 0).toNat
      | 4 => beOctets 4 ((lget row.qual (param / 4096 % 8) 0).toNat % 8192)
      | 5 => beOctets 4 (if s.pair.paired then s.pair.gen else 0)
      | _ => if type = 8 then fit 8 t else Config.oddMember type src value
  (type, octs)

/-- Members of a frame. -/
def memberValues (s : State) (k : Nat) (arg : W32) (host : Option (List Byte)) (t : List Byte) (slot : Nat) :
    List (Nat × List Byte) :=
  (templateOf s k).members.map (memberValue s arg host t slot)

/-! Time and curve (R294, R298 to R300). -/

/-- TimeQuality octet (R294). -/
def timeQuality (s : State) : Nat :=
  b2n s.time.utcValid * 128 + b2n (s.time.tstate == 3) * 64 + b2n (s.time.tstate == 2 || s.time.tstate == 3) * 32 +
  (if s.time.tstate = 1 then 20 else if s.time.tstate = 2 then 10 else 31)

/-- UtcTime of an instant of TAI (R290, R294). -/
def utcAt (s : State) (tai : Nat) : List Byte :=
  let ns := ((tai : Int) - s.time.utcCfg * 1000000000).toNat
  beOctets 4 (ns / 1000000000) ++ beOctets 3 (ns % 1000000000 * 16777216 / 1000000000) ++ [BitVec.ofNat 8 (timeQuality s)]

/-- Intervals of a curve: those before the first 0 (R298). -/
def curveList (l : List Nat) : List Nat := l.takeWhile (· != 0)

/-- Interval at a position of the curve, TSTEADY past its end (R298). -/
def interval (p : PubPart) (pos : Nat) : Nat := (curveList p.curve).getD pos (max 1 p.tsteady)

/-- Position after one interval. -/
def nextPos (p : PubPart) (pos : Nat) : Nat := min (pos + 1) (curveList p.curve).length

/-- timeAllowedToLive for the interval that follows (R299), in ms, rounded up. -/
def ttlMs (gap m : Nat) : Nat := (2 * gap * 1000 + m - 1) / m

/-- The first retransmission slot of the curve after slot `cur`, and the position then (R298, R667). -/
def advanceCurve (p : PubPart) (cur : Nat) : Nat → Nat → Nat → Nat × Nat
  | 0, pos, n =>
    let d := max 1 p.tsteady
    (if n > cur then n else n + ((cur - n) / d + 1) * d, pos)
  | f + 1, pos, n => if n > cur then (n, pos) else advanceCurve p cur f (nextPos p pos) (n + interval p (nextPos p pos))

/-! Building and releasing frames (R296, R306, R307). -/

/-- The slot of the signing key and its key ID: the next key from SWITCH on (R306). -/
def pubKey (x : Ctx) (slot : Nat) : Nat × Nat × Bool :=
  if x.nxtValid && decide (slot ≥ x.switch) then (x.keyNxt, x.keyIdNxt.toNat, true) else (x.keyCur, x.keyIdCur.toNat, false)

/-- The frame of context k around an APDU, with its tag (R304, R306, R674); build and tag are work of class EGRESS (R306). -/
def pubPlain (x : Ctx) (t : Template) (spdu key keyId : Nat) (apdu : List Byte) (s : State) : List Byte × State :=
  let k := slotKey s key
  let plain := pubFrame t x.pub spdu x.macAlg keyId apdu (busTag x.macAlg k)
  (plain, tagWork x.macAlg 3 3 k (coveredOctets (isRouted x) x.macAlg plain) (openWork 6 plain.length 0 3 s))

/-- The tag at the end of a frame. -/
def tagAtEnd (alg : Nat) (plain : List Byte) : List Byte := plain.drop (plain.length - macTagLen alg)

/-- The publication frames ahead in queue 1 of a port take more than 2 µs (R307). -/
def burstAhead (s : State) (port : Nat) : Bool :=
  let q := lget (lget s.ports port default).queues 1 []
  let pubs := q.filter (fun f => match f.body with | .goose .. => true | .sv .. => true | _ => false)
  decide ((pubs.map (fun f => wireNs (cfgOf s (port / 2)).ltype f.octets)).sum > 2000)

/-- LANs of a bus pair that a publication can use (R97). -/
def lanCount (s : State) (b : Nat) : Nat := b2n (lanAvail s b false) + b2n (lanAvail s b true)

/-- Memory identifier of the template store for injected Lath errors, 128 words a template (R286, R511, log 32). -/
def templateMem : Nat := 0x80

/-- A word of the template of context k cannot be corrected: it is never delivered (R18), and no frame is built from it. -/
def templateBad (s : State) (k : Nat) : Bool := s.injected.any (fun x => x.1 == templateMem && x.2 / 128 == k - 0x5000)

/-- Releases a built frame of context k to queue 1 of both ports (R97, R306, R308). -/
def releasePub (k b : Nat) (f : TxFrame) (s : State) : State :=
  if templateBad s k then s else
  let n := lanCount s b
  let burst := (lanAvail s b false && burstAhead s (2 * b)) || (lanAvail s b true && burstAhead s (2 * b + 1))
  let s := updPub k (fun p => { p with inFlight := p.inFlight + n }) s
  let s := sendBoth b 1 f.body f.plain f.vlan f.src s
  let s := cntCtx k 1 (if n = 0 then 0 else 1) s
  cntCtx k 11 (b2n burst) (cntCtx k 3 (b2n (n == 1)) s)

/-- A GOOSE frame of context k in its present state, sent at a slot: PGEN and members filled, key selected, tag computed
(R304 to R306). -/
def buildGoose (k slot : Nat) (s : State) : State × TxFrame :=
  let x := (ctxOf s k).getD default
  let t := templateOf s k
  let p := x.pub
  let ms := memberValues s k p.argLast p.host p.t slot
  let (key, kid, nx) := pubKey x slot
  let ttl := ttlMs (interval p p.stepPos) (slotRate s x.bp)
  let spdu := if isRouted x then succ32 p.spdu else 0
  let (plain, s) := pubPlain x t spdu key kid (gooseApdu t p.stNum p.sqNum p.t ttl ms) s
  let body : TxBody := .goose (isRouted x) k p.stNum p.sqNum p.t ttl ms kid (tagAtEnd x.macAlg plain) spdu
  (cntCtx k 12 (b2n nx) (updPub k (fun q => { q with spdu := if isRouted x then spdu else q.spdu }) s),
   newFrame s x.bp 0 body plain p.vlan p.srcMac)

/-- What has changed in a publication's context beside its state reaches the standby (R40, R143). -/
def pubDelta (k : Nat) (s : State) : State :=
  let p := ((ctxOf s k).getD default).pub
  mirrorItem (.pubDelta k p.sqNum p.nextTx p.stepPos p.spdu p.lastSlot) s

/-- The frame of a state change leaves: at once, or held for the mirroring of the state in a pair (R296). `raise`: the
program, entry and slot of a raise; `tok`: of a pub.send. -/
def sendState (k tok : Nat) (raise : Option (Nat × Nat × Nat)) (s : State) : State :=
  let x := (ctxOf s k).getD default
  let (s, f) := buildGoose k (curSlot s x.bp) s
  if mirrors s then
    let p := x.pub
    let s := emit (.pair (.mirror (.pubState k p.stNum p.t p.argLast (p.host.getD []) raise tok))) s
    let s := updPub k (fun p => { p with inFlight := p.inFlight + 1 }) s
    { s with publ := { s.publ with heldTx := s.publ.heldTx ++ [(tok, x.bp, k, f)] } }
  else releasePub k x.bp f s

/-- The frames held for a token's mirroring are released; of changes without a token the oldest (R33, R296). -/
def releaseHeld (tok : Nat) (s : State) : State :=
  let all := s.publ.heldTx.filter (fun h => h.1 == tok)
  let mine := if tok = 0 then all.take 1 else all
  let s := { s with publ := { s.publ with
    heldTx := if tok = 0 then s.publ.heldTx.eraseP (fun h => h.1 == 0) else s.publ.heldTx.filter (fun h => h.1 != tok) } }
  mine.foldl (fun s h => frameGone h.2.2.1 (releasePub h.2.2.1 h.2.1 h.2.2.2 s)) s

/-- A state change of a GOOSE publication at an instant of TAI (R290, R291, R298, R300). -/
def stateChange (k tok inst : Nat) (arg : Option W32) (host : Option (List Byte)) (raise : Option (Nat × Nat × Nat)) (s : State) :
    State :=
  let x := (ctxOf s k).getD default
  let now := curSlot s x.bp
  let t := utcAt s inst
  let from_ := nextFire s x.bp
  let s := updPub k (fun p =>
    let p := match p.nextCurve with | some (cv, st) => { p with curve := cv, tsteady := st, nextCurve := none } | none => p
    { p with
      stNum := succ32 p.stNum, sqNum := 0, t := t, svalid := true, stepPos := 0, nextTx := now + interval p 0, txFrom := from_
      argLast := arg.getD p.argLast, host := match host with | some h => some h | none => p.host }) s
  sendState k tok raise (cntCtx k 0 1 s)

/-- GOOSE_RETRANSMIT (R98, R298, R299, R667): at the slot-start event of NEXTTX. With no LAN it is counted as missed and
the curve goes on; several that fell in skipped slots make one frame. It does not pass the frame of its own state, which may
still wait for mirroring (R291, R296). -/
def retransmit (k : Nat) (s : State) : State :=
  match ctxOf s k with
  | some x =>
    let cur := (bpOf s x.bp).fired.getD 0
    if isGoosePub x && x.st == 1 && x.pub.svalid && x.pub.nextTx != 0 && slotReached s x.bp x.pub.nextTx x.pub.txFrom &&
        publishes s && !s.publ.heldTx.any (fun h => h.2.2.1 == k) then
      let (n, pos) := advanceCurve x.pub cur 8 x.pub.stepPos x.pub.nextTx
      let from_ := nextFire s x.bp
      let s := updPub k (fun p => { p with nextTx := n, txFrom := from_, stepPos := pos }) s
      if lanCount s x.bp = 0 then pubDelta k (cntCtx k 4 1 s)
      else
        let s := updPub k (fun p => { p with sqNum := succ32 p.sqNum }) s
        let (s, f) := buildGoose k cur s
        pubDelta k (releasePub k x.bp f (cntCtx k 2 1 s))
    else s
  | none => s

def execGooseRetransmit (k : Nat) (s : State) : Host.Outcome State Fault Refusal := .next (retransmit k s)

/-- PUB_FIRST_STATE (R292): stNum 1 at the first slot-start event after pub.open took effect, with VALUE for HOST members
and 0 for ARG members. -/
def execPubFirstState (k : Nat) (s : State) : Host.Outcome State Fault Refusal :=
  .next <|
    match ctxOf s k with
    | some x =>
      if isGoosePub x && x.st == 1 && !x.pub.svalid && (bpOf s x.bp).fired.any (fun n => decide (n > x.pub.lastSlot)) && publishes s then
        stateChange k 0 s.time.tai none none none s
      else s
    | none => s

/-- Derived rows that a template reads (R288). -/
def rowsRead (t : Template) : List Nat := (t.members.filter (fun m => m.2.1 == 3 || m.2.1 == 4)).map (fun m => m.2.2.1 % 4096)

/-- Every derived row that the frame of slot m reads is fixed for its slots (R301, R302). -/
def svReady (s : State) (k : Nat) (x : Ctx) (m : Nat) : Bool :=
  decide (m > x.pub.lastSlot) && m % (max 1 x.pub.nasdu) == x.pub.nasdu - 1 &&
  (rowsRead (templateOf s k)).all (fun d => (List.range x.pub.nasdu).all (fun i => (derivedFixed s d (m - i)).isSome))

/-- Slots of a bus pair whose rows are fixed, the oldest of those that satisfy p. -/
def firstFixed (s : State) (b : Nat) (p : Nat → Bool) : Option Nat :=
  ((s.hawk.fixed.filter (fun f => f.bp == b && p f.slot)).map (·.slot)).foldl
    (fun o n => match o with | some m => some (min m n) | none => some n) none

/-- SV_FRAME_BUILD (R301, R302): the frame of the next slot whose derived rows are fixed. -/
def execSvFrameBuild (k : Nat) (s : State) : Host.Outcome State Fault Refusal :=
  .next <|
    match ctxOf s k with
    | some x =>
      if isSvPub x && x.st == 1 && publishes s && s.time.tstate != 0 then
        match firstFixed s x.bp (svReady s k x) with
        | none => s
        | some m =>
          let n := x.pub.nasdu
          let t := templateOf s k
          let rate := slotRate s x.bp
          let asdus := (List.range n).map (fun i =>
            let sl := m + 1 - n + i
            (sl % rate, (if s.time.tstate = 3 then 0 else 2), memberValues s k 0 none [] sl))
          let (key, kid, nx) := pubKey x m
          let spdu := if isRouted x then succ32 x.pub.spdu else 0
          let (plain, s) := pubPlain x t spdu key kid (svApdu t rate asdus) s
          let body : TxBody := .sv (isRouted x) k asdus kid (tagAtEnd x.macAlg plain) spdu
          let skipped := if x.pub.lastSlot = 0 then 0 else m - n - x.pub.lastSlot
          let s := updPub k (fun p => { p with lastSlot := m, spdu := if isRouted x then spdu else p.spdu }) s
          pubDelta k (releasePub k x.bp (newFrame s x.bp 0 body plain x.pub.vlan x.pub.srcMac)
            (cntCtx k 10 skipped (cntCtx k 12 (b2n nx) s)))
      else s
    | none => s

/-- A new active publishes SV from the first slot that it fixes (R303): the frames that hold a slot fixed before, or one that
it only catches up, are not sent. -/
def svResume (k : Nat) (s : State) : State :=
  match ctxOf s k with
  | some x =>
    if isSvPub x then
      let fixed (n : Nat) : Bool := (rowsRead (templateOf s k)).all (fun d => (derivedFixed s d n).isSome)
      let top := ((s.hawk.fixed.filter (fun f => f.bp == x.bp && fixed f.slot)).map (·.slot)).foldl max 0
      let m := max 1 x.pub.nasdu
      updPub k (fun p => { p with lastSlot := max p.lastSlot (if top = 0 then 0 else top / m * m + m - 1) }) s
    else s
  | none => s

/-- The frame of a pub.send that the old active journalled goes out with its stNum and the next sqNum, unless a later change
has taken its place (R39, R40). -/
def resend (k : Nat) (stNum : W32) (s : State) : State :=
  match ctxOf s k with
  | some x =>
    if isGoosePub x && x.st == 1 && x.pub.svalid && BitVec.ofNat 32 x.pub.stNum == stNum && lanCount s x.bp != 0 then
      let (s, f) := buildGoose k (curSlot s x.bp) (updPub k (fun p => { p with sqNum := succ32 p.sqNum }) s)
      pubDelta k (releasePub k x.bp f (cntCtx k 2 1 s))
    else s
  | none => s

/-! Raises (R98, R239, R291, R296, R297). -/

/-- The raise entry i of a program names a GOOSE publication that still matches its name hash (R239). -/
def raiseCtx (s : State) (g : Prog) (i : Nat) : Option Nat :=
  match lget g.img.raises i none with
  | some (k, h) =>
    match ctxOf s k with
    | some x => if isGoosePub x && x.st != 2 && decide (x.nameh = h) then some k else none
    | none => none
  | none => none

/-- Bus pair that a program is bound to. -/
def progGrid (s : State) (p : Nat) : Nat := ((progOf s p).getD default).bind_.bp

/-- PENDING_RAISE_DISCARD (R297): 64 slots after its slot. -/
def execPendingRaiseDiscard (s : State) : Host.Outcome State Fault Refusal :=
  .next { s with publ := { s.publ with
    pend := s.publ.pend.filter (fun q => decide (curSlot s q.bp < q.slot + 64))
    taken := s.publ.taken.filter (fun r => decide (curSlot s (progGrid s r.1) < r.2.2 + 64)) } }

/-! Templates (R286 to R289). -/

/-- A string padded to a multiple of 4 octets (R287). -/
def pad4 (n : Nat) : Nat := (n + 3) / 4 * 4

/-- A member as read. -/
def memberAt (l : List Byte) (o : Nat) : Nat × Nat × Nat × W32 :=
  (field l o 1, field l (o + 1) 1, field l (o + 2) 2, word32 l (o + 4))

/-- Depth of the structures stays from 0 to 8 and ends at 0 (R289). -/
def balanced : List (Nat × Nat × Nat × W32) → Nat → Bool
  | [], d => d == 0
  | (0, _) :: l, d => decide (d < 8) && balanced l (d + 1)
  | (1, _) :: l, d => decide (d > 0) && balanced l (d - 1)
  | _ :: l, d => balanced l d

/-- A member is allowed in a kind (R288, R289). -/
def memberOk (goose : Bool) (m : Nat × Nat × Nat × W32) : Bool :=
  let (type, src, param, _) := m
  decide (type ≤ 8) && decide (src ≤ 6) && (goose || type == 4 || type == 5 || type == 6) &&
  (type != 7 || src == 0 || src == 2) && !(goose && (src == 3 || src == 4)) && !(!goose && src == 6) &&
  (src != 2 || (decide (param ≤ 1020) && param % 4 == 0))

/-- The template of an input of n octets for a PTYPE (R286 to R289); none where it breaks R289. -/
def parseTemplate (ptype n : Nat) (l : List Byte) : Option Template :=
  let goose := ptype == 0 || ptype == 2
  let nm := field l 9 1
  let a := field l 0x0C 2
  let d := field l 0x0E 2
  let g := field l 0x10 2
  let o1 := 32 + pad4 a
  let o2 := o1 + pad4 d
  let o3 := o2 + pad4 g
  let o4 := o3 + if ptype ≥ 2 then 32 else 0
  let ms := (List.range nm).map (fun i => memberAt l (o4 + 8 * i))
  let ipOk := ptype < 2 || (decide (octets l o3 12 = List.replicate 10 0 ++ [0xFF, 0xFF]) ==
    decide (octets l (o3 + 16) 12 = List.replicate 10 0 ++ [0xFF, 0xFF]))
  if decide (n ≤ 2048) && field l 8 1 == 1 && field l 0x0A 2 == 0 && nm != 0 && a != 0 && decide (a ≤ 129) && decide (d ≤ 129) &&
     decide (g ≤ 129) && (!goose || g != 0) && (goose || g == 0) && field l 0x12 2 == 0 && decide (field l 0x18 4 < 8) &&
     field l 0x1C 4 == 0 && n == o4 + 8 * nm && ipOk && ms.all (memberOk goose) && balanced ms 0 then
    some { dstMac := beNat (octets l 0 6), appid := beNat (octets l 6 2), dsLen := d, goidLen := g, confRev := word32 l 0x14
           ndsCom := bit (word32 l 0x18) 0, sim := bit (word32 l 0x18) 1, smpRate := bit (word32 l 0x18) 2
           name := octets l 32 a, ds := octets l o1 d, goid := octets l o2 g
           srcIp := if ptype ≥ 2 then octets l o3 16 else [], dstIp := if ptype ≥ 2 then octets l (o3 + 16) 16 else []
           members := ms }
  else none

/-- A member at its longest: an INTEGER at the largest value of its type (R289). -/
def longestMember (m : Nat × Nat × Nat × W32) : Nat × List Byte :=
  (m.1, if m.1 = 5 then [0x80, 0, 0, 0] else [0xFF, 0xFF, 0xFF, 0xFF])

/-- Octets of a publication's longest frame on the line (R289): every number at its largest, the 802.1Q tag where VLANTCI is
not 0, RCT or HSR tag, SecTAG with ICV, and FCS. -/
def longestOctets (t : Template) (p : PubPart) (alg : Nat) : Nat :=
  let ms := t.members.map longestMember
  let apdu := if p.ptype % 2 = 1 then svApdu t 0xFFFF (List.replicate p.nasdu (0xFFFF, 0, ms))
    else gooseApdu t 0xFFFFFFFF 0xFFFFFFFF [] 0xFFFFFFFF ms
  (pubFrame t p 0xFFFFFFFF alg 0xFFFFFFFF apdu (fun _ => List.replicate (macTagLen alg) 0)).length +
    (vlanTag p.vlan).length + 6 + secOctets + 4

/-! pub.open (R284, R289; the places of its parameters are the model's, log 27). -/

def pubOpenRow : OpRow :=
  { opc := 0x4001, who := 0, ctx := 0xFFFF, inp := true, out := false
    params := [0x07FF3F03, 0xFFFFFFFF, 0xFFFFFFFF, 0xFFFFFFFF, 0xFFFFFFFF, 0xFFFFFFFF, 0xFFFFFFFF] }

/-- Parameters: PTYPE, bus pair, NASDU, owner, MAC algorithm, current and next key slot, source MAC, next hop, VLAN, DSCP, hops. -/
def poType (c : Cmd) : Nat := bits (cw c 8) 1 0
def poBp (c : Cmd) : Nat := bits (cw c 8) 9 8
def poNasdu (c : Cmd) : Nat := bits (cw c 8) 13 10
def poFn (c : Cmd) : Nat := bits (cw c 8) 22 16
def poKey (c : Cmd) : Nat := bits (cw c 9) 15 0
def poNext (c : Cmd) : Nat := bits (cw c 13) 15 0
def poAlg (c : Cmd) : Nat := bits (cw c 8) 26 23
def poSrc (c : Cmd) : Nat := beNat (leOctets 4 (cw c 10).toNat ++ leOctets 2 (bits (cw c 11) 15 0))
def poHop (c : Cmd) : Nat :=
  beNat (leOctets 2 (bits (cw c 9) 31 16) ++ leOctets 2 (bits (cw c 11) 31 16) ++ leOctets 2 (bits (cw c 13) 31 16))
def poHops (c : Cmd) : Nat := bits (cw c 12) 31 24

/-- Fields that only a routed kind uses hold 0 in the others. -/
def poUnused (c : Cmd) : Bool :=
  poType c < 2 && (bits (cw c 9) 31 16 != 0 || bits (cw c 11) 31 16 != 0 || bits (cw c 13) 31 16 != 0 || bits (cw c 12) 31 16 != 0)

/-- The publication part of a context as pub.open sets it (R285), the default curve among it (R300). -/
def openPart (c : Cmd) (steady last : Nat) : PubPart :=
  { (default : PubPart) with
    ptype := poType c, nasdu := poNasdu c, srcMac := poSrc c, vlan := bits (cw c 12) 15 0
    nextHop := poHop c, dscp := bits (cw c 12) 23 16, hops := poHops c
    curve := [4, 8, 16, 64, 256, 1024], tsteady := steady, lastSlot := last }

/-- The key slots of pub.open: a next one that is named is checked as the current one is (R285, R289, log 27). -/
def openKeys (c : Cmd) (s : State) : Option Nat :=
  if poAlg c = 0 then none
  else match macKeyFail s 4 (poAlg c) (poKey c) with
    | some st => some st
    | none => if poNext c = 0 then none else macKeyFail s 4 (poAlg c) (poNext c)

/-- R133 as R289 applies it, then the template, the rows it names and the keys. -/
def pubOpenCheck (c : Cmd) (s : State) : Option Nat :=
  let k := cCtx c
  let ty := poType c
  let sv := ty == 1 || ty == 3
  let m := (bpOf s (poBp c)).mrate
  match firstFail
    [(poUnused c, 0x0105),
     (decide (k < 0x5000) || decide (k > 0x57FF) || decide (poFn c > 64) || decide (poAlg c > 7) ||
      (poAlg c == 0 && (poKey c != 0 || poNext c != 0)) || (sv && (poNasdu c == 0 || decide (poNasdu c > 8))) || (!sv && poNasdu c != 0) ||
      (ty ≥ 2 && (poHops c == 0 || decide (bits (cw c 12) 23 16 > 63))), 0x0705),
     ((ctxOf s k).isSome, 0x0706)] with
  | some st => some st
  | none =>
    match parseTemplate ty (cLen c) c.input with
    | none => some 0x0104
    | some t =>
      match firstFail
        [(decide (longestOctets t (openPart c 0 0) (poAlg c) > 1600), 0x0104),
         ((rowsRead t).any (fun d => match rowHome s (0x8000 + d) with
            | some h => (bpOf s h.1).mrate != m
            | none => true), 0x070D),
         (sv && m == 0, 0x0701)] with
      | some st => some st
      | none => openKeys c s

/-- The context is allocated with the default curve (R285, R300). -/
def pubOpenEff (c : Cmd) (s : State) : Eff :=
  let k := cCtx c
  let b := poBp c
  let t := (parseTemplate (poType c) (cLen c) c.input).getD default
  let x : Ctx := { (default : Ctx) with
    kind := 5, st := 1, bp := b, fn := poFn c, gen := nextGen s k, nameh := (Config.hash 3 t.name).take 16, sim := t.sim
    keyCur := poKey c, keyNxt := poNext c, keyIdCur := cw c 14, macAlg := poAlg c, cnt := List.replicate 16 0
    pub := openPart c (slotRate s b) (if s.time.tstate = 0 then 0 else curSlot s b) }
  let s := newCtx k x s
  done { s with publ := { s.publ with templates := mset s.publ.templates (k - 0x5000) t } }

/-- PUB_OPEN (R289). -/
def execPubOpen (c : Cmd) (s : State) : Host.Outcome State Fault Refusal := .next (runConfig pubOpenCheck pubOpenEff c s)

/-- The context in CTX is no publication, or is DRAINING where that is not allowed (R672). -/
def notPub (s : State) (k : Nat) (draining : Bool) : Bool :=
  match ctxOf s k with
  | some x => x.kind != 5 || (x.st == 2 && !draining)
  | none => true

/-- pub.close (R295). -/
def pubCloseRow : OpRow := { opc := 0x4002, who := 0, ctx := 0xFFFF, inp := false, out := false, params := [] }
def pubCloseCheck (c : Cmd) (s : State) : Option Nat := firstFail [(notPub s (cCtx c) false, 0x0705)]
def pubCloseEff (c : Cmd) (s : State) : Eff :=
  let k := cCtx c
  let s := updCtx k (fun x => { x with st := 2, pub := { x.pub with nextTx := 0, inFlight := x.pub.inFlight + 1 } }) s
  done (frameGone k s)

/-- PUB_CLOSE (R295). -/
def execPubClose (c : Cmd) (s : State) : Host.Outcome State Fault Refusal := .next (runConfig pubCloseCheck pubCloseEff c s)

/-- pub.send (R290, R293). -/
def pubSendRow : OpRow := { opc := 0x4003, who := 2, ctx := 0xFFFF, inp := true, out := false, params := [] }

/-- Highest HOST offset plus 4 of a template (R293). -/
def hostNeed (t : Template) : Nat := ((t.members.filter (fun m => m.2.1 == 2)).map (fun m => m.2.2.1 + 4)).foldl max 0

/-- R293: LEN is checked before admission. -/
def pubSendPre (c : Cmd) (s : State) : Option Nat :=
  firstFail
    [(decide (cLen c > 1024), 0x0106),
     (cLen c % 4 != 0 || (!notPub s (cCtx c) true && decide (cLen c < hostNeed (templateOf s (cCtx c)))), 0x0104)]

def pubSendCheck (c : Cmd) (s : State) : Option Nat :=
  let x := (ctxOf s (cCtx c)).getD default
  firstFail [(notPub s (cCtx c) false || !isGoosePub x, 0x0705), (s.time.tstate == 0, 0x0702)]

/-- A state change with the input as HOST words, or PORT_DOWN with nothing changed but its count (R98, R292). -/
def pubSendEff (c : Cmd) (s : State) : Eff :=
  let k := cCtx c
  let x := (ctxOf s k).getD default
  if lanCount s x.bp = 0 then { st := cntCtx k 7 1 s, status := 0x0703 }
  else
    let s := stateChange k c.tok (((jent s c.tok).map (·.tai)).getD s.time.tai) none (some c.input) none s
    { st := s, result := BitVec.ofNat 32 ((ctxOf s k).getD default).pub.stNum }

/-- No pub.send of the publication with a smaller token waits (R291). -/
def sendTurn (c : Cmd) (s : State) : Bool :=
  s.journal.all (fun e => decide (e.1 ≥ c.tok) || e.2.outcome.isSome || e.2.remote || Cmd.opc e.2.cmd != 0x4003 ||
    cCtx e.2.cmd != cCtx c)

/-- A pub.send in its turn. -/
def runSend (c : Cmd) (s : State) : State := if sendTurn c s then runPlain pubSendCheck pubSendEff c s else s

/-- The state unit takes the pub.send commands of a publication that are admitted, in the order of their tokens (R291). -/
def takeSends (k : Nat) (s : State) : State :=
  ((s.journal.filter (fun e => Cmd.opc e.2.cmd == 0x4003 && cCtx e.2.cmd == k)).map (·.2.cmd)).foldl (fun s c => runSend c s) s

/-- PUB_SEND (R290, R291, R293). -/
def execPubSend (c : Cmd) (s : State) : Host.Outcome State Fault Refusal := .next (runSend c s)

/-- A state change by a raise, or its count where no LAN or no time is there (R55, R98); a pub.send admitted before it is
taken before it (R291). -/
def performRaise (k : Nat) (arg : W32) (raise : Nat × Nat × Nat) (s : State) : State :=
  let s := takeSends k s
  match ctxOf s k with
  | some x =>
    if s.time.tstate = 0 then cntCtx k 6 1 s
    else if lanCount s x.bp = 0 then cntCtx k 5 1 s
    else stateChange k 0 s.time.tai (some arg) none (some raise) s
  | none => s

/-- Pending raises in slot order, and within a slot in the order of their issue (R291, R297). -/
def bySlot : List PendRaise → List PendRaise
  | [] => []
  | q :: l =>
    let r := bySlot l
    r.takeWhile (fun x => decide (x.slot < q.slot)) ++ q :: r.dropWhile (fun x => decide (x.slot < q.slot))

/-- A pending raise is performed at a takeover, and counted where it is sent (R297, R308). -/
def performPend (q : PendRaise) (s : State) : State :=
  let was := (ctxOf s q.ctx).map (·.pub.stNum)
  let s := performRaise q.ctx q.arg (q.prog, q.entry, q.slot) s
  if (ctxOf s q.ctx).map (·.pub.stNum) = was then s else cntCtx q.ctx 9 1 s

/-- A raise of program p that returns RAISED: performed by the member that publishes, held as a pending raise by a standby
that has not yet received the active's state change for it (R239, R247, R297). -/
def raised (p i k : Nat) (arg : W32) (g : Prog) (s : State) : State :=
  if publishes s then performRaise k arg (p, i, g.slot) (cntTrw 4 1 s)
  else
    let x := (ctxOf s k).getD default
    let s := cntCtx k 8 1 (cntTrw 5 1 s)
    if s.publ.taken.contains (p, i, g.slot) then s
    else { s with publ := { s.publ with pend := s.publ.pend ++ [⟨g.slot, p, i, arg, k, x.bp⟩] } }

/-- pub.curve (R298, R300): words 8 to 10 the six intervals, words 11 and 12 TSTEADY (log 27). -/
def pubCurveRow : OpRow :=
  { opc := 0x4004, who := 0, ctx := 0xFFFF, inp := false, out := false
    params := [0xFFFFFFFF, 0xFFFFFFFF, 0xFFFFFFFF, 0xFFFFFFFF, 0xFFFFFFFF] }
def curveOf (c : Cmd) : List Nat := (List.range 6).map (fun i => bits (cw c (8 + i / 2)) (16 * (i % 2) + 15) (16 * (i % 2)))

/-- R298: intervals before the first 0 do not decrease, and TSTEADY is no smaller than the last. -/
def curveBad (l : List Nat) (steady : Nat) : Bool :=
  let cl := curveList l
  steady == 0 || decide (steady > 65535) || (List.range (cl.length - 1)).any (fun i => decide (lget cl i 0 > lget cl (i + 1) 0)) ||
  decide (cl.getLastD 0 > steady)

def pubCurveCheck (c : Cmd) (s : State) : Option Nat :=
  let x := (ctxOf s (cCtx c)).getD default
  firstFail [(notPub s (cCtx c) false || !isGoosePub x, 0x0705), (curveBad (curveOf c) (cw64 c 11), 0x0104)]
def pubCurveEff (c : Cmd) (s : State) : Eff :=
  done (updPub (cCtx c) (fun p => { p with nextCurve := some (curveOf c, cw64 c 11) }) s)

/-- PUB_CURVE (R300). -/
def execPubCurve (c : Cmd) (s : State) : Host.Outcome State Fault Refusal := .next (runConfig pubCurveCheck pubCurveEff c s)

/-- pub.stats (R308, R672): word 8 [0] clears. -/
def pubStatsRow : OpRow := { opc := 0x4005, who := 2, ctx := 0xFFFF, inp := false, out := true, params := [1] }
def pubStatsCheck (c : Cmd) (s : State) : Option Nat := firstFail [(notPub s (cCtx c) true, 0x0705)]

/-- PUB_STATS (R308). -/
def execPubStats (c : Cmd) (s : State) : Host.Outcome State Fault Refusal := .next (runPlain pubStatsCheck statsEff c s)

end Sys2Proof.Machine
end

