-- ==== Sys2Proof/Machine/Trowel.lean ====
section
/-! DEFINITION. Trowel.lean: programs (R216 to R252): images, bindings, releases and the end of slot work, derived rows,
mailboxes, hot swaps, retirement and the relocation plan, and the trowel. commands. -/
namespace Sys2Proof.Machine

/-! Images (R219, R220). -/

/-- Data bytes of an image (R217, R246). -/
def imgData (i : Image) : Nat := i.idata.length + i.zdata

/-- One past the last byte of a program's data partition: the first value of sp (R218). -/
def spOf (i : Image) : W32 := BitVec.ofNat 32 (0x10000 + imgData i)

/-- Data as the image initialises it. -/
def freshData (i : Image) : List Host.Cell := memWrN [] 0 i.idata

/-- The sizes of an image of n octets lie in their ranges (R219, R221). -/
def imageOk (l : List Byte) (n : Nat) : Bool :=
  let code := field l 0x0C 4
  let idat := field l 0x10 4
  let zdat := field l 0x14 4
  let entry := field l 0x18 4
  let rest := field l 0x1C 4
  let budget := field l 0x20 4 % 8192
  decide (n ≥ 512) && decide (octets l 0 4 = [0x56, 0x4B, 0x54, 0x57]) && field l 4 1 == 1 &&
  code % 4 == 0 && decide (4 ≤ code ∧ code ≤ 32768) && idat % 4 == 0 && zdat % 4 == 0 &&
  decide (4 ≤ idat + zdat ∧ idat + zdat ≤ 65536) && entry % 4 == 0 && decide (entry < code) && rest % 4 == 0 &&
  decide (rest < code) && decide (64 ≤ budget ∧ budget ≤ 5536) && decide (field l 0x24 4 % 8192 ≤ 4096) &&
  decide (field l 0x26 1 ≤ 192) && decide (field l 0x28 4 % 128 ≤ 64) && n == 512 + code + idat + 4627

/-- The octets that the signature covers (R220). -/
def signedPart (l : List Byte) : List Byte := octets l 0 (512 + field l 0x0C 4 + field l 0x10 4)

/-- The image for program p of an input that imageOk accepts, with its measurement (R219, R611). -/
def parseImage (p : Nat) (l : List Byte) : Image :=
  let code := field l 0x0C 4
  { oepoch := field l 5 1, pver := field l 8 4
    code := (List.range (code / 4)).map (fun i => word32 l (512 + 4 * i))
    idata := octets l (512 + code) (field l 0x10 4), zdata := field l 0x14 4
    entry := word32 l 0x18, restart := word32 l 0x1C, budget := field l 0x20 4 % 8192
    nsheet := field l 0x24 4 % 8192, nhist := field l 0x26 1, nderiv := field l 0x28 4 % 128
    raises := (List.range 8).map (fun i =>
      if bit (word32 l (0x40 + 24 * i)) 16 then some (field l (0x40 + 24 * i) 2, octets l (0x48 + 24 * i) 16) else none)
    meas := Config.hash 5 (signedPart l ++ leOctets 2 p) }

/-- The image's signature verifies under a key (R220). -/
def imageSigned (s : State) (k : Nat) (l : List Byte) (n : Nat) : Bool :=
  let sig := octets l (n - 4627) 4627
  Config.pkeValid 0x0B (slotKey s k) sig &&
  Config.pkeVerify 0x0B (slotKey s k) (text "VK9612 trowel") (Config.hash 5 (signedPart l)) sig

/-! The relocation plan (R217, R229, R248). -/

/-- Images that a program occupies: its own and one that waits for a hot swap. -/
def imgsOf (g : Prog) : List Image :=
  g.img :: (match g.swap with | some (i, _, _) => [i] | none => [])

/-- Cycles, code bytes and data bytes that a program takes of its core (R217, R229): with an image waiting, the larger
BUDGET. -/
def cyclesOf (g : Prog) : Nat := ((imgsOf g).map (·.budget)).foldl max 0 + 64
def codeOf (g : Prog) : Nat := ((imgsOf g).map (fun i => 4 * i.code.length)).sum
def dataOf (g : Prog) : Nat := ((imgsOf g).map imgData).sum

/-- Programs placed on core c. -/
def onCore (ps : Map Prog) (c : Nat) : List (Nat × Prog) := ps.filter (fun e => e.2.core == c && e.2.st != 4)

/-- Core c holds a further program g up to a capacity in cycles. -/
def coreFits (ps : Map Prog) (g : Prog) (cap c : Nat) : Bool :=
  let l := (onCore ps c).map (·.2)
  decide ((l.map cyclesOf).sum + cyclesOf g ≤ cap) && decide ((l.map codeOf).sum + codeOf g ≤ 32768) &&
  decide ((l.map dataOf).sum + dataOf g ≤ 65536) && decide (l.length < 8)

/-- Inserts a program in decreasing BUDGET, ascending number among equals (R248). -/
def insertBudget (e : Nat × Prog) : List (Nat × Prog) → List (Nat × Prog)
  | [] => [e]
  | x :: l => if e.2.img.budget > x.2.img.budget then e :: x :: l else x :: insertBudget e l

/-- First fit of programs over the cores in service, without core `avoid` (R248). -/
def firstFit (retired : List Nat) (avoid : Nat) : List (Nat × Prog) → Map Prog → List (Nat × Option Nat)
  | [], _ => []
  | (n, g) :: l, ps =>
    match (List.range 64).find? (fun c => c != avoid && !retired.contains c && coreFits ps g 6400 c) with
    | some c => (n, some c) :: firstFit retired avoid l (mset ps n { g with core := c })
    | none => (n, none) :: firstFit retired avoid l ps

/-- The plan for core c: where each of its programs would go. -/
def planFor (retired : List Nat) (ps : Map Prog) (c : Nat) : List (Nat × Option Nat) :=
  firstFit retired c ((onCore ps c).foldl (fun l e => insertBudget e l) [])
    (ps.filter (fun e => !(e.2.core == c && e.2.st != 4)))

/-- Cores in service that the plan cannot cover (R251). -/
def uncovered (retired : List Nat) (ps : Map Prog) : List Nat :=
  (List.range 64).filter (fun c => !retired.contains c && (planFor retired ps c).any (fun e => e.2.isNone))

/-- TRW_CORES (R252). -/
def trwCores (s : State) : Nat := (64 - s.trowel.retired.length) + 256 * s.trowel.retired.length

/-- The plan is recomputed (R251). -/
def replan (s : State) : State :=
  let short := !(uncovered s.trowel.retired s.trowel.progs).isEmpty
  let was := s.trowel.spareShort
  let s := { s with trowel := { s.trowel with spareShort := short } }
  if short && !was then logEv 0x0720 4 [BitVec.ofNat 64 (trwCores s)] s else s

/-! Fields of the mailbox region (R240). -/

def mbRd (g : Prog) (off : Nat) : Nat := leNat (memRdN g.mbox off 4)
def mbWr (off : Nat) (v : W32) (g : Prog) : Prog := { g with mbox := memWrN g.mbox off (w32le v) }

/-- OUTLEN and TRIGSET cleared (R233, R235). -/
def clearOut (g : Prog) : Prog := mbWr 0x208 0 { g with mbox := memWrN g.mbox 0x220 (List.replicate 32 0) }

/-! Derived rows (R237). -/

/-- Row j of a program's derived window as a row: values and quality words as stored, ORIGIN DERIVED, XSMP n. -/
def windowRow (g : Prog) (num j n : Nat) : Row :=
  { stream := 0x8000 + num, sub := 0, rstat := 4, srcf := 0, prov := 0, lanb := false, sync := 0, xsmp := n
    vals := (List.range 8).map (fun i => BitVec.ofNat 32 (leNat (memRdN g.dwin (64 * j + 16 + 4 * i) 4)))
    qual := (List.range 8).map (fun i => BitVec.ofNat 16 (leNat (memRdN g.dwin (64 * j + 48 + 2 * i) 2) % 8192 + 8192)) }

/-- The row of a program without values (R237). -/
def noneRow (num n : Nat) : Row := { missingRow (0x8000 + num) 0 n with rstat := 6 }

/-- A held derived row: the last produced, ORIGIN DERIVED_HELD, OLD set (R183, R237). -/
def heldRow (r : Row) : Row :=
  { r with rstat := 5, qual := r.qual.map (fun q => BitVec.ofNat 16 (q.toNat % 8192) ||| 0x80 ||| 0xE000) }

/-- Row of a program that was not released in slot n (R237). -/
def idleRow (g : Prog) (num j n : Nat) : Row :=
  if g.st != 2 then noneRow num n
  else match lget g.produced j none with
    | some r => { r with rstat := 4 }
    | none => noneRow num n

/-- Row of a stopped release, hold limit h (R237). -/
def stoppedRow (g : Prog) (num j n h : Nat) : Row :=
  match lget g.produced j none with
  | some r => if g.stops ≤ h then heldRow r else noneRow num n
  | none => noneRow num n

/-- Rows in ascending identifier (R571). -/
def insertRow (r : Row) : List Row → List Row
  | [] => [r]
  | x :: l => if r.stream ≤ x.stream then r :: x :: l else x :: insertRow r l

/-- SHA3-256 of fixed rows (R571). -/
def rowsDigest (rows : List Row) : List Byte := fit 32 (Config.hash 3 (rows.flatMap rowOctets))

/-- The fix record of rows just fixed, and what the standby then owes (R571, R573). -/
def sendFix (b part slot : Nat) (rows : List Row) (s : State) : State :=
  if mirrors s then
    emit (.pair (.fix b part slot (rowsDigest rows)))
      { s with pair := { s.pair with unacked := s.pair.unacked ++ [(b, part, slot)] } }
  else s

/-- Programs bound to a group that have derived rows. -/
def groupProgs (s : State) (b g : Nat) : Map Prog :=
  s.trowel.progs.filter (fun e => e.2.bind_.bound && e.2.bind_.bp == b && e.2.bind_.group == g)

/-- Every derived row of the group's programs is fixed for a slot. -/
def derivedDone (s : State) (b g slot : Nat) : Bool :=
  (groupProgs s b g).all (fun e => e.2.bind_.derivs.all (fun d => (fixedRow s (0x8000 + d) 0 slot).isSome))

/-- A program's derived rows are fixed, in the sheet and in history (R237). -/
def fixDerived (p : Nat) (rows : List Row) (s : State) : State :=
  match progOf s p with
  | none => s
  | some g =>
    if rows.isEmpty then s
    else
      let b := g.bind_.bp
      let part := 16 + g.bind_.group
      let old := (fixedRows s b part g.slot).getD []
      let all := rows.foldl (fun l r => insertRow r l) (old.filter (fun r => !rows.any (fun x => x.stream == r.stream)))
      let s := putFixed b part g.slot all s
      let s := rows.foldl (fun s r => histPut b r.stream g.slot 0 r s) s
      let held := (rows.filter (fun r => r.rstat == 5)).length
      let s := if held = 0 then s else event 6 2 (cntHawk 6 held s)
      let s := rowTriggers b g.slot rows s
      if derivedDone s b g.bind_.group g.slot then sendFix b part g.slot all s else s

/-! Cores (R232). -/

/-- The program that core c runs. -/
def runningOn (s : State) (c : Nat) : Option Nat := lget s.trowel.running c none

/-- A released program takes its place on its core: in order of release, and among those released at the same instant in
program-slot order (R232). -/
def insertReady (s : State) (p : Nat) (g : Prog) : List Nat → List Nat
  | [] => [p]
  | q :: l =>
    if (progOf s q).any (fun h => h.relAt == g.relAt && decide (g.pslot < h.pslot)) then p :: q :: l else q :: insertReady s p g l

/-- A program that has the core but has not begun gives it back to one of a lower program slot, released at the same instant
by another group (R232). -/
def stepBack (p : Nat) (g : Prog) (s : State) : State :=
  match runningOn s g.core with
  | none => s
  | some q =>
    match progOf s q with
    | none => s
    | some h =>
      if h.relAt == g.relAt && decide (g.pslot < h.pslot) && h.phase == .running && decide (h.budget = h.img.budget) && p != q then
        updProg q (fun h => { h with phase := .queued }) { s with trowel := { s.trowel with
          running := lupd s.trowel.running g.core (fun _ => none)
          ready := lupd s.trowel.ready g.core (insertReady s q h) } }
      else s

/-- The next released program takes a free core. -/
def startNext (c : Nat) (s : State) : State :=
  match runningOn s c, lget s.trowel.ready c [] with
  | none, p :: l =>
    updProg p (fun g => { g with phase := .running })
      { s with trowel := { s.trowel with running := lupd s.trowel.running c (fun _ => some p)
                                         ready := lupd s.trowel.ready c (fun _ => l) } }
  | _, _ => s

/-- A program gives up its core, and waits in no queue of it. -/
def leaveCore (p c : Nat) (s : State) : State :=
  startNext c { s with trowel := { s.trowel with
    running := lupd s.trowel.running c (fun o => if o = some p then none else o)
    ready := lupd s.trowel.ready c (fun l => l.filter (· != p)) } }

/-- Frees a program's slot and bindings (R238). A message that waits for it has no program any more, so its command ends
CONTEXT_RANGE (R241; log 30). -/
def dropProg (p : Nat) (s : State) : State :=
  match progOf s p with
  | none => s
  | some g =>
    let s := g.bind_.derivs.foldl (fun s d => histDrop (0x8000 + d) s) s
    let s : State := match g.inMsg with
      | some (_, _, tok) => if (jent s tok).any (fun j => j.outcome.isNone) then settle tok 0x0705 0 [] s else s
      | none => s
    replan { s with trowel := { s.trowel with
      progs := mdel s.trowel.progs p, derived := s.trowel.derived.filter (fun e => e.2 != p)
      unloading := s.trowel.unloading.filter (· != p) } }

/-- Slot work of p has ended: its core goes to the next, and an unload that waited takes effect. -/
def endWork (p : Nat) (s : State) : State :=
  match progOf s p with
  | none => s
  | some g =>
    let s := leaveCore p g.core (updProg p (fun g => { g with phase := .idle }) s)
    if s.trowel.unloading.contains p then dropProg p s else s

/-- Event b of TRW_EVT with the program or core in word 0 [63:32]. -/
def trwEvent (b n : Nat) (s : State) : State := eventB 7 b (BitVec.ofNat 32 n) [] s

/-- Group of a program's home, for its hold limit. -/
def holdOf (s : State) (g : Prog) : Nat := (groupOf s g.bind_.bp g.bind_.group).hold

/-- A program as a stop leaves it (R235, R240, R281): EPC is the first instruction not completed; CAUSE changes only on an
exception; LASTSTOP holds reason and code; OUTLEN and TRIGSET are cleared. -/
def stopMark (reason code : Nat) (g : Prog) : Prog :=
  let g := clearOut (mbWr 0x214 (pack [(reason, 0), (if reason = 3 then code else 0, 8)]) g)
  { g with epc := g.pc, cause := if reason = 3 then BitVec.ofNat 32 code else g.cause
           stops := g.stops + 1, stopped := true, restartNext := true }

/-- The 16th consecutive stopped release suspends the program (R238). -/
def suspendAt (p : Nat) (s : State) : State :=
  if (progOf s p).any (fun g => decide (g.stops ≥ 16) && g.st == 2) then trwEvent 1 p (updProg p (fun g => { g with st := 3 }) s) else s

/-- Slot work of p stops: reason 1 budget, 2 cut-off, 3 exception with its code, 4 relocation (R235, R237, R238). -/
def stopWork (p reason code : Nat) (s : State) : State :=
  match progOf s p with
  | none => s
  | some g =>
    let s := updProg p (stopMark reason code) s
    let s := if reason = 4 then s else cntTrw reason 1 s
    let s := trwEvent 0 p s
    let g' := (progOf s p).getD g
    let s := fixDerived p ((List.range g.bind_.derivs.length).map (fun j =>
      stoppedRow g' (lget g.bind_.derivs j 0) j g.slot (holdOf s g))) s
    endWork p (suspendAt p s)

/-! Mailbox out and triggers at yield (R243, R244). -/

/-- Octets 0x00 to 0x2F of a mailbox entry. -/
def mailHead (p len seq slot cycle epoch : Nat) : List Byte :=
  leOctets 2 p ++ [17, 0] ++ leOctets 2 len ++ leOctets 2 0 ++ leOctets 8 seq ++ leOctets 8 slot ++ leOctets 8 cycle ++
  leOctets 8 epoch ++ leOctets 8 0

/-- Posts OUT (R243): an OUTLEN above 256 posts the 256 octets that OUT has (log 28). A standby writes none (R575). -/
def postOut (p : Nat) (s : State) : State :=
  match progOf s p with
  | none => s
  | some g =>
    let len := min 256 (mbRd g 0x208 % 512)
    if len = 0 then s
    else
      let s := updProg p (fun g => { g with outSeq := g.outSeq + 1 }) s
      if !publishes s then s
      else if !(ringOf s g.fn 4).active then trwEvent 5 p (cntTrw 8 1 s)
      else
        let before := (ringOf s g.fn 4).prod
        let cyc := match g.bind_.sched with | .cycle => g.cycle | .slot .. => 2 ^ 64 - 1
        let s := writeEvent g.fn (mailHead p len (g.outSeq + 1) g.slot cyc s.sys.epoch) (memRdN g.mbox 0x100 len) s
        if (ringOf s g.fn 4).prod ≠ before then cntTrw 7 1 s else s

/-- Fires the triggers of TRIGSET whose source is this program (R244). -/
def fireSet (p : Nat) (s : State) : State :=
  match progOf s p with
  | none => s
  | some g =>
    ((List.range 256).filter (fun t => (memRd g.mbox (0x220 + t / 8)).getLsbD (t % 8))).foldl (fun s t =>
      if (trigOf s t).src = .trowel p then fireTrig t g.slot 2 [] s else cntTrw 9 1 s) s

/-- `yield` ends slot work (R235, R237): rows from the derived window, mailbox and triggers, and PC at the instruction
after it. -/
def yieldWork (p : Nat) (s : State) : State :=
  match progOf s p with
  | none => s
  | some g =>
    let rows := (List.range g.bind_.derivs.length).map (fun j => windowRow g (lget g.bind_.derivs j 0) j g.slot)
    let s := updProg p (fun g => { g with produced := rows.map some, stops := 0, stopped := false, pc := g.pc + 4 }) s
    let s := fixDerived p rows s
    let s := fireSet p (postOut p s)
    endWork p (updProg p clearOut s)

/-! Releases (R229 to R234, R241, R245). -/

/-- A program's release falls on slot n of its group, when its tracker's evaluation fired a cycle event or not (R230,
R231). -/
def releasesAt (g : Prog) (n : Nat) (cyc : Bool) : Bool :=
  g.st == 2 && g.bind_.bound && g.phase == .idle &&
  (match g.bind_.sched with
   | .slot k p => n % k == p
   | .cycle => cyc)

/-- A hot swap takes effect, and is measured (R245, R246, R255, R611). -/
def takeSwap (p : Nat) (s : State) : State :=
  match progOf s p with
  | none => s
  | some g =>
    match g.swap with
    | none => s
    | some (i, _, keep) =>
      let s := updProg p (fun g => { g with
        img := i, swap := none, data := if keep then g.data else freshData i, cause := 0, epc := 0, firstNext := true
        restartNext := false, swapped := true }) s
      replan (trwEvent 4 p (cntTrw 10 1 (measure 10 i.meas s)))

/-- Registers under R218, with PC at a point of the code. -/
def restartRegs (pc : W32) (g : Prog) : Prog :=
  { g with regs := List.replicate 15 0 ++ [spOf g.img], a0 := 0, a1 := 0, flags := 0, pc := pc }

/-- The derived window at a release (R227, R233, R237): headers of the rows, values and IEC quality bits last produced, or
zeros. -/
def fillWindow (n : Nat) (g : Prog) : List Host.Cell :=
  (List.range g.bind_.derivs.length).foldl (fun m j =>
    let num := lget g.bind_.derivs j 0
    let r := match lget g.produced j none with
      | some r => { r with rstat := 4, xsmp := n, qual := r.qual.map (fun q => BitVec.ofNat 16 (q.toNat % 8192)) }
      | none => { missingRow (0x8000 + num) 0 n with rstat := 4, qual := eight 0 }
    memWrN m (64 * j) (rowOctets r)) []

/-- The waiting message is delivered at a release with slot n (R241, R242). -/
def deliver (p n : Nat) (s : State) : State × Bool :=
  match progOf s p with
  | none => (s, false)
  | some g =>
    match g.inMsg with
    | some (msg, d, tok) =>
      if d ≤ n then
        let s := updProg p (fun g =>
          let g := { g with inMsg := none, inSeq := g.inSeq + 1, mbox := memWrN g.mbox 0 (fit 256 msg) }
          mbWr 0x204 (BitVec.ofNat 32 msg.length) (mbWr 0x200 (BitVec.ofNat 32 g.inSeq) g)) s
        (if (jent s tok).any (fun j => j.outcome.isNone) then settle tok 0 0 [] s else s, true)
      else (s, false)
    | none => (s, false)

/-- The instant of a release: the closing instant of the program's home group (R174, R230). -/
def releaseInstant (s : State) (g : Prog) : Nat := ((groupOf s g.bind_.bp g.bind_.group).closed.map (·.2)).getD 0

/-- A release empties the latches of its core (R278). -/
def emptyLatches (c : Nat) (s : State) : State :=
  { s with trowel := { s.trowel with progs := s.trowel.progs.map (fun e => if e.2.core = c then (e.1, { e.2 with latches := [] }) else e) } }

/-- A release of p in slot n (R233, R234). -/
def releaseProg (p n : Nat) (s : State) : State :=
  match progOf s p with
  | none => s
  | some g0 =>
    let s := match g0.swap with | some (_, at_, _) => if at_ ≤ n then takeSwap p s else s | none => s
    let (s, got) := deliver p n s
    let g := (progOf s p).getD g0
    let t := lget s.time.trk g.bind_.bp default
    let isCyc := g.bind_.sched == .cycle
    let re := g.restartNext && !g.firstNext
    let at_ := releaseInstant s g
    let info := pack [(b2n (!isCyc), 0), (b2n isCyc, 1), (b2n (isCyc && t.evCoasted), 2), (b2n (isCyc && t.evDisc), 3),
      (b2n re, 4), (b2n g.swapped, 5), (b2n got, 6), (min 65535 g.stops, 16)]
    let s := updProg p (fun g =>
      let g := if g.firstNext then restartRegs g.img.entry g else if g.restartNext then restartRegs g.img.restart g else g
      mbWr 0x210 info (clearOut { g with
        slot := n, cycle := t.count, budget := g.img.budget, dwin := fillWindow n g, raised := [], relAt := at_
        restartNext := false, firstNext := false, swapped := false, phase := .queued })) s
    let g := (progOf s p).getD g0
    let s := stepBack p g (emptyLatches g.core s)
    startNext g.core (cntTrw 0 1 { s with trowel := { s.trowel with ready := lupd s.trowel.ready g.core (insertReady s p g) } })

/-- A release that a relocated program still misses (R250): its rows are those of a stop, and it counts as one. -/
def skipRelease (p n : Nat) (s : State) : State :=
  match progOf s p with
  | none => s
  | some g =>
    let s := updProg p (fun g => { g with slot := n, skip := g.skip - 1, stops := g.stops + 1 }) s
    let g' := (progOf s p).getD g
    suspendAt p (fixDerived p ((List.range g.bind_.derivs.length).map (fun j =>
      stoppedRow g' (lget g.bind_.derivs j 0) j n (holdOf s g))) s)

/-- Places a program of a group in order of program slot (R232). -/
def insertPslot (e : Nat × Prog) : List (Nat × Prog) → List (Nat × Prog)
  | [] => [e]
  | x :: l => if e.2.pslot < x.2.pslot then e :: x :: l else x :: insertPslot e l

/-- Program p at slot n of its schedule: slot work that still runs is past its cut-off; then a release, a release that a
relocation skips, or the rows of a program that is not released (R177, R230, R237, R250). -/
def releaseOne (p n : Nat) (cyc : Bool) (s : State) : State :=
  let s := if (progOf s p).any (fun g => g.phase != .idle) then stopWork p 2 0 s else s
  match progOf s p with
  | none => s
  | some g =>
    if releasesAt g n cyc then (if g.skip > 0 then skipRelease p n s else releaseProg p n s)
    else
      let s := updProg p (fun g => { g with slot := n }) s
      fixDerived p ((List.range g.bind_.derivs.length).map (fun j => idleRow g (lget g.bind_.derivs j 0) j n)) s

/-- Programs in order of program slot at slot n (R232). -/
def releaseAll (ps : Map Prog) (n : Nat) (cyc : Bool) (s : State) : State :=
  (ps.foldl (fun l e => insertPslot e l) []).foldl (fun s e => releaseOne e.1 n cyc s) s

/-- The group's SLOT programs at its slot-close event. -/
def releaseSlots (b g n : Nat) (s : State) : State :=
  releaseAll ((groupProgs s b g).filter (fun e => e.2.bind_.sched != .cycle)) n false s

/-- CYCLE programs of a bus pair, once its tracker has evaluated slot n (R230, R231). -/
def releaseCycles (b n : Nat) (cyc : Bool) (s : State) : State :=
  releaseAll (s.trowel.progs.filter (fun e => e.2.bind_.bound && e.2.bind_.bp == b && e.2.bind_.sched == .cycle)) n cyc s

/-! Retirement and relocation (R249 to R251). -/

/-- Data of a relocated program: from its image, or in a synchronised pair the partner's copy, which the model leaves free
(log 29). -/
def movedData (g : Prog) (s : State) : List Host.Cell × State :=
  if s.pair.paired && s.pair.synced && !s.pair.partnerLost then
    let (d, s) := freeOctets (imgData g.img) s
    (memWrN [] 0 d, s)
  else (freshData g.img, s)

/-- A program is stopped for the current slot as its core is retired (R250, R281): one that the Lath error has stopped keeps
what that stop recorded, and one without slot work is stopped where it would resume. -/
def stopForMove (p : Nat) (lath : Bool) (s : State) : State :=
  match progOf s p with
  | none => s
  | some g =>
    if g.phase != .idle then stopWork p 4 0 s
    else if lath then s
    else updProg p (fun g => { mbWr 0x214 4 g with stopped := true, restartNext := true, epc := g.pc }) s

/-- A program moves to a core of the plan, or becomes UNPLACED (R250, R251). -/
def moveProg (p : Nat) (dest : Option Nat) (lath : Bool) (s : State) : State :=
  match progOf s p with
  | none => s
  | some g =>
    let s := stopForMove p lath s
    let (d, s) := movedData g s
    match dest with
    | none => updProg p (fun g => { g with st := 4, data := d }) s
    | some c =>
      let free := ((List.range 8).find? (fun i => !(onCore s.trowel.progs c).any (fun e => e.2.pslot == i))).getD 0
      trwEvent 3 p (cntTrw 11 1 (updProg p (fun g => { g with core := c, pslot := free, data := d, skip := 1 }) s))

/-- Core c is retired: its programs move by the plan (R249, R250); a retired core stays as it is. `lath`: the program that a
Lath error of the core has just stopped. -/
def retireBut (lath : Option Nat) (c : Nat) (s : State) : State :=
  if s.trowel.retired.contains c then s
  else
    let plan := planFor s.trowel.retired s.trowel.progs c
    let s := { s with trowel := { s.trowel with retired := s.trowel.retired ++ [c] } }
    replan (plan.foldl (fun s e => moveProg e.1 e.2 (lath == some e.1) s) (trwEvent 2 c s))
def retireCore (c : Nat) (s : State) : State := retireBut none c s

/-- CORE_SELFTEST (R249): in idle time of a core in service. -/
def execCoreSelftest (core : Nat) (pass : Bool) (s : State) : Host.Outcome State Fault Refusal :=
  .next (if decide (core < 64) && (runningOn s core).isNone && !pass && inService s then retireCore core s else s)

/-! trowel.load (R221; places of the parameters: log 30). -/

def trowelLoadRow : OpRow :=
  { opc := 0x3001, who := 0, ctx := 0, inp := true, out := false
    params := [0x1FF, 0x1073F, 0xFFFF, 0x7F, 0xFFFFFFFF, 0xFFFFFFFF] }
def trowelLoadPre (c : Cmd) : Option Nat := firstFail [(decide ((cw c 11).toNat > 64), 0x0106)]
def tlProg (c : Cmd) : Nat := (cw c 8).toNat
def tlCore (c : Cmd) : Nat := bits (cw c 9) 5 0
def tlSlot (c : Cmd) : Nat := bits (cw c 9) 10 8
def tlKeep (c : Cmd) : Bool := bit (cw c 9) 16
def tlKey (c : Cmd) : Nat := (cw c 10).toNat
def tlFn (c : Cmd) : Nat := (cw c 11).toNat

/-- Highest PVER loaded for a program under the current owner epoch (R222). -/
def topPver (s : State) (p : Nat) : Nat := mgetD s.trowel.pvers p 0

/-- A valid raise entry does not name a GOOSE publication of that name and owner (R221). -/
def raiseBad (s : State) (fn : Nat) (e : Option (Nat × List Byte)) : Bool :=
  match e with
  | none => false
  | some (k, h) =>
    match ctxOf s k with
    | some x => !isGoosePub x || decide (x.nameh ≠ h) || x.fn != fn
    | none => true

/-- A program as loaded: LOADED, with nothing bound (R238, R255). -/
def newProg (core pslot fn : Nat) (i : Image) : Prog :=
  { st := 1, core := core, pslot := pslot, fn := fn, img := i, swap := none
    bind_ := { bound := false, bp := 0, group := 0, sched := .slot 1 0, sheets := [], hists := [], derivs := [] }
    regs := List.replicate 15 0 ++ [spOf i], a0 := 0, a1 := 0, flags := 0, pc := i.entry, slot := 0, cycle := 0, budget := 0
    cause := 0, epc := 0, phase := .idle, restartNext := false, firstNext := true, swapped := false, stops := 0
    stopped := false, data := freshData i, dwin := [], mbox := [], inMsg := none, inSeq := 0, outSeq := 0, raised := []
    latches := [], produced := [], skip := 0, relAt := 0 }

/-- The program after the load, beside the image in use for a hot swap (R245). -/
def loadedProg (c : Cmd) (s : State) : Prog :=
  let i := parseImage (tlProg c) c.input
  match progOf s (tlProg c) with
  | some g => { g with swap := some (i, cw64 c 12, tlKeep c), fn := tlFn c }
  | none => newProg (tlCore c) (tlSlot c) (tlFn c) i

/-- The key slot serves program signing (R221, R482). -/
def progKeyFail (s : State) (k : Nat) : Option Nat :=
  match slotFail s k [5] with
  | some st => some st
  | none =>
    let x := (mget s.keys.slots k).getD default
    if x.ktype == 0x4A && x.purpose % 2 == 1 then none else some 0x0303

/-- R221 in its order; R226 and R246 for a hot swap. -/
def trowelLoadCheck (c : Cmd) (s : State) : Option Nat :=
  let p := tlProg c
  let i := parseImage p c.input
  let old := progOf s p
  let ps := s.trowel.progs
  let new := mset ps p (loadedProg c s)
  match progKeyFail s (tlKey c) with
  | some st => some st
  | none => firstFail
    [(!imageOk c.input (cLen c), 0x0102),
     (tlKeep c && old.any (fun g => imgData g.img != imgData i), 0x0102),
     (i.oepoch != s.keys.oepoch || !imageSigned s (tlKey c) c.input (cLen c), 0x0401),
     (decide (i.pver < topPver s p), 0x0103),
     (i.raises.any (raiseBad s (tlFn c)), 0x070E),
     (old.any (fun g => decide (g.bind_.sheets.length > i.nsheet) || decide (g.bind_.hists.length > i.nhist) ||
        decide (g.bind_.derivs.length > i.nderiv)), 0x070D),
     (old.any (fun g => g.core != tlCore c || g.pslot != tlSlot c), 0x0507),
     (s.trowel.retired.contains (tlCore c) ||
        (onCore ps (tlCore c)).any (fun e => e.1 != p && e.2.pslot == tlSlot c), 0x0507),
     (!coreFits (mdel ps p) (loadedProg c s) 5600 (tlCore c), 0x0507),
     ((uncovered s.trowel.retired new).any (fun k => k == tlCore c || !(uncovered s.trowel.retired ps).contains k), 0x0509)]

/-- The load gets as far as the verification of its signature (R221). -/
def trowelVerifies (c : Cmd) (s : State) : Bool :=
  let i := parseImage (tlProg c) c.input
  (progKeyFail s (tlKey c)).isNone && imageOk c.input (cLen c) &&
  !(tlKeep c && (progOf s (tlProg c)).any (fun g => imgData g.img != imgData i)) && i.oepoch == s.keys.oepoch

/-- A load takes effect or is refused; its verification is work of PKE and HOSTCMD (R223). -/
def loadVerified (check : Cmd → State → Option Nat) (eff : Cmd → State → Eff) (c : Cmd) (s : State) : State :=
  applyConfig check eff c (if trowelVerifies c s then imageWork 0x71 c.fn (signedPart c.input).length s else s)

/-- The image is installed; PVER is kept in MRAM (R222, R223, R245). MEAS10 is extended at once, for a hot swap when that
takes effect (R611). -/
def trowelLoadEff (c : Cmd) (s : State) : Eff :=
  let p := tlProg c
  let g := loadedProg c s
  let i := parseImage p c.input
  let s' := replan { s with trowel := { s.trowel with
    progs := mset s.trowel.progs p g, pvers := mset s.trowel.pvers p (max (topPver s p) i.pver) } }
  done (if (progOf s p).isNone then measure 10 i.meas s' else s')

/-- TROWEL_LOAD (R221, R245). -/
def execTrowelLoad (c : Cmd) (s : State) : Host.Outcome State Fault Refusal :=
  .next (runConfigBy (loadVerified trowelLoadCheck trowelLoadEff) c s)

/-! trowel.bind (R224 to R226, R230; layout of the input: log 30). -/

def trowelBindRow : OpRow := { opc := 0x3002, who := 0, ctx := 0, inp := true, out := false, params := [0x1FF] }

/-- Counts of the input, and its length. -/
def tbSheets (c : Cmd) : Nat := field c.input 8 4 % 8192
def tbHists (c : Cmd) : Nat := field c.input 10 1
def tbDerivs (c : Cmd) : Nat := field c.input 11 1 % 128
def trowelBindPre (c : Cmd) : Option Nat :=
  firstFail [(decide (cLen c < 12) || cLen c != 12 + 4 * (tbSheets c + tbHists c + tbDerivs c), 0x0106)]

/-- The binding of the input: entries as row × 256 + sub-sample. -/
def parseBind (c : Cmd) : Binding :=
  let w (i : Nat) : W32 := word32 c.input (12 + 4 * i)
  let ent (i : Nat) : Nat := bits (w i) 15 0 * 256 + bits (w i) 23 16
  let w1 := word32 c.input 4
  { bound := true, bp := field c.input 0 1 % 4, group := field c.input 0 1 / 16
    sched := if bit w1 0 then .cycle else .slot (bits w1 16 8) (bits w1 31 24)
    sheets := (List.range (tbSheets c)).map ent
    hists := (List.range (tbHists c)).map (fun i => ent (tbSheets c + i))
    derivs := (List.range (tbDerivs c)).map (fun i => (w (tbSheets c + tbHists c + i)).toNat) }

/-- A bound stream row: an SV subscription of the home grid with that sub-sample (R224). -/
def streamBound (s : State) (m e : Nat) : Bool :=
  match ctxOf s (e / 256) with
  | some x => isSvKind x.kind && x.st != 2 && (bpOf s x.bp).mrate == m && decide (e % 256 < subsOf s x)
  | none => false

/-- BIND_RANGE (R225, R230). -/
def bindBad (s : State) (g : Prog) (d : Binding) : Bool :=
  let m := (bpOf s d.bp).mrate
  let home := (groupOf s d.bp d.group).deadline
  m == 0 ||
  (imgsOf g).any (fun i => decide (d.sheets.length > i.nsheet) || decide (d.hists.length > i.nhist) || decide (d.derivs.length > i.nderiv)) ||
  (match d.sched with
   | .slot k p => k == 0 || decide (k > 256) || decide (p ≥ k)
   | .cycle =>
     match refInUse (lget s.time.trk d.bp default) with
     | some r => (match ctxOf s r.stream with | some x => x.sv.group != d.group | none => true)
     | none => true) ||
  d.derivs.any (fun n => decide (n > 4095)) ||
  d.sheets.any (fun e => !streamBound s m e ||
    (match ctxOf s (e / 256) with
     | some x => decide ((groupOf s x.bp x.sv.group).deadline > home)
     | none => true)) ||
  d.hists.any (fun e =>
    if e / 256 < 0x8000 then !streamBound s m e
    else e % 256 != 0 || (!d.derivs.contains (e / 256 - 0x8000) &&
      (match rowHome s (e / 256) with
       | some h => (bpOf s h.1).mrate != m
       | none => true)))

def trowelBindCheck (c : Cmd) (s : State) : Option Nat :=
  let p := (cw c 8).toNat
  let d := parseBind c
  match progOf s p with
  | none => some 0x0705
  | some g =>
    let others := s.trowel.derived.filter (fun e => e.2 != p)
    let freed := (g.bind_.derivs.map (fun _ => histBytes (slotRate s g.bind_.bp) s.hawk.depth)).sum
    let need := d.derivs.length * histBytes (slotRate s d.bp) s.hawk.depth
    firstFail
      [(bindBad s g d, 0x070D),
       (!d.derivs.Nodup || d.derivs.any (fun n => (mget others n).isSome), 0x0706),
       (decide (histReserved s s.hawk.depth - freed + need > histRegion s), 0x0801)]

/-- The bindings replace the old ones (R226); rows that stay bound keep their values. -/
def trowelBindEff (c : Cmd) (s : State) : Eff :=
  let p := (cw c 8).toNat
  let d := parseBind c
  let g := (progOf s p).getD (newProg 0 0 0 (parseImage 0 []))
  let gone := g.bind_.derivs.filter (fun n => !d.derivs.contains n)
  let s := gone.foldl (fun s n => histDrop (0x8000 + n) s) s
  let prod := d.derivs.map (fun n =>
    match g.bind_.derivs.findIdx? (· == n) with
    | some j => lget g.produced j none
    | none => none)
  let others := s.trowel.derived.filter (fun e => e.2 != p)
  let tab := d.derivs.foldl (fun m n => mset m n p) others
  let s := { s with trowel := { s.trowel with derived := tab } }
  done (updProg p (fun g => { g with bind_ := d, produced := prod }) s)

/-- TROWEL_BIND (R224). -/
def execTrowelBind (c : Cmd) (s : State) : Host.Outcome State Fault Refusal :=
  .next (runConfig trowelBindCheck trowelBindEff c s)

/-! trowel.start, trowel.stop, trowel.unload (R238), trowel.retire (R249). -/

def progRow (opc : Nat) : OpRow := { opc := opc, who := 0, ctx := 0, inp := false, out := false, params := [0x1FF] }
def trowelStartRow : OpRow := progRow 0x3003
def trowelStopRow : OpRow := progRow 0x3004
def trowelUnloadRow : OpRow := progRow 0x3005

/-- The program is not loaded; an UNPLACED one has no core to run on (log 30). -/
def trowelStartCheck (c : Cmd) (s : State) : Option Nat :=
  match progOf s (cw c 8).toNat with
  | none => some 0x0705
  | some g => if g.st = 4 then some 0x0507 else none
def trowelStartEff (c : Cmd) (s : State) : Eff :=
  done (updProg (cw c 8).toNat (fun g => if g.st = 2 then g else { g with st := 2, stops := 0, restartNext := !g.firstNext }) s)

/-- TROWEL_START (R234, R238). -/
def execTrowelStart (c : Cmd) (s : State) : Host.Outcome State Fault Refusal :=
  .next (runConfig trowelStartCheck trowelStartEff c s)

def progCheck (c : Cmd) (s : State) : Option Nat := if (progOf s (cw c 8).toNat).isNone then some 0x0705 else none
def trowelStopEff (c : Cmd) (s : State) : Eff :=
  done (updProg (cw c 8).toNat (fun g => if g.st = 4 then g else { g with st := 1 }) s)

/-- TROWEL_STOP (R238): slot work that is under way ends by itself. -/
def execTrowelStop (c : Cmd) (s : State) : Host.Outcome State Fault Refusal := .next (runConfig progCheck trowelStopEff c s)

/-- At once when no slot work is under way, else at its end. -/
def trowelUnloadEff (c : Cmd) (s : State) : Eff :=
  let p := (cw c 8).toNat
  match progOf s p with
  | some g =>
    if g.phase == .idle then done (dropProg p s)
    else done { (updProg p (fun g => { g with st := 1 }) s) with
      trowel := { (updProg p (fun g => { g with st := 1 }) s).trowel with unloading := s.trowel.unloading ++ [p] } }
  | none => done s

/-- TROWEL_UNLOAD (R238). -/
def execTrowelUnload (c : Cmd) (s : State) : Host.Outcome State Fault Refusal :=
  .next (runConfig progCheck trowelUnloadEff c s)

def trowelRetireRow : OpRow := { opc := 0x3007, who := 0, ctx := 0, inp := false, out := false, params := [0x3F] }

/-- TROWEL_RETIRE (R249): in SERVICE; no configuration (R250). -/
def execTrowelRetire (c : Cmd) (s : State) : Host.Outcome State Fault Refusal :=
  .next (runPlain noCheck (fun c s => done (retireCore (cw c 8).toNat s)) c s)

/-! trowel.mbsend (R241, R242). -/

def trowelMbsendRow : OpRow := { opc := 0x3006, who := 2, ctx := 0, inp := true, out := false, params := [0x1FF] }
def trowelMbsendPre (c : Cmd) : Option Nat := firstFail [(cLen c == 0 || decide (cLen c > 256), 0x0106)]

/-- The stamp at admission (R241): the message waits for delivery from then on, unless one already waits. The delivery slot
is mirrored (R568). -/
def stampMbox (c : Cmd) (s : State) : State :=
  let p := (cw c 8).toNat
  match progOf s p with
  | some g =>
    if g.inMsg.isSome then s
    else
      let d := curSlot s g.bind_.bp + 2
      let msg := c.input.take (cLen c)
      mirrorItem (.mailbox p d msg c.tok) (updProg p (fun g => { g with inMsg := some (msg, d, c.tok) }) s)
  | none => s

/-- TROWEL_MBSEND (R241, R242): it waits for its delivery; with another message waiting, MBOX_BUSY. -/
def execTrowelMbsend (c : Cmd) (s : State) : Host.Outcome State Fault Refusal :=
  .next <|
    if runnable s c then
      match progOf s (cw c 8).toNat with
      | none => settle c.tok 0x0705 0 [] s
      | some g =>
        if g.inMsg.any (fun m => m.2.2 == c.tok) then startCmd c.tok s else settle c.tok 0x0508 0 [] s
    else s

end Sys2Proof.Machine
end

