-- ==== Sys2Proof/Machine/Operands.lean ====
section
/-! DEFINITION. Operands.lean: EZS-32 operands (R253 to R260, R264, R266 to R270): registers, the words of the four formats,
which words are legal, and effective addresses. -/
namespace Sys2Proof.Machine

/-- A general register as read: g0 reads 0 (R253). -/
def gget (g : Prog) (r : Fld4) : W32 := if r = 0 then 0 else lget g.regs r.toNat 0

/-- A general register written: a write to g0 is discarded (R253). -/
def gset (r : Fld4) (v : W32) (g : Prog) : Prog :=
  if r = 0 then g else { g with regs := lupd g.regs r.toNat (fun _ => v) }

/-- Accumulators a0 and a1 (R253, R264). -/
def aget (g : Prog) (r : Fld4) : W64 := if r = 0 then g.a0 else g.a1
def aset (r : Fld4) (v : W64) (g : Prog) : Prog := if r = 0 then { g with a0 := v } else { g with a1 := v }

/-- Words of the formats R, I, M and B (R257, R258). -/
def encR (op : Nat) (d a b : Fld4) (sh fn : Nat) : W32 :=
  BitVec.ofNat 32 (op * 2 ^ 26 + d.toNat * 2 ^ 22 + a.toNat * 2 ^ 18 + b.toNat * 2 ^ 14 + sh * 2 ^ 12 + fn)
def encI (op : Nat) (d a : Fld4) (imm : BitVec 18) : W32 :=
  BitVec.ofNat 32 (op * 2 ^ 26 + d.toNat * 2 ^ 22 + a.toNat * 2 ^ 18 + imm.toNat)
def encM (op : Nat) (d a : Fld4) (mode : BitVec 3) (b : Fld4) (sc : BitVec 2) (disp : BitVec 9) : W32 :=
  BitVec.ofNat 32 (op * 2 ^ 26 + d.toNat * 2 ^ 22 + a.toNat * 2 ^ 18 + mode.toNat * 2 ^ 15 + b.toNat * 2 ^ 11 +
    sc.toNat * 2 ^ 9 + disp.toNat)
def encB (op : Nat) (cond : Fld4) (off : BitVec 22) : W32 :=
  BitVec.ofNat 32 (op * 2 ^ 26 + cond.toNat * 2 ^ 22 + off.toNat)

/-- An M-format word keeps R268 to R270: mode, fields that must be 0, base and destination, accumulator number; in `ld.a`
d names an accumulator, so it never is the base register (log 31). -/
def legalM (load acc : Bool) (w : W32) : Bool :=
  let d := bits w 25 22
  let a := bits w 21 18
  let b := bits w 14 11
  let sc := bits w 10 9
  let disp := bits w 8 0
  (!acc || decide (d ≤ 1)) &&
  (match bits w 17 15 with
   | 0 => b == 0 && sc == 0
   | 1 => b == 0 && sc == 0 && disp == 0 && a != 0 && (!load || acc || d != a)
   | 2 => b == 0 && sc == 0 && disp == 0 && a != 0 && (!load || acc || d != a)
   | 3 => disp == 0
   | 4 => true
   | _ => false)

/-- A word of the MAC group keeps R258 and R264. -/
def legalMac (fn d a b : Nat) : Bool :=
  if [0x000, 0x001, 0x002, 0x004, 0x005, 0x006, 0x008, 0x009, 0x010, 0x011, 0x012, 0x021].contains fn then decide (d ≤ 1)
  else if fn = 0x020 then decide (d ≤ 1) && a == 0 && b == 0
  else if fn = 0x022 ∨ fn = 0x023 ∨ (0x040 ≤ fn ∧ fn ≤ 0x07F) then decide (a ≤ 1) && b == 0
  else false

/-- A word of the system group keeps R254, R258, R266 and R267. -/
def legalSys (fn d a b : Nat) : Bool :=
  if fn = 0x000 ∨ fn = 0x001 then d == 0 && b == 0
  else if fn = 0x002 ∨ fn = 0x003 ∨ fn = 0x010 then d == 0 && a == 0 && b == 0
  else if fn = 0x011 then a == 0 && decide (b ≤ 1)
  else if fn = 0x012 then decide (b ≤ 7)
  else if fn = 0x020 then b == 0 && decide (a ≤ 7)
  else if fn = 0x021 then b == 0 && d == 1
  else false

/-- A word raises no ILLEGAL (R258, R259, R282). -/
def legalWord (w : W32) : Bool :=
  let d := bits w 25 22
  let a := bits w 21 18
  let b := bits w 17 14
  let fn := bits w 11 0
  match bits w 31 26 with
  | 0x00 => !bit w 13 && decide (fn ≤ 0x013) && (b == 0 || (fn != 0x00B && fn != 0x010))
  | 0x01 => !bit w 13 && !bit w 12 && decide (fn ≤ 0x004) && (b == 0 || fn != 0x004)
  | 0x02 => !bit w 13 && legalMac fn d a b
  | 0x03 => !bit w 13 && !bit w 12 && legalSys fn d a b
  | 0x08 => true
  | 0x09 => true
  | 0x0A => true
  | 0x0B => true
  | 0x0C => bits w 17 5 == 0
  | 0x0D => bits w 17 5 == 0
  | 0x0E => bits w 17 5 == 0
  | 0x0F => a == 0
  | 0x10 => d == 0
  | 0x18 => legalM true false w
  | 0x19 => legalM true false w
  | 0x1A => legalM true false w
  | 0x1B => legalM true false w
  | 0x1C => legalM true false w
  | 0x1D => legalM true true w
  | 0x20 => legalM false false w
  | 0x21 => legalM false false w
  | 0x22 => legalM false false w
  | 0x23 => legalM false true w
  | 0x30 => d != 15
  | 0x31 => d != 15
  | 0x32 => d != 0
  | _ => false

/-- An immediate, sign-extended (R260). -/
def immOf (imm : BitVec 18) : W32 := imm.signExtend 32

/-- Effective address of an access of `size` bytes (R268); it wraps modulo 2^32. -/
def effAddr (g : Prog) (a : Fld4) (mode : BitVec 3) (b : Fld4) (sc : BitVec 2) (disp : BitVec 9) (size : Nat) : W32 :=
  let off : W32 := disp.signExtend 32 * BitVec.ofNat 32 size
  match mode.toNat with
  | 0 => gget g a + off
  | 1 => gget g a
  | 2 => gget g a - BitVec.ofNat 32 size
  | 3 => gget g a + (gget g b <<< sc.toNat)
  | _ => gget g a + (gget g b <<< sc.toNat) + off

/-- The update of the base register after a completed access (R268, R269). -/
def baseUpdate (a : Fld4) (mode : BitVec 3) (size : Nat) (g : Prog) : Prog :=
  match mode.toNat with
  | 1 => gset a (gget g a + BitVec.ofNat 32 size) g
  | 2 => gset a (gget g a - BitVec.ofNat 32 size) g
  | _ => g

/-- Target of a B-format instruction at an address (R273). -/
def branchTarget (pc : W32) (off : BitVec 22) : W32 := pc + off.signExtend 32 * 4

/-- Lanes of a register (R263). -/
def laneLo (x : W32) : Int := (x.extractLsb' 0 16).toInt
def laneHi (x : W32) : Int := (x.extractLsb' 16 16).toInt

/-- Two 16-bit lanes as a register. -/
def lanes (lo hi : Int) : W32 := BitVec.ofInt 16 hi ++ BitVec.ofInt 16 lo

/-- Saturation to a signed range of n bits. -/
def satS (n : Nat) (v : Int) : Int :=
  if v < -(2 ^ (n - 1)) then -(2 ^ (n - 1)) else if v > 2 ^ (n - 1) - 1 then 2 ^ (n - 1) - 1 else v

/-- A value lies outside the signed range of n bits. -/
def outS (n : Nat) (v : Int) : Bool := decide (v < -(2 ^ (n - 1)) ∨ v > 2 ^ (n - 1) - 1)

end Sys2Proof.Machine
end

