-- ==== Sys2Proof/Machine/Flags.lean ====
section
/-! DEFINITION. Flags.lean: EZS-32 flags (R254, R271, R272): Z and N from the result, C and V of each operation, and the
conditions. -/
namespace Sys2Proof.Machine

/-- FLAGS from a 32-bit result with C and V (R254, R271). -/
def flags32 (r : W32) (c v : Bool) : W32 := pack [(b2n v, 0), (b2n c, 1), (b2n (r == 0), 2), (b2n r.msb, 3)]

/-- FLAGS from a 64-bit accumulator (R271). -/
def flags64 (r : W64) (c v : Bool) : W32 := pack [(b2n v, 0), (b2n c, 1), (b2n (r == 0), 2), (b2n r.msb, 3)]

/-- A result with its C and V. -/
structure Alu where
  r : W32
  c : Bool
  v : Bool

/-- Addition: carry out of bit 31, signed overflow. -/
def addFl (x y : W32) : Alu :=
  { r := x + y, c := decide (x.toNat + y.toNat ≥ 2 ^ 32), v := outS 32 (x.toInt + y.toInt) }

/-- Subtraction: no borrow, signed overflow. -/
def subFl (x y : W32) : Alu := { r := x - y, c := decide (x.toNat ≥ y.toNat), v := outS 32 (x.toInt - y.toInt) }

/-- Saturating forms: C as of the unsaturated sum, V when the result saturated. -/
def addsFl (x y : W32) : Alu := { addFl x y with r := BitVec.ofInt 32 (satS 32 (x.toInt + y.toInt)) }
def subsFl (x y : W32) : Alu := { subFl x y with r := BitVec.ofInt 32 (satS 32 (x.toInt - y.toInt)) }

/-- Shift amount: b[7:0] (R262). -/
def shiftOf (y : W32) : Nat := y.toNat % 256

/-- Shifts (R262, R271): C is the last bit shifted out, 0 when the amount is 0. -/
def shlFl (x y : W32) : Alu :=
  let n := shiftOf y
  { r := if n < 32 then x <<< n else 0, c := decide (1 ≤ n ∧ n ≤ 32) && x.getLsbD (32 - n), v := false }
def shrFl (x y : W32) : Alu :=
  let n := shiftOf y
  { r := if n < 32 then x >>> n else 0, c := decide (1 ≤ n) && x.getLsbD (n - 1), v := false }
def sarFl (x y : W32) : Alu :=
  let n := shiftOf y
  { r := x.sshiftRight (min n 32), c := decide (1 ≤ n) && (if n ≤ 32 then x.getLsbD (n - 1) else x.msb), v := false }

/-- An operation with C and V 0. -/
def plain (r : W32) : Alu := { r := r, c := false, v := false }

/-- Count of leading zero bits (R261). -/
def leadingZeros (x : W32) : Nat := (List.range 32).foldl (fun n i => if x.getLsbD i then 31 - i else n) 32

/-- A condition (R272). -/
def condTrue (f : W32) (cond : Fld4) : Bool :=
  let v := bit f 0
  let c := bit f 1
  let z := bit f 2
  let n := bit f 3
  match cond.toNat with
  | 0 => true
  | 1 => z
  | 2 => !z
  | 3 => !c
  | 4 => c
  | 5 => !c || z
  | 6 => c && !z
  | 7 => n != v
  | 8 => n == v
  | 9 => z || n != v
  | 10 => !z && n == v
  | 11 => n
  | 12 => !n
  | 13 => v
  | 14 => !v
  | _ => false

end Sys2Proof.Machine
end

