-- ==== Sys2Proof/Machine/EzCore.lean ====
section
/-! DEFINITION. EzCore.lean: how an EZS-32 instruction issues and completes (R256, R279 to R283), the core memory map (R277),
row latches (R278), loads, stores and the stack (R275, R276). -/
namespace Sys2Proof.Machine

/-- Memory identifiers of a core's instruction and data SRAM for injected Lath errors (log 32). -/
def codeMem (core : Nat) : Nat := core
def dataMem (core : Nat) : Nat := 0x40 + core

/-- The word of sixteen octets at a byte offset of a memory has an uncorrectable error (R511, R373). -/
def badWord (s : State) (mem off : Nat) : Bool := s.injected.contains (mem, off / 16)

/-- The extra cycle of an access that meets a corrected error (R279, log 32). -/
def softAt (s : State) (mem off : Nat) : Nat := b2n (s.injected.contains (mem + 256, off / 16))

/-- The program holds its core and an instruction can issue: BUDGET is checked before each issue (R232, R280). -/
def holder (s : State) (p : Nat) (ph : Phase) : Option Prog :=
  match progOf s p with
  | some g =>
    if runningOn s g.core == some p && g.phase == ph && decide (g.budget > 0) && inService s then some g else none
  | none => none

/-- A LATH exception stops the slot work, and the core is retired (R283). -/
def lathStop (p : Nat) (g : Prog) (s : State) : State := retireBut (some p) g.core (stopWork p 3 6 s)

/-- The word at PC: an exception of the fetch, or the word (R256, R276, R283). -/
def fetchAt (s : State) (g : Prog) : Nat ⊕ W32 :=
  if g.pc.toNat % 4 ≠ 0 ∨ g.pc.toNat / 4 ≥ g.img.code.length then .inl 2
  else if badWord s (codeMem g.core) g.pc.toNat then .inl 6
  else if !legalWord (lget g.img.code (g.pc.toNat / 4) 0) then .inl 1
  else .inr (lget g.img.code (g.pc.toNat / 4) 0)

/-- An exception of a program (R281, R283). -/
def raiseExc (p code : Nat) (g : Prog) (s : State) : State := if code = 6 then lathStop p g s else stopWork p 3 code s

/-- The program once its next word is fetched: a corrected error of the fetch has taken one cycle more (R279). -/
def fetched (s : State) (g : Prog) : Prog := { g with budget := g.budget - softAt s (codeMem g.core) g.pc.toNat }

/-- Issues the instruction whose word is w on program p: FETCH, LATH and ILLEGAL come first (R283); a program whose next
word is another one does not execute this row. -/
def issue (p : Nat) (w : W32) (k : Prog → State → State) (s : State) : State :=
  match holder s p .running with
  | none => s
  | some g =>
    match fetchAt s g with
    | .inl code => raiseExc p code g s
    | .inr x =>
      if x = w then
        if softAt s (codeMem g.core) g.pc.toNat = 0 then k g s else k (fetched s g) (updProg p (fetched s) s)
      else s

/-- The instruction completes: cycles charged, PC as given (R256, R279). -/
def finish (p cost : Nat) (pc : W32) (f : Prog → Prog) (s : State) : State :=
  updProg p (fun g => let g := f g; { g with pc := pc, budget := g.budget - cost }) s

/-- Completes with PC at the next instruction. -/
def finishNext (p cost : Nat) (f : Prog → Prog) (g : Prog) (s : State) : State := finish p cost (g.pc + 4) f s

/-- A cost that the spec gives as "at most n cycles": a free value in that bound (R228, R279). -/
def costUpTo (n : Nat) (s : State) : Nat × State :=
  (1 + Config.freeNat s.freeCtr % n, { s with freeCtr := s.freeCtr + 1 })

/-! The memory map (R277). -/

/-- A place of the core memory map with the offset in it. -/
inductive Place where
  | code (off : Nat)
  | data (off : Nat)
  | sheet (i off : Nat)
  | hist (h d off : Nat)
  | deriv (j off : Nat)
  | mbox (off : Nat)
  deriving DecidableEq, Repr

/-- A byte of the mailbox region holds a field; a field that takes stores (R240). -/
def mboxField (o : Nat) : Bool := decide (o < 0x20C) || decide (0x210 ≤ o ∧ o < 0x218) || decide (0x220 ≤ o ∧ o < 0x240)
def mboxStore (o : Nat) : Bool :=
  decide (0x100 ≤ o ∧ o < 0x200) || decide (0x208 ≤ o ∧ o < 0x20C) || decide (0x220 ≤ o ∧ o < 0x240)

/-- Where n bytes at an address lie; none raises BOUNDS. -/
def placeAt (g : Prog) (a n : Nat) : Option Place :=
  if a < 0x8000 then if a + n ≤ 4 * g.img.code.length then some (.code a) else none
  else if 0x10000 ≤ a ∧ a < 0x20000 then if a - 0x10000 + n ≤ imgData g.img then some (.data (a - 0x10000)) else none
  else if 0x100000 ≤ a ∧ a < 0x140000 then
    let i := (a - 0x100000) / 64
    if i < g.bind_.sheets.length then some (.sheet i (a % 64)) else none
  else if 0x140000 ≤ a ∧ a < 0x200000 then
    let h := (a - 0x140000) / 4096
    if h < g.bind_.hists.length then some (.hist h (a % 4096 / 64 + 1) (a % 64)) else none
  else if 0x200000 ≤ a ∧ a < 0x201000 then
    let j := (a - 0x200000) / 64
    if j < g.bind_.derivs.length then some (.deriv j (a % 64)) else none
  else if 0x300000 ≤ a ∧ a < 0x301000 then
    if (List.range n).all (fun i => mboxField (a - 0x300000 + i)) then some (.mbox (a - 0x300000)) else none
  else none

/-- Program q's derived rows of slot n are fixed: its group has closed the slot, its tracker has evaluated it where its
schedule needs that, and it has no slot work for it (R178, R230, R237). -/
def derivedReady (s : State) (q n : Nat) : Bool :=
  match progOf s q with
  | none => true
  | some g =>
    let t := lget s.time.trk g.bind_.bp default
    closedThrough s g.bind_.bp g.bind_.group n &&
    (g.bind_.sched != .cycle || (refInUse t).isNone || t.evalSlot.any (fun m => decide (n ≤ m))) &&
    (g.phase == .idle || g.slot != n)

/-- A row of the history window (R227, R228): waits while the row is not fixed (R178); MISSING where nothing is held. -/
def histRow (s : State) (e slot d : Nat) : Option (List Byte) :=
  let id := e / 256
  let sub := e % 256
  let none_ := rowOctets (missingRow id sub (slot - d))
  if d > slot then some none_
  else
    let n := slot - d
    let fixed := match (if id < 0x8000 then (ctxOf s id).map (fun x => closedThrough s x.bp x.sv.group n)
        else (mget s.trowel.derived (id - 0x8000)).map (fun q => derivedReady s q n)) with
      | some b => b
      | none => true
    if fixed then
      match histGet s id n sub with
      | some r => some (rowOctets r)
      | none => some none_
    else none

/-- The 64 octets of a window row for a program's slot; none while it is not fixed. -/
def windowOctets (s : State) (g : Prog) : Place → Option (List Byte)
  | .sheet i _ =>
    let e := lget g.bind_.sheets i 0
    (fixedRow s (e / 256) (e % 256) g.slot).map rowOctets
  | .hist h d _ => histRow s (lget g.bind_.hists h 0) g.slot d
  | .deriv j _ => some (memRdN g.dwin (64 * j) 64)
  | _ => none

/-- Cycles that a window row takes when no latch holds it, at most (R279). -/
def missMax : Place → Nat
  | .hist .. => 500
  | _ => 8

/-- What a load gives. -/
inductive Load where
  | exc (code : Nat)
  | wait
  /-- Octets, latches afterwards, and cycles: exact, or a maximum. -/
  | ok (octs : List Byte) (latches : List (Nat × List Byte)) (cost : Nat ⊕ Nat)
  deriving Repr

/-- A load of n bytes at an address (R270, R277 to R279, R283). -/
def loadFrom (s : State) (g : Prog) (addr : W32) (n : Nat) : Load :=
  let a := addr.toNat
  if a % n ≠ 0 then .exc 3
  else
    match placeAt g a n with
    | none => .exc 4
    | some (.code o) =>
      if badWord s (codeMem g.core) o then .exc 6 else .ok ((List.range n).map (fun i => BitVec.ofNat 8 ((lget g.img.code ((o + i) / 4) 0).toNat / 256 ^ ((o + i) % 4)))) g.latches (.inl (2 + softAt s (codeMem g.core) o))
    | some (.data o) =>
      if badWord s (dataMem g.core) o then .exc 6 else .ok (memRdN g.data o n) g.latches (.inl (2 + softAt s (dataMem g.core) o))
    | some (.mbox o) => .ok (memRdN g.mbox o n) g.latches (.inl 2)
    | some pl =>
      let key := a / 64
      let rest := g.latches.filter (fun l => l.1 != key)
      match g.latches.find? (fun l => l.1 == key) with
      | some (_, row) => .ok (octets row (a % 64) n) ((key, row) :: rest) (.inl 2)
      | none =>
        match windowOctets s g pl with
        | some row => .ok (octets row (a % 64) n) (((key, row) :: rest).take 4) (.inr (missMax pl))
        | none => .wait

/-- What a store does: an exception, or the change of the program that stores the octets. -/
inductive Store where
  | exc (code : Nat)
  | ok (f : Prog → Prog)

/-- A store of octets at an address (R227, R240, R270, R277, R278, R283). -/
def storeTo (g : Prog) (addr : W32) (octs : List Byte) : Store :=
  let a := addr.toNat
  let n := octs.length
  if a % n ≠ 0 then .exc 3
  else
    match placeAt g a n with
    | none => .exc 4
    | some (.data o) => .ok (fun g => { g with data := memWrN g.data o octs })
    | some (.mbox o) =>
      if (List.range n).all (fun i => mboxStore (o + i)) then .ok (fun g => { g with mbox := memWrN g.mbox o octs }) else .exc 5
    | some (.deriv j o) =>
      if o < 16 then .exc 5
      else
        .ok (fun g =>
          let m := memWrN g.dwin (64 * j + o) octs
          { g with dwin := m, latches := g.latches.map (fun l => if l.1 = a / 64 then (l.1, memRdN m (64 * j) 64) else l) })
    | some _ => .exc 5

/-- Charges a cost and gives the state to go on with. -/
def costOf (c : Nat ⊕ Nat) (s : State) : Nat × State :=
  match c with
  | .inl n => (n, s)
  | .inr n => costUpTo n s

/-- A load reads a history row that no latch holds. -/
def histMiss (g : Prog) (addr : W32) (n : Nat) : Bool :=
  match placeAt g addr.toNat n with
  | some (.hist ..) => !g.latches.any (fun l => l.1 == addr.toNat / 64)
  | _ => false

/-- A load instruction: `put` takes the octets into the destination (R268 to R270). A row that is not fixed makes it wait
(R178), and so does a history read, of class TROWEL, that outlasts the budget: its stop abandons it (R228, R280). -/
def runLoad (p : Nat) (a : Fld4) (mode : BitVec 3) (b : Fld4) (sc : BitVec 2) (disp : BitVec 9) (size : Nat)
    (put : List Byte → Prog → Prog) (g : Prog) (s : State) : State :=
  match loadFrom s g (effAddr g a mode b sc disp size) size with
  | .exc code => raiseExc p code g s
  | .wait => updProg p (fun g => { g with phase := .waitRow }) s
  | .ok octs l cost =>
    let (n, s) := costOf cost s
    let far := histMiss g (effAddr g a mode b sc disp size) size
    let s := if far then openWork 5 0 6 2 s else s
    if far && decide (n > g.budget) then updProg p (fun g => { g with phase := .waitRow, budget := 0 }) s
    else finishNext p n (fun g => baseUpdate a mode size (put octs { g with latches := l, phase := .running })) g s

/-- A store instruction of the octets given, 1 cycle (R268 to R270, R279). -/
def runStore (p : Nat) (a : Fld4) (mode : BitVec 3) (b : Fld4) (sc : BitVec 2) (disp : BitVec 9) (octs : List Byte)
    (g : Prog) (s : State) : State :=
  match storeTo g (effAddr g a mode b sc disp octs.length) octs with
  | .exc code => raiseExc p code g s
  | .ok f => finishNext p 1 (fun g => baseUpdate a mode octs.length (f g)) g s

/-- Destination of a load: zero- or sign-extended into a general register. -/
def putZ (d : Fld4) (octs : List Byte) (g : Prog) : Prog := gset d (BitVec.ofNat 32 (leNat octs)) g
def putS (d : Fld4) (octs : List Byte) (g : Prog) : Prog := gset d (BitVec.ofInt 32 (sInt octs.length (leNat octs))) g

/-- Destination of `ld.a`: bits [31:0] at the lower address (R270). -/
def putA (d : Fld4) (octs : List Byte) (g : Prog) : Prog := aset d (BitVec.ofNat 64 (leNat octs)) g

/-! The stack (R275, R276). -/

/-- A stack word of four bytes lies in the data partition. -/
def stackAt (g : Prog) (sp : W32) : Nat ⊕ Nat :=
  if sp.toNat % 4 ≠ 0 then .inl 3
  else match placeAt g sp.toNat 4 with
    | some (.data o) => .inr o
    | _ => .inl 4

/-- Pushes a return address and transfers control, 3 cycles; the alignment check is on sp before the push. -/
def callTo (p : Nat) (target : W32) (g : Prog) (s : State) : State :=
  let sp := gget g 15
  match (if sp.toNat % 4 ≠ 0 then .inl 3 else stackAt g (sp - 4)) with
  | .inl code => raiseExc p code g s
  | .inr o => finish p 3 target (fun g => gset 15 (sp - 4) { g with data := memWrN g.data o (w32le (g.pc + 4)) }) s

/-- Pops PC, 3 cycles and one more where the word read had a corrected error (R279). -/
def retFrom (p : Nat) (g : Prog) (s : State) : State :=
  match stackAt g (gget g 15) with
  | .inl code => raiseExc p code g s
  | .inr o =>
    if badWord s (dataMem g.core) o then raiseExc p 6 g s
    else finish p (3 + softAt s (dataMem g.core) o) (BitVec.ofNat 32 (leNat (memRdN g.data o 4))) (fun g => gset 15 (gget g 15 + 4) g) s

end Sys2Proof.Machine
end

