-- ==== Sys2Proof/Machine/EzAlu.lean ====
section
/-! DEFINITION. EzAlu.lean: the ALU group (R261, R262). -/
namespace Sys2Proof.Machine

/-- An ALU-group instruction: function code, S bit, operands, result with C and V, and cycles (R258, R261, R271, R279). -/
def runAlu (p fn : Nat) (s : Bool) (d a b : Fld4) (f : W32 → W32 → Alu) (cost : Nat) (st : State) : State :=
  issue p (encR 0x00 d a b (b2n s) fn) (fun g =>
    let x := f (gget g a) (gget g b)
    finishNext p cost (fun g => let g := gset d x.r g
                                if s then { g with flags := flags32 x.r x.c x.v } else g) g) st

/-- ADD: a + b (R261). -/
def execAdd (p : Nat) (s : Bool) (d a b : Fld4) (st : State) : Host.Outcome State Fault Refusal :=
  .next (runAlu p 0x000 s d a b addFl 1 st)

/-- SUB: a − b (R261). -/
def execSub (p : Nat) (s : Bool) (d a b : Fld4) (st : State) : Host.Outcome State Fault Refusal :=
  .next (runAlu p 0x001 s d a b subFl 1 st)

/-- ADDS: a + b, saturated to the signed 32-bit range (R261). -/
def execAdds (p : Nat) (s : Bool) (d a b : Fld4) (st : State) : Host.Outcome State Fault Refusal :=
  .next (runAlu p 0x002 s d a b addsFl 1 st)

/-- SUBS: a − b, saturated (R261). -/
def execSubs (p : Nat) (s : Bool) (d a b : Fld4) (st : State) : Host.Outcome State Fault Refusal :=
  .next (runAlu p 0x003 s d a b subsFl 1 st)

/-- AND: a AND b (R261). -/
def execAnd (p : Nat) (s : Bool) (d a b : Fld4) (st : State) : Host.Outcome State Fault Refusal :=
  .next (runAlu p 0x004 s d a b (fun x y => plain (x &&& y)) 1 st)

/-- OR: a OR b (R261). -/
def execOr (p : Nat) (s : Bool) (d a b : Fld4) (st : State) : Host.Outcome State Fault Refusal :=
  .next (runAlu p 0x005 s d a b (fun x y => plain (x ||| y)) 1 st)

/-- XOR: a XOR b (R261). -/
def execXor (p : Nat) (s : Bool) (d a b : Fld4) (st : State) : Host.Outcome State Fault Refusal :=
  .next (runAlu p 0x006 s d a b (fun x y => plain (x ^^^ y)) 1 st)

/-- ANDN: a AND NOT b (R261). -/
def execAndn (p : Nat) (s : Bool) (d a b : Fld4) (st : State) : Host.Outcome State Fault Refusal :=
  .next (runAlu p 0x007 s d a b (fun x y => plain (x &&& ~~~y)) 1 st)

/-- SHL: shift left by b[7:0], zero fill (R261). -/
def execShl (p : Nat) (s : Bool) (d a b : Fld4) (st : State) : Host.Outcome State Fault Refusal :=
  .next (runAlu p 0x008 s d a b shlFl 1 st)

/-- SHR: shift right by b[7:0], zero fill (R261). -/
def execShr (p : Nat) (s : Bool) (d a b : Fld4) (st : State) : Host.Outcome State Fault Refusal :=
  .next (runAlu p 0x009 s d a b shrFl 1 st)

/-- SAR: shift right by b[7:0], sign fill (R261). -/
def execSar (p : Nat) (s : Bool) (d a b : Fld4) (st : State) : Host.Outcome State Fault Refusal :=
  .next (runAlu p 0x00A s d a b sarFl 1 st)

/-- ABS: |a|; 0x8000_0000 gives 0x7FFF_FFFF; b must be g0 (R261). -/
def execAbs (p : Nat) (s : Bool) (d a : Fld4) (st : State) : Host.Outcome State Fault Refusal :=
  .next (runAlu p 0x00B s d a 0 (fun x _ => plain (BitVec.ofInt 32 (satS 32 x.toInt.natAbs))) 1 st)

/-- MIN: signed minimum (R261). -/
def execMin (p : Nat) (s : Bool) (d a b : Fld4) (st : State) : Host.Outcome State Fault Refusal :=
  .next (runAlu p 0x00C s d a b (fun x y => plain (if x.slt y then x else y)) 1 st)

/-- MAX: signed maximum (R261). -/
def execMax (p : Nat) (s : Bool) (d a b : Fld4) (st : State) : Host.Outcome State Fault Refusal :=
  .next (runAlu p 0x00D s d a b (fun x y => plain (if x.slt y then y else x)) 1 st)

/-- MINU: unsigned minimum (R261). -/
def execMinu (p : Nat) (s : Bool) (d a b : Fld4) (st : State) : Host.Outcome State Fault Refusal :=
  .next (runAlu p 0x00E s d a b (fun x y => plain (if x.ult y then x else y)) 1 st)

/-- MAXU: unsigned maximum (R261). -/
def execMaxu (p : Nat) (s : Bool) (d a b : Fld4) (st : State) : Host.Outcome State Fault Refusal :=
  .next (runAlu p 0x00F s d a b (fun x y => plain (if x.ult y then y else x)) 1 st)

/-- CLZ: count of leading zero bits of a; b must be g0 (R261). -/
def execClz (p : Nat) (s : Bool) (d a : Fld4) (st : State) : Host.Outcome State Fault Refusal :=
  .next (runAlu p 0x010 s d a 0 (fun x _ => plain (BitVec.ofNat 32 (leadingZeros x))) 1 st)

/-- MUL: bits [31:0] of a × b (R261). -/
def execMul (p : Nat) (s : Bool) (d a b : Fld4) (st : State) : Host.Outcome State Fault Refusal :=
  .next (runAlu p 0x011 s d a b (fun x y => plain (x * y)) 2 st)

/-- MULH: bits [63:32] of the signed product (R261). -/
def execMulh (p : Nat) (s : Bool) (d a b : Fld4) (st : State) : Host.Outcome State Fault Refusal :=
  .next (runAlu p 0x012 s d a b (fun x y => plain (BitVec.ofInt 32 (x.toInt * y.toInt / 2 ^ 32))) 2 st)

/-- MULHU: bits [63:32] of the unsigned product (R261). -/
def execMulhu (p : Nat) (s : Bool) (d a b : Fld4) (st : State) : Host.Outcome State Fault Refusal :=
  .next (runAlu p 0x013 s d a b (fun x y => plain (BitVec.ofNat 32 (x.toNat * y.toNat / 2 ^ 32))) 2 st)

end Sys2Proof.Machine
end

