-- ==== Sys2Proof/Machine/EzDual.lean ====
section
/-! DEFINITION. EzDual.lean: the dual 16-bit group (R263). -/
namespace Sys2Proof.Machine

/-- A dual-group instruction; FLAGS never change (R263). -/
def runDual (p fn : Nat) (d a b : Fld4) (f : W32 → W32 → W32) (st : State) : State :=
  issue p (encR 0x01 d a b 0 fn) (fun g => finishNext p 1 (gset d (f (gget g a) (gget g b))) g) st

/-- An operation on each lane, saturated to 16 bits. -/
def perLane (f : Int → Int → Int) (x y : W32) : W32 :=
  lanes (satS 16 (f (laneLo x) (laneLo y))) (satS 16 (f (laneHi x) (laneHi y)))

/-- DADD: saturating add in each lane (R263). -/
def execDadd (p : Nat) (d a b : Fld4) (st : State) : Host.Outcome State Fault Refusal :=
  .next (runDual p 0x000 d a b (perLane (fun x y => x + y)) st)

/-- DSUB: saturating subtract in each lane (R263). -/
def execDsub (p : Nat) (d a b : Fld4) (st : State) : Host.Outcome State Fault Refusal :=
  .next (runDual p 0x001 d a b (perLane (fun x y => x - y)) st)

/-- DMUL: (a × b + 2^14) >> 15 with sign fill, saturated (R263). -/
def execDmul (p : Nat) (d a b : Fld4) (st : State) : Host.Outcome State Fault Refusal :=
  .next (runDual p 0x002 d a b (perLane (fun x y => (x * y + 2 ^ 14) / 2 ^ 15)) st)

/-- DPACK: hi = b and lo = a, each saturated to 16 bits (R263). -/
def execDpack (p : Nat) (d a b : Fld4) (st : State) : Host.Outcome State Fault Refusal :=
  .next (runDual p 0x003 d a b (fun x y => lanes (satS 16 x.toInt) (satS 16 y.toInt)) st)

/-- DSWAP: the lanes of a swapped; b must be g0 (R263). -/
def execDswap (p : Nat) (d a : Fld4) (st : State) : Host.Outcome State Fault Refusal :=
  .next (runDual p 0x004 d a 0 (fun x _ => lanes (laneHi x) (laneLo x)) st)

end Sys2Proof.Machine
end

