-- ==== Sys2Proof/Machine/EzFlow.lean ====
section
/-! DEFINITION. EzFlow.lean: branches, calls and returns (R266, R272 to R276). -/
namespace Sys2Proof.Machine

/-- B_CC: branches on a condition; 2 cycles taken, 1 not taken (R272, R273, R279). -/
def execBCc (p : Nat) (cond : Fld4) (off : BitVec 22) (st : State) : Host.Outcome State Fault Refusal :=
  .next (issue p (encB 0x30 cond off) (fun g =>
    if condTrue g.flags cond then finish p 2 (branchTarget g.pc off) id else finishNext p 1 id g) st)

/-- CALL_CC: pushes the address after it and calls on a condition (R275, R276); 3 cycles taken, 1 not taken. -/
def execCallCc (p : Nat) (cond : Fld4) (off : BitVec 22) (st : State) : Host.Outcome State Fault Refusal :=
  .next (issue p (encB 0x31 cond off) (fun g =>
    if condTrue g.flags cond then callTo p (branchTarget g.pc off) g else finishNext p 1 id g) st)

/-- DBNZ: decrements register cond and branches when it is not 0 (R274). -/
def execDbnz (p : Nat) (cond : Fld4) (off : BitVec 22) (st : State) : Host.Outcome State Fault Refusal :=
  .next (issue p (encB 0x32 cond off) (fun g =>
    let v := gget g cond - 1
    if v = 0 then finishNext p 1 (gset cond v) g else finish p 2 (branchTarget g.pc off) (gset cond v)) st)

/-- JR: PC = a (R266); a bad target raises FETCH when it is fetched (R276). -/
def execJr (p : Nat) (a : Fld4) (st : State) : Host.Outcome State Fault Refusal :=
  .next (issue p (encR 0x03 0 a 0 0 0x000) (fun g => finish p 2 (gget g a) id) st)

/-- CALLR: pushes the address after it and jumps to a register's value before the push (R256, R275). -/
def execCallr (p : Nat) (a : Fld4) (st : State) : Host.Outcome State Fault Refusal :=
  .next (issue p (encR 0x03 0 a 0 0 0x001) (fun g => callTo p (gget g a) g) st)

/-- RET: pops PC (R275). -/
def execRet (p : Nat) (st : State) : Host.Outcome State Fault Refusal :=
  .next (issue p (encR 0x03 0 0 0 0 0x002) (retFrom p) st)

end Sys2Proof.Machine
end

