-- ==== Sys2Proof/Machine/EzImm.lean ====
section
/-! DEFINITION. EzImm.lean: the I-format instructions (R259, R260). -/
namespace Sys2Proof.Machine

/-- An I-format instruction with a result; FLAGS do not change (R260). -/
def runImm (p op : Nat) (d a : Fld4) (imm : BitVec 18) (f : W32 → W32) (st : State) : State :=
  issue p (encI op d a imm) (fun g => finishNext p 1 (gset d (f (gget g a))) g) st

/-- ADDI: d = a + imm, sign-extended (R260). -/
def execAddi (p : Nat) (d a : Fld4) (imm : BitVec 18) (st : State) : Host.Outcome State Fault Refusal :=
  .next (runImm p 0x08 d a imm (fun x => x + immOf imm) st)

/-- ANDI: d = a AND imm, sign-extended (R260). -/
def execAndi (p : Nat) (d a : Fld4) (imm : BitVec 18) (st : State) : Host.Outcome State Fault Refusal :=
  .next (runImm p 0x09 d a imm (fun x => x &&& immOf imm) st)

/-- ORI: d = a OR imm, sign-extended (R260). -/
def execOri (p : Nat) (d a : Fld4) (imm : BitVec 18) (st : State) : Host.Outcome State Fault Refusal :=
  .next (runImm p 0x0A d a imm (fun x => x ||| immOf imm) st)

/-- XORI: d = a XOR imm, sign-extended (R260). -/
def execXori (p : Nat) (d a : Fld4) (imm : BitVec 18) (st : State) : Host.Outcome State Fault Refusal :=
  .next (runImm p 0x0B d a imm (fun x => x ^^^ immOf imm) st)

/-- SHLI: shift left by imm[4:0]; imm[17:5] reserved (R259). -/
def execShli (p : Nat) (d a : Fld4) (n : BitVec 5) (st : State) : Host.Outcome State Fault Refusal :=
  .next (runImm p 0x0C d a (n.zeroExtend 18) (fun x => x <<< n.toNat) st)

/-- SHRI: shift right, zero fill by imm[4:0]; imm[17:5] reserved (R259). -/
def execShri (p : Nat) (d a : Fld4) (n : BitVec 5) (st : State) : Host.Outcome State Fault Refusal :=
  .next (runImm p 0x0D d a (n.zeroExtend 18) (fun x => x >>> n.toNat) st)

/-- SARI: shift right, sign fill by imm[4:0]; imm[17:5] reserved (R259). -/
def execSari (p : Nat) (d a : Fld4) (n : BitVec 5) (st : State) : Host.Outcome State Fault Refusal :=
  .next (runImm p 0x0E d a (n.zeroExtend 18) (fun x => x.sshiftRight n.toNat) st)

/-- LUI: d = imm[17:0] << 14; a reserved (R259). -/
def execLui (p : Nat) (d : Fld4) (imm : BitVec 18) (st : State) : Host.Outcome State Fault Refusal :=
  .next (runImm p 0x0F d 0 imm (fun _ => (imm.zeroExtend 32) <<< 14) st)

/-- CMPI: FLAGS from a − imm; d reserved (R259, R271). -/
def execCmpi (p : Nat) (a : Fld4) (imm : BitVec 18) (st : State) : Host.Outcome State Fault Refusal :=
  .next (issue p (encI 0x10 0 a imm) (fun g =>
    let x := subFl (gget g a) (immOf imm)
    finishNext p 1 (fun g => { g with flags := flags32 x.r x.c x.v }) g) st)

end Sys2Proof.Machine
end

