-- ==== Sys2Proof/Machine/EzMac.lean ====
section
/-! DEFINITION. EzMac.lean: the MAC group (R264, R265). -/
namespace Sys2Proof.Machine

/-- An accumulator's new value with V. -/
structure Acc where
  r : W64
  v : Bool

/-- A MAC-group instruction that writes accumulator d from its old value and two registers (R264, R271). -/
def runAcc (p fn : Nat) (s : Bool) (d a b : Fld4) (f : W64 → W32 → W32 → Acc) (st : State) : State :=
  issue p (encR 0x02 d a b (b2n s) fn) (fun g =>
    let x := f (aget g d) (gget g a) (gget g b)
    finishNext p 1 (fun g => let g := aset d x.r g
                             if s then { g with flags := flags64 x.r false x.v } else g) g) st

/-- A MAC-group instruction that writes register d from accumulator a (R264, R271). -/
def runFrom (p fn : Nat) (s : Bool) (d a : Fld4) (f : W64 → Alu) (st : State) : State :=
  issue p (encR 0x02 d a 0 (b2n s) fn) (fun g =>
    let x := f (aget g a)
    finishNext p 1 (fun g => let g := gset d x.r g
                             if s then { g with flags := flags32 x.r x.c x.v } else g) g) st

/-- An accumulator set: V 0. -/
def setAcc (v : Int) : Acc := { r := BitVec.ofInt 64 v, v := false }

/-- An accumulation of an exact amount: it wraps modulo 2^64, V when the signed range is left (log 33). -/
def accum (x : W64) (v : Int) : Acc := { r := BitVec.ofInt 64 (x.toInt + v), v := outS 64 (x.toInt + v) }

/-- A saturating accumulation. -/
def accumSat (x : W64) (v : Int) : Acc := { r := BitVec.ofInt 64 (satS 64 (x.toInt + v)), v := outS 64 (x.toInt + v) }

/-- An unsigned product. -/
def prodU (x y : W32) : Int := ((x.toNat * y.toNat : Nat) : Int)

/-- MUL_AX: ax = a × b, signed (R264). -/
def execMulAx (p : Nat) (s : Bool) (d a b : Fld4) (st : State) : Host.Outcome State Fault Refusal :=
  .next (runAcc p 0x000 s d a b (fun _ x y => setAcc (x.toInt * y.toInt)) st)

/-- MAC: ax = ax + a × b, signed (R264). -/
def execMac (p : Nat) (s : Bool) (d a b : Fld4) (st : State) : Host.Outcome State Fault Refusal :=
  .next (runAcc p 0x001 s d a b (fun v x y => accum v (x.toInt * y.toInt)) st)

/-- MSU: ax = ax − a × b, signed (R264). -/
def execMsu (p : Nat) (s : Bool) (d a b : Fld4) (st : State) : Host.Outcome State Fault Refusal :=
  .next (runAcc p 0x002 s d a b (fun v x y => accum v (-(x.toInt * y.toInt))) st)

/-- MULU: ax = a × b, unsigned (R264). -/
def execMulu (p : Nat) (s : Bool) (d a b : Fld4) (st : State) : Host.Outcome State Fault Refusal :=
  .next (runAcc p 0x004 s d a b (fun _ x y => setAcc (prodU x y)) st)

/-- MACU: ax = ax + a × b, unsigned (R264). -/
def execMacu (p : Nat) (s : Bool) (d a b : Fld4) (st : State) : Host.Outcome State Fault Refusal :=
  .next (runAcc p 0x005 s d a b (fun v x y => accum v (prodU x y)) st)

/-- MSUU: ax = ax − a × b, unsigned (R264). -/
def execMsuu (p : Nat) (s : Bool) (d a b : Fld4) (st : State) : Host.Outcome State Fault Refusal :=
  .next (runAcc p 0x006 s d a b (fun v x y => accum v (-(prodU x y))) st)

/-- MACS: ax = ax + a × b, saturated to the signed 64-bit range (R264). -/
def execMacs (p : Nat) (s : Bool) (d a b : Fld4) (st : State) : Host.Outcome State Fault Refusal :=
  .next (runAcc p 0x008 s d a b (fun v x y => accumSat v (x.toInt * y.toInt)) st)

/-- MSUS: ax = ax − a × b, saturated (R264). -/
def execMsus (p : Nat) (s : Bool) (d a b : Fld4) (st : State) : Host.Outcome State Fault Refusal :=
  .next (runAcc p 0x009 s d a b (fun v x y => accumSat v (-(x.toInt * y.toInt))) st)

/-- DMAC: ax = ax + lo(a)·lo(b) + hi(a)·hi(b) (R264). -/
def execDmac (p : Nat) (s : Bool) (d a b : Fld4) (st : State) : Host.Outcome State Fault Refusal :=
  .next (runAcc p 0x010 s d a b (fun v x y => accum v (laneLo x * laneLo y + laneHi x * laneHi y)) st)

/-- DMACN: ax = ax + lo(a)·lo(b) − hi(a)·hi(b) (R264). -/
def execDmacn (p : Nat) (s : Bool) (d a b : Fld4) (st : State) : Host.Outcome State Fault Refusal :=
  .next (runAcc p 0x011 s d a b (fun v x y => accum v (laneLo x * laneLo y - laneHi x * laneHi y)) st)

/-- DMACX: ax = ax + lo(a)·hi(b) + hi(a)·lo(b) (R264). -/
def execDmacx (p : Nat) (s : Bool) (d a b : Fld4) (st : State) : Host.Outcome State Fault Refusal :=
  .next (runAcc p 0x012 s d a b (fun v x y => accum v (laneLo x * laneHi y + laneHi x * laneLo y)) st)

/-- ACCLR: ax = 0; a and b reserved (R264). -/
def execAcclr (p : Nat) (s : Bool) (d : Fld4) (st : State) : Host.Outcome State Fault Refusal :=
  .next (runAcc p 0x020 s d 0 0 (fun _ _ _ => setAcc 0) st)

/-- ACW: ax[31:0] = a, ax[63:32] = b (R264). -/
def execAcw (p : Nat) (s : Bool) (d a b : Fld4) (st : State) : Host.Outcome State Fault Refusal :=
  .next (runAcc p 0x021 s d a b (fun _ x y => { r := y ++ x, v := false }) st)

/-- ACL: d = ax[31:0] (R264). -/
def execAcl (p : Nat) (s : Bool) (d a : Fld4) (st : State) : Host.Outcome State Fault Refusal :=
  .next (runFrom p 0x022 s d a (fun v => plain (v.extractLsb' 0 32)) st)

/-- ACH: d = ax[63:32] (R264). -/
def execAch (p : Nat) (s : Bool) (d a : Fld4) (st : State) : Host.Outcome State Fault Refusal :=
  .next (runFrom p 0x023 s d a (fun v => plain (v.extractLsb' 32 32)) st)

/-- An accumulator rounded, shifted right by n with sign fill and saturated to 32 bits (R265). -/
def roundAcc (n : Nat) (v : W64) : Alu :=
  let t := (v.toInt + (if n = 0 then 0 else 2 ^ (n - 1))) / 2 ^ n
  { r := BitVec.ofInt 32 (satS 32 t), c := false, v := outS 32 t }

/-- ACR: rounds half towards plus infinity, shifts and saturates (R265). -/
def execAcr (p : Nat) (s : Bool) (d a : Fld4) (n : BitVec 6) (st : State) : Host.Outcome State Fault Refusal :=
  .next (runFrom p (0x040 + n.toNat) s d a (roundAcc n.toNat) st)

end Sys2Proof.Machine
end

