-- ==== Sys2Proof/Machine/EzMem.lean ====
section
/-! DEFINITION. EzMem.lean: loads and stores (R259, R268 to R270), and the load that completes when its row is fixed
(R178). -/
namespace Sys2Proof.Machine

/-- LD_W: loads 32 bits (R268). -/
def execLdW (p : Nat) (d a : Fld4) (mode : BitVec 3) (b : Fld4) (sc : BitVec 2) (disp : BitVec 9) (st : State) :
    Host.Outcome State Fault Refusal :=
  .next (issue p (encM 0x18 d a mode b sc disp) (runLoad p a mode b sc disp 4 (putZ d)) st)

/-- LD_H: loads 16 bits, sign-extended (R268). -/
def execLdH (p : Nat) (d a : Fld4) (mode : BitVec 3) (b : Fld4) (sc : BitVec 2) (disp : BitVec 9) (st : State) :
    Host.Outcome State Fault Refusal :=
  .next (issue p (encM 0x19 d a mode b sc disp) (runLoad p a mode b sc disp 2 (putS d)) st)

/-- LD_HU: loads 16 bits, zero-extended (R268). -/
def execLdHu (p : Nat) (d a : Fld4) (mode : BitVec 3) (b : Fld4) (sc : BitVec 2) (disp : BitVec 9) (st : State) :
    Host.Outcome State Fault Refusal :=
  .next (issue p (encM 0x1A d a mode b sc disp) (runLoad p a mode b sc disp 2 (putZ d)) st)

/-- LD_B: loads 8 bits, sign-extended (R268). -/
def execLdB (p : Nat) (d a : Fld4) (mode : BitVec 3) (b : Fld4) (sc : BitVec 2) (disp : BitVec 9) (st : State) :
    Host.Outcome State Fault Refusal :=
  .next (issue p (encM 0x1B d a mode b sc disp) (runLoad p a mode b sc disp 1 (putS d)) st)

/-- LD_BU: loads 8 bits, zero-extended (R268). -/
def execLdBu (p : Nat) (d a : Fld4) (mode : BitVec 3) (b : Fld4) (sc : BitVec 2) (disp : BitVec 9) (st : State) :
    Host.Outcome State Fault Refusal :=
  .next (issue p (encM 0x1C d a mode b sc disp) (runLoad p a mode b sc disp 1 (putZ d)) st)

/-- LD_A: loads 64 bits into accumulator d (R268). -/
def execLdA (p : Nat) (d a : Fld4) (mode : BitVec 3) (b : Fld4) (sc : BitVec 2) (disp : BitVec 9) (st : State) :
    Host.Outcome State Fault Refusal :=
  .next (issue p (encM 0x1D d a mode b sc disp) (runLoad p a mode b sc disp 8 (putA d)) st)

/-- ST_W: stores 32 bits of d (R268). -/
def execStW (p : Nat) (d a : Fld4) (mode : BitVec 3) (b : Fld4) (sc : BitVec 2) (disp : BitVec 9) (st : State) :
    Host.Outcome State Fault Refusal :=
  .next (issue p (encM 0x20 d a mode b sc disp) (fun g => runStore p a mode b sc disp (leOctets 4 (gget g d).toNat) g) st)

/-- ST_H: stores bits [15:0] of d (R268). -/
def execStH (p : Nat) (d a : Fld4) (mode : BitVec 3) (b : Fld4) (sc : BitVec 2) (disp : BitVec 9) (st : State) :
    Host.Outcome State Fault Refusal :=
  .next (issue p (encM 0x21 d a mode b sc disp) (fun g => runStore p a mode b sc disp (leOctets 2 (gget g d).toNat) g) st)

/-- ST_B: stores bits [7:0] of d (R268). -/
def execStB (p : Nat) (d a : Fld4) (mode : BitVec 3) (b : Fld4) (sc : BitVec 2) (disp : BitVec 9) (st : State) :
    Host.Outcome State Fault Refusal :=
  .next (issue p (encM 0x22 d a mode b sc disp) (fun g => runStore p a mode b sc disp (leOctets 1 (gget g d).toNat) g) st)

/-- ST_A: stores accumulator d, 64 bits (R268). -/
def execStA (p : Nat) (d a : Fld4) (mode : BitVec 3) (b : Fld4) (sc : BitVec 2) (disp : BitVec 9) (st : State) :
    Host.Outcome State Fault Refusal :=
  .next (issue p (encM 0x23 d a mode b sc disp) (fun g => runStore p a mode b sc disp (leOctets 8 (aget g d).toNat) g) st)

/-- Size and destination of a load word's op (R259). -/
def loadForm (op : Nat) (d : Fld4) : Option (Nat × (List Byte → Prog → Prog)) :=
  match op with
  | 0x18 => some (4, putZ d)
  | 0x19 => some (2, putS d)
  | 0x1A => some (2, putZ d)
  | 0x1B => some (1, putS d)
  | 0x1C => some (1, putZ d)
  | 0x1D => some (8, putA d)
  | _ => none

/-- ROW_FIXED_WAKE (R178, R280): the load that waits for its row completes once the row is fixed. -/
def execRowFixedWake (p : Nat) (st : State) : Host.Outcome State Fault Refusal :=
  .next <|
    match holder st p .waitRow with
    | none => st
    | some g =>
      let w := lget g.img.code (g.pc.toNat / 4) 0
      match loadForm (bits w 31 26) (BitVec.ofNat 4 (bits w 25 22)) with
      | some (size, put) =>
        runLoad p (BitVec.ofNat 4 (bits w 21 18)) (BitVec.ofNat 3 (bits w 17 15)) (BitVec.ofNat 4 (bits w 14 11))
          (BitVec.ofNat 2 (bits w 10 9)) (BitVec.ofNat 9 (bits w 8 0)) size put g st
      | none => st

end Sys2Proof.Machine
end

