-- ==== Sys2Proof/Machine/Tracker.lean ====
section
/-! DEFINITION. Tracker.lean: phase-cycle trackers (R79 to R85): crossings in fixed rows, cycle events, coasting, and the
CYCLE triggers and programs that hang on them. Positions are in 1/65,536 slot. -/
namespace Sys2Proof.Machine

/-- Tracker of bus pair b. -/
def trkOf (s : State) (b : Nat) : Tracker := lget s.time.trk b default

/-- The stream group of the reference in use. -/
def refGroup (s : State) (b : Nat) : Option Nat :=
  match refInUse (trkOf s b) with
  | some r => (ctxOf s r.stream).map (fun x => x.sv.group)
  | none => none

/-- Expected interval E as numerator and divisor: the previous accepted one, or the nominal period (R82, R85). -/
def expected (s : State) (b : Nat) : Nat × Nat :=
  match (trkOf s b).interval with
  | some e => e
  | none => (slotRate s b * 65536, if (trkOf s b).hz60 then 60 else 50)

/-- The reference's value as fixed for a slot; none when its ORIGIN is other than RECEIVED (R80, R81). -/
def refValue (s : State) (r : CycRef) (slot : Nat) : Option Int :=
  match fixedRow s r.stream 0 slot with
  | some row => if (lget row.qual r.chan 0).toNat / 8192 = 0 then some (lget row.vals r.chan 0).toInt else none
  | none => none

/-- The crossing between two values of opposite side: slot k − 1 plus the truncated fraction (R80). -/
def crossingAt (k : Nat) (v0 v1 : Int) : Nat := (k - 1) * 65536 + ((-v0) * 65536 / (v1 - v0)).toNat

/-- Cycles c that an interval I holds for an expected interval E, where the tests of R82 accept it. -/
def accepts (m i : Nat) (e : Nat × Nat) : Option Nat :=
  let c := (2 * i * e.2 + e.1) / (2 * e.1)
  let d : Int := (i * e.2 : Nat) - (c * e.1 : Nat)
  if (c = 1 ∨ c = 2) ∧ 40 * i ≤ m * 65536 * c ∧ m * 65536 * c ≤ 70 * i ∧ 10 * d.natAbs ≤ c * e.1 then some c else none

/-- M divided by I / c in mHz, to the nearest (R82). -/
def cycleMhz (m i c : Nat) : Nat := (2 * (m * 65536 * c * 1000) + i) / (2 * i)

/-- Mean of frequencies in mHz, halves up (R82). -/
def meanMhz (l : List Nat) : Nat := (2 * l.sum + l.length) / (2 * l.length)

/-- Fires the CYCLE triggers of bus pair b that a condition selects, with the slot of the closing sequence (R205). -/
def cycleTriggers (b slot : Nat) (p : Bool → Nat → Nat → Bool) (s : State) : State :=
  (List.range 256).foldl (fun s t =>
    match (trigOf s t).src with
    | .cycle b' coastLost lo hi => if b' = b ∧ p coastLost lo hi then fireTrig t slot 5 [] s else s
    | _ => s) s

/-- The frequency moved from within a band to outside it. -/
def leftBand (old new lo hi : Nat) : Bool := decide (lo ≤ old ∧ old ≤ hi) && decide (new < lo ∨ hi < new)

/-- An accepted crossing at position x (R82, R83, R85): the cycle count grows and the cycle event is set out. -/
def acceptCrossing (b slot x : Nat) (s : State) : State :=
  updTrk b (fun t => { t with
    st := 1, last := some x, count := t.count + 1, coasted := 0, xslot := x / 65536, xfrac := x % 65536
    evDisc := t.markNext, markNext := false, evCoasted := false, evalSlot := some slot, evalFired := true }) s

/-- The frequency of an accepted crossing that ends c cycles of interval I (R82). -/
def acceptFreq (b slot i c : Nat) (s : State) : State :=
  let t := trkOf s b
  let f := cycleMhz (slotRate s b) i c
  let l := (t.freqs ++ [f]).drop ((t.freqs ++ [f]).length - 8)
  let s := updTrk b (fun t => { t with interval := some (i, c), freq := f, freqs := l, ffreq := meanMhz l }) s
  if t.freqs.isEmpty then s else cycleTriggers b slot (fun _ lo hi => lo != hi && leftBand t.freq f lo hi) s

/-- A detected crossing is tested (R82): without a previous accepted crossing it is a reference crossing. -/
def testCrossing (b slot x : Nat) (s : State) : State :=
  match (trkOf s b).last with
  | none => acceptCrossing b slot x s
  | some y =>
    match accepts (slotRate s b) (x - y) (expected s b) with
    | some c => acceptCrossing b slot x (acceptFreq b slot (x - y) c s)
    | none => s

/-- The tracker looks at the reference's value fixed for a slot: it detects a crossing, then arms (R80, R81). -/
def detect (b slot : Nat) (r : CycRef) (s : State) : State :=
  let t := trkOf s b
  match refValue s r slot with
  | none => updTrk b (fun t => { t with prev := none }) s
  | some v =>
    let cross : Option Nat :=
      match t.prev with
      | some (k, v0) => if t.armed ∧ k + 1 = slot ∧ v0 < 0 ∧ 0 ≤ v then some (crossingAt slot v0 v) else none
      | none => none
    let s := updTrk b (fun t => { t with
      prev := some (slot, v), armed := (t.armed && cross.isNone) || decide (v < -(t.arm : Int)) }) s
    match cross with
    | some x => testCrossing b slot x s
    | none => s

/-- A synthetic event is due in the closing sequence of a slot: it holds the instant (k + 0.25)·E after the previous
accepted crossing, k the next coasted cycle (R84). -/
def coastDue (s : State) (b slot : Nat) : Bool :=
  let t := trkOf s b
  match t.last with
  | some x =>
    let e := expected s b
    (t.st == 1 || t.st == 2) && decide ((x + (4 * (t.coasted + 1) + 1) * e.1 / (4 * e.2)) / 65536 ≤ slot)
  | none => false

/-- The evaluation of a slot after its rows are fixed (R80, R83): CYCLE programs are released on a cycle event; where a
coasted event is due, TRACKER_COAST completes the evaluation. -/
def evaluate (b slot : Nat) (s : State) : State :=
  match refInUse (trkOf s b) with
  | none => s
  | some r =>
    let s := detect b slot r s
    if (trkOf s b).evalSlot = some slot then releaseCycles b slot true s
    else if coastDue s b slot then s
    else releaseCycles b slot false (updTrk b (fun t => { t with evalSlot := some slot, evalFired := false }) s)

/-- After the last coasted cycle: the alternate reference, or LOST (R84, R85). -/
def coastEnd (b slot : Nat) (s : State) : State :=
  let t := trkOf s b
  if t.coasted < t.coastN then s
  else if t.altRef.isSome && !t.alt then
    updTrk b (fun t => { t with alt := true, st := 1, last := none, prev := none, armed := false, coasted := 0, markNext := true }) s
  else
    let s := updTrk b (fun t => { t with st := 3, last := none, interval := none, freqs := [], armed := false, prev := none, markNext := true }) s
    cycleTriggers b slot (fun cl _ _ => cl) (event 4 (12 + b) s)

/-- A coasted cycle event at a slot (R84). -/
def coast (b slot : Nat) (s : State) : State :=
  let s := if (trkOf s b).st = 1 then
      cycleTriggers b slot (fun cl _ _ => cl) (event 4 (8 + b) (updTrk b (fun t => { t with st := 2 }) s))
    else s
  let s := updTrk b (fun t => { t with
    coasted := t.coasted + 1, count := t.count + 1, evCoasted := true, evDisc := false, evalSlot := some slot
    evalFired := true }) s
  coastEnd b slot (releaseCycles b slot true s)

/-- The slot whose evaluation waits for a coasted event. -/
def coastSlot (s : State) (b : Nat) : Option Nat :=
  match refGroup s b with
  | some g =>
    match (groupOf s b g).closed with
    | some (n, at_) => if at_ ≠ 0 ∧ (trkOf s b).evalSlot ≠ some n ∧ coastDue s b n then some n else none
    | none => none
  | none => none

/-- TRACKER_COAST (R84): the coasted event that the reference group's last closing sequence owes. -/
def execTrackerCoast (b : Nat) (s : State) : Host.Outcome State Fault Refusal :=
  .next (if inService s then (match coastSlot s b with | some n => coast b n s | none => s) else s)

end Sys2Proof.Machine
end

