-- ==== Sys2Proof/Machine/Closing.lean ====
section
/-! DEFINITION. Closing.lean: slot-start and slot-close events (R75, R112, R174, R667, R668), substitution (R180 to R186,
R192), the closing sequence of each sheet ring (R27, R176, R177) and the sheet it writes (R22, R44 to R46, R64, R190). -/
namespace Sys2Proof.Machine

/-! Slot-start events. -/

/-- Sends the heartbeat of the current slot, once for a slot number (R112). -/
def slotHeartbeat (b : Nat) (s : State) : State :=
  let n := curSlot s b
  if publishes s && s.pair.paired && !s.pair.standby && bpUp s b && (mget s.pair.hbSent b).all (fun m => decide (m < n)) then
    sendHeartbeat b 0 0 { s with pair := { s.pair with hbSent := mset s.pair.hbSent b n } }
  else s

/-- The slot whose slot-start event fires next: none until time passes the last one; after a step the current slot (R667),
whose own event fires although its nominal instant was stepped over (DESIGN CHOICE, log 80). -/
def nextStart (s : State) (b : Nat) : Option Nat :=
  let x := bpOf s b
  let cur := curSlot s b
  match x.fired with
  | none => some cur
  | some n => if cur ≤ n then none else if x.moved.any (fun e => e.1 == n) then some cur else some (n + 1)

/-- Slots of a bus pair begin with one: its groups close from it on. -/
def groupsFrom (b slot : Nat) (s : State) : State :=
  (List.range 16).foldl (fun s g => { s with hawk := { s.hawk with
    groups := lupd s.hawk.groups (16 * b + g) (fun x => { x with closed := some (slot - 1, 0) }) } }) s

/-- A slot-start event fires; slots that a forward step skipped close in no group (R667). -/
def startSlot (b n : Nat) (s : State) : State :=
  let x := bpOf s b
  let s := match x.fired with
    | none => groupsFrom b n s
    | some m => if n = m + 1 then s else updBp b (fun x => { x with gap := x.gap ++ [(m, n)] }) s
  slotHeartbeat b (updBp b (fun x => { x with fired := some n }) s)

/-- SLOT_START_EVENT (R75, R112, R670): not while TAI time is UNSET. -/
def execSlotStartEvent (b : Nat) (s : State) : Host.Outcome State Fault Refusal :=
  .next (if inService s && decide (s.time.tstate ≠ 0) && decide (b < 4) then
    (match nextStart s b with | some n => startSlot b n s | none => s) else s)

/-- TIME_TRIGGER (R205): at the slot-start event of the set slot, once. -/
def execTimeTrigger (t : Nat) (s : State) : Host.Outcome State Fault Refusal :=
  .next <|
    match (trigOf s t).src with
    | .time slot (some n) =>
      if slotReached s (trigOf s t).bp slot n && inService s then
        updTrig t (fun g => { g with src := .off }) (fireTrig t slot 6 [] s)
      else s
    | _ => s

/-! Substitution. -/

/-- Quality bits with VALIDITY questionable unless invalid (R183). -/
def doubt (q : Nat) : Nat := if q % 4 = 1 then q else q ||| 3

/-- A channel without a place in the ASDU reads 0 and 0xC001 in every row (R184). -/
def maskUnused (x : Ctx) (r : Row) : Row :=
  { r with
    vals := (List.range 8).map (fun i => if lget x.sv.voff i 0xFFFF = 0xFFFF then 0 else lget r.vals i 0)
    qual := (List.range 8).map (fun i => if lget x.sv.voff i 0xFFFF = 0xFFFF then 0xC001 else lget r.qual i 0) }

/-- A substitute's row: no provenance, no LAN, no class of smpSynch (R191; log 36). -/
def substRow (k sub xsmp : Nat) (vals : List W32) (qual : List W16) : Row :=
  { stream := k, sub := sub, rstat := 1, srcf := 0, prov := 0, lanb := false, sync := 0, xsmp := xsmp, vals := vals
    qual := qual }

/-- HOLD (R180, R183). -/
def holdRow (s : State) (k : Nat) (x : Ctx) (sub slot limit : Nat) : Row :=
  match mget s.hawk.lastRx k with
  | some r =>
    if mgetD s.hawk.substRun k 0 < limit then
      substRow k sub r.xsmp r.vals (r.qual.map (fun q => BitVec.ofNat 16 (doubt (q.toNat % 8192) ||| 0x4080)))
    else missingRow k sub (sampleOf s x slot sub)
  | none => missingRow k sub (sampleOf s x slot sub)

/-- floor((p + n) / 2) on exact sums (R180). -/
def midpoint (p n : W32) : W32 := w32OfInt ((p.toInt + n.toInt) / 2)

/-- The neighbours of a sample: the previous row as fixed, if RECEIVED, and the next accepted sample (R180, R181). -/
def neighbours (s : State) (k : Nat) (x : Ctx) (sub slot : Nat) (acc : List Row) : Option (Row × Row) :=
  let d := divOf s x
  let n := subsOf s x
  let prev := if sub > 0 then acc.find? (fun r => r.stream == k && r.sub == sub - 1) else fixedRow s k (n - 1) (slot - d)
  let next := if sub + 1 < n then histGet s k slot (sub + 1) else histGet s k (slot + d) 0
  match prev, next with
  | some p, some q => if p.rstat = 0 ∧ q.rstat = 0 then some (p, q) else none
  | _, _ => none

/-- A row without a sample, by the group's policy (R180, R181). -/
def policyRow (s : State) (k : Nat) (x : Ctx) (sub slot : Nat) (acc : List Row) : Row :=
  let g := groupOf s x.bp x.sv.group
  let hold := holdRow s k x sub slot g.hold
  match g.policy with
  | 1 => substRow k sub (sampleOf s x slot sub) (eight 0) (eight 0x6001)
  | 2 =>
    match neighbours s k x sub slot acc with
    | some (p, q) =>
      substRow k sub (sampleOf s x slot sub) ((List.range 8).map (fun i => midpoint (lget p.vals i 0) (lget q.vals i 0)))
        ((List.range 8).map (fun i =>
          BitVec.ofNat 16 (doubt (((lget p.qual i 0).toNat ||| (lget q.qual i 0).toNat) % 8192) ||| 0x8000)))
    | none => hold
  | _ => hold

/-- Source flags of a stream at its slot-close event (R192). -/
def sourceFlags (s : State) (k : Nat) (x : Ctx) (slot : Nat) : Nat :=
  mgetD s.hawk.srcf k 0 ||| b2n (s.hawk.single.any (fun e => e.2.2.2.1 == k && e.2.2.2.2 == slot)) |||
  8 * b2n (x.st == 3) ||| 64 * b2n (!bpUp s x.bp) ||| 256 * b2n (x.st == 4)

/-- Fixes one row of a stream (R175, R180, R186), counts it, and writes it to history unless it repeats. -/
def fixRow (k : Nat) (x : Ctx) (sub slot flags : Nat) (acc : List Row) (s : State) : List Row × State :=
  let d := divOf s x
  if slot % d ≠ 0 then
    let r := match fixedRow s k 0 (slot - slot % d) with
      | some r => { r with rstat := 3, srcf := flags }
      | none => { missingRow k 0 (sampleOf s x slot 0) with srcf := flags }
    (acc ++ [r], s)
  else
    let had := match histGet s k slot sub with | some r => if r.rstat = 0 then some r else none | none => none
    let r : Row := { maskUnused x (match had with | some r => r | none => policyRow s k x sub slot acc) with srcf := flags }
    let run := if had.isSome then 0 else mgetD s.hawk.substRun k 0 + 1
    let s := { s with hawk := { s.hawk with
      substRun := mset s.hawk.substRun k run, lastRx := if had.isSome then mset s.hawk.lastRx k r else s.hawk.lastRx } }
    let s := if r.rstat == 1 then cntHawk 2 1 s else if r.rstat == 2 then cntHawk 3 1 s else s
    (acc ++ [r], histPut x.bp k slot sub r s)

/-- Fixes the rows of a stream and clears what its flags had gathered. -/
def fixStream (k : Nat) (x : Ctx) (slot : Nat) (acc : List Row) (s : State) : List Row × State :=
  let flags := sourceFlags s k x slot
  let (rows, s) := (List.range (subsOf s x)).foldl (fun (p : List Row × State) sub => fixRow k x sub slot flags p.1 p.2) (acc, s)
  (rows, { s with hawk := { s.hawk with
    srcf := mdel s.hawk.srcf k, single := s.hawk.single.filter (fun e => !(e.2.2.2.1 == k && decide (e.2.2.2.2 ≤ slot))) } })

/-- SV subscriptions of a group (R172), a DRAINING one apart. -/
def groupStreams (s : State) (b g : Nat) : Map Ctx :=
  s.skim.ctx.filter (fun e => isSvKind e.2.kind && e.2.st != 2 && e.2.bp == b && e.2.sv.group == g)

/-- Fixes every row of a group for a slot (R177, R180), hands them to the standby (R571) and to the triggers. -/
def fixGroup (b g slot : Nat) (s : State) : State :=
  let (rows, s) := (groupStreams s b g).foldl (fun (p : List Row × State) e => fixStream e.1 e.2 slot p.1 p.2) ([], s)
  rowTriggers b slot rows (sendFix b g slot rows (putFixed b g slot rows s))

/-! Slot-close events. -/

/-- The slot that a group closes next (R174, R667). -/
def nextClose (s : State) (b g : Nat) : Option Nat :=
  match (groupOf s b g).closed with
  | some (n, _) =>
    match (bpOf s b).gap.find? (fun e => e.1 == n) with
    | some e => some e.2
    | none => some (n + 1)
  | none => none

/-- The effective closing instant of the group's next slot in TAI ns (R174, R668). -/
def closeInstant (s : State) (b g slot : Nat) : Nat :=
  let m := slotRate s b
  let d : Int := (((bpOf s b).moved.filter (fun e => decide (slot ≤ e.1))).map (fun e => e.2)).foldl (· + ·) 0
  let own : Int := (slotInstant slot m : Int) + d + ((groupOf s b g).deadline * 1000000000 / (4 * m) : Nat)
  match (groupOf s b g).closed with
  | some (_, at_) => if at_ = 0 then own.toNat else max own.toNat (at_ + 1000000000 / (2 * m))
  | none => own.toNat

/-- Groups, as bp × 16 + group, that contribute rows to a view (R22, R176). -/
def viewGroups (s : State) (view : List Nat) : List Nat :=
  (view.filterMap (fun id => (rowHome s id).map (fun h => h.1 * 16 + h.2))).eraseDups

/-- The closing sequence of a slot starts, or goes on, for one ring (R27, R71, R176); it is work of class ALIGN (R179). -/
def noteClosing (f r : Nat) (id slot : Nat) (s : State) : State :=
  let ring := ringOf s f r
  if ring.active && !ring.view.isEmpty && (viewGroups s ring.view).contains id then
    let mine (c : Closing) : Bool := c.fn == f && c.ring == r && c.slot == slot
    if s.hawk.closing.any mine then
      { s with hawk := { s.hawk with closing := s.hawk.closing.map (fun c =>
          if mine c then { c with groups := c.groups ++ [id], at_ := s.time.clock } else c) } }
    else
      openWork 1 0 0 1 { s with hawk := { s.hawk with closing := s.hawk.closing ++ [{
          fn := f, ring := r, slot := slot, epoch := s.sys.epoch, tstate := s.time.tstate, disagree := s.time.disagree
          view := ring.view, tracker := ring.tracker, groups := [id], at_ := s.time.clock }] } }
  else s

/-- The same for every sheet ring. -/
def noteClosings (b g slot : Nat) (s : State) : State :=
  (List.range 65).foldl (fun s f => (List.range 4).foldl (fun s r => noteClosing f r (16 * b + g) slot s) s) s

/-- A slot of a group closes (R175, R177): a coasted event that the last closing sequence still owes comes first. -/
def closeSlot (b g slot at_ : Nat) (s : State) : State :=
  let s := if refGroup s b = some g then (match coastSlot s b with | some n => coast b n s | none => s) else s
  let s := noteClosings b g slot s
  let s := fixGroup b g slot s
  let s := { s with hawk := { s.hawk with
    groups := lupd s.hawk.groups (16 * b + g) (fun x => { x with closed := some (slot, at_) }) } }
  let s := releaseSlots b g slot s
  if refGroup s b = some g then evaluate b slot s
  else if (refGroup s b).isNone then
    releaseAll ((groupProgs s b g).filter (fun e => e.2.bind_.sched == .cycle)) slot false s
  else s

/-- SLOT_CLOSE_EVENT (R174, R175): time alone closes a slot, once its slot-start event has fired. -/
def execSlotCloseEvent (b g : Nat) (s : State) : Host.Outcome State Fault Refusal :=
  .next <|
    match nextClose s b g with
    | some n =>
      if closes s b && decide (g < 16) && (bpOf s b).fired.any (fun m => decide (n ≤ m)) &&
         decide (closeInstant s b g n ≤ s.time.tai) then closeSlot b g n (closeInstant s b g n) s
      else s
    | none => s

/-! Sheets. -/

/-- Rows of a sheet in view order (R185, R186, R190): a derived row that no program produces is DERIVED_NONE (R237). -/
def sheetRows (s : State) (view : List Nat) (slot : Nat) : List Row :=
  (viewRows s view).map (fun e =>
    match fixedRow s e.1 e.2 slot with
    | some r => r
    | none => if e.1 < 0x8000 then missingRow e.1 e.2 slot else noneRow (e.1 - 0x8000) slot)

/-- Octets 0x00 to 0x2F of a sheet (R190). -/
def sheetHead (h : HeldSheet) (first catchup : Bool) (gap gen : Nat) : List Byte :=
  let subst := (h.rows.filter rowGone).length
  let late := (h.rows.filter (fun r => r.srcf / 128 % 2 == 1)).length
  let ovr := h.rows.any (fun r => r.rstat == 5 || r.rstat == 6)
  leOctets 8 h.slot ++ leOctets 8 h.epoch ++
  w32le (pack [(h.rows.length % 65536, 0), (h.tstate, 16), (b2n h.disagree, 18), (b2n first, 19), (b2n catchup, 20),
    (b2n ovr, 21), (b2n (decide (subst > 0)), 22)]) ++
  leOctets 4 gen ++ leOctets 8 gap ++ leOctets 2 subst ++ leOctets 2 late ++
  w32le (pack [(h.fn, 0), (h.ring, 8), (1, 16)]) ++ leOctets 8 h.cycle

/-- Writes a sheet into its ring (R44 to R46, R64, R190, R194), or counts it as skipped; a written sheet is confirmed to
the standby (R574) and its index mirrored (R568). A sheet that catches up is written though the old active had mirrored its
index, because it never confirmed it (R48, R575). Inside a pair the header carries the generation. -/
def writeSheet (h : HeldSheet) (catchup : Bool) (s : State) : State :=
  let r := ringOf s h.fn h.ring
  if !r.active || r.stopped || (!catchup && !r.first && decide (h.slot ≤ r.lastSlot)) then s
  else if !ringTakes s h.fn h.ring (1 + h.rows.length) then
    event 6 0 (cntHawk 1 1 (updRing h.fn h.ring (fun r => { r with full := true }) s))
  else
    let gap := if r.first then 0 else h.slot - r.lastSlot - 1
    let head := sheetHead h r.first catchup gap (if s.pair.paired then s.pair.gen else 0)
    let body := h.rows.flatMap rowOctets
    let mac := entryMac s h.fn h.ring r r.prod head body
    let s := updRing h.fn h.ring (fun r => { r with first := false, lastSlot := max r.lastSlot h.slot, missed := r.missed + gap }) s
    let s := cntHawk 0 1 (putEntry h.fn h.ring h.slot (head ++ mac ++ body) s)
    let r := ringOf s h.fn h.ring
    mirrorItem (.ring h.fn h.ring r.prod h.slot) s

/-- The cycle count that a sheet reports: all ones for a view without a tracker (R190). -/
def sheetCycle (s : State) (tracker : Option Nat) : Nat :=
  match tracker with
  | some b => (trkOf s b).count
  | none => 2 ^ 64 - 1

/-- Fix records that carry rows of a sheet are still unacknowledged (R573). -/
def fixOwed (s : State) (view : List Nat) (slot : Nat) : Bool :=
  mirrors s && s.pair.unacked.any (fun u => u.2.2 == slot && (viewGroups s view).contains (16 * u.1 + u.2.1 % 16))

/-- Every row of a sheet is fixed (R176, R177). -/
def sheetReady (s : State) (view : List Nat) (slot : Nat) : Bool :=
  (viewGroups s view).all (fun id => closedThrough s (id / 16) (id % 16) slot) &&
  view.all (fun id => decide (id < 0x8000) || (rowHome s id).isNone || (fixedRow s id 0 slot).isSome)

/-- The slot is confirmed to the standby once no sheet of it waits on the active (R574). -/
def confirmSlot (slot : Nat) (s : State) : State :=
  if mirrors s && !s.hawk.held.any (fun h => h.slot == slot) && !s.hawk.closing.any (fun c => c.slot == slot) then
    emit (.pair (.confirm slot)) s
  else s

/-- A sheet is complete: it is written, waits for fix acknowledgements (R573), or is held on a standby, 64 slots of them at
most (R574, R575). -/
def finishSheet (c : Closing) (s : State) : State :=
  let h : HeldSheet :=
    { fn := c.fn, ring := c.ring, slot := c.slot, epoch := c.epoch, tstate := c.tstate, disagree := c.disagree
      view := c.view, rows := sheetRows s c.view c.slot, cycle := sheetCycle s c.tracker }
  let s := { s with hawk := { s.hawk with
    closing := s.hawk.closing.filter (fun x => !(x.fn == c.fn && x.ring == c.ring && x.slot == c.slot)) } }
  if publishes s then
    if fixOwed s c.view c.slot || s.hawk.held.any (fun x => x.fn == c.fn && x.ring == c.ring) then { s with hawk := { s.hawk with held := s.hawk.held ++ [h] } }
    else
      let s := { s with hawk := { s.hawk with closeMax := max s.hawk.closeMax (s.time.clock - c.at_) } }
      confirmSlot c.slot (writeSheet h false s)
  else
    let old (x : HeldSheet) : Bool := x.fn == c.fn && x.ring == c.ring && decide (x.slot + 64 ≤ c.slot)
    { s with
      hawk := { s.hawk with held := s.hawk.held.filter (fun x => !old x) ++ [h] }
      pair := { s.pair with heldOver := s.pair.heldOver || s.hawk.held.any old } }

/-- SHEET_WRITE (R22, R176): the ring's oldest closing sequence, once every contributing row is fixed. -/
def execSheetWrite (f ring : Nat) (s : State) : Host.Outcome State Fault Refusal :=
  .next <|
    match s.hawk.closing.find? (fun c => c.fn == f && c.ring == ring) with
    | some c => if inService s && sheetReady s c.view c.slot then finishSheet c s else s
    | none => s

/-! sheet.history (R168) and sheet.group (R172, R173). -/

def sheetHistoryRow : OpRow := { opc := 0x2001, who := 0, ctx := 0, inp := false, out := false, params := [0xFFFFFFFF] }
def sheetHistoryPre (c : Cmd) : Option Nat := firstFail [(decide ((cw c 8).toNat < 100 ∨ (cw c 8).toNat > 65535), 0x0106)]

/-- No subscription and no derived row exists. -/
def sheetHistoryCheck (_ : Cmd) (s : State) : Option Nat :=
  firstFail [(s.skim.ctx.any (fun e => isSvKind e.2.kind || isGooseKind e.2.kind) || !s.trowel.derived.isEmpty, 0x0706)]
def sheetHistoryEff (c : Cmd) (s : State) : Eff := done { s with hawk := { s.hawk with depth := (cw c 8).toNat } }

/-- SHEET_HISTORY (R168). -/
def execSheetHistory (c : Cmd) (s : State) : Host.Outcome State Fault Refusal :=
  .next (runConfig sheetHistoryCheck sheetHistoryEff c s)

/-- sheet.group (R172, R373): CTX bus pair; word 8 group, deadline, policy, hold limit. -/
def sheetGroupRow : OpRow := { opc := 0x2002, who := 0, ctx := 0x3, inp := false, out := false, params := [0xFF033F0F] }
def sheetGroupPre (c : Cmd) : Option Nat :=
  firstFail [(bits (cw c 8) 17 16 == 3, 0x0106), (bits (cw c 8) 31 24 == 0, 0x0106)]
def sheetGroupCheck (c : Cmd) (_ : State) : Option Nat :=
  let d := bits (cw c 8) 13 8
  firstFail [(d == 0 || decide (d > 32) || (bits (cw c 8) 17 16 == 2 && decide (d < 5)), 0x070A)]
def sheetGroupEff (c : Cmd) (s : State) : Eff :=
  done { s with hawk := { s.hawk with groups := lupd s.hawk.groups (16 * (cCtx c % 4) + bits (cw c 8) 3 0) (fun g => { g with
    deadline := bits (cw c 8) 13 8, policy := bits (cw c 8) 17 16, hold := bits (cw c 8) 31 24 }) } }

/-- SHEET_GROUP (R172, R173). -/
def execSheetGroup (c : Cmd) (s : State) : Host.Outcome State Fault Refusal :=
  .next (runConfig sheetGroupCheck sheetGroupEff c s)

end Sys2Proof.Machine
end

