-- ==== Sys2Proof/Machine/Budget.lean ====
section
/-! DEFINITION. Budget.lean: the slot budget unit (R382 to R401): period boundaries, the wait limit, and svc.fwload of a
budget table. -/
namespace Sys2Proof.Machine

/-- Units per lane per period under a master rate (R383). -/
def unitsPerLane : Nat → Nat
  | 4000 => 4882
  | 4800 => 4069
  | 12800 => 1525
  | _ => 1356

/-- Engine and class of an opcode whose cycles the model charges; none for the others (R385, log 42). -/
def engineOf (opc code : Nat) : Option (Nat × Nat) :=
  if 0x7000 ≤ opc ∧ opc < 0x8000 then some (5, 5)
  else if opc = 0x5003 ∨ opc = 0x8001 then some (2, 4)
  else if 0x6001 ≤ opc ∧ opc ≤ 0x6005 then some (if code < 3 ∨ (16 ≤ code ∧ code < 19) then 3 else 4, 4)
  else none

/-- The boundary's source: the budget grid, or none while periods run free (R382). -/
def sourceDue (s : State) : Bool :=
  if s.budget.src = 0 then decide (s.time.clock * 10 / 694272 > s.budget.last)
  else (bpOf s s.budget.grid).mrate == 0 || s.time.tstate == 0 || (bpOf s s.budget.grid).fired.any (fun n => decide (n > s.budget.last))

/-- A table that waits takes effect, and is measured (R400, R611). -/
def switchTable (s : State) : State :=
  match s.budget.next with
  | none => s
  | some (t, w, e, m) =>
    measure 11 m (event 3 2 { s with budget := { s.budget with
      table := t, tableInv := Budget.shadowOf t, wait := w, tepoch := e, next := none } })

/-- The period source as it now stands (R382, R383). -/
def takeSource (s : State) : State :=
  let g := budgetGrid s
  let src := b2n g.isSome
  let grid := g.getD 0
  let chg := src != s.budget.src || grid != s.budget.grid
  let s := { s with budget := { s.budget with
    src := src, grid := grid, p := match g with | some b => unitsPerLane (bpOf s b).mrate | none => 1356
    last := match g with | some b => (bpOf s b).fired.getD 0 | none => s.time.clock * 10 / 694272 } }
  if chg then event 3 3 s else s

/-- Every leaf at a boundary: min(D, 0) + Q (R390); leaves of disabled functions are removed (R396). -/
def renewLeaves (s : State) : State :=
  { s with budget := { s.budget with leaves := (s.budget.leaves.filter (fun e => e.1 % 65 == 0 || fnEnabled s (e.1 % 65))).map (fun e =>
      (e.1, { e.2 with d := min e.2.d 0 + (quantum s (e.1 / 650) (e.1 / 65 % 10) : Nat) })) } }

/-- Leaves of guaranteed classes that start a period at D = 0 or less are short of it from its start (R397). -/
def stillShort (s : State) : State :=
  (s.budget.leaves.filter (fun e => decide (e.1 / 65 % 10 < 4) && decide (e.2.d ≤ 0))).foldl (fun s e => guarShort (e.1 / 650) s) s

/-- S of the next period: a span device that is no gateway takes the gateway's (R336, R388, R396). -/
def sharesNow (s : State) : Nat := if s.sys.gateway then shareCount s else max 1 (Config.gatewayShares s.time.clock)

/-- BUDGET_PERIOD_BOUNDARY (R382, R390, R396, R397, R400): GSHORT shows the engines on which a guaranteed class ran short in
the period that ends. -/
def execBudgetPeriodBoundary (s : State) : Host.Outcome State Fault Refusal :=
  .next <|
    if sourceDue s then
      let s := takeSource (switchTable s)
      let s := { s with budget := { s.budget with shares := sharesNow s, gshort := s.budget.gnow, gnow := 0 } }
      stillShort (cntBgt 0 1 (renewLeaves s))
    else s

/-- BUDGET_WAIT_EXCEEDED (R395): an admitted command that has not started within the wait limit; it has done nothing. -/
def execBudgetWaitExceeded (tok : Nat) (s : State) : Host.Outcome State Fault Refusal :=
  .next <|
    match jent s tok with
    | some j =>
      if !j.started && j.outcome.isNone && decide (j.mark = .none) && !j.remote && j.admAck && !s.deferred.contains tok &&
         inService s && decide (s.time.clock - j.at_ ≥ s.budget.wait * 1000000) then
        event 3 1 (cntBgt 2 1 (cancel tok 0x0504 s))
      else s
    | none => s

/-! The budget table image (R398, R399). -/

/-- The table of an image. -/
def parseTable (l : List Byte) : List (List Nat) :=
  (List.range 7).map (fun e => (List.range 10).map (fun c => field l (0x20 + 20 * e + 2 * c) 2))

/-- Entries in range, sums, guaranteed minimums and zeros (R399). -/
def tableOk (t : List (List Nat)) : Bool :=
  (List.range 7).all (fun e =>
    let r := lget t e []
    let d := lget Budget.defaultTable e []
    decide (r.sum ≤ 1024) && (List.range 10).all (fun c =>
      decide (lget r c 0 ≤ 1024) && (decide (c > 3) || decide (lget r c 0 ≥ lget d c 0)) && (lget d c 0 != 0 || lget r c 0 == 0)))

/-- A field of the image lies outside its range. -/
def budgetImageOk (l : List Byte) (n : Nat) : Bool :=
  n == 176 && field l 0 1 == 1 && field l 1 1 == 7 && field l 2 1 == 10 && field l 3 1 == 0 &&
  decide (1 ≤ field l 4 2 ∧ field l 4 2 ≤ 60000) && field l 6 2 == 0 && field l 8 24 == 0 && field l 0xAC 4 == 0 &&
  tableOk (parseTable l)

def budgetCheck (c : Cmd) (_ : State) : Option Nat := if budgetImageOk c.input (cLen c) then none else some 0x0102

/-- The table waits in the shadow copy for the next boundary, with the epoch of its change (R400, R401). -/
def budgetEff (c : Cmd) (s : State) : Eff :=
  done { s with budget := { s.budget with
    next := some (parseTable c.input, field c.input 4 2, s.sys.epoch + 1, Config.hash 5 (c.input.take 176)) } }

/-! Registers (R401). -/

/-- Admitted commands of f that wait for a share of a leaf in debt. -/
def waitingOn (s : State) (f : Nat) : List (Nat × JEntry) :=
  s.journal.filter (fun e => e.2.cmd.fn == f && !e.2.started && e.2.outcome.isNone &&
    (match engineOf (Cmd.opc e.2.cmd) (bits (cw e.2.cmd 8) 4 0) with
     | some (g, c) => !mayStart s g c f
     | none => false))

/-- BGT_FNf. -/
def bgtFn (s : State) (f : Nat) : W32 :=
  let debt := (List.range 7).map (fun e => b2n ((waitingOn s f).any (fun w =>
    (engineOf (Cmd.opc w.2.cmd) (bits (cw w.2.cmd 8) 4 0)).any (fun g => g.1 == e))) * 2 ^ e)
  pack [(debt.sum, 0), (min 255 (waitingOn s f).length, 8)]

end Sys2Proof.Machine
end

