-- ==== Sys2Proof/Machine/Keys.lean ====
section
/-! DEFINITION. Keys.lean: the key store (R478 to R506): key types, descriptors, key.info and key.target, key update
envelopes, nonces and quorum tokens. A slot is held as the private key bus delivers it; what the MRAM holds of it, wrapped
under KSK and tagged under KIK (R485, R486), follows from it. -/
namespace Sys2Proof.Machine

/-- The fingerprint key of R409, and the fingerprint of a key. -/
def fpKey : List Byte := Config.kmac 11 Config.drk [] 32 (text "VK9612 key fingerprint")
def fingerprint (key : List Byte) : List Byte := (Config.kmac 11 fpKey key 32 []).take 16

/-- Octets of a public key and of a private key by PKE algorithm code (R439, R481); 0 for none. -/
def pubLen : Nat → Nat
  | 0x01 | 0x05 => 65
  | 0x02 | 0x06 => 97
  | 0x03 | 0x04 => 32
  | 0x07 => 256
  | 0x08 => 384
  | 0x09 => 512
  | 0x0A | 0x0B => 2592
  | 0x0C => 1568
  | _ => 0
def privLen : Nat → Nat
  | 0x01 | 0x03 | 0x04 | 0x05 => 32
  | 0x02 | 0x06 => 48
  | 0x07 => 896
  | 0x08 => 1344
  | 0x09 => 1792
  | 0x0A | 0x0B => 4896
  | 0x0C => 3168
  | _ => 0

/-- Algorithm code of a key type; 0x4A serves 0x0A and 0x0B (R480). -/
def ktypeOf (alg : Nat) : Nat := if alg = 0x0B then 0x4A else 0x40 + alg

/-- A key type permits a length and an attribute (R480). -/
def typeOk (ktype klen attr : Nat) : Bool :=
  match ktype with
  | 0x01 => klen == 16 && (attr == 0 || attr == 1 || attr == 2 || attr == 4 || attr == 5)
  | 0x02 => klen == 32 && (attr == 0 || attr == 1 || attr == 2 || attr == 4 || attr == 5)
  | 0x03 => klen == 32 && (attr == 0 || attr == 1)
  | 0x04 => klen == 64 && (attr == 0 || attr == 1)
  | 0x05 => decide (16 ≤ klen ∧ klen ≤ 128) && (attr == 4 || attr == 5 || attr == 3)
  | 0x06 => klen == 48 && (attr == 0 || attr == 1)
  | t =>
    let a := t - 0x40
    decide (0x41 ≤ t ∧ t ≤ 0x4C) && t != 0x4B &&
    (if attr = 5 then klen == pubLen a && decide (a ≠ 4 ∧ a ≠ 5 ∧ a ≠ 6 ∧ a ≠ 12)
     else klen == privLen a && (if a = 4 ∨ a = 5 ∨ a = 6 ∨ a = 12 then attr == 6 else attr == 4))

/-- Purposes PROG, PUBLIC, GROUP, MACSEC in bit order, where a key may carry them (R482). -/
def purposeOk (purpose ktype attr : Nat) (keyId : W32) : Bool :=
  let sym := ktype == 1 || ktype == 2 || ktype == 5
  (purpose % 2 == 0 || (attr == 5 && ktype == 0x4A)) && (purpose / 2 % 2 == 0 || (attr == 5 && sym)) &&
  (purpose / 4 % 2 == 0 || ((attr == 4 || attr == 5) && sym && keyId != 0)) &&
  (purpose / 8 % 2 == 0 || ktype == 2 || ktype == 6)

/-- The 64-octet descriptor of a LOADED slot (R479). -/
def descriptor (x : KSlot) : List Byte :=
  w32le (pack [(1, 0), (x.attr, 2), (x.ktype, 8), (x.purpose, 16), (x.source, 24)]) ++ leOctets 4 x.klen ++
  leOctets 4 x.oepoch ++ leOctets 4 x.ucount ++ leOctets 8 x.epoch ++ w32le x.keyId ++ leOctets 4 0 ++ fit 16 x.label ++
  fit 16 x.keyFp

/-- KIK and KSK (R485): the second needs BBKEK. -/
def kikOf : List Byte := Config.kmac 11 Config.drk [] 32 (text "VK9612 slot tag")
def kskOf (s : State) : Option (List Byte) :=
  s.keys.bbkek.map (fun b => Config.kmac 11 Config.drk (b ++ [BitVec.ofNat 8 s.keys.oepoch]) 32 (text "VK9612 store key"))

/-- The payload of a slot as the MRAM holds it (R486): wrapped under KSK, or the public key of slots 4 to 12 in the clear; none
while KSK cannot be derived (R490). -/
def storedPayload (s : State) (k : Nat) (x : KSlot) : Option (List Byte) :=
  if storedClear k then some x.payload else s.keys.ksk.map (fun key => Config.wrap 8 key x.payload)

/-- The tag of a slot at rest (R486). -/
def slotTag (s : State) (k : Nat) (x : KSlot) : Option (List Byte) :=
  match s.keys.kik, storedPayload s k x with
  | some key, some p => some (Config.kmac 11 key (leOctets 2 k ++ descriptor x ++ p) 32 (text "VK9612 slot"))
  | _, _ => none

/-- A slot as written: shadows and fingerprint with it (R479, R549). -/
def slotOf (attr ktype purpose source klen oepoch ucount epoch : Nat) (keyId : W32) (label payload : List Byte) : KSlot :=
  { attr := attr, attrInv := 7 - attr, ktype := ktype, purpose := purpose, purposeInv := 15 - purpose, source := source
    klen := klen, oepoch := oepoch, ucount := ucount, epoch := epoch, keyId := keyId, label := label
    keyFp := fingerprint payload, payload := payload }

/-- Octets that a payload takes of the pool, in units of 64: its AES-256-KWP wrap, or a public key of slots 4 to 12 in
the clear (R484, R486). -/
def poolUnits (slot klen : Nat) : Nat := ((if 4 ≤ slot ∧ slot ≤ 0xC then klen else (klen + 7) / 8 * 8 + 8) + 63) / 64

/-- Space of the reserved slots 0x0003 to 0x000D, both copies, from the first enrolment on (R484). -/
def reservedUnits (s : State) : Nat :=
  if (mget s.keys.slots 4).isSome then 2 * (poolUnits 3 4896 + 9 * poolUnits 4 2592 + poolUnits 0xD 64) else 0

/-- KST_POOL: units of 64 octets free (R484, R506). -/
def poolFree (s : State) : Nat :=
  114688 - reservedUnits s - ((s.keys.slots.filter (fun e => decide (e.1 ≥ 0x10))).map (fun e => poolUnits e.1 e.2.klen)).sum

/-- The public key that a slot can show: of a public or an asymmetric private key (R483). -/
def shownKey (x : KSlot) : List Byte :=
  if x.ktype < 0x41 then [] else if x.attr = 5 then x.payload else Config.pkePublic (x.ktype - 0x40) x.payload

/-- KST_OWNER (R506). -/
def kstOwner (s : State) : W32 :=
  pack [(s.keys.oepoch, 0), (64 - s.keys.oepoch, 8), (s.keys.quorum, 16),
        (((List.range 8).map (fun i => b2n (mget s.keys.slots (5 + i)).isSome * 2 ^ i)).sum, 24)]

/-- KST_SLOTS (R506). -/
def kstSlots (s : State) : W32 :=
  pack [((s.keys.slots.filter (fun e => decide (e.1 ≥ 0x10))).length, 0), (s.keys.corrupt.length, 16)]

/-! key.info (R483) and key.target (R493). -/

def keyInfoRow : OpRow := { opc := 0x9002, who := 3, ctx := 0xFFFF, inp := false, out := true, params := [] }
def keyInfoPre (c : Cmd) : Option Nat := firstFail [(decide (cOutLen c < 64), 0x0106)]
def keyInfoCheck (c : Cmd) (s : State) : Option Nat := slotFail s (cCtx c) [0, 1, 2, 3, 4, 5, 6, 7]
def keyInfoEff (c : Cmd) (s : State) : Eff :=
  let x := (mget s.keys.slots (cCtx c)).getD default
  let pub := shownKey x
  let o := descriptor x ++ (if 64 + pub.length ≤ cOutLen c then pub else [])
  { st := s, result := BitVec.ofNat 32 o.length, out := o }

/-- KEY_INFO (R483). -/
def execKeyInfo (c : Cmd) (s : State) : Host.Outcome State Fault Refusal := .next (runPlain keyInfoCheck keyInfoEff c s)

/-- Device KEM key, ML-KEM-1024, from DRK (R487). -/
def kemKey : List Byte := Config.pkePrivate 0x0C (Config.kmac 11 Config.drk [2, 0] 64 (text "VK9612 identity seed"))

/-- Device identity key for SPDM, ECDSA P-384 (R478, R487). -/
def spdmKey : List Byte := Config.pkePrivate 0x02 (Config.kmac 11 Config.drk [1, 0] 64 (text "VK9612 identity seed"))

def keyTargetRow : OpRow := { opc := 0x9003, who := 3, ctx := 0, inp := false, out := true, params := [] }
def keyTargetPre (c : Cmd) : Option Nat := firstFail [(decide (cOutLen c < 1648), 0x0106)]
def keyTargetEff (c : Cmd) (s : State) : Eff :=
  output c (devId ++ leOctets 4 s.keys.ucount ++ [BitVec.ofNat 8 s.keys.oepoch, BitVec.ofNat 8 (64 - s.keys.oepoch)] ++
    List.replicate 10 0 ++ fit 1568 (Config.pkePublic 0x0C kemKey)) s

/-- KEY_TARGET (R493). -/
def execKeyTarget (c : Cmd) (s : State) : Host.Outcome State Fault Refusal := .next (runPlain noCheck keyTargetEff c s)

/-! Envelopes (R491 to R496). -/

/-- The recipient entry of this device. -/
def ownEntry (l : List Byte) : Option Nat :=
  (List.range (envRcpts l)).find? (fun i => decide (octets l (rcptAt i) 64 = devId))
def entryCount (l : List Byte) (i : Nat) : Nat := field l (rcptAt i + 0x40) 4

/-- The content key of recipient entry i (R493). -/
def contentKey (l : List Byte) (i : Nat) : Option (List Byte) :=
  let o := rcptAt i
  let ss := Config.kemDecap kemKey (octets l (o + 0x50) 1568)
  let kek := Config.kmac 11 ss (devId ++ octets l (o + 0x40) 4 ++ Config.hash 5 (octets l 0 64)) 32 (text "VK9612 envelope KEK")
  Config.unwrap 8 kek (octets l (o + 0x670) 40)

/-- The signature of R492 under slot 0x0004. -/
def envSigned (s : State) (l : List Byte) : Bool :=
  let sig := octets l (l.length - 4627) 4627
  Config.pkeValid 0x0B (slotKey s 4) sig &&
  Config.pkeVerify 0x0B (slotKey s 4) (text "VK9612 envelope") (Config.hash 5 (l.take (l.length - 4627))) sig

/-- The payload of a WRITE under a content key. -/
def itemPayload (cek : List Byte) (i : EnvItem) : Option (List Byte) :=
  match Config.unwrap 8 cek i.wrap with
  | some p => if p.length = i.klen then some p else none
  | none => none

/-- A slot is in use by a context, a sheet key, a session's source or the heartbeat (R494 step 9). -/
def slotInUse (s : State) (k : Nat) : Bool :=
  s.skim.ctx.any (fun e => e.2.keyCur == k || (e.2.nxtValid && e.2.keyNxt == k) || (e.2.kind == 6 && e.2.sa.keySlot == k)) ||
  s.fns.any (fun f => f.sheetKey == some k) || (s.pair.paired && (s.pair.signSlot == k || s.pair.verSlot == k))

/-- Pool space that is free once the envelope's items have released and taken theirs (R494 step 10). -/
def poolAfter (s : State) (is : List EnvItem) : Int :=
  let old := (is.map (fun i => match mget s.keys.slots i.slot with | some x => poolUnits i.slot x.klen | none => 0)).sum
  let new := (is.map (fun i => if i.op = 2 then 0 else poolUnits i.slot i.klen)).sum
  (poolFree s : Int) + old - new

/-- The partner of a pair can be reached. -/
def partnerThere (s : State) : Bool := s.pair.paired && !s.pair.partnerLost && s.pair.heardAt.isSome

/-- Statuses of a partner that refuses an envelope, and 0 for one that accepts it: which of them a partner answers is no
part of this device, a free value (R496, log 43). -/
def partnerStatus (i : Nat) : Nat :=
  lget [0, 0x0102, 0x0308, 0x0305, 0x0304, 0x0301, 0x0302, 0x0401, 0x0309, 0x0303, 0x0706, 0x030A] (Config.freeNat i % 12) 0

/-- R494 in its order, then the partner of R496. -/
def keyApplyCheck (c : Cmd) (s : State) : Option Nat :=
  let l := c.input
  match parseEnvelope l with
  | none => some 0x0102
  | some is =>
    match ownEntry l with
    | none => some 0x0308
    | some r =>
      match firstFail
        [(field l 8 1 != s.keys.oepoch || (s.pair.paired && decide (envRcpts l < 2)), 0x0308), (s.keys.ucount == 0xFFFFFFFF, 0x0305),
         (decide (entryCount l r ≤ s.keys.ucount), 0x0304)] with
      | some st => some st
      | none =>
        match slotFail s 4 [5] with
        | some st => some st
        | none =>
          let cek := contentKey l r
          firstFail
            [(!envSigned s l || cek.isNone || is.any (fun i => i.op == 1 && (itemPayload (cek.getD []) i).isNone), 0x0401),
             (is.any (fun i => decide (i.slot < 0x10)), 0x0309),
             (is.any (fun i => i.op != 2 && (!typeOk i.ktype i.klen i.attr || !purposeOk i.purpose i.ktype i.attr i.keyId ||
                (i.op == 3 && i.attr == 5))), 0x0303),
             (is.any (fun i => i.op != 3 && slotInUse s i.slot), 0x0706),
             (decide (poolAfter s is < 0), 0x030A),
             (is.any (fun i => i.op == 3) && (drawRefused s).isSome, (drawRefused s).getD 0),
             (s.pair.paired && !s.pair.standby && !partnerThere s, 0x0901),
             (s.pair.paired && !s.pair.standby && partnerStatus s.freeCtr != 0, partnerStatus s.freeCtr)]

/-- A generated key: octets of instance 70, or a key pair from them (R491). -/
def generateKey (ktype klen : Nat) (s : State) : List Byte × State :=
  if ktype < 0x41 then generate 0 70 klen s
  else
    let (seed, s) := generate 0 70 64 s
    (fit klen (Config.pkePrivate (ktype - 0x40) seed), s)

/-- One item takes effect. -/
def applyItem (ucount : Nat) (cek : List Byte) (i : EnvItem) (s : State) : State :=
  let s := { s with keys := { s.keys with corrupt := s.keys.corrupt.filter (· != i.slot) } }
  if i.op = 2 then { s with keys := { s.keys with slots := mdel s.keys.slots i.slot } }
  else
    let (p, s) := if i.op = 1 then ((itemPayload cek i).getD [], s) else generateKey i.ktype i.klen s
    let x := slotOf i.attr i.ktype i.purpose (if i.op = 1 then 2 else 3) i.klen s.keys.oepoch ucount (s.sys.epoch + 1)
      (if i.purpose / 4 % 2 = 1 then i.keyId else 0) i.label p
    { s with keys := { s.keys with slots := mset s.keys.slots i.slot x } }

/-- Every item and the counter, as one change; the partner applies its own (R495, R496). -/
def keyApplyEff (c : Cmd) (s : State) : Eff :=
  let l := c.input
  let r := (ownEntry l).getD 0
  let n := entryCount l r
  let is := (parseEnvelope l).getD []
  let s := if s.pair.paired && !s.pair.standby then emit (.pair (.handOver c)) { s with freeCtr := s.freeCtr + 1 } else s
  let s := is.foldl (fun s i => applyItem n ((contentKey l r).getD []) i s) s
  let s := event 9 0 (cntKst 0 1 { s with keys := { s.keys with ucount := n } })
  done (if n = 0xFFFFFFFF then event 9 4 s else s)

/-- The envelope gets as far as the verification of its signature (R494 step 6). -/
def envVerifies (c : Cmd) (s : State) : Bool :=
  let l := c.input
  match parseEnvelope l, ownEntry l with
  | some _, some r =>
    field l 8 1 == s.keys.oepoch && (!s.pair.paired || decide (2 ≤ envRcpts l)) && s.keys.ucount != 0xFFFFFFFF &&
    decide (s.keys.ucount < entryCount l r) && (slotFail s 4 [5]).isNone
  | _, _ => false

/-- The envelope's verification and decapsulation are work of PF0's PKE leaf (R494). -/
def envWork (s : State) : State := clientWork 0x72 0xC 106250 0 (verifyWork 0x72 0 s)

/-- An envelope that takes effect, or is refused and counted. -/
def applyEnvelope (c : Cmd) (s : State) : State :=
  let s := if envVerifies c s then envWork s else s
  if (keyApplyCheck c s).isSome then applyConfig keyApplyCheck keyApplyEff c (event 9 1 (cntKst 1 1 s))
  else applyConfig keyApplyCheck keyApplyEff c s

def keyApplyRow : OpRow := { opc := 0x9001, who := 0, ctx := 0, inp := true, out := false, params := [] }

/-! Challenges and quorum (R503 to R505). -/

/-- An internal draw would end in ENTROPY_TIMEOUT, RNG_FAULT or RNG_FAILED (R503), or a test pattern is in force, under which
no internal client draws (R476). -/
def nonceFallback (s : State) : Bool :=
  (drawRefused s).isSome || s.rng.pattern.isSome || (s.rng.st == 2 && decide (s.time.clock - s.rng.failAt ≥ 50000000))

/-- The nonce: drawn, or derived from the challenge count. -/
def drawNonce (s : State) : List Byte × State :=
  if nonceFallback s then
    let n := s.keys.chalCount + 1
    (Config.kmac 11 (Config.kmac 11 Config.drk (text "challenge") 32 []) (leOctets 8 s.fw.boots ++ leOctets 8 n) 32 [],
     event 10 3 { s with keys := { s.keys with chalCount := n }, rng := { s.rng with fallback := true } })
  else
    let (o, s) := generate 0 70 32 s
    (o, { s with keys := { s.keys with chalCount := s.keys.chalCount + 1 } })

def svcChallengeRow : OpRow := { opc := 0xD003, who := 0, ctx := 0, inp := false, out := true, params := [] }
def svcChallengePre (c : Cmd) : Option Nat := firstFail [(decide (cOutLen c < 32), 0x0106)]
def svcChallengeEff (c : Cmd) (s : State) : Eff :=
  let (n, s) := drawNonce s
  output c (fit 32 n) { s with keys := { s.keys with nonce := some (fit 32 n, s.time.clock) } }

/-- SVC_CHALLENGE (R503): a new nonce replaces an outstanding one; it waits while the instance can supply it later. -/
def execSvcChallenge (c : Cmd) (s : State) : Host.Outcome State Fault Refusal :=
  .next (if nonceFallback s || drawReady s 70 then runPlain noCheck svcChallengeEff c s else s)

/-- CHALLENGE_EXPIRY (R503). -/
def execChallengeExpiry (s : State) : Host.Outcome State Fault Refusal :=
  .next (if s.keys.nonce.isSome && !chalValid s then { s with keys := { s.keys with nonce := none } } else s)

/-- Opcodes that need a quorum (R502); svc.enrol once officers are registered. -/
def quorumOps : List Nat := [0xD001, 0xD007, 0xD004, 0xD005, 0xA013, 0xB004, 0xD008]

/-- Tokens that follow the operation data (R505). -/
def tokenCount (c : Cmd) : Nat := bits (cw c 14) 2 0

/-- Operation data and tokens of the input (R505). -/
def opData (c : Cmd) : List Byte := c.input.take (c.input.length - 4883 * tokenCount c)
def tokenAt (c : Cmd) (i : Nat) : List Byte := octets c.input (c.input.length - 4883 * (tokenCount c - i)) 4883

/-- OPDIGEST of a command (R504). -/
def opDigest (c : Cmd) : List Byte :=
  fit 64 (Config.hash 5 (leOctets 2 (Cmd.opc c) ++ (List.range 6).flatMap (fun i => w32le (cw c (8 + i))) ++ opData c))

/-- A token counts (R505), given the officers that have counted. -/
def tokenCounts (c : Cmd) (nonce : List Byte) (s : State) (t : List Byte) (seen : List Nat) : Bool :=
  let o := field t 5 1
  let sig := octets t 0x100 4627
  octets t 0 4 == [0x56, 0x4B, 0x51, 0x54] && field t 4 1 == 1 && decide (o < 8) && field t 6 2 == Cmd.opc c &&
  octets t 8 32 == nonce && octets t 0x28 64 == devId && octets t 0x68 64 == opDigest c && field t 0xA8 88 == 0 &&
  !seen.contains o && !s.keys.corrupt.contains (5 + o) && (mget s.keys.slots (5 + o)).isSome &&
  Config.pkeValid 0x0B (slotKey s (5 + o)) sig &&
  Config.pkeVerify 0x0B (slotKey s (5 + o)) (text "VK9612 quorum") (Config.hash 5 (octets t 0 0x100)) sig

/-- Officers whose tokens count, in token order. -/
def countTokens (c : Cmd) (nonce : List Byte) (s : State) : Nat → List Nat → List Nat
  | 0, seen => seen
  | n + 1, seen =>
    let t := tokenAt c (tokenCount c - (n + 1))
    countTokens c nonce s n (if tokenCounts c nonce s t seen then seen ++ [field t 5 1] else seen)

/-- Token count and length of a quorum command (R505). -/
def quorumPre (c : Cmd) : Option Nat :=
  firstFail [(tokenCount c == 0 || decide (tokenCount c > 4), 0x0106), (decide (cLen c < 4883 * tokenCount c), 0x0106)]

/-- The nonce with which the command was admitted. -/
def nonceOf (c : Cmd) (s : State) : Option (List Byte) := (jent s c.tok).bind (fun j => j.nonce)

/-- R505 in its order. -/
def quorumCheck (c : Cmd) (s : State) : Option Nat :=
  match nonceOf c s with
  | none => some 0x0A02
  | some n =>
    if (List.range (tokenCount c)).any (fun i => (mget s.keys.slots (5 + field (tokenAt c i) 5 1)).isNone || decide (field (tokenAt c i) 5 1 > 7))
    then some 0x0A03
    else if (countTokens c n s (tokenCount c) []).length < s.keys.quorum then some 0x0A01
    else none

/-- Tokens whose signatures are verified: none where the nonce or an officer's slot is missing (R505). -/
def tokensVerified (c : Cmd) (s : State) : Nat :=
  if quorumCheck c s = some 0x0A02 ∨ quorumCheck c s = some 0x0A03 then 0 else tokenCount c

/-- The tokens' signatures are work of the function's PKE leaf; those that do not count are counted, and a failed quorum sets
QUORUM_FAIL (R505, R506). -/
def noteQuorum (c : Cmd) (s : State) : State :=
  let good := match nonceOf c s with | some n => (countTokens c n s (tokenCount c) []).length | none => 0
  let s' := cntKst 3 (tokenCount c - good) (tokensWork (tokensVerified c s) c.fn s)
  if (quorumCheck c s).isSome then event 9 3 s' else s'

/-- A configuration command under quorum takes effect, or fails (R505): the quorum comes before the command's own checks. -/
def applyQuorum (check : Cmd → State → Option Nat) (eff : Cmd → State → Eff) (c : Cmd) (s : State) : State :=
  applyConfig (fun c s => match quorumCheck c s with | some st => some st | none => check c s) eff c (noteQuorum c s)

end Sys2Proof.Machine
end

