-- ==== Sys2Proof/Machine/Engines.lean ====
section
/-! DEFINITION. Engines.lean: the cipher and hash engines (R402 to R433): sessions, the cph. and hsh. commands, save and
restore. The input of a session is kept whole as its chaining state; what a run writes is what it adds to the output of
all input so far. -/
namespace Sys2Proof.Machine

/-! Sessions (R409 to R412). -/

/-- The open session k: cipher (1), hash (2) or key pair (3). -/
def sesOf (s : State) (k : Nat) : Option Ctx :=
  match ctxOf s k with
  | some x => if x.kind = 7 then some x else none
  | none => none

/-- An open session of a SKIND. -/
def sesKind (s : State) (k kind : Nat) : Bool := (sesOf s k).any (fun x => x.ses.skind == kind)

/-- The session takes no more work: its final run has been made (R409, log 41). -/
def sesFinal (s : State) (k : Nat) : Bool := (sesOf s k).any (fun x => x.ses.final)

/-- Writes the state block of session k, in region 4 (R409, R515). -/
def putBlock (k : Nat) (block : List Byte) (s : State) : State :=
  if s.sealer.hbmOk then sealWrite 4 (k - 0x5A00) (fit 512 block) s else s

/-- The state block of a session as HBM holds it: key and chaining state under the session key (R409). -/
def stateBlock (s : State) (k : Nat) (p : SesPart) : List Byte :=
  Config.stateBlock s.eng.sesKey k p.key (Config.packState p.iv p.aad p.chain p.octets p.streamed p.final)

/-- Changes the session part of context k, which its command has brought into the cache, and its state block (R140, R409). -/
def updSes (k : Nat) (g : SesPart → SesPart) (s : State) : State :=
  let s := updCtx k (fun x => { x with ses := g x.ses }) s
  match ctxOf s k with
  | some x => putBlock k (stateBlock s k x.ses) (touchCtx k s)
  | none => s

/-- Sessions that a command works on (R411). -/
def sessionsOf (c : Cmd) : List Nat :=
  let o := Cmd.opc c
  let w9 := bits (cw c 9) 15 0
  if o = 0x5003 then [cCtx c, bits (cw c 10) 15 0]
  else if (0x5001 ≤ o ∧ o ≤ 0x5005) ∨ o = 0x6003 ∨ o = 0x6004 then [cCtx c]
  else if o = 0x6005 then [cCtx c, w9]
  else if o = 0x6002 then [w9]
  else if 0x7003 ≤ o ∧ o ≤ 0x7006 then [cCtx c, w9]
  else []

/-- No earlier-admitted command without an outcome works on a session of this one (R411). -/
def sesTurn (c : Cmd) (s : State) : Bool :=
  s.journal.all (fun e => decide (e.1 ≥ c.tok) || e.2.outcome.isSome ||
    (sessionsOf e.2.cmd).all (fun k => decide (k < 0x5A00) || !(sessionsOf c).contains k))

/-- A command of a session runs in its turn. -/
def inTurn (run : Cmd → State → State) (c : Cmd) (s : State) : State := if sesTurn c s then run c s else s

/-- Work starts on engine e for HOSTCMD only while its leaf has something left and a lane for it (R391, R394). -/
def onEngine (e : Nat) (run : Cmd → State → State) (c : Cmd) (s : State) : State :=
  if mayRun s e 4 c.fn then run c s else s

/-- Context range and use of a session to be opened (R133, R414). -/
def openFail (k : Nat) (s : State) : Option Nat :=
  firstFail [(decide (k < 0x5A00 ∨ k > 0xFFFF), 0x0705), ((ctxOf s k).isSome, 0x0706)]

/-- A session takes its context entry and its state block (R131, R409). -/
def openSession (k fn src : Nat) (p : SesPart) (s : State) : State :=
  putBlock k (stateBlock s k p) <| newCtx k { (default : Ctx) with
    kind := 7, st := 1, fn := fn, gen := nextGen s k, keyCur := src, cnt := List.replicate 16 0, ses := p } s

/-- A session closes: its entry is FREE, and the state block of a key pair is overwritten with zeros (R442). -/
def closeSession (k : Nat) (s : State) : State :=
  let pair := sesKind s k 3
  let s := freeCtx k s
  if pair then putBlock k [] s else s

/-- A key slot for an operation (R408): attribute, key types and key lengths; slot 0x000D serves the Sealer only (R536). -/
def symFail (s : State) (k : Nat) (attr : Nat) (types lens : List Nat) : Option Nat :=
  match slotFail s k [attr] with
  | some st => some st
  | none =>
    let x := (mget s.keys.slots k).getD default
    if types.contains x.ktype && (lens.isEmpty || lens.contains x.klen) && k != 0xD then none else some 0x0303

/-- The session that is to receive a key (R410, R443): open, of the issuing function, opened with source 0xFFFF, without a
key. -/
def targetFail (s : State) (fn k : Nat) : Option Nat :=
  match sesOf s k with
  | some x =>
    if x.fn = fn && x.keyCur == 0xFFFF && !x.ses.keyset && (x.ses.skind == 1 || x.ses.skind == 2) then none else some 0x0705
  | none => some 0x0705

/-- A key of n octets fits the target (R413, R443); a secret of the public-key engine fits no XTS session. -/
def keyFits (s : State) (k n : Nat) (secret : Bool) : Bool :=
  match sesOf s k with
  | some x =>
    if x.ses.skind = 2 then true
    else if x.ses.code = 5 then !secret && (n == 32 || n == 64)
    else n == 32 || (!secret && n == 16)
  | none => false

/-- Installs a key in a session (R410). -/
def installKey (k : Nat) (key : List Byte) (s : State) : State :=
  updSes k (fun p => { p with keyset := true, key := key, keyFp := fingerprint key }) s

/-- An AUTH_FAIL outcome of a cph. or hsh. command (R409, R433). -/
def authFailed (k : Nat) (s : State) : State := event 11 0 (cntEng 3 1 (cntCtx k 1 1 s))

/-! cph.open and cph.close (R413, R414). -/

def cphOpenRow : OpRow :=
  { opc := 0x5001, who := 3, ctx := 0xFFFF, inp := false, out := false
    params := [0xFFF3F, 0xFFFF, 0xFFFFFFFF, 0xFFFFFFFF, 0xFFFFFFFF, 0xFFFFFFFF] }

/-- Mode, DIR, TLEN and UNITLG of cph.open. -/
def coMode (c : Cmd) : Nat := bits (cw c 8) 4 0
def coDir (c : Cmd) : Bool := bit (cw c 8) 5
def coTlen (c : Cmd) : Nat := bits (cw c 8) 15 8
def coUnit (c : Cmd) : Nat := bits (cw c 8) 19 16

/-- IV words that the mode does not use are reserved (R413). -/
def cphOpenPre (c : Cmd) : Option Nat :=
  let m := coMode c
  firstFail
    [((m == 0 || m == 6 || m == 7 || m == 8) && (cw64 c 10 != 0 || cw64 c 12 != 0), 0x0105),
     ((m == 3 || m == 4) && (cw c 13).toNat != 0, 0x0105)]

/-- TLEN and UNITLG in range (R414). -/
def tlenOk (m t : Nat) : Bool :=
  if m = 3 ∨ m = 4 then t == 8 || t == 12 || t == 16 else if m = 6 then t == 8 || t == 16 else t == 0
def unitOk (m u : Nat) : Bool := if m = 5 then decide (9 ≤ u ∧ u ≤ 12) else u == 0

/-- Attribute of a mode and direction (R413). -/
def modeAttr (m : Nat) (dir : Bool) : Nat :=
  if m = 7 ∨ m = 8 then 2 else if m = 4 ∨ m = 6 then (if dir then 5 else 4) else (if dir then 1 else 0)

/-- Key types of a mode (R413, R480). -/
def modeTypes (m : Nat) : List Nat := if m = 5 then [3, 4] else [1, 2]

def cphOpenCheck (c : Cmd) (s : State) : Option Nat :=
  let m := coMode c
  let k := bits (cw c 9) 15 0
  match firstFail [(decide (m > 8), 0x0705), (!tlenOk m (coTlen c) || !unitOk m (coUnit c), 0x0106)] with
  | some st => some st
  | none =>
    match openFail (cCtx c) s with
    | some st => some st
    | none => if k = 0xFFFF then none else symFail s k (modeAttr m (coDir c)) (modeTypes m) []

/-- The key slot carries the public-use purpose (R426, R479). -/
def slotPublic (s : State) (k : Nat) : Bool := ((mget s.keys.slots k).getD default).purpose / 2 % 2 == 1

def cphOpenEff (c : Cmd) (s : State) : Eff :=
  let m := coMode c
  let k := bits (cw c 9) 15 0
  let set_ := decide (k ≠ 0xFFFF)
  let ivw := (w32le (cw c 10) ++ w32le (cw c 11) ++ w32le (cw c 12) ++ w32le (cw c 13))
  let p : SesPart := { (default : SesPart) with
    skind := 1, code := m, dir := coDir c, keyset := set_, tlen := coTlen c, unitlg := coUnit c
    pubOk := set_ && (m == 4 || m == 6) && coDir c && slotPublic s k
    iv := if m = 3 ∨ m = 4 then ivw.take 12 else ivw
    key := if set_ then slotKey s k else [], keyFp := if set_ then ((mget s.keys.slots k).getD default).keyFp else [] }
  done (openSession (cCtx c) c.fn k p s)

/-- CPH_OPEN (R414). -/
def execCphOpen (c : Cmd) (s : State) : Host.Outcome State Fault Refusal :=
  .next (inTurn (runPlain cphOpenCheck cphOpenEff) c s)

def cphCloseRow : OpRow := { opc := 0x5002, who := 2, ctx := 0xFFFF, inp := false, out := false, params := [] }
def cphCloseCheck (c : Cmd) (s : State) : Option Nat := if (sesOf s (cCtx c)).isNone then some 0x0705 else none
def cphCloseEff (c : Cmd) (s : State) : Eff := done (closeSession (cCtx c) s)

/-- CPH_CLOSE (R411, R442): after every earlier command on the session. -/
def execCphClose (c : Cmd) (s : State) : Host.Outcome State Fault Refusal :=
  .next (inTurn (runPlain cphCloseCheck cphCloseEff) c s)

/-! cph.run (R415, R420 to R424). -/

def cphRunRow : OpRow :=
  { opc := 0x5003, who := 2, ctx := 0xFFFF, inp := true, out := true, params := [0xFFFFFFFF, 1, 0xFFFF] }

def crFinal (c : Cmd) : Bool := bit (cw c 9) 0
def crOther (c : Cmd) : Nat := bits (cw c 10) 15 0

/-- Octets of tag at the end of a run's input: the final run of a mode that verifies. -/
def crTag (c : Cmd) (p : SesPart) : Nat := if p.dir && crFinal c then p.tlen else 0

/-- Octets of data of a run. -/
def crData (c : Cmd) (p : SesPart) : Nat := cLen c - crTag c p - (cw c 8).toNat

/-- Octets that a wrap covers: the input, or the key of the session named. -/
def wrapLen (c : Cmd) (s : State) : Nat :=
  if crOther c = 0 then cLen c else ((sesOf s (crOther c)).getD default).ses.key.length

/-- Octets that a run writes. -/
def crOut (c : Cmd) (p : SesPart) (s : State) : Nat :=
  let n := crData c p
  if p.code = 3 then (if !p.dir && crFinal c then n + p.tlen else n)
  else if p.code = 4 ∨ p.code = 6 then (if !p.dir && crFinal c then p.tlen else 0)
  else if p.code = 7 ∨ p.code = 8 then (if p.dir then 0 else (wrapLen c s + 7) / 8 * 8 + 8)
  else n

/-- Run lengths (R413) by mode; a wrap of a session's key has no input of its own (log 41). -/
def runLenOk (c : Cmd) (p : SesPart) : Bool :=
  let n := crData c p
  if p.code ≤ 1 then n % 16 == 0
  else if p.code ≤ 3 then n % 16 == 0 || crFinal c
  else if p.code = 5 then n % 2 ^ p.unitlg == 0
  else if p.code = 7 ∨ p.code = 8 then
    (if crOther c ≠ 0 ∧ !p.dir then cLen c == 0
     else if p.code = 7 then cLen c % 8 == 0 && decide (16 ≤ cLen c ∧ cLen c ≤ 4096)
     else decide (1 ≤ cLen c ∧ cLen c ≤ 4096))
  else true

/-- R415, before admission. -/
def cphRunPre (c : Cmd) (s : State) : Option Nat :=
  match sesOf s (cCtx c) with
  | some x =>
    let p := x.ses
    if p.skind ≠ 1 then none
    else firstFail
      [((cw c 8).toNat != 0 && (p.code != 3 || p.streamed || p.final), 0x0106),
       (decide (cLen c < crTag c p + (cw c 8).toNat), 0x0106), (!runLenOk c p, 0x0106),
       (decide (cOutLen c < crOut c p s), 0x0106)]
  | none => none

/-- R408, R411, R415, R421 after admission. -/
def cphRunCheck (c : Cmd) (s : State) : Option Nat :=
  match sesOf s (cCtx c) with
  | none => some 0x0705
  | some x =>
    let p := x.ses
    let kw := p.code == 7 || p.code == 8
    match firstFail
      [(p.skind != 1 || p.final, 0x0705), (!p.keyset, 0x0301),
       (p.code == 3 && p.dir && (mode s == 2 || mode s == 3) && (!crFinal c || p.streamed), 0x0201)] with
    | some st => some st
    | none =>
      if kw && p.dir then targetFail s c.fn (crOther c)
      else if kw && crOther c != 0 then
        (match sesOf s (crOther c) with
         | some y => if y.fn != c.fn then some 0x0705 else if y.ses.keyset then none else some 0x0301
         | none => some 0x0705)
      else if crOther c != 0 then some 0x0705
      else none

/-- AES operations and engine cycles of a run (R406): blocks, and cycles. -/
def cphCost (c : Cmd) (p : SesPart) (s : State) : Nat × Nat :=
  let per := if p.key.length = 16 then 11 else 15
  let n := (crData c p + 15) / 16
  if p.code = 7 ∨ p.code = 8 then
    let k := 6 * ((wrapLen c s + 7) / 8)
    (k, k * per)
  else if p.code = 6 ∨ (p.code = 1 ∧ !p.dir) then (n, n * per)
  else (n, n)

/-- The run's data, additional data and tag as they lie in the input. -/
def crParts (c : Cmd) (p : SesPart) : List Byte × List Byte × List Byte :=
  let aad := (cw c 8).toNat
  let body := c.input.take (cLen c - crTag c p)
  (body.take aad, body.drop aad, (c.input.take (cLen c)).drop (cLen c - crTag c p))

/-- The session after a run. -/
def afterRun (c : Cmd) (aad dat : List Byte) (p : SesPart) : SesPart :=
  { p with aad := p.aad ++ aad, chain := p.chain ++ dat, streamed := p.streamed || !crFinal c
           final := p.final || crFinal c, octets := p.octets + cLen c }

/-- A failed unwrap or verification (R424). -/
def cphFail (c : Cmd) (s : State) : Eff := { st := authFailed (cCtx c) s, status := 0x0401 }

/-- What a run does (R415, R420, R422, R424). -/
def cphRunEff (c : Cmd) (s : State) : Eff :=
  let k := cCtx c
  let p := ((sesOf s k).getD default).ses
  let (aad, dat, tagIn) := crParts c p
  let all := p.chain ++ dat
  let (n, cyc) := cphCost c p s
  let s := engineWork 2 4 c.fn cyc k c.tok (p.key ++ p.iv) (cntEng 0 n (cntCtx k 0 1 s))
  let s' := updSes k (afterRun c aad dat) s
  let ok (o : List Byte) : Eff := { st := s', result := BitVec.ofNat 32 o.length, out := o }
  if p.code = 7 ∨ p.code = 8 then
    let s' := updSes k (fun p => { p with
      streamed := p.streamed || !crFinal c, final := p.final || crFinal c, octets := p.octets + cLen c }) s
    if p.dir then
      match Config.unwrap p.code p.key (c.input.take (cLen c)) with
      | none => cphFail c s'
      | some key =>
        if keyFits s (crOther c) key.length false then done (installKey (crOther c) key s')
        else { st := s', status := 0x0303 }
    else
      let src := if crOther c = 0 then c.input.take (cLen c) else ((sesOf s (crOther c)).getD default).ses.key
      let o := fit (crOut c p s) (Config.wrap p.code p.key src)
      { st := s', result := BitVec.ofNat 32 o.length, out := o }
  else if p.code = 4 ∨ p.code = 6 then
    let t := fit p.tlen (if p.code = 4 then Config.tag 4 p.key p.iv all [] else Config.tag 6 p.key [] [] all)
    if !crFinal c then ok []
    else if !p.dir then ok t
    else if t = tagIn then ok [] else cphFail c s'
  else
    let o := fit dat.length ((Config.cipher p.code p.dir p.key p.iv all).drop p.chain.length)
    if p.code ≠ 3 ∨ !crFinal c then ok o
    else
      let ct := if p.dir then all else Config.cipher 3 false p.key p.iv all
      let t := fit p.tlen (Config.tag 3 p.key p.iv (p.aad ++ aad) ct)
      if !p.dir then ok (o ++ t)
      else if t = tagIn then ok o
      else if !s.sys.startup && (mode s == 2 || mode s == 3) then
        { st := authFailed k s', status := 0x0401, out := List.replicate o.length 0 }
      else
        { st := event 11 1 (cntEng 4 1 (cntCtx k 2 1 s')), status := 0x0402, result := BitVec.ofNat 32 o.length, out := o }

/-- A GCM decryption writes its plaintext in place before the tag is compared (R421): what the command has written when
its work is staged. -/
def plainFirst (c : Cmd) (s : State) : Option (List Byte) :=
  match sesOf s (cCtx c) with
  | some x =>
    let p := x.ses
    let (_, dat, _) := crParts c p
    if p.skind = 1 ∧ p.code = 3 ∧ p.dir ∧ dmaOk s c.fn then
      some (fit dat.length ((Config.cipher 3 true p.key p.iv (p.chain ++ dat)).drop p.chain.length)) else none
  | none => none

/-- The work is staged; plaintext that already stands in host memory is not written again (R35). -/
def runCipher (c : Cmd) (s : State) : State :=
  let s' := runWork cphRunCheck cphRunEff c s
  match plainFirst c s, (jent s' c.tok).bind (fun j => if j.outcome.isNone then j.staged else none) with
  | some o, some g =>
    if runnable s c && !o.isEmpty then
      emits (outWrites c o) (hostMove o.length c.fn <| updJ c.tok (fun j => { j with
        staged := some { g with out := if g.status = 0x0401 then g.out else [], wrote := o.length } }) s')
    else s'
  | _, _ => s'

/-- CPH_RUN (R411, R415). -/
def execCphRun (c : Cmd) (s : State) : Host.Outcome State Fault Refusal :=
  .next (inTurn (onEngine 2 runCipher) c s)

/-! cph.save and cph.restore (R425 to R430). -/

def cphSaveRow : OpRow := { opc := 0x5004, who := 2, ctx := 0xFFFF, inp := false, out := true, params := [1] }
def cphSavePre (c : Cmd) : Option Nat := firstFail [(decide (cOutLen c < 576), 0x0106)]

def csWrapped (c : Cmd) : Bool := bit (cw c 8) 0

def cphSaveCheck (c : Cmd) (s : State) : Option Nat :=
  match sesOf s (cCtx c) with
  | none => some 0x0705
  | some x => firstFail
      [(x.ses.skind == 3, 0x0705), (!x.ses.keyset, 0x0301), (!csWrapped c && !x.ses.pubOk, 0x0303),
       (csWrapped c && (drawRefused s).isSome, (drawRefused s).getD 0)]

/-- Octets 0x000 to 0x03F of a blob (R427). -/
def blobHead (k : Nat) (x : Ctx) (seq : Nat) (wrapped : Bool) (iv : List Byte) : List Byte :=
  [0x56, 0x4B, 0x43, 0x53] ++
  w32le (pack [(1, 0), (b2n wrapped, 8), (x.ses.skind, 9), (x.ses.code, 11), (b2n x.ses.dir, 16), (x.fn, 17)]) ++
  leOctets 2 k ++ leOctets 2 x.gen ++ leOctets 4 0 ++ leOctets 8 seq ++ fit 16 x.ses.keyFp ++ fit 12 iv ++ List.replicate 12 0

def cphSaveEff (c : Cmd) (s : State) : Eff :=
  let k := cCtx c
  let x := (sesOf s k).getD default
  let p := x.ses
  let seq := p.saveSeq + 1
  let (iv, s) := if csWrapped c then generate c.fn 0 12 s else ([], s)
  let head := blobHead k x seq (csWrapped c) iv
  let plain := fit 496 (Config.packState p.iv p.aad p.chain p.octets p.streamed p.final)
  let s := cntCtx k 3 1 (updSes k (fun p => { p with saveSeq := seq }) s)
  if csWrapped c then
    let key := (fnOf s x.fn).ctxKey
    let ct := fit 496 (Config.cipher 3 false key iv plain)
    output c (head ++ ct ++ fit 16 (Config.tag 3 key iv head ct)) s
  else output c (head ++ plain ++ (Config.hash 3 (head ++ plain)).take 16) s

/-- CPH_SAVE (R425): the IV of the wrapped form is drawn (R428). -/
def execCphSave (c : Cmd) (s : State) : Host.Outcome State Fault Refusal :=
  .next (inTurn (fun c s => if csWrapped c then withDraw 0 (runPlain cphSaveCheck cphSaveEff) c s
                            else runPlain cphSaveCheck cphSaveEff c s) c s)

def cphRestoreRow : OpRow := { opc := 0x5005, who := 2, ctx := 0xFFFF, inp := true, out := false, params := [] }
def cphRestorePre (c : Cmd) : Option Nat := firstFail [(cLen c != 576, 0x0106)]

/-- The chaining state that a blob holds. -/
def blobState (l : List Byte) (x : Ctx) (s : State) : List Byte :=
  if bit (word32 l 4) 8 then Config.cipher 3 true (fnOf s x.fn).ctxKey (octets l 0x28 12) (octets l 0x40 496)
  else octets l 0x40 496

/-- The blob's tag verifies. -/
def blobTagOk (l : List Byte) (x : Ctx) (s : State) : Bool :=
  octets l 0 4 == [0x56, 0x4B, 0x43, 0x53] && field l 4 1 == 1 &&
  (if bit (word32 l 4) 8 then
     fit 16 (Config.tag 3 (fnOf s x.fn).ctxKey (octets l 0x28 12) (octets l 0 0x40) (octets l 0x40 496)) == octets l 0x230 16
   else (Config.hash 3 (octets l 0 0x230)).take 16 == octets l 0x230 16)

/-- R429 in its order, then R430. -/
def cphRestoreCheck (c : Cmd) (s : State) : Option Nat :=
  let k := cCtx c
  match sesOf s k with
  | none => some 0x0705
  | some x =>
    let l := c.input
    let w := word32 l 4
    let p := x.ses
    firstFail
      [(p.skind == 3 || p.final, 0x0705), (!blobTagOk l x s || bits w 23 17 != x.fn, 0x0401),
       (bits w 10 9 != p.skind || bits w 15 11 != p.code || bit w 16 != p.dir || octets l 0x18 16 != fit 16 p.keyFp, 0x0705),
       (!bit w 8 && !p.pubOk, 0x0303),
       (p.skind == 1 && (p.code == 2 || p.code == 3) && !p.dir &&
         (field l 8 2 != k || field l 10 2 != x.gen || field l 0x10 8 != p.saveSeq), 0x0401)]

def cphRestoreEff (c : Cmd) (s : State) : Eff :=
  let k := cCtx c
  let x := (sesOf s k).getD default
  let (iv, aad, chain, n, str, fin) := Config.unpackState (blobState c.input x s)
  let once := x.ses.skind == 1 && (x.ses.code == 2 || x.ses.code == 3) && !x.ses.dir
  done (cntCtx k 4 1 (updSes k (fun p => { p with
    iv := iv, aad := aad, chain := chain, octets := n, streamed := str, final := fin
    saveSeq := if once then p.saveSeq + 1 else p.saveSeq }) s))

/-- A restore that is refused is counted (R409, R433). -/
def noteRestore (c : Cmd) (s : State) : State :=
  match cphRestoreCheck c s with
  | none => s
  | some st =>
    let s := if st = 0x0401 then authFailed (cCtx c) s else s
    event 11 2 (cntEng 5 1 (cntCtx (cCtx c) 5 1 s))

/-- CPH_RESTORE (R429, R430). -/
def execCphRestore (c : Cmd) (s : State) : Host.Outcome State Fault Refusal :=
  .next (inTurn (fun c s => if runnable s c then
      (match cphRestoreCheck c s with
       | some st => settle c.tok st 0 [] (noteRestore c s)
       | none => runPlain cphRestoreCheck cphRestoreEff c s)
    else s) c s)

/-! Hash functions (R416 to R418). -/

/-- Codes: without a key, of KMAC, of HMAC, with a prefix of function name and customisation. -/
def unkeyed (h : Nat) : Bool := decide (h ≤ 9)
def isKmac (h : Nat) : Bool := h == 10 || h == 11
def isHmac (h : Nat) : Bool := decide (16 ≤ h ∧ h ≤ 21)
def prefixed (h : Nat) : Bool := decide (8 ≤ h ∧ h ≤ 11)

/-- Octets of a fixed-size digest or HMAC tag; 0 for the others. -/
def digestLen (h : Nat) : Nat := lget [32, 48, 64, 32, 48, 64, 0, 0, 0, 0, 0, 0, 0, 0, 0, 0, 32, 48, 64, 32, 48, 64] h 0

/-- Word 8 and word 10 of a hash command (R417). -/
def hcode (c : Cmd) : Nat := bits (cw c 8) 4 0
def hdir (c : Cmd) : Bool := bit (cw c 8) 5
def hderive (c : Cmd) : Bool := bit (cw c 8) 6
def hnlen (c : Cmd) : Nat := bits (cw c 8) 23 16
def hslen (c : Cmd) : Nat := bits (cw c 8) 31 24
def htlen (c : Cmd) : Nat := if isKmac (hcode c) then (if hderive c then 32 else bits (cw c 10) 7 0) else digestLen (hcode c)

/-- Fields of word 8 and word 10 within their codes and ranges (R416, R417; log 41). -/
def hashFieldsOk (c : Cmd) : Bool :=
  let h := hcode c
  let t := bits (cw c 10) 7 0
  (unkeyed h || isKmac h || isHmac h) && (prefixed h || (hnlen c == 0 && hslen c == 0)) &&
  (!isKmac h || hnlen c == 0) && decide (hnlen c ≤ 64) && (!hderive c || (isKmac h && !hdir c)) && (!unkeyed h || !hdir c) &&
  (if isKmac h && !hderive c then decide (16 ≤ t ∧ t ≤ 64) else t == 0 || (hderive c && t == 32))

/-- Attribute that the key of a MAC needs (R416). -/
def macAttr (c : Cmd) : Nat := if hderive c then 3 else if hdir c then 5 else 4

/-- Engine and block of a function: SHA-2 (3) or Keccak (4), octets of a block, cycles of one (R406). -/
def hashEngine (h : Nat) : Nat := if h < 3 ∨ (16 ≤ h ∧ h < 19) then 3 else 4
def hashBlock (h : Nat) : Nat :=
  lget [64, 128, 128, 136, 104, 72, 168, 136, 168, 136, 168, 136, 1, 1, 1, 1, 64, 128, 128, 136, 104, 72] h 1
def hashCycles (h : Nat) : Nat := if hashEngine h = 4 then 24 else if hashBlock h = 64 then 64 else 80

/-- Blocks or permutations of a whole message of n octets with o octets of output. -/
def hashWork (h n o : Nat) : Nat :=
  let b := hashBlock h
  (if hashEngine h = 3 then (n + (if b = 64 then 8 else 16)) / b + 1 else n / b + 1 + (o - 1) / b) + (if isHmac h then 2 else 0)

/-- Counts and charges w blocks of a function for a client, whose key a core holds (R389, R405, R433). -/
def chargeHash (h w client : Nat) (c : Cmd) (key : List Byte) (s : State) : State :=
  engineWork (hashEngine h) 4 c.fn (w * hashCycles h) client c.tok key (cntEng (hashEngine h - 2) w s)

/-- Client of a command of a function that needs no session (R405). -/
def oneShot (fn : Nat) : Nat := 0x10000 + fn

/-- The digest or tag of a function over its input, function name and customisation first where it has them. -/
def hashOf (h nlen slen : Nat) (key inp : List Byte) (n : Nat) : List Byte :=
  let name := inp.take nlen
  let cust := (inp.drop nlen).take slen
  let msg := inp.drop (nlen + slen)
  fit n (if h ≤ 5 then Config.hash h inp else if h ≤ 9 then Config.xof h name cust msg n
    else if h ≤ 11 then Config.kmac h key msg n cust else Config.hmac h key inp)

def hshDigestRow : OpRow :=
  { opc := 0x6001, who := 3, ctx := 0, inp := true, out := true, params := [0xFFFF001F] }

/-- Output octets of a digest: fixed, or OUTLEN (R417). -/
def outOf (h : Nat) (c : Cmd) : Nat := if digestLen h = 0 then cOutLen c else digestLen h

def hshDigestPre (c : Cmd) : Option Nat :=
  firstFail [(!hashFieldsOk c || !unkeyed (hcode c), 0x0106), (decide (cLen c < hnlen c + hslen c), 0x0106),
             (decide (cOutLen c < digestLen (hcode c)), 0x0106)]

def hshDigestEff (c : Cmd) (s : State) : Eff :=
  let h := hcode c
  output c (hashOf h (hnlen c) (hslen c) [] (c.input.take (cLen c)) (outOf h c))
    (chargeHash h (hashWork h (cLen c) (outOf h c)) (oneShot c.fn) c [] s)

/-- HSH_DIGEST (R418). -/
def execHshDigest (c : Cmd) (s : State) : Host.Outcome State Fault Refusal :=
  .next (onEngine (hashEngine (hcode c)) (runWork noCheck hshDigestEff) c s)

def hshMacRow : OpRow :=
  { opc := 0x6002, who := 3, ctx := 0xFFFF, inp := true, out := true, params := [0xFFFF007F, 0xFFFF, 0xFF] }

def hshMacPre (c : Cmd) : Option Nat :=
  firstFail [(!hderive c && (cw c 9).toNat != 0, 0x0105), (!hashFieldsOk c || unkeyed (hcode c), 0x0106),
             (decide (cLen c < hnlen c + hslen c + (if hdir c then htlen c else 0)), 0x0106),
             (!hdir c && !hderive c && decide (cOutLen c < htlen c), 0x0106)]

/-- The key, and the session that receives a derived key (R408, R410, R443). -/
def hshMacCheck (c : Cmd) (s : State) : Option Nat :=
  match symFail s (cCtx c) (macAttr c) [5] [] with
  | some st => some st
  | none =>
    if hderive c then
      (match targetFail s c.fn (bits (cw c 9) 15 0) with
       | some st => some st
       | none => if keyFits s (bits (cw c 9) 15 0) 32 false then none else some 0x0303)
    else none

/-- The end of a MAC: the tag, a comparison, or a derived key (R418, R424). k is the session it runs in, if any. -/
def macEnd (c : Cmd) (h nlen slen t : Nat) (dir derive_ : Bool) (key inp : List Byte) (k tgt : Nat) (s : State) : Eff :=
  let data := if dir then inp.take (inp.length - t) else inp
  let m := hashOf h nlen slen key data t
  if derive_ then done (installKey tgt m s)
  else if dir then (if m = inp.drop (inp.length - t) then done s else { st := authFailed k s, status := 0x0401 })
  else output c m s

def hshMacEff (c : Cmd) (s : State) : Eff :=
  let h := hcode c
  macEnd c h (hnlen c) (hslen c) (htlen c) (hdir c) (hderive c) (slotKey s (cCtx c)) (c.input.take (cLen c)) 0x10000
    (bits (cw c 9) 15 0) (chargeHash h (hashWork h (cLen c) (htlen c)) (oneShot c.fn) c (slotKey s (cCtx c)) s)

/-- HSH_MAC (R418). -/
def execHshMac (c : Cmd) (s : State) : Host.Outcome State Fault Refusal :=
  .next (inTurn (onEngine (hashEngine (hcode c)) (runWork hshMacCheck hshMacEff)) c s)

def hshOpenRow : OpRow :=
  { opc := 0x6003, who := 3, ctx := 0xFFFF, inp := false, out := false, params := [0xFFFF007F, 0xFFFF, 0xFF] }

/-- A function without a key names no slot: word 9 is 0 or 0xFFFF (log 41). -/
def hshOpenPre (c : Cmd) : Option Nat :=
  firstFail [(unkeyed (hcode c) && (cw c 9).toNat != 0 && (cw c 9).toNat != 0xFFFF, 0x0105), (!hashFieldsOk c, 0x0106)]

def hshOpenCheck (c : Cmd) (s : State) : Option Nat :=
  match openFail (cCtx c) s with
  | some st => some st
  | none =>
    if unkeyed (hcode c) || (cw c 9).toNat == 0xFFFF then none else symFail s (cw c 9).toNat (macAttr c) [5] []

def hshOpenEff (c : Cmd) (s : State) : Eff :=
  let h := hcode c
  let k := (cw c 9).toNat
  let slot := !unkeyed h && k != 0xFFFF
  let p : SesPart := { (default : SesPart) with
    skind := 2, code := h, dir := hdir c, derive_ := hderive c, keyset := unkeyed h || slot
    pubOk := unkeyed h || (slot && hdir c && slotPublic s k), tlen := htlen c, nlen := hnlen c, slen := hslen c
    key := if slot then slotKey s k else [], keyFp := if slot then ((mget s.keys.slots k).getD default).keyFp else [] }
  done (openSession (cCtx c) c.fn (if slot then k else 0xFFFF) p s)

/-- HSH_OPEN (R416). -/
def execHshOpen (c : Cmd) (s : State) : Host.Outcome State Fault Refusal :=
  .next (inTurn (runPlain hshOpenCheck hshOpenEff) c s)

def hshUpdateRow : OpRow := { opc := 0x6004, who := 2, ctx := 0xFFFF, inp := true, out := false, params := [] }

/-- The first update begins with function name and customisation (R417). -/
def hshUpdatePre (c : Cmd) (s : State) : Option Nat :=
  match sesOf s (cCtx c) with
  | some x => firstFail [(x.ses.skind == 2 && x.ses.octets == 0 && decide (cLen c < x.ses.nlen + x.ses.slen), 0x0106)]
  | none => none

/-- An open hash session with its key (R410, R411). -/
def hashSesFail (k : Nat) (s : State) : Option Nat :=
  match sesOf s k with
  | none => some 0x0705
  | some x => firstFail [(x.ses.skind != 2, 0x0705), (!x.ses.keyset, 0x0301)]

def hshUpdateCheck (c : Cmd) (s : State) : Option Nat :=
  if sesFinal s (cCtx c) then some 0x0705 else hashSesFail (cCtx c) s

def hshUpdateEff (c : Cmd) (s : State) : Eff :=
  let k := cCtx c
  let p := ((sesOf s k).getD default).ses
  let b := hashBlock p.code
  let w := (p.chain.length + cLen c) / b - p.chain.length / b
  done (chargeHash p.code w k c p.key (cntCtx k 0 1 (updSes k (fun p => { p with
    chain := p.chain ++ c.input.take (cLen c), octets := p.octets + cLen c, streamed := true }) s)))

/-- HSH_UPDATE. -/
def execHshUpdate (c : Cmd) (s : State) : Host.Outcome State Fault Refusal :=
  .next (inTurn (onEngine (hashEngine ((sesOf s (cCtx c)).getD default).ses.code) (runWork hshUpdateCheck hshUpdateEff)) c s)

def hshFinalRow : OpRow := { opc := 0x6005, who := 2, ctx := 0xFFFF, inp := true, out := true, params := [0, 0xFFFF] }

def hshFinalPre (c : Cmd) (s : State) : Option Nat :=
  match sesOf s (cCtx c) with
  | some x =>
    let p := x.ses
    if p.skind ≠ 2 then none
    else firstFail
      [(!p.derive_ && (cw c 9).toNat != 0, 0x0105),
       (decide (p.chain.length + cLen c < p.nlen + p.slen + (if p.dir then p.tlen else 0)), 0x0106),
       (unkeyed p.code && decide (cOutLen c < digestLen p.code), 0x0106),
       (!unkeyed p.code && !p.dir && !p.derive_ && decide (cOutLen c < p.tlen), 0x0106)]
  | none => none

def hshFinalCheck (c : Cmd) (s : State) : Option Nat :=
  match hashSesFail (cCtx c) s with
  | some st => some st
  | none =>
    if ((sesOf s (cCtx c)).getD default).ses.derive_ then
      (match targetFail s c.fn (bits (cw c 9) 15 0) with
       | some st => some st
       | none => if keyFits s (bits (cw c 9) 15 0) 32 false then none else some 0x0303)
    else none

/-- The session ends as hsh.digest or hsh.mac ends, over all input of its updates and of this command, and closes
(R418, log 41). -/
def hshFinalEff (c : Cmd) (s : State) : Eff :=
  let k := cCtx c
  let p := ((sesOf s k).getD default).ses
  let inp := p.chain ++ c.input.take (cLen c)
  let o := if unkeyed p.code then outOf p.code c else p.tlen
  let w := hashWork p.code inp.length o - p.chain.length / hashBlock p.code
  let s := closeSession k (chargeHash p.code w k c p.key s)
  if unkeyed p.code then output c (hashOf p.code p.nlen p.slen [] inp o) s
  else macEnd c p.code p.nlen p.slen p.tlen p.dir p.derive_ p.key inp 0x10000 (bits (cw c 9) 15 0) s

/-- HSH_FINAL (R418). -/
def execHshFinal (c : Cmd) (s : State) : Host.Outcome State Fault Refusal :=
  .next (inTurn (onEngine (hashEngine ((sesOf s (cCtx c)).getD default).ses.code) (runWork hshFinalCheck hshFinalEff)) c s)

end Sys2Proof.Machine
end

