-- ==== Sys2Proof/Machine/Pke.lean ====
section
/-! DEFINITION. Pke.lean: the public-key engine (R434 to R459): operands, keys, instances, fixed times, results, wipes. -/
namespace Sys2Proof.Machine

/-! Operands (R437 to R439). -/

def pkAlg (c : Cmd) : Nat := bits (cw c 8) 7 0
def pkCtxLen (c : Cmd) : Nat := bits (cw c 10) 7 0
def isRsa (a : Nat) : Bool := decide (7 ≤ a ∧ a ≤ 9)
def isMlDsa (a : Nat) : Bool := a == 0xA || a == 0xB

/-- Algorithms that a command permits (R437). -/
def pkeAlgs (opc : Nat) : List Nat :=
  if opc = 0x7001 ∨ opc = 0x7002 then [1, 2, 3, 7, 8, 9, 0xA, 0xB]
  else if opc = 0x7003 then [4, 5, 6]
  else if opc = 0x7006 then [4, 5, 6, 0xC]
  else [0xC]

/-- Octets of a signature (R439). -/
def sigLen (a : Nat) : Nat := lget [0, 64, 96, 64, 0, 0, 0, 256, 384, 512, 4627, 4627, 0] a 0

/-- Octets of the digest that an algorithm signs; none where it takes a message (R439). -/
def pkDigest (c : Cmd) : Option Nat :=
  let a := pkAlg c
  if a = 1 then some 32 else if a = 2 then some 48 else if a = 0xB then some 64
  else if isRsa a then some (lget [32, 48, 64, 64] (bits (cw c 8) 11 10) 64) else none

/-- Parts of the input: context string, public key where it is in the input, signature; the message is the rest. -/
def pkPub (c : Cmd) : Nat := if Cmd.opc c = 0x7002 ∧ cCtx c = 0xFFFF then pubLen (pkAlg c) else 0
def pkSig (c : Cmd) : Nat := if Cmd.opc c = 0x7002 then sigLen (pkAlg c) else 0
def pkHead (c : Cmd) : Nat := pkCtxLen c + pkPub c + pkSig c
def pkMsg (c : Cmd) : Nat := cLen c - pkHead c

/-- Octets of output (R438). -/
def pkOut (c : Cmd) : Nat :=
  let o := Cmd.opc c
  if o = 0x7001 then sigLen (pkAlg c) else if o = 0x7004 then 1568 else if o = 0x7006 then pubLen (pkAlg c) else 0

/-- R437, R438, before admission; the lengths of a code that the command permits. -/
def pkePre (c : Cmd) : Option Nat :=
  let a := pkAlg c
  let o := Cmd.opc c
  let sv := o == 0x7001 || o == 0x7002
  let lenBad := if sv then
      (match pkDigest c with
       | some d => cLen c != pkHead c + d
       | none => decide (cLen c < pkHead c ∨ pkMsg c > 65536))
    else if o = 0x7006 then cLen c != 0
    else if o = 0x7003 then cLen c != pubLen a
    else cLen c != 1568
  firstFail
    [(sv && !isRsa a && bits (cw c 8) 11 8 != 0, 0x0105), (sv && !isMlDsa a && (cw c 10).toNat != 0, 0x0105),
     (sv && isRsa a && (decide (bits (cw c 8) 9 8 > 1) || bits (cw c 8) 11 10 == 3), 0x0106),
     ((pkeAlgs o).contains a && (lenBad || decide (cOutLen c < pkOut c)), 0x0106)]

def pkeSignRow : OpRow := { opc := 0x7001, who := 3, ctx := 0xFFFF, inp := true, out := true, params := [0xFFF, 0, 0xFF] }
def pkeVerifyRow : OpRow := { opc := 0x7002, who := 3, ctx := 0xFFFF, inp := true, out := false, params := [0xFFF, 0, 0xFF] }
def pkeAgreeRow : OpRow := { opc := 0x7003, who := 3, ctx := 0xFFFF, inp := true, out := false, params := [0xFF, 0xFFFF] }
def pkeEncapRow : OpRow := { opc := 0x7004, who := 3, ctx := 0, inp := true, out := true, params := [0xFF, 0xFFFF] }
def pkeDecapRow : OpRow := { opc := 0x7005, who := 3, ctx := 0xFFFF, inp := true, out := false, params := [0xFF, 0xFFFF] }
def pkeKeygenRow : OpRow := { opc := 0x7006, who := 3, ctx := 0, inp := false, out := true, params := [0xFF, 0xFFFF] }

/-! Keys and sessions (R440 to R443). -/

/-- CTX names a slot of an attribute and of the algorithm's type and length (R440). -/
def pkSlotFail (c : Cmd) (s : State) (attr n : Nat) : Option Nat :=
  let k := cCtx c
  if k < 0x10 then some 0x0303
  else
    match slotFail s k [attr] with
    | some st => some st
    | none =>
      let x := (mget s.keys.slots k).getD default
      if x.ktype = ktypeOf (pkAlg c) && x.klen == n then none else some 0x0303

/-- CTX names an AGREE_ONLY slot or a key-pair session (R440, R442). -/
def pkAgreeFail (c : Cmd) (s : State) : Option Nat :=
  if cCtx c < 0x5A00 then pkSlotFail c s 6 (privLen (pkAlg c))
  else
    match sesOf s (cCtx c) with
    | some x => if x.ses.skind ≠ 3 ∨ x.fn ≠ c.fn then some 0x0705 else if x.ses.code ≠ pkAlg c then some 0x0303 else none
    | none => some 0x0705

def pkTarget (c : Cmd) : Nat := bits (cw c 9) 15 0

/-- Octets of the secret of an algorithm (R439). -/
def secretLen (a : Nat) : Nat := if a = 6 then 48 else 32

/-- The session that receives the secret (R443). -/
def pkTargetFail (c : Cmd) (s : State) : Option Nat :=
  match targetFail s c.fn (pkTarget c) with
  | some st => some st
  | none => if keyFits s (pkTarget c) (secretLen (pkAlg c)) true then none else some 0x0303

/-- Random octets that an operation draws (R452); 0 for none. -/
def pkDraw (c : Cmd) : Nat :=
  let a := pkAlg c
  let o := Cmd.opc c
  if o = 0x7001 then
    (if a = 1 ∨ a = 2 ∨ isMlDsa a then 32 else if isRsa a ∧ bits (cw c 8) 9 8 = 1 then (pkDigest c).getD 0 else 0)
  else if o = 0x7004 then 32
  else if o = 0x7006 then (if a = 0xC then 64 else 32)
  else 0

/-- Checks that precede the engine time, by opcode; a draw that can never be made ends the command last (R453). -/
def pkeCheck (c : Cmd) (s : State) : Option Nat :=
  let o := Cmd.opc c
  let a := pkAlg c
  if !(pkeAlgs o).contains a then some 0x0705
  else
    match (if o = 0x7001 then pkSlotFail c s 4 (privLen a)
           else if o = 0x7002 then (if cCtx c = 0xFFFF then none else pkSlotFail c s 5 (pubLen a))
           else if o = 0x7003 ∨ o = 0x7005 then
             (match pkAgreeFail c s with | some st => some st | none => pkTargetFail c s)
           else if o = 0x7004 then pkTargetFail c s
           else openFail (pkTarget c) s) with
    | some st => some st
    | none => if pkDraw c = 0 then none else drawRefused s

/-! Fixed times (R444, R445), in ns. -/

/-- Engine time by operation column: 0 sign, 1 verify, 2 agree, 3 keygen, 4 encap, 5 decap. -/
def fixedTime (a col : Nat) : Nat :=
  lget (lget
    [[], [48000, 96000, 0, 0, 0, 0], [110000, 220000, 0, 0, 0, 0], [40000, 85000, 0, 0, 0, 0],
     [0, 0, 36000, 36000, 0, 0], [0, 0, 50000, 48000, 0, 0], [0, 0, 115000, 110000, 0, 0],
     [1200000, 32000, 0, 0, 0, 0], [4000000, 70000, 0, 0, 0, 0], [9500000, 125000, 0, 0, 0, 0],
     [2900000, 210000, 0, 0, 0, 0], [2900000, 210000, 0, 0, 0, 0], [0, 0, 0, 60000, 70000, 85000]] a []) col 0

/-- What each further 1,024 octets of message add. -/
def fixedStep (a col : Nat) : Nat := if a = 3 then (if col = 0 then 1100 else 600) else if a = 0xA then 200 else 0

def pkTime (c : Cmd) : Nat :=
  let col := lget [0, 0, 1, 2, 4, 5, 3] (Cmd.opc c - 0x7000) 0
  let n := pkCtxLen c + pkMsg c
  fixedTime (pkAlg c) col + (n - 1024 + 1023) / 1024 * fixedStep (pkAlg c) col

/-! Instances (R391, R434). -/

/-- A host leaf holds at most max(1, 4 / S) instances. -/
def unitShare (s : State) (fn : Nat) : Bool :=
  decide (((List.range 4).filter (fun i => (unitOf s i).busy && (unitOf s i).owner == fn)).length < max 1 (4 / max 1 s.budget.shares))

/-- Private key of CTX: the slot's, or the key-pair session's. -/
def pkPriv (c : Cmd) (s : State) : List Byte :=
  if cCtx c < 0x5A00 then slotKey s (cCtx c) else ((sesOf s (cCtx c)).getD default).ses.key

/-- Operands as they go into the instance's memory: input, key, random octets (R434). -/
def pkOperands (c : Cmd) (r : List Byte) (s : State) : List Byte :=
  (c.input.take (cLen c) ++ (if cCtx c = 0xFFFF ∨ Cmd.opc c = 0x7004 ∨ Cmd.opc c = 0x7006 then [] else pkPriv c s) ++ r).take 65536

/-- The operation starts: random octets first, then the engine time (R436, R452). -/
def startPke (i : Nat) (c : Cmd) (s : State) : State :=
  let (r, s) := if pkDraw c = 0 then ([], s) else generate c.fn 65 (pkDraw c) s
  startCmd c.tok (updUnit i (fun _ =>
    { owner := c.fn, alg := pkAlg c, busy := true, wiping := false, tok := c.tok, at_ := s.time.clock, rnd := r
      mem := pkOperands c r s }) s)

/-- A pke. command: refused by a check, or started when its leaf, its share and an instance allow. -/
def runPke (c : Cmd) (s : State) : State :=
  if runnable s c then
    match pkeCheck c s with
    | some st => settle c.tok st 0 [] (if st = 0x0601 ∨ st = 0x0603 then cntRng 4 1 s else s)
    | none =>
      match freeUnit s with
      | none => s
      | some i =>
        if mayStart s 5 5 c.fn && unitShare s c.fn && !s.pke.stopped && (pkDraw c == 0 || drawReady s 65) then startPke i c s else s
  else s

/-- PKE_SIGN. -/
def execPkeSign (c : Cmd) (s : State) : Host.Outcome State Fault Refusal := .next (runPke c s)

/-- PKE_VERIFY. -/
def execPkeVerify (c : Cmd) (s : State) : Host.Outcome State Fault Refusal := .next (runPke c s)

/-- PKE_AGREE (R411, R442). -/
def execPkeAgree (c : Cmd) (s : State) : Host.Outcome State Fault Refusal := .next (inTurn runPke c s)

/-- PKE_ENCAP (R451). -/
def execPkeEncap (c : Cmd) (s : State) : Host.Outcome State Fault Refusal := .next (inTurn runPke c s)

/-- PKE_DECAP (R442, R451). -/
def execPkeDecap (c : Cmd) (s : State) : Host.Outcome State Fault Refusal := .next (inTurn runPke c s)

/-- PKE_KEYGEN (R441). -/
def execPkeKeygen (c : Cmd) (s : State) : Host.Outcome State Fault Refusal := .next (inTurn runPke c s)

/-! Results (R447 to R455). -/

/-- An outcome that overwrites the output with zeros over its full size (R448, R449, log 40). -/
def pkZeros (c : Cmd) (st : Nat) (s : State) : Eff := { st := s, status := st, out := List.replicate (pkOut c) 0 }
def pkInvalid (c : Cmd) (s : State) : Eff := pkZeros c 0x0403 (pkeEvent 0 (cntPke 1 1 s))

/-- A key-pair session closes after its one use (R442). -/
def spendPair (c : Cmd) (s : State) : State := if cCtx c < 0x5A00 then s else closeSession (cCtx c) s

/-- The result of an operation whose engine time has ended. -/
def pkeResult (c : Cmd) (r : List Byte) (s : State) : Eff :=
  let o := Cmd.opc c
  let a := pkAlg c
  let w := cw c 8
  let inp := c.input.take (cLen c)
  let ctx := inp.take (pkCtxLen c)
  let msg := inp.drop (pkHead c)
  let out (x : List Byte) (s : State) : Eff := { st := s, result := BitVec.ofNat 32 x.length, out := x }
  if o = 0x7001 then
    let k := pkPriv c s
    if !Config.pkeValid w k [] then pkInvalid c s
    else
      match Config.pkeSign w k ctx msg r with
      | some g => out (fit (pkOut c) g) s
      | none => if isMlDsa a then pkZeros c 0x0404 (pkeEvent 1 (cntPke 3 1 s)) else out (fit (pkOut c) []) s
  else if o = 0x7002 then
    let pub := if cCtx c = 0xFFFF then (inp.drop (pkCtxLen c)).take (pkPub c) else slotKey s (cCtx c)
    let sig := (inp.drop (pkCtxLen c + pkPub c)).take (pkSig c)
    if !Config.pkeValid w pub sig then pkInvalid c s
    else if Config.pkeVerify w pub ctx msg sig then done s
    else { st := cntPke 2 1 s, status := 0x0401 }
  else if o = 0x7003 then
    let k := pkPriv c s
    let s := spendPair c s
    if !Config.pkeValid w k inp then pkInvalid c s
    else done (installKey (pkTarget c) (fit (secretLen a) (Config.pkeAgree a k inp)) s)
  else if o = 0x7004 then
    if !Config.pkeValid w inp [] then pkInvalid c s
    else
      let (ct, ss) := Config.kemEncap inp r
      out (fit 1568 ct) (installKey (pkTarget c) (fit 32 ss) s)
  else if o = 0x7005 then
    let k := pkPriv c s
    done (installKey (pkTarget c) (fit 32 (Config.kemDecap k inp)) (spendPair c s))
  else
    let k := fit (privLen a) (Config.pkePrivate a r)
    let p : SesPart := { (default : SesPart) with skind := 3, code := a, keyset := true, key := k, keyFp := fingerprint k }
    out (fit (pubLen a) (Config.pkePublic a k)) (openSession (pkTarget c) c.fn 0xFFFF p s)

/-- The instance begins to wipe its operand memory (R454). -/
def startWipe (i : Nat) (s : State) : State :=
  updUnit i (fun u => { u with busy := false, wiping := true, rnd := [], at_ := s.time.clock }) s

/-- The engine time of the operation on instance i has ended (R444, R457). -/
def pkeEnded (s : State) (i : Nat) : Bool :=
  let u := unitOf s i
  u.busy && (jent s u.tok).any (fun j => decide (s.time.clock - u.at_ ≥ pkTime j.cmd))

/-- The result of instance i (R436, R444, R455): the fixed time has passed; the outcome is journalled while the wipe runs. A result
that would touch an invalidated page ends the command, which installs nothing (R333). -/
def resultReady (i : Nat) (s : State) : State :=
    let u := unitOf s i
    match jent s u.tok with
    | none => s
    | some j =>
      if i < 4 && pkeEnded s i && j.outcome.isNone && !s.pke.stopped then
        let e := if decide (j.mark = .dado) && decide (pkOut j.cmd ≠ 0) then { st := cntPke 0 1 s, status := 0x0802 }
          else pkeResult j.cmd u.rnd (cntPke 0 1 s)
        let s := charge 5 5 j.cmd.fn (pkTime j.cmd * 5 / 4) e.st
        startWipe i (afterOutcome u.tok (settle u.tok e.status e.result e.out s))
      else s

/-- PKE_RESULT_READY. -/
def execPkeResultReady (i : Nat) (s : State) : Host.Outcome State Fault Refusal := .next (resultReady i s)

/-- A device reset that meets operations whose engine time has ended finds their own outcomes (R457). -/
def endedFirst (s : State) : State := (List.range 4).foldl (fun s i => resultReady i s) s

/-- Status of a stopped command by its mark (R333, R343, R376). -/
def markStatus : Mark → Nat
  | .reset => 0x0503
  | .dado => 0x0802
  | _ => 0x0501

/-- PKE_WIPE_DONE (R454, R455): 0.96 µs; the outcome of a stopped operation is journalled after it, and its abort or its
function's reset goes on. -/
def execPkeWipeDone (i : Nat) (s : State) : Host.Outcome State Fault Refusal :=
  .next <|
    let u := unitOf s i
    if i < 4 && u.wiping && decide (s.time.clock - u.at_ ≥ 960) then
      let s := updUnit i (fun u => { u with wiping := false, tok := 0, mem := List.replicate u.mem.length 0 }) s
      match jent s u.tok with
      | none => s
      | some j =>
        if j.outcome.isNone && decide (j.mark ≠ .none) then
          afterOutcome u.tok (settle u.tok (markStatus j.mark) 0 [] s)
        else s
    else s

/-- A stopped operation ends at its 256-cycle boundary (R456): 204.8 ns apart; it writes and installs nothing. -/
def stopPke (i : Nat) (c : Cmd) (s : State) : State :=
  let u := unitOf s i
  let n := (s.time.clock - u.at_) * 5 / 4 / 256 + 1
  startWipe i (pkeEvent 2 (cntPke 4 1 (charge 5 5 c.fn (256 * n) s)))

/-! Internal signers (R448, R452; log 44). -/

/-- An internal signer can have its 32 random octets now: from the DRBG, or by the derivation that stands in for it. -/
def signerReady (s : State) : Bool := nonceFallback s || drawReady s 65

/-- The random octets of an internal signature: drawn, or derived from the signature count. -/
def signerRnd (fn : Nat) (purpose : String) (s : State) : List Byte × State :=
  if nonceFallback s then
    let n := s.pke.sigCount + 1
    (Config.kmac 11 (Config.kmac 11 Config.drk (text "signer") 32 []) (text purpose ++ leOctets 8 s.fw.boots ++ leOctets 8 n) 32 [],
     event 10 3 { s with pke := { s.pke with sigCount := n }, rng := { s.rng with fallback := true } })
  else generate fn 65 32 s

/-- A HashML-DSA-87 signature over octets by an internal client, charged to the PKE leaf of function fn (R388): none on
RETRY, which it meets by another attempt. -/
def internalSign (owner fn : Nat) (purpose : String) (priv ctx octs : List Byte) (s : State) : Option (List Byte) × State :=
  let (r, s) := signerRnd fn purpose s
  let s := signWork owner fn s
  match Config.pkeSign 0x0B priv ctx (Config.hash 5 octs) r with
  | some g => (some (fit 4627 g), s)
  | none => (none, pkeEvent 1 (cntPke 3 1 s))

end Sys2Proof.Machine
end

