-- ==== Sys2Proof/Machine/Sealer.lean ====
section
/-! DEFINITION. Sealer.lean: the Sealer and the HBM (R507 to R534): accesses, failed checks, the walk of a key epoch,
repair and retirement. -/
namespace Sys2Proof.Machine

/-! Failed checks (R524, R525). -/

/-- A failed check on a pseudo-channel stops the device. -/
def sealFail (kind rid lbn pc : Nat) (s : State) : State :=
  let s := { s with sealer := { s.sealer with
    fail := pack [(kind, 0), (rid, 4), (pc, 8), (1, 12)], failLbn := lbn } }
  enterHalted (event 8 8 (cntSlr 9 1 s))

/-- A word at an address, and its second read where the first is uncorrectable (R508, R513, R524). -/
def readAt (addr : Nat) (first : LathWord) (again : Option LathWord) : LathOut :=
  match lathDecode (addr % 4294967296) first with
  | .uncorrectable => lathDecode (addr % 4294967296) (again.getD first)
  | o => o

/-- The first read of a word is uncorrectable. -/
def readTwice (addr : Nat) (first : LathWord) : Bool := (lathDecode (addr % 4294967296) first).data?.isNone

/-- The words that an access reads: address, first read, second read. Those of the lines and nodes that the cache lacks, from
the line upwards, and those of the sector. -/
def metaReads (s : State) (rid lbn : Nat) (r : SectorRead) (l : Nat) : List (Nat × LathWord × Option LathWord) :=
  (List.range 8).map (fun w =>
    (metaWord s rid l (itemIdx lbn l) w, lget (lget r.items l []) w default,
     (r.itemsAgain.find? (fun e => e.1 == l && e.2.1 == w)).map (·.2.2)))
def sectorReads (s : State) (rid lbn : Nat) (r : SectorRead) : List (Nat × LathWord × Option LathWord) :=
  (List.range 32).map (fun w =>
    (sectorWord s rid lbn w, lget r.words w default, (r.again.find? (fun e => e.1 == w)).map (·.2)))

/-- The octets of words; none where one stays uncorrectable (R524). -/
def readOctetsAt : List (Nat × LathWord × Option LathWord) → Option (List Byte)
  | [] => some []
  | x :: xs =>
    match (readAt x.1 x.2.1 x.2.2).data?, readOctetsAt xs with
    | some d, some ds => some (fit 16 d ++ ds)
    | _, _ => none

/-- The kind of the first check that fails on the way down from level l - 1 to the line (R522): 5 an uncorrectable word, 3 a
node's NMAC, 2 the LMAC; and the line's octets where all pass. -/
def metaCheck (s : State) (rid lbn : Nat) (r : SectorRead) : Nat → Nat ⊕ List Byte
  | 0 => .inr (lineBody s rid (itemIdx lbn 0))
  | l + 1 =>
    match readOctetsAt (metaReads s rid lbn r l) with
    | none => .inl 5
    | some o =>
      if nodeMac s rid l (itemIdx lbn l) (itemCtr s rid l (itemIdx lbn l)) (o.take 0x78) != field o 0x78 8 then
        .inl (if l = 0 then 2 else 3)
      else if l = 0 then .inr o
      else metaCheck s rid lbn r l

/-- The kind of the first failing check of the way down to a sector's line; none when all pass (R522, R524). -/
def lineCheck (s : State) (rid lbn : Nat) (r : SectorRead) : Option Nat :=
  match metaCheck s rid lbn r (missCount s rid lbn) with
  | .inl k => some k
  | .inr _ => none

/-- The line of a sector, as read or as cached. -/
def lineRead (s : State) (rid lbn : Nat) (r : SectorRead) : List Byte :=
  match metaCheck s rid lbn r (missCount s rid lbn) with
  | .inl _ => []
  | .inr o => o

/-- TAG and GEN of a sector in its line (R519). -/
def lineTag (o : List Byte) (lbn : Nat) : Nat := field o (8 * (lbn % 10)) 8
def lineGen (o : List Byte) (lbn : Nat) : Nat := field o (0x50 + 4 * (lbn % 10)) 4

/-- The ciphertext of a sector. -/
def cipherRead (s : State) (rid lbn : Nat) (r : SectorRead) : List Byte := (readOctetsAt (sectorReads s rid lbn r)).getD []

/-- The kind of the first check that fails: nodes and line on the way down, generation, words, tag (R522, R524); none when
all pass. A sector of generation 0 has neither words nor a tag to check (R517). -/
def sealCheck (s : State) (rid lbn : Nat) (r : SectorRead) : Option Nat :=
  match lineCheck s rid lbn r with
  | some k => some k
  | none =>
    let o := lineRead s rid lbn r
    let g := (sectorOf s rid lbn).gen
    firstFail
      [(lineGen o lbn != g, 4), (g != 0 && (readOctetsAt (sectorReads s rid lbn r)).isNone, 5),
       (g != 0 && sectorTag s rid (sectorEpoch s rid lbn) lbn g (cipherRead s rid lbn r) != lineTag o lbn, 1)]

/-- The sector's octets once every check has passed (R517). -/
def sealRead (s : State) (rid lbn : Nat) (r : SectorRead) : List Byte :=
  if (sectorOf s rid lbn).gen = 0 then List.replicate 512 0
  else sealPlain s rid (sectorEpoch s rid lbn) lbn (cipherRead s rid lbn r)

/-! Accesses (R517, R524 to R528). -/

/-- The Sealer works on a sector of the region. -/
def sealerRuns (s : State) (rid lbn : Nat) : Bool :=
  decide (rid < 10) && decide (lbn < regSectors s rid) && s.sealer.hbmOk && !isStopped s && !s.sys.held

/-- The words that an access reads from the stack: lines and nodes, and the sector where its octets are needed. -/
def wordsRead (s : State) (rid lbn : Nat) (whole : Bool) (r : SectorRead) : List (Nat × LathWord × Option LathWord) :=
  (List.range (missCount s rid lbn)).flatMap (metaReads s rid lbn r) ++
  (if whole || (sectorOf s rid lbn).gen == 0 then [] else sectorReads s rid lbn r)

/-- A row of a pseudo-channel. -/
def rowKey (pc row : Nat) : Nat := 16 * row + pc

/-- A row in which four words were corrected within 60 s, or a word needed a second read, waits for repair (R532). -/
def noteRow (twice : Bool) (addr : Nat) (s : State) : State :=
  let row := rowKey (addr / 131072 % 16) (Config.rowOf addr)
  let l := s.sealer.fixedRows.filter (fun e => decide (s.time.clock < e.2 + 60000000000)) ++ (if twice then [] else [(row, s.time.clock)])
  let due := twice || decide ((l.filter (fun e => e.1 == row)).length ≥ 4)
  { s with sealer := { s.sealer with
    fixedRows := l
    dueRows := if due && !s.sealer.dueRows.contains row then s.sealer.dueRows ++ [row] else s.sealer.dueRows } }

/-- One word read: a correction and a second read are counted, and their row is noted (R524, R532, R543). -/
def countWord (x : Nat × LathWord × Option LathWord) (s : State) : State :=
  let s := if readTwice x.1 x.2.1 then noteRow true x.1 (event 8 1 (cntSlr 1 1 s)) else s
  if (readAt x.1 x.2.1 x.2.2).fixed then noteRow false x.1 (event 8 0 (cntSlr 0 1 s)) else s

/-- What an access reads is counted, a miss of the metadata cache among it (R522, R543). -/
def countRead (rid lbn : Nat) (whole : Bool) (r : SectorRead) (s : State) : State :=
  let s' := (wordsRead s rid lbn whole r).foldl (fun t x => countWord x t) s
  if missCount s rid lbn = 0 then s' else cntSlr 3 1 s'

/-- SEALER_ACCESS (R517, R522, R524 to R528): lines and nodes that the cache lacks are verified first; a read, and a partial
write, verify the sector too. -/
def execSealerAccess (rid lbn : Nat) (op : SealOp) (r : SectorRead) (s : State) : Host.Outcome State Fault Refusal :=
  .next <|
    if sealerRuns s rid lbn then
      match op with
      | .writeWhole p =>
        let t := countRead rid lbn true r s
        (match lineCheck s rid lbn r with
         | some k => sealFail k rid lbn (pcOf s rid lbn) t
         | none => sealWrite rid lbn (fit 512 p) t)
      | .read =>
        let t := countRead rid lbn false r s
        (match sealCheck s rid lbn r with
         | some k => sealFail k rid lbn (pcOf s rid lbn) t
         | none => emit (.sector rid lbn (sealRead s rid lbn r)) (touchPath rid lbn false false t))
      | .writePart off p =>
        let t := countRead rid lbn false r s
        (match sealCheck s rid lbn r with
         | some k => sealFail k rid lbn (pcOf s rid lbn) t
         | none =>
           let old := sealRead s rid lbn r
           sealWrite rid lbn (fit 512 (old.take off ++ p ++ old.drop (off + p.length))) t)
    else s

/-- The next sector of the old epoch from a position. -/
def walkNext (g : Region) (pos : Nat) : Option Nat :=
  ((g.sectors.filter (fun e => decide (e.1 ≥ pos) && e.2.ebit != (g.kepoch % 2 == 1))).map (·.1)).head?

/-- One step of a region's walk (R530): a sector is rewritten with generation 1. What HBM returns for it is no part of the
device: free octets, which its checks have passed (log 46). -/
def regionWalk (rid : Nat) (s : State) : State :=
  let g := regOf s rid
  match g.walk with
  | none => s
  | some pos =>
    match walkNext g pos with
    | none => event 8 5 (updReg rid (fun g => { g with walk := none }) s)
    | some lbn =>
      let (p, s) := freeOctets 512 s
      cntSlr 4 1 (updReg rid (fun g => { g with walk := some (lbn + 1) }) (putSector rid lbn 1 p (openWork 7 1 6 6 s)))

/-! Repair and retirement (R532 to R534). -/

/-- The history region gives up frames, and T_h falls to the largest whole ms that the rest holds (R170, R533). -/
def shrinkHistory (mib : Nat) (s : State) : State :=
  let s := { s with hawk := { s.hawk with region := s.hawk.region - mib } }
  let s := updReg 0 (fun g => { g with size := s.hawk.region }) s
  let fits (d : Nat) : Bool := decide (histReserved s d ≤ histRegion s)
  if fits s.hawk.depth then s
  else
    let d := (List.range s.hawk.depth).foldl (fun b d => if fits d then d else b) 0
    let s := { s with hawk := { s.hawk with depth := d, shrink := true } }
    event 6 7 { s with hawk := { s.hawk with recs := s.hawk.recs.map (fun r =>
      if r.posted.isSome then r
      else
        let room := histSlots s r.bp
        if r.last + 1 - r.first + 128 > room then
          { r with first := r.last + 129 - room, truncated := true, body := r.body.filter (fun b => decide (b.1 ≥ r.last + 129 - room)) }
        else r) } }

/-- Frames of a region or, as number 10, of the metadata area. -/
def framesOf (s : State) (rid : Nat) : Nat := if rid = 10 then metaSize s.sealer.stack / 2 else (regOf s rid).size / 2

/-- Frames on a pseudo-channel, part by part with history last: part and frame. -/
def framesOn (s : State) (pc : Nat) : List (Nat × Nat) :=
  ([1, 2, 3, 4, 5, 6, 7, 8, 9, 10, 0] : List Nat).flatMap (fun r =>
    ((List.range (framesOf s r)).filter (fun f => frameAt s r f % 16 == pc)).map (fun f => (r, f)))

/-- Physical spare frames outside a pseudo-channel: what the partition leaves of each of the others (R515, R533). -/
def spareFrames (s : State) (pc : Nat) : List Nat :=
  (List.range 16).flatMap (fun c => if c = pc then [] else
    let base := columnBase s.sealer.stack 11 c
    (List.range (256 * s.sealer.stack - base)).map (fun i => 16 * (base + i) + c))

/-- A frame moves. -/
def moveFrame (rid f p : Nat) (s : State) : State :=
  if rid = 10 then { s with sealer := { s.sealer with metaFrames := mset s.sealer.metaFrames f p } }
  else updReg rid (fun g => { g with frames := mset g.frames f p }) s

/-- The frames of a retired pseudo-channel move to spare frames (R509, R533). -/
def moveFrames (pc : Nat) (spares : List Nat) (s : State) : State :=
  ((framesOn s pc).zip spares).foldl (fun s e => moveFrame e.1.1 e.1.2 e.2 s) s

/-- A pseudo-channel is retired: its frames move to spare frames, and where these run out history gives up frames, whose
places serve as further spares (R170, R533); a second retirement halts the device (R534). -/
def retirePc (pc : Nat) (s : State) : State :=
  match s.sealer.retired with
  | some _ =>
    let (i, s) := fresh s
    sealFail 6 (Config.freeNat i % 16) (Config.freeNat i / 16) pc s
  | none =>
    let spares := spareFrames s pc
    let used := (framesOn s pc).length
    let short := used - spares.length
    let hist := framesOf s 0
    let freed := ((List.range short).map (fun i => frameAt s 0 (hist - short + i))).filter (fun p => p % 16 != pc)
    let s := { s with sealer := { s.sealer with
      retired := some pc, inserv := s.sealer.inserv &&& ~~~(BitVec.ofNat 16 (2 ^ pc)), spare := 2 * (spares.length - used) } }
    event 8 3 (moveFrames pc (spares ++ freed) (if short = 0 then s else shrinkHistory (2 * short) s))

/-- A row of a pseudo-channel waits for repair (R532). -/
def repairDue (s : State) (pc row : Nat) : Bool := s.sealer.dueRows.contains (rowKey pc row)

/-- ROW_REPAIR (R532, R533): of a row that waits for it, at most one repair in 10 ms; a bank without a spare row retires its
channel. -/
def execRowRepair (r : HbmRow) (spareRow : Bool) (s : State) : Host.Outcome State Fault Refusal :=
  .next <|
    let pc := r.pc
    if pc < 16 ∧ s.sealer.hbmOk ∧ ¬isStopped s ∧ (s.sealer.inserv.toNat / 2 ^ pc % 2 = 1) ∧ repairDue s pc r.row then
      let k := rowKey pc r.row
      let s' := { s with sealer := { s.sealer with
        dueRows := s.sealer.dueRows.filter (· != k), fixedRows := s.sealer.fixedRows.filter (fun e => e.1 != k) } }
      if !spareRow then retirePc pc s'
      else if s.sealer.ppcAt.all (fun t => decide (s.time.clock - t ≥ 10000000)) then
        event 8 2 (cntSlr 2 1 { s' with sealer := { s'.sealer with
          repairs := s.sealer.repairs ++ [k], ppcAt := some s.time.clock } })
      else s
    else s

end Sys2Proof.Machine
end

