-- ==== Sys2Proof/Machine/Volume.lean ====
section
/-! DEFINITION. Volume.lean: the archive volume (R535 to R542): sectors and tags, the transfer ring, record notices (R214),
and the vol. commands. What the host's storage returns for a sector is no part of the device: as it was written, or other
octets, by a free value; the tag decides (log 46). -/
namespace Sys2Proof.Machine

/-! Sectors (R536). -/

/-- The key of slot 0x000D, and the previous one while a walk holds it. -/
def volSlotKey (s : State) : List Byte := slotKey s 0xD
def recKey (s : State) (r : VolRec) : List Byte :=
  if r.keyFp = fingerprint (volSlotKey s) then volSlotKey s else s.sealer.vol.oldKey.getD []

def volXts (key : List Byte) (v : Nat) : List Byte := Config.kmac 11 key (text "xts" ++ leOctets 4 v) 64 []
def volMac (key : List Byte) (v t : Nat) : List Byte := Config.kmac 11 key (text "tag" ++ leOctets 4 v ++ leOctets 4 t) 48 []

/-- Ciphertext and plaintext of a 4 KiB sector, and its 128-bit tag. -/
def volCipher (key : List Byte) (v lba : Nat) (plain : List Byte) : List Byte :=
  fit 4096 (Config.cipher 5 false (volXts key v) (leOctets 16 lba) (fit 4096 plain))
def volPlain (key : List Byte) (v lba : Nat) (c : List Byte) : List Byte :=
  fit 4096 (Config.cipher 5 true (volXts key v) (leOctets 16 lba) (fit 4096 c))
def volTagOf (key : List Byte) (v t lba gen : Nat) (c : List Byte) : List Byte :=
  fit 16 (Config.volTag (volMac key v t) (c ++ leOctets 8 lba ++ leOctets 4 gen ++ leOctets 4 v)
    (leOctets 8 lba ++ leOctets 4 gen ++ leOctets 4 t))

/-- Sectors of a volume of n GiB, and of a record. -/
def volSectors (s : State) : Nat := s.sealer.vol.gib * 262144
def recSectors (r : VolRec) : Nat := r.nsec

/-- Octets of sector i of a record. -/
def recSector (r : VolRec) (i : Nat) : List Byte := octets r.octets (4096 * i) 4096

/-- The directory's record of a number. -/
def volRecOf (s : State) (n : Nat) : Option VolRec := s.sealer.vol.dir.find? (fun r => r.recNum == n)

/-- Changes a record of the directory. -/
def updVolRec (n : Nat) (g : VolRec → VolRec) (s : State) : State :=
  updVol (fun v => { v with dir := v.dir.map (fun r => if r.recNum = n then g r else r) }) s

/-! The transfer ring (R538). -/

/-- Outstanding requests: posted, and no vol.io has named them. -/
def outstanding (s : State) : List VolReq := s.sealer.vol.reqs.filter (fun r => !r.failed)

/-- A free place of 256 sectors in the staging buffer. -/
def stageFree (s : State) : Option Nat :=
  ((List.range s.sealer.vol.stageMib).map (fun i => s.sealer.vol.stageAddr + 1048576 * i)).find?
    (fun a => !s.sealer.vol.reqs.any (fun r => r.buf == a))

/-- A request can be posted: the ring and the staging buffer have room, and the device may write to host memory. -/
def canPost (s : State) : Bool :=
  decide ((outstanding s).length < 2 ^ s.sealer.vol.ringM) && (stageFree s).isSome && dmaOk s 0 && !isStopped s &&
  decide (s.sealer.vol.gib ≠ 0)

/-- Posts a request, as work of class ARCHIVE, a walk's as SEALER_BG (R385, R542); a WRITE's sectors are in staging before it (R538). Another device's travels to the gateway (R643). -/
def postReq (kind op nsec lba recNum tok : Nat) (data : List Byte) (s : State) : State :=
  let v := s.sealer.vol
  let n := 2 ^ v.ringM
  let buf := (stageFree s).getD 0
  let idx := v.posted % n
  let r : VolReq := { idx := idx, op := op, nsec := nsec, lba := lba, buf := buf, kind := kind, recNum := recNum
                      tok := tok, at_ := s.time.clock, failed := false }
  let s := openWork 9 nsec (if kind = 2 then 6 else 1) (if kind = 2 then 6 else 7) (updVol (fun v => { v with posted := v.posted + 1, reqs := v.reqs ++ [r] }) s)
  if s.sys.gateway then
    let s := if op = 1 then emit (.hostWrite 0 buf data) s else s
    let s := emit (.volReq idx op nsec lba buf (v.posted / n % 2 == 0)) s
    if v.vecEn then emit (.msix 0 v.vec) s else s
  else sendPacket 0 5 idx (leOctets 2 op ++ leOctets 2 nsec ++ leOctets 8 lba ++ leOctets 8 buf ++ data) s

/-- Ciphertext of n sectors of a record from its sector i. -/
def chunkCipher (s : State) (r : VolRec) (i n : Nat) : List Byte :=
  (List.range n).flatMap (fun k => volCipher (recKey s r) r.vepoch (r.lba + i + k) (recSector r (i + k)))

/-- The record as the walk writes it: under the current key and key epoch (R542). -/
def renewed (s : State) (r : VolRec) : VolRec :=
  { r with vepoch := s.sealer.vol.vepoch, keyFp := fingerprint (volSlotKey s) }

/-- Sectors of a transfer. -/
def jobTotal (s : State) (j : VolJob) : Nat :=
  if j.kind = 3 then volSectors s else ((volRecOf s j.recNum).map recSectors).getD 0

/-- A transfer can post its next request: a walk and a RECOVER pass have one outstanding at a time. -/
def jobReady (s : State) (j : VolJob) : Bool :=
  decide (j.next < jobTotal s j) && (decide (j.kind < 2) || !s.sealer.vol.reqs.any (fun r => r.kind == j.kind))

/-- Changes a transfer. -/
def updJob (kind recNum tok : Nat) (g : VolJob → VolJob) (s : State) : State :=
  updVol (fun v => { v with jobs := v.jobs.map (fun j =>
    if j.kind = kind ∧ j.recNum = recNum ∧ j.tok = tok then g j else j) }) s

/-- Posts the next request of a transfer: up to 256 sectors. -/
def postJob (j : VolJob) (s : State) : State :=
  let n := min 256 (jobTotal s j - j.next)
  let r := (volRecOf s j.recNum).getD default
  let lba := if j.kind = 3 then j.next else r.lba + j.next
  let s := if j.kind = 0 then postReq 0 1 n lba j.recNum j.tok (chunkCipher s r j.next n) s
           else postReq j.kind 2 n lba j.recNum j.tok [] s
  updJob j.kind j.recNum j.tok (fun j => { j with next := j.next + n }) s

/-- Posts what the ring and the staging buffer take, in the order of the transfers. -/
def pumpN : Nat → State → State
  | 0, s => s
  | k + 1, s =>
    if canPost s then
      match s.sealer.vol.jobs.find? (jobReady s) with
      | some j => pumpN k (postJob j s)
      | none => s
    else s
def pump (s : State) : State := pumpN 4096 s

/-! Generations and tags (R536, R537, R542). -/

/-- The volume moves to its next key epoch, and a walk follows. -/
def volEpochUp (s : State) : State :=
  event 8 4 (updVol (fun v => { v with vepoch := v.vepoch + 1, walk := some 0 }) s)

/-- The tag table takes the sectors of a WRITE that is reported done: their generation grows by one, and at its end the
volume moves to its next key epoch (R539, R542). -/
def tagSectors (r : VolRec) (i n : Nat) (s : State) : State :=
  (List.range n).foldl (fun s k =>
    let lba := r.lba + i + k
    let old := (mgetD s.sealer.vol.tags lba ([], 0)).2
    let s := if old = 0xFFFFFFFF ∧ s.sealer.vol.walk = none then volEpochUp s else s
    let gen := if old = 0xFFFFFFFF then 1 else old + 1
    let c := volCipher (recKey s r) r.vepoch lba (recSector r (i + k))
    updVol (fun v => { v with tags := mset v.tags lba (volTagOf (recKey s r) r.vepoch v.tepoch lba gen c, gen) }) s) s

/-! Record notices (R214). -/

/-- A record notice without its MAC: 48 octets. -/
def noticeHead (r : Rec) (nslots outcome volsec epoch : Nat) : List Byte :=
  leOctets 2 r.trig ++ [16, 0] ++ leOctets 4 0 ++ leOctets 8 r.num ++ leOctets 8 r.trigSlot ++ leOctets 4 nslots ++
  leOctets 4 outcome ++ leOctets 8 epoch ++ leOctets 8 volsec

/-- The notice goes to the event ring of every function that the trigger names; one of a sealed record is kept for rec.list. -/
def writeNotice (r : Rec) (outcome volsec : Nat) (s : State) : State :=
  let h := noticeHead r r.body.length outcome volsec s.sys.epoch
  let s := (trigOf s r.trig).fns.foldl (fun s f => writeEvent f h [] s) s
  if outcome = 2 then s else { s with hawk := { s.hawk with notices := s.hawk.notices ++ [h ++ List.replicate 16 0] } }

/-- A record leaves the open ones: sealed. -/
def recSealed (r : Rec) (volsec : Nat) (s : State) : State :=
  let s := cntHawk 8 1 { s with hawk := { s.hawk with recs := s.hawk.recs.filter (fun x => x.num != r.num) } }
  writeNotice r (b2n r.truncated) volsec s

/-- A record is dropped (R213, R214). -/
def recDropped (r : Rec) (s : State) : State :=
  let s := event 6 3 (cntHawk 9 1 { s with hawk := { s.hawk with recs := s.hawk.recs.filter (fun x => x.num != r.num) } })
  writeNotice r 2 (2 ^ 64 - 1) s

/-! Room for a record (R213, R537). -/

/-- The first free run of n sectors in volume order, among the places after each record and at the start. -/
def freeRun (s : State) (n : Nat) : Option Nat :=
  let dir := s.sealer.vol.dir
  let cand := 0 :: dir.map (fun r => r.lba + r.nsec)
  let ok (a : Nat) : Bool := decide (a + n ≤ volSectors s) && dir.all (fun r => decide (a + n ≤ r.lba ∨ r.lba + r.nsec ≤ a))
  (cand.filter ok).foldl (fun b a => match b with | some x => some (min x a) | none => some a) none

/-- The oldest record that is unlocked and in no transfer. -/
def oldestFree (s : State) : Option VolRec :=
  (s.sealer.vol.dir.filter (fun r => !r.locked && !s.sealer.vol.jobs.any (fun j => j.recNum == r.recNum && j.kind != 3))).foldl
    (fun o r => match o with | some x => if r.recNum < x.recNum then some r else o | none => some r) none

/-- Releases the oldest unlocked records until n sectors are free (R213). -/
def makeRoom : Nat → Nat → State → State × Option Nat
  | 0, _, s => (s, none)
  | k + 1, n, s =>
    match (if s.sealer.vol.dir.length < 262144 then freeRun s n else none) with
    | some a => (s, some a)
    | none =>
      match oldestFree s with
      | some r => makeRoom k n (updVol (fun v => { v with dir := v.dir.filter (fun x => x.recNum != r.recNum) }) s)
      | none => (s, none)

/-- A record of n sectors waits: what could make room for it is still in transfer (log 93). -/
def archiveWaits (n : Nat) (s : State) : Bool :=
  (makeRoom (s.sealer.vol.dir.length + 1) n s).2.isNone && s.sealer.vol.dir.any (fun r => !r.locked)

/-- A sealed record goes to the volume: directory entry and transfer (R213, R537, R539). -/
def archive (r : Rec) (content : List Byte) (s : State) : State :=
  let n := (content.length + 4095) / 4096
  match makeRoom (s.sealer.vol.dir.length + 1) n s with
  | (s, none) => recDropped r { s with hawk := { s.hawk with volFull := true } }
  | (s, some lba) =>
    let x : VolRec := { recNum := r.num, lba := lba, nsec := n, locked := false, vepoch := s.sealer.vol.vepoch
                        damaged := false, keyFp := fingerprint (volSlotKey s), octets := padTo 4096 content }
    let s := updVol (fun v => { v with
      dir := v.dir ++ [x], jobs := v.jobs ++ [{ kind := 0, recNum := r.num, tok := 0, next := 0, done := 0, bad := false, data := [] }]
      stored := v.stored.filter (fun y => decide (y.lba + y.nsec ≤ lba ∨ lba + n ≤ y.lba)) ++ [x] }) s
    let s := { s with hawk := { s.hawk with
      volFull := false, recs := s.hawk.recs.map (fun y => if y.num = r.num then { y with posted := some n } else y) } }
    pump s

/-! What a transfer does when vol.io reports its request (R539 to R542). -/

/-- Sectors as storage returns them: as written, or other octets. -/
def sectorsRead (s : State) (r : VolRec) (i n : Nat) : List Byte × State :=
  let s1 := { s with freeCtr := s.freeCtr + 1 }
  if Config.freeBool s.freeCtr then (chunkCipher s r i n, s1) else freeOctets (4096 * n) s1

/-- Every sector's tag verifies. -/
def tagsVerify (s : State) (r : VolRec) (i n : Nat) (data : List Byte) : Bool :=
  (List.range n).all (fun k =>
    let lba := r.lba + i + k
    let (t, g) := mgetD s.sealer.vol.tags lba ([], 0)
    volTagOf (recKey s r) r.vepoch s.sealer.vol.tepoch lba g (octets data (4096 * k) 4096) == t)

/-- A tag fails: the record is marked damaged (R540). -/
def volAuthFail (n : Nat) (s : State) : State := event 8 6 (cntSlr 8 1 (updVolRec n (fun r => { r with damaged := true }) s))

/-- A transfer has ended. -/
def dropJob (kind recNum tok : Nat) (s : State) : State :=
  updVol (fun v => { v with jobs := v.jobs.filter (fun j => !(j.kind == kind && j.recNum == recNum && j.tok == tok)) }) s

/-- A WRITE of a new record is done. -/
def writeDone (q : VolReq) (r : VolRec) (s : State) : State :=
  let s := cntSlr 6 q.nsec (tagSectors r (q.lba - r.lba) q.nsec s)
  let s := updJob 0 q.recNum 0 (fun j => { j with done := j.done + q.nsec }) s
  let s := { s with hawk := { s.hawk with recs := s.hawk.recs.map (fun (y : Rec) =>
    if y.num = q.recNum then { y with posted := y.posted.map (fun n => n - q.nsec) } else y) } }
  match s.hawk.recs.find? (fun y => y.num == q.recNum) with
  | some y => if y.posted = some 0 then recSealed y r.lba (dropJob 0 q.recNum 0 s) else s
  | none => s

/-- A READ of vol.read is done: the record is returned when every sector has verified (R540). -/
def readDone (q : VolReq) (r : VolRec) (fail : Bool) (s : State) : State :=
  let i := q.lba - r.lba
  let (data, s) := sectorsRead s r i q.nsec
  let good := !fail && tagsVerify s r i q.nsec data
  let plain := (List.range q.nsec).flatMap (fun k => volPlain (recKey s r) r.vepoch (q.lba + k) (octets data (4096 * k) 4096))
  let s := cntSlr 7 q.nsec s
  if !good then
    let s := if fail then s else volAuthFail r.recNum s
    afterOutcome q.tok (settle q.tok 0x0401 0 [] (dropJob 1 q.recNum q.tok s))
  else
    let s := updJob 1 q.recNum q.tok (fun j => { j with done := j.done + q.nsec, data := j.data ++ plain }) s
    match s.sealer.vol.jobs.find? (fun j => j.kind == 1 && j.recNum == q.recNum && j.tok == q.tok) with
    | some j =>
      if j.done ≥ r.nsec then
        afterOutcome q.tok (settle q.tok 0 (BitVec.ofNat 32 j.data.length) j.data (dropJob 1 q.recNum q.tok s))
      else s
    | none => s

/-- A request of the walk is done: what was read is written again under the new key and epoch, record by record (R542). -/
def walkDone (q : VolReq) (r : VolRec) (fail : Bool) (s : State) : State :=
  let i := q.lba - r.lba
  let step (n : Nat) (s : State) : State :=
    let s := updJob 2 q.recNum 0 (fun j => { j with done := j.done + n, next := j.done + n }) s
    match s.sealer.vol.jobs.find? (fun j => j.kind == 2 && j.recNum == q.recNum) with
    | some j =>
      if j.done ≥ r.nsec then
        let s := dropJob 2 q.recNum 0 s
        let new := renewed s r
        let s := if j.bad then updVolRec q.recNum (fun x => { x with vepoch := new.vepoch }) s
                 else updVolRec q.recNum (fun _ => { new with damaged := r.damaged }) s
        updVol (fun v => { v with walk := some q.recNum
                                  stored := v.stored.map (fun x => if x.recNum = q.recNum ∧ !j.bad then new else x) }) s
      else s
    | none => s
  if q.op = 2 then
    let (data, s) := sectorsRead s r i q.nsec
    let s := cntSlr 7 q.nsec s
    if fail || !tagsVerify s r i q.nsec data then
      step (r.nsec - i) (updJob 2 q.recNum 0 (fun j => { j with bad := true }) (if fail then s else volAuthFail r.recNum s))
    else postReq 2 1 q.nsec q.lba q.recNum 0 (chunkCipher s (renewed s r) i q.nsec) s
  else step q.nsec (cntSlr 4 q.nsec (cntSlr 6 q.nsec (tagSectors (renewed s r) i q.nsec s)))

/-- A record of storage is accepted by the RECOVER pass: it is as written, under the current key epoch or the previous one
and a key that the device holds, and no record of its number has been kept (R541). -/
def recoverable (s : State) (i : Nat) (r : VolRec) : Bool :=
  Config.freeBool (s.freeCtr + i) && (r.vepoch == s.sealer.vol.vepoch || r.vepoch + 1 == s.sealer.vol.vepoch) &&
  (r.keyFp == fingerprint (volSlotKey s) || s.sealer.vol.oldKey.any (fun k => r.keyFp == fingerprint k)) &&
  (volRecOf s r.recNum).isNone

/-- A READ of the RECOVER pass is done: the records that end in it are taken in volume order, with generation 1. -/
def recoverDone (q : VolReq) (fail : Bool) (s : State) : State :=
  let s := cntSlr 7 q.nsec s
  let cand := s.sealer.vol.stored.filter (fun r => decide (q.lba < r.lba + r.nsec ∧ r.lba + r.nsec ≤ q.lba + q.nsec) && !fail)
  let s := (List.range cand.length).foldl (fun s i =>
    let r := lget cand i default
    if recoverable s i r then
      tagSectors { r with damaged := false } 0 r.nsec (updVol (fun v => { v with dir := v.dir ++ [{ r with damaged := false }] }) s)
    else s) s
  let s := updJob 3 0 0 (fun j => { j with done := j.done + q.nsec }) { s with freeCtr := s.freeCtr + cand.length }
  if q.lba + q.nsec ≥ volSectors s then dropJob 3 0 0 (updVol (fun v => { v with recover := false }) s) else s

/-- The request of an index is reported. -/
def reqDone (q : VolReq) (fail : Bool) (s : State) : State :=
  if fail ∧ q.op = 1 then
    event 8 7 (updVol (fun v => { v with reqs := v.reqs.map (fun r => if r = q then { r with failed := true, at_ := s.time.clock } else r) }) s)
  else
    let s := updVol (fun v => { v with reqs := v.reqs.filter (fun r => r != q) }) s
    let s := updVol (fun v => { v with stall := v.stall && v.reqs.any (fun r => !r.failed && decide (s.time.clock - r.at_ > 1000000000)) }) s
    let s := if fail then event 8 7 s else s
    match s.sealer.vol.jobs.find? (fun j => j.kind == q.kind && j.recNum == q.recNum && j.tok == q.tok) with
    | none => pump s
    | some _ =>
      if q.kind = 3 then pump (recoverDone q fail s)
      else
        match volRecOf s q.recNum with
        | none => pump (dropJob q.kind q.recNum q.tok s)
        | some r =>
          if q.kind = 0 then pump (writeDone q r s)
          else if q.kind = 1 then pump (readDone q r fail s)
          else pump (walkDone q r fail s)

/-! Commands. -/

def volAttachRow : OpRow :=
  { opc := 0xA010, who := 0, ctx := 0, inp := false, out := false
    params := [0x7F0F03FF, 0x1FF, 0xFFFFFFFF, 0xFFFFFFFF, 0xFFFFFFFF, 0xFFFFFFFF, 1] }
def volAttachPre (c : Cmd) : Option Nat :=
  let g := bits (cw c 8) 9 0
  let m := bits (cw c 8) 19 16
  let st := bits (cw c 8) 30 24
  firstFail [(decide (g < 1 ∨ g > 512), 0x0106), (decide (m < 6 ∨ m > 12), 0x0106), (decide (st < 4 ∨ st > 64), 0x0106),
             (cw64 c 12 % 4096 != 0, 0x0106)]

/-- FORMAT (word 14 [0] = 0) or RECOVER (1) (R541, log 46); records whose sectors were not all written are sealed again. -/
def volAttachEff (c : Cmd) (s : State) : Eff :=
  let rc := bit (cw c 14) 0
  let s := updVol (fun v => { v with
    gib := bits (cw c 8) 9 0, ringM := bits (cw c 8) 19 16, ringAddr := cw64 c 10, stageMib := bits (cw c 8) 30 24
    stageAddr := cw64 c 12, vec := bits (cw c 9) 7 0, vecEn := bit (cw c 9) 8, posted := 0, reqs := [], dir := [], tags := []
    jobs := if rc then [{ kind := 3, recNum := 0, tok := 0, next := 0, done := 0, bad := false, data := [] }] else []
    recover := rc, stall := false, tepoch := v.tepoch + 1 }) s
  let s := { s with hawk := { s.hawk with
    volFull := false, recs := s.hawk.recs.map (fun r => { r with posted := none }) } }
  done (pump s)

/-- VOL_ATTACH (R535, R541). -/
def execVolAttach (c : Cmd) (s : State) : Host.Outcome State Fault Refusal := .next (runConfig noCheck volAttachEff c s)

/-- A volume is attached (R535). -/
def volAbsent (s : State) : Bool := s.sealer.vol.gib == 0

def volIoRow : OpRow := { opc := 0xA011, who := 0, ctx := 0, inp := false, out := false, params := [0xFFF, 1] }
def volIoReq (c : Cmd) (s : State) : Option VolReq := (outstanding s).find? (fun r => r.idx == (cw c 8).toNat)
def volIoCheck (c : Cmd) (s : State) : Option Nat :=
  firstFail [(volAbsent s, 0x0803), ((volIoReq c s).isNone, 0x0705)]
def volIoEff (c : Cmd) (s : State) : Eff :=
  match volIoReq c s with
  | some q => done (reqDone q (bit (cw c 9) 0) s)
  | none => done s

/-- VOL_IO (R539). -/
def execVolIo (c : Cmd) (s : State) : Host.Outcome State Fault Refusal := .next (runPlain volIoCheck volIoEff c s)

def volReadRow : OpRow := { opc := 0xA012, who := 0, ctx := 0, inp := false, out := true, params := [0xFFFFFFFF, 0xFFFFFFFF] }
def volReadCheck (c : Cmd) (s : State) : Option Nat :=
  match volRecOf s (cw64 c 8) with
  | none => if volAbsent s then some 0x0803 else some 0x0705
  | some r => firstFail
      [(volAbsent s, 0x0803), (s.sealer.vol.jobs.any (fun j => j.kind == 0 && j.recNum == r.recNum), 0x0705),
       (decide (cOutLen c < 4096 * r.nsec), 0x0106)]

/-- VOL_READ (R540): the outcome comes with the last of its READ requests. -/
def execVolRead (c : Cmd) (s : State) : Host.Outcome State Fault Refusal :=
  .next <|
    if runnable s c then
      match volReadCheck c s with
      | some st => settle c.tok st 0 [] s
      | none =>
        let s := updVol (fun v => { v with jobs := v.jobs ++
          [{ kind := 1, recNum := cw64 c 8, tok := c.tok, next := 0, done := 0, bad := false, data := [] }] }) s
        pump (startCmd c.tok s)
    else s

def volRekeyRow : OpRow := { opc := 0xA013, who := 0, ctx := 0, inp := true, out := false, params := [0, 0, 0, 0, 0, 0, 7] }
def volRekeyCheck (_ : Cmd) (s : State) : Option Nat :=
  firstFail [(volAbsent s, 0x0803), ((drawRefused s).isSome, (drawRefused s).getD 0)]

/-- The key of slot 0x000D as drawn: an enrolment source (R478). -/
def volKeySlot (s : State) (key : List Byte) : KSlot :=
  slotOf 0 4 0 1 64 s.keys.oepoch 0 (s.sys.epoch + 1) 0 [] key

def volRekeyEff (_ : Cmd) (s : State) : Eff :=
  let old := volSlotKey s
  let (key, s) := generate 0 70 64 s
  let s := { s with keys := { s.keys with slots := mset s.keys.slots 0xD (volKeySlot s key) } }
  done (volEpochUp (updVol (fun v => { v with oldKey := some old }) s))

/-- VOL_REKEY (R542): under quorum. -/
def execVolRekey (c : Cmd) (s : State) : Host.Outcome State Fault Refusal :=
  .next (withDraw 70 (runConfigBy (applyQuorum volRekeyCheck volRekeyEff)) c s)

/-- One step of the volume's walk (R542): the next record of the old epoch, or the end, where the old key is erased. -/
def volumeWalk (s : State) : State :=
  let v := s.sealer.vol
  match v.walk with
  | none => s
  | some _ =>
    if v.jobs.any (fun j => j.kind == 2) || volAbsent s || v.recover then s
    else
      match v.dir.find? (fun r => r.vepoch != v.vepoch) with
      | some r => pump (updVol (fun v => { v with jobs := v.jobs ++
          [{ kind := 2, recNum := r.recNum, tok := 0, next := 0, done := 0, bad := false, data := [] }] }) s)
      | none => event 8 5 (updVol (fun v => { v with walk := none, oldKey := none }) s)

/-- REKEY_WALK (R530, R542): one sector of region rid, or, for rid 10 and above, one record of the volume. -/
def execRekeyWalk (rid : Nat) (s : State) : Host.Outcome State Fault Refusal :=
  .next (if isStopped s || !s.sealer.hbmOk then s else if rid < 10 then regionWalk rid s else volumeWalk s)

/-- VOL_WRITE_REPOST (R539): a failed WRITE is posted again after a second. -/
def execVolWriteRepost (idx : Nat) (s : State) : Host.Outcome State Fault Refusal :=
  .next <|
    match s.sealer.vol.reqs.find? (fun r => r.failed && r.idx == idx) with
    | none => s
    | some q =>
      let s1 := updVol (fun v => { v with reqs := v.reqs.filter (fun r => r != q) }) s
      if decide (s.time.clock - q.at_ ≥ 1000000000) && canPost s1 then
        match volRecOf s q.recNum with
        | none => s1
        | some r =>
          let x := if q.kind = 2 then renewed s r else r
          postReq q.kind 1 q.nsec q.lba q.recNum q.tok (chunkCipher s x (q.lba - r.lba) q.nsec) s1
      else s

/-- VOL_STALL (R543): a request outstanding for over 1 s. -/
def execVolStall (idx : Nat) (s : State) : Host.Outcome State Fault Refusal :=
  .next <|
    if (outstanding s).any (fun r => r.idx == idx && decide (s.time.clock - r.at_ > 1000000000)) then
      updVol (fun v => { v with stall := true }) s
    else s

end Sys2Proof.Machine
end

