-- ==== Sys2Proof/Machine/Boot.lean ====
section
/-! DEFINITION. Boot.lean: START-UP (R559, R560, R594 to R598), security versions as images take effect (R600, R601),
and the rows that begin or continue START-UP: SYS_RESET_WRITE, PORST_N_DEASSERT, ADVANCE_RETRY, PAIR_LISTEN_END. A
START-UP is one step of the model but for the waits of R560 and R567 (log 49). -/
namespace Sys2Proof.Machine

/-- Configured response of a tamper source: 0 LOG, 1 RESET, 2 HALT, 3 ZEROIZE (R562). -/
def tmpResp (s : State) (i : Nat) : Nat := bits (lget s.tamper.srcs i default).cfg.val 1 0

/-- TAMPER_ALARM record (R621; places of its fields: log 47). -/
def tamperLog (src resp : Nat) (suppressed backup startup : Bool) (s : State) : State :=
  logEv 0x0120 7 [BitVec.ofNat 64 (src + 32 * mode s + 512 * resp + 2048 * b2n suppressed + 4096 * b2n backup +
    8192 * b2n startup)] s

/-- Changes the boot facts once Primer has dealt with them. -/
def updFacts (g : BootFacts → BootFacts) (s : State) : State := { s with fw := { s.fw with facts := g s.fw.facts } }

/-! Step 1: the VBAT-domain state word (R559, R622). -/

/-- The step that a backup alarm owes is blown. -/
def blowPending (s : State) : State :=
  match s.tamper.pending with
  | none => s
  | some src =>
    let w := pack [(src, 0), (mode s, 5), (1, 9), (1, 11), (1, 12)]
    measureLife { s with tamper := { s.tamper with
      steps := min 64 (s.tamper.steps + 1), lastz := w, pending := none, advBlocked := false } }

/-- Alarms that the VBAT domain recorded go to the log before anything else. -/
def logRecorded (s : State) : State :=
  let s' := s.tamper.recorded.foldl (fun s i => tamperLog i (tmpResp s i) false true false s) s
  { s' with tamper := { s'.tamper with recorded := [] } }

def vbatStep (s : State) : State :=
  if !s.fw.facts.vbatValid then
    let s := { s with
      tamper := { s.tamper with backupLost := true, sticky := setBit 0 18, pending := none, recorded := [], lastz := 0x1F }
      keys := { s.keys with bbkek := none, ksk := none } }
    let s := logEv 0x0121 7 [BitVec.ofNat 64 (tmpStatus s).toNat] s
    updFacts (fun b => { b with vbatValid := true }) s
  else
    let s := logRecorded { s with tamper := { s.tamper with backupLost := false } }
    if s.tamper.pending.isNone then s
    else if s.tamper.vauxOk then blowPending s
    else { s with tamper := { s.tamper with advBlocked := true } }

/-! Steps 3 and 4: derived slots and BBKEK (R487, R490). -/

/-- Slots 0x0000 to 0x0002 from DRK. -/
def deriveSlots (s : State) : State :=
  let e := s.sys.epoch
  let a := slotOf 4 0x4A 0 0 4896 s.keys.oepoch s.keys.ucount e 0 [] (fit 4896 identityKey)
  let b := slotOf 4 0x42 0 0 48 s.keys.oepoch s.keys.ucount e 0 [] (fit 48 spdmKey)
  let d := slotOf 6 0x4C 0 0 3168 s.keys.oepoch s.keys.ucount e 0 [] (fit 3168 kemKey)
  { s with keys := { s.keys with slots := mset (mset (mset s.keys.slots 0 a) 1 b) 2 d } }

/-- With a valid BBKEK the keys can be used, under the two keys derived here (R485); without one the owner slots are
overwritten. -/
def checkBbkek (s : State) : State :=
  let s := { s with keys := { s.keys with kik := some kikOf } }
  if s.keys.bbkek.isSome then { s with keys := { s.keys with keysOk := true, ksk := kskOf s } } else wipeOwnerSlots (eraseBbkek s)

/-! Steps 5 to 7: images and security versions (R596, R599 to R601). -/

/-- Fused security version of component c. -/
def fused (s : State) (c : Nat) : Nat := lget s.fw.svns c 0

/-- An image takes effect: its security version is blown, or recorded while VAUX is out of its limits (R601). -/
def blowSvn (c svn : Nat) (s : State) : State :=
  if svn ≤ fused s c then s
  else if s.tamper.vauxOk then measureLife { s with fw := { s.fw with svns := lupd s.fw.svns c (fun _ => svn) } }
  else { s with fw := { s.fw with defer_ := s.fw.defer_ ++ [(c, svn)] } }

/-- The image of the committed bank of component c, or of the other bank. -/
def bankImage (s : State) (c : Nat) (other : Bool) : Option FwImage :=
  let b := lget s.fw.banks c (none, none)
  if lget s.fw.committed c false != other then b.2 else b.1

/-- A bank's image passes every check, its security version included. -/
def bankPasses (s : State) (c : Nat) (other : Bool) : Bool :=
  match bankImage s c other with
  | some i => lget (if other then s.fw.facts.altOk else s.fw.facts.imgOk) c false && decide (i.svn ≥ fused s c)
  | none => false

/-- Image i of component c is measured and takes effect. -/
def takeImage (c : Nat) (i : FwImage) (s : State) : State := blowSvn c i.svn (measure c i.meas s)

/-- Component c from its committed bank, or from the other bank, which then becomes the committed one; none when neither
passes. -/
def bootComp (c : Nat) (s : State) : Option State :=
  if bankPasses s c false then some (takeImage c ((bankImage s c false).getD default) s)
  else if bankPasses s c true then
    some (takeImage c ((bankImage s c true).getD default)
      { s with fw := { s.fw with committed := lupd s.fw.committed c (fun b => !b) } })
  else none

/-- BOOT_PATCH and BOOT_IMAGE records: component, bank and status; which status is not stated (log 49). -/
def bootFailLog (type sev c : Nat) (s : State) : State :=
  let (i, s) := fresh s
  logEv type sev [BitVec.ofNat 64 (c + 256 * b2n (lget s.fw.committed c false) + 65536 * (Config.freeNat i % 65536))] s

/-- Step 5: without a patch, ROM Primer runs alone. -/
def bootPatch (s : State) : State := (bootComp 0 s).getD (bootFailLog 0x0022 3 0 s)

/-- Steps 6 and 7: components 1 to 7 in order; the state at the first that fails. -/
def bootImages : List Nat → State → Bool × State
  | [], s => (true, s)
  | c :: cs, s =>
    match bootComp c s with
    | some s => bootImages cs s
    | none => (false, bootFailLog 0x0023 5 c s)

/-! Step 9: HBM and the sealed regions (R507, R515, R516, R523, R597). -/

/-- Partition of a stack: sizes, spare frames, history region. -/
def layout (s : State) : State :=
  let k := s.fw.facts.stack
  let sizes := regionSizes k
  { s with
    sealer := { s.sealer with
      stack := k, fast := s.fw.facts.fastRate, spare := spareSize k
      regs := (List.range 10).map (fun i => { (default : Region) with size := lget sizes i 0 }) }
    hawk := { s.hawk with region := lget sizes 0 0 } }

/-- Pseudo-channels in service: all but the retired one. -/
def inService16 (s : State) : W16 :=
  match s.sealer.retired with
  | some p => ~~~(BitVec.ofNat 16 (2 ^ p))
  | none => 0xFFFF

/-- Trained HBM; the channel retired earlier stays retired, with its frames on spare ones. -/
def trained (s : State) : State :=
  { s with sealer := { s.sealer with
      hbmOk := true, stack := s.fw.facts.stack, fast := s.fw.facts.fastRate, inserv := inService16 s, repairs := [] } }

/-- At power-up the regions are initialised and the master key is drawn, or derived while the RNG is FAILED (R516, R523). -/
def powerUpHbm (s : State) : State :=
  let s := layout s
  let old := s.sealer.retired
  let s := match old with
    | some p => retirePc p (trained { s with sealer := { s.sealer with retired := none } })
    | none => trained s
  let (k, s) := if s.rng.failed then (fallbackOf (text "sealer") s, s) else freeOctets 32 s
  { s with sealer := { s.sealer with master := k } }

/-- What a sealed region's failed check loses (R597): every sealed region is initialised, and each ledger says so. -/
def sealedLost (s : State) : State :=
  let entry (f : Nat) : LEntry := { tag := 0xFFFFFFFF, status := 0x0503, queue := 0, tok := 0, epoch := s.sys.epoch
                                    result := 0, opc := 0, resetNo := (fnOf s f).resetNo }
  { s with
    journal := [], fns := (List.range 65).map (fun f => { fnOf s f with ledger := [entry f], unread := true })
    skim := { s.skim with ctx := [], gens := [], index := [], resident := [], dirty := [], kfLogged := [] }
    hawk := { s.hawk with hist := [], fixed := [], lastRx := [], substRun := [], srcf := [], recs := [], notices := [] }
    trowel := { s.trowel with progs := [], derived := [] }
    publ := default
    sealer := { s.sealer with
      regs := s.sealer.regs.map (fun r => { (default : Region) with size := r.size, frames := r.frames }), mdc := []
      vol := { s.sealer.vol with dir := [], tags := [] } } }

/-- After a device reset every region is checked: BOOT_SEALED for each that fails; the kind is not stated (log 49). -/
def checkRegions (s : State) : State :=
  if s.fw.facts.badRegions.isEmpty then s
  else
    let s := s.fw.facts.badRegions.foldl (fun s r =>
      let (i, s) := fresh s
      logEv 0x0024 5 [BitVec.ofNat 64 (r + 16 * (Config.freeNat i % 16))] s) s
    sealedLost s

/-- Channels that fail training and are not retired already. -/
def badTraining (s : State) : List Nat := (s.fw.facts.trainFail.filter (fun p => s.sealer.retired != some p)).eraseDups

/-- Step 9: none when HBM cannot be used. -/
def hbmStep (s : State) : Option State :=
  let bad := badTraining s
  if s.fw.facts.stack = 0 ∨ bad.length + b2n (!bad.isEmpty && s.sealer.retired.isSome) ≥ 2 then none
  else
    let s := if s.fw.facts.powerUp then powerUpHbm s else checkRegions (trained s)
    some (match bad with
      | p :: _ => retirePc p s
      | [] => s)

/-! Steps 10 and 11 (R488, R489, R601, R249). -/

/-- A slot whose tag fails: of slots 3 to 13 a single copy is rewritten from the other; any other is corrupt. -/
def badSlot (k : Nat) (s : State) : State :=
  let copies := (s.fw.facts.badCopies.filter (fun e => e.1 == k)).map (fun e => e.2 % 2)
  let both := copies.contains 0 && copies.contains 1
  if (mget s.keys.slots k).isNone || s.keys.corrupt.contains k then s
  else if 3 ≤ k ∧ k ≤ 13 ∧ both = false then
    logEv 0x0920 3 [BitVec.ofNat 64 (k + 65536 * copies.headD 0)] s
  else
    event 9 2 (cntKst 2 1 { s with keys := { s.keys with
      corrupt := s.keys.corrupt ++ [k], resvFault := s.keys.resvFault || decide (3 ≤ k ∧ k ≤ 13) } })

def keysStep (s : State) : State :=
  let s := ((s.fw.facts.badCopies.map (·.1)).eraseDups).foldl (fun s k => badSlot k s) s
  if s.tamper.vauxOk then
    let s' := s.fw.defer_.foldl (fun s e => blowSvn e.1 e.2 s) s
    { s' with fw := { s'.fw with defer_ := [] } }
  else s

def coresStep (s : State) : State :=
  let s := replan (s.fw.facts.badCores.foldl (fun s c => if c < 64 then retireCore c s else s) s)
  updFacts (fun b => { b with badRegions := [], badCopies := [], badCores := [] }) s

/-! Step 12 (R598, R13, R611). -/

/-- START-UP ends in mode m: the measurements of step 12, the mode, and the ports that the mode runs (R95); the epoch goes on
from its value (R26, R29, log 60). -/
def finishStart (m : Nat) (s : State) : State :=
  let s := measure 12 (Config.hash 5 (tamperImage s)) (measureOfficers (measureLife s))
  let s := { s with
    sys := { s.sys with startup := false }
    fw := { s.fw with exitSealed := false, released := false } }
  enablePorts (changeMode m s)

/-- Step 12 sets the provisioning lock with its decision of the mode (R13, R594). -/
def lockStart (s : State) : State := { s with sys := { s.sys with plock := true } }

/-- START-UP ends in HALTED (R594, R598). -/
def haltStart (s : State) : State :=
  let s := changeMode 5 (stopDevice s)
  { s with sys := { s.sys with startup := false } }

/-- The mode of R598, a pair's apart; 8 stands for the pair listen of R566. -/
def startMode (s : State) : Nat :=
  if !s.fw.factoryDone then 0
  else if s.tamper.steps ≥ 64 then 7
  else if s.fw.exitSealed || (s.keys.owned && s.keys.bbkek.isNone) || (mode s == 6 && !s.fw.released) then 6
  else if !s.keys.owned then 1
  else if s.pair.paired then 8
  else 2

/-- The decision, or the listen, during which START-UP goes on. -/
def decideStart (s : State) : State :=
  let m := startMode s
  if m = 8 then enablePorts { s with pair := { s.pair with listen := some s.time.clock, listenHb := false } }
  else finishStart m (lockStart s)

/-- Steps 2 to 12. -/
def startRest (s : State) : State :=
  if !s.fw.facts.otpOk then
    let (i, s) := fresh s
    haltStart (logEv 0x0021 5 [BitVec.ofNat 64 (Config.freeNat i)] s)
  else if s.tamper.steps ≥ 64 then finishStart (if s.fw.factoryDone then 7 else 0) (deriveSlots s)
  else
    match bootImages [1, 2, 3, 4, 5, 6, 7] (bootPatch (checkBbkek (deriveSlots s))) with
    | (false, s) => haltStart s
    | (true, s) =>
      match hbmStep (startValues s) with
      | none => haltStart s
      | some s =>
        let s := keysStep s
        if s.keys.resvFault then haltStart s else decideStart (coresStep s)

/-- START-UP (R594, R595): the boot count grows, the main-power monitors are armed (R546), and step 1 comes before
anything else; while its advance is blocked nothing else happens (R560). -/
def startUp (s : State) : State :=
  let s := vbatStep { s with
    sys := { s.sys with startup := true }, fw := { s.fw with boots := s.fw.boots + 1 }
    tamper := { s.tamper with armed := true } }
  if s.tamper.advBlocked then s else startRest s

/-- A device reset and the START-UP after it, which is no power-up (R339, R340). -/
def resetDevice (s : State) : State := startUp (updFacts (fun b => { b with powerUp := false }) (deviceReset (endedFirst s)))

/-! Rows. -/

/-- A write of SYS_RESET: the key starts a device reset; any other value sets RESET_REFUSED (R324, R339). -/
def writeReset (v : W32) (s : State) : State := if v = 0xA5C3 then resetDevice s else event 0 5 s

/-- SYS_RESET_WRITE (R324, R339). -/
def execSysResetWrite (v : W32) (s : State) : Host.Outcome State Fault Refusal := .next (barWrite 0 (writeReset v) s)

/-- PORST_N_DEASSERT (R546, R594): backup operation ends where VAUX is within its limits, and START-UP runs on what Primer
finds. After power-up everything outside MRAM, OTP and the VBAT domain is lost (R516). -/
def execPorstNDeassert (b : BootFacts) (s : State) : Host.Outcome State Fault Refusal :=
  .next <|
    if s.sys.held || s.fw.boots == 0 then
      let s := { s with
        sys := { s.sys with held := false }, tamper := { s.tamper with backup := !s.tamper.vauxOk } }
      let s := if b.powerUp then powerLoss s else s
      startUp (updFacts (fun _ => b) s)
    else s

/-- ADVANCE_RETRY (R560): once VAUX is within its limits the advance is blown and START-UP goes on. -/
def execAdvanceRetry (s : State) : Host.Outcome State Fault Refusal :=
  .next (if s.sys.startup && s.tamper.advBlocked && s.tamper.vauxOk && !s.sys.held then startRest (blowPending s) else s)

/-- The generation of a member that becomes active (R566, R580, R582). -/
def genUp (s : State) : State :=
  if s.pair.gen = 0xFFFFFFFF then { s with pair := { s.pair with genExh := true } }
  else { s with pair := { s.pair with gen := s.pair.gen + 1 } }

/-- PAIR_LISTEN_END (R566, R567, R582): after 64 slots, STANDBY where a heartbeat was accepted, else ACTIVE. -/
def execPairListenEnd (s : State) : Host.Outcome State Fault Refusal :=
  .next <|
    match s.pair.listen with
    | none => s
    | some t =>
      if slotsPast s t 64 then
        let hb := s.pair.listenHb
        let now := some s.time.clock
        let s := { s with pair := { s.pair with
          listen := none, listenHb := false, standby := hb, synced := false, hbSpanAt := now, hbBpAt := now, heardAt := now } }
        if hb then finishStart 3 (lockStart s) else finishStart 2 (lockStart (genUp s))
      else s

end Sys2Proof.Machine
end

