-- ==== Sys2Proof/Machine/Tamper.lean ====
section
/-! DEFINITION. Tamper.lean: the tamper controller (R544 to R562): filters, alarms, responses by mode, shadow checks,
backup operation, and the rows that detect, sample and check. A response is one step of the model, so RUNNING reads 0 and
no alarm meets a running response (log 10). -/
namespace Sys2Proof.Machine

/-- Filter of a source: N events within W ms (R545, R562). -/
def tmpN (s : State) (i : Nat) : Nat := bits (lget s.tamper.srcs i default).cfg.val 5 2
def tmpW (s : State) (i : Nat) : Nat := bits (lget s.tamper.srcs i default).cfg.val 21 6

/-- Sources 8, 9 and 11 to 15: main-power monitors (R546). -/
def mainMonitor (i : Nat) : Bool := [8, 9, 11, 12, 13, 14, 15].contains i

/-- Sources sampled in backup operation (R544, R558). -/
def backupSampled (i : Nat) : Bool := decide (i < 8) || i == 10 || i == 16 || i == 17

/-- The response that an alarm gets (R554): by mode and phase; 4 none, since HALTED is in force (R553), 5 steps 1 and 2 of
R551 only. -/
def respRun (s : State) (i : Nat) : Nat :=
  let r := tmpResp s i
  if s.sys.startup then r
  else match mode s with
    | 0 => if i = 14 then 2 else 0
    | 1 => if r = 3 then 5 else r
    | 5 => if r = 3 then 3 else 4
    | 6 => if r = 3 then 5 else if r = 1 then 1 else 0
    | 7 => if r = 3 then 5 else 0
    | _ => r

/-- Tamper resets of the last 10 s (R552). -/
def recentResets (s : State) : List Nat := s.tamper.resets.filter (fun t => decide (s.time.clock < t + 10000000000))

/-- HALT (R550, R554): in START-UP it ends START-UP. -/
def haltResponse (s : State) : State :=
  let s := event 1 2 s
  if s.sys.startup then haltStart s else enterHalted s

/-- RESET (R550), or HALT where it would be the fourth within 10 s (R552); that HALT runs as LOG in SEALED (R554). -/
def resetResponse (s : State) : State :=
  if (recentResets s).length ≥ 3 then
    let s := event 1 6 s
    if mode s = 6 ∧ ¬s.sys.startup then s else haltResponse s
  else
    let s := { s with tamper := { s.tamper with resets := recentResets s ++ [s.time.clock] } }
    resetDevice (event 1 3 s)

/-- The response r runs. -/
def runResponse (r i : Nat) (s : State) : State :=
  match r with
  | 1 => resetResponse s
  | 2 => haltResponse s
  | 3 => zeroize i (event 1 1 s)
  | 4 => event 1 4 s
  | 5 => zeroizeTwo i (event 1 1 s)
  | _ => s

/-- An alarm of source i (R550, R553, R555): counted, sticky, logged, and its response. -/
def tamperAlarm (i : Nat) (s : State) : State :=
  let r := respRun s i
  let s := updSrc i (fun x => { x with alarms := x.alarms + 1, events := [] }) s
  let s := event 1 0 { s with tamper := { s.tamper with sticky := setBit s.tamper.sticky i } }
  runResponse r i (tamperLog i (if r = 5 then 3 else if r = 4 then tmpResp s i else r) (r == 4) false s.sys.startup s)

/-- The events of source i within a window of w ns that ends now, this one included. -/
def windowEvents (s : State) (i w : Nat) : List Nat :=
  (lget s.tamper.srcs i default).events.filter (fun t => decide (s.time.clock ≤ t + w)) ++ [s.time.clock]

/-- One event of source i (R545, R546): main-power monitors only while armed, and none while the die is held in reset. -/
def tamperDetect (i : Nat) (s : State) : State :=
  if s.sys.held || (mainMonitor i && !s.tamper.armed) || decide (i ≥ 18) then s
  else
    let es := windowEvents s i (tmpW s i * 1000000)
    if es.length ≥ max 1 (tmpN s i) then tamperAlarm i s
    else updSrc i (fun x => { x with events := es }) s

/-! Shadow checks (R549). -/

/-- The two copies of a field are exact complements. -/
def Sh.good (x : Sh) : Bool := x.inv == ~~~x.val

/-- Evidence of a redundancy mismatch (R433, R459) and the end of output: engine 1 cipher, 2 SHA-2, 3 Keccak; 4 PKE, 5 PKE
by the check of R446; others leave no register. -/
def mismatchEvidence (engine lane cls owner : Nat) (s : State) : State :=
  if 1 ≤ engine ∧ engine ≤ 3 then
    event 11 3 { s with eng := { s.eng with
      stopped := true, mismatch := pack [(engine, 0), (lane % 32, 2), (cls % 16, 7), (owner % 128, 11), (1, 18)] } }
  else if engine = 4 ∨ engine = 5 then
    let alg := (lget s.pke.units (lane % 4) default).alg
    pkeEvent 3 { s with pke := { s.pke with
      stopped := true
      mismatch := pack [(lane % 4, 0), (alg % 256, 2), (cls % 16, 10), (owner % 128, 14), (b2n (engine == 5), 21), (1, 22)] } }
  else s

/-- TAMPER_EVENT (R432, R544, R545): a monitor detects its source's condition for a moment (log 47). -/
def execTamperEvent (src engine lane cls owner : Nat) (s : State) : Host.Outcome State Fault Refusal :=
  .next <|
    if s.sys.held || (mainMonitor src && !s.tamper.armed) || decide (src ≥ 18) then s
    else tamperDetect src (if src = 14 then mismatchEvidence engine lane cls owner s else s)

/-- HEALTH_WINDOW_END (R460 to R463, R469, R472 to R476): `raw` holds the window's 4,096 raw bits, which the two health tests
judge. Of a window that is conditioned, the two halves of the RNG's core make one block each, with the errors given; where they
differ, the block is withheld and the redundancy-mismatch source has an event (R462). -/
def execHealthWindowEnd (i : Nat) (error0 error1 raw : List Byte) (s : State) : Host.Outcome State Fault Refusal :=
  .next <|
    let x := lget s.rng.srcs i default
    if s.rng.failed ∨ x.st = 3 ∨ i ≥ 4 ∨ s.sys.held then s
    else
      let octs := windowRaw x raw s
      if condHalf octs error0 = condHalf octs error1 then healthWindow i octs (some (condHalf octs error0)) s
      else
        let t := healthWindow i octs none s
        if x.st = 1 ∧ windowFail x octs = 0 then tamperDetect 14 t else t

/-- SCRIM_CHECK (R547): die nets 0 to 3 and package loops 4 and 5, checked under main power. -/
def execScrimCheck (net : Nat) (sent got : W32) (short : Bool) (s : State) : Host.Outcome State Fault Refusal :=
  .next <|
    if net < 6 ∧ ¬s.sys.held ∧ ¬s.tamper.backup then
      let bad := short || sent != got
      let s := updSrc net (fun x => { x with cond := bad }) s
      if bad then tamperDetect net s else s
    else s

/-! Backup operation (R546, R558). -/

/-- A trip in backup operation: ZEROIZE erases BBKEK and records the step owed; every trip sets its flag and is recorded. -/
def backupTrip (i : Nat) (s : State) : State :=
  let owed := s.keys.bbkek.isSome
  let s := if tmpResp s i = 3 then eraseBbkek s else s
  let s := updSrc i (fun x => { x with events := [] }) s
  { s with tamper := { s.tamper with
    sticky := setBit s.tamper.sticky i, recorded := s.tamper.recorded ++ [i]
    pending := if tmpResp s i = 3 && owed then some i else s.tamper.pending } }

/-- One sample of source i in backup operation. -/
def backupOne (ev : BitVec 18) (i : Nat) (s : State) : State :=
  if !backupSampled i then s
  else
    let on := ev.getLsbD i
    let s := updSrc i (fun x => { x with cond := on }) s
    if on then
      let w := max (tmpW s i) (tmpN s i * s.tamper.bperiod.val.toNat) * 1000000
      let es := windowEvents s i w
      if es.length ≥ max 1 (tmpN s i) then backupTrip i s else updSrc i (fun x => { x with events := es }) s
    else s

/-- BACKUP_SAMPLE (R558). -/
def execBackupSample (ev : BitVec 18) (s : State) : Host.Outcome State Fault Refusal :=
  .next (if s.tamper.backup then (List.range 18).foldl (fun s i => backupOne ev i s) s else s)

/-- The die outside the VBAT domain is held in reset, and backup operation begins (R339, R546, R558). -/
def holdDie (s : State) : State :=
  if s.sys.held then s
  else
    let s := deviceReset (endedFirst s)
    { s with sys := { s.sys with held := true }, tamper := { s.tamper with armed := false, backup := true, advBlocked := false } }

/-- PORST_N_ASSERT (R339, R546, R558). -/
def execPorstNAssert (s : State) : Host.Outcome State Fault Refusal := .next (holdDie s)

/-- RAIL_UNDERVOLTAGE (R658, R660): as if PORST_N were asserted. -/
def execRailUndervoltage (s : State) : Host.Outcome State Fault Refusal := .next (holdDie s)

/-- VAUX_LOW (R558, R650): backup operation on VBAT. -/
def execVauxLow (s : State) : Host.Outcome State Fault Refusal :=
  .next { s with tamper := { s.tamper with vauxOk := false, backup := true, onVbat := true } }

/-- VAUX_WITHIN_LIMITS (R558): the VBAT domain draws on VAUX; backup operation goes on while PORST_N is asserted. -/
def execVauxWithinLimits (s : State) : Host.Outcome State Fault Refusal :=
  .next { s with tamper := { s.tamper with vauxOk := true, onVbat := false, backup := s.sys.held } }

/-- JTAG_ACCESS (R591, R663): outside FACTORY no instruction reaches the die. In FACTORY the factory test blows the fuse;
what any other instruction does is not stated. -/
def execJtagAccess (op : JtagOp) (s : State) : Host.Outcome State Fault Refusal :=
  if mode s = 0 then
    match op with
    | .blowFactoryDone => .next (measureLife { s with fw := { s.fw with factoryDone := true } })
    | .other => .refused .jtagInstruction
  else .next s

/-! svc.tamper (R561) and svc.flagclear (R555). -/

def svcTamperRow : OpRow := { opc := 0xD005, who := 0, ctx := 0, inp := true, out := false, params := [0, 0, 0, 0, 0, 0, 7] }

/-- Weakest response of each source (R544). -/
def lowestResp : List Nat := [2, 2, 2, 2, 2, 2, 0, 0, 1, 1, 0, 1, 2, 2, 2, 2, 0, 2]

/-- A source's configuration is acceptable. -/
def tmpCfgOk (i : Nat) (w : W32) : Bool :=
  decide (1 ≤ bits w 5 2) && decide (1 ≤ bits w 21 6) && bits w 31 22 == 0 && decide (lget lowestResp i 0 ≤ bits w 1 0) &&
  ((i != 14 && i != 15) || (bits w 5 2 == 1 && bits w 21 6 == 1))

def svcTamperCheck (c : Cmd) (_ : State) : Option Nat :=
  let l := opData c
  let w := word32 l 0
  firstFail [(l.length != 76 || bits w 7 0 != 1 || bits w 15 8 != 18 || decide (bits w 26 16 < 16) ||
    decide (bits w 26 16 > 1024) || bits w 31 27 != 0 || (List.range 18).any (fun i => !tmpCfgOk i (word32 l (4 + 4 * i))), 0x0102)]

def svcTamperEff (c : Cmd) (s : State) : Eff :=
  let l := opData c
  let s := { s with tamper := { s.tamper with
    bperiod := Sh.of (BitVec.ofNat 32 (bits (word32 l 0) 26 16))
    srcs := (List.range 18).map (fun i =>
      let x := lget s.tamper.srcs i default
      { x with cfg := Sh.of (word32 l (4 + 4 * i)), events := [] }) } }
  done (event 1 5 (measure 12 (Config.hash 5 l) s))

/-- A change by command compares the copies of the tamper configuration (R549). -/
def tamperShadow (s : State) : State :=
  if s.tamper.bperiod.good && s.tamper.srcs.all (fun x => x.cfg.good) then s else tamperDetect 15 s

/-- Takes effect, unless the comparison has stopped the device. -/
def applyTamper (c : Cmd) (s : State) : State :=
  let s := tamperShadow s
  if modeOk s c then applyQuorum svcTamperCheck svcTamperEff c s else s

/-- SVC_TAMPER (R561). -/
def execSvcTamper (c : Cmd) (s : State) : Host.Outcome State Fault Refusal := .next (runConfigBy applyTamper c s)

def svcFlagclearRow : OpRow := { opc := 0xD006, who := 0, ctx := 0, inp := false, out := false, params := [0x7FFFF, 1] }

/-- Flags cleared by mask, and set again where the source is still in alarm condition; the VALID bits on request. -/
def svcFlagclearEff (c : Cmd) (s : State) : Eff :=
  let mask := cw c 8 &&& 0x7FFFF
  let still := pack ((List.range 18).map (fun i => (b2n (lget s.tamper.srcs i default).cond, i)))
  let s := { s with tamper := { s.tamper with sticky := (s.tamper.sticky &&& ~~~mask) ||| (still &&& mask) } }
  done (if bit (cw c 9) 0 then
      { s with
        tamper := { s.tamper with lastz := s.tamper.lastz &&& ~~~(0x1000 : W32) }
        eng := { s.eng with mismatch := s.eng.mismatch &&& ~~~(0x40000 : W32) }
        pke := { s.pke with mismatch := s.pke.mismatch &&& ~~~(0x400000 : W32) }
        sealer := { s.sealer with fail := s.sealer.fail &&& ~~~(0x1000 : W32) } }
    else s)

/-- SVC_FLAGCLEAR (R555). -/
def execSvcFlagclear (c : Cmd) (s : State) : Host.Outcome State Fault Refusal := .next (runPlain noCheck svcFlagclearEff c s)

end Sys2Proof.Machine
end

