-- ==== Sys2Proof/Machine/Svc.lean ====
section
/-! DEFINITION. Svc.lean: the svc. commands besides tamper (R497 to R505, R593), attestation (R612), firmware images and
how they take effect (R600 to R610), and commands that change other shadowed fields (R549). -/
namespace Sys2Proof.Machine

/-! svc.enter and svc.exit (R502, R591, R593). -/

def svcEnterRow : OpRow := { opc := 0xD001, who := 0, ctx := 0, inp := true, out := false, params := [0, 0, 0, 0, 0, 0, 7] }

/-- Both copies of the mode are compared (R549). -/
def modeShadow (s : State) : State := if s.sys.mode.good then s else tamperDetect 15 s

def svcEnterEff (_ : Cmd) (s : State) : Eff := done (changeMode 4 s)

/-- Takes effect, unless the comparison has stopped the device. -/
def applyEnter (c : Cmd) (s : State) : State :=
  let s := modeShadow s
  if modeOk s c then applyQuorum noCheck svcEnterEff c s else s

/-- SVC_ENTER (R502). -/
def execSvcEnter (c : Cmd) (s : State) : Host.Outcome State Fault Refusal := .next (runConfigBy applyEnter c s)

/-- svc.exit: word 8 [3:0] the target mode. -/
def svcExitRow : OpRow := { opc := 0xD002, who := 0, ctx := 0, inp := false, out := false, params := [0xF] }
def svcExitPre (c : Cmd) : Option Nat := firstFail [((cw c 8).toNat != 2 && (cw c 8).toNat != 6, 0x0106)]

/-- Toward SEALED the keys are erased at once; the device reset follows the completion (R490, R593). -/
def svcExitEff (c : Cmd) (s : State) : Eff :=
  if (cw c 8).toNat = 6 then
    let s := wipeOwnerSlots (eraseBbkek s)
    done { s with fw := { s.fw with exitSealed := true } }
  else done s

/-- SVC_EXIT (R593). -/
def execSvcExit (c : Cmd) (s : State) : Host.Outcome State Fault Refusal := .next (runConfig noCheck svcExitEff c s)

/-! svc.enrol, svc.officer and svc.release (R498, R499, R502). -/

/-- Quorum size and officer count of word 8. -/
def offQuorum (c : Cmd) : Nat := bits (cw c 8) 2 0
def offCount (c : Cmd) : Nat := bits (cw c 8) 7 4

/-- Quorum from 2 to 4 of 1 to 8 officers (log 50). -/
def officersPre (c : Cmd) : List (Bool × Nat) :=
  [(decide (offQuorum c < 2) || decide (offQuorum c > 4), 0x0106), (decide (offCount c < 1) || decide (offCount c > 8), 0x0106),
   (decide (offCount c < offQuorum c), 0x0106)]

/-- An officer is registered (R499). -/
def officersThere (s : State) : Bool := (List.range 8).any (fun i => (mget s.keys.slots (5 + i)).isSome)

/-- Officer keys and quorum size, from their octets in officer order. -/
def setOfficers (c : Cmd) (l : List Byte) (s : State) : State :=
  let one (i : Nat) : KSlot := slotOf 5 0x4A 0 1 2592 s.keys.oepoch 0 (s.sys.epoch + 1) 0 [] (octets l (2592 * i) 2592)
  let slots := (List.range 8).foldl (fun m i => if i < offCount c then mset m (5 + i) (one i) else mdel m (5 + i)) s.keys.slots
  { s with keys := { s.keys with
    slots := slots, quorum := offQuorum c, corrupt := s.keys.corrupt.filter (fun k => !decide (5 ≤ k ∧ k ≤ 12)) } }

def svcEnrolRow : OpRow := { opc := 0xD007, who := 0, ctx := 0, inp := true, out := false, params := [0xF7, 0, 0, 0, 0, 0, 7] }
def svcEnrolPre (c : Cmd) (s : State) : Option Nat :=
  firstFail (officersPre c ++
    [(officersThere s && (tokenCount c == 0 || decide (tokenCount c > 4)), 0x0106), (!officersThere s && tokenCount c != 0, 0x0106),
     (cLen c != 2592 * (1 + offCount c) + 4883 * tokenCount c, 0x0106)])

/-- With all 64 owner epochs used no owner can be enrolled (R498). -/
def svcEnrolCheck (_ : Cmd) (s : State) : Option Nat :=
  firstFail [(decide (s.keys.oepoch ≥ 64), 0x0305), ((drawRefused s).isSome, (drawRefused s).getD 0)]

def svcEnrolEff (c : Cmd) (s : State) : Eff :=
  let l := opData c
  let (kek, s) := generate 0 70 32 s
  let (rec, s) := generateKey 0x4A 4896 s
  let (vol, s) := generate 0 70 64 s
  let e := s.sys.epoch + 1
  let s := { s with keys := { s.keys with bbkek := some kek, keysOk := true, owned := true } }
  let s := { s with keys := { s.keys with ksk := kskOf s } }
  let auth := slotOf 5 0x4A 0 1 2592 s.keys.oepoch 0 e 0 [] (octets l 0 2592)
  let rk := slotOf 4 0x4A 0 1 4896 s.keys.oepoch 0 e 0 [] rec
  let s := { s with keys := { s.keys with
    slots := mset (mset (mset s.keys.slots 3 rk) 4 auth) 0xD (volKeySlot s vol)
    corrupt := s.keys.corrupt.filter (fun k => !decide (3 ≤ k ∧ k ≤ 13)) } }
  done (measureOfficers (setOfficers c (l.drop 2592) s))

/-- An enrolment takes effect, under a quorum once officers are registered. -/
def applyEnrol (c : Cmd) (s : State) : State :=
  if officersThere s then applyQuorum svcEnrolCheck svcEnrolEff c s else applyConfig svcEnrolCheck svcEnrolEff c s

/-- SVC_ENROL (R499): the device reset follows the completion (R593). -/
def execSvcEnrol (c : Cmd) (s : State) : Host.Outcome State Fault Refusal := .next (withDraw 70 (runConfigBy applyEnrol) c s)

def svcOfficerRow : OpRow := { opc := 0xD004, who := 0, ctx := 0, inp := true, out := false, params := [0xF7, 0, 0, 0, 0, 0, 7] }
def svcOfficerPre (c : Cmd) : Option Nat :=
  firstFail (officersPre c ++ [((quorumPre c).isSome, (quorumPre c).getD 0), (cLen c != 2592 * offCount c + 4883 * tokenCount c, 0x0106)])
def svcOfficerEff (c : Cmd) (s : State) : Eff := done (measureOfficers (setOfficers c (opData c) s))

/-- SVC_OFFICER (R502). -/
def execSvcOfficer (c : Cmd) (s : State) : Host.Outcome State Fault Refusal :=
  .next (runConfigBy (applyQuorum noCheck svcOfficerEff) c s)

def svcReleaseRow : OpRow := { opc := 0xD008, who := 0, ctx := 0, inp := true, out := false, params := [0, 0, 0, 0, 0, 0, 7] }
def svcReleaseCheck (_ : Cmd) (s : State) : Option Nat := firstFail [(decide (s.keys.oepoch ≥ 64), 0x0305)]
def svcReleaseEff (_ : Cmd) (s : State) : Eff :=
  done (measureLife { s with
    keys := { s.keys with oepoch := s.keys.oepoch + 1, ucount := 0, owned := false }
    trowel := { s.trowel with pvers := [] }, fw := { s.fw with released := true } })

/-- SVC_RELEASE (R498): the device reset follows the completion (R593). -/
def execSvcRelease (c : Cmd) (s : State) : Host.Outcome State Fault Refusal :=
  .next (runConfigBy (applyQuorum svcReleaseCheck svcReleaseEff) c s)

/-! svc.attest (R612). -/

/-- Octets 0x000 to 0x03F of the evidence. -/
def evidenceHead (s : State) : List Byte :=
  [0x56, 0x4B, 0x41, 0x54] ++
  w32le (pack [(1, 0), (mode s, 8), (b2n s.pair.paired, 12), (b2n s.pair.standby, 13), (b2n s.rng.fallback, 14), (b2n s.rng.failed, 15)]) ++
  w32le (pack [(s.keys.oepoch, 0), (s.tamper.steps, 8)]) ++ w32le (s.tamper.sticky &&& 0x7FFFF) ++
  fit 8 (s.fw.svns.map (BitVec.ofNat 8)) ++ leOctets 8 s.sys.epoch ++ leOctets 8 s.fw.boots ++ leOctets 4 (fwVersion s 1) ++
  leOctets 4 (if s.pair.paired then s.pair.gen else 0) ++ List.replicate 16 0

/-- Octets 0x000 to 0xF1F, over a nonce. -/
def evidence (nonce : List Byte) (s : State) : List Byte :=
  let rec_ := match mget s.keys.slots 3 with
    | some x => fit 2592 (Config.pkePublic 0x0B x.payload)
    | none => List.replicate 2592 0
  fit 0x80 (fit 0x40 (evidenceHead s) ++ fit 32 nonce) ++ fit 0x80 devId ++
  (List.range 16).flatMap (fun i => fit 64 (lget s.fw.meas i [])) ++ rec_

/-- svc.attest: words 8 to 15 the nonce; word 15 is OUTLEN as well (log 48). -/
def svcAttestRow : OpRow :=
  { opc := 0xD009, who := 3, ctx := 0, inp := false, out := true
    params := [0xFFFFFFFF, 0xFFFFFFFF, 0xFFFFFFFF, 0xFFFFFFFF, 0xFFFFFFFF, 0xFFFFFFFF, 0xFFFFFFFF] }
def svcAttestPre (c : Cmd) : Option Nat := firstFail [(decide (cOutLen c < 8499), 0x0106)]
def attestNonce (c : Cmd) : List Byte := (List.range 8).flatMap (fun i => w32le (cw c (8 + i)))

/-- SVC_ATTEST (R612, R448): a RETRY is met by another attempt. -/
def execSvcAttest (c : Cmd) (s : State) : Host.Outcome State Fault Refusal :=
  .next <|
    if runnable s c && signerReady s then
      let ev := evidence (attestNonce c) s
      match internalSign 0x74 c.fn "attest" identityKey (text "VK9612 attest") ev s with
      | (some g, s) =>
        let cert := Config.certificate 0
        let o := ev ++ g ++ (if 8499 + cert.length ≤ cOutLen c then cert else [])
        settle c.tok 0 (BitVec.ofNat 32 o.length) o s
      | (none, s) => s
    else s

/-! svc.fwload (R600 to R610). -/

/-- Type of a load (R603). -/
def fwType (c : Cmd) : Nat := bits (cw c 8) 7 0

def svcFwloadRow : OpRow := { opc := 0xD00A, who := 0, ctx := 0, inp := true, out := false, params := [0xFF] }
def svcFwloadPre (c : Cmd) : Option Nat :=
  firstFail [(decide (fwType c > 7) && fwType c != 0x20 && fwType c != 0x21 && fwType c != 0x22, 0x0106)]

/-- Largest body of each component in octets (R599). -/
def bodyLimit (comp : Nat) : Nat := 1024 * lget [256, 4096, 1024, 512, 512, 512, 512, 512] comp 16384

/-- R604 step 1. -/
def fwFormatBad (c : Cmd) : Bool :=
  let l := c.input
  let len := field l 0x10 4
  octets l 0 4 != [0x56, 0x4B, 0x46, 0x57] || field l 4 1 != 1 || field l 5 1 != fwType c || len % 16 != 0 ||
  decide (len > bodyLimit (fwType c)) || cLen c != 256 + len + 4627 || decide (field l 0xC 1 % 128 > 64)

/-- R604 step 2. -/
def fwAuthBad (c : Cmd) : Bool :=
  let l := c.input
  let n := 256 + field l 0x10 4
  let sig := octets l n 4627
  fit 64 (Config.hash 5 ((l.take n).drop 256)) != octets l 0x18 64 || !Config.pkeValid 0x0B Config.firmwareKey sig ||
  !Config.pkeVerify 0x0B Config.firmwareKey (text "VK9612 firmware") (Config.hash 5 (l.take n)) sig

/-- A well-formed image's hash and signature are work of PF0's leaves (R604). -/
def fwWork (c : Cmd) (s : State) : State := if fwFormatBad c then s else imageWork 0x70 0 (field c.input 0x10 4) s

/-- The image as a bank holds it. -/
def fwImage (c : Cmd) : FwImage :=
  { comp := fwType c, fwver := field c.input 8 4, svn := field c.input 0xC 1 % 128, proto := field c.input 0xE 2
    meas := fit 64 (Config.hash 5 (c.input.take (256 + field c.input 0x10 4))) }

/-- R604; whether an image passes its own start check is left free (log 2). -/
def fwloadCheck (c : Cmd) (s : State) : Option Nat :=
  firstFail
    [(fwFormatBad c, 0x0102), (fwAuthBad c, 0x0401), (decide ((fwImage c).svn < fused s (fwType c)), 0x0103),
     (decide (fwType c ≠ 0) && !Config.freeBool s.freeCtr, 0x0102)]

/-- The image goes into the bank that is not committed (R605). -/
def writeBank (i : FwImage) (s : State) : State :=
  let b := lget s.fw.committed i.comp false
  { s with fw := { s.fw with banks := lupd s.fw.banks i.comp (fun x => if b then (some i, x.2) else (x.1, some i)) } }

/-- The bank that was written becomes the committed one. -/
def commitBank (comp : Nat) (s : State) : State :=
  { s with fw := { s.fw with committed := lupd s.fw.committed comp (fun b => !b) } }

/-- An image of component 0 or 2 to 7 is in its bank: component 0 is committed, the others wait for their switch. -/
def fwloadEff (c : Cmd) (s : State) : Eff :=
  let i := fwImage c
  let s := writeBank i { s with freeCtr := s.freeCtr + 1 }
  done (if i.comp = 0 then commitBank 0 s
    else { s with fw := { s.fw with shadow := s.fw.shadow.filter (fun e => e.2.comp != i.comp) ++ [(c.tok, i)] } })

/-- A firmware image or a trim takes effect, or is refused, once it is verified (R604). -/
def fwVerified (check : Cmd → State → Option Nat) (eff : Cmd → State → Eff) (c : Cmd) (s : State) : State :=
  applyConfig check eff c (fwWork c s)

/-- A control-firmware image is in its bank and waits for the swap (R606). -/
def fwloadPutty (c : Cmd) (s : State) : State :=
  let s := fwWork c s
  match fwloadCheck c s with
  | some st => settle c.tok st 0 [] { s with freeCtr := s.freeCtr + 1 }
  | none =>
    let s := startCmd c.tok (writeBank (fwImage c) { s with freeCtr := s.freeCtr + 1 })
    { s with fw := { s.fw with putty := some (c.tok, fwImage c) } }

/-- SVC_FWLOAD_IMAGE (R604 to R609). -/
def execSvcFwloadImage (c : Cmd) (s : State) : Host.Outcome State Fault Refusal :=
  .next <|
    if fwType c = 1 then (if runnable s c && configTurn s c then fwloadPutty c s else s)
    else if fwType c < 8 then runConfigBy (fwVerified fwloadCheck fwloadEff) c s
    else s

/-- PUTTY_SWAP (R606, R608): the incoming pair takes over, and the change falls at that instant; the 30 µs of the hand-over
are one step (log 10). -/
def execPuttySwap (s : State) : Host.Outcome State Fault Refusal :=
  .next <|
    match s.fw.putty with
    | none => s
    | some (tok, i) =>
      if (jent s tok).any (fun j => j.outcome.isNone) then
        if atSlotStart s && s.hawk.closing.isEmpty && s.deferred.isEmpty && inService s then
          let s := takeImage 1 i (commitBank 1 { s with fw := { s.fw with putty := none } })
          settle tok 0 0 [] (bumpMirrored s)
        else s
      else { s with fw := { s.fw with putty := none } }

/-- SHADOW_SWITCH (R601, R605, R609): the bank is committed as the component takes effect. -/
def execShadowSwitch (comp : Nat) (s : State) : Host.Outcome State Fault Refusal :=
  .next <|
    match s.fw.shadow.find? (fun e => e.2.comp == comp) with
    | none => s
    | some (_, i) =>
      if atSlotStart s && inService s then
        takeImage comp i (commitBank comp { s with fw := { s.fw with shadow := s.fw.shadow.filter (fun e => e.2.comp != comp) } })
      else s

/-- R602, R604 for trims. -/
def trimsCheck (c : Cmd) (_ : State) : Option Nat := firstFail [(fwFormatBad c, 0x0102), (fwAuthBad c, 0x0401)]
def trimsEff (c : Cmd) (s : State) : Eff :=
  let body := (c.input.take (256 + field c.input 0x10 4)).drop 256
  done (measure 11 (Config.hash 5 body) { s with fw := { s.fw with trims := body } })

/-- SVC_FWLOAD_TRIMS (R603, R610). -/
def execSvcFwloadTrims (c : Cmd) (s : State) : Host.Outcome State Fault Refusal :=
  .next (if fwType c = 0x21 then runConfigBy (fwVerified trimsCheck trimsEff) c s else s)

/-- Servo settings have no stated layout: any octets are taken (log 50). -/
def servoEff (c : Cmd) (s : State) : Eff :=
  done (measure 11 (Config.hash 5 c.input) { s with fw := { s.fw with servo := c.input } })

/-- SVC_FWLOAD_SERVO (R603, R610). -/
def execSvcFwloadServo (c : Cmd) (s : State) : Host.Outcome State Fault Refusal :=
  .next (if fwType c = 0x22 then runConfig noCheck servoEff c s else s)

/-! Changes of other shadowed fields by command (R549). -/

/-- Both copies of a Dado root. -/
def rootShadow (c : Cmd) (s : State) : State :=
  let x := fnOf s (cw c 8).toNat
  if x.rootInv == ~~~x.root then s else tamperDetect 15 s

def applyFnmap (c : Cmd) (s : State) : State :=
  let s := rootShadow c s
  if modeOk s c then applyConfig noCheck sysFnmapEff c s else s

/-- SYS_FNMAP (R328, R549). -/
def execSysFnmap (c : Cmd) (s : State) : Host.Outcome State Fault Refusal := .next (runConfigBy applyFnmap c s)

/-- Attributes and purposes of the slots that an envelope names, where they are loaded. -/
def slotShadow (c : Cmd) (s : State) : State :=
  if ((parseEnvelope c.input).getD []).all (fun i => (mget s.keys.slots i.slot).all (fun x =>
      x.attr + x.attrInv == 7 && x.purpose + x.purposeInv == 15)) then s
  else tamperDetect 15 s

def applyKeys (c : Cmd) (s : State) : State :=
  let s := slotShadow c s
  if modeOk s c then applyEnvelope c s else s

/-- KEY_APPLY (R494 to R496, R549). -/
def execKeyApply (c : Cmd) (s : State) : Host.Outcome State Fault Refusal :=
  .next (if envGenerates c then withDraw 70 (runConfigBy applyKeys) c s else runConfigBy applyKeys c s)

/-- Both copies of the budget table. -/
def tableShadow (s : State) : State :=
  if s.budget.tableInv == Budget.shadowOf s.budget.table then s else tamperDetect 15 s

def applyBudget (c : Cmd) (s : State) : State :=
  let s := tableShadow s
  if modeOk s c then applyConfig budgetCheck budgetEff c s else s

/-- SVC_FWLOAD_BUDGET (R398, R549): in SERVICE. -/
def execSvcFwloadBudget (c : Cmd) (s : State) : Host.Outcome State Fault Refusal :=
  .next (if fwType c = 0x20 then runConfigBy applyBudget c s else s)

end Sys2Proof.Machine
end

