-- ==== Sys2Proof/Machine/Pair.lean ====
section
/-! DEFINITION. Pair.lean: active and standby pairs (R563 to R590): heartbeats, silence, takeover, demotion, handover,
resynchronisation, health reports, the row exchange, and the pair. commands. -/
namespace Sys2Proof.Machine

/-- This member holds the active role of a pair (R112, R592). -/
def pairActive (s : State) : Bool := s.pair.paired && !s.pair.standby && inService s

/-- This member holds the standby role of a pair. -/
def pairStandby (s : State) : Bool := s.pair.paired && s.pair.standby && inService s

/-- Changes the pair controller. -/
def updPair (g : Pair → Pair) (s : State) : State := { s with pair := g s.pair }

/-- The pair link has traffic from the other member now. -/
def heard (s : State) : State := updPair (fun p => { p with heardAt := some s.time.clock }) s

/-- A path is silent for T slots, counted from its last accepted heartbeat (R576, R577). -/
def silent (s : State) (at_ : Option Nat) : Bool := at_.all (fun t => slotsPast s t s.pair.silence)

/-- Slots of unconfirmed sheets that a standby holds, PRC_HELD (R574, R590). -/
def heldCount (s : State) : Nat := if s.pair.standby then ((s.hawk.held.map (·.slot)).eraseDups).length else 0

/-! FIT (R588). -/

/-- PROTO of the control firmware in force (R602). -/
def ownProto (s : State) : Nat := ((committedImage s 1).map (·.proto)).getD 0

/-- The conditions of R588. -/
def fitNow (s : State) : Bool :=
  pairStandby s && s.pair.synced && s.pair.failAt.all (fun t => decide (s.time.clock - t ≥ 10000000000)) &&
  s.pair.partnerProto == ownProto s && !s.pair.heldOver && decide (heldCount s ≤ 64)

/-- FIT follows its conditions; PRC_EVT.UNFIT when it clears (R590). -/
def refit (s : State) : State :=
  let f := fitNow s
  let s' := updPair (fun p => { p with fit := f }) s
  if s.pair.fit && !f then event 13 5 s' else s'

/-! Roles. -/

/-- This member enters STANDBY, unsynchronised or synchronised (R581, R584, R589): in SERVICE the mode stays (R592). -/
def becomeStandby (synced : Bool) (s : State) : State :=
  let now := some s.time.clock
  updPair (fun p => { p with
    standby := true, synced := synced, partnerLost := false, pathSuspect := false, announced := false
    hbSpanAt := now, hbBpAt := now, fixRun := 0, fixLast := none, mjournal := [], mcfg := [], unacked := [], handover := none }) s

/-- What an admission does at once on the device that executes: an abort marks its target (R376), a message gets its
delivery slot (R241). -/
def atAdmission (c : Cmd) (s : State) : State :=
  if Cmd.opc c = 0x0F01 then abortMark c s else if Cmd.opc c = 0x3006 then stampMbox c s else s

/-- Octets of a COMMAND packet (R378, R640; log 53). -/
def commandOctets (c : Cmd) : List Byte := (List.range 16).flatMap (fun i => w32le (cw c i)) ++ c.input

/-- The admission of a journalled command completes: in a pair once the standby has acknowledged its entry (R31). A command
that names another device is handed over (R378). -/
def admissionDone (c : Cmd) (s : State) : State :=
  if cDev c = devnum s then atAdmission c s else sendPacket (cDev c) 1 c.tok (commandOctets c) s

/-- Every admission and outcome that waits for the standby proceeds (R579). -/
def proceed (s : State) : State :=
  let waits := (s.journal.filter (fun e => !e.2.admAck)).map (·.2.cmd)
  let js : Map JEntry := s.journal.map (fun e => (e.1, { e.2 with admAck := true, outAck := true }))
  let s : State := { s with journal := js, pair := { s.pair with unacked := [] } }
  let s := waits.foldl (fun s c => admissionDone c s) s
  let s := (s.publ.heldTx.map (·.1)).foldl (fun s t => releaseHeld t s) s
  let hs := s.hawk.held
  hs.foldl (fun s h => writeSheet h false s) { s with hawk := { s.hawk with held := [] } }

/-- The completion of a token leaves its queue pair, with the completion slot that it held. -/
def dropWaiting (tok : Nat) (s : State) : State :=
  match jent s tok with
  | none => s
  | some j => updQueue j.cmd.fn j.cmd.qp (fun q =>
      if q.waiting.contains (.admitted tok) then { q with waiting := q.waiting.erase (.admitted tok), fetched := q.fetched - 1 } else q) s

/-- A settled command is recorded in its function's ledger in place of a completion (R581). -/
def ledgerTok (tok : Nat) (s : State) : State :=
  match jent s tok with
  | some j =>
    match j.outcome with
    | some o =>
      if j.ledgered || j.written then s
      else
        let e := ledgerEntry s tok j o
        let s := updJ tok (fun j => { j with ledgered := true }) (dropWaiting tok s)
        updFn j.cmd.fn (fun x => { x with ledger := x.ledger ++ [e], unread := true }) s
    | none => s
  | none => s

/-- Tokens of this member's commands without an outcome. -/
def openTokens (s : State) : List Nat := (s.journal.filter (fun e => e.2.outcome.isNone)).map (·.1)

/-- The frames of this member that are still queued or held leave without being sent (R295, R581). -/
def dropFrames (s : State) : State :=
  let ks := s.ports.flatMap queuedPubs ++ s.publ.heldTx.map (fun h => h.2.2.1)
  ks.foldl (fun s k => frameGone k s) { s with
    ports := s.ports.map (fun p => { p with queues := List.replicate 4 [] })
    publ := { s.publ with heldTx := [] } }

/-- Demotion (R581): open commands end ABORTED_BY_TAKEOVER in the ledger, the outcomes already journalled are kept and
completed here (R35, log 52), no further frame is sent. -/
def demote (s : State) : State :=
  let s := event 13 1 (cntPrc 5 1 s)
  let s := (openTokens s).foldl (fun s t => ledgerTok t (cancel t 0x0505 s)) s
  let s := dropFrames { s with
    journal := s.journal.map (fun e => (e.1, { e.2 with admAck := true, outAck := true })) }
  let s := { s with
    publ := { s.publ with pend := [] }
    hawk := { s.hawk with held := [] } }
  let s := becomeStandby false s
  refit (if mode s = 2 then enterMode 3 s else s)

/-- One command of the old active in the ledger of the same function; a journalled pub.send has its frame sent (R39, R40). -/
def settleOne (tok : Nat) (j : JEntry) (s : State) : State :=
  let o := j.outcome.getD { status := 0x0505, result := 0, epoch := s.sys.epoch, dev := devnum s }
  let l := ledgerEntry s tok j o
  let s := updFn j.cmd.fn (fun x => { x with ledger := x.ledger ++ [l], unread := true }) s
  if Cmd.opc j.cmd == 0x4003 && o.status == 0 then resend (cCtx j.cmd) o.result s else s

/-- Settles the old active's commands in this member's ledgers (R39, R578 step 2), but the pair.handover that its issuer
completes itself (R35, R589). -/
def settleOther (handover : Bool) (s : State) : State :=
  let js := s.pair.mjournal.filter (fun e => !(handover && Cmd.opc e.2.cmd == 0xB003))
  updPair (fun p => { p with mjournal := [] }) (js.foldl (fun s e => settleOne e.1 e.2 s) s)

/-- Held sheets in slot order (R48, R575). -/
def sheetsBySlot : List HeldSheet → List HeldSheet
  | [] => []
  | h :: l =>
    let r := sheetsBySlot l
    r.takeWhile (fun x => decide (x.slot < h.slot)) ++ h :: r.dropWhile (fun x => decide (x.slot < h.slot))

/-- Held sheets of every ring are written in slot order with CATCHUP, from the mirrored indices (R48, R575). -/
def catchUp (s : State) : State :=
  let hs := s.hawk.held
  let s := { s with
    fns := s.fns.map (fun f => { f with rings := f.rings.map (fun r => if r.active then { r with cons := BitVec.ofNat 32 r.prod } else r) })
    hawk := { s.hawk with held := [] } }
  (sheetsBySlot hs).foldl (fun s h => writeSheet h true s) s

/-- Takeover in the order of R578; a synchronised partner stays so at a handover (R589). -/
def takeOver (synced : Bool) (s : State) : State :=
  let s := event 13 0 (cntPrc 4 1 (genUp s))
  let s := updPair (fun p => { p with
    standby := false, synced := synced, announced := false, pathSuspect := false, partnerLost := false, heardAt := some s.time.clock
    unacked := [] }) s
  let s := if mode s = 3 then enterMode 2 s else s
  let s := settleOther synced s
  let ps := bySlot s.publ.pend
  let s := ps.foldl (fun s q => performPend q s) { s with publ := { s.publ with pend := [] } }
  let s := catchUp s
  refit ((s.skim.ctx.map (·.1)).foldl (fun s k => retransmit k (svResume k s)) s)

/-- TAKEOVER (R577, R578, R582): on an accepted announcement, or both paths silent for T slots from the later of their last
heartbeats; at the last generation the standby stays. -/
def execTakeover (announced : Bool) (s : State) : Host.Outcome State Fault Refusal :=
  .next <|
    if pairStandby s && s.pair.synced && (if announced then s.pair.announced else silent s s.pair.hbSpanAt && silent s s.pair.hbBpAt) then
      if s.pair.gen = 0xFFFFFFFF then
        event 13 6 (updPair (fun p => { p with genExh := true, announced := false }) s)
      else takeOver false s
    else s

/-- PATH_SUSPECT (R577): one path silent for T slots and the other not. -/
def execPathSuspect (s : State) : Host.Outcome State Fault Refusal :=
  .next <|
    if pairStandby s && !s.pair.pathSuspect && (silent s s.pair.hbSpanAt != silent s s.pair.hbBpAt) then
      event 13 2 (updPair (fun p => { p with pathSuspect := true }) s)
    else s

/-- PARTNER_LOST (R579): no pair-link traffic for T slots. -/
def execPartnerLost (s : State) : Host.Outcome State Fault Refusal :=
  .next <|
    if pairActive s && !s.pair.partnerLost && s.pair.heardAt.any (fun t => slotsPast s t s.pair.silence) then
      proceed (event 13 3 (updPair (fun p => { p with partnerLost := true, synced := false }) s))
    else s

/-! Heartbeats (R113 to R116, R576, R580, R581). -/

/-- The tag of a received heartbeat under the VERIFY_ONLY slot (R114). -/
def hbTagOk (s : State) (dst src : Nat) (h : Heartbeat) : Bool :=
  let iv := [BitVec.ofNat 8 h.devnum, BitVec.ofNat 8 h.bp, BitVec.ofNat 8 h.type, 0] ++ beOctets 8 h.slot
  let head := [BitVec.ofNat 8 h.version, BitVec.ofNat 8 h.type, BitVec.ofNat 8 h.devnum, BitVec.ofNat 8 h.bp] ++ beOctets 4 h.pairId ++
    beOctets 4 h.generation ++ beOctets 8 h.slot ++ beOctets 8 h.epoch ++ beOctets 8 h.journal ++ beOctets 2 h.cause ++ List.replicate 10 0
  let aad := beOctets 6 dst ++ beOctets 6 src ++ [0x88, 0xB5] ++ head
  (slotFail s s.pair.verSlot [5]).isNone && decide (Config.tag 4 (slotKey s s.pair.verSlot) iv aad [] = h.tag)

/-- An accepted heartbeat on the pair link or on the bus pairs. -/
def hbAccepted (span : Bool) (h : Heartbeat) (s : State) : State :=
  let now := some s.time.clock
  let s := cntPrc (if span then 0 else 1) 1 (updPair (fun p => { p with
    lastHb := h.slot, hbSpanAt := if span then now else p.hbSpanAt, hbBpAt := if span then p.hbBpAt else now }) s)
  if s.pair.listen.isSome then updPair (fun p => { p with listenHb := true, gen := max p.gen h.generation }) s
  else
    let lower := decide (s.pair.gen < h.generation) || (s.pair.gen == h.generation && decide (devnum s > h.devnum))
    let s := if pairActive s && h.type == 0 && lower then demote s else s
    let s := updPair (fun p => { p with
      gen := max p.gen h.generation, announced := p.announced || (p.standby && h.type == 1) }) s
    if silent s s.pair.hbSpanAt || silent s s.pair.hbBpAt then s else updPair (fun p => { p with pathSuspect := false }) s

/-- A heartbeat frame from the process bus (R116): during the pair listen its SLOT does not matter (R567). -/
def busHeartbeat (b dst src : Nat) (h : Heartbeat) (s : State) : State :=
  let key := h.devnum * 4 + b
  let cur := curSlot s b
  let slotOk := s.pair.listen.isSome ||
    (decide ((mget s.pair.hbSlots key).all (fun l => decide (h.slot > l))) && decide (h.slot ≤ cur + 2 ∧ cur ≤ h.slot + 2))
  if s.pair.paired && h.version == 1 && decide (h.type ≤ 1) && h.pairId == s.pair.pairId && hbTagOk s dst src h && slotOk then
    hbAccepted false h (updPair (fun p => { p with hbSlots := mset p.hbSlots key h.slot }) s)
  else cntPrc 2 1 s

/-- What a verified group of the pair link carries besides the pair's own rows (R576, R586). -/
def pairTraffic (m : PairRx) (s : State) : State :=
  let s := heard s
  match m with
  | .heartbeat h => if s.pair.paired && h.version == 1 && h.pairId == s.pair.pairId then hbAccepted true h s else s
  | .report o => if s.pair.paired then updPair (fun p => { p with partnerRep := fit 256 o, partnerProto := field o 0x28 2 }) s else s

/-- PAIR_HEARTBEAT_TX (R576): every 10 µs on the pair link that is UP. -/
def execPairHeartbeatTx (s : State) : Host.Outcome State Fault Refusal :=
  .next <|
    if pairActive s && (lget s.span.links s.pair.link default).st == 3 &&
       s.pair.hbTxAt.all (fun t => decide (s.time.clock - t ≥ 10000)) then
      emit (.pair (.heartbeat { heartbeatOf s 0 0 0 with tag := [] })) (updPair (fun p => { p with hbTxAt := some s.time.clock }) s)
    else s

/-! Mirroring, as the active sees it (R31, R33, R570). -/

/-- MIRROR_ACK (R31, R33, R296): the first acknowledgement of a token releases its admission, the next its outcome. -/
def execMirrorAck (tok : Nat) (s : State) : Host.Outcome State Fault Refusal :=
  .next <|
    if pairActive s then
      let s := updPair (fun p => { p with mirroredTok := max p.mirroredTok tok }) (heard s)
      match jent s tok with
      | some j =>
        if !j.admAck then admissionDone j.cmd (updJ tok (fun j => { j with admAck := true }) s)
        else if j.outcome.isSome then releaseHeld tok (updJ tok (fun j => { j with outAck := true }) s)
        else s
      | none => if tok = 0 then releaseHeld 0 s else s
    else s

/-- A journal entry of the other member's command. -/
def otherEntry (s : State) (c : Cmd) : JEntry :=
  { (default : JEntry) with cmd := c, at_ := s.time.clock, tai := s.time.tai, admAck := true, remote := true }

/-- STANDBY_ADMISSION (R570): a token of the shared sequence, unless a handover has stopped admission (R589) or the function's
ledger is unread here (R348). -/
def execStandbyAdmission (c : Cmd) (s : State) : Host.Outcome State Fault Refusal :=
  .next <|
    if pairActive s && (fnOf s c.fn).unread then emit (.pair (.mirror (.denied c 0x0203))) (heard s)
    else if pairActive s && s.pair.handover.isNone && !s.pair.partnerLost then
      let (t, s) := nextToken (heard s)
      let c : Cmd := { c with tok := t }
      emit (.pair (.mirror (.granted c))) (updPair (fun p => { p with mjournal := mset p.mjournal t (otherEntry s c) }) s)
    else s

/-! The row exchange (R571 to R574). -/

/-- Records of consecutive slots applied since the copy (R584). -/
def noteFix (slot : Nat) (s : State) : State :=
  updPair (fun p => { p with
    fixLast := some slot
    fixRun := match p.fixLast with
      | some l => if slot = l then p.fixRun else if slot = l + 1 then min 127 (p.fixRun + 1) else 1
      | none => 1 }) s

/-- FIX_RECORD (R571, R572): against this member's own fixed rows of that slot (log 52). -/
def execFixRecord (b part slot : Nat) (digest : List Byte) (s : State) : Host.Outcome State Fault Refusal :=
  .next <|
    if pairStandby s then
      match fixedRows s b part slot with
      | some rows =>
        if rowsDigest rows = digest then emit (.pair (.fixAck b part slot)) (noteFix slot s)
        else emit (.pair (.wantRows b part slot)) s
      | none => s
    else s

/-- A program reads one of the rows through its sheet windows. -/
def readsRows (g : Prog) (b : Nat) (rows : List Row) : Bool :=
  g.bind_.bound && g.bind_.bp == b && rows.any (fun r => g.bind_.sheets.contains (r.stream * 256 + r.sub))

/-- A row as the active fixed it, where it sent one (R48, R572). -/
def adoptRow (rows : List Row) (r : Row) : Row := (rows.find? (fun x => x.stream == r.stream && x.sub == r.sub)).getD r

/-- ROWS_ADOPT (R572): the active's rows replace the fixed rows, the history entries and, in sheets of the slot that are
held, their rows (R48); programs that read them go on with them (log 52). -/
def execRowsAdopt (b part slot : Nat) (rows : List Row) (s : State) : Host.Outcome State Fault Refusal :=
  .next <|
    if pairStandby s then
      let s := putFixed b part slot rows s
      let s := rows.foldl (fun s r => histPut b r.stream slot r.sub r s) s
      let s : State := { s with
        trowel := { s.trowel with progs := s.trowel.progs.map (fun e =>
          if readsRows e.2 b rows && e.2.slot == slot then (e.1, { e.2 with latches := [] }) else e) }
        hawk := { s.hawk with held := s.hawk.held.map (fun h =>
          if h.slot == slot then { h with rows := h.rows.map (adoptRow rows) } else h) } }
      emit (.pair (.fixAck b part slot)) (noteFix slot (event 13 4 (cntPrc 3 1 s)))
    else s

/-- FIX_RECORD_ACK (R573): sheets that waited for it, or behind one that did, are written in their order (R46). -/
def execFixRecordAck (b part slot : Nat) (s : State) : Host.Outcome State Fault Refusal :=
  .next <|
    if pairActive s then
      let s := updPair (fun p => { p with unacked := p.unacked.filter (fun u => u != (b, part, slot)) }) (heard s)
      let owed (h : HeldSheet) : Bool := fixOwed s h.view h.slot
      let ready (h : HeldSheet) : Bool :=
        !s.hawk.held.any (fun x => x.fn == h.fn && x.ring == h.ring && decide (x.slot ≤ h.slot) && owed x)
      let go := s.hawk.held.filter ready
      let s := { s with hawk := { s.hawk with held := s.hawk.held.filter (fun h => !ready h) } }
      let s := go.foldl (fun s h => writeSheet h false s) s
      (go.map (·.slot)).eraseDups.foldl (fun s n => confirmSlot n s) s
    else s

/-- SLOT_CONFIRM (R574): held sheets of the slot are discarded, and confirmations have resumed. -/
def execSlotConfirm (slot : Nat) (s : State) : Host.Outcome State Fault Refusal :=
  .next <|
    if pairStandby s then
      refit { s with
        hawk := { s.hawk with held := s.hawk.held.filter (fun h => h.slot != slot) }, pair := { s.pair with heldOver := false } }
    else s

/-! Resynchronisation, handover (R584, R589). -/

/-- The greater of two numbers plus one, with the MRAM block that covers it (R29, R584). -/
def blockTop (n top : Nat) : Nat := if n < top then top else (n / 1048576 + 1) * 1048576

/-- A context entry in the copy of R584: replay state, GOOSE sequence state, or publication state, which needs no
acknowledgement of its own. -/
def copyCtx (s : State) (k : Nat) (x : Ctx) : List MirrorItem :=
  if x.kind = 1 ∨ x.kind = 3 then (if x.sv.wvalid then [.svDelta k x.sv.highx x.sv.window] else [])
  else if x.kind = 2 ∨ x.kind = 4 then
    (if x.gs.gvalid || x.gs.fault then [.gooseDelta k x.gs.stNum x.gs.sqNum x.gs.t x.gs.gvalid] else [])
  else if x.kind = 5 ∧ x.pub.svalid = true then
    [.pubState k x.pub.stNum x.pub.t x.pub.argLast (x.pub.host.getD []) none s.sys.token,
     .pubDelta k x.pub.sqNum x.pub.nextTx x.pub.stepPos x.pub.spdu x.pub.lastSlot]
  else []

/-- A journal entry in the copy of R584. -/
def copyEntry (tok : Nat) (j : JEntry) : List MirrorItem :=
  .admission j.cmd :: (match j.outcome with
    | some o => [.outcome tok o.status o.result o.epoch]
    | none => [])

/-- Indices of the rings of function f in the copy of R584. -/
def copyRings (s : State) (f : Nat) : List MirrorItem :=
  (List.range 5).flatMap (fun r =>
    if (ringOf s f r).active then [.salt f r (ringOf s f r).salt, .ring f r (ringOf s f r).prod (ringOf s f r).lastSlot] else [])

/-- What the active copies to a member that enters STANDBY (R584): numbers, contexts, journal, Trowel data and ring indices; the
configuration as log 52 says. -/
def resyncCopy (s : State) : List MirrorItem :=
  [.epoch s.sys.epoch, .recnum s.hawk.recNum] ++ s.skim.ctx.flatMap (fun e => copyCtx s e.1 e.2) ++
  s.journal.flatMap (fun e => copyEntry e.1 e.2) ++
  s.trowel.progs.map (fun e => .trowelData e.1 (memRdN e.2.data 0 (imgData e.2.img))) ++
  (List.range 65).flatMap (copyRings s)

/-- RESYNC_COMPLETE (R584): the three numbers on both members; SYNCED on the standby, whose copy arrives as mirrored
entries (log 52), after fix records of 64 consecutive slots. -/
def execResyncComplete (epoch token recnum proto : Nat) (s : State) : Host.Outcome State Fault Refusal :=
  .next <|
    if (pairStandby s && !s.pair.synced && decide (s.pair.fixRun ≥ 64)) || (pairActive s && !s.pair.synced) then
      let e := max s.sys.epoch epoch + 1
      let t := max s.sys.token token + 1
      let r := max s.hawk.recNum recnum + 1
      let s := { s with
        sys := { s.sys with epoch := e, epochTop := blockTop e s.sys.epochTop, token := t, tokenTop := blockTop t s.sys.tokenTop }
        hawk := { s.hawk with recNum := r, recTop := blockTop r s.hawk.recTop }
        pair := { s.pair with synced := true, partnerLost := false, partnerProto := proto } }
      refit (if s.pair.standby then cntPrc 6 1 s else heard (emits ((resyncCopy s).map (fun m => Output.pair (.mirror m))) s))
    else s

/-- The handover of R589 is in progress on the active. -/
def handingOver (s : State) : Bool := s.pair.handover.any (fun h => (jent s h.1).any (fun j => j.outcome.isNone))

/-- HANDOVER_SWITCH (R589): at the first slot-start event after the wait. The old active ends what is left, and its command
is the one configuration change; the standby, which has mirrored the command, takes over. -/
def execHandoverSwitch (s : State) : Host.Outcome State Fault Refusal :=
  .next <|
    if pairActive s then
      match s.pair.handover with
      | some (tok, t) =>
        let rest := (openTokens s).filter (· != tok)
        if handingOver s && atSlotStart s && (rest.isEmpty || decide (s.time.clock - t ≥ 20000000)) then
          let s := rest.foldl (fun s k => cancel k 0x0505 s) s
          let s := settle tok 0 0 [] (bumpMirrored s)
          let s := becomeStandby true (proceed s)
          refit (if mode s = 2 then changeMode 3 s else s)
        else if handingOver s then s
        else updPair (fun p => { p with handover := none }) s
      | none => s
    else if pairStandby s && s.pair.synced && atSlotStart s &&
            s.pair.mjournal.any (fun e => Cmd.opc e.2.cmd == 0xB003 && e.2.outcome.all (fun o => o.status == 0)) then takeOver true s
    else s

/-! Health reports (R585 to R588). -/

/-- Subsystems of which a part cannot be tested without acting: port transmit on a standby, and UCIe while its host is
quiet (R587). -/
def ucieQuiet (s : State) : Bool := decide (s.time.clock - s.sys.hostAt ≥ 1000000000)
def partialSub (s : State) (k : Nat) : Bool := s.pair.standby && (k == 1 || (k == 14 && ucieQuiet s))

/-- A coverage entry (R586). -/
def coverage (s : State) (k : Nat) : List Byte :=
  let x := lget s.pair.subs k (0, 0, 0, 0)
  leOctets 8 (x.1 % 65536 + 65536 * (x.2.1 % 65536) + 2 ^ 32 * (x.2.2.1 % 256) + 2 ^ 40 * (x.2.2.2 % 256) + 2 ^ 48 * b2n (partialSub s k))

/-- The report of 256 octets (R586). -/
def healthOctets (s : State) : List Byte :=
  let grew (i j : Nat) : Nat := lget s.pair.cnt i 0 - lget s.pair.lastCnt j 0
  fit 256 (fit 0x40 (
    w32le (pack [(1, 0), (b2n s.pair.standby, 8), (devnum s, 16), (b2n s.pair.fit, 22), (b2n s.pair.synced, 23)]) ++
    leOctets 4 s.pair.gen ++ leOctets 8 (s.pair.reportSeq + 1) ++ leOctets 8 (gridSlot s) ++ leOctets 8 s.sys.epoch ++
    leOctets 8 s.pair.mirroredTok ++ leOctets 4 (ownProto s) ++
    leOctets 4 (b2n s.pair.standby + 2 * b2n (partialSub s 14))) ++
  (List.range 16).flatMap (coverage s) ++ leOctets 4 (grew 0 0) ++ leOctets 4 (grew 1 1) ++ leOctets 4 (grew 3 2))

/-- HEALTH_REPORT (R586): each second; a standby sends it to the active. -/
def execHealthReport (s : State) : Host.Outcome State Fault Refusal :=
  .next <|
    if s.pair.paired && inService s && s.pair.reportAt.all (fun t => decide (s.time.clock - t ≥ 1000000000)) then
      let s := refit s
      let o := healthOctets s
      let s := updPair (fun p => { p with
        ownRep := o, reportSeq := p.reportSeq + 1, reportAt := some s.time.clock
        lastCnt := [lget p.cnt 0 0, lget p.cnt 1 0, lget p.cnt 3 0], subs := p.subs.map (fun x => (0, 0, x.2.2.1, x.2.2.2)) }) s
      if s.pair.standby then emit (.pair (.health o)) s else s
    else s

/-- Engine of a subsystem's tests: 0 the control cores for a block without lanes (R384, R586). -/
def subEngine (sub : Nat) : Nat := mgetD [(6, 2), (7, 3), (8, 4), (9, 5), (12, 6)] sub 0

/-- STANDBY_SELF_TEST (R585, R588): charged to SELFTEST; the results of a subsystem's tests; a failure outside a PARTIAL part clears FIT for
10 s. -/
def execStandbySelfTest (sub run fail cover code : Nat) (s : State) : Host.Outcome State Fault Refusal :=
  .next <|
    if pairStandby s && decide (sub < 16) then
      let s := updPair (fun p => { p with
        subs := lupd p.subs sub (fun x => (x.1 + run, x.2.1 + fail, min 100 cover, if fail > 0 then code % 256 else x.2.2.2))
        failAt := if fail > 0 ∧ partialSub s sub = false then some s.time.clock else p.failAt }) s
      refit (workFor 14 sub (subEngine sub) 8 0 s)
    else s

/-! The pair. commands. -/

/-- pair.cfg (R564; places of its parameters: log 51): word 8 PAIR_ID; word 9 [5:0] partner, [9:8] link, [22:16] T; word 10
[13:0] SIGN_ONLY slot, [29:16] VERIFY_ONLY slot; words 12 and 13 [15:0] the heartbeat address, 13 [31:16] the 802.1Q tag of its
frames, 0 none (R113). -/
def pairCfgRow : OpRow :=
  { opc := 0xB001, who := 0, ctx := 0, inp := false, out := false
    params := [0xFFFFFFFF, 0x7F033F, 0x3FFF3FFF, 0, 0xFFFFFFFF, 0xFFFFFFFF] }
def pcT (c : Cmd) : Nat := bits (cw c 9) 22 16
def pairCfgPre (c : Cmd) : Option Nat := firstFail [(decide (pcT c < 2) || decide (pcT c > 64), 0x0106)]

/-- The key slots, then the link that span.route dedicated (R638). -/
def pairCfgCheck (c : Cmd) (s : State) : Option Nat :=
  let a := bits (cw c 10) 13 0
  let v := bits (cw c 10) 29 16
  match slotFail s a [4] with
  | some st => some st
  | none =>
    match slotFail s v [5] with
    | some st => some st
    | none => firstFail
      [((slotKey s a).length != 32 || (slotKey s v).length != 32, 0x0303),
       (!(lget s.span.links (bits (cw c 9) 9 8) default).pair, 0x0704)]

def pairCfgEff (c : Cmd) (s : State) : Eff :=
  done (updPair (fun p => { p with
    paired := true, pairId := (cw c 8).toNat, partner := bits (cw c 9) 5 0, link := bits (cw c 9) 9 8, silence := pcT c
    signSlot := bits (cw c 10) 13 0, verSlot := bits (cw c 10) 29 16, hbAddr := cw64 c 12 % 2 ^ 48
    hbTag := bits (cw c 13) 31 16 }) s)

/-- PAIR_CFG (R564). -/
def execPairCfg (c : Cmd) (s : State) : Host.Outcome State Fault Refusal := .next (runConfig pairCfgCheck pairCfgEff c s)

def pairStatusRow : OpRow := { opc := 0xB002, who := 3, ctx := 0, inp := false, out := true, params := [] }
def pairStatusPre (c : Cmd) : Option Nat := firstFail [(decide (cOutLen c < 512), 0x0106)]
def pairStatusEff (c : Cmd) (s : State) : Eff := output c (fit 256 s.pair.partnerRep ++ fit 256 s.pair.ownRep) s

/-- PAIR_STATUS (R586). -/
def execPairStatus (c : Cmd) (s : State) : Host.Outcome State Fault Refusal := .next (runPlain noCheck pairStatusEff c s)

def pairHandoverRow : OpRow := { opc := 0xB003, who := 0, ctx := 0, inp := false, out := false, params := [] }

/-- R582, R588: an active with a FIT standby. -/
def pairHandoverCheck (_ : Cmd) (s : State) : Option Nat :=
  firstFail [(!pairActive s, 0x0901), (s.pair.gen == 0xFFFFFFFF, 0x0902),
    (s.pair.partnerLost || !s.pair.synced || !bit (word32 s.pair.partnerRep 0) 22, 0x0901)]

/-- PAIR_HANDOVER (R589): admission stops, and HANDOVER_SWITCH ends it. -/
def execPairHandover (c : Cmd) (s : State) : Host.Outcome State Fault Refusal :=
  .next <|
    if runnable s c && configTurn s c then
      match pairHandoverCheck c s with
      | some st => settle c.tok st 0 [] s
      | none => updPair (fun p => { p with handover := some (c.tok, s.time.clock) }) (startCmd c.tok s)
    else s

def pairRenumberRow : OpRow := { opc := 0xB004, who := 0, ctx := 0, inp := true, out := false, params := [0, 0, 0, 0, 0, 0, 7] }
def pairRenumberCheck (_ : Cmd) (s : State) : Option Nat :=
  firstFail [(!s.pair.paired || s.pair.standby || !partnerThere s, 0x0901)]
def pairRenumberEff (_ : Cmd) (s : State) : Eff := done (updPair (fun p => { p with gen := 1, genExh := false }) s)

/-- The partner gets the command first (R496, R583). -/
def applyRenumber (c : Cmd) (s : State) : State :=
  applyQuorum pairRenumberCheck (fun c s => pairRenumberEff c (emit (.pair (.handOver c)) s)) c s

/-- PAIR_RENUMBER (R583). -/
def execPairRenumber (c : Cmd) (s : State) : Host.Outcome State Fault Refusal := .next (runConfigBy applyRenumber c s)

end Sys2Proof.Machine
end

