-- ==== Sys2Proof/Machine/Recorder.lean ====
section
/-! DEFINITION. Recorder.lean: the event recorder (R615 to R628, R671): records under the two policies, log.read,
log.policy, log.clear. -/
namespace Sys2Proof.Machine

/-- Octets of a record: header and body (R616). -/
def recSize (r : LogRec) : Nat := 16 + 8 * r.body.length

/-- USED, and octets free in the record area (R615). -/
def logUsed (s : State) : Nat := (s.log.recs.map recSize).sum
def logFree (s : State) : Nat := 2093056 - logUsed s

/-- FIRSTSEQ (R615). -/
def firstSeq (s : State) : Nat := match s.log.recs with
  | r :: _ => r.seq
  | [] => s.log.nextSeq

/-- The last record held, where it is the latest one opened (R618). -/
def latest (s : State) : Option LogRec := s.log.recs.getLast?.bind (fun r => if r.seq + 1 = s.log.nextSeq then some r else none)

/-- An event equals the latest record and can be folded into it. -/
def folds (type : Nat) (body : List W64) (s : State) : Bool :=
  (latest s).any (fun r => r.type == type && r.body == body && decide (r.repeat_ < 65535))

/-- A record opens with NEXTSEQ (R617). -/
def openRecord (type sev : Nat) (body : List W64) (s : State) : State :=
  { s with log := { s.log with
    recs := s.log.recs ++ [{ seq := s.log.nextSeq, type := type, sev := sev, body := body, repeat_ := 0, boot := s.fw.boots % 65536 }]
    nextSeq := s.log.nextSeq + 1 } }

/-- The oldest records of lower severity that free enough octets, by sequence number; none when all of them do not
(R624). -/
def victims (sev : Nat) : List LogRec → Int → Option (List Nat)
  | rs, need => if need ≤ 0 then some [] else match rs with
    | [] => none
    | r :: rs => if r.sev < sev then (victims sev rs (need - recSize r)).map (fun l => r.seq :: l) else victims sev rs need

/-- A record that does not fit, or comes while FULL: its own events are discarded (R671), others are counted. -/
def notWritten (type : Nat) (s : State) : State :=
  if ownRecord type then s else event 2 1 (countDrop s)

/-- One event becomes a record, or is folded, or is not written (R618, R623, R624). -/
def record (type sev : Nat) (body : List W64) (s : State) : State :=
  let size := 16 + 8 * body.length
  if folds type body s then
    { s with log := { s.log with recs := s.log.recs.map (fun r =>
      if r.seq + 1 = s.log.nextSeq then { r with repeat_ := r.repeat_ + 1 } else r) } }
  else if s.log.severity then
    (match victims sev s.log.recs ((size : Int) - (logFree s : Int)) with
     | some [] => openRecord type sev body s
     | some vs =>
       let s := { s with log := { s.log with
         recs := s.log.recs.filter (fun r => !vs.contains r.seq), overwritten := s.log.overwritten + vs.length } }
       event 2 2 (openRecord type sev body s)
     | none => notWritten type s)
  else if s.log.full then notWritten type s
  else if size ≤ logFree s then openRecord type sev body s
  else if ownRecord type then s
  else notWritten type (event 2 0 { s with log := { s.log with full := true } })

/-- LOG_RECORD (R618, R619): the oldest event of the queue. -/
def execLogRecord (s : State) : Host.Outcome State Fault Refusal :=
  .next <|
    match s.log.queue with
    | [] => s
    | (type, sev, body) :: q => record type sev body (openWork 15 (16 + 8 * body.length) 0 9 { s with log := { s.log with queue := q } })

/-- The fixed header of 64 octets (R615). -/
def logHeader (s : State) : List Byte :=
  let h := [0x56, 0x4B, 0x45, 0x56] ++ w32le (pack [(1, 0), (b2n s.log.severity, 8), (b2n s.log.full, 9)]) ++ leOctets 8 s.log.nextSeq ++
    leOctets 8 (firstSeq s) ++ leOctets 4 (logUsed s) ++ leOctets 4 s.log.clears ++ leOctets 8 s.log.overflow ++
    leOctets 8 s.log.dropped ++ leOctets 8 s.log.overwritten
  h ++ fit 8 (Config.hash 3 h)

/-- A record as octets (R616). -/
def recordOctets (r : LogRec) : List Byte :=
  leOctets 8 r.seq ++ w32le (pack [(r.type, 0), (r.sev, 16), (r.body.length, 24)]) ++ leOctets 2 r.repeat_ ++ leOctets 2 r.boot ++
  r.body.flatMap (fun w => leOctets 8 w.toNat)

/-- Whole records, as many as a number of octets allows (R627). -/
def takeRecords : List LogRec → Nat → List Byte
  | [], _ => []
  | r :: rs, n => if recSize r ≤ n then recordOctets r ++ takeRecords rs (n - recSize r) else []

def logReadRow : OpRow := { opc := 0xC001, who := 0, ctx := 0, inp := false, out := true, params := [0xFFFFFFFF, 0xFFFFFFFF] }
def logReadPre (c : Cmd) : Option Nat := firstFail [(decide (cOutLen c < 64), 0x0106)]
def logReadEff (c : Cmd) (s : State) : Eff :=
  let o := logHeader s ++ takeRecords (s.log.recs.filter (fun r => decide (r.seq ≥ cw64 c 8))) (cOutLen c - 64)
  { st := openWork 16 o.length 0 9 s, result := BitVec.ofNat 32 o.length, out := o }

/-- LOG_READ (R627). -/
def execLogRead (c : Cmd) (s : State) : Host.Outcome State Fault Refusal := .next (runPlain noCheck logReadEff c s)

/-- log.policy (R625): word 8 [0] 0 native, 1 SEVERITY, which clears FULL. -/
def logPolicyRow : OpRow := { opc := 0xC002, who := 0, ctx := 0, inp := false, out := false, params := [1] }
def logPolicyEff (c : Cmd) (s : State) : Eff :=
  let v := bit (cw c 8) 0
  done { s with log := { s.log with severity := v, full := s.log.full && !v } }

/-- LOG_POLICY (R625). -/
def execLogPolicy (c : Cmd) (s : State) : Host.Outcome State Fault Refusal := .next (runConfig noCheck logPolicyEff c s)

def logClearRow : OpRow := { opc := 0xC003, who := 0, ctx := 0, inp := false, out := false, params := [] }

/-- R626: LOG_CLEARED is the first record. -/
def logClearEff (_ : Cmd) (s : State) : Eff :=
  let body := [firstSeq s, s.log.nextSeq, s.log.overflow, s.log.dropped, s.log.overwritten].map (BitVec.ofNat 64)
  let s := { s with log := { s.log with
    recs := [], overflow := 0, dropped := 0, overwritten := 0, full := false, clears := s.log.clears + 1 } }
  done (event 2 3 (openRecord 0x0220 6 body s))

/-- LOG_CLEAR (R626). -/
def execLogClear (c : Cmd) (s : State) : Host.Outcome State Fault Refusal := .next (runPlain noCheck logClearEff c s)

end Sys2Proof.Machine
end

