-- ==== Sys2Proof/Machine/Span.lean ====
section
/-! DEFINITION. Span.lean: span links, routes, packets, numbering and commands of other devices (R378 to R381, R629 to
R646), and the span. commands. -/
namespace Sys2Proof.Machine

/-- Changes the span. -/
def updSpan (g : Span → Span) (s : State) : State := { s with span := g s.span }

/-- Span link l. -/
def linkOf (s : State) (l : Nat) : SpanLink := lget s.span.links l default

/-- This device's number as one octet of the link key and the transcript; without one, 255 (log 53). -/
def spanNum (s : State) : Nat := s.sys.devnum.getD 255

/-! Routes (R646). -/

/-- Links other than a pair link that are UP. -/
def openLinks (s : State) : List Nat := (List.range 4).filter (fun l => (linkOf s l).st == 3 && !(linkOf s l).pair)

/-- Floods a packet that has no sequence number (R635, R646). -/
def flood (ptype arg : Nat) (body : List Byte) (s : State) : State :=
  emits ((openLinks s).map (fun l => Output.span l
    { dst := (linkOf s l).peer, src := devnum s, ptype := ptype, seq := 0, arg := BitVec.ofNat 64 arg, body := body, vc := 0 })) s

/-- Packets of links that are not UP leave by the routes now in force, before anything else (R646). -/
def resendLost (s : State) : State :=
  (List.range 4).foldl (fun s l =>
    if (linkOf s l).st = 3 ∨ (linkOf s l).pair then s
    else
      let ks := (linkOf s l).unacked ++ (linkOf s l).waiting
      ks.foldl (fun s k => sendOn ((routeLink s k.dst).getD l) k s) (updLink l (fun x => { x with unacked := [], waiting := [] }) s)) s

/-- Recomputes the route table for every device of the domain and notes which have just lost their last route (R380,
R646). -/
def recompute (s : State) : State :=
  let ds := (List.range (domainSize s)).filter (fun d => d != devnum s)
  let s := ds.foldl (fun s d => match reroute s d with
    | some l => updSpan (fun p => { p with routes := mset p.routes d l, lostAt := mdel p.lostAt d }) s
    | none => updSpan (fun p => { p with
        routes := mdel p.routes d
        lostAt := if (mget p.lostAt d).isNone then mset p.lostAt d s.time.clock else p.lostAt }) s) s
  resendLost (event 12 2 (cntSpn 0 1 s))

/-- A link between two devices has failed: noted, flooded on, and the routes recomputed; a failure known already stops
here (R646). -/
def linkFails (a b : Nat) (s : State) : State :=
  if linkFailed s a b then s
  else recompute (flood 6 (a + 64 * b) [] (updSpan (fun p => { p with failed := p.failed ++ [(a, b)] }) s))

/-- ROUTE_PACKET (R646). -/
def execRoutePacket (failedA failedB : Nat) (s : State) : Host.Outcome State Fault Refusal :=
  .next (if s.sys.devnum.isSome && inService s then linkFails failedA failedB s else s)

/-! Links (R631 to R634). -/

/-- A link that is UP or TRAINING goes DOWN (R634): its event, and the flood of R646 where it carried routes. -/
def linkDown (l : Nat) (s : State) : State :=
  let x := linkOf s l
  if x.st = 2 ∨ x.st = 3 then
    let s := event 12 0 (updLink l (fun x => { x with st := 1, downAt := s.time.clock, tagFails := [], keyTx := [], keyRx := [] }) s)
    if x.st = 3 ∧ x.pair = false ∧ s.sys.devnum.isSome then linkFails (devnum s) x.peer s else s
  else s

/-- Sixteen tag failures within a second are a SPAN_TAGFAIL record (R621, R634). -/
def tagFailLog (l n : Nat) (s : State) : State :=
  if n ≥ 16 then logEv 0x0C20 6 [BitVec.ofNat 64 (l + 256 * min 255 n)] s else s

/-- SPAN_LINK_DOWN (R634): tag failures of the last second, or lost lock, replay rate, silence. -/
def execSpanLinkDown (l tagFails : Nat) (s : State) : Host.Outcome State Fault Refusal :=
  .next (if (linkOf s l).st = 2 ∨ (linkOf s l).st = 3 then linkDown l (tagFailLog l tagFails s) else s)

/-- SPAN_LINK_RETRAIN (R634): 100 ms after the link went DOWN. -/
def execSpanLinkRetrain (l : Nat) (s : State) : Host.Outcome State Fault Refusal :=
  .next <|
    if (linkOf s l).st = 1 ∧ s.time.clock - (linkOf s l).downAt ≥ 100000000 ∧ inService s = true then
      updLink l (fun x => { x with st := 2 }) s
    else s

/-- The domain key of a link: its DERIVE_ONLY slot of KTYPE 0x05 (R633); without a usable slot, no octets (log 53). -/
def domainKey (s : State) (l : Nat) : List Byte :=
  match (linkOf s l).keySlot with
  | some k => if (slotFail s k [3]).isNone then slotKey s k else []
  | none => []

/-- What both ends hash at a training: device numbers and nonces, the lower number first (R633). -/
def trainText (me peer : Nat) (mine theirs : List Byte) : List Byte :=
  if me ≤ peer then [BitVec.ofNat 8 me, BitVec.ofNat 8 peer] ++ mine ++ theirs else [BitVec.ofNat 8 peer, BitVec.ofNat 8 me] ++ theirs ++ mine

/-- The link key of a direction: 0 from the lower number (R633). -/
def linkKey (key text_ : List Byte) (dir : Nat) : List Byte :=
  Config.kmac 11 key (text_ ++ [BitVec.ofNat 8 dir]) 32 (text "VK9612 span link")

/-- The proof that the holder of a number gives for its key (log 53). -/
def linkProof (key text_ devid : List Byte) : List Byte := Config.kmac 11 key (text_ ++ devid) 32 []

/-- The number that a neighbour announces (R633, R635, R639): two DEVIDs with one number are both unreachable until one
of them announces another. -/
def noteId (peer : Nat) (peerId : List Byte) (s : State) : State :=
  if peer ≥ 64 then
    updSpan (fun p => { p with unnumbered := if p.unnumbered.contains peerId then p.unnumbered else p.unnumbered ++ [peerId] }) s
  else
    let old := (s.span.ids.filter (fun e => e.2 == peerId && e.1 != peer)).map (·.1)
    let s := updSpan (fun p => { p with
      unnumbered := p.unnumbered.filter (· != peerId), ids := p.ids.filter (fun e => !old.contains e.1)
      dups := p.dups.filter (fun d => !old.contains d) }) s
    let dup := (mget s.span.ids peer).any (fun i => i != peerId) || (s.sys.devnum == some peer && peerId != devId)
    if dup then event 12 3 (updSpan (fun p => { p with dups := if p.dups.contains peer then p.dups else p.dups ++ [peer] }) s)
    else updSpan (fun p => { p with ids := mset p.ids peer peerId }) s

/-- SPAN_LINK_TRAINING (R631, R633): numbers, DEVIDs and nonces are exchanged and the keys proved. A link that has gone
DOWN trains after its 100 ms; one whose nonce cannot be drawn yet goes on training. -/
def execSpanLinkTraining (l peer : Nat) (peerId peerNonce proof : List Byte) (s : State) : Host.Outcome State Fault Refusal :=
  .next <|
    if inService s && ((linkOf s l).st == 0 || (linkOf s l).st == 2) && drawReady s 68 then
      let (nonce, s) := generate 0 68 32 s
      let me := spanNum s
      let key := domainKey s l
      let tx := trainText me peer nonce peerNonce
      let s := emit (.spanTrain l me nonce (linkProof key tx devId)) s
      if proof = linkProof key tx peerId then
        let low := linkKey key tx 0
        let high := linkKey key tx 1
        let s := updLink l (fun x => { x with
          st := 3, peer := peer % 64, fseq := 0, group := 0, inGroup := 0, tagFails := []
          waiting := x.unacked ++ x.waiting, unacked := [], credits := [Config.vcCredits, Config.vcCredits]
          keyTx := if me ≤ peer then low else high, keyRx := if me ≤ peer then high else low }) s
        let s := noteId peer peerId s
        let pair := (linkOf s l).pair
        let s := if linkFailed s (devnum s) peer && !pair then
            recompute (updSpan (fun p => { p with failed := p.failed.filter (fun x => x != (devnum s, peer) && x != (peer, devnum s)) }) s)
          else s
        if pair then heard s else sendWaiting l s
      else event 12 1 (updLink l (fun x => { x with st := 1, downAt := s.time.clock }) s)
    else s

/-- The fourth flit of a group (R632): the tag verifies, or the group is to be sent again from its first flit. -/
def groupEnd (l : Nat) (gcmTagOk : Bool) (msg : Option PairRx) (s : State) : State :=
  let x := linkOf s l
  if gcmTagOk then
    let s := updLink l (fun x => { x with group := x.group + 1, inGroup := 0 }) s
    if x.pair then (match msg with
      | some m => pairTraffic m s
      | none => heard s)
    else s
  else
    let back := (x.fseq + 4294967292) % 4294967296
    let fs := x.tagFails.filter (fun t => decide (s.time.clock - t < 1000000000)) ++ [s.time.clock]
    let s := cntLink l 3 1 (cntLink l 2 1 (updLink l (fun x => { x with fseq := back, inGroup := 0, tagFails := fs }) s))
    let s := emit (.spanNak l back) s
    if fs.length ≥ 16 then linkDown l (tagFailLog l fs.length s) else s

/-- A control word: ACK frees what has been sent, NAK sends it again, and the credits returned let what waits go (R312, R630,
R631, R637; log 53). -/
def linkAcks (l : Nat) (c : List Byte) (s : State) : State :=
  let s := if ctlBit c 64 then updLink l (fun x => { x with unacked := [] }) s else s
  let s := if ctlBit c 65 then emits ((linkOf s l).unacked.map (Output.span l)) (cntLink l 2 1 s) else s
  if field c 9 2 = 0 then s
  else sendWaiting l (updLink l (fun x => { x with
    credits := [lget x.credits 0 0 + field c 9 1, lget x.credits 1 0 + field c 10 1] }) s)

/-- SPAN_FLIT_RECEIVE (R312, R630 to R632): idle flits fill gaps and belong to no group; `gcmTagOk` tells how the tag of a
group verifies at its fourth flit. -/
def execSpanFlitReceive (l : Nat) (f : Flit) (gcmTagOk : Bool) (msg : Option PairRx) (s : State) :
    Host.Outcome State Fault Refusal :=
  .next <|
    if (linkOf s l).st = 3 then
      match flitAccept (linkOf s l).fseq f with
      | none => emit (.spanNak l (linkOf s l).fseq) s
      | some c =>
        let s := cntLink l 1 (flitFixed f) (updLink l (fun x => { x with fseq := (x.fseq + 1) % 4294967296 }) s)
        let s := linkAcks l c s
        if ctlBit c 66 then s
        else
          let s := cntLink l 0 1 s
          let n := if ctlBit c 67 then 1 else if (linkOf s l).inGroup = 0 then 0 else (linkOf s l).inGroup + 1
          if n = 4 then groupEnd l gcmTagOk msg s else updLink l (fun x => { x with inGroup := n }) s
    else s

/-! Packets (R640, R641). -/

/-- The next packets of a source that follow the last one delivered without a gap (R641). -/
def advance (src : Nat) : Nat → State → State
  | 0, s => s
  | n + 1, s =>
    let want := mgetD s.span.rxSeq src 0 + 1
    if s.span.ahead.any (fun x => x.2.src == src && x.2.seq == want) then
      advance src n (updSpan (fun p => { p with
        rxSeq := mset p.rxSeq src want, ahead := p.ahead.filter (fun x => !(x.2.src == src && x.2.seq == want)) }) s)
    else s

/-- A packet for this device (R641): delivered in order, discarded as a duplicate, or held ahead of a gap. What a delivered
packet carries is a command of its own (REMOTE_COMMAND, REMOTE_OUTCOME, SHEET_PACKET). -/
def takePacket (k : Packet) (s : State) : State :=
  let last := mgetD s.span.rxSeq k.src 0
  let held := s.span.ahead.filter (fun x => x.2.src == k.src)
  if k.seq ≤ last ∨ held.any (fun x => x.2.seq == k.seq) = true then cntSpn 1 1 s
  else if k.seq = last + 1 then
    let s := updSpan (fun p => { p with rxSeq := mset p.rxSeq k.src k.seq }) s
    let s := advance k.src 64 s
    if s.span.ahead.any (fun x => x.2.src == k.src) then s
    else updSpan (fun p => { p with unreach := p.unreach.filter (· != k.src) }) s
  else if held.length < 64 then updSpan (fun p => { p with ahead := p.ahead ++ [(s.time.clock, k)] }) s
  else s

/-- The link opposite to one, by which a device without a number forwards (R635, log 53). -/
def oppositeLink (l : Nat) : Nat := if l % 2 = 0 then l + 1 else l - 1

/-- SPAN_PACKET_RECEIVE (R635, R637, R641): forwarded, or taken; its credit goes back to the sender. -/
def execSpanPacketReceive (l : Nat) (k : Packet) (s : State) : Host.Outcome State Fault Refusal :=
  .next <|
    if (linkOf s l).st = 3 ∧ (linkOf s l).pair = false then
      let s := emit (.spanCredit l k.vc 1) s
      match s.sys.devnum with
      | none => sendOn (oppositeLink l) k s
      | some d => if k.dst = d then takePacket k s else sendOn ((routeLink s k.dst).getD 0) k s
    else s

/-- SPAN_GAP_TIMEOUT (R641): a gap open for 1 ms makes its source unreachable. -/
def execSpanGapTimeout (src : Nat) (s : State) : Host.Outcome State Fault Refusal :=
  .next <|
    if s.span.ahead.any (fun x => x.2.src == src && decide (s.time.clock - x.1 ≥ 1000000)) && !s.span.unreach.contains src then
      event 12 4 (updSpan (fun p => { p with unreach := p.unreach ++ [src] }) s)
    else s

/-! Commands of other devices (R378 to R381). -/

/-- A ring of this attachment whose entries another device builds (R331, R644): the pinned maps are here, and the salt
comes with the outcome. -/
def attachRing (c : Cmd) (salt : List Byte) (s : State) : State :=
  let m := bits (cw c 12) 4 0
  let f := (cw c 14).toNat
  let n := cCtx c
  if m = 0 then updRing f n (fun _ => default) s
  else writeControl f n (updRing f n (fun _ => { (default : Ring) with
      active := true, m := m, buf := cw64 c 8, ctl := cw64 c 10
      bufMap := toExtents ((lget c.maps 0 none).getD []), ctlMap := toExtents ((lget c.maps 1 none).getD [])
      vec := bits (cw c 12) 15 8, vecEn := bit (cw c 12) 16, salt := salt, first := true, epoch := s.sys.epoch }) s)

/-- REMOTE_OUTCOME (R378, R381): the gateway journals the outcome; one that comes after DEVICE_UNREACHABLE is kept for
span.outcome. -/
def execRemoteOutcome (tok status : Nat) (result : W32) (epoch dev : Nat) (output : List Byte) (s : State) :
    Host.Outcome State Fault Refusal :=
  .next <|
    match jent s tok with
    | some j =>
      if !j.remote || dev != cDev j.cmd then s
      else if j.outcome.isNone then
        let ring := Cmd.opc j.cmd = 0x2004 ∧ status = 0
        let s := if ring then attachRing j.cmd output s else s
        let out := if ring then [] else output
        afterOutcome tok (settleAs epoch dev tok status result out s)
      else updSpan (fun p => { p with late := mset p.late tok status }) s
    | none => s

/-- Every route to a device has been lost for 1 ms, or it counts as unreachable (R380, R639, R641). -/
def unreachable (s : State) (d : Nat) : Bool :=
  s.span.unreach.contains d || s.span.dups.contains d || (mget s.span.lostAt d).any (fun t => decide (s.time.clock - t ≥ 1000000))

/-- GATEWAY_UNREACHABLE (R380): on the device the command stops at its next safe point and is recorded as cancelled; on the
gateway it ends DEVICE_UNREACHABLE. -/
def execGatewayUnreachable (tok : Nat) (s : State) : Host.Outcome State Fault Refusal :=
  .next <|
    match jent s tok with
    | some j =>
      if j.outcome.isSome then s
      else if s.sys.gateway then
        (if j.remote && unreachable s (cDev j.cmd) then
          afterOutcome tok (settleAs s.sys.epoch (cDev j.cmd) tok 0x050B 0 [] s)
         else s)
      else if s.span.foreign.any (fun x => x.1.tok == tok) && unreachable s 0 then
        (if safeAtOnce j then cancel tok 0x0503 s else updJ tok (fun j => { j with mark := .reset }) s)
      else s
    | none => s

/-- SHEET_PACKET (R644): an entry of a ring that another device builds is written through the pinned map, and PROD after
it. A ring that cannot be written keeps the packet waiting at its device. -/
def execSheetPacket (f ring slot : Nat) (octets_ : List Byte) (s : State) : Host.Outcome State Fault Refusal :=
  .next <|
    let r := ringOf s f ring
    if s.sys.gateway && inService s && r.active && !r.stopped && dmaOk s f && !r.bufMap.isEmpty then
      putEntry f ring slot octets_ (updRing f ring (fun r => if ring = 4 then r else { r with lastSlot := slot, first := false }) s)
    else s

/-- NUMBER_PACKET (R635): flooded on; the device whose DEVID matches takes the number, a numbered one only in SERVICE. -/
def execNumberPacket (devid : List Byte) (num : Nat) (s : State) : Host.Outcome State Fault Refusal :=
  .next <|
    if s.sys.startup || s.sys.held then s
    else if devid = devId then
      (if num < 64 ∧ (s.sys.devnum = none ∨ mode s = 4) then { s with sys := { s.sys with devnum := some num } } else s)
    else if s.sys.gateway then s
    else flood 7 num devid s

/-! The span. commands. -/

/-- span.cfg (R633, R635, R636; layout: log 53): input DEVID; word 8 number; word 9 in the layout of SPN_DOMAIN; words 10
and 11 the key slots of links 0 to 3, 16 bits each, 0xFFFF for none. -/
def spanCfgRow : OpRow :=
  { opc := 0xE001, who := 0, ctx := 0, inp := true, out := false, params := [0x3F, 0x7FFF, 0xFFFFFFFF, 0xFFFFFFFF] }

/-- TOPO, N, X, Y of word 9. -/
def scTopo (c : Cmd) : Nat × Nat × Nat × Nat :=
  (bits (cw c 9) 1 0, bits (cw c 9) 8 2, bits (cw c 9) 11 9 + 1, bits (cw c 9) 14 12 + 1)

/-- Key slot of link l. -/
def scSlot (c : Cmd) (l : Nat) : Option Nat :=
  let v := bits (cw c (10 + l / 2)) (16 * (l % 2) + 15) (16 * (l % 2))
  if v = 0xFFFF then none else some v

def spanCfgPre (c : Cmd) : Option Nat :=
  let (t, n, x, y) := scTopo c
  firstFail
    [(cLen c != 64, 0x0106),
     (t == 3 || (t == 1 && (decide (n < 2) || decide (n > 64))) || (t == 2 && (decide (x < 2) || decide (y < 2))), 0x0106)]

/-- The command changes this device's number or topology. -/
def scChanges (c : Cmd) (s : State) : Bool :=
  let (t, n, x, y) := scTopo c
  (c.input == devId && s.sys.devnum.isSome && s.sys.devnum != some (cw c 8).toNat) ||
  (t, n, x, y) != (s.span.topo, s.span.ringN, s.span.x, s.span.y)

/-- R633 key slots, R635, R636. A device that has never been numbered takes its topology in any mode that accepts the
command (log 53). -/
def spanCfgCheck (c : Cmd) (s : State) : Option Nat :=
  let (t, n, x, y) := scTopo c
  let size := if t = 1 then n else if t = 2 then x * y else 1
  let bad := (List.range 4).filterMap (fun l => (scSlot c l).bind (fun k =>
    match slotFail s k [3] with
    | some st => some st
    | none => if ((mget s.keys.slots k).getD default).ktype = 5 ∧ (slotKey s k).length = 32 then none else some 0x0303))
  firstFail
    [(decide ((cw c 8).toNat ≥ size), 0x0704), (s.sys.devnum.isSome && mode s != 4 && scChanges c s, 0x0201),
     (!bad.isEmpty, lget bad 0 0)]

/-- The topology and the link keys of this device, and the number: its own, or flooded as a numbering packet (R635). A
change of topology takes away the links that had PAIR where they no longer may (R638). -/
def spanCfgEff (c : Cmd) (s : State) : Eff :=
  let (t, n, x, y) := scTopo c
  let num := (cw c 8).toNat
  let s := updSpan (fun p => { p with
    topo := t, ringN := n, x := x, y := y
    links := (List.range 4).map (fun l =>
      let k := lget p.links l default
      { k with keySlot := scSlot c l, pair := k.pair && (t == 0 || (t == 1 && decide (l ≥ 2))) }) }) s
  if c.input = devId then done { s with sys := { s.sys with devnum := some num } } else done (flood 7 num c.input s)

/-- SPAN_CFG (R635). -/
def execSpanCfg (c : Cmd) (s : State) : Host.Outcome State Fault Refusal := .next (runConfig spanCfgCheck spanCfgEff c s)

/-- SPN_DOMAIN and SPN_Ll (R647). -/
def spnDomain (s : State) : W32 := pack [(s.span.topo, 0), (s.span.ringN, 2), (s.span.x - 1, 9), (s.span.y - 1, 12)]
def spnLink (s : State) (l : Nat) : W32 :=
  pack [((linkOf s l).st, 0), (b2n (linkOf s l).pair, 2), ((linkOf s l).peer, 3)]

/-- span.status (R635; layout: log 53): SPN_STATUS, SPN_DOMAIN, four SPN_Ll, the route of each device (0xFF none), the
count of unnumbered neighbours and their DEVIDs. -/
def spanStatusRow : OpRow := { opc := 0xE002, who := 0, ctx := 0, inp := false, out := true, params := [] }
def spanStatusPre (c : Cmd) : Option Nat := firstFail [(decide (cOutLen c < 92), 0x0106)]
def spanStatusEff (c : Cmd) (s : State) : Eff :=
  output c (w32le (spnStatus s) ++ w32le (spnDomain s) ++ (List.range 4).flatMap (fun l => w32le (spnLink s l)) ++
    (List.range 64).map (fun d => BitVec.ofNat 8 (if d < domainSize s ∧ d ≠ devnum s then (routeLink s d).getD 255 else 255)) ++
    leOctets 4 s.span.unnumbered.length ++ s.span.unnumbered.flatMap (fit 64)) s

/-- SPAN_STATUS (R635). -/
def execSpanStatus (c : Cmd) (s : State) : Host.Outcome State Fault Refusal := .next (runPlain noCheck spanStatusEff c s)

/-- span.route (R638; layout: log 53): an input of 64 octets is the new route table, 0xFF for the default route; word 8 [0]
dedicates link [2:1] as the pair link, [3] ends a dedication. -/
def spanRouteRow : OpRow := { opc := 0xE003, who := 0, ctx := 0, inp := true, out := false, params := [0xF] }
def spanRoutePre (c : Cmd) : Option Nat := firstFail [(cLen c != 0 && cLen c != 64, 0x0106), (bit (cw c 8) 0 && bit (cw c 8) 3, 0x0106)]

/-- Output links of the input. -/
def srTable (c : Cmd) : List Nat := c.input.map (·.toNat)

/-- A pair link is SL2 or SL3 on a ring and none on a torus; no route leaves by it (R636, R638). -/
def spanRouteCheck (c : Cmd) (s : State) : Option Nat :=
  let l := bits (cw c 8) 2 1
  let isPair (k : Nat) : Bool := if bit (cw c 8) 0 then k == l else !bit (cw c 8) 3 && (linkOf s k).pair
  firstFail
    [((srTable c).any (fun k => decide (k > 3) && k != 255), 0x0106),
     (bit (cw c 8) 0 && (s.span.topo == 2 || (s.span.topo == 1 && decide (l < 2))), 0x0704),
     ((srTable c).any (fun k => decide (k ≤ 3) && isPair k), 0x0704)]

def spanRouteEff (c : Cmd) (s : State) : Eff :=
  let t := srTable c
  let table : Map Nat := (List.range 64).filterMap (fun d => if lget t d 255 ≤ 3 then some (d, lget t d 255) else none)
  done (updSpan (fun p => { p with
    routes := if cLen c = 0 then p.routes else table
    links := (List.range 4).map (fun k =>
      let x := lget p.links k default
      { x with pair := if bit (cw c 8) 0 then k == bits (cw c 8) 2 1 else x.pair && !bit (cw c 8) 3 }) }) s)

/-- SPAN_ROUTE (R638). -/
def execSpanRoute (c : Cmd) (s : State) : Host.Outcome State Fault Refusal := .next (runConfig spanRouteCheck spanRouteEff c s)

/-- span.outcome (R381): words 8 and 9 acceptance token; the status in the result word. On the gateway the command waits
until the device's outcome has come back. -/
def spanOutcomeRow : OpRow :=
  { opc := 0xE004, who := 3, ctx := 0, inp := false, out := false, params := [0xFFFFFFFF, 0xFFFFFFFF] }

/-- The outcome of the token as this device knows it: of a command that it executed, or one returned to the gateway. -/
def spanOutcomeOf (t : Nat) (s : State) : Option Nat :=
  match s.span.foreign.find? (fun x => x.1.tok == t) with
  | some x => x.2.map (·.status)
  | none => match mget s.span.late t with
    | some st => some st
    | none => (jent s t).bind (fun j => if j.remote then j.outcome.bind (fun o => if o.status = 0x050B then none else some o.status) else none)

/-- SPAN_OUTCOME (R381). -/
def execSpanOutcome (c : Cmd) (s : State) : Host.Outcome State Fault Refusal :=
  .next <|
    if runnable s c then
      let t := cw64 c 8
      match spanOutcomeOf t s with
      | some st => settle c.tok 0 (BitVec.ofNat 32 st) [] s
      | none =>
        match jent s t with
        | some j =>
          if j.remote then (if unreachable s (cDev j.cmd) then settle c.tok 0x050B 0 [] s else s)
          else if s.span.foreign.any (fun x => x.1.tok == t) then s
          else settle c.tok 0x0705 0 [] s
        | none => if s.span.foreign.any (fun x => x.1.tok == t) then s else settle c.tok 0x0705 0 [] s
    else s

end Sys2Proof.Machine
end

