-- ==== Sys2Proof/Machine/Windows.lean ====
section
/-! DEFINITION. Windows.lean: the register windows of the BARs (R319, R324 to R327 and each block's map): the value of
each 32-bit register, and the 64-bit values that span a LO and a HI register. Offsets that no map lists read 0. -/
namespace Sys2Proof.Machine

/-- Register number i of n registers of 4 octets each from an offset. -/
def regIndex (base n off : Nat) : Option Nat := if base ≤ off ∧ off < base + 4 * n then some ((off - base) / 4) else none

/-- LO register of counter i in a block of 64-bit counters. -/
def ctrAt (base : Nat) (l : List Nat) (off : Nat) : Option Nat :=
  if base ≤ off ∧ (off - base) % 8 = 0 then l[(off - base) / 8]? else none

/-- A value of a list of registers by offset. -/
def assoc {α : Type} (l : List (Nat × α)) (off : Nat) : Option α := (l.find? (fun x => x.1 == off)).map (·.2)

/-- A signed value as a 64-bit or 32-bit register field. -/
def natOf32 (i : Int) : Nat := (w32OfInt i).toNat

/-! SYS_ (R324). -/

def sysLink (s : State) : W32 :=
  pack [(s.sys.rate, 0), (b2n s.sys.repaired, 3), (s.sys.ideLink, 4), (b2n s.sys.ideReq, 6),
        ((s.sys.ideSel.map (fun e => 2 ^ e.1)).sum % 65536, 8)]
def sysFuncs (s : State) : W32 :=
  pack [(if s.sys.vfe then s.sys.numVfs else 0, 0), (b2n s.sys.vfe, 7), (shareCount s, 8), (cacheCap s, 16)]
def sysReg (s : State) (off : Nat) : Option W32 :=
  assoc [(0x00, sysIdWord), (0x04, sysFwverWord s), (0x08, sysModeWord s), (0x0C, s.sys.evt), (0x20, sysLink s), (0x24, sysFuncs s)] off
def sysLo (s : State) (off : Nat) : Option Nat :=
  assoc [(0x10, s.sys.epoch), (0x18, s.sys.token), (0x30, s.sys.lathCorr), (0x38, s.sys.replay)] off

/-! QUE_, VFQ_, VFH_, VFS_ (R325 to R327). -/

/-- QSTATE: PAUSED while Bus Master Enable is clear, ERROR during a reset of the function (R337, R355). -/
def qState (x : Fn) (q : Queue) : Nat := if q.st = 0 then 0 else if x.fenced then 2 else if !x.bme then 3 else q.st
def qStatus (s : State) (f i : Nat) : W32 :=
  let q := queueOf s f i
  pack [(qState (fnOf s f) q, 0), (q.cause, 2)]
def ledgerReg (s : State) (f : Nat) : W32 := pack [((fnOf s f).ledger.length, 0), (b2n (fnOf s f).unread, 31)]
def ringStatus (r : Ring) : W32 := pack [(b2n r.active, 0), (b2n r.stopped, 1), (b2n r.badCons, 2), (b2n r.full, 3)]

/-- Block of ring r, at 0x10 × r of the ring block (R327). -/
def ringReg (s : State) (f off : Nat) : Option W32 :=
  if off / 16 < 5 then
    (match off % 16 with
     | 0 => some (ringOf s f (off / 16)).cons
     | 4 => some (ringStatus (ringOf s f (off / 16)))
     | _ => none)
  else none
def ringLo (s : State) (f off : Nat) : Option Nat :=
  if off / 16 < 5 ∧ off % 16 = 8 then some (ringOf s f (off / 16)).prod else none

def queReg (s : State) (f off : Nat) : Option W32 :=
  match regIndex 0x100 16 off with
  | some i => some (qStatus s f i)
  | none => if off = 0x200 then some (ledgerReg s f) else if f = 0 ∧ off ≥ 0x800 then ringReg s f (off - 0x800) else none
def queLo (s : State) (f off : Nat) : Option Nat := if f = 0 ∧ off ≥ 0x800 then ringLo s f (off - 0x800) else none

def vfsStatus (s : State) (f : Nat) : W32 :=
  let x := fnOf s f
  pack [(b2n x.fenced, 0), (b2n (!x.rootBound), 1), (b2n x.unread, 2), (b2n (!x.bme), 3)]
def vfsReg (s : State) (f off : Nat) : Option W32 :=
  assoc [(0x00, pack [(f, 0), (0x9612, 16)]), (0x04, sysModeWord s &&& 0x1F), (0x08, vfsStatus s f), (0x0C, (fnOf s f).evt)] off
def vfsLo (s : State) (off : Nat) : Option Nat := if off = 0x10 then some s.sys.epoch else none

/-! TMP_ (R562). -/

def tmpReg (s : State) (off : Nat) : Option W32 :=
  match regIndex 0x100 18 off with
  | some i => some (lget s.tamper.srcs i default).cfg.val
  | none => assoc
    [(0x00, tmpStatus s), (0x04, s.tamper.evt),
     (0x08, pack ((List.range 18).map (fun i => (b2n (lget s.tamper.srcs i default).cond, i)))), (0x0C, s.tamper.sticky),
     (0x10, pack [(s.tamper.steps, 0), (64 - s.tamper.steps, 8)]), (0x14, s.tamper.bperiod.val), (0x18, s.tamper.lastz),
     (0x1C, pack [(s.tamper.vdd, 0)]), (0x20, pack [(s.tamper.vbat, 0)]), (0x24, w32OfInt s.tamper.temp &&& 0xFFFF)] off
def tmpLo (s : State) (off : Nat) : Option Nat := ctrAt 0x200 (s.tamper.srcs.map (·.alarms)) off

/-! EVR_ (R628), BGT_ (R401). -/

def evrReg (s : State) (off : Nat) : Option W32 :=
  assoc [(0x00, evrStatus s), (0x04, s.log.evt), (0x08, pack [(logUsed s, 0)])] off
def evrLo (s : State) (off : Nat) : Option Nat :=
  ctrAt 0x100 [s.log.nextSeq, firstSeq s, s.log.overflow, s.log.dropped, s.log.overwritten] off

/-- Engine and class of a table register at 0x40 × e + 4 × c. -/
def bgtPlace (off : Nat) : Option (Nat × Nat) :=
  if off < 0x1C0 ∧ off % 0x40 < 0x28 then some (off / 0x40, off % 0x40 / 4) else none
def bgtReg (s : State) (off : Nat) : Option W32 :=
  match regIndex 0x800 65 off with
  | some f => some (bgtFn s f)
  | none =>
    if 0x100 ≤ off ∧ off < 0x300 then (bgtPlace (off - 0x100)).map (fun x => pack [(unitsOf s x.1 x.2, 0)])
    else if 0x400 ≤ off ∧ off < 0x600 then
      (bgtPlace (off - 0x400)).map (fun x => pack [(if hostClass x.2 then quantum s x.1 x.2 else 0, 0)])
    else assoc
      [(0x00, bgtStatus s), (0x04, s.budget.evt), (0x08, pack [(s.budget.p, 0), (s.budget.src, 16), (s.budget.grid, 18)]),
       (0x0C, pack [(s.budget.wait, 0)])] off
def bgtLo (s : State) (off : Nat) : Option Nat :=
  if off = 0x10 then some s.budget.tepoch else ctrAt 0x300 s.budget.cnt off

/-! TIM_ (R87). -/

def bpReg (s : State) (b off : Nat) : Option W32 :=
  let x := bpOf s b
  assoc
    [(0x00, pack [(x.ptp, 0), (b2n x.lanB, 3), (b2n x.qualified, 4), (b2n (x.annToA && x.annToB), 5), (x.clockClass, 8)]),
     (0x0C, BitVec.ofNat 32 (if x.lanB then x.mpdB else x.mpdA)), (0x18, pack [(x.mrate, 0)])] off
def bpLo (s : State) (b off : Nat) : Option Nat := assoc [(0x04, (bpOf s b).gm), (0x10, curSlot s b)] off

def cycReg (s : State) (n off : Nat) : Option W32 :=
  let t := lget s.time.trk n default
  assoc
    [(0x00, pack [(t.st, 0), (b2n t.alt, 2), (t.coasted, 4), (((refInUse t).getD default).chan, 8), (((refInUse t).getD default).stream, 12)]),
     (0x04, BitVec.ofNat 32 t.freq), (0x08, BitVec.ofNat 32 t.ffreq), (0x1C, pack [(t.xfrac, 0)])] off
def cycLo (s : State) (n off : Nat) : Option Nat :=
  let t := lget s.time.trk n default
  assoc [(0x0C, t.count), (0x14, t.xslot)] off

def timReg (s : State) (off : Nat) : Option W32 :=
  if 0x40 ≤ off ∧ off < 0xC0 then bpReg s ((off - 0x40) / 0x20) (off % 0x20)
  else if 0xC0 ≤ off ∧ off < 0x140 then cycReg s ((off - 0xC0) / 0x20) (off % 0x20)
  else assoc
    [(0x00, timStatus s), (0x04, s.time.evt), (0x10, BitVec.ofNat 32 (errEst s)), (0x14, w32OfInt s.time.offset),
     (0x18, w32OfInt s.time.fadj), (0x1C, (w32OfInt s.time.utc &&& 0xFFFF) ||| pack [(b2n s.time.utcValid, 16)]),
     (0x20, w32OfInt s.time.ppsOff), (0x24, BitVec.ofNat 32 s.time.srcChanges)] off
def timLo (s : State) (off : Nat) : Option Nat :=
  if 0x40 ≤ off ∧ off < 0xC0 then bpLo s ((off - 0x40) / 0x20) (off % 0x20)
  else if 0xC0 ≤ off ∧ off < 0x140 then cycLo s ((off - 0xC0) / 0x20) (off % 0x20)
  else if off = 0x08 then some s.time.tai else none

/-! SKM_ with the port blocks (R117, R165). -/

def portReg (s : State) (n off : Nat) : Option W32 :=
  if off = 0 then some (pbStatus s n) else if off = 4 then some (lget s.ports n default).evt else none
def portLo (s : State) (n off : Nat) : Option Nat := ctrAt 0x10 (lget s.ports n default).cnt off

def skmReg (s : State) (off : Nat) : Option W32 :=
  if 0x800 ≤ off ∧ off < 0x1000 then portReg s ((off - 0x800) / 0x100) (off % 0x100)
  else assoc
    [(0x00, skmStatus s), (0x04, s.skim.evt), (0x08, pack [(s.skim.buf / 1024, 0), (s.skim.bufHigh, 16)]),
     (0x0C, pack [((s.skim.ctx.filter (fun e => alwaysResident e.2)).length % 65536, 0), (s.skim.resident.length, 16)]),
     (0x10, pack [(s.skim.sources.length, 0)]), (0x14, pack [(outFetches s, 0), (s.skim.missHigh, 16)])] off
def skmLo (s : State) (off : Nat) : Option Nat :=
  if 0x800 ≤ off ∧ off < 0x1000 then portLo s ((off - 0x800) / 0x100) (off % 0x100) else ctrAt 0x100 s.skim.cnt off

/-! HWK_ (R215), TRW_ (R252). -/

def hwkReg (s : State) (off : Nat) : Option W32 :=
  assoc
    [(0x00, hwkStatus s), (0x04, s.hawk.evt), (0x08, pack [(s.hawk.depth, 0)]),
     (0x0C, pack [(min 31 s.hawk.recs.length, 0)]), (0x10, BitVec.ofNat 32 s.hawk.closeMax)] off
def hwkLo (s : State) (off : Nat) : Option Nat := ctrAt 0x100 s.hawk.cnt off

/-- Programs placed on core c, in the order of their numbers. -/
def progsOn (s : State) (c : Nat) : Map Prog := s.trowel.progs.filter (fun e => e.2.core == c && e.2.st != 4)
def coreReg (s : State) (c : Nat) : W32 :=
  let st := if s.trowel.retired.contains c then 2 else if (lget s.trowel.running c none).isSome then 1 else 0
  pack [(st, 0), ((progsOn s c).length, 2), (((progsOn s c).map (fun e => e.2.img.budget + 64)).sum, 6)]
def progReg (s : State) (p : Nat) : W32 :=
  match progOf s p with
  | some g => pack [(if g.swap.isSome then 5 else g.st, 0), (g.core, 3), (g.pslot, 9), (b2n g.stopped, 12), (bits g.cause 7 0, 16)]
  | none => 0
def trwReg (s : State) (off : Nat) : Option W32 :=
  match regIndex 0x800 512 off with
  | some p => some (progReg s p)
  | none => match regIndex 0x200 64 off with
    | some c => some (coreReg s c)
    | none => assoc
      [(0x00, trwStatus s), (0x04, s.trowel.evt), (0x08, pack [(64 - s.trowel.retired.length, 0), (s.trowel.retired.length, 8)]),
       (0x0C, pack [(s.trowel.progs.length, 0), (s.trowel.derived.length, 16)])] off
def trwLo (s : State) (off : Nat) : Option Nat := ctrAt 0x100 s.trowel.cnt off

/-! SLR_ (R543), KST_ (R506), RNG_ (R477). -/

def slrHbm (s : State) : W32 :=
  pack [(s.sealer.stack, 0), (b2n s.sealer.fast, 2), (s.sealer.inserv.toNat, 8), (s.sealer.retired.getD 0, 24),
        (b2n s.sealer.retired.isSome, 28)]
def regionReg (s : State) (r off : Nat) : Option W32 :=
  let x := lget s.sealer.regs r default
  assoc [(0x0, pack [(x.size, 0)]), (0x4, BitVec.ofNat 32 x.kepoch),
         (0x8, pack [(match x.walk with | some w => w * 65536 / max 1 (regSectors s r) % 65536 | none => 0, 0), (b2n x.walk.isSome, 16)])] off
def slrReg (s : State) (off : Nat) : Option W32 :=
  if 0x200 ≤ off ∧ off < 0x2A0 then regionReg s ((off - 0x200) / 0x10) (off % 0x10)
  else assoc
    [(0x00, slrStatus s), (0x04, s.sealer.evt), (0x08, slrHbm s), (0x0C, s.sealer.fail), (0x18, pack [(s.sealer.vol.gib, 0)])] off
def slrLo (s : State) (off : Nat) : Option Nat :=
  if off = 0x10 then some s.sealer.failLbn else ctrAt 0x100 s.sealer.cnt off

def kstReg (s : State) (off : Nat) : Option W32 :=
  assoc
    [(0x00, kstStatus s), (0x04, s.keys.evt), (0x08, BitVec.ofNat 32 s.keys.ucount), (0x0C, kstOwner s),
     (0x10, kstSlots s),
     (0x14, pack [(poolFree s, 0)])] off
def kstLo (s : State) (off : Nat) : Option Nat := ctrAt 0x100 s.keys.cnt off

def srcReg (s : State) (i : Nat) : W32 :=
  let x := lget s.rng.srcs i default
  pack [(x.st, 0), (x.lastFail, 2), (x.fails, 8)]
def rngReg (s : State) (off : Nat) : Option W32 :=
  match regIndex 0x10 4 off with
  | some i => some (srcReg s i)
  | none => assoc [(0x00, rngStatus s), (0x04, s.rng.evt), (0x08, pack [(s.rng.pool.length, 0)])] off
def rngLo (s : State) (off : Nat) : Option Nat := ctrAt 0x100 s.rng.cnt off

/-! ENG_ with the PKE part (R433, R459). -/

def unitReg (s : State) (i : Nat) : W32 :=
  let u := lget s.pke.units i default
  pack [(u.owner, 0), (u.alg, 8), (b2n u.busy, 16)]
def engReg (s : State) (off : Nat) : Option W32 :=
  match regIndex 0x410 4 off with
  | some i => some (unitReg s i)
  | none => assoc
    [(0x00, engStatus s), (0x04, s.eng.evt), (0x08, s.eng.mismatch),
     (0x0C, pack [((s.skim.ctx.filter (fun e => e.2.kind == 7)).length, 0)]),
     (0x400, pkeStatus s), (0x404, s.pke.evt), (0x408, s.pke.mismatch)] off
def engLo (s : State) (off : Nat) : Option Nat := if off < 0x400 then ctrAt 0x100 s.eng.cnt off else ctrAt 0x500 s.pke.cnt off

/-! SPN_ (R647), PRC_ (R590), DDO_ (R338). -/

def spnReg (s : State) (off : Nat) : Option W32 :=
  match regIndex 0x10 4 off with
  | some l => some (spnLink s l)
  | none => assoc [(0x00, spnStatus s), (0x04, s.span.evt), (0x08, spnDomain s)] off
def spnLo (s : State) (off : Nat) : Option Nat :=
  if 0x100 ≤ off ∧ off < 0x200 then ctrAt 0 (linkOf s ((off - 0x100) / 0x40)).cnt (off % 0x40) else ctrAt 0x300 s.span.cnt off

def prcReg (s : State) (off : Nat) : Option W32 :=
  assoc
    [(0x00, prcStatus s), (0x04, s.pair.evt), (0x08, BitVec.ofNat 32 s.pair.gen),
     (0x0C, pack [(s.pair.partner, 0), (s.pair.link, 8), (s.pair.silence, 16)]), (0x18, pack [(min 127 (heldCount s), 0)])] off
def prcLo (s : State) (off : Nat) : Option Nat := if off = 0x10 then some s.pair.lastHb else ctrAt 0x100 s.pair.cnt off

def ddoFn (s : State) (f : Nat) : W32 := pack [((fnOf s f).cache.length, 0), ((fnOf s f).faults, 16)]
def ddoReg (s : State) (off : Nat) : Option W32 :=
  match regIndex 0x804 64 off with
  | some i => some (ddoFn s (i + 1))
  | none => assoc [(0x00, ddoStatus s), (0x04, s.sys.ddoEvt), (0x08, s.sys.ddoFault)] off
def ddoLo (s : State) (off : Nat) : Option Nat := if off = 0x0C then some s.sys.ddoIova else ctrAt 0x100 s.sys.ddoCnt off

/-! The BARs (R319). -/

/-- A 32-bit register of function f at an offset of its BAR0. -/
def barReg (s : State) (f off : Nat) : Option W32 :=
  let o := off % 4096
  if f = 0 then
    match off / 4096 with
    | 0 => sysReg s o
    | 1 => tmpReg s o
    | 2 => evrReg s o
    | 3 => bgtReg s o
    | 4 => timReg s o
    | 5 => skmReg s o
    | 6 => hwkReg s o
    | 7 => trwReg s o
    | 8 => slrReg s o
    | 9 => kstReg s o
    | 10 => rngReg s o
    | 11 => engReg s o
    | 12 => spnReg s o
    | 13 => prcReg s o
    | 14 => ddoReg s o
    | 15 => queReg s 0 o
    | _ => none
  else
    match off / 4096 with
    | 0 => vfsReg s f o
    | 1 => queReg s f o
    | 2 => ringReg s f o
    | _ => none

/-- The 64-bit value whose LO register lies at an offset. -/
def barLo (s : State) (f off : Nat) : Option Nat :=
  let o := off % 4096
  if f = 0 then
    match off / 4096 with
    | 0 => sysLo s o
    | 1 => tmpLo s o
    | 2 => evrLo s o
    | 3 => bgtLo s o
    | 4 => timLo s o
    | 5 => skmLo s o
    | 6 => hwkLo s o
    | 7 => trwLo s o
    | 8 => slrLo s o
    | 9 => kstLo s o
    | 10 => rngLo s o
    | 11 => engLo s o
    | 12 => spnLo s o
    | 13 => prcLo s o
    | 14 => ddoLo s o
    | 15 => queLo s 0 o
    | _ => none
  else
    match off / 4096 with
    | 0 => vfsLo s o
    | 2 => ringLo s f o
    | _ => none

/-- Some HI register lies at an offset. -/
def isHi (s : State) (f off : Nat) : Bool := decide (off ≥ 4) && (barLo s f (off - 4)).isSome

/-- Key of a latched HI register. -/
def latchKey (f off : Nat) : Nat := f * 65536 + off

/-- What a read of a register returns: a LO register's low half, a HI register as its LO register latched it (R87), else the
register; an offset that no map lists reads 0 (R319). -/
def barValue (s : State) (f off : Nat) : W32 :=
  match barLo s f off with
  | some v => BitVec.ofNat 32 v
  | none => if isHi s f off then mgetD s.sys.hiLatch (latchKey f off) 0 else (barReg s f off).getD 0

end Sys2Proof.Machine
end

