-- ==== Sys2Proof/Machine/Host.lean ====
section
/-! DEFINITION. Host.lean: the host attachment (R309 to R327, R336, R339): doorbells, register reads and writes, resets
that the host starts, VF Enable, SPDM, and the UCIe link. -/
namespace Sys2Proof.Machine

/-! Doorbells (R353 to R355). -/

/-- The host has issued work (R587). -/
def hostActs (s : State) : State := { s with sys := { s.sys with hostAt := s.time.clock } }

/-- A queue pair takes doorbells: it runs and its function is not fenced (R342, R355). -/
def takesBell (s : State) (f q : Nat) : Bool := (queueOf s f q).st == 1 && !(fnOf s f).fenced

/-- A new submission tail (R353, R355). -/
def writeTail (f q : Nat) (v : W32) (s : State) : State :=
  let t := bits v 11 0
  if !takesBell s f q then s
  else if t ≥ (queueOf s f q).n then queueError f q 1 s
  else hostActs (updQueue f q (fun x => { x with tail := t }) s)

/-- SQ_TAIL_DOORBELL (R353); while the pair is NONE the write is QUEUE_BOOTSTRAP (R357) or ignored. -/
def execSqTailDoorbell (f q : Nat) (v : W32) (s : State) : Host.Outcome State Fault Refusal :=
  .next (barWrite f (writeTail f q v) s)

/-- A journal entry whose completion has been released is no longer kept (R371). -/
def forgetTok (tok : Nat) (s : State) : State :=
  match jent s tok with
  | some j => if j.ledgered then s else mirrorItem (.released tok) { s with journal := mdel s.journal tok }
  | none => s

/-- A new completion head (R354, R355): the entries before it are released, none that is not written. -/
def writeHead (f q : Nat) (v : W32) (s : State) : State :=
  let h := bits v 11 0
  let x := queueOf s f q
  if !takesBell s f q then s
  else if h ≥ x.n then queueError f q 2 s
  else
    let d := (h + x.n - x.released % x.n) % x.n
    if d > x.written - x.released then queueError f q 2 s
    else
      let toks := x.unreleased.take d
      toks.foldl (fun s t => forgetTok t s)
        (updQueue f q (fun x => { x with released := x.released + d, unreleased := x.unreleased.drop d }) s)

/-- CQ_HEAD_DOORBELL (R354). -/
def execCqHeadDoorbell (f q : Nat) (v : W32) (s : State) : Host.Outcome State Fault Refusal :=
  .next (barWrite f (writeHead f q v) s)

/-! W1C registers (R12). -/

/-- Clears the bits written as 1. -/
def w1c (v old : W32) : W32 := old &&& ~~~v

/-- The main EVT register of a window. -/
def clearEvt (w : Nat) (v : W32) (s : State) : State :=
  match w with
  | 0 => { s with sys := { s.sys with evt := w1c v s.sys.evt } }
  | 1 => { s with tamper := { s.tamper with evt := w1c v s.tamper.evt } }
  | 2 => { s with log := { s.log with evt := w1c v s.log.evt } }
  | 3 => { s with budget := { s.budget with evt := w1c v s.budget.evt } }
  | 4 => { s with time := { s.time with evt := w1c v s.time.evt } }
  | 5 => { s with skim := { s.skim with evt := w1c v s.skim.evt } }
  | 6 => { s with hawk := { s.hawk with evt := w1c v s.hawk.evt } }
  | 7 => { s with trowel := { s.trowel with evt := w1c v s.trowel.evt } }
  | 8 => { s with sealer := { s.sealer with evt := w1c v s.sealer.evt } }
  | 9 => { s with keys := { s.keys with evt := w1c v s.keys.evt } }
  | 10 => { s with rng := { s.rng with evt := w1c v s.rng.evt } }
  | 11 => { s with eng := { s.eng with evt := w1c v s.eng.evt } }
  | 12 => { s with span := { s.span with evt := w1c v s.span.evt } }
  | 13 => { s with pair := { s.pair with evt := w1c v s.pair.evt } }
  | 14 => { s with sys := { s.sys with ddoEvt := w1c v s.sys.ddoEvt } }
  | _ => s

/-- A W1C register of function f at an offset; none where no W1C register lies there. -/
def w1cAt (f off : Nat) (v : W32) (s : State) : Option State :=
  let w := off / 4096
  let o := off % 4096
  if f ≠ 0 then (if off = 0x0C then some (updFn f (fun x => { x with evt := w1c v x.evt }) s) else none)
  else if w = 0 ∧ o = 0x0C then some (clearEvt 0 v s)
  else if 1 ≤ w ∧ w ≤ 14 ∧ o = 4 then some (clearEvt w v s)
  else if w = 5 ∧ o ≥ 0x800 ∧ o % 0x100 = 4 then some (updPort ((o - 0x800) / 0x100) (fun p => { p with evt := w1c v p.evt }) s)
  else if w = 11 ∧ o = 0x404 then some { s with pke := { s.pke with evt := w1c v s.pke.evt } }
  else none

/-- EVT_W1C_WRITE (R12). -/
def execEvtW1cWrite (f off : Nat) (v : W32) (s : State) : Host.Outcome State Fault Refusal :=
  .next (barWrite f (fun s => (w1cAt f off v s).getD s) s)

/-- A doorbell of the QUE_ or VFQ_ window. -/
def writeBell (f o : Nat) (v : W32) (s : State) : State :=
  if o < 0x80 then (if o % 8 = 0 then writeTail f (o / 8) v s else if o % 8 = 4 then writeHead f (o / 8) v s else s) else s

/-- A register of a ring block: only Rr_CONS takes writes. -/
def writeRing (f o : Nat) (v : W32) (s : State) : State := if o / 16 < 5 ∧ o % 16 = 0 then writeCons f (o / 16) v s else s

/-- A write to a register under its type (R12): RO, SH and reserved offsets ignore it; no register of the maps is RWL. -/
def writeRegister (f off : Nat) (v : W32) (s : State) : State :=
  match w1cAt f off v s with
  | some s => s
  | none =>
    let w := off / 4096
    let o := off % 4096
    if f = 0 then
      (if off = 0x28 then writeReset v s
       else if w = 15 then (if o ≥ 0x800 then writeRing 0 (o - 0x800) v s else writeBell 0 o v s)
       else s)
    else if w = 1 then writeBell f o v s
    else if w = 2 then writeRing f o v s
    else s

/-- REGISTER_WRITE (R12). -/
def execRegisterWrite (f off : Nat) (v : W32) (s : State) : Host.Outcome State Fault Refusal :=
  .next (barWrite f (writeRegister f off v) s)

/-! Reads (R12, R87, R549). -/

/-- A memory read of the host from a BAR of function f: Unsupported Request in START-UP and under the IDE policy (R320,
R323). -/
def barRead (f off : Nat) (g : State → State) (s : State) : State :=
  if s.sys.held || !fnEnabled s f then s
  else if s.sys.startup then emit (.unsupported f) s
  else if ideDrop s f then emit (.unsupported f) (event 0 4 s)
  else g (emit (.mmio f off (barValue s f off)) s)

/-- The field at an SH register's offset holds its two copies as complements; offsets without an SH field always do. -/
def shGood (s : State) (off : Nat) : Bool :=
  let o := off % 4096
  match off / 4096 with
  | 0 => o != 8 || s.sys.mode.good
  | 1 => (match regIndex 0x100 18 o with
    | some i => (lget s.tamper.srcs i default).cfg.good
    | none => o != 0x14 || s.tamper.bperiod.good)
  | 3 => !((decide (0x100 ≤ o ∧ o < 0x300) && (bgtPlace (o - 0x100)).isSome) || (decide (0x400 ≤ o ∧ o < 0x600) && (bgtPlace (o - 0x400)).isSome)) ||
      s.budget.tableInv == Budget.shadowOf s.budget.table
  | _ => true

/-- What a read changes: a LO register latches its HI register (R87), and an SH field whose copies differ is an event of
source 15 (R549); the value returned is the one stored. -/
def readEffect (f off : Nat) (s : State) : State :=
  match barLo s f off with
  | some v => { s with sys := { s.sys with hiLatch := mset s.sys.hiLatch (latchKey f (off + 4)) (BitVec.ofNat 32 (v / 4294967296)) } }
  | none => if f ≠ 0 ∨ shGood s off then s else tamperDetect 15 s

/-- LO_REGISTER_READ (R87). -/
def execLoRegisterRead (f off : Nat) (s : State) : Host.Outcome State Fault Refusal := .next (barRead f off (readEffect f off) s)

/-- SH_FIELD_READ (R549). -/
def execShFieldRead (off : Nat) (s : State) : Host.Outcome State Fault Refusal := .next (barRead 0 off (readEffect 0 off) s)

/-! PCIe (R317, R320, R336, R339, R342). -/

/-- The configuration space of function f (R316 to R318). -/
def pcieConfig (f : Nat) : PcieConfig :=
  let pf := f == 0
  { vendor := Config.vendorId.toNat, device := if pf then 0x9612 else 0x9613
    subVendor := Config.subVendorId.toNat, subDevice := Config.subDeviceId.toNat, classCode := 0x108000, routing := f
    bars := if pf then [(0, 65536), (2, 8192)] else [(0, 16384), (2, 4096)]
    vectors := if pf then 256 else 32, table := 0, pba := if pf then 0x1000 else 0x800
    maxPayload := 512, maxRead := 4096, tags := 512, aer := pf, flr := true, doe := pf
    totalVfs := if pf then 64 else 0, firstVf := b2n pf, stride := b2n pf }

/-- PCIE_CONFIG_REQUEST (R316 to R318, R320): what the configuration space holds, or Request Retry Status in START-UP. -/
def execPcieConfigRequest (f : Nat) (s : State) : Host.Outcome State Fault Refusal :=
  .next <|
    if s.sys.held then s
    else if s.sys.startup then emit (.retryStatus f) s
    else if fnEnabled s f then emit (.config f (pcieConfig f)) s
    else emit (.unsupported f) s

/-- FUNCTION_LEVEL_RESET (R320, R342): a configuration write, retried in START-UP. -/
def execFunctionLevelReset (f : Nat) (s : State) : Host.Outcome State Fault Refusal :=
  .next <|
    if s.sys.held || !fnEnabled s f then s
    else if s.sys.startup then emit (.retryStatus f) s
    else functionReset f s

/-- Every enabled VF is reset, and VF Enable is clear (R336, R342). -/
def disableVfs (s : State) : State :=
  let s := (List.range s.sys.numVfs).foldl (fun s i => functionReset (i + 1) s) s
  { s with sys := { s.sys with vfe := false, numVfs := 0 } }

/-- CONVENTIONAL_RESET (R314, R339): every function at once, and PF0's configuration space, which holds VF Enable and the
IDE streams; higher rates are allowed again. -/
def execConventionalReset (s : State) : Host.Outcome State Fault Refusal :=
  .next <|
    if s.sys.held then s
    else
      let s := if s.sys.vfe then disableVfs s else s
      let s := if s.sys.startup then s else functionReset 0 s
      { s with sys := { s.sys with ideLink := 0, ideSel := [], spdm := false, rateCap := 4 } }

/-- VF_ENABLE_CHANGE (R320, R336): a configuration write, retried in START-UP; set with NumVFs, which cannot change while it is set; a clear resets every VF. -/
def execVfEnableChange (on : Bool) (num : Nat) (s : State) : Host.Outcome State Fault Refusal :=
  .next <|
    if s.sys.held then s
    else if s.sys.startup then emit (.retryStatus 0) s
    else if on == s.sys.vfe then s
    else if on then { s with sys := { s.sys with vfe := true, numVfs := min 64 num } }
    else disableVfs s

/-! SPDM and IDE (R321, R322, R614). -/

/-- The responder's answer as octets; an error answer, whose form the spec leaves to SPDM, as none (log 54). -/
def spdmAnswer (r : SpdmReq) (s : State) : List Byte :=
  match r with
  | .getCertificate n => if n = 0 then Config.certificate 1 else []
  | .getMeasurement n =>
    if 1 ≤ n ∧ n ≤ 16 then fit 64 (lget s.fw.meas (n - 1) [])
    else if n = 17 then (evidenceHead s).drop 4 |>.take 44
    else []
  | _ => []

/-- SPDM_REQUEST (R320 to R322, R614): a configuration request, so retried in START-UP. A key exchange with a
requester that proves itself establishes the session, over which IDE_KM sets keys; a stream whose keys are set is Secure (log 54). -/
def execSpdmRequest (r : SpdmReq) (s : State) : Host.Outcome State Fault Refusal :=
  .next <|
    if s.sys.held then s
    else if s.sys.startup then emit (.retryStatus 0) s
    else
      let s := emit (.spdm (spdmAnswer r s)) s
      match r with
      | .keyExchange ok => if ok then { s with sys := { s.sys with spdm := true } } else s
      | .ideLinkKey => if s.sys.spdm then { s with sys := { s.sys with ideLink := 2 } } else s
      | .ideSelKey n lo hi =>
        if s.sys.spdm ∧ n < 16 then { s with sys := { s.sys with ideSel := mset s.sys.ideSel n (lo, hi) } } else s
      | .ideStop none => if s.sys.spdm then { s with sys := { s.sys with ideLink := 1 } } else s
      | .ideStop (some n) => if s.sys.spdm then { s with sys := { s.sys with ideSel := mdel s.sys.ideSel n } } else s
      | _ => s

/-! The UCIe link (R309 to R314). -/

/-- The highest rate of a list below or at a limit; 0 where there is none. -/
def bestRate (rates : List Nat) (cap : Nat) : Nat := (rates.filter (fun r => decide (1 ≤ r ∧ r ≤ min 4 cap))).foldl max 0

/-- A flit of the device: idle TLP octets are NOP TLPs, the control word answers a flit of the host, and the flit is kept until
it is acknowledged (R310 to R312). -/
def sendFlit (ackSeq : Nat) (ack nak : Bool) (s : State) : State :=
  let n := s.sys.txSeq
  let o := flitOctets n [] (controlWord n ackSeq ack nak)
  emit (.ucieFlit o) { s with sys := { s.sys with txSeq := (n + 1) % 4294967296, txBuf := s.sys.txBuf ++ [(n, o)] } }

/-- What the control word of the host says of the device's own flits: ACK frees those up to ACKSEQ, NAK has them sent again
from that flit (R312). -/
def ucieAcks (c : List Byte) (s : State) : State :=
  let from_ := s.sys.txBuf.dropWhile (fun e => e.1 != ctlAckSeq c)
  if ctlBit c 65 then
    emits (from_.map (fun e => Output.ucieFlit e.2)) { s with sys := { s.sys with txBuf := from_, replay := s.sys.replay + from_.length } }
  else if ctlBit c 64 && !from_.isEmpty then { s with sys := { s.sys with txBuf := from_.tail } }
  else s

/-- UCIE_LINK_TRAINING (R309, R311, R313, R314): the device advertises "Lath carriage, version 1", and a partner that does not
is not trained with. -/
def execUcieLinkTraining (partnerLath : Bool) (rates : List Nat) (repaired : Bool) (s : State) : Host.Outcome State Fault Refusal :=
  .next <|
    let r := bestRate rates s.sys.rateCap
    if s.sys.held then s
    else
      let s := emit (.sideband 1) s
      if !partnerLath || r == 0 then s
      else { s with sys := { s.sys with
        ucieUp := true, rate := r, rates := rates, repaired := repaired, fseq := 0, txSeq := 0, txBuf := [] } }

/-- UCIE_FLIT_RECEIVE (R310 to R312): the words pass or are corrected, and the flit is released and acknowledged; or it is
answered with a NAK. Words corrected count either way. -/
def execUcieFlitReceive (f : Flit) (s : State) : Host.Outcome State Fault Refusal :=
  .next <|
    if !s.sys.ucieUp || s.sys.held then s
    else
      let s := { s with sys := { s.sys with lathCorr := s.sys.lathCorr + flitFixed f } }
      match flitAccept s.sys.fseq f with
      | none => sendFlit s.sys.fseq false true s
      | some c => sendFlit f.fseq true false (ucieAcks c { s with sys := { s.sys with fseq := (s.sys.fseq + 1) % 4294967296 } })

/-- UCIE_RETRAIN (R314): more than one flit in 10^6 replayed over a second; at the lowest common rate there is no next
lower one. -/
def execUcieRetrain (replays flits : Nat) (s : State) : Host.Outcome State Fault Refusal :=
  .next <|
    let r := bestRate s.sys.rates (s.sys.rate - 1)
    if s.sys.ucieUp ∧ ¬s.sys.held ∧ replays * 1000000 > flits ∧ r ≠ 0 then
      event 0 3 { s with sys := { s.sys with rate := r, rateCap := r, fseq := 0, txSeq := 0, txBuf := [] } }
    else s

end Sys2Proof.Machine
end

