-- ==== Sys2Proof/Machine/Diag.lean ====
section
/-! DEFINITION. Diag.lean: the diag. commands (R373). The spec names what they do and gives neither codes nor results, so
every code is taken and a test's result word is free (log 55). -/
namespace Sys2Proof.Machine

/-- A test of an engine or block, charged to SELFTEST (R385), ends with a result that the spec does not state. -/
def testEff (c : Cmd) (s : State) : Eff :=
  let (i, s) := fresh (workFor 14 (cw c 8).toNat (Config.testEngine (cw c 8) % 7) 8 0 s)
  { st := s, result := Config.freeWord i }

def diagKatRow : OpRow := { opc := 0xF001, who := 0, ctx := 0, inp := false, out := false, params := [0xFFFFFFFF] }
def diagKatEff (c : Cmd) (s : State) : Eff := testEff c s

/-- DIAG_KAT (R373): a known-answer test, as engine work. -/
def execDiagKat (c : Cmd) (s : State) : Host.Outcome State Fault Refusal := .next (runWork noCheck diagKatEff c s)

def diagSelftestRow : OpRow := { opc := 0xF002, who := 0, ctx := 0, inp := false, out := false, params := [0xFFFFFFFF] }
def diagSelftestEff (c : Cmd) (s : State) : Eff := testEff c s

/-- DIAG_SELFTEST (R373). -/
def execDiagSelftest (c : Cmd) (s : State) : Host.Outcome State Fault Refusal := .next (runWork noCheck diagSelftestEff c s)

/-- diag.inject: word 8 the location of an on-die word as R511 numbers it, [31:24] memory, [23:0] word address; word 9 [0] an
error that Lath corrects, such a word standing 256 memories higher in the list (log 32). -/
def diagInjectRow : OpRow := { opc := 0xF003, who := 0, ctx := 0, inp := false, out := false, params := [0xFFFFFFFF, 1] }
def diagInjectEff (c : Cmd) (s : State) : Eff :=
  let x := (bits (cw c 8) 31 24 + 256 * bits (cw c 9) 0 0, bits (cw c 8) 23 0)
  done (if s.injected.contains x then s else { s with injected := s.injected ++ [x] })

/-- DIAG_INJECT (R373): the word reads with that Lath error from now on. -/
def execDiagInject (c : Cmd) (s : State) : Host.Outcome State Fault Refusal := .next (runPlain noCheck diagInjectEff c s)

end Sys2Proof.Machine
end

