-- ==== Sys2Proof/Machine/Records.lean ====
section
/-! DEFINITION. Records.lean: triggers and records (R205 to R214): rec.trig, rec.fire, rec.lock, rec.list, copying and
sealing. The layout of rec.trig's input is the model's (log 37). -/
namespace Sys2Proof.Machine

/-! rec.trig: word 8 trigger; input of 64 octets, then one octet for each function named, then two for each row:
0x00 source (SOURCE of R210; 0xFF none), 0x01 archive flag, 0x02 bus pair, 0x03 functions, 0x04 PRE, 0x08 POST, 0x0C MAXLEN,
0x10 rows, 0x20 what the source needs. -/

def recTrigRow : OpRow := { opc := 0xA001, who := 0, ctx := 0, inp := true, out := false, params := [0xFF] }

/-- Functions and rows that the input names. -/
def trigFns (l : List Byte) : List Nat := (List.range (field l 3 1)).map (fun i => field l (0x40 + i) 1)
def trigRows (l : List Byte) : List Nat :=
  (List.range (field l 0x10 2)).map (fun i => field l (0x40 + field l 3 1 + 2 * i) 2)

def recTrigPre (c : Cmd) : Option Nat :=
  firstFail [(decide (cLen c < 64) || cLen c != 64 + field c.input 3 1 + 2 * field c.input 0x10 2, 0x0106)]

/-- The source of the input; none for an undefined code or a value outside its range. -/
def trigSource (l : List Byte) : Option TrigSrc :=
  match field l 0 1 with
  | 0 => some .host
  | 1 => some .goose
  | 2 => if field l 0x20 2 < 512 then some (.trowel (field l 0x20 2)) else none
  | 3 =>
    if field l 0x23 1 < 8 ∧ field l 0x2C 1 ≠ 0 then
      some (.level (field l 0x20 2 * 256 + field l 0x22 1) (field l 0x23 1) (sInt 4 (field l 0x24 4)) (sInt 4 (field l 0x28 4))
        (field l 0x2C 1))
    else none
  | 4 => some (.quality (field l 0x20 2 * 256 + field l 0x22 1))
  | 5 => if field l 0x20 1 < 4 then some (.cycle (field l 0x20 1) (field l 0x21 1 == 1) (field l 0x24 4) (field l 0x28 4)) else none
  | 6 => some (.time (field l 0x20 8) none)
  | 255 => some .off
  | _ => none

/-- A row that exists: of an SV subscription, or an allocated derived row. -/
def rowKnown (s : State) (id : Nat) : Bool :=
  if id < 0x8000 then (match ctxOf s id with | some x => isSvKind x.kind && x.st != 2 | none => false)
  else (mget s.trowel.derived (id - 0x8000)).isSome

/-- Codes, rows and functions in range, one grid, at most 512 rows, and R207. -/
def recTrigCheck (c : Cmd) (s : State) : Option Nat :=
  let l := c.input
  let rows := trigRows l
  let bp := field l 2 1
  firstFail
    [((trigSource l).isNone || decide (bp > 3) || decide (field l 1 1 > 1) || (trigFns l).any (fun f => decide (f > 64)) ||
       (field l 0 1 != 255 && (rows.isEmpty || rows.any (fun id => !rowKnown s id))), 0x0705),
     (rows.any (fun id => match rowHome s id with | some h => (bpOf s h.1).mrate != (bpOf s bp).mrate | none => false), 0x0701),
     (decide ((viewRows s rows).length > 512), 0x070B),
     (decide (field l 0xC 4 + 128 > histSlots s bp), 0x070C)]

/-- A TIME trigger set for a slot that has started already never fires; any other waits for its slot-start event, or for the
next one where time has stepped back (R205, R667, log 80). -/
def armTime (s : State) (b : Nat) : TrigSrc → TrigSrc
  | .time slot _ => .time slot (if s.time.tstate ≠ 0 ∧ slot ≤ curSlot s b then none else some (nextFire s b))
  | t => t

def recTrigEff (c : Cmd) (s : State) : Eff :=
  let l := c.input
  let g : Trigger := { src := armTime s (field l 2 1) ((trigSource l).getD .off), rows := trigRows l, bp := field l 2 1, pre := field l 4 4
                       post := field l 8 4, maxLen := field l 0xC 4, archive := field l 1 1 == 1, fns := trigFns l
                       runLen := 0, fires := [] }
  done (updTrig (cw c 8).toNat (fun _ => g) s)

/-- REC_TRIG (R205, R207). -/
def execRecTrig (c : Cmd) (s : State) : Host.Outcome State Fault Refusal := .next (runConfig recTrigCheck recTrigEff c s)

/-! rec.fire, rec.lock, rec.list. -/

def recFireRow : OpRow := { opc := 0xA002, who := 4, ctx := 0, inp := false, out := false, params := [0xFF] }

/-- A trigger of source HOST; a slot needs time (log 37). -/
def recFireCheck (c : Cmd) (s : State) : Option Nat :=
  firstFail [(decide ((trigOf s (cw c 8).toNat).src ≠ .host), 0x0705), (s.time.tstate == 0, 0x0702)]

/-- T is the current slot at admission (R205). -/
def recFireEff (c : Cmd) (s : State) : Eff :=
  let t := (cw c 8).toNat
  let ago := s.time.clock - ((jent s c.tok).getD default).at_
  done (fireTrig t (slotAt (s.time.tai - ago) (slotRate s (trigOf s t).bp)) 0 [] s)

/-- REC_FIRE (R205). -/
def execRecFire (c : Cmd) (s : State) : Host.Outcome State Fault Refusal := .next (runPlain recFireCheck recFireEff c s)

def recLockRow : OpRow := { opc := 0xA003, who := 0, ctx := 0, inp := false, out := false, params := [0xFFFFFFFF, 0xFFFFFFFF, 1] }
def recLockCheck (c : Cmd) (s : State) : Option Nat :=
  firstFail [(volAbsent s, 0x0803), ((volRecOf s (cw64 c 8)).isNone, 0x0705)]
def recLockEff (c : Cmd) (s : State) : Eff := done (updVolRec (cw64 c 8) (fun r => { r with locked := bit (cw c 10) 0 }) s)

/-- REC_LOCK (R213). -/
def execRecLock (c : Cmd) (s : State) : Host.Outcome State Fault Refusal := .next (runConfig recLockCheck recLockEff c s)

def recListRow : OpRow := { opc := 0xA004, who := 4, ctx := 0, inp := false, out := true, params := [] }

/-- Whole notices that fit: all of them to PF0, to another function those of triggers that name it. -/
def recListEff (c : Cmd) (s : State) : Eff :=
  let ns := s.hawk.notices.filter (fun n => c.fn == 0 || (trigOf s (field n 0 2)).fns.contains c.fn)
  let o := (ns.take (cOutLen c / 64)).flatten
  { st := s, result := BitVec.ofNat 32 o.length, out := o }

/-- REC_LIST (R214, R373). -/
def execRecList (c : Cmd) (s : State) : Host.Outcome State Fault Refusal := .next (runPlain noCheck recListEff c s)

/-! Copying and sealing (R209 to R213). -/

/-- The record of a number. -/
def recOf (s : State) (n : Nat) : Option Rec := s.hawk.recs.find? (fun r => r.num == n)

/-- Changes the record of a number. -/
def updRec (n : Nat) (g : Rec → Rec) (s : State) : State :=
  { s with hawk := { s.hawk with recs := s.hawk.recs.map (fun r => if r.num = n then g r else r) } }

/-- 64 slots have closed after the last slot for every group of the record set (R209). -/
def copyDue (s : State) (r : Rec) : Bool :=
  let homes := (r.rows.filterMap (rowHome s)).eraseDups
  homes.all (fun h => closedThrough s h.1 h.2 (r.last + 64))

/-- The history row of a row of a record set for a slot: between two nominal slots of a slower stream, which has no entry
there, the row of its latest nominal slot as REPEAT (R167, R186, log 92). -/
def recordRow (s : State) (slot : Nat) (p : Nat × Nat) : Row :=
  match ctxOf s p.1 with
  | some x =>
    let d := divOf s x
    if p.1 < 0x8000 ∧ slot % d ≠ 0 then
      match histGet s p.1 (slot - slot % d) p.2 with
      | some r => { r with rstat := 3 }
      | none => missingRow p.1 p.2 (sampleOf s x slot p.2)
    else (histGet s p.1 slot p.2).getD (missingRow p.1 p.2 (sampleOf s x slot p.2))
  | none => (histGet s p.1 slot p.2).getD (missingRow p.1 p.2 0)

/-- The slot block of a slot: history rows in record-set order. -/
def slotRows (s : State) (r : Rec) (slot : Nat) : List Row := (viewRows s r.rows).map (recordRow s slot)

/-- The history ring still holds a slot of the record. -/
def slotHeld (s : State) (r : Rec) (slot : Nat) : Bool := decide (curSlot s r.bp < slot + histSlots s r.bp)

/-- RECORD_COPY_START (R209): the copy, in slot order and of class ARCHIVE, is one step; it stops at the first slot that the
history ring no longer holds, and the record is then TRUNCATED. -/
def execRecordCopyStart (n : Nat) (s : State) : Host.Outcome State Fault Refusal :=
  .next <|
    match recOf s n with
    | none => s
    | some r =>
      if r.copying || r.posted.isSome || !copyDue s r || isStopped s then s
      else
        let slots := ((List.range (r.last + 1 - r.first)).map (fun i => r.first + i)).takeWhile (slotHeld s r)
        openWork 8 slots.length 6 7 (updRec n (fun x => { x with
          copying := true, truncated := x.truncated || decide (slots.length < r.last + 1 - r.first)
          body := slots.map (fun t => (t, slotRows s r t)) }) s)

/-- The body (R210). -/
def recBody (r : Rec) : List Byte :=
  padTo 4096 (r.body.flatMap (fun b =>
    fit 64 (leOctets 8 b.1 ++ leOctets 2 b.2.length) ++ b.2.flatMap rowOctets))

/-- Octets 0x000 to 0x0FF of the manifest (R210). -/
def manifestHead (r : Rec) (body : List Byte) : List Byte :=
  fit 256 ([1, BitVec.ofNat 8 (b2n r.truncated)] ++ leOctets 2 r.trig ++
    [BitVec.ofNat 8 r.source, BitVec.ofNat 8 r.bp] ++ leOctets 2 (match r.body.head? with | some b => b.2.length | none => 0) ++
    leOctets 8 r.num ++ leOctets 8 r.trigSlot ++ leOctets 8 (match r.body.head? with | some b => b.1 | none => r.first) ++
    leOctets 8 r.last ++ leOctets 4 r.body.length ++ leOctets 4 r.mrate ++ leOctets 8 r.epoch ++ leOctets 4 r.gen ++
    leOctets 4 r.tstate ++ devId ++ fit 64 (Config.hash 5 body) ++ fit 32 r.trigData)

/-- The record: manifest of 8,192 octets with its signature under slot 0x0003, then the body (R210). -/
def sealedRecord (r : Rec) (sig : List Byte) : List Byte :=
  fit 8192 (manifestHead r (recBody r) ++ sig) ++ recBody r

/-- RECORD_SEAL (R210, R213): the body is hashed as work of ARCHIVE and the manifest signed; an archived record goes to the
volume, another is sealed with it. A record without a key to sign it, or without a volume to go to, is dropped (R535). -/
def execRecordSeal (n : Nat) (s : State) : Host.Outcome State Fault Refusal :=
  .next <|
    match recOf s n with
    | none => s
    | some r =>
      if !r.copying || r.posted.isSome || isStopped s || !signerReady s then s
      else if (slotFail s 3 [4]).isSome then recDropped r s
      else
        let arch := (trigOf s r.trig).archive
        if arch && volAbsent s then recDropped r s
        else if arch && archiveWaits (2 + (recBody r).length / 4096) s then s
        else
          let s := engineWork 4 7 0 (digestCycles (recBody r).length) 4 0 [] s
          match internalSign 0x73 0 "record" (slotKey s 3) [] (manifestHead r (recBody r)) s with
          | (none, s) => s
          | (some g, s) => if arch then archive r (sealedRecord r g) s else recSealed r (2 ^ 64 - 1) s

end Sys2Proof.Machine
end

