-- ==== Sys2Proof/Machine/Protocol.lean ====
section
/-! DEFINITION. Protocol.lean: from fetch to completion (R31 to R41, R343, R352 to R381): the checks before admission,
admission, the bootstrap, commands of other devices, configuration that waited, safe points, staged work, completion
entries, and Bus Master Enable. -/
namespace Sys2Proof.Machine

/-! The opcode table (R366, R373). -/

/-- An opcode's row, its check before admission, and whether that check reads state of the device that executes. -/
structure OpInfo where
  row : OpRow
  pre : Cmd → State → Option Nat := noCheck
  dyn : Bool := false

/-- A check of the entry alone. -/
def byEntry (f : Cmd → Option Nat) (c : Cmd) (_ : State) : Option Nat := f c

/-- The sys. and cmd. groups. -/
def opsSys : List OpInfo :=
  [{ row := sysInfoRow, pre := byEntry sysInfoPre }, { row := sysQcreateRow }, { row := sysQdeleteRow },
   { row := sysLedgerRow, pre := byEntry sysLedgerPre }, { row := sysTimecfgRow, pre := byEntry sysTimecfgPre },
   { row := sysTimestepRow }, { row := sysPortcfgRow, pre := byEntry sysPortcfgPre }, { row := sysHostcfgRow },
   { row := sysFnmapRow, pre := byEntry sysFnmapPre }, { row := sysDadoinvRow, pre := byEntry sysDadoinvPre },
   { row := sysFnresetRow, pre := byEntry sysFnresetPre }, { row := cmdAbortRow }]

/-- The stream., sheet. and rec. groups. -/
def opsStream : List OpInfo :=
  [{ row := streamMrateRow, pre := byEntry streamMratePre }, { row := streamCycrefRow, pre := byEntry streamCycrefPre },
   { row := streamSubRow, pre := byEntry streamSubPre }, { row := streamUnsubRow },
   { row := streamKeysRow, pre := byEntry streamKeysPre }, { row := streamStatsRow, pre := byEntry statsPre },
   { row := sheetHistoryRow, pre := byEntry sheetHistoryPre }, { row := sheetGroupRow, pre := byEntry sheetGroupPre },
   { row := sheetKeyRow, pre := byEntry sheetKeyPre }, { row := sheetRingRow, pre := byEntry sheetRingPre },
   { row := sheetViewRow, pre := byEntry sheetViewPre }, { row := recTrigRow, pre := byEntry recTrigPre },
   { row := recFireRow }, { row := recLockRow }, { row := recListRow }]

/-- The trowel. and pub. groups. -/
def opsTrowel : List OpInfo :=
  [{ row := trowelLoadRow, pre := byEntry trowelLoadPre }, { row := trowelBindRow, pre := byEntry trowelBindPre },
   { row := trowelStartRow }, { row := trowelStopRow }, { row := trowelUnloadRow },
   { row := trowelMbsendRow, pre := byEntry trowelMbsendPre }, { row := trowelRetireRow }, { row := pubOpenRow },
   { row := pubCloseRow }, { row := pubSendRow, pre := pubSendPre, dyn := true }, { row := pubCurveRow },
   { row := pubStatsRow, pre := byEntry statsPre }]

/-- The cph., hsh., pke. and rng. groups. -/
def opsEngine : List OpInfo :=
  [{ row := cphOpenRow, pre := byEntry cphOpenPre }, { row := cphCloseRow },
   { row := cphRunRow, pre := cphRunPre, dyn := true }, { row := cphSaveRow, pre := byEntry cphSavePre },
   { row := cphRestoreRow, pre := byEntry cphRestorePre }, { row := hshDigestRow, pre := byEntry hshDigestPre },
   { row := hshMacRow, pre := byEntry hshMacPre }, { row := hshOpenRow, pre := byEntry hshOpenPre },
   { row := hshUpdateRow, pre := hshUpdatePre, dyn := true }, { row := hshFinalRow, pre := hshFinalPre, dyn := true },
   { row := pkeSignRow, pre := byEntry pkePre }, { row := pkeVerifyRow, pre := byEntry pkePre },
   { row := pkeAgreeRow, pre := byEntry pkePre }, { row := pkeEncapRow, pre := byEntry pkePre },
   { row := pkeDecapRow, pre := byEntry pkePre }, { row := pkeKeygenRow, pre := byEntry pkePre },
   { row := rngGetRow, pre := byEntry rngGetPre }, { row := rngReseedRow }, { row := rngPatternRow, pre := byEntry rngPatternPre }]

/-- The key., vol., pair. and log. groups. -/
def opsStore : List OpInfo :=
  [{ row := keyApplyRow }, { row := keyInfoRow, pre := byEntry keyInfoPre }, { row := keyTargetRow, pre := byEntry keyTargetPre },
   { row := volAttachRow, pre := byEntry volAttachPre }, { row := volIoRow }, { row := volReadRow },
   { row := volRekeyRow, pre := byEntry quorumPre }, { row := pairCfgRow, pre := byEntry pairCfgPre },
   { row := pairStatusRow, pre := byEntry pairStatusPre }, { row := pairHandoverRow },
   { row := pairRenumberRow, pre := byEntry quorumPre }, { row := logReadRow, pre := byEntry logReadPre },
   { row := logPolicyRow }, { row := logClearRow }]

/-- The svc., span. and diag. groups. -/
def opsSvc : List OpInfo :=
  [{ row := svcEnterRow, pre := byEntry quorumPre }, { row := svcExitRow, pre := byEntry svcExitPre },
   { row := svcChallengeRow, pre := byEntry svcChallengePre }, { row := svcOfficerRow, pre := byEntry svcOfficerPre },
   { row := svcTamperRow, pre := byEntry quorumPre }, { row := svcFlagclearRow },
   { row := svcEnrolRow, pre := svcEnrolPre, dyn := true }, { row := svcReleaseRow, pre := byEntry quorumPre },
   { row := svcAttestRow, pre := byEntry svcAttestPre }, { row := svcFwloadRow, pre := byEntry svcFwloadPre },
   { row := spanCfgRow, pre := byEntry spanCfgPre }, { row := spanStatusRow, pre := byEntry spanStatusPre },
   { row := spanRouteRow, pre := byEntry spanRoutePre }, { row := spanOutcomeRow }, { row := diagKatRow },
   { row := diagSelftestRow }, { row := diagInjectRow }]

/-- Every opcode (R373). -/
def opTable : List OpInfo := opsSys ++ opsStream ++ opsTrowel ++ opsEngine ++ opsStore ++ opsSvc

/-- The row of an opcode, none where it is undefined. -/
def opInfo (opc : Nat) : Option OpInfo := opTable.find? (fun o => o.row.opc == opc)

/-! The checks before admission (R366). -/

/-- A reserved field of the entry is not 0 (R360, R361, R366 step 2). -/
def reservedSet (c : Cmd) (r : OpRow) : Bool :=
  cw c 0 &&& 0xC0FC0000 != 0 || (cLen c == 0 && cIn c != 0) || ((cOutLen c == 0 || !r.out) && cOut c != 0) ||
  (!r.out && cOutLen c != 0) || cw c 2 &&& ~~~(BitVec.ofNat 32 r.ctx) != 0 ||
  (List.range 7).any (fun i => cw c (8 + i) &&& ~~~(BitVec.ofNat 32 (lget r.params i 0)) != 0)

/-- Commands that act on the host attachment (R379). -/
def attachmentOps : List Nat := [0x0010, 0x0011, 0x0012, 0x0040, 0x0041, 0x0042, 0x0043]

/-- DEV is not in the domain, or not allowed for the command (R366 step 3, R375, R379). -/
def deviceBad (c : Cmd) (s : State) : Bool :=
  !inDomain s (cDev c) || (attachmentOps.contains (Cmd.opc c) && cDev c != devnum s) ||
  (Cmd.opc c == 0x0F01 && (abortTarget c s).any (fun e => cDev e.2.cmd != cDev c))

/-- The function may issue the command for the object that this device holds (R373): Own, Owner, or named by a trigger.
An object that does not exist has no owner, so only PF0 may name it (log 79). -/
def objectAllows (c : Cmd) (who : Nat) (s : State) : Bool :=
  let o := Cmd.opc c
  if c.fn = 0 then true
  else if who = 1 then
    (if o = 0x0012 then bits (cw c 8) 6 0 == c.fn else if o = 0x2004 then (cw c 14).toNat == c.fn else true)
  else if who = 2 then
    (if o = 0x3006 then (progOf s (cw c 8).toNat).any (fun g => g.fn == c.fn) else (ctxOf s (cCtx c)).any (fun x => x.fn == c.fn))
  else if who = 4 then
    (if o = 0xA002 then (trigOf s (cw c 8).toNat).fns.contains c.fn else s.hawk.trigs.any (fun t => t.fns.contains c.fn))
  else true

/-- The function may issue the command, as far as its gateway can tell (R366 step 5, R378, R381; log 53). -/
def functionAllows (c : Cmd) (r : OpRow) (s : State) : Bool :=
  if r.who = 0 then c.fn == 0
  else if Cmd.opc c = 0xE004 then c.fn == 0 || (jent s (cw64 c 8)).all (fun j => j.cmd.fn == c.fn)
  else if cDev c = devnum s ∨ r.who = 1 then objectAllows c r.who s
  else true

/-- Steps 1 to 7 of R366. -/
def entryFail (c : Cmd) (s : State) : Option Nat :=
  match opInfo (Cmd.opc c) with
  | none => some 0x0101
  | some o =>
    match firstFail
      [(reservedSet c o.row, 0x0105), (deviceBad c s, 0x0107), (!modeOk s c, 0x0201), (!functionAllows c o.row s, 0x0202),
       ((fnOf s c.fn).unread && Cmd.opc c != 0x0010 && Cmd.opc c != 0x0012, 0x0203),
       (decide (cLen c > 16777216) || (!o.row.inp && cLen c != 0), 0x0106)] with
    | some st => some st
    | none => if o.dyn && cDev c != devnum s then none else o.pre c s

/-- R366 in its order: every page of the command's ranges is translated last. -/
def admissionFail (mem : List Host.Cell) (c : Cmd) (s : State) : State × Option Nat :=
  match entryFail c s with
  | some st => (s, some st)
  | none =>
    match checkRange mem c.fn (cIn c) (cLen c) false s with
    | (s, false) => (s, some 0x0802)
    | (s, true) =>
      match checkRange mem c.fn (cOut c) (cOutLen c) true s with
      | (s, false) => (s, some 0x0802)
      | (s, true) => (s, none)

/-! Admission (R31, R34, R331, R376, R378). -/

/-- The command with its input, with the translation of its output range as just made (R332), and with the maps of the
memories that it names (R331). -/
def withOperands (mem : List Host.Cell) (c : Cmd) (s : State) : State × Cmd :=
  let c : Cmd := { c with input := if cLen c = 0 then [] else readRange mem c.fn (cIn c) (cLen c) s }
  let two (na nb : Nat) : State × Cmd :=
    let (s, a) := pinnedMap mem c.fn (cw64 c 8) na (Cmd.opc c == 0x2004) s
    let (s, b) := pinnedMap mem c.fn (cw64 c 10) nb true s
    (s, { c with maps := [a, b] })
  let c : Cmd := { c with outMap := if cOutLen c = 0 then [] else ((pinnedMap mem c.fn (cOut c) (cOutLen c) true s).2).getD [] }
  if Cmd.opc c = 0x0010 then
    let n := bits (cw c 12) 3 0
    if 4 ≤ n ∧ n ≤ 12 then two (64 * 2 ^ n) (32 * 2 ^ n) else (s, c)
  else if Cmd.opc c = 0x2004 then
    let m := bits (cw c 12) 4 0
    let n := (cw c 14).toNat
    if m = 0 then (s, c)
    else
      let (s, a) := pinnedMap mem n (cw64 c 8) (2 ^ m) true s
      let (s, b) := pinnedMap mem n (cw64 c 10) 64 true s
      (s, { c with maps := [a, b] })
  else (s, c)

/-- The command consumes the outstanding nonce (R502, R503). -/
def needsQuorum (c : Cmd) (s : State) : Bool := quorumOps.contains (Cmd.opc c) && (Cmd.opc c != 0xD007 || officersThere s)

/-- The journal entry of an admission on the device that executes (R31, R503). -/
def newEntry (c : Cmd) (s : State) : State :=
  let q := needsQuorum c s
  let j : JEntry := { (default : JEntry) with
    cmd := c, at_ := s.time.clock, tai := s.time.tai, admAck := !mirrors s
    nonce := if q && chalValid s then s.keys.nonce.map (·.1) else none }
  mirrorItem (.admission c) { s with
    journal := mset s.journal c.tok j, keys := if q then { s.keys with nonce := none } else s.keys }

/-- A command with its token is journalled; its admission completes at once outside a pair, and with the standby's
acknowledgement in one (R31). -/
def admitted (c : Cmd) (s : State) : State :=
  let alone := !mirrors s
  let s :=
    if cDev c = devnum s then newEntry c s
    else
      let j : JEntry := { (default : JEntry) with
        cmd := c, at_ := s.time.clock, tai := s.time.tai, admAck := alone, started := true, remote := true }
      mirrorItem (.admission c) { s with journal := mset s.journal c.tok j }
  if alone then admissionDone c s else s

/-- The completion of an entry takes its place in its pair (R368). -/
def queueUp (c : Cmd) (w : Waiting) (s : State) : State := updQueue c.fn c.qp (fun q => { q with waiting := q.waiting ++ [w] }) s

/-- The entry comes from the bootstrap: its pair does not exist (R357). -/
def fromBootstrap (c : Cmd) (s : State) : Bool := Cmd.opc c == 0x0010 && isBootstrap c s

/-- A refused entry: its completion waits in order; a refused bootstrap leaves the pair NONE and is reported (R357,
R367). -/
def refuse (c : Cmd) (st : Nat) (s : State) : State :=
  if (queueOf s c.fn c.qp).st = 0 then fnEvent c.fn 1 0 s
  else queueUp c (.refused (cTag c) st (cNoirq c) (devnum s)) s

/-- An entry that passed every check is admitted under the next token (R31, R34). -/
def accept (c : Cmd) (s : State) : State :=
  let boot := fromBootstrap c s
  let (t, s) := nextToken s
  let s := admitted { c with tok := t } s
  if boot then s else queueUp c (.admitted t) s

/-- A member in the standby role asks the active for the token (R570). -/
def askActive (c : Cmd) (s : State) : State := emit (.pair (.admission c)) (updPair (fun p => { p with asked := p.asked ++ [c] }) s)

/-- An entry read from a submission queue, or by the bootstrap; its fetch is charged to its function (R385). -/
def takeEntry (mem : List Host.Cell) (c : Cmd) (s : State) : State :=
  match admissionFail mem c (workFor 10 1 0 (ctlClass (Cmd.opc c)) c.fn (hostMove 64 c.fn s)) with
  | (s, some st) => refuse c st s
  | (s, none) =>
    let (s, c) := withOperands mem c (hostMove (cLen c) c.fn s)
    if pairStandby s then askActive c s else accept c s

/-- The submission entry of 64 octets at a bus address. -/
def entryAt (mem : List Host.Cell) (f q b : Nat) : Cmd :=
  let l := memRdN mem b 64
  { fn := f, qp := q, tok := 0, words := (List.range 16).map (fun i => word32 l (4 * i)), input := [], maps := [], outMap := [] }

/-- The mode lets the pair be served: HALTED only pair 0 of PF0, SEALED and SPENT only PF0 (R372). -/
def pairServed (s : State) (f q : Nat) : Bool :=
  s.sys.gateway && !s.sys.startup && !s.sys.held && (mode s != 5 || (f == 0 && q == 0)) && ((mode s != 6 && mode s != 7) || f == 0)

/-- An entry of the pair still waits for the active's token. -/
def askedOf (s : State) (f q : Nat) : Option Cmd := s.pair.asked.find? (fun c => c.fn == f && c.qp == q)

/-- The pair has an entry to fetch and a completion slot for it (R353, R354, R589). -/
def mayFetch (s : State) (f q : Nat) : Bool :=
  let x := queueOf s f q
  pairServed s f q && x.st == 1 && x.head != x.tail && decide (x.fetched - x.released < x.n - 1) && dmaOk s f && !handingOver s

/-- COMMAND_FETCH (R353, R356, R366): which pair is next is the command's argument (log 56). An entry that a former standby
had asked for goes first, under this member's own token. -/
def execCommandFetch (f q : Nat) (mem : List Host.Cell) (s : State) : Host.Outcome State Fault Refusal :=
  .next <|
    match askedOf s f q with
    | some c =>
      if pairStandby s || !pairServed s f q then s
      else accept c (updPair (fun p => { p with asked := p.asked.filter (fun a => a != c) }) s)
    | none =>
      if mayFetch s f q then
        let x := queueOf s f q
        let s := hostActs (pinnedLookup f s)
        match pinnedBus x.sqMap (x.sqBase + 64 * x.head) with
        | none => queueError f q 3 s
        | some b =>
          let s := updQueue f q (fun x => { x with head := (x.head + 1) % x.n, fetched := x.fetched + 1 }) s
          takeEntry mem (entryAt mem f q b) s
      else s

/-- A bootstrap of the function is under way. -/
def bootstrapping (s : State) (f : Nat) : Bool :=
  (askedOf s f 0).isSome ||
  s.journal.any (fun e => e.2.cmd.fn == f && e.2.cmd.qp == 0 && Cmd.opc e.2.cmd == 0x0010 && e.2.outcome.isNone)

/-- The bootstrap entry at address 0 (R357). -/
def bootstrap (f : Nat) (mem : List Host.Cell) (s : State) : State :=
  if (queueOf s f 0).st = 0 ∧ pairServed s f 0 ∧ dmaOk s f ∧ ¬bootstrapping s f ∧ ¬handingOver s then
    let s := hostActs s
    match translate mem f 0 false s with
    | (s, none) => fnEvent f 1 0 s
    | (s, some b) =>
      let c := entryAt mem f 0 b
      if hostAnswers mem b 64 && Cmd.opc c == 0x0010 && cCtx c == 0 then takeEntry mem c s else fnEvent f 1 0 s
  else s

/-- QUEUE_BOOTSTRAP (R357). -/
def execQueueBootstrap (f : Nat) (mem : List Host.Cell) (s : State) : Host.Outcome State Fault Refusal :=
  .next (barWrite f (bootstrap f mem) s)

/-! Commands of other devices (R378). -/

/-- What the device that executes still has to check: its own mode (R635), who owns the object (R373), and a check before
admission that reads its state (log 53). -/
def remoteFail (c : Cmd) (s : State) : Option Nat :=
  match opInfo (Cmd.opc c) with
  | none => some 0x0101
  | some o =>
    match firstFail [(!modeOk s c, 0x0201), (!objectAllows c o.row.who s, 0x0202)] with
    | some st => some st
    | none => if o.dyn then o.pre c s else none

/-- REMOTE_COMMAND (R378): the device takes the command as its own admitted command under the gateway's token; its row then
executes it, and the outcome is returned. -/
def execRemoteCommand (c : Cmd) (s : State) : Host.Outcome State Fault Refusal :=
  .next <|
    if s.sys.gateway || s.sys.devnum != some (cDev c) || (jent s c.tok).isSome || s.span.foreign.any (fun x => x.1.tok == c.tok) ||
       s.sys.startup || s.sys.held then s
    else
      let s := newEntry c { s with span := { s.span with foreign := s.span.foreign ++ [(c, none)] } }
      match remoteFail c s with
      | some st => settle c.tok st 0 [] s
      | none => if (jent s c.tok).any (·.admAck) then atAdmission c s else s

/-! Configuration that waited for the end of a closing sequence (R27). -/

/-- What takes effect for a firmware image of each type that changes configuration at once. -/
def applyFw (c : Cmd) (s : State) : State :=
  if fwType c = 0x20 then applyBudget c s
  else if fwType c = 0x21 then fwVerified trimsCheck trimsEff c s
  else if fwType c = 0x22 then applyConfig noCheck servoEff c s
  else fwVerified fwloadCheck fwloadEff c s

/-- A configuration command takes effect (R27, R370); the groups from 0x0010 to 0x4004. -/
def applyLow (c : Cmd) (s : State) : State :=
  match Cmd.opc c with
  | 0x0010 => bootstrapFailed c (isBootstrap c s) (applyConfig sysQcreateCheck sysQcreateEff c s)
  | 0x0011 => applyConfig sysQdeleteCheck sysQdeleteEff c s
  | 0x0020 => applyConfig noCheck sysTimecfgEff c s
  | 0x0021 => applyConfig sysTimestepCheck sysTimestepEff c s
  | 0x0030 => applyIndexed sysPortcfgCheck sysPortcfgEff c s
  | 0x0040 => applyConfig noCheck sysHostcfgEff c s
  | 0x0041 => applyFnmap c s
  | 0x1001 => applyConfig streamMrateCheck streamMrateEff c s
  | 0x1002 => applyConfig streamCycrefCheck streamCycrefEff c s
  | 0x1003 => applyIndexed streamSubCheck streamSubEff c s
  | 0x1004 => applyConfig streamUnsubCheck streamUnsubEff c s
  | 0x1005 => applyConfig streamKeysCheck streamKeysEff c s
  | 0x2001 => applyConfig sheetHistoryCheck sheetHistoryEff c s
  | 0x2002 => applyConfig sheetGroupCheck sheetGroupEff c s
  | 0x2003 => applyConfig sheetKeyCheck sheetKeyEff c s
  | 0x2004 => if bits (cw c 12) 4 0 = 0 then applyConfig sheetRingCheck sheetRingEff c s
              else withDraw 0 (applyConfig sheetRingCheck sheetRingEff) c s
  | 0x2005 => applyConfig sheetViewCheck sheetViewEff c s
  | 0x3001 => loadVerified trowelLoadCheck trowelLoadEff c s
  | 0x3002 => applyConfig trowelBindCheck trowelBindEff c s
  | 0x3003 => applyConfig trowelStartCheck trowelStartEff c s
  | 0x3004 => applyConfig progCheck trowelStopEff c s
  | 0x3005 => applyConfig progCheck trowelUnloadEff c s
  | 0x4001 => applyConfig pubOpenCheck pubOpenEff c s
  | 0x4002 => applyConfig pubCloseCheck pubCloseEff c s
  | 0x4004 => applyConfig pubCurveCheck pubCurveEff c s
  | _ => s

/-- The groups from 0x8003 up. -/
def applyHigh (c : Cmd) (s : State) : State :=
  match Cmd.opc c with
  | 0x8003 => applyConfig noCheck rngPatternEff c s
  | 0x9001 => if envGenerates c then withDraw 70 applyKeys c s else applyKeys c s
  | 0xA001 => applyConfig recTrigCheck recTrigEff c s
  | 0xA003 => applyConfig recLockCheck recLockEff c s
  | 0xA010 => applyConfig noCheck volAttachEff c s
  | 0xA013 => withDraw 70 (applyQuorum volRekeyCheck volRekeyEff) c s
  | 0xB001 => applyConfig pairCfgCheck pairCfgEff c s
  | 0xB004 => applyRenumber c s
  | 0xC002 => applyConfig noCheck logPolicyEff c s
  | 0xD001 => applyEnter c s
  | 0xD002 => applyConfig noCheck svcExitEff c s
  | 0xD004 => applyQuorum noCheck svcOfficerEff c s
  | 0xD005 => applyTamper c s
  | 0xD007 => withDraw 70 applyEnrol c s
  | 0xD008 => applyQuorum svcReleaseCheck svcReleaseEff c s
  | 0xD00A => applyFw c s
  | 0xE001 => applyConfig spanCfgCheck spanCfgEff c s
  | 0xE003 => applyConfig spanRouteCheck spanRouteEff c s
  | _ => s

/-- A configuration command takes effect. -/
def applyOf (c : Cmd) (s : State) : State := if Cmd.opc c < 0x5000 then applyLow c s else applyHigh c s

/-- The oldest deferred change takes effect, once no closing sequence that it affects is in progress; one that waits for a
draw, or whose mode no longer accepts it, keeps its place (R27, R370). -/
def takeDeferred (s : State) : State :=
  match s.deferred with
  | [] => s
  | t :: rest =>
    match jent s t with
    | none => { s with deferred := rest }
    | some j =>
      if j.outcome.isSome then { s with deferred := rest }
      else if closingFor j.cmd s || !modeOk s j.cmd then s
      else
        let s' := applyOf j.cmd { s with deferred := rest }
        if (jent s' t).any (fun k => k.outcome.isNone && !k.started) && modeOk s' j.cmd then s else s'

/-! Safe points and staged work (R33, R333, R343, R376). -/

/-- The chaining state of the sessions that a stopped command worked on is discarded (R343, log 41). -/
def discardChain (c : Cmd) (s : State) : State :=
  if 0x5000 ≤ Cmd.opc c ∧ Cmd.opc c < 0x7000 then
    updSes (cCtx c) (fun p => { p with chain := [], aad := [], octets := 0, streamed := false, final := false }) s
  else s

/-- Plaintext of a GCM decryption that is already written is overwritten with zeros (R421). -/
def zeroWrote (j : JEntry) (s : State) : State :=
  match j.staged with
  | some g => if g.wrote ≠ 0 ∧ dmaOk s j.cmd.fn then
      emits (outWrites j.cmd (List.replicate g.wrote 0)) (hostMove g.wrote j.cmd.fn s) else s
  | none => s

/-- SAFE_POINT_STOP (R343, R376): a marked command stops; an operation of the public-key engine wipes first, and its
outcome follows the wipe (R455). -/
def execSafePointStop (tok : Nat) (s : State) : Host.Outcome State Fault Refusal :=
  .next <|
    match jent s tok with
    | none => s
    | some j =>
      let st := markStatus j.mark
      if j.outcome.isSome || decide (j.mark = .none) || j.remote || inRehash j then s
      else if safeAtOnce j then afterOutcome tok (cancel tok st s)
      else if j.staged.isSome then afterOutcome tok (settle tok st 0 [] (discardChain j.cmd (zeroWrote j s)))
      else match (List.range 4).find? (fun i => (unitOf s i).busy && (unitOf s i).tok == tok) with
        | some i => if pkeEnded s i then s else stopPke i j.cmd s
        | none => s

/-- The engines of the command are stopped (R525, R550). -/
def workStopped (c : Cmd) (s : State) : Bool := decide (0x5000 ≤ Cmd.opc c ∧ Cmd.opc c < 0x7000) && s.eng.stopped

/-- ENGINE_WORK_DONE (R33): the staged outcome is journalled; output that would touch an invalidated page ends the command
(R333). -/
def execEngineWorkDone (tok : Nat) (s : State) : Host.Outcome State Fault Refusal :=
  .next <|
    match jent s tok with
    | none => s
    | some j =>
      match j.staged with
      | none => s
      | some g =>
        if !j.started || j.outcome.isSome || j.remote || workStopped j.cmd s then s
        else if decide (j.mark = .dado) && !g.out.isEmpty then afterOutcome tok (settle tok 0x0802 0 [] s)
        else afterOutcome tok (settle tok g.status g.result g.out s)

/-! Completion entries (R344, R355, R362 to R365, R368). -/

/-- Writes a completion entry, its last four octets after the others, and raises the vector (R363 to R365). -/
def postEntry (f q : Nat) (tag : W32) (status tok epoch : Nat) (result : W32) (dev : Nat) (noirq : Bool) (s : State) : State :=
  let x := queueOf s f q
  let a := x.cqBase + 32 * (x.written % x.n)
  let e := complOctets tag status x.head tok epoch result (x.written / x.n % 2 == 0) dev
  let s := updQueue f q (fun x => { x with written := x.written + 1, waiting := x.waiting.tail, unreleased := x.unreleased ++ [tok] }) s
  let s := emits (dmaWrites f x.cqMap a (e.take 28) ++ dmaWrites f x.cqMap (a + 28) (e.drop 28))
    (pinnedLookup f (workFor 13 1 0 4 f (hostMove 32 f s)))
  if x.vecEn && !noirq then emit (.msix f x.vec) s else s

/-- The front of the waiting completions leaves without an entry. -/
def skipFront (f q : Nat) (s : State) : State := updQueue f q (fun x => { x with waiting := x.waiting.tail, fetched := x.fetched - 1 }) s

/-- The completion memory of the pair is still mapped for its next entry (R355). -/
def complReachable (x : Queue) : Bool := (pinnedBus x.cqMap (x.cqBase + 32 * (x.written % x.n))).isSome

/-- Output, then the entry, of a command whose outcome is journalled and mirrored (R33, R362); output that would touch an
invalidated page is not written, and the command ends TRANSLATION_FAULT (R333). -/
def postOutcome (f q : Nat) (tok : Nat) (j : JEntry) (o : Outcome) (s : State) : State :=
  let out := (j.staged.map (·.out)).getD []
  let bad := decide (j.mark = .dado) && !out.isEmpty
  let s := if out.isEmpty || bad then s else emits (outWrites j.cmd out) (hostMove out.length f s)
  let s := postEntry f q (cTag j.cmd) (if bad then 0x0802 else o.status) tok (outEpoch s j o) (if bad then 0 else o.result) o.dev
    (cNoirq j.cmd) s
  updJ tok (fun j => { j with written := true }) s

/-- A command that ends in START-UP: the device restarts once its completion is written (R593). -/
def restarts (j : JEntry) (o : Outcome) : Bool :=
  (Cmd.opc j.cmd == 0xD002 || Cmd.opc j.cmd == 0xD007 || Cmd.opc j.cmd == 0xD008) && o.status == 0 && !j.remote

/-- The front completion of a pair is written where its outcome is known and DMA is allowed. -/
def writeFront (f q : Nat) (s : State) : State :=
  let x := queueOf s f q
  if x.st = 0 ∨ ¬dmaOk s f ∨ ¬pairServed s f q then s
  else match x.waiting with
    | [] => s
    | .refused tag st noirq dev :: _ =>
      if complReachable x then postEntry f q tag st 0 s.sys.epoch 0 dev noirq s else skipFront f q s
    | .admitted t :: _ =>
      match jent s t with
      | none => skipFront f q s
      | some j =>
        if j.ledgered then skipFront f q s
        else match j.outcome with
          | none => s
          | some o =>
            if !j.outAck then s
            else if !complReachable x then ledgerTok t s
            else
              let s := postOutcome f q t j o s
              if restarts j o then resetDevice s else s

/-- COMPLETION_WRITE (R364). -/
def execCompletionWrite (f q : Nat) (s : State) : Host.Outcome State Fault Refusal := .next (writeFront f q s)

/-- Up to n completions of a pair. -/
def writeFronts (f q : Nat) : Nat → State → State
  | 0, s => s
  | n + 1, s => writeFronts f q n (writeFront f q s)

/-- BUS_MASTER_ENABLE_CHANGE (R337): a configuration write of the host; when it is set again, what waits is written in
order. -/
def execBusMasterEnableChange (f : Nat) (on : Bool) (s : State) : Host.Outcome State Fault Refusal :=
  .next <|
    if s.sys.held || !fnEnabled s f then s
    else if s.sys.startup then emit (.retryStatus f) s
    else
      let s := updFn f (fun x => { x with bme := on }) s
      if on then (List.range 16).foldl (fun s q => writeFronts f q (queueOf s f q).waiting.length s) s else s

end Sys2Proof.Machine
end

