-- ==== Sys2Proof/Machine/Mirror.lean ====
section
/-! DEFINITION. Mirror.lean: what the active mirrors, as the standby applies it (R195, R241, R296, R348, R568 to R570,
R583, R584; log 52). -/
namespace Sys2Proof.Machine

/-- Commands about the own host attachment's queues, the own volume, pairing, life cycle, firmware and span place: each
member has its own (log 52). -/
def ownMatters : List Nat :=
  [0x0010, 0x0011, 0xA010, 0xA013, 0xB001, 0xB003, 0xD001, 0xD002, 0xD004, 0xD005, 0xD007, 0xD008, 0xD00A, 0xE001, 0xE003]

/-- A ring of the active's number, with the salt that came for it (R195, R568). -/
def mirrorRing (c : Cmd) (epoch : Nat) (s : State) : State :=
  let m := bits (cw c 12) 4 0
  updRing (cw c 14).toNat (cCtx c) (fun r =>
    if m = 0 then default
    else { (default : Ring) with
      active := true, m := m, buf := cw64 c 8, ctl := cw64 c 10
      bufMap := toExtents ((lget c.maps 0 none).getD []), ctlMap := toExtents ((lget c.maps 1 none).getD [])
      vec := bits (cw c 12) 15 8, vecEn := bit (cw c 12) 16, salt := r.salt, view := r.view, tracker := r.tracker
      first := true, epoch := epoch }) s

/-- Effects of the configuration commands below 0x5000 on the standby. -/
def mirrorLow (c : Cmd) (epoch : Nat) (s : State) : State :=
  match Cmd.opc c with
  | 0x0020 => (sysTimecfgEff c s).st
  | 0x0021 => (sysTimestepEff c s).st
  | 0x0030 => (sysPortcfgEff c s).1
  | 0x0040 => (sysHostcfgEff c s).st
  | 0x0041 => (sysFnmapEff c s).st
  | 0x1001 => (streamMrateEff c s).st
  | 0x1002 => (streamCycrefEff c s).st
  | 0x1003 => (streamSubEff c s).1
  | 0x1004 => (streamUnsubEff c s).st
  | 0x1005 => (streamKeysEff c s).st
  | 0x2001 => (sheetHistoryEff c s).st
  | 0x2002 => (sheetGroupEff c s).st
  | 0x2003 => (sheetKeyEff c s).st
  | 0x2004 => mirrorRing c epoch s
  | 0x2005 => (sheetViewEff c s).st
  | 0x3001 => (trowelLoadEff c s).st
  | 0x3002 => (trowelBindEff c s).st
  | 0x3003 => (trowelStartEff c s).st
  | 0x3004 => (trowelStopEff c s).st
  | 0x3005 => (trowelUnloadEff c s).st
  | 0x4001 => (pubOpenEff c s).st
  | 0x4002 => (pubCloseEff c s).st
  | 0x4004 => (pubCurveEff c s).st
  | _ => s

/-- The others: an envelope is checked against this member's own entry, and a refusal is reported (R496). -/
def mirrorHigh (c : Cmd) (s : State) : State :=
  match Cmd.opc c with
  | 0x8003 => (rngPatternEff c s).st
  | 0x9001 => match keyApplyCheck c s with
    | some st => emit (.pair (.refuse c.tok st)) s
    | none => (keyApplyEff c s).st
  | 0xA001 => (recTrigEff c s).st
  | 0xA003 => (recLockEff c s).st
  | 0xB004 => updPair (fun p => { p with gen := 1, genExh := false }) s
  | 0xC002 => (logPolicyEff c s).st
  | _ => s

/-- The state epoch goes on from a mirrored one, and never goes back (R29, R30). -/
def seenEpoch (e : Nat) (s : State) : State :=
  { s with sys := { s.sys with epoch := max s.sys.epoch e, epochTop := blockTop e s.sys.epochTop } }

/-- A mirrored configuration change, with the epoch that it created (R30, R568); the epoch never goes back (R29). -/
def mirrorConfig (c : Cmd) (epoch : Nat) (s : State) : State :=
  let s := if ownMatters.contains (Cmd.opc c) then s
    else if Cmd.opc c < 0x5000 then mirrorLow c epoch s else mirrorHigh c s
  seenEpoch epoch s

/-- A mirrored change takes effect on the standby between two closing sequences that it affects, in its order (R27, R568). -/
def mirrorTurn (c : Cmd) (epoch : Nat) (s : State) : State :=
  if closingFor c s || !s.pair.mcfg.isEmpty then updPair (fun p => { p with mcfg := p.mcfg ++ [(c, epoch)] }) s
  else mirrorConfig c epoch s

/-- The oldest mirrored change that waits takes effect (R27, R568). -/
def takeMirrored (s : State) : State :=
  match s.pair.mcfg with
  | [] => s
  | (c, e) :: rest => if closingFor c s then s else mirrorConfig c e (updPair (fun p => { p with mcfg := rest }) s)

/-- CONFIG_TAKE_EFFECT (R27, R370): mirrored changes come before this member's own. -/
def execConfigTakeEffect (s : State) : Host.Outcome State Fault Refusal :=
  .next (if s.pair.mcfg.isEmpty then takeDeferred s else takeMirrored s)

/-- The shared journal sequence has reached a token (R34, R570). -/
def seenToken (t : Nat) (s : State) : State :=
  { s with sys := { s.sys with token := max s.sys.token t, tokenTop := blockTop t s.sys.tokenTop } }

/-- The stricter of two replay states: the greater HIGHX and, aligned to it, both windows (R569). -/
def stricterSv (p : SvPart) (highx : Nat) (window : W64) : SvPart :=
  if !p.wvalid then { p with highx := highx, window := window, wvalid := true }
  else
    let h := max p.highx highx
    { p with highx := h, window := (p.window <<< (h - p.highx)) ||| (window <<< (h - highx)) }

/-- The active's GOOSE sequence state where it is ahead of the own one under R157 (R569). -/
def stricterGoose (g : GoosePart) (stNum sqNum : Nat) (t : List Byte) : GoosePart :=
  if !g.gvalid || ahead32 stNum g.stNum || (stNum == g.stNum && ahead32 sqNum g.sqNum) then
    { g with stNum := stNum, sqNum := sqNum, t := t, gvalid := true }
  else g

/-- Mirrored publication state: the pending raise that made it is removed (R296, R297). -/
def mirrorPub (k stNum : Nat) (t : List Byte) (arg : W32) (host : List Byte) (raise : Option (Nat × Nat × Nat)) (s : State) : State :=
  let b := ((ctxOf s k).getD default).bp
  let now := curSlot s b
  let from_ := nextFire s b
  let s := updPub k (fun p =>
    let p := match p.nextCurve with | some (cv, st) => { p with curve := cv, tsteady := st, nextCurve := none } | none => p
    { p with
      stNum := stNum, sqNum := 0, t := t, svalid := true, stepPos := 0, nextTx := now + interval p 0, txFrom := from_
      argLast := arg
      host := if host.isEmpty then p.host else some host }) s
  match raise with
  | some (p, i, n) =>
    { s with publ := { s.publ with
      pend := s.publ.pend.filter (fun q => !(q.prog == p && q.entry == i && q.slot == n)), taken := (p, i, n) :: s.publ.taken } }
  | none => s

/-- The active has granted an admission entry: the command is admitted under its token (R570). -/
def grant (c : Cmd) (s : State) : State :=
  if s.pair.asked.contains { c with tok := 0 } then
    let s := seenToken c.tok (updPair (fun p => { p with asked := p.asked.filter (fun a => a != { c with tok := 0 }) }) s)
    let boot := fromBootstrap c s
    let s := admitted c s
    if boot then s else queueUp c (.admitted c.tok) s
  else s

/-- The active has refused an admission entry (R348). -/
def deny (c : Cmd) (st : Nat) (s : State) : State :=
  if s.pair.asked.contains c then refuse c st (updPair (fun p => { p with asked := p.asked.filter (fun a => a != c) }) s) else s

/-- What the standby does with a mirrored item. -/
def applyItemOf (m : MirrorItem) (s : State) : State :=
  match m with
  | .config c e => mirrorTurn c e s
  | .admission c =>
    emit (.pair (.ack c.tok)) (seenToken c.tok (updPair (fun p => { p with mjournal := mset p.mjournal c.tok (otherEntry s c) }) s))
  | .outcome tok st res e =>
    emit (.pair (.ack tok)) (updPair (fun p => { p with
      mjournal := mupd p.mjournal tok (fun j => { j with outcome := some ⟨st, res, e, s.pair.partner⟩ }) }) s)
  | .svDelta k h w => updCtx k (fun x => { x with sv := stricterSv x.sv h w }) s
  | .gooseDelta k st sq t true => updCtx k (fun x => { x with gs := stricterGoose x.gs st sq t }) s
  | .gooseDelta k _ _ _ false => updCtx k (fun x => { x with gs := { x.gs with gvalid := false, fault := true } }) s
  | .pubState k st t arg host raise tok =>
    let s := mirrorPub k st t arg host raise s
    if tok = 0 then emit (.pair (.ack 0)) s else s
  | .pubDelta k sq nx pos sp last =>
    updPub k (fun p => { p with
      sqNum := sq, nextTx := nx, txFrom := nextFire s (((ctxOf s k).getD default).bp), stepPos := pos, spdu := sp, lastSlot := last }) s
  | .ring f r prod last => updRing f r (fun x => { x with prod := prod, lastSlot := last, first := false }) s
  | .recnum n => { s with hawk := { s.hawk with recNum := max s.hawk.recNum n, recTop := blockTop n s.hawk.recTop } }
  | .mailbox p slot msg tok => updProg p (fun g => { g with inMsg := some (msg, slot, tok) }) s
  | .salt f r o => updRing f r (fun x => { x with salt := o }) s
  | .epoch e => seenEpoch e s
  | .released tok => updPair (fun p => { p with mjournal := mdel p.mjournal tok }) s
  | .granted c => grant c s
  | .denied c st => deny c st s
  | .trowelData p o => updProg p (fun g => { g with data := memWrN [] 0 o }) s

/-- MIRROR_ENTRY (R568 to R570). -/
def execMirrorEntry (m : MirrorItem) (s : State) : Host.Outcome State Fault Refusal :=
  .next (if pairStandby s then applyItemOf m s else s)

end Sys2Proof.Machine
end

