-- ==== Sys2Proof/Machine/Receive.lean ====
section
/-! DEFINITION. Receive.lean: a frame from the line through the port (R92 to R108, R117) and into Skim (R118, R119, R122 to
R129, R141). -/
namespace Sys2Proof.Machine

/-! The port (R105). -/

/-- Adds n to an error counter of a port and, where n is not 0, raises an event bit. -/
def portCount (port i n : Nat) (bitNo : Option Nat) (s : State) : State :=
  if n = 0 then s
  else match bitNo with
    | some b => portEvent port b (cntPort port i n s)
    | none => cntPort port i n s

/-- The receive association of a port that a SecTAG names (R109, R110): the current one up to slot SWITCH + OVERLAP of the
next one, and the next one from SWITCH − OVERLAP on. -/
def rxSa (s : State) (port : Nat) (t : SecTag) : Option Nat :=
  (s.skim.ctx.find? (fun x => x.2.st == 1 && channelOf port false t.sci x && x.2.sa.an == t.an &&
    (x.2.sa.current || decide (curSlot s (port / 2) ≥ x.2.switch - x.2.overlap)))).map (·.1)

/-- The ICV that a frame must carry under an association (R108; log 33): the octets after the addresses stand decrypted in
the frame. -/
def secIcv (s : State) (sa : SaPart) (t : SecTag) (body : List Byte) : List Byte :=
  (secProtect sa (slotKey s sa.keySlot) t.pn body).2

/-- MACsec verification (R105 step 5, R108): Strict, with the replay window; the association's lowest acceptable packet
number follows. None where the frame is dropped. -/
def macsecRx (port : Nat) (f : RxFrame) (s : State) : Option State :=
  match f.secTag with
  | none => none
  | some t =>
    match rxSa s port t with
    | none => none
    | some k =>
      let sa := ((ctxOf s k).getD default).sa
      if t.pn = 0 ∨ t.pn < sa.pn ∨ (slotFail s sa.keySlot [1]).isSome then none
      else if secIcv s sa t f.body = t.icv then
        some (updCtx k (fun x => { x with sa := { x.sa with pn := max x.sa.pn (t.pn + 1 - x.sa.replayWin) } }) s)
      else none

/-- A source address of frames that the device sends on a bus pair: its own, or a publication's (R93, R102). -/
def ownSource (s : State) (b mac : Nat) : Bool :=
  mac == bpMac b || s.skim.ctx.any (fun x => x.2.kind == 5 && x.2.bp == b && x.2.pub.srcMac == mac)

/-- PTP messages that stay on their link (R57, R104). -/
def linkLocal (f : RxFrame) : Bool := match f.payload with
  | .ptp (.pdelayResp ..) => true
  | .ptp (.pdelayReq ..) => true
  | _ => false

/-- The opposite port of a bus pair. -/
def opposite (port : Nat) : Nat := if port % 2 = 0 then port + 1 else port - 1

/-- The ring frame is forwarded: it has an HSR tag, is not for this node only, has not been forwarded, and the opposite port
can send it (R102); not during the pair listen (R567). -/
def hsrForwards (port q : Nat) (f : RxFrame) (s : State) : Bool :=
  f.dst != bpMac (port / 2) && !linkLocal f && s.pair.listen.isNone && canQueue s (opposite port) &&
  !(lget s.ports port default).fwd.contains (f.src, q)

/-- Forwards a ring frame to the opposite port under the HSR tag it came with, and remembers it among the last 32,767
sequence numbers of its source (R102, R104; log 57). -/
def hsrForward (port q : Nat) (f : RxFrame) (s : State) : State :=
  let keep (e : Nat × Nat) : Bool := e.1 != f.src || decide ((q + 65536 - e.2) % 65536 < 32768)
  let b := port / 2
  let delay := if port % 2 = 1 then (bpOf s b).mpdB else (bpOf s b).mpdA
  let s := updPort port (fun p => { p with fwd := (f.src, q) :: p.fwd.filter keep }) (cntPort port 13 1 s)
  let g : TxFrame :=
    { body := .hsrForward f s.time.clock delay, plain := f.body, red := 2, seq := q, vlan := f.ctags.headD 0, src := f.src
      octets := 0, macsec := none, wire := [] }
  enqueue (opposite port) 2 { g with octets := wireOctets g } s

/-- The HSR decision (R102, R105 step 6): own frames are removed, ring frames forwarded; whether the frame is for this
node. -/
def hsrDecide (port : Nat) (f : RxFrame) (s : State) : State × Bool :=
  if (cfgOf s (port / 2)).redun ≠ 2 then (s, true)
  else if ownSource s (port / 2) f.src then (cntPort port 14 1 s, false)
  else
    let s := match f.hsr with
      | some q => if hsrForwards port q f s then hsrForward port q f s else s
      | none => s
    (s, f.dst == bpMac (port / 2) || decide (f.dst / 2 ^ 40 % 2 = 1))

/-- A frame with a bad FCS (R103, R105 step 3): without MACsec a ring frame is already on its way, and ends there with an
invalid FCS (log 57). -/
def badFcs (port : Nat) (f : RxFrame) (s : State) : State :=
  let s := cntPort port 2 1 s
  let c := cfgOf s (port / 2)
  match f.hsr with
  | some q =>
    if c.redun = 2 ∧ ¬c.macsec ∧ ¬ownSource s (port / 2) f.src ∧ hsrForwards port q f s then hsrForward port q f s else s
  | none => s

/-- A PTP frame. -/
def isPtp (f : RxFrame) : Bool := match f.payload with
  | .ptp _ => true
  | _ => false

/-- The RCT is checked (R100, R105 step 7); PTP messages carry none (R57). -/
def checkRct (port : Nat) (f : RxFrame) (s : State) : State :=
  if (cfgOf s (port / 2)).redun ≠ 1 ∨ isPtp f = true then s
  else match f.rct with
    | none => cntPort port 8 1 s
    | some (_, lan) => if lan = 0xA + port % 2 then s else portEvent port 7 (cntPort port 9 1 s)

/-! Skim (R118). -/

/-- An ARP request or neighbour solicitation for an address of the bus pair is answered in ACTIVE (R94). -/
def answerArp (b asker : Nat) (target sender : List Byte) (s : State) : State :=
  let c := cfgOf s b
  if mode s = 2 ∧ inService s = true ∧ target ≠ [] ∧ (target = c.ip4 ∨ target = c.ip6) then
    sendBoth b 3 (.arpReply target) (addressReply (bpMac b) asker target sender) 0 (bpMac b) s
  else s

/-- The rest of a frame that step 3 has not read is read (R122). -/
def wholeRead (h : HeldFrame) (s : State) : State × Bool :=
  if (dupSeq s (h.port / 2) h.frame).isSome then (s, true) else readWords h parsedWords h.words.length s

/-- A frame after step 3: heartbeats go to the pair controller, requests for addresses are answered, and the rest is
classified (R94, R116, R118). -/
def afterDup (h : HeldFrame) (tracked : Bool) (s : State) : State :=
  match h.frame.payload with
  | .heartbeat m =>
    match wholeRead h s with
    | (s, true) => closeDup h tracked true none (busHeartbeat (h.port / 2) h.frame.dst h.frame.src m s)
    | (s, false) => s
  | .arp t a =>
    match wholeRead h s with
    | (s, true) => closeDup h tracked true none (answerArp (h.port / 2) h.frame.src t a s)
    | (s, false) => s
  | _ => skimFrom4 h tracked s

/-- Step 3 (R122 to R129): the digest reads the whole frame; a copy that meets a pending one keeps its buffer space and
waits. -/
def skimStep3 (h : HeldFrame) (s : State) : State :=
  let b := h.port / 2
  let n := h.frame.octets
  match dupSeq s b h.frame with
  | none => bufFree n (afterDup h false s)
  | some q =>
    match readWords h parsedWords h.words.length s with
    | (s, false) => bufFree n s
    | (s, true) =>
      match dupCheck b h.frame.src q (digestOf s h.frame) s with
      | (s, .unchecked) => bufFree n (afterDup h false s)
      | (s, .taken) => bufFree n (afterDup h true s)
      | (s, .pending) => { s with skim := { s.skim with dupWait := s.skim.dupWait ++ [h] } }
      | (s, .accepted) =>
        let p := (dupPos s b h.frame.src q).getD ⟨q, true, 0, none⟩
        bufFree n (dropDup b h.frame.src q p s)

/-- Payloads that the pair listen passes (R567). -/
def listenPasses (f : RxFrame) : Bool := match f.payload with
  | .heartbeat _ => true
  | .ptp _ => true
  | _ => false

/-- A frame that the ingress buffer cannot store is dropped by the class of its context (R163). -/
def noRoom (b : Nat) (f : RxFrame) (s : State) : State :=
  match (frameKey b f).bind (classify s) with
  | some k => dropOvl5 k ((ctxOf s k).getD default).dclass s
  | none => cntSkim 2 1 s

/-- A frame handed to Skim (R118, R119, R122): stored, parsed, and sent on its way. -/
def skimReceive (port : Nat) (f : RxFrame) (s : State) : State :=
  let b := port / 2
  let s := cntSkim 0 1 s
  if s.skim.buf + f.octets > 4194304 then noRoom b f s
  else
    let (h, s) := heldFrame port f (bufTake f.octets s)
    match readWords h 0 parsedWords s with
    | (s, false) => bufFree f.octets s
    | (s, true) =>
      if s.pair.listen.isSome ∧ listenPasses f = false then bufFree f.octets s
      else match f.payload with
        | .other => bufFree f.octets (cntSkim 1 1 s)
        | .supervision => bufFree f.octets (cntSkim 1 1 s)
        | .ptp m =>
          bufFree f.octets (match readWords h parsedWords h.words.length s, m with
            | (s, true), .pdelayReq d q p => answerPdelay port d q p s
            | (s, true), m => ptpReceive port m s
            | (s, false), _ => s)
        | _ => skimStep3 h s

/-- Steps 5 to 8 of R105. -/
def rxFrom5 (port : Nat) (f : RxFrame) (s : State) : State :=
  let go (f : RxFrame) (s : State) : State :=
    match hsrDecide port f s with
    | (s, false) => s
    | (s, true) => skimReceive port f (checkRct port f s)
  if (cfgOf s (port / 2)).macsec then
    match macsecRx port f s with
    | some s => go f s
    | none => portEvent port 4 (cntPort port 7 1 s)
  else go (if f.secTag.isSome then { f with payload := .other } else f) s

/-- FRAME_RECEIVE (R92, R95, R105): a port that is UP or DEGRADED receives; FCS, length and tags are checked in order. -/
def execFrameReceive (port : Nat) (f : RxFrame) (s : State) : Host.Outcome State Fault Refusal :=
  .next <|
    if !portUp (lget s.ports port default) || s.sys.held then s
    else
      let s := cntPort port 1 f.octets (cntPort port 0 1 s)
      let s := portCount port 6 f.fecUncorr (some 3) (portCount port 5 f.fecCorr none s)
      if !f.fcsOk then badFcs port f s
      else if f.octets < 64 ∨ f.octets > 1600 then cntPort port 3 1 s
      else if f.stag || decide (f.ctags.length ≥ 2) then cntPort port 4 1 s
      else rxFrom5 port f s

/-! Waiting frames. -/

/-- DUP_WAIT_RELEASE (R125): discarded when the pending copy was accepted; in its place when that was dropped. -/
def execDupWaitRelease (b src seq : Nat) (s : State) : Host.Outcome State Fault Refusal :=
  .next <|
    let mine (h : HeldFrame) : Bool := h.port / 2 == b && h.frame.src == src && dupSeq s b h.frame == some seq
    match s.skim.dupWait.find? mine with
    | none => s
    | some h =>
      let n := h.frame.octets
      let s' : State := { s with skim := { s.skim with dupWait := s.skim.dupWait.eraseP mine } }
      match dupPos s b src seq with
      | some p => if p.accepted then bufFree n (dropDup b src seq p s') else s
      | none => skimStep3 h s'

/-- CONTEXT_FETCH_DONE (R141): the frames that wait for the context go on; a failed check of the context table's sector
stops the device, which check it was being left open (log 2). -/
def execContextFetchDone (k : Nat) (ok : Bool) (s : State) : Host.Outcome State Fault Refusal :=
  .next <|
    if s.skim.fetchWait.any (fun e => e.1 == k) && !s.sys.held && !s.sys.startup then
      if ok then resumeFetch k s
      else
        let (i, s) := fresh s
        sealFail (1 + Config.freeNat i % 4) 1 (k / 2) (pcOf s 1 (k / 2)) s
    else s

end Sys2Proof.Machine
end

