-- ==== Sys2Proof/Machine/EzSys.lean ====
section
/-! DEFINITION. EzSys.lean: the rest of the system group, special registers, and the stops of slot work (R235, R236, R239,
R254, R266, R267, R280). -/
namespace Sys2Proof.Machine

/-- BRK: raises BREAK (R266, R282). -/
def execBrk (p : Nat) (st : State) : Host.Outcome State Fault Refusal :=
  .next (issue p (encR 0x03 0 0 0 0 0x003) (fun g => raiseExc p 7 g) st)

/-- YIELD: ends slot work (R235, R280). -/
def execYield (p : Nat) (st : State) : Host.Outcome State Fault Refusal :=
  .next (issue p (encR 0x03 0 0 0 0 0x010) (fun _ s =>
    yieldWork p (updProg p (fun g => { g with budget := g.budget - 1 }) s)) st)

/-- The event of a wait has occurred, with the value it returns (R236, R267); a tracker without a reference is never
evaluated, and its event returns 0 at once (log 33). -/
def evOccurred (s : State) (g : Prog) (e : Nat) : Option W32 :=
  if e = 0 then
    if g.bind_.sheets.all (fun x => (fixedRow s (x / 256) (x % 256) g.slot).isSome) then some 0 else none
  else
    let t := lget s.time.trk g.bind_.bp default
    if (refInUse t).isNone then some 0
    else if t.evalSlot.any (fun n => decide (g.slot ≤ n)) then
      some (if t.evalSlot == some g.slot && t.evalFired then 1 else 0)
    else none

/-- WAIT_EV: returns at once where the event has occurred, else waits (R236). -/
def execWaitEv (p : Nat) (d e : Fld4) (st : State) : Host.Outcome State Fault Refusal :=
  .next (issue p (encR 0x03 d 0 e 0 0x011) (fun g s =>
    match evOccurred s g e.toNat with
    | some v => finishNext p 1 (gset d v) g s
    | none => updProg p (fun g => { g with phase := .waitEv d.toNat e.toNat, budget := g.budget - 1 }) s) st)

/-- The event that a program waits for. -/
def waitsFor (s : State) (p : Nat) : Option (Prog × Nat × Nat) :=
  match progOf s p with
  | some g =>
    match g.phase with
    | .waitEv d e => (holder s p (.waitEv d e)).map (fun g => (g, d, e))
    | _ => none
  | none => none

/-- WAIT_EV_RETURN: the awaited event occurs and the wait returns (R236). -/
def execWaitEvReturn (p : Nat) (st : State) : Host.Outcome State Fault Refusal :=
  .next <|
    match waitsFor st p with
    | some (g, d, e) =>
      match evOccurred st g e with
      | some v => finishNext p 0 (fun g => { gset (BitVec.ofNat 4 d) v g with phase := .running }) g st
      | none => st
    | none => st

/-- PUB_RAISE: RAISED 0, UNBOUND 1 or REPEAT 2 to d; 4 cycles (R239, R280). -/
def execPubRaise (p : Nat) (d a i : Fld4) (st : State) : Host.Outcome State Fault Refusal :=
  .next (issue p (encR 0x03 d a i 0 0x012) (fun g s =>
    if g.raised.contains i.toNat then finishNext p 4 (gset d 2) g (cntTrw 6 1 s)
    else
      match raiseCtx s g i.toNat with
      | none => finishNext p 4 (gset d 1) g (cntTrw 6 1 s)
      | some k =>
        raised p i.toNat k (gget g a) g (finishNext p 4 (fun g => gset d 0 { g with raised := g.raised ++ [i.toNat] }) g s)) st)

/-- A special register as read (R254). -/
def special (g : Prog) (n : Nat) : W32 :=
  match n with
  | 0 => g.pc
  | 1 => g.flags
  | 2 => BitVec.ofNat 32 g.slot
  | 3 => BitVec.ofNat 32 (g.slot / 2 ^ 32)
  | 4 => BitVec.ofNat 32 g.cycle
  | 5 => BitVec.ofNat 32 g.budget
  | 6 => g.cause
  | _ => g.epc

/-- MFS: reads a special register (R254). -/
def execMfs (p : Nat) (d sr : Fld4) (st : State) : Host.Outcome State Fault Refusal :=
  .next (issue p (encR 0x03 d sr 0 0 0x020) (fun g => finishNext p 1 (gset d (special g sr.toNat)) g) st)

/-- MTS: FLAGS is the one special register a program writes, bits [3:0] (R254, R267). -/
def execMts (p : Nat) (sr a : Fld4) (st : State) : Host.Outcome State Fault Refusal :=
  .next (issue p (encR 0x03 sr a 0 0 0x021) (fun g => finishNext p 1 (fun g => { g with flags := gget g a &&& 0xF }) g) st)

/-- The program is in slot work that holds its core. -/
def inWork (s : State) (p : Nat) : Option Prog :=
  match progOf s p with
  | some g => if g.phase != .idle && g.phase != .queued && runningOn s g.core == some p then some g else none
  | none => none

/-- BUDGET_STOP (R235, R280): between instructions, or a wait abandoned without effect. -/
def execBudgetStop (p : Nat) (st : State) : Host.Outcome State Fault Refusal :=
  .next <|
    match inWork st p with
    | some g => if g.budget = 0 then stopWork p 1 0 st else st
    | none => st

/-- The Trowel cut-off of a program's slot work: 7 µs after the slot-close event of its slot (R177). -/
def cutoffPast (s : State) (g : Prog) : Bool :=
  match (groupOf s g.bind_.bp g.bind_.group).closed with
  | some (n, at_) => decide (g.slot < n) || decide (s.time.tai ≥ at_ + 7000)
  | none => false

/-- TROWEL_CUTOFF (R177, R235): slot work that has not ended stops; with BUDGET at 0 in the same cycle the budget is
reported (R280). -/
def execTrowelCutoff (p : Nat) (st : State) : Host.Outcome State Fault Refusal :=
  .next <|
    match progOf st p with
    | some g =>
      if g.phase != .idle && cutoffPast st g then
        stopWork p (if g.phase != .queued && g.budget == 0 then 1 else 2) 0 st
      else st
    | none => st

end Sys2Proof.Machine
end

