-- ==== Sys2Proof/Machine/Tick.lean ====
section
/-! DEFINITION. Tick.lean: what passes with one nanosecond when no command waits (log 4): time, and the cycles that a
program is charged while it waits on its core (R178, R236, R280). -/
namespace Sys2Proof.Machine

/-- A program waits inside slot work: for a row or for an event. -/
def waitsInside (g : Prog) : Bool :=
  match g.phase with
  | .waitRow => true
  | .waitEv .. => true
  | _ => false

/-- One cycle of 1 ns on each core whose program waits; BUDGET does not go below 0 (R280). -/
def chargeWaiters (s : State) : State :=
  { s with trowel := { s.trowel with progs := s.trowel.progs.map (fun e =>
      if waitsInside e.2 && lget s.trowel.running e.2.core none == some e.1 then
        (e.1, { e.2 with budget := e.2.budget - 1 }) else e) } }

/-- The step of an empty queue. -/
def idle (s : State) : State := chargeWaiters (tick s)

end Sys2Proof.Machine
end

