-- ==== Sys2Proof/Machine/Dispatch.lean ====
section
/-! DEFINITION. Dispatch.lean: one arm per command, each a direct call of its meaning. -/
namespace Sys2Proof.Machine

/-- The effect of a command on everything but the queue. -/
def exec (i : Instr) (s : State) : Host.Outcome State Fault Refusal :=
  match i with
  | .sysInfo c => Sys2Proof.Machine.execSysInfo c s
  | .sysQcreate c => Sys2Proof.Machine.execSysQcreate c s
  | .sysQdelete c => Sys2Proof.Machine.execSysQdelete c s
  | .sysLedger c => Sys2Proof.Machine.execSysLedger c s
  | .sysTimecfg c => Sys2Proof.Machine.execSysTimecfg c s
  | .sysTimestep c => Sys2Proof.Machine.execSysTimestep c s
  | .sysPortcfg c => Sys2Proof.Machine.execSysPortcfg c s
  | .sysHostcfg c => Sys2Proof.Machine.execSysHostcfg c s
  | .sysFnmap c => Sys2Proof.Machine.execSysFnmap c s
  | .sysDadoinv c => Sys2Proof.Machine.execSysDadoinv c s
  | .sysFnreset c => Sys2Proof.Machine.execSysFnreset c s
  | .cmdAbort c => Sys2Proof.Machine.execCmdAbort c s
  | .streamMrate c => Sys2Proof.Machine.execStreamMrate c s
  | .streamCycref c => Sys2Proof.Machine.execStreamCycref c s
  | .streamSub c => Sys2Proof.Machine.execStreamSub c s
  | .streamUnsub c => Sys2Proof.Machine.execStreamUnsub c s
  | .streamKeys c => Sys2Proof.Machine.execStreamKeys c s
  | .streamStats c => Sys2Proof.Machine.execStreamStats c s
  | .sheetHistory c => Sys2Proof.Machine.execSheetHistory c s
  | .sheetGroup c => Sys2Proof.Machine.execSheetGroup c s
  | .sheetKey c => Sys2Proof.Machine.execSheetKey c s
  | .sheetRing c => Sys2Proof.Machine.execSheetRing c s
  | .sheetView c => Sys2Proof.Machine.execSheetView c s
  | .trowelLoad c => Sys2Proof.Machine.execTrowelLoad c s
  | .trowelBind c => Sys2Proof.Machine.execTrowelBind c s
  | .trowelStart c => Sys2Proof.Machine.execTrowelStart c s
  | .trowelStop c => Sys2Proof.Machine.execTrowelStop c s
  | .trowelUnload c => Sys2Proof.Machine.execTrowelUnload c s
  | .trowelMbsend c => Sys2Proof.Machine.execTrowelMbsend c s
  | .trowelRetire c => Sys2Proof.Machine.execTrowelRetire c s
  | .pubOpen c => Sys2Proof.Machine.execPubOpen c s
  | .pubClose c => Sys2Proof.Machine.execPubClose c s
  | .pubSend c => Sys2Proof.Machine.execPubSend c s
  | .pubCurve c => Sys2Proof.Machine.execPubCurve c s
  | .pubStats c => Sys2Proof.Machine.execPubStats c s
  | .cphOpen c => Sys2Proof.Machine.execCphOpen c s
  | .cphClose c => Sys2Proof.Machine.execCphClose c s
  | .cphRun c => Sys2Proof.Machine.execCphRun c s
  | .cphSave c => Sys2Proof.Machine.execCphSave c s
  | .cphRestore c => Sys2Proof.Machine.execCphRestore c s
  | .hshDigest c => Sys2Proof.Machine.execHshDigest c s
  | .hshMac c => Sys2Proof.Machine.execHshMac c s
  | .hshOpen c => Sys2Proof.Machine.execHshOpen c s
  | .hshUpdate c => Sys2Proof.Machine.execHshUpdate c s
  | .hshFinal c => Sys2Proof.Machine.execHshFinal c s
  | .pkeSign c => Sys2Proof.Machine.execPkeSign c s
  | .pkeVerify c => Sys2Proof.Machine.execPkeVerify c s
  | .pkeAgree c => Sys2Proof.Machine.execPkeAgree c s
  | .pkeEncap c => Sys2Proof.Machine.execPkeEncap c s
  | .pkeDecap c => Sys2Proof.Machine.execPkeDecap c s
  | .pkeKeygen c => Sys2Proof.Machine.execPkeKeygen c s
  | .rngGet c => Sys2Proof.Machine.execRngGet c s
  | .rngReseed c => Sys2Proof.Machine.execRngReseed c s
  | .rngPattern c => Sys2Proof.Machine.execRngPattern c s
  | .keyApply c => Sys2Proof.Machine.execKeyApply c s
  | .keyInfo c => Sys2Proof.Machine.execKeyInfo c s
  | .keyTarget c => Sys2Proof.Machine.execKeyTarget c s
  | .recTrig c => Sys2Proof.Machine.execRecTrig c s
  | .recFire c => Sys2Proof.Machine.execRecFire c s
  | .recLock c => Sys2Proof.Machine.execRecLock c s
  | .recList c => Sys2Proof.Machine.execRecList c s
  | .volAttach c => Sys2Proof.Machine.execVolAttach c s
  | .volIo c => Sys2Proof.Machine.execVolIo c s
  | .volRead c => Sys2Proof.Machine.execVolRead c s
  | .volRekey c => Sys2Proof.Machine.execVolRekey c s
  | .pairCfg c => Sys2Proof.Machine.execPairCfg c s
  | .pairStatus c => Sys2Proof.Machine.execPairStatus c s
  | .pairHandover c => Sys2Proof.Machine.execPairHandover c s
  | .pairRenumber c => Sys2Proof.Machine.execPairRenumber c s
  | .logRead c => Sys2Proof.Machine.execLogRead c s
  | .logPolicy c => Sys2Proof.Machine.execLogPolicy c s
  | .logClear c => Sys2Proof.Machine.execLogClear c s
  | .svcEnter c => Sys2Proof.Machine.execSvcEnter c s
  | .svcExit c => Sys2Proof.Machine.execSvcExit c s
  | .svcChallenge c => Sys2Proof.Machine.execSvcChallenge c s
  | .svcOfficer c => Sys2Proof.Machine.execSvcOfficer c s
  | .svcTamper c => Sys2Proof.Machine.execSvcTamper c s
  | .svcFlagclear c => Sys2Proof.Machine.execSvcFlagclear c s
  | .svcEnrol c => Sys2Proof.Machine.execSvcEnrol c s
  | .svcRelease c => Sys2Proof.Machine.execSvcRelease c s
  | .svcAttest c => Sys2Proof.Machine.execSvcAttest c s
  | .svcFwloadImage c => Sys2Proof.Machine.execSvcFwloadImage c s
  | .svcFwloadBudget c => Sys2Proof.Machine.execSvcFwloadBudget c s
  | .svcFwloadTrims c => Sys2Proof.Machine.execSvcFwloadTrims c s
  | .svcFwloadServo c => Sys2Proof.Machine.execSvcFwloadServo c s
  | .spanCfg c => Sys2Proof.Machine.execSpanCfg c s
  | .spanStatus c => Sys2Proof.Machine.execSpanStatus c s
  | .spanRoute c => Sys2Proof.Machine.execSpanRoute c s
  | .spanOutcome c => Sys2Proof.Machine.execSpanOutcome c s
  | .diagKat c => Sys2Proof.Machine.execDiagKat c s
  | .diagSelftest c => Sys2Proof.Machine.execDiagSelftest c s
  | .diagInject c => Sys2Proof.Machine.execDiagInject c s
  | .commandFetch fn qp mem => Sys2Proof.Machine.execCommandFetch fn qp mem s
  | .completionWrite fn qp => Sys2Proof.Machine.execCompletionWrite fn qp s
  | .configTakeEffect => Sys2Proof.Machine.execConfigTakeEffect s
  | .safePointStop tok => Sys2Proof.Machine.execSafePointStop tok s
  | .budgetWaitExceeded tok => Sys2Proof.Machine.execBudgetWaitExceeded tok s
  | .engineWorkDone tok => Sys2Proof.Machine.execEngineWorkDone tok s
  | .pkeResultReady unit => Sys2Proof.Machine.execPkeResultReady unit s
  | .pkeWipeDone unit => Sys2Proof.Machine.execPkeWipeDone unit s
  | .add p fl d a b => Sys2Proof.Machine.execAdd p fl d a b s
  | .sub p fl d a b => Sys2Proof.Machine.execSub p fl d a b s
  | .adds p fl d a b => Sys2Proof.Machine.execAdds p fl d a b s
  | .subs p fl d a b => Sys2Proof.Machine.execSubs p fl d a b s
  | .and p fl d a b => Sys2Proof.Machine.execAnd p fl d a b s
  | .or p fl d a b => Sys2Proof.Machine.execOr p fl d a b s
  | .xor p fl d a b => Sys2Proof.Machine.execXor p fl d a b s
  | .andn p fl d a b => Sys2Proof.Machine.execAndn p fl d a b s
  | .shl p fl d a b => Sys2Proof.Machine.execShl p fl d a b s
  | .shr p fl d a b => Sys2Proof.Machine.execShr p fl d a b s
  | .sar p fl d a b => Sys2Proof.Machine.execSar p fl d a b s
  | .abs p fl d a => Sys2Proof.Machine.execAbs p fl d a s
  | .min p fl d a b => Sys2Proof.Machine.execMin p fl d a b s
  | .max p fl d a b => Sys2Proof.Machine.execMax p fl d a b s
  | .minu p fl d a b => Sys2Proof.Machine.execMinu p fl d a b s
  | .maxu p fl d a b => Sys2Proof.Machine.execMaxu p fl d a b s
  | .clz p fl d a => Sys2Proof.Machine.execClz p fl d a s
  | .mul p fl d a b => Sys2Proof.Machine.execMul p fl d a b s
  | .mulh p fl d a b => Sys2Proof.Machine.execMulh p fl d a b s
  | .mulhu p fl d a b => Sys2Proof.Machine.execMulhu p fl d a b s
  | .addi p d a imm => Sys2Proof.Machine.execAddi p d a imm s
  | .andi p d a imm => Sys2Proof.Machine.execAndi p d a imm s
  | .ori p d a imm => Sys2Proof.Machine.execOri p d a imm s
  | .xori p d a imm => Sys2Proof.Machine.execXori p d a imm s
  | .shli p d a n => Sys2Proof.Machine.execShli p d a n s
  | .shri p d a n => Sys2Proof.Machine.execShri p d a n s
  | .sari p d a n => Sys2Proof.Machine.execSari p d a n s
  | .lui p d imm => Sys2Proof.Machine.execLui p d imm s
  | .cmpi p a imm => Sys2Proof.Machine.execCmpi p a imm s
  | .ldW p d a mode b sc disp => Sys2Proof.Machine.execLdW p d a mode b sc disp s
  | .ldH p d a mode b sc disp => Sys2Proof.Machine.execLdH p d a mode b sc disp s
  | .ldHu p d a mode b sc disp => Sys2Proof.Machine.execLdHu p d a mode b sc disp s
  | .ldB p d a mode b sc disp => Sys2Proof.Machine.execLdB p d a mode b sc disp s
  | .ldBu p d a mode b sc disp => Sys2Proof.Machine.execLdBu p d a mode b sc disp s
  | .ldA p d a mode b sc disp => Sys2Proof.Machine.execLdA p d a mode b sc disp s
  | .stW p d a mode b sc disp => Sys2Proof.Machine.execStW p d a mode b sc disp s
  | .stH p d a mode b sc disp => Sys2Proof.Machine.execStH p d a mode b sc disp s
  | .stB p d a mode b sc disp => Sys2Proof.Machine.execStB p d a mode b sc disp s
  | .stA p d a mode b sc disp => Sys2Proof.Machine.execStA p d a mode b sc disp s
  | .bCc p cond off => Sys2Proof.Machine.execBCc p cond off s
  | .callCc p cond off => Sys2Proof.Machine.execCallCc p cond off s
  | .dbnz p cond off => Sys2Proof.Machine.execDbnz p cond off s
  | .dadd p d a b => Sys2Proof.Machine.execDadd p d a b s
  | .dsub p d a b => Sys2Proof.Machine.execDsub p d a b s
  | .dmul p d a b => Sys2Proof.Machine.execDmul p d a b s
  | .dpack p d a b => Sys2Proof.Machine.execDpack p d a b s
  | .dswap p d a => Sys2Proof.Machine.execDswap p d a s
  | .mulAx p fl d a b => Sys2Proof.Machine.execMulAx p fl d a b s
  | .mac p fl d a b => Sys2Proof.Machine.execMac p fl d a b s
  | .msu p fl d a b => Sys2Proof.Machine.execMsu p fl d a b s
  | .mulu p fl d a b => Sys2Proof.Machine.execMulu p fl d a b s
  | .macu p fl d a b => Sys2Proof.Machine.execMacu p fl d a b s
  | .msuu p fl d a b => Sys2Proof.Machine.execMsuu p fl d a b s
  | .macs p fl d a b => Sys2Proof.Machine.execMacs p fl d a b s
  | .msus p fl d a b => Sys2Proof.Machine.execMsus p fl d a b s
  | .dmac p fl d a b => Sys2Proof.Machine.execDmac p fl d a b s
  | .dmacn p fl d a b => Sys2Proof.Machine.execDmacn p fl d a b s
  | .dmacx p fl d a b => Sys2Proof.Machine.execDmacx p fl d a b s
  | .acclr p fl d => Sys2Proof.Machine.execAcclr p fl d s
  | .acw p fl d a b => Sys2Proof.Machine.execAcw p fl d a b s
  | .acl p fl d a => Sys2Proof.Machine.execAcl p fl d a s
  | .ach p fl d a => Sys2Proof.Machine.execAch p fl d a s
  | .acr p fl d a n => Sys2Proof.Machine.execAcr p fl d a n s
  | .jr p a => Sys2Proof.Machine.execJr p a s
  | .callr p a => Sys2Proof.Machine.execCallr p a s
  | .ret p => Sys2Proof.Machine.execRet p s
  | .brk p => Sys2Proof.Machine.execBrk p s
  | .yield p => Sys2Proof.Machine.execYield p s
  | .waitEv p d e => Sys2Proof.Machine.execWaitEv p d e s
  | .waitEvReturn p => Sys2Proof.Machine.execWaitEvReturn p s
  | .rowFixedWake p => Sys2Proof.Machine.execRowFixedWake p s
  | .pubRaise p d a ix => Sys2Proof.Machine.execPubRaise p d a ix s
  | .mfs p d sr => Sys2Proof.Machine.execMfs p d sr s
  | .mts p sr a => Sys2Proof.Machine.execMts p sr a s
  | .budgetStop p => Sys2Proof.Machine.execBudgetStop p s
  | .trowelCutoff p => Sys2Proof.Machine.execTrowelCutoff p s
  | .sqTailDoorbell fn qp v => Sys2Proof.Machine.execSqTailDoorbell fn qp v s
  | .queueBootstrap fn mem => Sys2Proof.Machine.execQueueBootstrap fn mem s
  | .cqHeadDoorbell fn qp v => Sys2Proof.Machine.execCqHeadDoorbell fn qp v s
  | .ringConsWrite fn ring v => Sys2Proof.Machine.execRingConsWrite fn ring v s
  | .sysResetWrite v => Sys2Proof.Machine.execSysResetWrite v s
  | .evtW1cWrite fn off v => Sys2Proof.Machine.execEvtW1cWrite fn off v s
  | .registerWrite fn off v => Sys2Proof.Machine.execRegisterWrite fn off v s
  | .loRegisterRead fn off => Sys2Proof.Machine.execLoRegisterRead fn off s
  | .shFieldRead off => Sys2Proof.Machine.execShFieldRead off s
  | .pcieConfigRequest fn => Sys2Proof.Machine.execPcieConfigRequest fn s
  | .functionLevelReset fn => Sys2Proof.Machine.execFunctionLevelReset fn s
  | .conventionalReset => Sys2Proof.Machine.execConventionalReset s
  | .vfEnableChange on num => Sys2Proof.Machine.execVfEnableChange on num s
  | .busMasterEnableChange fn on => Sys2Proof.Machine.execBusMasterEnableChange fn on s
  | .spdmRequest r => Sys2Proof.Machine.execSpdmRequest r s
  | .ucieLinkTraining partnerLath rates repaired => Sys2Proof.Machine.execUcieLinkTraining partnerLath rates repaired s
  | .ucieFlitReceive f => Sys2Proof.Machine.execUcieFlitReceive f s
  | .ucieRetrain replays flits => Sys2Proof.Machine.execUcieRetrain replays flits s
  | .porstNAssert => Sys2Proof.Machine.execPorstNAssert s
  | .porstNDeassert b => Sys2Proof.Machine.execPorstNDeassert b s
  | .railUndervoltage => Sys2Proof.Machine.execRailUndervoltage s
  | .vauxLow => Sys2Proof.Machine.execVauxLow s
  | .backupSample events => Sys2Proof.Machine.execBackupSample events s
  | .advanceRetry => Sys2Proof.Machine.execAdvanceRetry s
  | .scrimCheck net sent got short => Sys2Proof.Machine.execScrimCheck net sent got short s
  | .tamperEvent src engine lane cls owner => Sys2Proof.Machine.execTamperEvent src engine lane cls owner s
  | .jtagAccess op => Sys2Proof.Machine.execJtagAccess op s
  | .portSignalLoss port => Sys2Proof.Machine.execPortSignalLoss port s
  | .portUp port negotiated => Sys2Proof.Machine.execPortUp port negotiated s
  | .portDegraded port errs => Sys2Proof.Machine.execPortDegraded port errs s
  | .portUndegrade port => Sys2Proof.Machine.execPortUndegrade port s
  | .frameReceive port f => Sys2Proof.Machine.execFrameReceive port f s
  | .dupWaitRelease bp src seq => Sys2Proof.Machine.execDupWaitRelease bp src seq s
  | .contextFetchDone ctx ok => Sys2Proof.Machine.execContextFetchDone ctx ok s
  | .dupWindowClear bp src => Sys2Proof.Machine.execDupWindowClear bp src s
  | .indexSwap => Sys2Proof.Machine.execIndexSwap s
  | .cacheLathFault ctx modified => Sys2Proof.Machine.execCacheLathFault ctx modified s
  | .announceTimeout bp lanB => Sys2Proof.Machine.execAnnounceTimeout bp lanB s
  | .freerunEntry => Sys2Proof.Machine.execFreerunEntry s
  | .revertHoldExpiry bp => Sys2Proof.Machine.execRevertHoldExpiry bp s
  | .ppsInEdge => Sys2Proof.Machine.execPpsInEdge s
  | .ppsInTimeout => Sys2Proof.Machine.execPpsInTimeout s
  | .ppsOutPulse rise => Sys2Proof.Machine.execPpsOutPulse rise s
  | .osc10mChange ok => Sys2Proof.Machine.execOsc10mChange ok s
  | .slotStartEvent bp => Sys2Proof.Machine.execSlotStartEvent bp s
  | .keyPromote ctx => Sys2Proof.Machine.execKeyPromote ctx s
  | .supervisionExpiry ctx => Sys2Proof.Machine.execSupervisionExpiry ctx s
  | .gooseRetransmit ctx => Sys2Proof.Machine.execGooseRetransmit ctx s
  | .pubFirstState ctx => Sys2Proof.Machine.execPubFirstState ctx s
  | .timeTrigger trig => Sys2Proof.Machine.execTimeTrigger trig s
  | .pendingRaiseDiscard => Sys2Proof.Machine.execPendingRaiseDiscard s
  | .budgetPeriodBoundary => Sys2Proof.Machine.execBudgetPeriodBoundary s
  | .slotCloseEvent bp group => Sys2Proof.Machine.execSlotCloseEvent bp group s
  | .trackerCoast bp => Sys2Proof.Machine.execTrackerCoast bp s
  | .sheetWrite fn ring => Sys2Proof.Machine.execSheetWrite fn ring s
  | .svFrameBuild ctx => Sys2Proof.Machine.execSvFrameBuild ctx s
  | .portTransmit port => Sys2Proof.Machine.execPortTransmit port s
  | .prpSupervision bp => Sys2Proof.Machine.execPrpSupervision bp s
  | .recordCopyStart recNo => Sys2Proof.Machine.execRecordCopyStart recNo s
  | .recordSeal recNo => Sys2Proof.Machine.execRecordSeal recNo s
  | .coreSelftest core pass => Sys2Proof.Machine.execCoreSelftest core pass s
  | .healthWindowEnd src error0 error1 raw => Sys2Proof.Machine.execHealthWindowEnd src error0 error1 raw s
  | .entropyTimeout => Sys2Proof.Machine.execEntropyTimeout s
  | .rngResumeTimeout => Sys2Proof.Machine.execRngResumeTimeout s
  | .challengeExpiry => Sys2Proof.Machine.execChallengeExpiry s
  | .sealerAccess rid lbn op r => Sys2Proof.Machine.execSealerAccess rid lbn op r s
  | .rekeyWalk rid => Sys2Proof.Machine.execRekeyWalk rid s
  | .rowRepair row spareRow => Sys2Proof.Machine.execRowRepair row spareRow s
  | .volWriteRepost idx => Sys2Proof.Machine.execVolWriteRepost idx s
  | .puttySwap => Sys2Proof.Machine.execPuttySwap s
  | .shadowSwitch comp => Sys2Proof.Machine.execShadowSwitch comp s
  | .logRecord => Sys2Proof.Machine.execLogRecord s
  | .pairListenEnd => Sys2Proof.Machine.execPairListenEnd s
  | .pairHeartbeatTx => Sys2Proof.Machine.execPairHeartbeatTx s
  | .mirrorEntry m => Sys2Proof.Machine.execMirrorEntry m s
  | .mirrorAck tok => Sys2Proof.Machine.execMirrorAck tok s
  | .standbyAdmission c => Sys2Proof.Machine.execStandbyAdmission c s
  | .fixRecord bp group slot digest => Sys2Proof.Machine.execFixRecord bp group slot digest s
  | .rowsAdopt bp group slot rows => Sys2Proof.Machine.execRowsAdopt bp group slot rows s
  | .fixRecordAck bp group slot => Sys2Proof.Machine.execFixRecordAck bp group slot s
  | .slotConfirm slot => Sys2Proof.Machine.execSlotConfirm slot s
  | .takeover announced => Sys2Proof.Machine.execTakeover announced s
  | .partnerLost => Sys2Proof.Machine.execPartnerLost s
  | .resyncComplete epoch token recnum proto => Sys2Proof.Machine.execResyncComplete epoch token recnum proto s
  | .handoverSwitch => Sys2Proof.Machine.execHandoverSwitch s
  | .healthReport => Sys2Proof.Machine.execHealthReport s
  | .spanLinkTraining link peer peerId peerNonce proof => Sys2Proof.Machine.execSpanLinkTraining link peer peerId peerNonce proof s
  | .spanFlitReceive link f gcmTagOk msg => Sys2Proof.Machine.execSpanFlitReceive link f gcmTagOk msg s
  | .spanLinkDown link tagFails => Sys2Proof.Machine.execSpanLinkDown link tagFails s
  | .spanLinkRetrain link => Sys2Proof.Machine.execSpanLinkRetrain link s
  | .routePacket failedA failedB => Sys2Proof.Machine.execRoutePacket failedA failedB s
  | .spanPacketReceive link k => Sys2Proof.Machine.execSpanPacketReceive link k s
  | .spanGapTimeout src => Sys2Proof.Machine.execSpanGapTimeout src s
  | .remoteCommand c => Sys2Proof.Machine.execRemoteCommand c s
  | .remoteOutcome tok status result epoch dev output => Sys2Proof.Machine.execRemoteOutcome tok status result epoch dev output s
  | .gatewayUnreachable tok => Sys2Proof.Machine.execGatewayUnreachable tok s
  | .numberPacket devid num => Sys2Proof.Machine.execNumberPacket devid num s
  | .sheetPacket fn ring slot octets => Sys2Proof.Machine.execSheetPacket fn ring slot octets s
  | .pdelayRequest port => Sys2Proof.Machine.execPdelayRequest port s
  | .pathSuspect => Sys2Proof.Machine.execPathSuspect s
  | .volStall idx => Sys2Proof.Machine.execVolStall idx s
  | .vauxWithinLimits => Sys2Proof.Machine.execVauxWithinLimits s
  | .standbySelfTest sub run fail cover code => Sys2Proof.Machine.execStandbySelfTest sub run fail cover code s

end Sys2Proof.Machine
end

