-- ==== Sys2Proof/Safety.lean ====
section
/-! DEFINITION. Safety.lean: what no run of the block may do: reach a mode that is no mode, lose the shadow of the mode
field, take back a state epoch, an acceptance token or a fuse step; and which parts of the machine a command reaches. -/
namespace Sys2Proof.Machine

/-- The mode is one of the eight of R591 with its inverted shadow (R549), the epoch and the token lie within the blocks
reserved in MRAM (R29, R34), and no more than the 64 tamper steps are blown (R556). -/
def Legal (s : State) : Prop :=
  s.sys.mode.inv = ~~~s.sys.mode.val ∧ s.sys.mode.val.toNat ≤ 7 ∧ s.sys.epoch ≤ s.sys.epochTop ∧
  s.sys.token ≤ s.sys.tokenTop ∧ s.tamper.steps ≤ 64

/-- State epoch (R29), acceptance token (R34), owner epoch and tamper counter (fuses, R498, R556) never go back; a command
leaves the queue alone. -/
def Onward (s t : State) : Prop :=
  s.sys.epoch ≤ t.sys.epoch ∧ s.sys.token ≤ t.sys.token ∧ s.keys.oepoch ≤ t.keys.oepoch ∧
  s.tamper.steps ≤ t.tamper.steps ∧ t.pending = s.pending

/-- The sparse memories of a program (data partition, derived window, mailbox region) are in canonical form: offsets
strictly rising and no octet listed that reads 0 anyway. -/
abbrev canonProg (g : Prog) : Prop := memWf none g.data = true ∧ memWf none g.dwin = true ∧ memWf none g.mbox = true

/-- The memories of every loaded program are in canonical form. -/
def Canon (s : State) : Prop := ∀ e ∈ s.trowel.progs, canonProg e.2

/-- The parts of the machine, one for each field of State but the queue. -/
inductive Part where
  | sys | fns | journal | deferred | time | ports | bpcfg | skim | hawk | trowel | publ | eng | pke | rng | keys | sealer | tamper | pair | span | log | budget | fw | injected | freeCtr | outbox
  deriving DecidableEq, Repr

/-- A part is the same in two states. -/
def Part.same (s t : State) : Part → Prop
  | .sys => t.sys = s.sys
  | .fns => t.fns = s.fns
  | .journal => t.journal = s.journal
  | .deferred => t.deferred = s.deferred
  | .time => t.time = s.time
  | .ports => t.ports = s.ports
  | .bpcfg => t.bpcfg = s.bpcfg
  | .skim => t.skim = s.skim
  | .hawk => t.hawk = s.hawk
  | .trowel => t.trowel = s.trowel
  | .publ => t.publ = s.publ
  | .eng => t.eng = s.eng
  | .pke => t.pke = s.pke
  | .rng => t.rng = s.rng
  | .keys => t.keys = s.keys
  | .sealer => t.sealer = s.sealer
  | .tamper => t.tamper = s.tamper
  | .pair => t.pair = s.pair
  | .span => t.span = s.span
  | .log => t.log = s.log
  | .budget => t.budget = s.budget
  | .fw => t.fw = s.fw
  | .injected => t.injected = s.injected
  | .freeCtr => t.freeCtr = s.freeCtr
  | .outbox => t.outbox = s.outbox

/-- Nothing outside these parts changes. -/
def Within (ps : List Part) (s t : State) : Prop := ∀ p, p ∉ ps → p.same s t

/-- The command of a token has ended with this status, result word and output, journalled with the state epoch and the
number of the device (R30, R33, R362, R363). -/
def Answered (t : State) (tok status : Nat) (result : W32) (out : List Byte) : Prop :=
  ∃ j, jent t tok = some j ∧ j.started = true ∧
    j.outcome = some { status := status, result := result, epoch := t.sys.epoch, dev := devnum t } ∧
    j.staged = some { status := status, result := result, out := out, wrote := 0 }

/-- The command of a token has ended, and no other journal entry differs from before. -/
def Ends (s t : State) (tok status : Nat) (result : W32) (out : List Byte) : Prop :=
  Answered t tok status result out ∧ ∀ k, k ≠ tok → jent t k = jent s k

/-- The command's work is done and staged, and its outcome is not journalled yet: ENGINE_WORK_DONE follows (R33). -/
def WorkStaged (s t : State) (tok status : Nat) (result : W32) (out : List Byte) : Prop :=
  (∃ j, jent t tok = some j ∧ j.started = true ∧ j.outcome = none ∧
    j.staged = some { status := status, result := result, out := out, wrote := 0 }) ∧
  ∀ k, k ≠ tok → jent t k = jent s k

/-- Exactly one state epoch more, and nothing else of the system part (R26, R28). -/
def NewEpoch (s t : State) : Prop :=
  t.sys.epoch = s.sys.epoch + 1 ∧ { t.sys with epoch := s.sys.epoch, epochTop := s.sys.epochTop } = s.sys

/-- A command has ended OK with this result word and output, and outside its outcome (and the answer to a gateway that
handed it on) nothing but these parts has changed. -/
def Served (ps : List Part) (s t : State) (c : Cmd) (result : W32) (out : List Byte) : Prop :=
  Ends s t c.tok 0 result out ∧ Within ([.journal, .span, .outbox] ++ ps) s t

/-- A configuration command has taken effect: OK, exactly one state epoch more (R26, R28), and outside its outcome, its
mirroring and these parts nothing has changed. -/
def Applied (ps : List Part) (s t : State) (c : Cmd) : Prop :=
  Ends s t c.tok 0 0 [] ∧ NewEpoch s t ∧ Within ([.sys, .journal, .span, .outbox] ++ ps) s t

/-- A memory request of the host reaches the BAR of function f: the die runs, START-UP is over, the function is enabled and
the IDE policy allows it (R320, R323, R336). -/
def ReachesBar (s : State) (f : Nat) : Prop :=
  s.sys.held = false ∧ fnEnabled s f = true ∧ s.sys.startup = false ∧ ideDrop s f = false

/-- Nothing waits for this command's outcome: no reset of its function, and no abort that has started (R342, R376). -/
def NothingWaits (s : State) (c : Cmd) : Prop :=
  (fnOf s c.fn).fenced = false ∧
  ∀ e ∈ s.journal, Cmd.opc e.2.cmd = 0x0F01 → e.2.started = true → e.2.outcome.isSome = true

/-- A configuration command may take effect: it may run, its turn has come, and no closing sequence that it affects is in
progress (R27, R176, R370). -/
def mayApply (s : State) (c : Cmd) : Bool := runnable s c && configTurn s c && !closingBusy c s

/-- The commands of the opcode table of R373. -/
def aedobCommands : List (Cmd → Instr) :=
  [Instr.sysInfo, .sysQcreate, .sysQdelete, .sysLedger, .sysTimecfg, .sysTimestep, .sysPortcfg, .sysHostcfg,
   .sysFnmap, .sysDadoinv, .sysFnreset, .cmdAbort, .streamMrate, .streamCycref, .streamSub, .streamUnsub,
   .streamKeys, .streamStats, .sheetHistory, .sheetGroup, .sheetKey, .sheetRing, .sheetView, .trowelLoad,
   .trowelBind, .trowelStart, .trowelStop, .trowelUnload, .trowelMbsend, .trowelRetire, .pubOpen, .pubClose,
   .pubSend, .pubCurve, .pubStats, .cphOpen, .cphClose, .cphRun, .cphSave, .cphRestore, .hshDigest, .hshMac,
   .hshOpen, .hshUpdate, .hshFinal, .pkeSign, .pkeVerify, .pkeAgree, .pkeEncap, .pkeDecap, .pkeKeygen, .rngGet,
   .rngReseed, .rngPattern, .keyApply, .keyInfo, .keyTarget, .recTrig, .recFire, .recLock, .recList, .volAttach,
   .volIo, .volRead, .volRekey, .pairCfg, .pairStatus, .pairHandover, .pairRenumber, .logRead, .logPolicy,
   .logClear, .svcEnter, .svcExit, .svcChallenge, .svcOfficer, .svcTamper, .svcFlagclear, .svcEnrol, .svcRelease,
   .svcAttest, .svcFwloadImage, .svcFwloadBudget, .svcFwloadTrims, .svcFwloadServo, .spanCfg, .spanStatus,
   .spanRoute, .spanOutcome, .diagKat, .diagSelftest, .diagInject]

/-- Configuration commands that take effect by one application, once no closing sequence is in progress (R27, R373). -/
def configCommands : List (Cmd → Instr) :=
  [Instr.sysTimecfg, .sysTimestep, .sysPortcfg, .sysHostcfg, .sysFnmap, .streamMrate, .streamCycref, .streamSub,
   .streamUnsub, .streamKeys, .sheetHistory, .sheetGroup, .sheetKey, .sheetView, .trowelLoad, .trowelBind,
   .trowelStart, .trowelStop, .trowelUnload, .pubOpen, .pubClose, .pubCurve, .rngPattern, .recTrig, .recLock,
   .volAttach, .pairCfg, .pairRenumber, .logPolicy, .svcEnter, .svcExit, .svcOfficer, .svcRelease, .svcTamper,
   .spanCfg, .spanRoute]

/-- Program p holds its core in slot work with BUDGET left, and the instruction it issues next is the word w: PC is a
multiple of 4 inside the code partition, the word has no uncorrectable Lath error and is legal (R232, R256, R258, R280,
R283); g is the program with that word fetched, one cycle later where the fetch corrected an error (R279). -/
def Issues (s : State) (p : Nat) (w : W32) (g : Prog) : Prop :=
  ∃ g0, holder s p .running = some g0 ∧ fetchAt s g0 = .inr w ∧ g = fetched s g0

/-- The state with the loaded program p as g and everything else as before. -/
def setProg (p : Nat) (g : Prog) (s : State) : State :=
  { s with trowel := { s.trowel with progs := mupd s.trowel.progs p (fun _ => g) } }

/-- The registers with v in register d; a write to g0 is discarded (R253). -/
def regWritten (g : Prog) (d : Fld4) (v : W32) : List W32 := if d = 0 then g.regs else g.regs.set d.toNat v

/-- FLAGS with N, Z, C and V in bits 3 to 0, the rest 0 (R254). -/
def flagWord (n z c v : Bool) : W32 := BitVec.ofNat 32 (8 * n.toNat + 4 * z.toNat + 2 * c.toNat + v.toNat)

/-- A program after an instruction that does not transfer control and takes `cost` cycles (R256, R279, R280). -/
def stepped (g : Prog) (cost : Nat) : Prog := { g with pc := g.pc + 4, budget := g.budget - cost }

/-- A program after an instruction with the result r in register d, and with S set FLAGS from the result, C and V
(R258, R271). -/
def aluDone (g : Prog) (S : Bool) (d : Fld4) (r : W32) (c v : Bool) (cost : Nat) : Prog :=
  { stepped g cost with
    regs := regWritten g d r, flags := if S then flagWord r.msb (decide (r = 0)) c v else g.flags }

/-- A program after an instruction with the result r in accumulator d (R264, R271). -/
def accDone (g : Prog) (S : Bool) (d : Fld4) (r : W64) (v : Bool) : Prog :=
  { stepped g 1 with
    a0 := if d = 0 then r else g.a0, a1 := if d = 0 then g.a1 else r
    flags := if S then flagWord r.msb (decide (r = 0)) false v else g.flags }

/-- A number saturated to the signed range of n bits. -/
def clamp (n : Nat) (v : Int) : Int := max (-(2 ^ (n - 1))) (min (2 ^ (n - 1) - 1) v)

/-- n bytes at an address lie in the program's data partition (R277). -/
def InData (g : Prog) (a n : Nat) : Prop := 0x10000 ≤ a ∧ a < 0x20000 ∧ a - 0x10000 + n ≤ imgData g.img

/-- The base register's update by an access of `size` bytes that completes: modes 1 and 2 of R268 and R269. -/
def baseRegs (g : Prog) (regs : List W32) (a : Fld4) (mode : BitVec 3) (size : Nat) : List W32 :=
  if a = 0 then regs
  else if mode.toNat = 1 then regs.set a.toNat (gget g a + BitVec.ofNat 32 size)
  else if mode.toNat = 2 then regs.set a.toNat (gget g a - BitVec.ofNat 32 size)
  else regs

/-- The six load instructions: constructor, op and size in bytes (R259). -/
def loadRows : List ((Nat → Fld4 → Fld4 → BitVec 3 → Fld4 → BitVec 2 → BitVec 9 → Instr) × Nat × Nat) :=
  [(.ldW, 0x18, 4), (.ldH, 0x19, 2), (.ldHu, 0x1A, 2), (.ldB, 0x1B, 1), (.ldBu, 0x1C, 1), (.ldA, 0x1D, 8)]

/-- The four store instructions: constructor, op, size in bytes, and the value stored (R259). -/
def storeRows : List ((Nat → Fld4 → Fld4 → BitVec 3 → Fld4 → BitVec 2 → BitVec 9 → Instr) × Nat × Nat × (Prog → Fld4 → Nat)) :=
  [(.stW, 0x20, 4, fun g d => (gget g d).toNat), (.stH, 0x21, 2, fun g d => (gget g d).toNat),
   (.stB, 0x22, 1, fun g d => (gget g d).toNat), (.stA, 0x23, 8, fun g d => (aget g d).toNat)]

/-- Slot work of program p, until then as g, has stopped without having completed its current instruction: EPC holds the
instruction's address, LASTSTOP reason and code, CAUSE the code of an exception or what it held; registers,
accumulators, flags, data partition and derived window are as before; the stop is counted and the next release starts
at RESTART (R235, R238, R240, R281). -/
def StopsWork (t : State) (p : Nat) (g : Prog) (reason code : Nat) : Prop :=
  ∃ g', progOf t p = some g' ∧ g'.phase = .idle ∧ g'.epc = g.pc ∧ g'.pc = g.pc ∧
    g'.cause = (if reason = 3 then BitVec.ofNat 32 code else g.cause) ∧ g'.regs = g.regs ∧ g'.a0 = g.a0 ∧ g'.a1 = g.a1 ∧
    g'.flags = g.flags ∧ g'.data = g.data ∧ g'.dwin = g.dwin ∧ g'.stops = g.stops + 1 ∧ g'.restartNext = true ∧
    memRdN g'.mbox 0x214 4 = leOctets 4 (reason + 256 * (if reason = 3 then code else 0))

end Sys2Proof.Machine
end

