-- ==== Sys2Proof/Certificates/Slice0/Obligations.lean ====
section
/-! DEFINITION. Obligations.lean: the statements about the block, for the provers. Each names the rules of spec/ that it
formalises; a clause that rests on a choice of the model names the log entry. -/
set_option linter.unusedVariables false
open Sys2Proof Sys2Proof.Machine

/-- A step takes the command at the front of the queue and executes it on the state with the queue's rest. -/
def Obligations.StepRunsFrontCommand : Prop :=
  ∀ (c : Instr) (l : List Instr) (s : State),
    step { s with pending := c :: l } = exec c { s with pending := l }

/-- One nanosecond on an empty queue (R52, R61; the model's choice of log 4). -/
def Obligations.EmptyQueueIsOneNanosecond : Prop :=
  ∀ s : State, s.pending = [] → ∃ t, step s = .next t ∧ t.time.clock = s.time.clock + 1 ∧ t.pending = [] ∧
    (s.time.tstate = 0 → t.time.tai = s.time.tai) ∧
    (s.time.tstate ≠ 0 → s.time.tstate ≠ 1 → t.time.tai = s.time.tai + 1) ∧
    (s.time.tstate ≠ 0 → s.time.tai ≤ t.time.tai ∧ t.time.tai ≤ s.time.tai + 2) ∧
    Within [.time, .trowel] s t

/-- The state after reset (R14; the rest of a device as delivered: log 1). -/
def Obligations.ResetState : Prop :=
  State.reset.pending = [] ∧ State.reset.journal = [] ∧ State.reset.outbox = [] ∧ State.reset.deferred = [] ∧
  State.reset.sys.startup = true ∧ State.reset.sys.mode.val = 1 ∧ State.reset.sys.mode.inv = ~~~(1 : W32) ∧
  State.reset.sys.epoch = 0 ∧ State.reset.sys.epochTop = 2 ^ 20 ∧
  State.reset.sys.token = 0 ∧ State.reset.sys.tokenTop = 2 ^ 20 ∧
  State.reset.time.tstate = 0 ∧ State.reset.time.prio = [0, 1, 2, 3] ∧ State.reset.time.revert = 60 ∧
  State.reset.time.qualLim = 1000 ∧ State.reset.time.stepLim = 10000 ∧ State.reset.time.holdLim = 10000 ∧
  State.reset.time.drift = 100 ∧
  (∀ n, (lget State.reset.ports n default).st = 0) ∧
  (∀ f q, f ≤ 64 → q < 16 → (queueOf State.reset f q).st = 0) ∧
  (∀ k, ctxOf State.reset k = none) ∧ (∀ p, progOf State.reset p = none) ∧
  State.reset.keys.slots = [] ∧ State.reset.tamper.steps = 0 ∧ State.reset.keys.oepoch = 0 ∧
  State.reset.span.topo = 0 ∧ State.reset.pair.paired = false ∧ State.reset.budget.table = Budget.defaultTable

/-- The invariant of Legal holds after reset. -/
def Obligations.ResetIsLegal : Prop := Legal State.reset ∧ Canon State.reset

/-- Legal is an invariant of every step (R549, R591, R29, R34, R556). -/
def Obligations.StepKeepsLegal : Prop := ∀ s t : State, Legal s → step s = .next t → Legal t

/-- What is reserved in MRAM or blown in fuses never decreases (R29, R34, R498, R556). -/
def Obligations.CountersNeverGoBack : Prop :=
  ∀ s t : State, Legal s → step s = .next t →
    s.sys.epoch ≤ t.sys.epoch ∧ s.sys.token ≤ t.sys.token ∧ s.keys.oepoch ≤ t.keys.oepoch ∧
    s.tamper.steps ≤ t.tamper.steps

/-- A change that arrives during a closing sequence takes effect after that sheet (R27, R176). -/
def Obligations.ConfigurationWaitsForClosing : Prop :=
  ∀ k ∈ configCommands,
    ∀ (c : Cmd) (s : State), runnable s c = true → configTurn s c = true → closingBusy c s = true →
      exec (k c) s = .next { s with deferred := s.deferred ++ [c.tok] }

/-- Only an admitted command executes (R31, R37, R372, R376). -/
def Obligations.OnlyAdmittedCommandsExecute : Prop :=
  ∀ k ∈ aedobCommands,
    ∀ (c : Cmd) (s : State), runnable s c = false → exec (k c) s = .next s

/-- add, sub, adds, subs (R261, R271). -/
def Obligations.EzAddSubtract : Prop :=
  ∀ (p : Nat) (S : Bool) (d a b : Fld4) (s : State) (g : Prog),
    let x := gget g a
    let y := gget g b
    (Issues s p (encR 0x00 d a b (b2n S) 0x000) g →
      exec (.add p S d a b) s = .next (setProg p (aluDone g S d (x + y) (x.uaddOverflow y) (x.saddOverflow y) 1) s)) ∧
    (Issues s p (encR 0x00 d a b (b2n S) 0x001) g →
      exec (.sub p S d a b) s = .next (setProg p (aluDone g S d (x - y) (!x.usubOverflow y) (x.ssubOverflow y) 1) s)) ∧
    (Issues s p (encR 0x00 d a b (b2n S) 0x002) g →
      exec (.adds p S d a b) s =
        .next (setProg p (aluDone g S d (BitVec.ofInt 32 (clamp 32 (x.toInt + y.toInt))) (x.uaddOverflow y) (x.saddOverflow y) 1) s)) ∧
    (Issues s p (encR 0x00 d a b (b2n S) 0x003) g →
      exec (.subs p S d a b) s =
        .next (setProg p (aluDone g S d (BitVec.ofInt 32 (clamp 32 (x.toInt - y.toInt))) (!x.usubOverflow y) (x.ssubOverflow y) 1) s))

/-- and, or, xor, andn, shl, shr, sar (R261, R262, R271): the bit past the end of the shifted value is the last one out. -/
def Obligations.EzLogicAndShifts : Prop :=
  ∀ (p : Nat) (S : Bool) (d a b : Fld4) (s : State) (g : Prog),
    let x := gget g a
    let y := gget g b
    let n := (y.setWidth 8).toNat
    (Issues s p (encR 0x00 d a b (b2n S) 0x004) g →
      exec (.and p S d a b) s = .next (setProg p (aluDone g S d (x &&& y) false false 1) s)) ∧
    (Issues s p (encR 0x00 d a b (b2n S) 0x005) g →
      exec (.or p S d a b) s = .next (setProg p (aluDone g S d (x ||| y) false false 1) s)) ∧
    (Issues s p (encR 0x00 d a b (b2n S) 0x006) g →
      exec (.xor p S d a b) s = .next (setProg p (aluDone g S d (x ^^^ y) false false 1) s)) ∧
    (Issues s p (encR 0x00 d a b (b2n S) 0x007) g →
      exec (.andn p S d a b) s = .next (setProg p (aluDone g S d (x &&& ~~~y) false false 1) s)) ∧
    (Issues s p (encR 0x00 d a b (b2n S) 0x008) g →
      exec (.shl p S d a b) s =
        .next (setProg p (aluDone g S d (x <<< n) (((0#1 ++ x) <<< n).getLsbD 32) false 1) s)) ∧
    (Issues s p (encR 0x00 d a b (b2n S) 0x009) g →
      exec (.shr p S d a b) s =
        .next (setProg p (aluDone g S d (x >>> n) (((x ++ 0#1) >>> n).getLsbD 0) false 1) s)) ∧
    (Issues s p (encR 0x00 d a b (b2n S) 0x00A) g →
      exec (.sar p S d a b) s =
        .next (setProg p (aluDone g S d (x.sshiftRight n) (((x ++ 0#1).sshiftRight n).getLsbD 0) false 1) s))

/-- abs, min, max, minu, maxu, clz, mul, mulh, mulhu (R261, R271, R279). -/
def Obligations.EzMinMaxMultiply : Prop :=
  ∀ (p : Nat) (S : Bool) (d a b : Fld4) (s : State) (g : Prog),
    let x := gget g a
    let y := gget g b
    (Issues s p (encR 0x00 d a 0 (b2n S) 0x00B) g →
      exec (.abs p S d a) s = .next (setProg p (aluDone g S d
        (if x = 0x80000000 then 0x7FFFFFFF else if x.msb then -x else x) false false 1) s)) ∧
    (Issues s p (encR 0x00 d a b (b2n S) 0x00C) g →
      exec (.min p S d a b) s = .next (setProg p (aluDone g S d (if x.toInt ≤ y.toInt then x else y) false false 1) s)) ∧
    (Issues s p (encR 0x00 d a b (b2n S) 0x00D) g →
      exec (.max p S d a b) s = .next (setProg p (aluDone g S d (if x.toInt ≤ y.toInt then y else x) false false 1) s)) ∧
    (Issues s p (encR 0x00 d a b (b2n S) 0x00E) g →
      exec (.minu p S d a b) s = .next (setProg p (aluDone g S d (if x.toNat ≤ y.toNat then x else y) false false 1) s)) ∧
    (Issues s p (encR 0x00 d a b (b2n S) 0x00F) g →
      exec (.maxu p S d a b) s = .next (setProg p (aluDone g S d (if x.toNat ≤ y.toNat then y else x) false false 1) s)) ∧
    (Issues s p (encR 0x00 d a 0 (b2n S) 0x010) g →
      exec (.clz p S d a) s = .next (setProg p (aluDone g S d
        (if x = 0 then 32 else BitVec.ofNat 32 (31 - x.toNat.log2)) false false 1) s)) ∧
    (Issues s p (encR 0x00 d a b (b2n S) 0x011) g →
      exec (.mul p S d a b) s = .next (setProg p (aluDone g S d (x * y) false false 2) s)) ∧
    (Issues s p (encR 0x00 d a b (b2n S) 0x012) g →
      exec (.mulh p S d a b) s = .next (setProg p (aluDone g S d
        ((x.signExtend 64 * y.signExtend 64).extractLsb' 32 32) false false 2) s)) ∧
    (Issues s p (encR 0x00 d a b (b2n S) 0x013) g →
      exec (.mulhu p S d a b) s = .next (setProg p (aluDone g S d
        ((x.setWidth 64 * y.setWidth 64).extractLsb' 32 32) false false 2) s))

/-- The I format (R259, R260, R271). -/
def Obligations.EzImmediates : Prop :=
  ∀ (p : Nat) (d a : Fld4) (imm : BitVec 18) (n : BitVec 5) (s : State) (g : Prog),
    let x := gget g a
    let i := imm.signExtend 32
    (Issues s p (encI 0x08 d a imm) g → exec (.addi p d a imm) s = .next (setProg p (aluDone g false d (x + i) false false 1) s)) ∧
    (Issues s p (encI 0x09 d a imm) g → exec (.andi p d a imm) s = .next (setProg p (aluDone g false d (x &&& i) false false 1) s)) ∧
    (Issues s p (encI 0x0A d a imm) g → exec (.ori p d a imm) s = .next (setProg p (aluDone g false d (x ||| i) false false 1) s)) ∧
    (Issues s p (encI 0x0B d a imm) g → exec (.xori p d a imm) s = .next (setProg p (aluDone g false d (x ^^^ i) false false 1) s)) ∧
    (Issues s p (encI 0x0C d a (n.setWidth 18)) g →
      exec (.shli p d a n) s = .next (setProg p (aluDone g false d (x <<< n.toNat) false false 1) s)) ∧
    (Issues s p (encI 0x0D d a (n.setWidth 18)) g →
      exec (.shri p d a n) s = .next (setProg p (aluDone g false d (x >>> n.toNat) false false 1) s)) ∧
    (Issues s p (encI 0x0E d a (n.setWidth 18)) g →
      exec (.sari p d a n) s = .next (setProg p (aluDone g false d (x.sshiftRight n.toNat) false false 1) s)) ∧
    (Issues s p (encI 0x0F d 0 imm) g →
      exec (.lui p d imm) s = .next (setProg p (aluDone g false d (imm ++ (0 : BitVec 14)) false false 1) s)) ∧
    (Issues s p (encI 0x10 0 a imm) g →
      exec (.cmpi p a imm) s = .next (setProg p (aluDone g true 0 (x - i) (!x.usubOverflow i) (x.ssubOverflow i) 1) s))

/-- The dual group: lo in bits 15 to 0, hi in bits 31 to 16 (R263). -/
def Obligations.EzDualLanes : Prop :=
  ∀ (p : Nat) (d a b : Fld4) (s : State) (g : Prog),
    let lo (r : Fld4) : Int := ((gget g r).setWidth 16).toInt
    let hi (r : Fld4) : Int := ((gget g r) >>> 16 |>.setWidth 16).toInt
    let two (h l : Int) : W32 := BitVec.ofInt 16 h ++ BitVec.ofInt 16 l
    let put (r : W32) : Host.Outcome State Fault Refusal := .next (setProg p (aluDone g false d r false false 1) s)
    (Issues s p (encR 0x01 d a b 0 0x000) g →
      exec (.dadd p d a b) s = put (two (clamp 16 (hi a + hi b)) (clamp 16 (lo a + lo b)))) ∧
    (Issues s p (encR 0x01 d a b 0 0x001) g →
      exec (.dsub p d a b) s = put (two (clamp 16 (hi a - hi b)) (clamp 16 (lo a - lo b)))) ∧
    (Issues s p (encR 0x01 d a b 0 0x002) g →
      exec (.dmul p d a b) s =
        put (two (clamp 16 ((hi a * hi b + 2 ^ 14) >>> 15)) (clamp 16 ((lo a * lo b + 2 ^ 14) >>> 15)))) ∧
    (Issues s p (encR 0x01 d a b 0 0x003) g →
      exec (.dpack p d a b) s = put (two (clamp 16 (gget g b).toInt) (clamp 16 (gget g a).toInt))) ∧
    (Issues s p (encR 0x01 d a 0 0 0x004) g →
      exec (.dswap p d a) s = put ((gget g a).setWidth 16 ++ ((gget g a) >>> 16).setWidth 16))

/-- The MAC group (R264, R271; V of the unsigned forms: log 33). -/
def Obligations.EzMultiplyAccumulate : Prop :=
  ∀ (p : Nat) (S : Bool) (d a b : Fld4) (s : State) (g : Prog),
    let x := gget g a
    let y := gget g b
    let ax : Int := (if d = 0 then g.a0 else g.a1).toInt
    let lo (r : W32) : Int := (r.setWidth 16).toInt
    let hi (r : W32) : Int := ((r >>> 16).setWidth 16).toInt
    let out (v : Int) : Bool := decide (v < -(2 ^ 63) ∨ 2 ^ 63 ≤ v)
    let set (v : W64) : Host.Outcome State Fault Refusal := .next (setProg p (accDone g S d v false) s)
    let wrap (v : Int) : Host.Outcome State Fault Refusal := .next (setProg p (accDone g S d (BitVec.ofInt 64 v) (out v)) s)
    let sat (v : Int) : Host.Outcome State Fault Refusal := .next (setProg p (accDone g S d (BitVec.ofInt 64 (clamp 64 v)) (out v)) s)
    let word (fn : Nat) : Prop := Issues s p (encR 0x02 d a b (b2n S) fn) g
    (word 0x000 → exec (.mulAx p S d a b) s = set (x.signExtend 64 * y.signExtend 64)) ∧
    (word 0x001 → exec (.mac p S d a b) s = wrap (ax + x.toInt * y.toInt)) ∧
    (word 0x002 → exec (.msu p S d a b) s = wrap (ax - x.toInt * y.toInt)) ∧
    (word 0x004 → exec (.mulu p S d a b) s = set (x.setWidth 64 * y.setWidth 64)) ∧
    (word 0x005 → exec (.macu p S d a b) s = wrap (ax + (x.toNat : Int) * y.toNat)) ∧
    (word 0x006 → exec (.msuu p S d a b) s = wrap (ax - (x.toNat : Int) * y.toNat)) ∧
    (word 0x008 → exec (.macs p S d a b) s = sat (ax + x.toInt * y.toInt)) ∧
    (word 0x009 → exec (.msus p S d a b) s = sat (ax - x.toInt * y.toInt)) ∧
    (word 0x010 → exec (.dmac p S d a b) s = wrap (ax + (lo x * lo y + hi x * hi y))) ∧
    (word 0x011 → exec (.dmacn p S d a b) s = wrap (ax + (lo x * lo y - hi x * hi y))) ∧
    (word 0x012 → exec (.dmacx p S d a b) s = wrap (ax + (lo x * hi y + hi x * lo y))) ∧
    (Issues s p (encR 0x02 d 0 0 (b2n S) 0x020) g → exec (.acclr p S d) s = set 0) ∧
    (word 0x021 → exec (.acw p S d a b) s = set (y ++ x))

/-- acl, ach, acr (R264, R265, R271). -/
def Obligations.EzAccumulatorReads : Prop :=
  ∀ (p : Nat) (S : Bool) (d a : Fld4) (n : BitVec 6) (s : State) (g : Prog),
    let ax : W64 := if a = 0 then g.a0 else g.a1
    let r : Int := (ax.toInt + (if n = 0 then 0 else 2 ^ (n.toNat - 1))) >>> n.toNat
    (Issues s p (encR 0x02 d a 0 (b2n S) 0x022) g →
      exec (.acl p S d a) s = .next (setProg p (aluDone g S d (ax.setWidth 32) false false 1) s)) ∧
    (Issues s p (encR 0x02 d a 0 (b2n S) 0x023) g →
      exec (.ach p S d a) s = .next (setProg p (aluDone g S d ((ax >>> 32).setWidth 32) false false 1) s)) ∧
    (Issues s p (encR 0x02 d a 0 (b2n S) (0x040 + n.toNat)) g →
      exec (.acr p S d a n) s =
        .next (setProg p (aluDone g S d (BitVec.ofInt 32 (clamp 32 r)) false (decide (r < -(2 ^ 31) ∨ 2 ^ 31 ≤ r)) 1) s))

/-- R272: the table, the relations that the comparisons name, the complements, and code 15. -/
def Obligations.EzConditionsNameRelations : Prop :=
  (∀ n z c v : Bool, ∀ k : Fld4, k ≠ 15 → condTrue (flagWord n z c v) k =
    [true, z, !z, !c, c, !c || z, c && !z, n != v, n == v, z || n != v, !z && n == v, n, !n, v, !v].getD k.toNat false) ∧
  (∀ x y : W32, let f := flagWord (x - y).msb (decide (x - y = 0)) (!x.usubOverflow y) (x.ssubOverflow y)
    condTrue f 0 = true ∧ condTrue f 1 = decide (x = y) ∧ condTrue f 2 = decide (x ≠ y) ∧
    condTrue f 3 = decide (x.toNat < y.toNat) ∧ condTrue f 4 = decide (x.toNat ≥ y.toNat) ∧
    condTrue f 5 = decide (x.toNat ≤ y.toNat) ∧ condTrue f 6 = decide (x.toNat > y.toNat) ∧
    condTrue f 7 = decide (x.toInt < y.toInt) ∧ condTrue f 8 = decide (x.toInt ≥ y.toInt) ∧
    condTrue f 9 = decide (x.toInt ≤ y.toInt) ∧ condTrue f 10 = decide (x.toInt > y.toInt)) ∧
  (∀ n z c v : Bool, ∀ j < 7, condTrue (flagWord n z c v) (BitVec.ofNat 4 (2 * j + 2)) =
    !condTrue (flagWord n z c v) (BitVec.ofNat 4 (2 * j + 1))) ∧
  (∀ off : BitVec 22, legalWord (encB 0x30 15 off) = false ∧ legalWord (encB 0x31 15 off) = false)

/-- b.cc and jr (R266, R273, R279). -/
def Obligations.EzBranches : Prop :=
  ∀ (p : Nat) (cond a : Fld4) (off : BitVec 22) (s : State) (g : Prog),
    (Issues s p (encB 0x30 cond off) g → condTrue g.flags cond = true →
      exec (.bCc p cond off) s = .next (setProg p { g with pc := g.pc + off.signExtend 32 * 4, budget := g.budget - 2 } s)) ∧
    (Issues s p (encB 0x30 cond off) g → condTrue g.flags cond = false →
      exec (.bCc p cond off) s = .next (setProg p (stepped g 1) s)) ∧
    (Issues s p (encR 0x03 0 a 0 0 0x000) g →
      exec (.jr p a) s = .next (setProg p { g with pc := gget g a, budget := g.budget - 2 } s))

/-- dbnz (R274, with the target of R273 and the cycles of R279). -/
def Obligations.EzDecrementAndBranch : Prop :=
  ∀ (p : Nat) (r : Fld4) (off : BitVec 22) (s : State) (g : Prog),
    legalWord (encB 0x32 0 off) = false ∧
    (Issues s p (encB 0x32 r off) g →
      exec (.dbnz p r off) s = .next (setProg p { g with
        regs := regWritten g r (gget g r - 1)
        pc := if gget g r - 1 = 0 then g.pc + 4 else g.pc + off.signExtend 32 * 4
        budget := g.budget - (if gget g r - 1 = 0 then 1 else 2) } s))

/-- call.cc, callr and ret (R256, R275, R276, R279). -/
def Obligations.EzCallsAndReturns : Prop :=
  ∀ (p : Nat) (cond a : Fld4) (off : BitVec 22) (s : State) (g : Prog),
    let sp := gget g 15
    let pushed (target : W32) : Prog := { g with
      regs := g.regs.set 15 (sp - 4), pc := target, budget := g.budget - 3
      data := memWrN g.data ((sp - 4).toNat - 0x10000) (leOctets 4 (g.pc + 4).toNat) }
    (Issues s p (encB 0x31 cond off) g → condTrue g.flags cond = true → sp.toNat % 4 = 0 → InData g (sp - 4).toNat 4 →
      exec (.callCc p cond off) s = .next (setProg p (pushed (g.pc + off.signExtend 32 * 4)) s)) ∧
    (Issues s p (encB 0x31 cond off) g → condTrue g.flags cond = false →
      exec (.callCc p cond off) s = .next (setProg p (stepped g 1) s)) ∧
    (Issues s p (encR 0x03 0 a 0 0 0x001) g → sp.toNat % 4 = 0 → InData g (sp - 4).toNat 4 →
      exec (.callr p a) s = .next (setProg p (pushed (gget g a)) s)) ∧
    (Issues s p (encR 0x03 0 0 0 0 0x002) g → sp.toNat % 4 = 0 → InData g sp.toNat 4 →
      badWord s (dataMem g.core) (sp.toNat - 0x10000) = false →
      exec (.ret p) s = .next (setProg p { g with
        regs := g.regs.set 15 (sp + 4), budget := g.budget - (3 + softAt s (dataMem g.core) (sp.toNat - 0x10000))
        pc := BitVec.ofNat 32 (leNat (memRdN g.data (sp.toNat - 0x10000) 4)) } s))

/-- The addressing modes of R268. -/
def Obligations.EzEffectiveAddresses : Prop :=
  ∀ (g : Prog) (a b : Fld4) (sc : BitVec 2) (disp : BitVec 9) (size : Nat),
    let d : W32 := disp.signExtend 32 * BitVec.ofNat 32 size
    let i : W32 := gget g b <<< sc.toNat
    effAddr g a 0 b sc disp size = gget g a + d ∧ effAddr g a 1 b sc disp size = gget g a ∧
    effAddr g a 2 b sc disp size = gget g a - BitVec.ofNat 32 size ∧ effAddr g a 3 b sc disp size = gget g a + i ∧
    effAddr g a 4 b sc disp size = gget g a + i + d

/-- Loads from data (R259, R268 to R270, R277, R279). -/
def Obligations.EzLoadsFromData : Prop :=
  ∀ (p : Nat) (d a : Fld4) (mode : BitVec 3) (b : Fld4) (sc : BitVec 2) (disp : BitVec 9) (s : State) (g : Prog),
    let ea (size : Nat) : Nat := (effAddr g a mode b sc disp size).toNat
    let ready (op size : Nat) : Prop := Issues s p (encM op d a mode b sc disp) g ∧ ea size % size = 0 ∧
      InData g (ea size) size ∧ badWord s (dataMem g.core) (ea size - 0x10000) = false
    let old (size : Nat) : Nat := leNat (memRdN g.data (ea size - 0x10000) size)
    let cost (size : Nat) : Nat := 2 + softAt s (dataMem g.core) (ea size - 0x10000)
    let apart : Prop := mode.toNat = 1 ∨ mode.toNat = 2 → d ≠ a
    let done (size : Nat) (v : W32) : Host.Outcome State Fault Refusal :=
      .next (setProg p { stepped g (cost size) with regs := baseRegs g (regWritten g d v) a mode size } s)
    (ready 0x18 4 → apart → exec (.ldW p d a mode b sc disp) s = done 4 (BitVec.ofNat 32 (old 4))) ∧
    (ready 0x19 2 → apart → exec (.ldH p d a mode b sc disp) s = done 2 ((BitVec.ofNat 16 (old 2)).signExtend 32)) ∧
    (ready 0x1A 2 → apart → exec (.ldHu p d a mode b sc disp) s = done 2 ((BitVec.ofNat 16 (old 2)).setWidth 32)) ∧
    (ready 0x1B 1 → apart → exec (.ldB p d a mode b sc disp) s = done 1 ((BitVec.ofNat 8 (old 1)).signExtend 32)) ∧
    (ready 0x1C 1 → apart → exec (.ldBu p d a mode b sc disp) s = done 1 ((BitVec.ofNat 8 (old 1)).setWidth 32)) ∧
    (ready 0x1D 8 → exec (.ldA p d a mode b sc disp) s =
      .next (setProg p { stepped g (cost 8) with
        a0 := if d = 0 then BitVec.ofNat 64 (old 8) else g.a0
        a1 := if d = 0 then g.a1 else BitVec.ofNat 64 (old 8)
        regs := baseRegs g g.regs a mode 8 } s))

/-- Loads from the sheet window (R178, R227, R278, R279). -/
def Obligations.EzLoadsFromSheetWindow : Prop :=
  ∀ row ∈ loadRows, ∀ (p : Nat) (d a : Fld4) (mode : BitVec 3) (b : Fld4) (sc : BitVec 2) (disp : BitVec 9) (s : State)
    (g : Prog),
    let ea := (effAddr g a mode b sc disp row.2.2).toNat
    let i := (ea - 0x100000) / 64
    let e := lget g.bind_.sheets i 0
    Issues s p (encM row.2.1 d a mode b sc disp) g → ea % row.2.2 = 0 → 0x100000 ≤ ea → ea < 0x140000 →
    i < g.bind_.sheets.length →
    (∀ octs, g.latches.find? (fun l => l.1 == ea / 64) = some (ea / 64, octs) →
      ∃ t g', exec (row.1 p d a mode b sc disp) s = .next t ∧ t = setProg p g' s ∧ g'.pc = g.pc + 4 ∧
        g'.budget = g.budget - 2 ∧ g'.latches.head? = some (ea / 64, octs) ∧ g'.data = g.data ∧ g'.flags = g.flags) ∧
    (∀ r, g.latches.find? (fun l => l.1 == ea / 64) = none → fixedRow s (e / 256) (e % 256) g.slot = some r →
      ∃ t g' n, exec (row.1 p d a mode b sc disp) s = .next t ∧ t = setProg p g' { s with freeCtr := s.freeCtr + 1 } ∧
        1 ≤ n ∧ n ≤ 8 ∧ g'.pc = g.pc + 4 ∧ g'.budget = g.budget - n ∧
        g'.latches.head? = some (ea / 64, rowOctets r) ∧ g'.data = g.data ∧ g'.flags = g.flags) ∧
    (g.latches.find? (fun l => l.1 == ea / 64) = none → fixedRow s (e / 256) (e % 256) g.slot = none →
      exec (row.1 p d a mode b sc disp) s = .next (setProg p { g with phase := .waitRow } s))

/-- ROW_FIXED_WAKE (R178, R279, R280). -/
def Obligations.EzRowFixedWake : Prop :=
  ∀ (p : Nat) (d a : Fld4) (mode : BitVec 3) (b : Fld4) (sc : BitVec 2) (disp : BitVec 9) (s : State) (g : Prog),
    let ea := (effAddr g a mode b sc disp 4).toNat
    let e := lget g.bind_.sheets ((ea - 0x100000) / 64) 0
    holder s p .waitRow = some g → lget g.img.code (g.pc.toNat / 4) 0 = encM 0x18 d a mode b sc disp →
    ea % 4 = 0 → 0x100000 ≤ ea → ea < 0x140000 → (ea - 0x100000) / 64 < g.bind_.sheets.length →
    g.latches.find? (fun l => l.1 == ea / 64) = none →
    (fixedRow s (e / 256) (e % 256) g.slot = none → exec (.rowFixedWake p) s = .next s) ∧
    (∀ r, fixedRow s (e / 256) (e % 256) g.slot = some r →
      ∃ t g' n, exec (.rowFixedWake p) s = .next t ∧ t = setProg p g' { s with freeCtr := s.freeCtr + 1 } ∧
        1 ≤ n ∧ n ≤ 8 ∧ g'.pc = g.pc + 4 ∧ g'.budget = g.budget - n ∧ g'.phase = .running ∧
        g'.latches.head? = some (ea / 64, rowOctets r) ∧
        (mode = 0 → d ≠ 0 → g'.regs = g.regs.set d.toNat (BitVec.ofNat 32 (leNat (octets (rowOctets r) (ea % 64) 4)))))

/-- Stores to data (R259, R268 to R270, R277, R279). -/
def Obligations.EzStoresToData : Prop :=
  ∀ row ∈ storeRows, ∀ (p : Nat) (d a : Fld4) (mode : BitVec 3) (b : Fld4) (sc : BitVec 2) (disp : BitVec 9) (s : State)
    (g : Prog),
    let size := row.2.2.1
    let ea := (effAddr g a mode b sc disp size).toNat
    Issues s p (encM row.2.1 d a mode b sc disp) g → ea % size = 0 → InData g ea size →
    ∃ m, exec (row.1 p d a mode b sc disp) s =
        .next (setProg p { stepped g 1 with data := m, regs := baseRegs g g.regs a mode size } s) ∧
      (∀ k, k < ea - 0x10000 ∨ ea - 0x10000 + size ≤ k → memRd m k = memRd g.data k) ∧
      (memWf none g.data = true →
        ∀ i, i < size → memRd m (ea - 0x10000 + i) = BitVec.ofNat 8 (row.2.2.2 g d / 256 ^ i))

/-- yield (R235, R238, R255, R280). -/
def Obligations.EzYieldEndsSlotWork : Prop :=
  ∀ (p : Nat) (s : State) (g : Prog),
    Issues s p (encR 0x03 0 0 0 0 0x010) g → s.trowel.unloading.contains p = false → g.core < s.trowel.running.length →
    ∃ t g', exec (.yield p) s = .next t ∧ progOf t p = some g' ∧ g'.phase = .idle ∧ g'.pc = g.pc + 4 ∧
      g'.budget = g.budget - 1 ∧ g'.stops = 0 ∧ g'.regs = g.regs ∧ g'.a0 = g.a0 ∧ g'.a1 = g.a1 ∧ g'.flags = g.flags ∧
      g'.data = g.data ∧ g'.dwin = g.dwin ∧ g'.epc = g.epc ∧ g'.cause = g.cause ∧ runningOn t g.core ≠ some p

/-- wait.ev and its return (R236, R267, R279, R280). -/
def Obligations.EzWaits : Prop :=
  ∀ (p : Nat) (d e : Fld4) (s : State) (g : Prog),
    (evOccurred s g 0 = if ∀ x ∈ g.bind_.sheets, fixedRow s (x / 256) (x % 256) g.slot ≠ none then some 0 else none) ∧
    (∀ v, Issues s p (encR 0x03 d 0 e 0 0x011) g → evOccurred s g e.toNat = some v →
      exec (.waitEv p d e) s = .next (setProg p { stepped g 1 with regs := regWritten g d v } s)) ∧
    (Issues s p (encR 0x03 d 0 e 0 0x011) g → evOccurred s g e.toNat = none →
      exec (.waitEv p d e) s = .next (setProg p { g with phase := .waitEv d.toNat e.toNat, budget := g.budget - 1 } s)) ∧
    (∀ v, holder s p (.waitEv d.toNat e.toNat) = some g → evOccurred s g e.toNat = some v →
      exec (.waitEvReturn p) s =
        .next (setProg p { g with phase := .running, regs := regWritten g d v, pc := g.pc + 4 } s)) ∧
    (holder s p (.waitEv d.toNat e.toNat) = some g → evOccurred s g e.toNat = none →
      exec (.waitEvReturn p) s = .next s)

/-- mfs, mts and pub.raise (R239, R254, R267, R279, R297). -/
def Obligations.EzSpecialRegistersAndRaises : Prop :=
  ∀ (p : Nat) (d a i : Fld4) (s : State) (g : Prog),
    let special : List W32 := [g.pc, g.flags, BitVec.ofNat 32 g.slot, BitVec.ofNat 32 (g.slot / 2 ^ 32),
      BitVec.ofNat 32 g.cycle, BitVec.ofNat 32 g.budget, g.cause, g.epc]
    (∀ n : Fld4, n.toNat < 8 → Issues s p (encR 0x03 d n 0 0 0x020) g →
      exec (.mfs p d n) s = .next (setProg p { stepped g 1 with regs := regWritten g d (special.getD n.toNat 0) } s)) ∧
    (Issues s p (encR 0x03 1 a 0 0 0x021) g →
      exec (.mts p 1 a) s = .next (setProg p { stepped g 1 with flags := ((gget g a).extractLsb' 0 4).setWidth 32 } s)) ∧
    (Issues s p (encR 0x03 d a i 0 0x012) g → i.toNat ∈ g.raised →
      ∃ t, exec (.pubRaise p d a i) s = .next t ∧ Within [.trowel] s t ∧
        progOf t p = some { stepped g 4 with regs := regWritten g d 2 }) ∧
    (Issues s p (encR 0x03 d a i 0 0x012) g → i.toNat ∉ g.raised → raiseCtx s g i.toNat = none →
      ∃ t, exec (.pubRaise p d a i) s = .next t ∧ Within [.trowel] s t ∧
        progOf t p = some { stepped g 4 with regs := regWritten g d 1 }) ∧
    (∀ k, Issues s p (encR 0x03 d a i 0 0x012) g → i.toNat ∉ g.raised → raiseCtx s g i.toNat = some k →
      ∃ t, exec (.pubRaise p d a i) s = .next t ∧
        Within [.journal, .ports, .bpcfg, .skim, .trowel, .publ, .eng, .span, .log, .budget, .outbox] s t ∧
        progOf t p = some { stepped g 4 with regs := regWritten g d 0, raised := g.raised ++ [i.toNat] } ∧
        (publishes s = false → t.publ.pend = s.publ.pend ++ (if s.publ.taken.contains (p, i.toNat, g.slot) then []
          else [⟨g.slot, p, i.toNat, gget g a, k, ((ctxOf s k).getD default).bp⟩])))

/-- Exceptions and stops (R235, R276, R280 to R283). -/
def Obligations.EzStopsArePrecise : Prop :=
  ∀ (p : Nat) (d a : Fld4) (mode : BitVec 3) (b : Fld4) (sc : BitVec 2) (disp : BitVec 9) (s : State) (g : Prog),
    canonProg g → s.trowel.unloading.contains p = false →
    (Issues s p (encR 0x03 0 0 0 0 0x003) g → ∃ t, exec (.brk p) s = .next t ∧ StopsWork t p g 3 7) ∧
    (holder s p .running = some g → (g.pc.toNat % 4 ≠ 0 ∨ g.img.code.length ≤ g.pc.toNat / 4) →
      ∃ t, exec (.yield p) s = .next t ∧ StopsWork t p g 3 2) ∧
    (holder s p .running = some g → g.pc.toNat % 4 = 0 → g.pc.toNat / 4 < g.img.code.length →
      badWord s (codeMem g.core) g.pc.toNat = false → legalWord (lget g.img.code (g.pc.toNat / 4) 0) = false →
      ∃ t, exec (.yield p) s = .next t ∧ StopsWork t p g 3 1) ∧
    (∀ row ∈ loadRows, Issues s p (encM row.2.1 d a mode b sc disp) g →
      let ea := (effAddr g a mode b sc disp row.2.2).toNat
      (ea % row.2.2 ≠ 0 → ∃ t, exec (row.1 p d a mode b sc disp) s = .next t ∧ StopsWork t p g 3 3) ∧
      (ea % row.2.2 = 0 → 0x301000 ≤ ea → ∃ t, exec (row.1 p d a mode b sc disp) s = .next t ∧ StopsWork t p g 3 4)) ∧
    (∀ row ∈ storeRows, Issues s p (encM row.2.1 d a mode b sc disp) g →
      let ea := (effAddr g a mode b sc disp row.2.2.1).toNat
      (ea % row.2.2.1 ≠ 0 → ∃ t, exec (row.1 p d a mode b sc disp) s = .next t ∧ StopsWork t p g 3 3) ∧
      (ea % row.2.2.1 = 0 → 0x301000 ≤ ea → ∃ t, exec (row.1 p d a mode b sc disp) s = .next t ∧ StopsWork t p g 3 4) ∧
      (ea % row.2.2.1 = 0 → ea < 0x8000 → ea + row.2.2.1 ≤ 4 * g.img.code.length →
        ∃ t, exec (row.1 p d a mode b sc disp) s = .next t ∧ StopsWork t p g 3 5)) ∧
    (inWork s p = some g → g.budget = 0 → ∃ t, exec (.budgetStop p) s = .next t ∧ StopsWork t p g 1 0) ∧
    (progOf s p = some g → g.phase ≠ .idle → cutoffPast s g = true → 0 < g.budget →
      ∃ t, exec (.trowelCutoff p) s = .next t ∧ StopsWork t p g 2 0)

/-- The memories of all programs stay in canonical form. -/
def Obligations.StepKeepsProgramMemories : Prop := ∀ s t : State, Canon s → step s = .next t → Canon t

/-- The sys. commands (layouts of sys.info, sys.hostcfg and sys.dadoinv: log 20). -/
def Obligations.SystemCommands : Prop :=
  ∀ (c : Cmd) (s : State),
    (runnable s c = true → 256 ≤ cOutLen c →
      ∃ t out, exec (.sysInfo c) s = .next t ∧ Served [] s t c (if 256 < cOutLen c then 256 else 0) out ∧
        out.length = 256 ∧ leNat (out.take 2) = 0x9612) ∧
    (∀ m0 m1, mayApply s c = true → c.fn < s.fns.length → cCtx c < (fnOf s c.fn).queues.length →
      (queueOf s c.fn (cCtx c)).st = 0 → 4 ≤ bits (cw c 12) 3 0 → bits (cw c 12) 3 0 ≤ 12 →
      cw64 c 8 % 4096 = 0 → cw64 c 10 % 4096 = 0 → (c.fn = 0 ∨ bits (cw c 12) 15 8 ≤ 31) →
      lget c.maps 0 none = some m0 → lget c.maps 1 none = some m1 → m0.length ≤ 64 → m1.length ≤ 64 →
      ∃ t, exec (.sysQcreate c) s = .next t ∧ Applied [.fns] s t c ∧
        queueOf t c.fn (cCtx c) = { (default : Queue) with
          st := 1, n := 2 ^ bits (cw c 12) 3 0, sqBase := cw64 c 8, cqBase := cw64 c 10
          vec := bits (cw c 12) 15 8, vecEn := bit (cw c 12) 16, sqMap := toExtents m0, cqMap := toExtents m1
          fetched := if isBootstrap c s then 1 else 0
          waiting := if isBootstrap c s then [.admitted c.tok] else [] }) ∧
    (mayApply s c = true → c.fn < s.fns.length → cCtx c < (fnOf s c.fn).queues.length → cCtx c ≠ c.qp →
      (queueOf s c.fn (cCtx c)).st ≠ 0 → qdeleteReady c s = true →
      ∃ t, exec (.sysQdelete c) s = .next t ∧ Applied [.fns] s t c ∧ queueOf t c.fn (cCtx c) = default) ∧
    (mayApply s c = true → cCtx c ≠ c.qp → (queueOf s c.fn (cCtx c)).st ≠ 0 → qdeleteReady c s = false →
      exec (.sysQdelete c) s = .next s) ∧
    (runnable s c = true →
      let es := (fnOf s (bits (cw c 8) 6 0)).ledger.take (cOutLen c / 32)
      (bit (cw c 8) 8 = false → ∃ t, exec (.sysLedger c) s = .next t ∧
        Served [] s t c (BitVec.ofNat 32 es.length) (es.flatMap ledgerOctets)) ∧
      (bit (cw c 8) 8 = true → bits (cw c 8) 6 0 < s.fns.length → ∃ t, exec (.sysLedger c) s = .next t ∧
        (fnOf t (bits (cw c 8) 6 0)).ledger = (fnOf s (bits (cw c 8) 6 0)).ledger.drop es.length ∧
        Within [.fns, .journal, .span, .outbox] s t)) ∧
    (mayApply s c = true → ∃ t, exec (.sysHostcfg c) s = .next t ∧ Ends s t c.tok 0 0 [] ∧
      t.sys.epoch = s.sys.epoch + 1 ∧ t.sys.ideReq = bit (cw c 8) 0 ∧ Within [.sys, .journal, .span, .outbox] s t) ∧
    (mayApply s c = true → (cw c 8).toNat < s.fns.length →
      (fnOf s (cw c 8).toNat).rootInv = ~~~(fnOf s (cw c 8).toNat).root →
      ∃ t, exec (.sysFnmap c) s = .next t ∧ Applied [.fns] s t c ∧
        (fnOf t (cw c 8).toNat).root = BitVec.ofNat 64 (cw64 c 10) ∧
        (fnOf t (cw c 8).toNat).rootInv = ~~~(BitVec.ofNat 64 (cw64 c 10)) ∧
        (fnOf t (cw c 8).toNat).rootBound = decide (cw64 c 10 ≠ 0) ∧ (fnOf t (cw c 8).toNat).cache = []) ∧
    (runnable s c = true → (cw c 8).toNat < s.fns.length →
      ∃ t, exec (.sysDadoinv c) s = .next t ∧ Answered t c.tok 0 0 [] ∧
        ∀ e ∈ (fnOf t (cw c 8).toNat).cache, e ∈ (fnOf s (cw c 8).toNat).cache ∧
          ¬(e.page < (invRange c).1 + (invRange c).2 ∧ (invRange c).1 < e.page + e.size)) ∧
    (runnable s c = true → (cw c 8).toNat < s.fns.length → fnEnabled s (cw c 8).toNat = true →
      (fnOf s (cw c 8).toNat).fenced = false → (∀ e ∈ s.journal, e.1 = c.tok → e.2.written = false) →
      ∃ t, exec (.sysFnreset c) s = .next t ∧
        (∃ j, jent t c.tok = some j ∧ j.outcome.map (·.status) = some 0) ∧
        (fnOf t (cw c 8).toNat).resetNo = ((fnOf s (cw c 8).toNat).resetNo + 1) % 256 ∧
        ∀ q ∈ (fnOf t (cw c 8).toNat).queues, q.st ≠ 1)

/-- cmd.abort (R375 to R377). -/
def Obligations.AbortEndsOrMarks : Prop :=
  ∀ (c : Cmd) (s : State), runnable s c = true → Cmd.opc c = 0x0F01 →
    (abortTarget c s = none → ∃ t, exec (.cmdAbort c) s = .next t ∧ Ends s t c.tok 0x050A 0 []) ∧
    (∀ k j o, abortTarget c s = some (k, j) → j.outcome = some o → (o.status ≠ 0x0501 ∨ j.mark ≠ .abort c.tok) →
      ∃ t, exec (.cmdAbort c) s = .next t ∧ Ends s t c.tok 0x0502 0 []) ∧
    (∀ k j, abortTarget c s = some (k, j) → jent s k = some j → k ≠ c.tok → j.outcome = none → j.mark = .none →
      j.cmd.fn = c.fn → j.cmd.qp = cCtx c → cTag j.cmd = cw c 8 →
      (j.started = false → ∃ t, exec (.cmdAbort c) s = .next t ∧ Answered t c.tok 0 (BitVec.ofNat 32 k) [] ∧
        (∃ x, jent t k = some x ∧ x.outcome.map (·.status) = some 0x0501) ∧
        Within [.journal, .deferred, .trowel, .pke, .span, .outbox] s t) ∧
      (safeAtOnce j = false → ∃ t, exec (.cmdAbort c) s = .next t ∧
        jent t k = some { j with mark := .abort c.tok } ∧
        (∃ x, jent t c.tok = some x ∧ x.started = true ∧ x.outcome = none) ∧
        (∀ i, i ≠ k → i ≠ c.tok → jent t i = jent s i) ∧ Within [.journal] s t))

/-- Time and port configuration (R63, R91, R668, R669; layouts: log 14, log 16, log 87). -/
def Obligations.TimeAndPortConfiguration : Prop :=
  ∀ (c : Cmd) (s : State), mayApply s c = true →
    (∃ t, exec (.sysTimecfg c) s = .next t ∧ Applied [.time, .log] s t c ∧
      t.time.prio = (List.range (field c.input 0 1)).map (fun i => field c.input (1 + i) 1) ∧
      t.time.revert = field c.input 8 4 ∧ t.time.qualLim = field c.input 12 4 ∧ t.time.stepLim = field c.input 16 4 ∧
      t.time.holdLim = field c.input 20 4 ∧ t.time.drift = field c.input 24 4 ∧
      t.time.domains = [field c.input 28 1, field c.input 29 1, field c.input 30 1, field c.input 31 1] ∧
      t.time.utcCfg = sInt 2 (field c.input 32 2)) ∧
    (s.time.hasSrc = true → (bpOf s s.time.src).qualified = true →
      let d : Int := (srcNow s s.time.src : Int) - (s.time.tai : Int)
      ∃ t, exec (.sysTimestep c) s = .next t ∧ Applied [.time, .hawk] s t c ∧
        t.time.tai = srcNow s s.time.src ∧ t.time.slew = 0 ∧
        t.time.bps = s.time.bps.map (fun b => { b with moved := b.moved ++ (b.fired.map (fun n => (n, d))).toList })) ∧
    ((s.time.hasSrc = false ∨ (bpOf s s.time.src).qualified = false) →
      ∃ t, exec (.sysTimestep c) s = .next t ∧ Ends s t c.tok 0x0702 0 [] ∧ Within [.journal, .span, .outbox] s t) ∧
    (sysPortcfgCheck c s = none → cCtx c < s.bpcfg.length →
      ∃ t, exec (.sysPortcfg c) s = .next t ∧ t.sys.epoch = s.sys.epoch + 1 ∧
        Within [.sys, .journal, .time, .ports, .bpcfg, .skim, .publ, .sealer, .span, .log, .freeCtr, .outbox] s t ∧
        (cfgOf t (cCtx c)).configured = true ∧ (cfgOf t (cCtx c)).ltype = bits (cw c 8) 1 0 ∧
        (cfgOf t (cCtx c)).fec = bits (cw c 8) 3 2 ∧ (cfgOf t (cCtx c)).redun = bits (cw c 8) 5 4 ∧
        (cfgOf t (cCtx c)).macsec = bit (cw c 8) 6 ∧ (cfgOf t (cCtx c)).xpn = bit (cw c 8) 7 ∧
        (cfgOf t (cCtx c)).degrade = bits (cw c 9) 15 0 ∧
        (saSpecs c = [] → Applied [.time, .ports, .bpcfg, .skim, .publ, .log] s t c ∧
          (portcfgRetrains c s = false → t.ports = s.ports ∧ t.time = s.time)) ∧
        (∀ a, saSpecs c = [a] → ∃ j x, jent t c.tok = some j ∧ j.started = true ∧ ctxOf t a.ctx = some x ∧ x.kind = 6 ∧
          x.bp = cCtx c ∧ x.keyCur = a.key ∧ x.sa.port = 2 * cCtx c + b2n a.lanB ∧ x.sa.tx = a.tx ∧ x.sa.sci = a.sci ∧
          x.sa.an = a.an ∧ x.sa.conf = a.conf ∧ x.sa.pn = 1 ∧ x.sa.keySlot = a.key))

/-- Port events (R95, R96, R99, R100, R106, R117). -/
def Obligations.PortEvents : Prop :=
  ∀ (n : Nat) (s : State), n < s.ports.length →
    let p := lget s.ports n default
    let cfg := cfgOf s (n / 2)
    (∀ neg, cfg.configured = true → portsEnabled s = true → p.st = 0 ∨ p.st = 1 → (cfg.ltype ≠ 1 ∨ neg = true) →
      ∃ t, exec (.portUp n neg) s = .next t ∧ Within [.time, .ports, .skim, .publ, .log, .outbox] s t ∧
        (lget t.ports n default).st = 2 ∧ (lget t.ports n default).signal = true) ∧
    (p.st = 2 ∨ p.st = 3 → 15 < p.cnt.length →
      ∃ t, exec (.portSignalLoss n) s = .next t ∧ Within [.time, .ports, .skim, .publ, .log, .outbox] s t ∧
        (lget t.ports n default).st = 1 ∧ (lget t.ports n default).signal = false ∧
        (lget t.ports n default).queues = List.replicate 4 [] ∧
        lget (lget t.ports n default).cnt 15 0 = lget p.cnt 15 0 + 1) ∧
    (∀ errs, cfg.degrade ≤ errs → p.st = 2 →
      ∃ t, exec (.portDegraded n errs) s = .next t ∧ Within [.ports, .log] s t ∧ (lget t.ports n default).st = 3) ∧
    (∀ at_, p.st = 3 → p.calmAt = some at_ → 10000000000 ≤ s.time.clock - at_ →
      ∃ t, exec (.portUndegrade n) s = .next t ∧ Within [.ports, .log] s t ∧ (lget t.ports n default).st = 2) ∧
    (∀ f qs, popQueue p.queues = some (f, qs) → portUp p = true → cfg.macsec = false →
      ∃ t f', exec (.portTransmit n) s = .next t ∧ Within [.ports, .skim, .publ, .outbox] s t ∧
        t.outbox = s.outbox ++ [.frame n f'] ∧ f'.octets = f.octets ∧ f'.seq = f.seq ∧ (lget t.ports n default).queues = qs ∧
        ((∀ r at_ delay, f.body ≠ .hsrForward r at_ delay) → f' = { f with macsec := none, wire := tagged n f } ∧
          lget t.ports n default = { p with
            queues := qs, lineEnd := s.time.clock + wireNs cfg.ltype f.octets, cnt := addAt (addAt p.cnt 10 1) 11 f.octets })) ∧
    (∀ b, n = 2 * b → 2 * b + 1 < s.ports.length → b < s.bpcfg.length → (cfgOf s b).redun = 1 → (cfgOf s b).supAt = none →
      inService s = true → portUp p = true → portUp (lget s.ports (n + 1) default) = true →
      p.txsaExh = false → (lget s.ports (n + 1) default).txsaExh = false →
      3 < p.queues.length → 3 < (lget s.ports (n + 1) default).queues.length →
      ∃ t f, exec (.prpSupervision b) s = .next t ∧ Within [.ports, .bpcfg] s t ∧ f.body = .prpSupervision (cfgOf s b).supSeq ∧
        f.seq = (cfgOf s b).seq ∧ (cfgOf t b).seq = ((cfgOf s b).seq + 1) % 65536 ∧
        ∀ i, i = n ∨ i = n + 1 → lget (lget t.ports i default).queues 3 [] = lget (lget s.ports i default).queues 3 [] ++ [f]) ∧
    (portUp p = true → p.txsaExh = false → 0 < p.queues.length →
      ∃ t f, exec (.pdelayRequest n) s = .next t ∧ Within [.time, .ports, .bpcfg] s t ∧
        f.body = .pdelayReq (lget s.time.domains (n / 2) 0) (if n % 2 = 1 then (bpOf s (n / 2)).pdSeqB else (bpOf s (n / 2)).pdSeqA) ∧
        lget (lget t.ports n default).queues 0 [] = lget p.queues 0 [] ++ [f])

/-- Time events (R57, R58, R60, R66, R67, R69, R72) and coasting (R84, R85). -/
def Obligations.TimeEvents : Prop :=
  ∀ s : State,
    (∀ b lanB, b < s.time.bps.length → (bpOf s b).ptp = 3 → (bpOf s b).lanB = lanB →
      ∃ t, exec (.announceTimeout b lanB) s = .next t ∧ Within [.time, .log] s t ∧
        (let x := bpOf s b
         let other := if lanB then x.annA else x.annB
         (other = none → (bpOf t b).ptp = 1 ∧ (bpOf t b).qualified = false) ∧
         (∀ d, other = some d → (bpOf t b).ptp = 3 ∧ (bpOf t b).lanB = !lanB ∧ (bpOf t b).gm = d.gm ∧
           (d.gm = x.gm → d.clockClass = 6 ∨ d.clockClass = 7 → (bpOf t b).qualified = x.qualified) ∧
           (d.gm ≠ x.gm → (bpOf t b).qualified = false)))) ∧
    (s.time.tstate = 2 → s.time.holdLim < errEst s →
      ∃ t, exec .freerunEntry s = .next t ∧ Within [.time, .log, .outbox] s t ∧ t.time.tstate = 3 ∧ t.time.tai = s.time.tai ∧
        t.time.ppsOut = false) ∧
    (s.time.tstate ≠ 2 ∨ errEst s ≤ s.time.holdLim → exec .freerunEntry s = .next s) ∧
    (∀ b, s.time.tstate = 1 → s.time.hasSrc = true → s.time.revert ≠ 0 → bestSource s = some b → b ≠ s.time.src →
      s.time.revert * 1000000000 ≤ s.time.clock - (bpOf s b).since →
      ∃ t, exec (.revertHoldExpiry b) s = .next t ∧ Within [.time, .log] s t ∧ t.time.src = b ∧
        t.time.srcChanges = sat32 (s.time.srcChanges + 1) ∧ t.time.tai = s.time.tai) ∧
    (s.time.tstate ≠ 0 → ∃ t, exec .ppsInEdge s = .next t ∧ Within [.time, .log] s t ∧ t.time.ppsOk = true ∧
      t.time.ppsAt = s.time.clock ∧ (t.time.ppsOff - s.time.tai) % 1000000000 = 0 ∧
      t.time.ppsOff ≤ 500000000 ∧ -500000000 < t.time.ppsOff) ∧
    (s.time.ppsOk = true → 2000000000 ≤ s.time.clock - s.time.ppsAt →
      exec .ppsInTimeout s = .next { s with time := { s.time with ppsOk := false } }) ∧
    (s.time.tstate = 1 ∨ s.time.tstate = 2 → (s.time.tai + 20) % 1000000000 ≤ 40 → s.time.ppsOut = false →
      exec (.ppsOutPulse true) s = .next { s with
        time := { s.time with
          ppsOut := true, ppsSec := some ((s.time.tai + 20) / 1000000000), ppsRise := s.time.clock }
        outbox := s.outbox ++ [.pps true] }) ∧
    (s.time.tstate = 1 ∨ s.time.tstate = 2 → s.time.ppsOut = true → 10000000 ≤ s.time.clock - s.time.ppsRise →
      exec (.ppsOutPulse false) s = .next { s with
        time := { s.time with ppsOut := false }, outbox := s.outbox ++ [.pps false] }) ∧
    (∀ rise, s.time.tstate = 0 ∨ s.time.tstate = 3 →
      (s.time.ppsOut = false → exec (.ppsOutPulse rise) s = .next s) ∧
      (s.time.ppsOut = true → exec (.ppsOutPulse rise) s = .next { s with
        time := { s.time with ppsOut := false }, outbox := s.outbox ++ [.pps false] })) ∧
    (∀ err, ∃ t, exec (.osc10mChange err) s = .next t ∧ Within [.time] s t ∧
      (err = none → t.time.osc = false) ∧
      (∀ e : Int, err = some e → t.time.osc = if s.time.tstate = 1 then decide (e.natAbs ≤ 20000) else s.time.osc) ∧
      (s.time.tstate = 2 → t.time.horef = (if t.time.osc then 1 else 2) ∧ errEst t = errEst s) ∧
      (s.time.tstate ≠ 2 → t.time = { s.time with osc := t.time.osc })) ∧
    (∀ b n, inService s = true → coastSlot s b = some n → b < s.time.trk.length →
      ∃ t, exec (.trackerCoast b) s = .next t ∧ (trkOf t b).count = (trkOf s b).count + 1 ∧
        (trkOf t b).evalSlot = some n ∧ (trkOf t b).evalFired = true ∧ (trkOf t b).evCoasted = true ∧
        (trkOf t b).st = (if (trkOf s b).coasted + 1 < (trkOf s b).coastN then 2
          else if (trkOf s b).altRef.isSome && !(trkOf s b).alt then 1 else 3))

/-- The stream. commands (index insertion: log 25). -/
def Obligations.StreamCommands : Prop :=
  ∀ (c : Cmd) (s : State),
    (mayApply s c = true → bpInUse s (cCtx c) = false → cCtx c < s.time.bps.length →
      ∃ t, exec (.streamMrate c) s = .next t ∧ Applied [.time, .hawk] s t c ∧
        (bpOf t (cCtx c)).mrate = (cw c 8).toNat ∧ (bpOf t (cCtx c)).fired = none ∧
        ∀ b, b ≠ cCtx c → bpOf t b = bpOf s b) ∧
    (mayApply s c = true → streamCycrefCheck c s = none → cCtx c < s.time.trk.length →
      ∃ t, exec (.streamCycref c) s = .next t ∧ Applied [.time] s t c ∧
        (let x := lget t.time.trk (cCtx c) default
         let o := lget s.time.trk (cCtx c) default
         x.prim = some (cycPrim c) ∧ x.altRef = cycAlt c ∧ x.arm = bits (cw c 10) 30 0 ∧
         x.coastN = bits (cw c 11) 3 0 ∧ x.hz60 = bit (cw c 11) 8 ∧ x.count = o.count ∧
         (refInUse o = none → x.st = 1 ∧ x.alt = false ∧ x.last = none) ∧
         (o.alt = false → o.prim = some (cycPrim c) → x.st = o.st ∧ x.last = o.last))) ∧
    (mayApply s c = true → streamSubCheck c s = none →
      ∃ t, exec (.streamSub c) s = .next t ∧ t.sys.epoch = s.sys.epoch + 1 ∧
        Within [.sys, .journal, .skim, .hawk, .sealer, .span, .log, .freeCtr, .outbox] s t ∧
        ctxOf t (cCtx c) = some { parseEntry c.input with
          gen := (mgetD s.skim.gens (cCtx c) 0 + 1) % 65536, swFrom := nextFire s (parseEntry c.input).bp } ∧
        (∀ k, k ≠ cCtx c → ctxOf t k = ctxOf s k) ∧
        (Ends s t c.tok 0 0 [] ∨
          (t.skim.rehash = true ∧ (c.tok, s.sys.epoch + 1) ∈ t.skim.rehashFor ∧
            ∃ j, jent t c.tok = some j ∧ j.started = true ∧ j.outcome = none))) ∧
    (∀ x, mayApply s c = true → ctxOf s (cCtx c) = some x → 1 ≤ x.kind → x.kind ≤ 4 → x.st ≠ 2 →
      ∃ t, exec (.streamUnsub c) s = .next t ∧ Applied [.fns, .skim, .hawk] s t c ∧
        (∀ f ∈ t.fns, ∀ r ∈ f.rings, cCtx c ∉ r.view) ∧
        ((∀ e ∈ s.skim.fetchWait, e.1 ≠ cCtx c) → t.skim.ctx = mdel s.skim.ctx (cCtx c)) ∧
        ((∃ e ∈ s.skim.fetchWait, e.1 = cCtx c) →
          ctxOf t (cCtx c) = some { x with st := 2, gs := { x.gs with expiry := 0 } })) ∧
    (∀ x, mayApply s c = true → streamKeysCheck c s = none → ctxOf s (cCtx c) = some x →
      ∃ t, exec (.streamKeys c) s = .next t ∧ Applied [.skim] s t c ∧
        ctxOf t (cCtx c) = some { x with
          keyNxt := bits (cw c 8) 15 0, keyIdNxt := cw c 9, switch := cw64 c 10, overlap := (cw c 12).toNat
          nxtValid := true, swFrom := nextFire s x.bp }) ∧
    (∀ x, runnable s c = true → ctxOf s (cCtx c) = some x → 1 ≤ x.kind → x.kind ≤ 4 → 64 ≤ cOutLen c →
      ∃ t, exec (.streamStats c) s = .next t ∧ Served [.skim] s t c 0 (cntOctets x) ∧
        ctxOf t (cCtx c) = some (if bit (cw c 8) 0 then { x with cnt := List.replicate 16 0 } else x))

/-- The sheet. commands. -/
def Obligations.SheetCommands : Prop :=
  ∀ (c : Cmd) (s : State), mayApply s c = true →
    (sheetHistoryCheck c s = none → ∃ t, exec (.sheetHistory c) s = .next t ∧ Applied [.hawk] s t c ∧
      t.hawk = { s.hawk with depth := (cw c 8).toNat }) ∧
    (let d := bits (cw c 8) 13 8
     let i := 16 * cCtx c + bits (cw c 8) 3 0
     1 ≤ d → d ≤ 32 → (bits (cw c 8) 17 16 = 2 → 5 ≤ d) → cCtx c < 4 → i < s.hawk.groups.length →
     ∃ t, exec (.sheetGroup c) s = .next t ∧ Applied [.hawk] s t c ∧
       lget t.hawk.groups i default = { lget s.hawk.groups i default with
         deadline := d, policy := bits (cw c 8) 17 16, hold := bits (cw c 8) 31 24 } ∧
       ∀ k, k ≠ i → lget t.hawk.groups k default = lget s.hawk.groups k default) ∧
    (∀ x, mget s.keys.slots (cCtx c) = some x → s.keys.corrupt.contains (cCtx c) = false → s.keys.ksk.isSome = true → x.attr = 4 →
      x.payload.length = 32 → (cw c 8).toNat < s.fns.length →
      ∃ t, exec (.sheetKey c) s = .next t ∧ Applied [.fns] s t c ∧ (fnOf t (cw c 8).toNat).sheetKey = some (cCtx c)) ∧
    (let f := (cw c 14).toNat
     cCtx c ≤ 4 → f < s.fns.length → cCtx c < (fnOf s f).rings.length →
     (bits (cw c 12) 4 0 = 0 → ∃ t, exec (.sheetRing c) s = .next t ∧ Applied [.fns, .hawk] s t c ∧
       ringOf t f (cCtx c) = default ∧ ∀ h ∈ t.hawk.held, ¬(h.fn = f ∧ h.ring = cCtx c)) ∧
     (bits (cw c 12) 4 0 ≠ 0 → sheetRingCheck c s = none → drawReady s 0 = true →
       ∃ t salt, exec (.sheetRing c) s = .next t ∧
         Ends s t c.tok 0 0 (if s.sys.gateway then [] else salt) ∧ t.sys.epoch = s.sys.epoch + 1 ∧
         ringOf t f (cCtx c) = { (default : Ring) with
           active := true, m := bits (cw c 12) 4 0, buf := cw64 c 8, ctl := cw64 c 10
           bufMap := toExtents ((lget c.maps 0 none).getD []), ctlMap := toExtents ((lget c.maps 1 none).getD [])
           vec := bits (cw c 12) 15 8, vecEn := bit (cw c 12) 16, salt := salt, view := (ringOf s f (cCtx c)).view
           tracker := (ringOf s f (cCtx c)).tracker, first := true, epoch := s.sys.epoch + 1 })) ∧
    (sheetViewCheck c s = none → (cw c 14).toNat < s.fns.length → cCtx c < (fnOf s (cw c 14).toNat).rings.length →
      ∃ t, exec (.sheetView c) s = .next t ∧ Applied [.fns] s t c ∧
        ringOf t (cw c 14).toNat (cCtx c) = { ringOf s (cw c 14).toNat (cCtx c) with
          view := viewIds c, tracker := if bit (cw c 8) 0 then some (bits (cw c 8) 2 1) else none })

/-- The replay window (R153). -/
def Obligations.ReplayWindowAcceptsOnce : Prop :=
  (∀ (p : SvPart) (n : Nat), p.wvalid = false → svReplay p n = .accept { p with highx := n, window := 1, wvalid := true } 0) ∧
  (∀ (p q : SvPart) (n gap : Nat), svReplay p n = .accept q gap → ∀ r g, svReplay q n ≠ .accept r g) ∧
  (∀ (p q : SvPart) (n gap : Nat), svReplay p n = .accept q gap → p.wvalid = true →
    q.highx = max p.highx n ∧ gap = n - p.highx - 1 ∧ q.wvalid = true) ∧
  (∀ (p : SvPart) (n : Nat), p.wvalid = true → n ≤ p.highx →
    (svReplay p n = .old ↔ 64 ≤ p.highx - n) ∧
    (svReplay p n = .replay ↔ p.highx - n < 64 ∧ p.window.getLsbD (p.highx - n) = true)) ∧
  (∀ (p q : SvPart) (n m gap : Nat), svReplay p n = .accept q gap → p.wvalid = true → m ≤ q.highx → q.highx - m < 64 →
    m ≠ n → (q.window.getLsbD (q.highx - m) = true ↔
      m ≤ p.highx ∧ p.highx - m < 64 ∧ p.window.getLsbD (p.highx - m) = true))

/-- The cases of R158 and the order of R157. -/
def Obligations.GooseCases : Prop :=
  (∀ g m fresh, g.gvalid = false → gooseCase g m fresh = .accept 1 0) ∧
  (∀ g m fresh, g.gvalid = true →
    (gooseCase g m fresh = .accept 0 0 ↔ m.stNum = g.stNum ∧ m.t = g.t ∧ ahead32 m.sqNum g.sqNum = true) ∧
    ((∃ gap, gooseCase g m fresh = .accept 2 gap) ↔
      m.stNum ≠ g.stNum ∧ ahead32 m.stNum g.stNum = true ∧ fresh = true ∧ utcTime g.t < utcTime m.t) ∧
    ((∃ gap, gooseCase g m fresh = .accept 3 gap) ↔
      m.stNum ≠ g.stNum ∧ ahead32 m.stNum g.stNum = false ∧ m.stNum = 1 ∧ fresh = true ∧ utcTime g.t < utcTime m.t) ∧
    (gooseCase g m fresh = .drop 5 ↔ (m.stNum = g.stNum ∧ m.t = g.t ∧ ahead32 m.sqNum g.sqNum = false) ∨
      (m.stNum ≠ g.stNum ∧ ahead32 m.stNum g.stNum = false ∧ m.stNum ≠ 1))) ∧
  (∀ q, ahead32 q q = false) ∧
  (∀ a b, a < 4294967296 → b < 4294967296 → ahead32 a b = true → ahead32 b a = false ∨ (a + 2147483648) % 4294967296 = b)

/-- FRAME_RECEIVE and the events of Skim. -/
def Obligations.SkimEvents : Prop :=
  ∀ s : State,
    (∀ port f, portUp (lget s.ports port default) = false → exec (.frameReceive port f) s = .next s) ∧
    (∀ port f, portUp (lget s.ports port default) = true → s.sys.held = false → f.fecCorr = 0 → f.fecUncorr = 0 →
      let base := cntPort port 1 f.octets (cntPort port 0 1 s)
      (f.fcsOk = false → (cfgOf s (port / 2)).redun ≠ 2 → exec (.frameReceive port f) s = .next (cntPort port 2 1 base)) ∧
      (f.fcsOk = true → (f.octets < 64 ∨ 1600 < f.octets) →
        exec (.frameReceive port f) s = .next (cntPort port 3 1 base)) ∧
      (f.fcsOk = true → 64 ≤ f.octets → f.octets ≤ 1600 → (f.stag = true ∨ 2 ≤ f.ctags.length) →
        exec (.frameReceive port f) s = .next (cntPort port 4 1 base)) ∧
      (f.fcsOk = true → 64 ≤ f.octets → f.octets ≤ 1600 → f.stag = false → f.ctags.length ≤ 1 → f.payload = .other →
        f.secTag = none → f.upsets = [] → s.skim.buf + f.octets ≤ 4194304 → (cfgOf s (port / 2)).macsec = false →
        (cfgOf s (port / 2)).redun = 0 →
        ∃ t, exec (.frameReceive port f) s = .next t ∧ Within [.ports, .skim, .freeCtr] s t ∧ t.ports = base.ports ∧
          t.skim.buf = s.skim.buf ∧ t.skim.ctx = s.skim.ctx ∧ t.skim.sources = s.skim.sources ∧
          (s.pair.listen = none → t.skim.cnt = addAt (addAt (addAt s.skim.cnt 0 1) 15 0) 1 1)) ∧
      (f.fcsOk = true → 64 ≤ f.octets → f.octets ≤ 1600 → f.stag = false → f.ctags.length ≤ 1 → f.payload = .other →
        f.secTag = none → 4194304 < s.skim.buf + f.octets → (cfgOf s (port / 2)).macsec = false →
        (cfgOf s (port / 2)).redun = 0 →
        exec (.frameReceive port f) s = .next (cntSkim 2 1 (cntSkim 0 1 base)))) ∧
    (∀ b src seq h p, s.skim.dupWait.find? (fun h => h.port / 2 == b && h.frame.src == src &&
        dupSeq s b h.frame == some seq) = some h → dupPos s b src seq = some p →
      (p.accepted = false → exec (.dupWaitRelease b src seq) s = .next s) ∧
      (p.accepted = true → ∃ t, exec (.dupWaitRelease b src seq) s = .next t ∧ Within [.skim, .hawk] s t ∧
        t.skim.dupWait.length + 1 = s.skim.dupWait.length ∧ t.skim.cnt = addAt s.skim.cnt 3 1)) ∧
    (∀ k e, e ∈ s.skim.fetchWait → e.1 = k → s.sys.held = false → s.sys.startup = false →
      (∃ t, exec (.contextFetchDone k true) s = .next t ∧ ∀ x ∈ t.skim.fetchWait, x.1 ≠ k) ∧
      (isStopped s = false → ∃ t, exec (.contextFetchDone k false) s = .next t ∧ mode t = 5)) ∧
    (∀ b src x, x ∈ s.skim.sources → x.bp = b → x.mac = src → 400000000 ≤ s.time.clock - x.lastAt →
      ∃ t, exec (.dupWindowClear b src) s = .next t ∧ Within [.ports, .skim] s t ∧
        t.skim.sources = s.skim.sources.map (fun y => if y.bp = b ∧ y.mac = src then { y with win := [] } else y)) ∧
    (s.skim.rehash = true → atSlotStart s = true → ∃ t, exec .indexSwap s = .next t ∧
      Within [.sys, .fns, .journal, .skim, .hawk, .eng, .rng, .span, .log, .budget, .freeCtr, .outbox] s t ∧
      (t.skim.rehash = true → t.journal = s.journal ∧ t.skim.index = s.skim.index)) ∧
    (∀ tok e j, s.skim.rehash = true → atSlotStart s = true → (∀ x ∈ s.skim.ctx, indexed x.2 = false) →
      s.skim.rehashFor = [(tok, e)] → jent s tok = some j → j.outcome = none →
      (fnOf s j.cmd.fn).fenced = false → (∀ e ∈ s.journal, Cmd.opc e.2.cmd ≠ 0x0F01) →
      ∃ t x, exec .indexSwap s = .next t ∧ t.skim.rehash = false ∧ t.skim.index = [] ∧ jent t tok = some x ∧
        x.outcome = some { status := 0, result := 0, epoch := e, dev := devnum s }) ∧
    (s.skim.rehash = false ∨ atSlotStart s = false → exec .indexSwap s = .next s) ∧
    (∀ k x, ctxOf s k = some x → resident s k x = true →
      (s.skim.dirty.contains k = true → isSvKind x.kind = true →
        ∃ t v, exec (.cacheLathFault k true) s = .next t ∧ Within [.skim, .log, .outbox] s t ∧
          ctxOf t k = some { x with st := if x.st = 2 then 2 else 4, sv := { x.sv with highx := v, window := BitVec.allOnes 64, wvalid := true } }) ∧
      (s.skim.dirty.contains k = true → isGooseKind x.kind = true →
        ∃ t, exec (.cacheLathFault k true) s = .next t ∧ Within [.skim, .log, .outbox] s t ∧
          ctxOf t k = some { x with gs := { x.gs with gvalid := false, fault := true } }) ∧
      (s.skim.dirty.contains k = false →
        ∃ t, exec (.cacheLathFault k false) s = .next t ∧ Within [.skim, .log] s t ∧ t.skim.ctx = s.skim.ctx ∧
          t.skim.cnt = addAt s.skim.cnt 14 1)) ∧
    (∀ k x n, ctxOf s k = some x → 1 ≤ x.kind → x.kind ≤ 5 → x.nxtValid = true → (bpOf s x.bp).fired = some n →
      (max (x.switch + x.overlap) x.swFrom ≤ n → ∃ t, exec (.keyPromote k) s = .next t ∧ Within [.skim, .log] s t ∧
        ctxOf t k = some { x with keyCur := x.keyNxt, keyIdCur := x.keyIdNxt, nxtValid := false }) ∧
      (n < max (x.switch + x.overlap) x.swFrom → exec (.keyPromote k) s = .next s)) ∧
    (∀ k x n, ctxOf s k = some x → x.kind = 6 → x.sa.current = false → x.sa.tx = false → (bpOf s x.bp).fired = some n →
      max (x.switch + x.overlap) x.swFrom ≤ n → ∃ t, exec (.keyPromote k) s = .next t ∧ Within [.skim, .log] s t ∧
        ctxOf t k = some { x with sa := { x.sa with current := true } }) ∧
    (∀ k x n, ctxOf s k = some x → isGooseKind x.kind = true → x.gs.expiry ≠ 0 → (bpOf s x.bp).fired = some n →
      max x.gs.expiry x.gs.expFrom ≤ n →
      ∃ t, exec (.supervisionExpiry k) s = .next t ∧ Within [.sys, .fns, .skim, .hawk, .eng, .span, .log, .budget, .outbox] s t ∧
        ctxOf t k = some { x with st := 5, gs := { x.gs with expiry := 0 }, cnt := lupd x.cnt 15 (fun v => sat32 (v + 1)) })

/-- Slot events and sheets (R22, R75, R174 to R176, R200, R205, R573, R575, R667). -/
def Obligations.SlotsAndSheets : Prop :=
  ∀ s : State, inService s = true →
    (∀ b n, s.time.tstate ≠ 0 → b < 4 → b < s.time.bps.length → nextStart s b = some n →
      ∃ t, exec (.slotStartEvent b) s = .next t ∧ Within [.time, .ports, .bpcfg, .hawk, .pair] s t ∧
        (bpOf t b).fired = some n ∧ t.time.tai = s.time.tai) ∧
    (∀ b, nextStart s b = none → exec (.slotStartEvent b) s = .next s) ∧
    (∀ g slot n m, (trigOf s g).src = .time slot (some m) → g < s.hawk.trigs.length →
      (bpOf s (trigOf s g).bp).fired = some n →
      (max slot m ≤ n → ∃ t, exec (.timeTrigger g) s = .next t ∧ Within [.hawk, .log, .outbox] s t ∧ (trigOf t g).src = .off) ∧
      (n < max slot m → exec (.timeTrigger g) s = .next s)) ∧
    (∀ b g n m, nextClose s b g = some n → closes s b = true → g < 16 → 16 * b + g < s.hawk.groups.length →
      (bpOf s b).fired = some m → n ≤ m →
      (closeInstant s b g n ≤ s.time.tai → ∃ t, exec (.slotCloseEvent b g) s = .next t ∧
        (groupOf t b g).closed = some (n, closeInstant s b g n)) ∧
      (s.time.tai < closeInstant s b g n → exec (.slotCloseEvent b g) s = .next s)) ∧
    (∀ f ring c, s.hawk.closing.find? (fun c => c.fn == f && c.ring == ring) = some c →
      (sheetReady s c.view c.slot = false → exec (.sheetWrite f ring) s = .next s) ∧
      (sheetReady s c.view c.slot = true →
        (publishes s = true → fixOwed s c.view c.slot = false →
          (s.hawk.held.any (fun h => h.fn == f && h.ring == ring)) = false → f < s.fns.length →
          ring < (fnOf s f).rings.length → ((ringOf s f ring).first = true ∨ (ringOf s f ring).lastSlot < c.slot) →
          ringTakes s f ring (1 + (sheetRows s c.view c.slot).length) = true →
          ∃ t, exec (.sheetWrite f ring) s = .next t ∧
            (ringOf t f ring).prod = (ringOf s f ring).prod + 1 + (sheetRows s c.view c.slot).length ∧
            (ringOf t f ring).lastSlot = max (ringOf s f ring).lastSlot c.slot ∧ (ringOf t f ring).first = false ∧
            ∀ x ∈ t.hawk.closing, ¬(x.fn = f ∧ x.ring = ring ∧ x.slot = c.slot)) ∧
        (publishes s = true → (fixOwed s c.view c.slot = true ∨ (s.hawk.held.any (fun h => h.fn == f && h.ring == ring)) = true) →
          ∃ t h, exec (.sheetWrite f ring) s = .next t ∧ Within [.hawk] s t ∧ t.hawk.held = s.hawk.held ++ [h] ∧ h.fn = f ∧
            h.ring = ring ∧ h.slot = c.slot ∧ h.epoch = c.epoch ∧ h.rows = sheetRows s c.view c.slot) ∧
        (publishes s = false → ∃ t h, exec (.sheetWrite f ring) s = .next t ∧ Within [.hawk, .pair] s t ∧
          h ∈ t.hawk.held ∧ h.fn = f ∧ h.ring = ring ∧ h.slot = c.slot ∧
          h.rows = sheetRows s c.view c.slot)))

/-- The trowel. commands (layouts: log 30). -/
def Obligations.TrowelCommands : Prop :=
  ∀ (c : Cmd) (s : State),
    (mayApply s c = true → trowelLoadCheck c s = none →
      ∃ t, exec (.trowelLoad c) s = .next t ∧ Applied [.trowel, .pke, .log, .budget, .fw] s t c ∧
        (∀ q, q ≠ tlProg c → progOf t q = progOf s q) ∧
        (progOf s (tlProg c) = none →
          progOf t (tlProg c) = some (newProg (tlCore c) (tlSlot c) (tlFn c) (parseImage (tlProg c) c.input)) ∧
          (10 < s.fw.meas.length → lget t.fw.meas 10 [] = fit 64 (Config.hash 5 (fit 64 (lget s.fw.meas 10 []) ++
            fit 64 (Config.hash 5 (signedPart c.input ++ leOctets 2 (tlProg c))))))) ∧
        (∀ g, progOf s (tlProg c) = some g → t.fw = s.fw ∧
          progOf t (tlProg c) = some { g with
            swap := some (parseImage (tlProg c) c.input, cw64 c 12, tlKeep c), fn := tlFn c })) ∧
    (mayApply s c = true → trowelBindCheck c s = none →
      ∃ t g, exec (.trowelBind c) s = .next t ∧ Applied [.hawk, .trowel] s t c ∧
        progOf t (cw c 8).toNat = some g ∧ g.bind_ = parseBind c ∧ ∀ q, q ≠ (cw c 8).toNat → progOf t q = progOf s q) ∧
    (∀ g, progOf s (cw c 8).toNat = some g →
      (mayApply s c = true → g.st ≠ 4 → ∃ t, exec (.trowelStart c) s = .next t ∧ Applied [.trowel] s t c ∧
        progOf t (cw c 8).toNat = some (if g.st = 2 then g else { g with st := 2, stops := 0, restartNext := !g.firstNext })) ∧
      (mayApply s c = true → ∃ t, exec (.trowelStop c) s = .next t ∧ Applied [.trowel] s t c ∧
        progOf t (cw c 8).toNat = some (if g.st = 4 then g else { g with st := 1 })) ∧
      (mayApply s c = true → g.phase = .idle → g.inMsg = none → ∃ t, exec (.trowelUnload c) s = .next t ∧
        Applied [.hawk, .trowel, .log] s t c ∧ t.trowel.progs = mdel s.trowel.progs (cw c 8).toNat) ∧
      (∀ msg d k j, mayApply s c = true → g.phase = .idle → g.inMsg = some (msg, d, k) → jent s k = some j →
        j.outcome = none → k ≠ c.tok → ∃ t j', exec (.trowelUnload c) s = .next t ∧ Answered t c.tok 0 0 [] ∧
        t.trowel.progs = mdel s.trowel.progs (cw c 8).toNat ∧
        jent t k = some j' ∧ j'.outcome.map (·.status) = some 0x0705) ∧
      (mayApply s c = true → g.phase ≠ .idle → ∃ t, exec (.trowelUnload c) s = .next t ∧ Applied [.trowel] s t c ∧
        progOf t (cw c 8).toNat = some { g with st := 1 } ∧ (cw c 8).toNat ∈ t.trowel.unloading) ∧
      (∀ msg d, runnable s c = true → g.inMsg = some (msg, d, c.tok) → ∃ t j, exec (.trowelMbsend c) s = .next t ∧
        Within [.journal] s t ∧ jent t c.tok = some j ∧ j.started = true ∧ j.outcome = none) ∧
      (∀ msg d k, runnable s c = true → g.inMsg = some (msg, d, k) → k ≠ c.tok →
        ∃ t, exec (.trowelMbsend c) s = .next t ∧ Ends s t c.tok 0x0508 0 [])) ∧
    (runnable s c = true → ∃ t, exec (.trowelRetire c) s = .next t ∧ Answered t c.tok 0 0 [] ∧
      (cw c 8).toNat ∈ t.trowel.retired) ∧
    (∀ core, core < 64 → runningOn s core = none → inService s = true →
      (∃ t, exec (.coreSelftest core false) s = .next t ∧ core ∈ t.trowel.retired) ∧
      exec (.coreSelftest core true) s = .next s)

/-- The pub. commands (places of parameters: log 27). -/
def Obligations.PublicationCommands : Prop :=
  ∀ (c : Cmd) (s : State),
    (mayApply s c = true → pubOpenCheck c s = none →
      ∃ t m x, exec (.pubOpen c) s = .next t ∧ Applied [.skim, .publ, .sealer, .log] s t c ∧
        parseTemplate (poType c) (cLen c) c.input = some m ∧ mget t.publ.templates (cCtx c - 0x5000) = some m ∧
        ctxOf t (cCtx c) = some x ∧ x.kind = 5 ∧ x.st = 1 ∧ x.bp = poBp c ∧ x.fn = poFn c ∧ x.macAlg = poAlg c ∧
        x.keyCur = poKey c ∧ x.keyNxt = poNext c ∧ x.pub.ptype = poType c ∧ x.pub.svalid = false ∧
        x.pub.curve = [4, 8, 16, 64, 256, 1024] ∧ x.pub.tsteady = slotRate s (poBp c)) ∧
    (∀ x, ctxOf s (cCtx c) = some x → x.kind = 5 →
      (mayApply s c = true → x.st ≠ 2 → ∃ t, exec (.pubClose c) s = .next t ∧ Applied [.skim, .publ] s t c ∧
        (x.pub.inFlight = 0 → t.skim.ctx = mdel s.skim.ctx (cCtx c) ∧
          t.publ.templates = mdel s.publ.templates (cCtx c - 0x5000)) ∧
        (x.pub.inFlight ≠ 0 → ctxOf t (cCtx c) = some { x with st := 2, pub := { x.pub with nextTx := 0 } })) ∧
      (runnable s c = true → sendTurn c s = true → x.st ≠ 2 → x.pub.ptype = 0 ∨ x.pub.ptype = 2 → s.time.tstate ≠ 0 →
        (lanCount s x.bp ≠ 0 → ∃ t y, exec (.pubSend c) s = .next t ∧
          Ends s t c.tok 0 (BitVec.ofNat 32 (succ32 x.pub.stNum)) [] ∧
          Within [.journal, .ports, .bpcfg, .skim, .publ, .eng, .span, .log, .budget, .outbox] s t ∧
          ctxOf t (cCtx c) = some y ∧
          y.pub.stNum = succ32 x.pub.stNum ∧ y.pub.sqNum = 0 ∧ y.pub.host = some c.input ∧ y.pub.svalid = true ∧
          y.pub.stepPos = 0 ∧ (x.pub.nextCurve = none → y.pub.nextTx = curSlot s x.bp + interval x.pub 0)) ∧
        (lanCount s x.bp = 0 → ∃ t, exec (.pubSend c) s = .next t ∧ Ends s t c.tok 0x0703 0 [] ∧
          Within [.journal, .skim, .span, .outbox] s t ∧
          ctxOf t (cCtx c) = some { x with cnt := lupd x.cnt 7 (fun v => sat32 (v + 1)) })) ∧
      (mayApply s c = true → x.st ≠ 2 → x.pub.ptype = 0 ∨ x.pub.ptype = 2 → curveBad (curveOf c) (cw64 c 11) = false →
        ∃ t, exec (.pubCurve c) s = .next t ∧ Applied [.skim] s t c ∧
          ctxOf t (cCtx c) = some { x with pub := { x.pub with nextCurve := some (curveOf c, cw64 c 11) } }) ∧
      (runnable s c = true → 64 ≤ cOutLen c →
        ∃ t, exec (.pubStats c) s = .next t ∧ Served [.skim] s t c 0 (cntOctets x) ∧
          ctxOf t (cCtx c) = some (if bit (cw c 8) 0 then { x with cnt := List.replicate 16 0 } else x)))

/-- Publication events. -/
def Obligations.PublicationEvents : Prop :=
  ∀ s : State,
    (∀ k x n, ctxOf s k = some x → isGoosePub x = true → x.st = 1 → x.pub.svalid = true → x.pub.nextTx ≠ 0 →
      (bpOf s x.bp).fired = some n →
      (max x.pub.nextTx x.pub.txFrom ≤ n → publishes s = true → s.publ.heldTx.any (fun h => h.2.2.1 == k) = false → ∃ t y, exec (.gooseRetransmit k) s = .next t ∧
        Within [.ports, .bpcfg, .skim, .eng, .log, .budget, .outbox] s t ∧ ctxOf t k = some y ∧ n < y.pub.nextTx ∧ y.pub.stNum = x.pub.stNum ∧
        y.pub.t = x.pub.t ∧ y.pub.sqNum = (if lanCount s x.bp = 0 then x.pub.sqNum else succ32 x.pub.sqNum)) ∧
      (n < max x.pub.nextTx x.pub.txFrom → exec (.gooseRetransmit k) s = .next s)) ∧
    (∀ k x n, ctxOf s k = some x → isGoosePub x = true → x.st = 1 → x.pub.svalid = false → x.pub.stNum = 0 →
      (bpOf s x.bp).fired = some n → x.pub.lastSlot < n → publishes s = true →
      ∃ t y, exec (.pubFirstState k) s = .next t ∧
        Within [.ports, .bpcfg, .skim, .publ, .eng, .log, .budget, .outbox] s t ∧
        ctxOf t k = some y ∧ y.pub.stNum = 1 ∧ y.pub.sqNum = 0 ∧ y.pub.svalid = true ∧ y.pub.host = x.pub.host) ∧
    (∀ k x, ctxOf s k = some x → isSvPub x = true → x.st = 1 → publishes s = true → s.time.tstate ≠ 0 →
      (∀ m, firstFixed s x.bp (svReady s k x) = some m → ∃ t y, exec (.svFrameBuild k) s = .next t ∧
        Within [.ports, .bpcfg, .skim, .eng, .log, .budget, .outbox] s t ∧ ctxOf t k = some y ∧ y.pub.lastSlot = m ∧ y.pub.stNum = x.pub.stNum) ∧
      (firstFixed s x.bp (svReady s k x) = none → exec (.svFrameBuild k) s = .next s)) ∧
    (∃ t, exec .pendingRaiseDiscard s = .next t ∧ Within [.publ] s t ∧
      (∀ q, q ∈ t.publ.pend ↔ q ∈ s.publ.pend ∧ curSlot s q.bp < q.slot + 64) ∧
      t.publ.heldTx = s.publ.heldTx ∧ t.publ.templates = s.publ.templates)

/-- The rec. commands and the events of a record (layout: log 37). -/
def Obligations.Records : Prop :=
  ∀ (c : Cmd) (s : State),
    (mayApply s c = true → recTrigCheck c s = none → (cw c 8).toNat < s.hawk.trigs.length →
      ∃ t, exec (.recTrig c) s = .next t ∧ Applied [.hawk] s t c ∧
        trigOf t (cw c 8).toNat = { src := armTime s (field c.input 2 1) ((trigSource c.input).getD .off), rows := trigRows c.input
                                    bp := field c.input 2 1, pre := field c.input 4 4, post := field c.input 8 4
                                    maxLen := field c.input 0xC 4, archive := field c.input 1 1 == 1
                                    fns := trigFns c.input, runLen := 0, fires := [] } ∧
        ∀ i, i ≠ (cw c 8).toNat → trigOf t i = trigOf s i) ∧
    (let g := trigOf s (cw c 8).toNat
     let slot := slotAt (s.time.tai - (s.time.clock - ((jent s c.tok).getD default).at_)) (slotRate s g.bp)
     runnable s c = true → g.src = .host → s.time.tstate ≠ 0 →
      ∃ t, exec (.recFire c) s = .next t ∧ Served [.hawk, .log] s t c 0 [] ∧
        (publishes s = false → t.hawk = s.hawk) ∧
        (publishes s = true → slot ∉ g.fires → s.hawk.recs = [] →
          ∃ r, t.hawk.recs = [r] ∧ r.trig = (cw c 8).toNat ∧ r.trigSlot = slot ∧ r.first = slot - g.pre ∧
            r.last = slot + g.post ∧ r.num = s.hawk.recNum + 1 ∧ r.rows = g.rows ∧ r.copying = false)) ∧
    (∀ r, mayApply s c = true → volAbsent s = false → volRecOf s (cw64 c 8) = some r →
      ∃ t, exec (.recLock c) s = .next t ∧ Applied [.sealer] s t c ∧
        volRecOf t (cw64 c 8) = some { r with locked := bit (cw c 10) 0 }) ∧
    (runnable s c = true →
      let ns := (s.hawk.notices.filter (fun n => c.fn == 0 || (trigOf s (field n 0 2)).fns.contains c.fn)).take (cOutLen c / 64)
      ∃ t, exec (.recList c) s = .next t ∧ Served [] s t c (BitVec.ofNat 32 ns.flatten.length) ns.flatten) ∧
    (∀ n r, recOf s n = some r → r.copying = false → r.posted = none → isStopped s = false →
      (copyDue s r = true → ∃ t, exec (.recordCopyStart n) s = .next t ∧ Within [.hawk, .log, .budget] s t ∧
        (let slots := ((List.range (r.last + 1 - r.first)).map (fun i => r.first + i)).takeWhile
           (fun k => decide (curSlot s r.bp < k + histSlots s r.bp))
         recOf t n = some { r with
           copying := true, truncated := r.truncated || decide (slots.length < r.last + 1 - r.first)
           body := slots.map (fun k => (k, slotRows s r k)) })) ∧
      (copyDue s r = false → exec (.recordCopyStart n) s = .next s)) ∧
    (∀ n r, recOf s n = some r → r.copying = true → r.posted = none → isStopped s = false → signerReady s = true →
      (slotFail s 3 [4] ≠ none → ∃ t, exec (.recordSeal n) s = .next t ∧
        t.hawk.recs = s.hawk.recs.filter (fun x => x.num != r.num)) ∧
      (slotFail s 3 [4] = none → (trigOf s r.trig).archive = true → volAbsent s = true →
        ∃ t, exec (.recordSeal n) s = .next t ∧ t.hawk.recs = s.hawk.recs.filter (fun x => x.num != r.num)) ∧
      (slotFail s 3 [4] = none → (trigOf s r.trig).archive = false → ∃ t, exec (.recordSeal n) s = .next t ∧
        t.hawk.recs =
          if (Config.pkeSign 0x0B (slotKey s 3) [] (Config.hash 5 (manifestHead r (recBody r))) (signerRnd 0 "record" (engineWork 4 7 0 (digestCycles (recBody r).length) 4 0 [] s)).1).isSome
          then s.hawk.recs.filter (fun x => x.num != r.num) else s.hawk.recs))

/-- The event recorder (R615 to R627). -/
def Obligations.EventRecorder : Prop :=
  ∀ (c : Cmd) (s : State),
    (s.log.queue = [] → exec .logRecord s = .next s) ∧
    (∀ type sev body q, s.log.queue = (type, sev, body) :: q →
      (∀ r, s.log.recs = [r] → r.seq + 1 = s.log.nextSeq → r.type = type → r.body = body → r.repeat_ < 65535 →
        exec .logRecord s = .next { openWork 15 (16 + 8 * body.length) 0 9 s with
          log := { s.log with queue := q, recs := [{ r with repeat_ := r.repeat_ + 1 }] } }) ∧
      (folds type body s = false → s.log.severity = false → s.log.full = false → 16 + 8 * body.length ≤ logFree s →
        exec .logRecord s = .next { openWork 15 (16 + 8 * body.length) 0 9 s with log := { s.log with
          queue := q, nextSeq := s.log.nextSeq + 1
          recs := s.log.recs ++ [{ seq := s.log.nextSeq, type := type, sev := sev, body := body, repeat_ := 0
                                   boot := s.fw.boots % 65536 }] } })) ∧
    (runnable s c = true →
      let o := logHeader s ++ takeRecords (s.log.recs.filter (fun r => decide (cw64 c 8 ≤ r.seq))) (cOutLen c - 64)
      (∃ t, exec (.logRead c) s = .next t ∧ Served [.budget] s t c (BitVec.ofNat 32 o.length) o) ∧
      (∃ t r, exec (.logClear c) s = .next t ∧ Served [.bpcfg, .log] s t c 0 [] ∧ t.log.recs = [r] ∧ r.type = 0x0220 ∧
        r.seq = s.log.nextSeq ∧ t.log.nextSeq = s.log.nextSeq + 1 ∧ t.log.overflow = 0 ∧ t.log.dropped = 0 ∧
        t.log.overwritten = 0 ∧ t.log.full = false ∧ t.log.clears = s.log.clears + 1)) ∧
    (mayApply s c = true → ∃ t, exec (.logPolicy c) s = .next t ∧ Applied [.log] s t c ∧
      t.log = { s.log with severity := bit (cw c 8) 0, full := s.log.full && !(bit (cw c 8) 0) })

/-- The cph. commands (sessions: log 41; saved state: log 39; charged cycles: log 42). -/
def Obligations.CipherCommands : Prop :=
  ∀ (c : Cmd) (s : State), runnable s c = true → sesTurn c s = true →
    (cphOpenCheck c s = none → ∃ t x, exec (.cphOpen c) s = .next t ∧ Served [.skim, .sealer, .log] s t c 0 [] ∧ ctxOf t (cCtx c) = some x ∧
      x.kind = 7 ∧ x.st = 1 ∧ x.fn = c.fn ∧ x.ses.skind = 1 ∧ x.ses.code = coMode c ∧ x.ses.dir = coDir c ∧
      x.ses.tlen = coTlen c ∧ x.ses.unitlg = coUnit c ∧ x.ses.final = false ∧ x.ses.chain = [] ∧
      (bits (cw c 9) 15 0 ≠ 0xFFFF → x.ses.keyset = true ∧ x.ses.key = slotKey s (bits (cw c 9) 15 0)) ∧
      (bits (cw c 9) 15 0 = 0xFFFF → x.ses.keyset = false)) ∧
    ((sesOf s (cCtx c)).isSome = true → ∃ t, exec (.cphClose c) s = .next t ∧ Served [.skim, .sealer, .log] s t c 0 [] ∧
      t.skim.ctx = mdel s.skim.ctx (cCtx c)) ∧
    (∀ x, sesOf s (cCtx c) = some x →
      let p := x.ses
      let aad := (crParts c p).1
      let dat := (crParts c p).2.1
      let tagIn := (crParts c p).2.2
      let all := p.chain ++ dat
      let plain := fit dat.length ((Config.cipher p.code p.dir p.key p.iv all).drop p.chain.length)
      (mayRun s 2 4 c.fn = true → cphRunCheck c s = none →
        (p.code ∉ [7, 8] → ∃ t y, exec (.cphRun c) s = .next t ∧
          Within [.journal, .skim, .eng, .sealer, .span, .log, .budget, .outbox] s t ∧
          ctxOf t (cCtx c) = some y ∧ y.ses = afterRun c aad dat p) ∧
        (p.code ∉ [3, 4, 6, 7, 8] → ∃ t, exec (.cphRun c) s = .next t ∧
          WorkStaged s t c.tok 0 (BitVec.ofNat 32 plain.length) plain) ∧
        (p.code = 3 → p.dir = false →
          let o := plain ++ (if crFinal c then fit p.tlen (Config.tag 3 p.key p.iv (p.aad ++ aad) (Config.cipher 3 false p.key p.iv all)) else [])
          ∃ t, exec (.cphRun c) s = .next t ∧ WorkStaged s t c.tok 0 (BitVec.ofNat 32 o.length) o) ∧
        (p.code = 3 → p.dir = true → ∃ t j g, exec (.cphRun c) s = .next t ∧ jent t c.tok = some j ∧ j.started = true ∧
          j.outcome = none ∧ j.staged = some g ∧
          g.status = (if crFinal c = false then 0
                      else if fit p.tlen (Config.tag 3 p.key p.iv (p.aad ++ aad) all) = tagIn then 0
                      else if mode s = 2 ∨ mode s = 3 then 0x0401 else 0x0402) ∧
          g.result = (if g.status = 0x0401 then 0 else BitVec.ofNat 32 plain.length) ∧
          (g.status = 0x0401 → g.out = List.replicate plain.length 0) ∧
          (dmaOk s c.fn = true → plain ≠ [] → (∀ o ∈ outWrites c plain, o ∈ t.outbox) ∧ g.wrote = plain.length)) ∧
        (p.code = 4 ∨ p.code = 6 →
          let tag := fit p.tlen (if p.code = 4 then Config.tag 4 p.key p.iv all [] else Config.tag 6 p.key [] [] all)
          ∃ t, exec (.cphRun c) s = .next t ∧
            (crFinal c = false → WorkStaged s t c.tok 0 0 []) ∧
            (crFinal c = true → p.dir = false → WorkStaged s t c.tok 0 (BitVec.ofNat 32 tag.length) tag) ∧
            (crFinal c = true → p.dir = true → WorkStaged s t c.tok (if tag = tagIn then 0 else 0x0401) 0 [])) ∧
        (p.code = 7 ∨ p.code = 8 → p.dir = false →
          let o := fit (crOut c p s) (Config.wrap p.code p.key
            (if crOther c = 0 then c.input.take (cLen c) else ((sesOf s (crOther c)).getD default).ses.key))
          ∃ t, exec (.cphRun c) s = .next t ∧ WorkStaged s t c.tok 0 (BitVec.ofNat 32 o.length) o) ∧
        (p.code = 7 ∨ p.code = 8 → p.dir = true → ∃ t, exec (.cphRun c) s = .next t ∧
          (Config.unwrap p.code p.key (c.input.take (cLen c)) = none → WorkStaged s t c.tok 0x0401 0 [] ∧
            (ctxOf t (crOther c)).map (fun y => y.ses) = (ctxOf s (crOther c)).map (fun y => y.ses)) ∧
          (∀ key, Config.unwrap p.code p.key (c.input.take (cLen c)) = some key →
            (keyFits s (crOther c) key.length false = true → WorkStaged s t c.tok 0 0 [] ∧
              ∃ z, ctxOf t (crOther c) = some z ∧ z.ses.keyset = true ∧ z.ses.key = key) ∧
            (keyFits s (crOther c) key.length false = false → WorkStaged s t c.tok 0x0303 0 [])))) ∧
      (cphSaveCheck c s = none → csWrapped c = false →
        let head := blobHead (cCtx c) x (p.saveSeq + 1) false []
        let body := fit 496 (Config.packState p.iv p.aad p.chain p.octets p.streamed p.final)
        let o := (head ++ body ++ (Config.hash 3 (head ++ body)).take 16).take (cOutLen c)
        ∃ t y, exec (.cphSave c) s = .next t ∧
          Served [.skim, .sealer, .log] s t c (if o.length < cOutLen c then BitVec.ofNat 32 o.length else 0) o ∧
          ctxOf t (cCtx c) = some y ∧ y.ses = { p with saveSeq := p.saveSeq + 1 }) ∧
      (cphSaveCheck c s = none → csWrapped c = true → drawReady s 0 = true →
        let iv := (generate c.fn 0 12 s).1
        let key := (fnOf s x.fn).ctxKey
        let head := blobHead (cCtx c) x (p.saveSeq + 1) true iv
        let ct := fit 496 (Config.cipher 3 false key iv (fit 496 (Config.packState p.iv p.aad p.chain p.octets p.streamed p.final)))
        let o := (head ++ ct ++ fit 16 (Config.tag 3 key iv head ct)).take (cOutLen c)
        ∃ t y, exec (.cphSave c) s = .next t ∧
          Served [.skim, .eng, .rng, .sealer, .log, .budget] s t c (if o.length < cOutLen c then BitVec.ofNat 32 o.length else 0) o ∧
          ctxOf t (cCtx c) = some y ∧ y.ses = { p with saveSeq := p.saveSeq + 1 }) ∧
      (cphRestoreCheck c s = none → ∃ t y, exec (.cphRestore c) s = .next t ∧ Served [.skim, .sealer, .log] s t c 0 [] ∧
        ctxOf t (cCtx c) = some y ∧
        (y.ses.iv, y.ses.aad, y.ses.chain, y.ses.octets, y.ses.streamed, y.ses.final) = Config.unpackState (blobState c.input x s) ∧
        y.ses.key = p.key ∧ y.ses.keyset = p.keyset ∧ y.ses.dir = p.dir) ∧
      (∀ st, cphRestoreCheck c s = some st → ∃ t y, exec (.cphRestore c) s = .next t ∧ Ends s t c.tok st 0 [] ∧
        Within [.journal, .skim, .eng, .span, .log, .outbox] s t ∧ ctxOf t (cCtx c) = some y ∧ y.ses = p))

/-- The hsh. commands (sessions: log 41; charged cycles: log 42). -/
def Obligations.HashCommands : Prop :=
  ∀ (c : Cmd) (s : State), runnable s c = true → sesTurn c s = true →
    let h := hcode c
    let ready (e : Nat) : Prop := mayRun s (hashEngine e) 4 c.fn = true
    let cap (o : List Byte) : List Byte := o.take (cOutLen c)
    let count (o : List Byte) : W32 := if (cap o).length < cOutLen c then BitVec.ofNat 32 (cap o).length else 0
    let split (dir : Bool) (tl : Nat) (i : List Byte) : List Byte := if dir then i.take (i.length - tl) else i
    let key := slotKey s (cCtx c)
    let inp := c.input.take (cLen c)
    (ready h → let o := hashOf h (hnlen c) (hslen c) [] inp (outOf h c)
      ∃ t, exec (.hshDigest c) s = .next t ∧ WorkStaged s t c.tok 0 (count o) (cap o) ∧
        Within [.journal, .eng, .span, .budget, .outbox] s t) ∧
    (ready h → hshMacCheck c s = none →
      let tag := hashOf h (hnlen c) (hslen c) key (split (hdir c) (htlen c) inp) (htlen c)
      ∃ t, exec (.hshMac c) s = .next t ∧ Within [.journal, .skim, .eng, .sealer, .span, .log, .budget, .outbox] s t ∧
        (hderive c = false → hdir c = false → WorkStaged s t c.tok 0 (count tag) (cap tag)) ∧
        (hderive c = false → hdir c = true →
          WorkStaged s t c.tok (if tag = inp.drop (inp.length - htlen c) then 0 else 0x0401) 0 []) ∧
        (hderive c = true → WorkStaged s t c.tok 0 0 [] ∧
          ∃ z, ctxOf t (bits (cw c 9) 15 0) = some z ∧ z.ses.keyset = true ∧ z.ses.key = tag)) ∧
    (hshOpenCheck c s = none → ∃ t x, exec (.hshOpen c) s = .next t ∧ Served [.skim, .sealer, .log] s t c 0 [] ∧ ctxOf t (cCtx c) = some x ∧
      x.kind = 7 ∧ x.st = 1 ∧ x.fn = c.fn ∧ x.ses.skind = 2 ∧ x.ses.code = h ∧ x.ses.dir = hdir c ∧ x.ses.tlen = htlen c ∧
      x.ses.nlen = hnlen c ∧ x.ses.slen = hslen c ∧ x.ses.chain = [] ∧
      (unkeyed h = false → (cw c 9).toNat ≠ 0xFFFF → x.ses.keyset = true ∧ x.ses.key = slotKey s (cw c 9).toNat) ∧
      (unkeyed h = true → x.ses.keyset = true) ∧ (unkeyed h = false → (cw c 9).toNat = 0xFFFF → x.ses.keyset = false)) ∧
    (∀ x, sesOf s (cCtx c) = some x → ready x.ses.code →
      let p := x.ses
      let all := p.chain ++ inp
      let tag := hashOf p.code p.nlen p.slen p.key (split p.dir p.tlen all) p.tlen
      (hshUpdateCheck c s = none → ∃ t y, exec (.hshUpdate c) s = .next t ∧ WorkStaged s t c.tok 0 0 [] ∧
        Within [.journal, .skim, .eng, .sealer, .span, .log, .budget, .outbox] s t ∧
        ctxOf t (cCtx c) = some y ∧ y.ses = { p with chain := all, octets := p.octets + cLen c, streamed := true }) ∧
      (hshFinalCheck c s = none → ∃ t, exec (.hshFinal c) s = .next t ∧
        Within [.journal, .skim, .eng, .sealer, .span, .log, .budget, .outbox] s t ∧
        (unkeyed p.code = true →
          let o := hashOf p.code p.nlen p.slen [] all (outOf p.code c)
          WorkStaged s t c.tok 0 (count o) (cap o) ∧ t.skim.ctx = mdel s.skim.ctx (cCtx c)) ∧
        (unkeyed p.code = false → p.derive_ = false → p.dir = false →
          WorkStaged s t c.tok 0 (count tag) (cap tag) ∧ t.skim.ctx = mdel s.skim.ctx (cCtx c)) ∧
        (unkeyed p.code = false → p.derive_ = false → p.dir = true →
          WorkStaged s t c.tok (if tag = all.drop (all.length - p.tlen) then 0 else 0x0401) 0 [] ∧
          ∀ k, k < 0x10000 → ctxOf t k = mget (mdel s.skim.ctx (cCtx c)) k) ∧
        (unkeyed p.code = false → p.derive_ = true → WorkStaged s t c.tok 0 0 [] ∧
          ∃ z, ctxOf t (bits (cw c 9) 15 0) = some z ∧ z.ses.keyset = true ∧ z.ses.key = tag)))

/-- The pke. commands (a failed operation's result word: log 40; the algorithms themselves: log 8). -/
def Obligations.PublicKeyCommands : Prop :=
  (∀ (c : Cmd) (s : State), runnable s c = true →
    ∀ row ∈ ([Instr.pkeSign, Instr.pkeVerify] ++
        if sesTurn c s then [Instr.pkeAgree, Instr.pkeEncap, Instr.pkeDecap, Instr.pkeKeygen] else []),
      (∀ i, pkeCheck c s = none → freeUnit s = some i → i < s.pke.units.length → mayStart s 5 5 c.fn = true →
        unitShare s c.fn = true → s.pke.stopped = false → (pkDraw c ≠ 0 → drawReady s 65 = true) →
        ∃ t j, exec (row c) s = .next t ∧ Within [.journal, .eng, .pke, .rng, .log, .budget, .outbox] s t ∧
          jent t c.tok = some j ∧ j.started = true ∧ j.outcome = none ∧
          unitOf t i = { owner := c.fn, alg := pkAlg c, busy := true, wiping := false, tok := c.tok, at_ := s.time.clock
                         rnd := if pkDraw c = 0 then [] else (generate c.fn 65 (pkDraw c) s).1
                         mem := pkOperands c (if pkDraw c = 0 then [] else (generate c.fn 65 (pkDraw c) s).1) s } ∧
          ∀ k, k ≠ i → unitOf t k = unitOf s k) ∧
      (∀ st, pkeCheck c s = some st → ∃ t, exec (row c) s = .next t ∧ Ends s t c.tok st 0 [] ∧
        Within [.journal, .rng, .span, .outbox] s t)) ∧
  (∀ (i : Nat) (s : State) (j : JEntry), i < 4 → i < s.pke.units.length →
    let u := unitOf s i
    let c := j.cmd
    let o := Cmd.opc c
    let w := cw c 8
    let a := pkAlg c
    let inp := c.input.take (cLen c)
    let msg := inp.drop (pkHead c)
    let ctx := inp.take (pkCtxLen c)
    let zeros : List Byte := List.replicate (pkOut c) 0
    jent s u.tok = some j → j.outcome = none → NothingWaits s c →
    (u.busy = true → s.time.clock - u.at_ ≥ pkTime c → s.pke.stopped = false →
      ∃ t, exec (.pkeResultReady i) s = .next t ∧ Within [.journal, .skim, .pke, .sealer, .span, .log, .budget, .outbox] s t ∧
        unitOf t i = { u with busy := false, wiping := true, rnd := [], at_ := s.time.clock } ∧
        (let is (st : Nat) (x : List Byte) : Prop := Ends s t u.tok st (if st = 0 then BitVec.ofNat 32 x.length else 0) x
         let holds (k : Nat) (x : List Byte) : Prop := ∃ z, ctxOf t k = some z ∧ z.ses.keyset = true ∧ z.ses.key = x
         (j.mark = .dado → pkOut c ≠ 0 → is 0x0802 []) ∧
         (¬(j.mark = .dado ∧ pkOut c ≠ 0) → o = 0x7001 →
           (Config.pkeValid w (pkPriv c s) [] = false → is 0x0403 zeros) ∧
           (∀ g, Config.pkeValid w (pkPriv c s) [] = true → Config.pkeSign w (pkPriv c s) ctx msg u.rnd = some g → is 0 (fit (pkOut c) g)) ∧
           (Config.pkeValid w (pkPriv c s) [] = true → Config.pkeSign w (pkPriv c s) ctx msg u.rnd = none → isMlDsa a = true → is 0x0404 zeros)) ∧
         (o = 0x7002 →
           let pub := if cCtx c = 0xFFFF then (inp.drop (pkCtxLen c)).take (pkPub c) else slotKey s (cCtx c)
           let sig := (inp.drop (pkCtxLen c + pkPub c)).take (pkSig c)
           is (if Config.pkeValid w pub sig = false then 0x0403 else if Config.pkeVerify w pub ctx msg sig then 0 else 0x0401) []) ∧
         (o = 0x7003 → pkTarget c ≠ cCtx c → (sesOf s (pkTarget c)).isSome = true →
           (Config.pkeValid w (pkPriv c s) inp = false → is 0x0403 []) ∧
           (Config.pkeValid w (pkPriv c s) inp = true → is 0 [] ∧
             holds (pkTarget c) (fit (secretLen a) (Config.pkeAgree a (pkPriv c s) inp)))) ∧
         (¬(j.mark = .dado ∧ pkOut c ≠ 0) → o = 0x7004 → (sesOf s (pkTarget c)).isSome = true →
           (Config.pkeValid w inp [] = false → is 0x0403 zeros) ∧
           (Config.pkeValid w inp [] = true → is 0 (fit 1568 (Config.kemEncap inp u.rnd).1) ∧
             holds (pkTarget c) (fit 32 (Config.kemEncap inp u.rnd).2))) ∧
         (o = 0x7005 → pkTarget c ≠ cCtx c → (sesOf s (pkTarget c)).isSome = true →
           is 0 [] ∧ holds (pkTarget c) (fit 32 (Config.kemDecap (pkPriv c s) inp))) ∧
         (o = 0x7003 ∨ o = 0x7005 → 0x5A00 ≤ cCtx c → ∀ k, k ≠ pkTarget c → ctxOf t k = mget (mdel s.skim.ctx (cCtx c)) k) ∧
         (¬(j.mark = .dado ∧ pkOut c ≠ 0) → o = 0x7006 →
           let k := fit (privLen a) (Config.pkePrivate a u.rnd)
           is 0 (fit (pubLen a) (Config.pkePublic a k)) ∧ holds (pkTarget c) k))) ∧
    (u.wiping = true → s.time.clock - u.at_ ≥ 960 → j.mark ≠ .none →
      ∃ t, exec (.pkeWipeDone i) s = .next t ∧ Within [.journal, .pke, .span, .outbox] s t ∧
        unitOf t i = { u with wiping := false, tok := 0, mem := List.replicate u.mem.length 0 } ∧ Ends s t u.tok (markStatus j.mark) 0 [])) ∧
  (∀ (i : Nat) (s : State), i < 4 → i < s.pke.units.length → (unitOf s i).wiping = true →
    s.time.clock - (unitOf s i).at_ ≥ 960 → ((jent s (unitOf s i).tok).all (fun j => j.outcome.isSome)) = true →
    ∃ t, exec (.pkeWipeDone i) s = .next t ∧ Within [.pke] s t ∧
      unitOf t i = { unitOf s i with wiping := false, tok := 0, mem := List.replicate (unitOf s i).mem.length 0 } ∧ ∀ k, k ≠ i → unitOf t k = unitOf s k)

/-- The random number generator (free octets: log 2; the algorithms: log 8; the order of a window's bits: log 100). -/
def Obligations.RandomNumbers : Prop :=
  (∀ (c : Cmd) (s : State),
    (runnable s c = true → drawRefused s = none → drawReady s c.fn = true → mayRun s 2 4 c.fn = true → ∃ t, exec (.rngGet c) s = .next t ∧
      WorkStaged s t c.tok 0 0 (Config.drbg (drbgOf (seedFor c.fn s) c.fn).seed (drbgOf (seedFor c.fn s) c.fn).gens (cOutLen c)) ∧
      Within [.journal, .eng, .rng, .span, .log, .budget, .outbox] s t ∧
      (c.fn < s.rng.drbg.length → (drbgOf t c.fn).gens = (drbgOf (seedFor c.fn s) c.fn).gens + 1)) ∧
    (∀ st, runnable s c = true → drawRefused s = some st → ∃ t, exec (.rngGet c) s = .next t ∧ Ends s t c.tok st 0 []) ∧
    (runnable s c = true → reseedReady c s = true → rngReseedCheck c s = none → ∃ t, exec (.rngReseed c) s = .next t ∧
      Served [.rng] s t c 0 [] ∧
      (leavesFailed c s = false → c.fn < s.rng.drbg.length → (drbgOf t c.fn).inst = true ∧ (drbgOf t c.fn).gens = 0 ∧
        (drbgOf t c.fn).at_ = s.time.clock ∧ (drbgOf t c.fn).want = false) ∧
      (leavesFailed c s = true → t.rng.failed = false ∧ t.rng.st = 0 ∧ ∀ x ∈ t.rng.srcs, x.st = 0)) ∧
    (∀ st, runnable s c = true → rngReseedCheck c s = some st → ∃ t, exec (.rngReseed c) s = .next t ∧ Ends s t c.tok st 0 []) ∧
    (mayApply s c = true → ∃ t, exec (.rngPattern c) s = .next t ∧ Applied [.rng] s t c ∧
      t.rng.pattern = if cLen c = 0 then none else some c.input)) ∧
  (∀ (i : Nat) (e0 e1 raw : List Byte) (s : State), i < 4 → i < s.rng.srcs.length → s.rng.failed = false →
    s.sys.held = false →
    let x := lget s.rng.srcs i default
    let window := match s.rng.pattern with
      | some p => (List.range 512).map (fun k => lget p ((x.patPos + k) % p.length) 0)
      | none => fit 512 raw
    let rct := (repetition (rawBits window) x.lastBit x.run false).2.2
    let apt := windowsBad (rawBits window)
    let half (e : List Byte) : List Byte := List.zipWith (· ^^^ ·) (fit 32 (Config.hash 5 window)) (fit 32 e)
    x.st ≠ 3 →
    (rct = false → apt = false → x.st = 1 → half e0 = half e1 → ∃ t, exec (.healthWindowEnd i e0 e1 raw) s = .next t ∧ Within [.rng] s t ∧
      (lget t.rng.srcs i default).held = some (half e0) ∧
      (s.rng.st ≠ 0 → t.rng.pool = match x.held with
        | some h => if s.rng.pool.length < 32 then s.rng.pool ++ [h] else s.rng.pool
        | none => s.rng.pool)) ∧
    (rct = false → apt = false → x.st = 1 → half e0 ≠ half e1 → ∃ t, exec (.healthWindowEnd i e0 e1 raw) s = .next (tamperDetect 14 t) ∧
      Within [.rng] s t ∧ (lget t.rng.srcs i default).held = none) ∧
    (rct = false → apt = false → x.st ≠ 1 → ∃ t, exec (.healthWindowEnd i e0 e1 raw) s = .next t ∧
      Within [.rng, .log, .outbox] s t ∧ (lget t.rng.srcs i default).st = 1 ∧ t.rng.pool = s.rng.pool ∧
      (s.rng.st = 2 → s.rng.lastBad = some i → t.rng.st = if rngSeeded s then 1 else 0)) ∧
    (rct = true ∨ apt = true → ∃ t, exec (.healthWindowEnd i e0 e1 raw) s = .next t ∧
      Within [.journal, .rng, .span, .log, .outbox] s t ∧ t.rng.st = 2 ∧ t.rng.consec = min 3 (s.rng.consec + 1) ∧
      (lget t.rng.srcs i default).st = (if s.rng.consec + 1 ≥ 3 then 3 else 2) ∧
      (lget t.rng.srcs i default).lastFail = (if rct then 1 else 2) ∧ (lget t.rng.srcs i default).held = none ∧
      t.rng.failed = decide (s.rng.consec + 1 ≥ 3) ∧
      ∀ tok ∈ openDraws s, ((jent t tok).bind (fun j => j.outcome)).map (fun o => o.status) = some 0x0602)) ∧
  (∀ s : State,
    (rngSeeded s = false → s.rng.timedOut = false → s.rng.failed = false → s.time.clock - s.rng.startAt ≥ 50000000 →
      ∃ t, exec .entropyTimeout s = .next t ∧ Within [.fns, .journal, .skim, .eng, .rng, .span, .log, .freeCtr, .outbox] s t ∧
        t.rng.timedOut = true ∧ t.rng.fallback = true ∧
        ∀ tok ∈ openDraws s, ((jent t tok).bind (fun j => j.outcome)).map (fun o => o.status) = some 0x0601) ∧
    (s.time.clock - s.rng.startAt < 50000000 → exec .entropyTimeout s = .next s) ∧
    (s.rng.st = 2 → s.rng.failed = false → s.time.clock - s.rng.failAt ≥ 50000000 →
      ∃ t, exec .rngResumeTimeout s = .next t ∧ Within [.journal, .rng, .span, .log, .outbox] s t ∧
        ∀ tok ∈ openDraws s, ((jent t tok).bind (fun j => j.outcome)).map (fun o => o.status) = some 0x0601) ∧
    (s.time.clock - s.rng.failAt < 50000000 → exec .rngResumeTimeout s = .next s))

/-- The key store (the partner's answer: log 43; ranges of svc.enrol and svc.officer: log 50). -/
def Obligations.KeyStoreCommands : Prop :=
  (∀ (c : Cmd) (s : State),
    let cap (o : List Byte) : List Byte := o.take (cOutLen c)
    let count (o : List Byte) : W32 := if (cap o).length < cOutLen c then BitVec.ofNat 32 (cap o).length else 0
    (∀ x, runnable s c = true → keyInfoCheck c s = none → mget s.keys.slots (cCtx c) = some x →
      let o := descriptor x ++ (if 64 + (shownKey x).length ≤ cOutLen c then shownKey x else [])
      ∃ t, exec (.keyInfo c) s = .next t ∧ Served [] s t c (BitVec.ofNat 32 o.length) o) ∧
    (∀ st, runnable s c = true → keyInfoCheck c s = some st → ∃ t, exec (.keyInfo c) s = .next t ∧ Ends s t c.tok st 0 []) ∧
    (runnable s c = true →
      let o := devId ++ leOctets 4 s.keys.ucount ++ [BitVec.ofNat 8 s.keys.oepoch, BitVec.ofNat 8 (64 - s.keys.oepoch)] ++
        List.replicate 10 0 ++ fit 1568 (Config.pkePublic 0x0C kemKey)
      ∃ t, exec (.keyTarget c) s = .next t ∧ Served [] s t c (count o) (cap o)) ∧
    (runnable s c = true → (nonceFallback s = true ∨ drawReady s 70 = true) → ∃ t n, exec (.svcChallenge c) s = .next t ∧
      Served [.eng, .rng, .keys, .log, .budget] s t c (count n) (cap n) ∧ n.length = 32 ∧ t.keys.nonce = some (n, s.time.clock) ∧
      (nonceFallback s = false → n = fit 32 (generate 0 70 32 s).1) ∧
      (nonceFallback s = true → n = fit 32 (Config.kmac 11 (Config.kmac 11 Config.drk (text "challenge") 32 [])
        (leOctets 8 s.fw.boots ++ leOctets 8 (s.keys.chalCount + 1)) 32 []))) ∧
    (mayApply s c = true → (envGenerates c = true → drawReady s 70 = true) →
      (((parseEnvelope c.input).getD []).all (fun i => (mget s.keys.slots i.slot).all (fun x =>
        x.attr + x.attrInv == 7 && x.purpose + x.purposeInv == 15))) = true →
      (∀ items r, keyApplyCheck c s = none → parseEnvelope c.input = some items → ownEntry c.input = some r →
        ∃ t, exec (.keyApply c) s = .next t ∧ Applied [.eng, .pke, .rng, .keys, .log, .budget, .freeCtr] s t c ∧
          t.keys.ucount = entryCount c.input r ∧
          (∀ i ∈ items, i.op ≠ 2 → ∃ x, mget t.keys.slots i.slot = some x ∧ x.attr = i.attr ∧ x.ktype = i.ktype ∧
            x.purpose = i.purpose ∧ x.klen = i.klen ∧ x.label = i.label ∧ x.oepoch = s.keys.oepoch ∧
            x.ucount = entryCount c.input r ∧ x.epoch = s.sys.epoch + 1 ∧ x.source = (if i.op = 1 then 2 else 3) ∧
            x.keyFp = fingerprint x.payload ∧
            (i.op = 1 → itemPayload ((contentKey c.input r).getD []) i = some x.payload)) ∧
          (msorted none s.keys.slots = true → ∀ i ∈ items, i.op = 2 → mget t.keys.slots i.slot = none) ∧
          (∀ k, (∀ i ∈ items, i.slot ≠ k) → mget t.keys.slots k = mget s.keys.slots k)) ∧
      (∀ st, keyApplyCheck c s = some st → ∃ t, exec (.keyApply c) s = .next t ∧ Ends s t c.tok st 0 [] ∧
        Within [.journal, .pke, .rng, .keys, .span, .log, .budget, .outbox] s t ∧ t.keys.slots = s.keys.slots ∧ t.keys.ucount = s.keys.ucount)) ∧
    (let officers (m : Map KSlot) (l : List Byte) : Prop :=
      (∀ i, i < 8 → i < offCount c → ∃ x, mget m (5 + i) = some x ∧ x.attr = 5 ∧ x.ktype = 0x4A ∧
        x.payload = octets l (2592 * i) 2592) ∧
      (msorted none s.keys.slots = true → ∀ i, i < 8 → offCount c ≤ i → mget m (5 + i) = none)
     (mayApply s c = true → (officersThere s = true → quorumCheck c s = none) → svcEnrolCheck c s = none → drawReady s 70 = true →
      ∃ t x, exec (.svcEnrol c) s = .next t ∧ Applied [.eng, .pke, .rng, .keys, .log, .budget, .fw] s t c ∧ t.keys.owned = true ∧
        t.keys.keysOk = true ∧ t.keys.bbkek.isSome = true ∧ t.keys.ksk = kskOf t ∧ t.keys.quorum = offQuorum c ∧
        mget t.keys.slots 4 = some x ∧ x.attr = 5 ∧ x.payload = octets (opData c) 0 2592 ∧
        (mget t.keys.slots 3).isSome = true ∧ (mget t.keys.slots 0xD).isSome = true ∧
        officers t.keys.slots ((opData c).drop 2592)) ∧
     (mayApply s c = true → quorumCheck c s = none → ∃ t, exec (.svcOfficer c) s = .next t ∧
      Applied [.pke, .keys, .log, .budget, .fw] s t c ∧ t.keys.quorum = offQuorum c ∧ officers t.keys.slots (opData c) ∧
      ∀ k, (k < 5 ∨ 12 < k) → mget t.keys.slots k = mget s.keys.slots k)) ∧
    (mayApply s c = true → quorumCheck c s = none → s.keys.oepoch < 64 → ∃ t, exec (.svcRelease c) s = .next t ∧
      Applied [.pke, .trowel, .keys, .log, .budget, .fw] s t c ∧ t.keys.oepoch = s.keys.oepoch + 1 ∧ t.keys.ucount = 0 ∧
      t.keys.owned = false ∧ t.trowel.pvers = [] ∧ t.fw.released = true) ∧
    (mayApply s c = true → ∀ row ∈ [Instr.svcOfficer, Instr.svcRelease],
      (nonceOf c s = none → ∃ t, exec (row c) s = .next t ∧ Ends s t c.tok 0x0A02 0 [] ∧ t.keys.slots = s.keys.slots) ∧
      (∀ n, nonceOf c s = some n →
        (∀ i, i < tokenCount c → field (tokenAt c i) 5 1 < 8 ∧ (mget s.keys.slots (5 + field (tokenAt c i) 5 1)).isSome = true) →
        (countTokens c n s (tokenCount c) []).length < s.keys.quorum →
        ∃ t, exec (row c) s = .next t ∧ Ends s t c.tok 0x0A01 0 [] ∧ t.keys.slots = s.keys.slots))) ∧
  (∀ (s : State) (n : List Byte) (at_ : Nat), s.keys.nonce = some (n, at_) →
    (s.time.clock - at_ > 60000000000 → ∃ t, exec .challengeExpiry s = .next t ∧ Within [.keys] s t ∧ t.keys.nonce = none ∧
      { t.keys with nonce := s.keys.nonce } = s.keys) ∧
    (s.time.clock - at_ ≤ 60000000000 → exec .challengeExpiry s = .next s))

/-- The svc. commands of modes, attestation and firmware (whether an image passes its own start check: log 2; servo settings:
log 50; RETRY of an internal signature: log 44). -/
def Obligations.ServiceCommands : Prop :=
  (∀ (c : Cmd) (s : State),
    (mayApply s c = true → s.sys.mode.good = true →
      (quorumCheck c s = none → ∃ t, exec (.svcEnter c) s = .next t ∧ Ends s t c.tok 0 0 [] ∧ mode t = 4 ∧
        t.sys.epoch = s.sys.epoch + 1 ∧ Within [.sys, .journal, .pke, .keys, .span, .log, .budget, .outbox] s t) ∧
      (∀ st, quorumCheck c s = some st → ∃ t, exec (.svcEnter c) s = .next t ∧ Ends s t c.tok st 0 [] ∧ mode t = mode s)) ∧
    (mayApply s c = true →
      ((cw c 8).toNat = 6 → ∃ t, exec (.svcExit c) s = .next t ∧ Applied [.keys, .fw] s t c ∧ t.keys.bbkek = none ∧
        t.keys.keysOk = false ∧ t.fw.exitSealed = true ∧ ∀ e ∈ t.keys.slots, e.1 < 0x10 ∧ e.1 ≠ 3 ∧ e.1 ≠ 0xD) ∧
      ((cw c 8).toNat ≠ 6 → ∃ t, exec (.svcExit c) s = .next t ∧ Applied [] s t c)) ∧
    (runnable s c = true → signerReady s = true →
      let ev := evidence (attestNonce c) s
      let sig := Config.pkeSign 0x0B identityKey (text "VK9612 attest") (Config.hash 5 ev) (signerRnd c.fn "attest" s).1
      (∀ g, sig = some g →
        let o := ev ++ fit 4627 g ++ (if 8499 + (Config.certificate 0).length ≤ cOutLen c then Config.certificate 0 else [])
        ∃ t, exec (.svcAttest c) s = .next t ∧ Served [.eng, .pke, .rng, .log, .budget] s t c (BitVec.ofNat 32 o.length) o) ∧
      (sig = none → ∃ t, exec (.svcAttest c) s = .next t ∧ Within [.eng, .pke, .rng, .log, .budget, .outbox] s t)) ∧
    (let i := fwImage c
     let banked (t : State) : Prop := i.comp < s.fw.banks.length → lget t.fw.banks i.comp default =
       (if lget s.fw.committed i.comp false then (some i, (lget s.fw.banks i.comp default).2)
        else ((lget s.fw.banks i.comp default).1, some i))
     (fwType c = 1 → runnable s c = true → configTurn s c = true →
       (fwloadCheck c s = none → ∃ t j, exec (.svcFwloadImage c) s = .next t ∧ Within [.journal, .pke, .log, .budget, .fw, .freeCtr] s t ∧
         jent t c.tok = some j ∧ j.started = true ∧ j.outcome = none ∧ t.fw.putty = some (c.tok, i) ∧ banked t ∧
         t.fw.committed = s.fw.committed) ∧
       (∀ st, fwloadCheck c s = some st → ∃ t, exec (.svcFwloadImage c) s = .next t ∧ Ends s t c.tok st 0 [] ∧ t.fw = s.fw)) ∧
     (fwType c < 8 → fwType c ≠ 1 → mayApply s c = true →
       (fwloadCheck c s = none → ∃ t, exec (.svcFwloadImage c) s = .next t ∧ Applied [.pke, .log, .budget, .fw, .freeCtr] s t c ∧ banked t ∧
         (fwType c = 0 → t.fw.shadow = s.fw.shadow ∧ (0 < s.fw.committed.length →
           lget t.fw.committed 0 false = !lget s.fw.committed 0 false)) ∧
         (fwType c ≠ 0 → t.fw.committed = s.fw.committed ∧ (c.tok, i) ∈ t.fw.shadow)) ∧
       (∀ st, fwloadCheck c s = some st → ∃ t, exec (.svcFwloadImage c) s = .next t ∧ Ends s t c.tok st 0 [] ∧ t.fw = s.fw))) ∧
    (fwType c = 0x20 → mayApply s c = true → s.budget.tableInv = Budget.shadowOf s.budget.table →
      (budgetImageOk c.input (cLen c) = true → ∃ t, exec (.svcFwloadBudget c) s = .next t ∧ Applied [.budget] s t c ∧
        t.budget = { s.budget with next := some (parseTable c.input, field c.input 4 2, s.sys.epoch + 1,
          Config.hash 5 (c.input.take 176)) }) ∧
      (budgetImageOk c.input (cLen c) = false → ∃ t, exec (.svcFwloadBudget c) s = .next t ∧ Ends s t c.tok 0x0102 0 [] ∧
        t.budget = s.budget)) ∧
    (fwType c = 0x21 → mayApply s c = true →
      let body := (c.input.take (256 + field c.input 0x10 4)).drop 256
      (trimsCheck c s = none → ∃ t, exec (.svcFwloadTrims c) s = .next t ∧ Applied [.pke, .log, .budget, .fw] s t c ∧ t.fw.trims = body) ∧
      (∀ st, trimsCheck c s = some st → ∃ t, exec (.svcFwloadTrims c) s = .next t ∧ Ends s t c.tok st 0 [] ∧ t.fw = s.fw)) ∧
    (fwType c = 0x22 → mayApply s c = true → ∃ t, exec (.svcFwloadServo c) s = .next t ∧ Applied [.fw, .log] s t c ∧
      t.fw.servo = c.input)) ∧
  (∀ (s : State) (tok : Nat) (i : FwImage) (j : JEntry), s.fw.putty = some (tok, i) → jent s tok = some j → j.outcome = none →
    (atSlotStart s = true → s.hawk.closing = [] → s.deferred = [] → inService s = true → ∃ t, exec .puttySwap s = .next t ∧
      Ends s t tok 0 0 [] ∧ t.sys.epoch = s.sys.epoch + 1 ∧ t.fw.putty = none ∧
      (1 < s.fw.committed.length → lget t.fw.committed 1 false = !lget s.fw.committed 1 false) ∧
      (1 < s.fw.meas.length → lget t.fw.meas 1 [] = fit 64 (Config.hash 5 (fit 64 (lget s.fw.meas 1 []) ++ fit 64 i.meas)))) ∧
    (atSlotStart s = false ∨ s.hawk.closing ≠ [] ∨ s.deferred ≠ [] ∨ inService s = false → exec .puttySwap s = .next s)) ∧
  (∀ (s : State) (comp tok : Nat) (i : FwImage), s.fw.shadow.find? (fun e => e.2.comp == comp) = some (tok, i) → comp < 8 →
    (atSlotStart s = true → inService s = true → ∃ t, exec (.shadowSwitch comp) s = .next t ∧ Within [.fw, .log] s t ∧
      (comp < s.fw.committed.length → lget t.fw.committed comp false = !lget s.fw.committed comp false) ∧
      t.fw.shadow = s.fw.shadow.filter (fun e => e.2.comp != comp) ∧
      (comp < s.fw.meas.length →
        lget t.fw.meas comp [] = fit 64 (Config.hash 5 (fit 64 (lget s.fw.meas comp []) ++ fit 64 i.meas)))) ∧
    (atSlotStart s = false ∨ inService s = false → exec (.shadowSwitch comp) s = .next s))

/-- The tamper controller (a response is one step: log 10; records and conditions: log 47; other JTAG instructions have no
stated effect: R663). -/
def Obligations.TamperRows : Prop :=
  (∀ (c : Cmd) (s : State),
    (mayApply s c = true → s.tamper.bperiod.good = true → (s.tamper.srcs.all (fun x => x.cfg.good)) = true →
      (quorumCheck c s = none → svcTamperCheck c s = none → ∃ t, exec (.svcTamper c) s = .next t ∧
        Applied [.pke, .keys, .tamper, .fw, .log, .budget] s t c ∧
        t.tamper.bperiod = Sh.of (BitVec.ofNat 32 (bits (word32 (opData c) 0) 26 16)) ∧ t.tamper.srcs.length = 18 ∧
        ∀ i, i < 18 → (lget t.tamper.srcs i default).cfg = Sh.of (word32 (opData c) (4 + 4 * i))) ∧
      (quorumCheck c s = none → ∀ st, svcTamperCheck c s = some st → ∃ t, exec (.svcTamper c) s = .next t ∧
        Ends s t c.tok st 0 [] ∧ t.tamper = s.tamper)) ∧
    (runnable s c = true → ∃ t, exec (.svcFlagclear c) s = .next t ∧ Served [.eng, .pke, .sealer, .tamper] s t c 0 [] ∧
      (let mask := cw c 8 &&& 0x7FFFF
       let still := pack ((List.range 18).map (fun i => (b2n (lget s.tamper.srcs i default).cond, i)))
       t.tamper.sticky = (s.tamper.sticky &&& ~~~mask) ||| (still &&& mask)) ∧
      (if bit (cw c 9) 0 then bit t.tamper.lastz 12 = false ∧ bit t.eng.mismatch 18 = false ∧ bit t.pke.mismatch 22 = false ∧
          bit t.sealer.fail 12 = false
        else t.tamper.lastz = s.tamper.lastz ∧ t.eng = s.eng ∧ t.pke = s.pke ∧ t.sealer = s.sealer))) ∧
  (∀ (src engine lane cls owner : Nat) (s : State),
    (s.sys.held = true ∨ 18 ≤ src ∨ (mainMonitor src = true ∧ s.tamper.armed = false) →
      exec (.tamperEvent src engine lane cls owner) s = .next s) ∧
    (s.sys.held = false → src < 18 → src < s.tamper.srcs.length → src ≠ 14 →
      (mainMonitor src = true → s.tamper.armed = true) →
      let es := windowEvents s src (tmpW s src * 1000000)
      let r := respRun s src
      (es.length < max 1 (tmpN s src) → ∃ t, exec (.tamperEvent src engine lane cls owner) s = .next t ∧
        Within [.tamper] s t ∧ (lget t.tamper.srcs src default).events = es) ∧
      (max 1 (tmpN s src) ≤ es.length → ∃ t, exec (.tamperEvent src engine lane cls owner) s = .next t ∧
        (r ≠ 1 → t.tamper.sticky.getLsbD src = true ∧
          (lget t.tamper.srcs src default).alarms = (lget s.tamper.srcs src default).alarms + 1) ∧
        (r = 0 ∨ r = 4 → mode t = mode s ∧ t.keys = s.keys ∧ t.journal = s.journal) ∧
        (r = 2 → mode t = 5) ∧
        (r = 3 → t.keys.bbkek = none ∧ mode t = (if t.tamper.steps ≥ 64 then 7 else 6) ∧
          t.tamper.steps = (if s.keys.bbkek.isSome ∧ s.tamper.vauxOk then min 64 (s.tamper.steps + 1) else s.tamper.steps)) ∧
        (r = 5 → t.keys.bbkek = none ∧ mode t = mode s) ∧
        (r = 1 → (recentResets s).length < 3 → ∃ u, t = resetDevice u ∧ Within [.tamper, .log, .outbox] s u ∧
          u.tamper.resets = recentResets s ++ [s.time.clock]) ∧
        (r = 1 → 3 ≤ (recentResets s).length → (mode s ≠ 6 ∨ s.sys.startup = true) → mode t = 5)))) ∧
  (∀ (engine lane cls owner : Nat) (s : State), s.sys.held = false → s.tamper.armed = true → respRun s 14 ≠ 1 →
    (1 ≤ engine ∧ engine ≤ 3 → ∃ t, exec (.tamperEvent 14 engine lane cls owner) s = .next t ∧ t.eng.stopped = true ∧
      t.eng.mismatch = pack [(engine, 0), (lane % 32, 2), (cls % 16, 7), (owner % 128, 11), (1, 18)]) ∧
    (engine = 4 ∨ engine = 5 → ∃ t, exec (.tamperEvent 14 engine lane cls owner) s = .next t ∧ t.pke.stopped = true ∧
      t.pke.mismatch = pack [(lane % 4, 0), ((lget s.pke.units (lane % 4) default).alg % 256, 2), (cls % 16, 10),
        (owner % 128, 14), (b2n (engine == 5), 21), (1, 22)])) ∧
  (∀ (net : Nat) (sent got : W32) (short : Bool) (s : State), net < 6 → net < s.tamper.srcs.length → s.sys.held = false →
    s.tamper.backup = false →
    (short = false → sent = got → ∃ t, exec (.scrimCheck net sent got short) s = .next t ∧ Within [.tamper] s t ∧
      (lget t.tamper.srcs net default).cond = false ∧ t.tamper.sticky = s.tamper.sticky) ∧
    (short = true ∨ sent ≠ got → (windowEvents s net (tmpW s net * 1000000)).length < max 1 (tmpN s net) →
      ∃ t, exec (.scrimCheck net sent got short) s = .next t ∧ Within [.tamper] s t ∧
        (lget t.tamper.srcs net default).cond = true ∧
        (lget t.tamper.srcs net default).events = windowEvents s net (tmpW s net * 1000000)) ∧
    (short = true ∨ sent ≠ got → max 1 (tmpN s net) ≤ (windowEvents s net (tmpW s net * 1000000)).length →
      ∃ t, exec (.scrimCheck net sent got short) s = .next t ∧ (respRun s net = 2 → mode t = 5) ∧
        (respRun s net = 3 → t.keys.bbkek = none))) ∧
  (∀ (ev : BitVec 18) (s : State),
    (s.tamper.backup = false → exec (.backupSample ev) s = .next s) ∧
    (s.tamper.backup = true → ∃ t, exec (.backupSample ev) s = .next t ∧ Within [.keys, .tamper] s t ∧
      (∀ i, i < 18 → i < s.tamper.srcs.length → backupSampled i = true → (lget t.tamper.srcs i default).cond = ev.getLsbD i) ∧
      (∀ i, i < 18 → backupSampled i = true → ev.getLsbD i = true →
        max 1 (tmpN s i) ≤ (windowEvents s i (max (tmpW s i) (tmpN s i * s.tamper.bperiod.val.toNat) * 1000000)).length →
        t.tamper.sticky.getLsbD i = true ∧ i ∈ t.tamper.recorded ∧ (tmpResp s i = 3 → t.keys.bbkek = none)) ∧
      (ev = 0 → t.keys = s.keys ∧ t.tamper.sticky = s.tamper.sticky))) ∧
  (∀ s : State,
    (∀ row ∈ [Instr.porstNAssert, Instr.railUndervoltage],
      (s.sys.held = true → exec row s = .next s) ∧
      (s.sys.held = false → ∃ t, exec row s = .next t ∧ t.sys.held = true ∧ t.tamper.backup = true ∧ t.tamper.armed = false ∧
        t.keys.bbkek = s.keys.bbkek ∧ t.keys.slots = s.keys.slots ∧ mode t = mode s)) ∧
    exec .vauxLow s = .next { s with tamper := { s.tamper with vauxOk := false, backup := true, onVbat := true } } ∧
    exec .vauxWithinLimits s = .next { s with tamper := { s.tamper with vauxOk := true, onVbat := false, backup := s.sys.held } } ∧
    (∀ op, mode s ≠ 0 → exec (.jtagAccess op) s = .next s) ∧
    (mode s = 0 → ∃ t, exec (.jtagAccess .blowFactoryDone) s = .next t ∧ Within [.fw, .log] s t ∧ t.fw.factoryDone = true) ∧
    (mode s = 0 → exec (.jtagAccess .other) s = .refused .jtagInstruction))

/-- Memory and volume (metadata and what storage returns: log 46; frames: log 90; layout of vol.attach: R535; diag. codes and results:
log 55; words 8 and 9 of diag.inject: log 32). -/
def Obligations.MemoryAndVolume : Prop :=
  (∀ (rid lbn : Nat) (r : SectorRead) (s : State), sealerRuns s rid lbn = true → rid < s.sealer.regs.length →
    let g := regOf s rid
    let x := sectorOf s rid lbn
    (∀ p, lineCheck s rid lbn r = none → x.gen < 0xFFFFFFFF → ∃ t, exec (.sealerAccess rid lbn (.writeWhole p) r) s = .next t ∧
      Within [.sealer, .log, .outbox] s t ∧
      (let ct := sealCipher s rid g.kepoch lbn (fit 512 p)
       let tag := sectorTag s rid g.kepoch lbn (x.gen + 1) ct
       sectorOf t rid lbn = { gen := x.gen + 1, tag := tag, ebit := g.kepoch % 2 == 1 } ∧
       .hbm rid lbn (sectorBeats s rid lbn ct) tag (x.gen + 1) ∈ t.outbox) ∧
      ∀ k, k ≠ lbn → sectorOf t rid k = sectorOf s rid k) ∧
    (∀ p, lineCheck s rid lbn r = none → x.gen = 0xFFFFFFFF → g.walk = none → ∃ t, exec (.sealerAccess rid lbn (.writeWhole p) r) s = .next t ∧
      (regOf t rid).kepoch = g.kepoch + 1 ∧ (regOf t rid).walk = some 0 ∧ (sectorOf t rid lbn).gen = 1) ∧
    (sealCheck s rid lbn r = none → ∃ t, exec (.sealerAccess rid lbn .read r) s = .next t ∧ Within [.sealer, .log, .outbox] s t ∧
      .sector rid lbn (if x.gen = 0 then List.replicate 512 0 else sealPlain s rid (sectorEpoch s rid lbn) lbn (cipherRead s rid lbn r)) ∈ t.outbox ∧
      ∀ k, sectorOf t rid k = sectorOf s rid k) ∧
    (∀ off p, sealCheck s rid lbn r = none → x.gen < 0xFFFFFFFF → ∃ t,
      exec (.sealerAccess rid lbn (.writePart off p) r) s = .next t ∧ Within [.sealer, .log, .outbox] s t ∧
      (let old := sealRead s rid lbn r
       let ct := sealCipher s rid g.kepoch lbn (fit 512 (old.take off ++ p ++ old.drop (off + p.length)))
       sectorOf t rid lbn = { gen := x.gen + 1, tag := sectorTag s rid g.kepoch lbn (x.gen + 1) ct, ebit := g.kepoch % 2 == 1 })) ∧
    (∀ k op, (op = .read ∨ ∃ off p, op = .writePart off p) ∧ sealCheck s rid lbn r = some k ∨
        (∃ p, op = .writeWhole p) ∧ lineCheck s rid lbn r = some k → ∃ t,
      exec (.sealerAccess rid lbn op r) s = .next t ∧ mode t = 5 ∧ t.sealer.failLbn = lbn ∧
      t.sealer.fail = pack [(k, 0), (rid, 4), (pcOf s rid lbn, 8), (1, 12)])) ∧
  (∀ (rid lbn : Nat) (op : SealOp) (r : SectorRead) (s : State), sealerRuns s rid lbn = false →
    exec (.sealerAccess rid lbn op r) s = .next s) ∧
  (∀ (rid pos : Nat) (s : State), isStopped s = false → s.sealer.hbmOk = true → rid < 10 → rid < s.sealer.regs.length →
    (regOf s rid).walk = some pos →
    (∀ lbn, walkNext (regOf s rid) pos = some lbn → ∃ t, exec (.rekeyWalk rid) s = .next t ∧
      (regOf t rid).walk = some (lbn + 1) ∧ (sectorOf t rid lbn).gen = 1 ∧
      (sectorOf t rid lbn).ebit = ((regOf s rid).kepoch % 2 == 1) ∧ ∀ k, k ≠ lbn → sectorOf t rid k = sectorOf s rid k) ∧
    (walkNext (regOf s rid) pos = none → ∃ t, exec (.rekeyWalk rid) s = .next t ∧ (regOf t rid).walk = none)) ∧
  (∀ (rid : Nat) (s : State), isStopped s = false → s.sealer.hbmOk = true → 10 ≤ rid → s.sealer.vol.walk.isSome = true →
    s.sealer.vol.gib ≠ 0 → s.sealer.vol.recover = false → (s.sealer.vol.jobs.any (fun j => j.kind == 2)) = false →
    s.sealer.vol.dir.find? (fun r => r.vepoch != s.sealer.vol.vepoch) = none →
    ∃ t, exec (.rekeyWalk rid) s = .next t ∧ t.sealer.vol.walk = none ∧ t.sealer.vol.oldKey = none) ∧
  (∀ (pc row : Nat) (s : State), pc < 16 → s.sealer.hbmOk = true → isStopped s = false → s.sealer.inserv.toNat / 2 ^ pc % 2 = 1 →
    (repairDue s pc row = false → ∀ b, exec (.rowRepair ⟨pc, row⟩ b) s = .next s) ∧
    (repairDue s pc row = true → (s.sealer.ppcAt.all (fun t => decide (s.time.clock - t ≥ 10000000))) = true → ∃ t, exec (.rowRepair ⟨pc, row⟩ true) s = .next t ∧
      Within [.sealer, .log, .outbox] s t ∧ t.sealer.repairs = s.sealer.repairs ++ [rowKey pc row] ∧ repairDue t pc row = false ∧ t.sealer.ppcAt = some s.time.clock ∧
      t.sealer.retired = s.sealer.retired) ∧
    ((s.sealer.ppcAt.all (fun t => decide (s.time.clock - t ≥ 10000000))) = false → exec (.rowRepair ⟨pc, row⟩ true) s = .next s) ∧
    (repairDue s pc row = true → s.sealer.retired = none → ∃ t, exec (.rowRepair ⟨pc, row⟩ false) s = .next t ∧ t.sealer.retired = some pc ∧
      t.sealer.inserv = s.sealer.inserv &&& ~~~(BitVec.ofNat 16 (2 ^ pc)) ∧ mode t = mode s) ∧
    (repairDue s pc row = true → s.sealer.retired.isSome = true → ∃ t, exec (.rowRepair ⟨pc, row⟩ false) s = .next t ∧ mode t = 5)) ∧
  (∀ (c : Cmd) (s : State),
    (mayApply s c = true → ∃ t, exec (.volAttach c) s = .next t ∧ Applied [.hawk, .sealer, .log, .budget] s t c ∧
      t.sealer.vol.gib = bits (cw c 8) 9 0 ∧ t.sealer.vol.ringM = bits (cw c 8) 19 16 ∧ t.sealer.vol.ringAddr = cw64 c 10 ∧
      t.sealer.vol.stageMib = bits (cw c 8) 30 24 ∧ t.sealer.vol.stageAddr = cw64 c 12 ∧ t.sealer.vol.dir = [] ∧
      t.sealer.vol.tags = [] ∧ t.sealer.vol.recover = bit (cw c 14) 0 ∧ t.sealer.vol.tepoch = s.sealer.vol.tepoch + 1 ∧
      (bit (cw c 14) 0 = false → t.sealer.vol.reqs = [] ∧ t.sealer.vol.jobs = [])) ∧
    (∀ q, runnable s c = true → volIoCheck c s = none → volIoReq c s = some q →
      (bit (cw c 9) 0 = true → q.op = 1 → ∃ t, exec (.volIo c) s = .next t ∧ Ends s t c.tok 0 0 [] ∧
        { q with failed := true, at_ := s.time.clock } ∈ t.sealer.vol.reqs) ∧
      (bit (cw c 9) 0 = false → s.sealer.vol.jobs = [] → ∃ t, exec (.volIo c) s = .next t ∧ Ends s t c.tok 0 0 [] ∧
        t.sealer.vol.reqs = s.sealer.vol.reqs.filter (fun r => r != q)) ∧
      (∀ r, bit (cw c 9) 0 = false → q.kind = 0 → volRecOf s q.recNum = some r →
        (s.sealer.vol.jobs.any (fun j => j.kind == q.kind && j.recNum == q.recNum && j.tok == q.tok)) = true →
        ∃ t, exec (.volIo c) s = .next t ∧ Ends s t c.tok 0 0 [] ∧ ∀ k, k < q.nsec →
          let lba := r.lba + (q.lba - r.lba) + k
          (mgetD s.sealer.vol.tags lba ([], 0)).2 < 0xFFFFFFFF →
            (mgetD t.sealer.vol.tags lba ([], 0)).2 = (mgetD s.sealer.vol.tags lba ([], 0)).2 + 1)) ∧
    (∀ st, runnable s c = true → volIoCheck c s = some st → ∃ t, exec (.volIo c) s = .next t ∧ Ends s t c.tok st 0 []) ∧
    (runnable s c = true → volReadCheck c s = none → ∃ t j, exec (.volRead c) s = .next t ∧
      Within [.journal, .sealer, .span, .log, .budget, .outbox] s t ∧ jent t c.tok = some j ∧ j.started = true ∧ j.outcome = none ∧
      ∃ x ∈ t.sealer.vol.jobs, x.kind = 1 ∧ x.recNum = cw64 c 8 ∧ x.tok = c.tok) ∧
    (∀ st, runnable s c = true → volReadCheck c s = some st → ∃ t, exec (.volRead c) s = .next t ∧ Ends s t c.tok st 0 []) ∧
    (mayApply s c = true → quorumCheck c s = none → volRekeyCheck c s = none → drawReady s 70 = true → ∃ t x,
      exec (.volRekey c) s = .next t ∧ Applied [.eng, .pke, .rng, .keys, .sealer, .log, .budget] s t c ∧ mget t.keys.slots 0xD = some x ∧
      x.ktype = 4 ∧ x.klen = 64 ∧ t.sealer.vol.oldKey = some (slotKey s 0xD) ∧
      t.sealer.vol.vepoch = s.sealer.vol.vepoch + 1 ∧ t.sealer.vol.walk = some 0) ∧
    (runnable s c = true → ∀ row ∈ [Instr.diagKat, Instr.diagSelftest], ∃ t w, exec (row c) s = .next t ∧
      Within [.journal, .log, .budget, .freeCtr, .outbox] s t ∧ WorkStaged s t c.tok 0 w []) ∧
    (runnable s c = true → ∃ t, exec (.diagInject c) s = .next t ∧ Served [.injected] s t c 0 [] ∧
      (bits (cw c 8) 31 24 + 256 * bits (cw c 9) 0 0, bits (cw c 8) 23 0) ∈ t.injected ∧ ∀ e ∈ s.injected, e ∈ t.injected)) ∧
  (∀ (idx : Nat) (s : State),
    ((outstanding s).any (fun r => r.idx == idx && decide (s.time.clock - r.at_ > 1000000000)) = true →
      ∃ t, exec (.volStall idx) s = .next t ∧ Within [.sealer] s t ∧ t.sealer.vol.stall = true ∧ t.sealer.vol.reqs = s.sealer.vol.reqs) ∧
    ((outstanding s).any (fun r => r.idx == idx && decide (s.time.clock - r.at_ > 1000000000)) = false →
      exec (.volStall idx) s = .next s) ∧
    (∀ q r, s.sealer.vol.reqs.find? (fun r => r.failed && r.idx == idx) = some q → volRecOf s q.recNum = some r →
      (s.time.clock - q.at_ < 1000000000 → exec (.volWriteRepost idx) s = .next s) ∧
      (s.time.clock - q.at_ ≥ 1000000000 → s.sys.gateway = true →
        canPost (updVol (fun v => { v with reqs := v.reqs.filter (fun r => r != q) }) s) = true →
        ∃ t buf, exec (.volWriteRepost idx) s = .next t ∧ Within [.sealer, .log, .budget, .outbox] s t ∧
          t.sealer.vol.posted = s.sealer.vol.posted + 1 ∧
          t.sealer.vol.reqs = s.sealer.vol.reqs.filter (fun r => r != q) ++
            [{ idx := s.sealer.vol.posted % 2 ^ s.sealer.vol.ringM, op := 1, nsec := q.nsec, lba := q.lba, buf := buf
               kind := q.kind, recNum := q.recNum, tok := q.tok, at_ := s.time.clock, failed := false }])))

/-- Roles of a pair (layout of pair.cfg: log 51; the copy and what is own matter: log 52). -/
def Obligations.PairRoles : Prop :=
  (∀ (c : Cmd) (s : State),
    (mayApply s c = true → pairCfgCheck c s = none → ∃ t, exec (.pairCfg c) s = .next t ∧ Applied [.pair] s t c ∧
      t.pair = { s.pair with
        paired := true, pairId := (cw c 8).toNat, partner := bits (cw c 9) 5 0, link := bits (cw c 9) 9 8
        silence := bits (cw c 9) 22 16, signSlot := bits (cw c 10) 13 0, verSlot := bits (cw c 10) 29 16
        hbAddr := cw64 c 12 % 2 ^ 48, hbTag := bits (cw c 13) 31 16 }) ∧
    (∀ st, mayApply s c = true → pairCfgCheck c s = some st → ∃ t, exec (.pairCfg c) s = .next t ∧ Ends s t c.tok st 0 [] ∧
      t.pair = s.pair) ∧
    (runnable s c = true →
      let o := (fit 256 s.pair.partnerRep ++ fit 256 s.pair.ownRep).take (cOutLen c)
      ∃ t, exec (.pairStatus c) s = .next t ∧ Served [] s t c (if o.length < cOutLen c then BitVec.ofNat 32 o.length else 0) o) ∧
    (runnable s c = true → configTurn s c = true →
      (pairHandoverCheck c s = none → ∃ t j, exec (.pairHandover c) s = .next t ∧ Within [.journal, .pair] s t ∧
        jent t c.tok = some j ∧ j.started = true ∧ j.outcome = none ∧
        t.pair = { s.pair with handover := some (c.tok, s.time.clock) }) ∧
      (∀ st, pairHandoverCheck c s = some st → ∃ t, exec (.pairHandover c) s = .next t ∧ Ends s t c.tok st 0 [] ∧ t.pair = s.pair)) ∧
    (mayApply s c = true → quorumCheck c s = none → pairRenumberCheck c s = none → ∃ t, exec (.pairRenumber c) s = .next t ∧
      Applied [.pke, .keys, .pair, .log, .budget] s t c ∧ t.pair = { s.pair with gen := 1, genExh := false })) ∧
  (∀ (announced : Bool) (s : State),
    let due := pairStandby s = true ∧ s.pair.synced = true ∧
      (if announced then s.pair.announced = true else silent s s.pair.hbSpanAt = true ∧ silent s s.pair.hbBpAt = true)
    (due → s.pair.gen < 0xFFFFFFFF → ∃ t, exec (.takeover announced) s = .next t ∧
      Within [.sys, .fns, .journal, .ports, .bpcfg, .skim, .hawk, .publ, .eng, .pair, .span, .log, .budget, .outbox] s t ∧
      t.pair.standby = false ∧ t.pair.gen = s.pair.gen + 1 ∧ t.pair.synced = false ∧ t.pair.mjournal = [] ∧
      mode t = (if mode s = 3 then 2 else mode s)) ∧
    (due → s.pair.gen = 0xFFFFFFFF → ∃ t, exec (.takeover announced) s = .next t ∧ Within [.pair, .log] s t ∧
      t.pair.standby = s.pair.standby ∧ t.pair.genExh = true) ∧
    (¬ due → exec (.takeover announced) s = .next s)) ∧
  (∀ s : State,
    let suspect := pairStandby s = true ∧ s.pair.pathSuspect = false ∧ silent s s.pair.hbSpanAt ≠ silent s s.pair.hbBpAt
    let lost := pairActive s = true ∧ s.pair.partnerLost = false ∧ s.pair.heardAt.any (fun t => slotsPast s t s.pair.silence) = true
    (suspect → ∃ t, exec .pathSuspect s = .next t ∧ Within [.pair, .log] s t ∧ t.pair.pathSuspect = true) ∧
    (¬ suspect → exec .pathSuspect s = .next s) ∧
    (lost → ∃ t, exec .partnerLost s = .next t ∧ t.pair.partnerLost = true ∧ t.pair.synced = false ∧ t.pair.unacked = [] ∧
      t.hawk.held = [] ∧ ∀ k j, jent t k = some j → j.admAck = true ∧ j.outAck = true) ∧
    (¬ lost → exec .partnerLost s = .next s) ∧
    (∀ tok at_ j, pairActive s = true → s.pair.handover = some (tok, at_) → jent s tok = some j → j.outcome = none →
      (atSlotStart s = true → (∀ k ∈ openTokens s, k = tok) → ∃ t, exec .handoverSwitch s = .next t ∧
        Answered t tok 0 0 [] ∧ t.sys.epoch = s.sys.epoch + 1 ∧ t.pair.standby = true ∧ t.pair.synced = true ∧
        t.pair.handover = none ∧ mode t = (if mode s = 2 then 3 else mode s)) ∧
      (atSlotStart s = false → exec .handoverSwitch s = .next s)) ∧
    (pairStandby s = true → s.pair.synced = true → atSlotStart s = true → s.pair.gen < 0xFFFFFFFF →
      (s.pair.mjournal.any (fun e => Cmd.opc e.2.cmd == 0xB003 && e.2.outcome.isNone)) = true →
      ∃ t, exec .handoverSwitch s = .next t ∧ t.pair.standby = false ∧ t.pair.synced = true ∧ t.pair.gen = s.pair.gen + 1 ∧
        mode t = (if mode s = 3 then 2 else mode s)) ∧
    (let due := pairActive s = true ∧ (lget s.span.links s.pair.link default).st = 3 ∧
       s.pair.hbTxAt.all (fun t => decide (s.time.clock - t ≥ 10000)) = true
     (due → exec .pairHeartbeatTx s = .next { s with
       pair := { s.pair with hbTxAt := some s.time.clock }
       outbox := s.outbox ++ [.pair (.heartbeat { heartbeatOf s 0 0 0 with tag := [] })] }) ∧
     (¬ due → exec .pairHeartbeatTx s = .next s)) ∧
    (let due := s.pair.paired = true ∧ inService s = true ∧
       s.pair.reportAt.all (fun t => decide (s.time.clock - t ≥ 1000000000)) = true
     (due → ∃ t, exec .healthReport s = .next t ∧ Within [.pair, .log, .outbox] s t ∧ t.pair.reportSeq = s.pair.reportSeq + 1 ∧
       t.pair.reportAt = some s.time.clock ∧ t.pair.fit = fitNow s ∧ t.pair.ownRep = healthOctets (refit s) ∧
       (s.pair.standby = true → .pair (.health t.pair.ownRep) ∈ t.outbox)) ∧
     (¬ due → exec .healthReport s = .next s))) ∧
  (∀ (e k r proto : Nat) (s : State),
    let due := (pairStandby s = true ∧ s.pair.synced = false ∧ 64 ≤ s.pair.fixRun) ∨ (pairActive s = true ∧ s.pair.synced = false)
    (due → ∃ t, exec (.resyncComplete e k r proto) s = .next t ∧ Within [.sys, .hawk, .pair, .log, .outbox] s t ∧
      t.sys.epoch = max s.sys.epoch e + 1 ∧ t.sys.token = max s.sys.token k + 1 ∧ t.hawk.recNum = max s.hawk.recNum r + 1 ∧
      t.sys.epoch < t.sys.epochTop ∧ t.sys.token < t.sys.tokenTop ∧ t.hawk.recNum < t.hawk.recTop ∧
      t.pair.synced = true ∧ t.pair.partnerLost = false ∧ t.pair.partnerProto = proto ∧
      (pairActive s = true → .pair (.mirror (.epoch t.sys.epoch)) ∈ t.outbox ∧ ∀ f i, f < 65 → i < 5 → (ringOf s f i).active = true →
        .pair (.mirror (.ring f i (ringOf s f i).prod (ringOf s f i).lastSlot)) ∈ t.outbox)) ∧
    (¬ due → exec (.resyncComplete e k r proto) s = .next s)) ∧
  (∀ (sub run fail cover code : Nat) (s : State),
    (pairStandby s = true → sub < 16 → sub < s.pair.subs.length → ∃ t,
      exec (.standbySelfTest sub run fail cover code) s = .next t ∧ Within [.pair, .log, .budget] s t ∧
      (let x := lget s.pair.subs sub (0, 0, 0, 0)
       lget t.pair.subs sub (0, 0, 0, 0) =
         (x.1 + run, x.2.1 + fail, min 100 cover, if fail > 0 then code % 256 else x.2.2.2)) ∧
      (fail > 0 → partialSub s sub = false → t.pair.failAt = some s.time.clock ∧ t.pair.fit = false) ∧
      (fail = 0 ∨ partialSub s sub = true → t.pair.failAt = s.pair.failAt)) ∧
    (pairStandby s = false ∨ 16 ≤ sub → exec (.standbySelfTest sub run fail cover code) s = .next s))

/-- The exchange of a pair (log 52). -/
def Obligations.PairExchange : Prop :=
  (∀ (tok : Nat) (s : State),
    (pairActive s = true → ∃ t, exec (.mirrorAck tok) s = .next t ∧
      Within [.journal, .ports, .bpcfg, .skim, .trowel, .publ, .pair, .span, .outbox] s t ∧
      t.pair.mirroredTok = max s.pair.mirroredTok tok ∧ t.pair.heardAt = some s.time.clock ∧
      (let marks : Prop := ∃ j, jent s tok = some j ∧ j.admAck = false ∧ Cmd.opc j.cmd = 0x0F01
       (∀ j, jent s tok = some j → j.admAck = false → ∃ x, jent t tok = some x ∧ x.admAck = true ∧ x.cmd = j.cmd ∧
         x.outcome = j.outcome ∧ (¬ marks → x = { j with admAck := true })) ∧
       (¬ marks → ∀ k, k ≠ tok → jent t k = jent s k)) ∧
      ∀ j, jent s tok = some j → j.admAck = true → j.outcome.isSome = true → jent t tok = some { j with outAck := true }) ∧
    (pairActive s = false → exec (.mirrorAck tok) s = .next s)) ∧
  (∀ (c : Cmd) (s : State),
    (pairActive s = true → (fnOf s c.fn).unread = true → ∃ t, exec (.standbyAdmission c) s = .next t ∧
      Within [.pair, .outbox] s t ∧ .pair (.mirror (.denied c 0x0203)) ∈ t.outbox ∧ t.pair.mjournal = s.pair.mjournal) ∧
    (pairActive s = true → (fnOf s c.fn).unread = false → s.pair.handover = none → s.pair.partnerLost = false →
      ∃ t e, exec (.standbyAdmission c) s = .next t ∧ Within [.sys, .pair, .outbox] s t ∧ t.sys.token = s.sys.token + 1 ∧
        .pair (.mirror (.granted { c with tok := s.sys.token + 1 })) ∈ t.outbox ∧
        mget t.pair.mjournal (s.sys.token + 1) = some e ∧ e.cmd = { c with tok := s.sys.token + 1 } ∧ e.remote = true) ∧
    (pairActive s = false → exec (.standbyAdmission c) s = .next s)) ∧
  (∀ (b part slot : Nat) (s : State),
    (∀ digest rows, pairStandby s = true → fixedRows s b part slot = some rows →
      (rowsDigest rows = digest → ∃ t, exec (.fixRecord b part slot digest) s = .next t ∧ Within [.pair, .outbox] s t ∧
        t.outbox = s.outbox ++ [.pair (.fixAck b part slot)] ∧ t.pair.fixLast = some slot) ∧
      (rowsDigest rows ≠ digest →
        exec (.fixRecord b part slot digest) s = .next { s with outbox := s.outbox ++ [.pair (.wantRows b part slot)] })) ∧
    (∀ digest, pairStandby s = false ∨ fixedRows s b part slot = none → exec (.fixRecord b part slot digest) s = .next s) ∧
    (∀ rows, pairStandby s = true → ∃ t, exec (.rowsAdopt b part slot rows) s = .next t ∧
      Within [.hawk, .trowel, .pair, .log, .budget, .outbox] s t ∧ fixedRows t b part slot = some rows ∧
      .pair (.fixAck b part slot) ∈ t.outbox ∧ t.pair.fixLast = some slot) ∧
    (∀ rows, pairStandby s = false → exec (.rowsAdopt b part slot rows) s = .next s) ∧
    (pairActive s = true → ∃ t, exec (.fixRecordAck b part slot) s = .next t ∧
      t.pair.unacked = s.pair.unacked.filter (fun u => u != (b, part, slot)) ∧ t.journal = s.journal) ∧
    (pairActive s = false → exec (.fixRecordAck b part slot) s = .next s) ∧
    (pairStandby s = true → ∃ t, exec (.slotConfirm slot) s = .next t ∧ Within [.hawk, .pair, .log] s t ∧
      t.hawk.held = s.hawk.held.filter (fun h => h.slot != slot) ∧ t.pair.heldOver = false) ∧
    (pairStandby s = false → exec (.slotConfirm slot) s = .next s)) ∧
  (∀ s : State,
    (∀ m, pairStandby s = false → exec (.mirrorEntry m) s = .next s) ∧
    (pairStandby s = true →
      (∀ c e, closingFor c s = false → s.pair.mcfg = [] → ∃ t, exec (.mirrorEntry (.config c e)) s = .next t ∧
        e ≤ t.sys.epoch ∧ s.sys.epoch ≤ t.sys.epoch ∧
        (Cmd.opc c ≠ 0x3005 → t.journal = s.journal) ∧ (Cmd.opc c ∈ ownMatters → Within [.sys] s t) ∧
        (Cmd.opc c = 0x2001 → t.hawk.depth = (cw c 8).toNat) ∧
        (Cmd.opc c = 0xB004 → t.pair.gen = 1 ∧ t.pair.genExh = false)) ∧
      (∀ c e, closingFor c s = true ∨ s.pair.mcfg ≠ [] → exec (.mirrorEntry (.config c e)) s =
        .next { s with pair := { s.pair with mcfg := s.pair.mcfg ++ [(c, e)] } }) ∧
      (∀ e, ∃ t, exec (.mirrorEntry (.epoch e)) s = .next t ∧ Within [.sys] s t ∧ t.sys.epoch = max s.sys.epoch e ∧
        e < t.sys.epochTop) ∧
      (∀ c, ∃ t e, exec (.mirrorEntry (.admission c)) s = .next t ∧ Within [.sys, .pair, .outbox] s t ∧
        t.outbox = s.outbox ++ [.pair (.ack c.tok)] ∧ t.sys.token = max s.sys.token c.tok ∧
        mget t.pair.mjournal c.tok = some e ∧ e.cmd = c ∧ e.outcome = none) ∧
      (∀ tok st res e j, mget s.pair.mjournal tok = some j → ∃ t, exec (.mirrorEntry (.outcome tok st res e)) s = .next t ∧
        Within [.pair, .outbox] s t ∧ t.outbox = s.outbox ++ [.pair (.ack tok)] ∧
        mget t.pair.mjournal tok = some { j with outcome := some { status := st, result := res, epoch := e, dev := s.pair.partner } }) ∧
      (∀ k h w x, ctxOf s k = some x → ∃ t y, exec (.mirrorEntry (.svDelta k h w)) s = .next t ∧ Within [.skim] s t ∧
        ctxOf t k = some y ∧ y.sv.wvalid = true ∧ h ≤ y.sv.highx ∧ (x.sv.wvalid = true → x.sv.highx ≤ y.sv.highx)) ∧
      (∀ k st sq o x, ctxOf s k = some x → ∃ t y, exec (.mirrorEntry (.gooseDelta k st sq o false)) s = .next t ∧
        Within [.skim] s t ∧ ctxOf t k = some y ∧ y.gs.gvalid = false) ∧
      (∀ k sq nx pos sp last x, ctxOf s k = some x → ∃ t y,
        exec (.mirrorEntry (.pubDelta k sq nx pos sp last)) s = .next t ∧ Within [.skim] s t ∧ ctxOf t k = some y ∧
        y.pub = { x.pub with sqNum := sq, nextTx := nx, txFrom := nextFire s x.bp, stepPos := pos, spdu := sp, lastSlot := last }) ∧
      (∀ k st sq o x, ctxOf s k = some x → ∃ t y, exec (.mirrorEntry (.gooseDelta k st sq o true)) s = .next t ∧ Within [.skim] s t ∧
        ctxOf t k = some y ∧ (x.gs.gvalid = false → y.gs.gvalid = true ∧ y.gs.stNum = st ∧ y.gs.sqNum = sq)) ∧
      (∀ f r prod last, f < s.fns.length → r < (fnOf s f).rings.length → ∃ t,
        exec (.mirrorEntry (.ring f r prod last)) s = .next t ∧ Within [.fns] s t ∧
        ringOf t f r = { ringOf s f r with prod := prod, lastSlot := last, first := false }) ∧
      (∀ f r o, f < s.fns.length → r < (fnOf s f).rings.length → ∃ t, exec (.mirrorEntry (.salt f r o)) s = .next t ∧
        Within [.fns] s t ∧ ringOf t f r = { ringOf s f r with salt := o }) ∧
      (∀ n, ∃ t, exec (.mirrorEntry (.recnum n)) s = .next t ∧ Within [.hawk] s t ∧ t.hawk.recNum = max s.hawk.recNum n ∧
        n < t.hawk.recTop) ∧
      (∀ p slot msg tok g, progOf s p = some g → ∃ t, exec (.mirrorEntry (.mailbox p slot msg tok)) s = .next t ∧
        Within [.trowel] s t ∧ progOf t p = some { g with inMsg := some (msg, slot, tok) }) ∧
      (∀ p o g, progOf s p = some g → ∃ t, exec (.mirrorEntry (.trowelData p o)) s = .next t ∧ Within [.trowel] s t ∧
        progOf t p = some { g with data := memWrN [] 0 o }) ∧
      (∀ tok, ∃ t, exec (.mirrorEntry (.released tok)) s = .next t ∧ Within [.pair] s t ∧
        t.pair.mjournal = mdel s.pair.mjournal tok) ∧
      (∀ c, { c with tok := 0 } ∈ s.pair.asked → cDev c = devnum s → fromBootstrap c s = false → ∃ t j,
        exec (.mirrorEntry (.granted c)) s = .next t ∧ t.sys.token = max s.sys.token c.tok ∧ jent t c.tok = some j ∧ j.cmd = c ∧
        { c with tok := 0 } ∉ t.pair.asked) ∧
      (∀ c, { c with tok := 0 } ∉ s.pair.asked → exec (.mirrorEntry (.granted c)) s = .next s) ∧
      (∀ c st, c ∈ s.pair.asked → (queueOf s c.fn c.qp).st ≠ 0 → c.fn < s.fns.length →
        c.qp < (fnOf s c.fn).queues.length → ∃ t, exec (.mirrorEntry (.denied c st)) s = .next t ∧
          Within [.fns, .pair] s t ∧ .refused (cTag c) st (cNoirq c) (devnum s) ∈ (queueOf t c.fn c.qp).waiting) ∧
      (∀ k st o arg host tok x, ctxOf s k = some x → ∃ t y,
        exec (.mirrorEntry (.pubState k st o arg host none tok)) s = .next t ∧ Within [.skim, .outbox] s t ∧
        ctxOf t k = some y ∧ y.pub.stNum = st ∧ y.pub.sqNum = 0 ∧ y.pub.svalid = true)))

/-- The span. commands and remote commands (layouts and details: log 53). -/
def Obligations.SpanCommands : Prop :=
  (∀ (c : Cmd) (s : State),
    (mayApply s c = true → spanCfgCheck c s = none →
      (c.input = devId → ∃ t, exec (.spanCfg c) s = .next t ∧ Ends s t c.tok 0 0 [] ∧ t.sys.epoch = s.sys.epoch + 1 ∧
        Within [.sys, .journal, .span, .outbox] s t ∧ t.sys.devnum = some (cw c 8).toNat ∧
        (t.span.topo, t.span.ringN, t.span.x, t.span.y) = scTopo c ∧ ∀ l, l < 4 → (linkOf t l).keySlot = scSlot c l) ∧
      (c.input ≠ devId → ∃ t, exec (.spanCfg c) s = .next t ∧ Applied [] s t c ∧
        (t.span.topo, t.span.ringN, t.span.x, t.span.y) = scTopo c ∧ (∀ l, l < 4 → (linkOf t l).keySlot = scSlot c l) ∧
        ∀ l, l < 4 → (linkOf s l).st = 3 → (linkOf s l).pair = false → .span l ⟨(linkOf s l).peer, devnum s, 7, 0, BitVec.ofNat 64 (cw c 8).toNat, c.input, 0⟩ ∈ t.outbox)) ∧
    (∀ st, mayApply s c = true → spanCfgCheck c s = some st → ∃ t, exec (.spanCfg c) s = .next t ∧ Ends s t c.tok st 0 [] ∧
      t.span.topo = s.span.topo ∧ t.sys.devnum = s.sys.devnum) ∧
    (runnable s c = true →
      let o := (w32le (spnStatus s) ++ w32le (spnDomain s) ++ (List.range 4).flatMap (fun l => w32le (spnLink s l)) ++
        (List.range 64).map (fun d => BitVec.ofNat 8 (if d < domainSize s ∧ d ≠ devnum s then (routeLink s d).getD 255 else 255)) ++
        leOctets 4 s.span.unnumbered.length ++ s.span.unnumbered.flatMap (fit 64)).take (cOutLen c)
      ∃ t, exec (.spanStatus c) s = .next t ∧ Served [] s t c (if o.length < cOutLen c then BitVec.ofNat 32 o.length else 0) o) ∧
    (mayApply s c = true → spanRouteCheck c s = none → ∃ t, exec (.spanRoute c) s = .next t ∧ Applied [] s t c ∧
      (cLen c = 0 → t.span.routes = s.span.routes) ∧
      (cLen c ≠ 0 → ∀ d, d < 64 → mget t.span.routes d = if lget (srTable c) d 255 ≤ 3 then some (lget (srTable c) d 255) else none) ∧
      ∀ l, l < 4 → (linkOf t l).pair =
        (if bit (cw c 8) 0 then l == bits (cw c 8) 2 1 else (linkOf s l).pair && !bit (cw c 8) 3)) ∧
    (∀ st, mayApply s c = true → spanRouteCheck c s = some st → ∃ t, exec (.spanRoute c) s = .next t ∧ Ends s t c.tok st 0 [] ∧
      t.span.routes = s.span.routes) ∧
    (runnable s c = true →
      (∀ st, spanOutcomeOf (cw64 c 8) s = some st → ∃ t, exec (.spanOutcome c) s = .next t ∧
        Served [] s t c (BitVec.ofNat 32 st) []) ∧
      (∀ j, spanOutcomeOf (cw64 c 8) s = none → jent s (cw64 c 8) = some j → j.remote = true → unreachable s (cDev j.cmd) = true →
        ∃ t, exec (.spanOutcome c) s = .next t ∧ Ends s t c.tok 0x050B 0 []) ∧
      (spanOutcomeOf (cw64 c 8) s = none → jent s (cw64 c 8) = none →
        (s.span.foreign.any (fun x => x.1.tok == cw64 c 8)) = false →
        ∃ t, exec (.spanOutcome c) s = .next t ∧ Ends s t c.tok 0x0705 0 [])) ∧
    (s.sys.gateway = false → s.sys.devnum = some (cDev c) → jent s c.tok = none →
      (s.span.foreign.any (fun x => x.1.tok == c.tok)) = false → s.sys.startup = false → s.sys.held = false →
      (opInfo (Cmd.opc c) = none → ∃ t, exec (.remoteCommand c) s = .next t ∧ Answered t c.tok 0x0101 0 []) ∧
      (∀ o, opInfo (Cmd.opc c) = some o → o.dyn = false → modeOk s c = true → objectAllows c o.row.who s = true →
        ∃ t j, exec (.remoteCommand c) s = .next t ∧ jent t c.tok = some j ∧ j.cmd = c ∧ j.started = false ∧ j.outcome = none ∧
          (c, none) ∈ t.span.foreign)) ∧
    (s.sys.gateway = true ∨ s.sys.devnum ≠ some (cDev c) ∨ (jent s c.tok).isSome = true → exec (.remoteCommand c) s = .next s)) ∧
  (∀ (tok status epoch dev : Nat) (result : W32) (out : List Byte) (s : State) (j : JEntry), jent s tok = some j →
    (j.remote = true → dev = cDev j.cmd → j.outcome = none → NothingWaits s j.cmd → ¬ (Cmd.opc j.cmd = 0x2004 ∧ status = 0) →
      ∃ t k, exec (.remoteOutcome tok status result epoch dev out) s = .next t ∧ Within [.journal, .span, .outbox] s t ∧
        jent t tok = some k ∧ k.outcome = some { status := status, result := result, epoch := epoch, dev := dev } ∧
        k.staged = some { status := status, result := result, out := out, wrote := 0 } ∧ ∀ i, i ≠ tok → jent t i = jent s i) ∧
    (j.remote = true → dev = cDev j.cmd → j.outcome.isSome = true → exec (.remoteOutcome tok status result epoch dev out) s =
      .next { s with span := { s.span with late := mset s.span.late tok status } }) ∧
    (j.remote = false ∨ dev ≠ cDev j.cmd → exec (.remoteOutcome tok status result epoch dev out) s = .next s)) ∧
  (∀ (tok : Nat) (s : State) (j : JEntry), jent s tok = some j →
    (s.sys.gateway = true → j.outcome = none → j.remote = true → unreachable s (cDev j.cmd) = true → NothingWaits s j.cmd →
      ∃ t k, exec (.gatewayUnreachable tok) s = .next t ∧ jent t tok = some k ∧
        k.outcome = some { status := 0x050B, result := 0, epoch := s.sys.epoch, dev := cDev j.cmd } ∧
        ∀ i, i ≠ tok → jent t i = jent s i) ∧
    (s.sys.gateway = false → j.outcome = none → (s.span.foreign.any (fun x => x.1.tok == tok)) = true → unreachable s 0 = true →
      (safeAtOnce j = true → ∃ t, exec (.gatewayUnreachable tok) s = .next t ∧ Ends s t tok 0x0503 0 []) ∧
      (safeAtOnce j = false → ∃ t, exec (.gatewayUnreachable tok) s = .next t ∧ Within [.journal] s t ∧
        jent t tok = some { j with mark := .reset })) ∧
    (j.outcome.isSome = true ∨ (s.sys.gateway = true ∧ j.remote = false) → exec (.gatewayUnreachable tok) s = .next s))

/-- Links and packets of the span (details of training and forwarding: log 53). -/
def Obligations.SpanFabric : Prop :=
  (∀ (l peer : Nat) (peerId peerNonce proof : List Byte) (s : State), l < s.span.links.length →
    let nonce := (generate 0 68 32 s).1
    let key := domainKey s l
    let tx := trainText (spanNum s) peer nonce peerNonce
    let ready := inService s = true ∧ ((linkOf s l).st = 0 ∨ (linkOf s l).st = 2) ∧ drawReady s 68 = true
    (ready → proof = linkProof key tx peerId → ∃ t, exec (.spanLinkTraining l peer peerId peerNonce proof) s = .next t ∧
      Within [.eng, .rng, .pair, .span, .log, .budget, .outbox] s t ∧ .spanTrain l (spanNum s) nonce (linkProof key tx devId) ∈ t.outbox ∧
      (linkOf t l).st = 3 ∧ (linkOf t l).peer = peer % 64 ∧ (linkOf t l).fseq = 0 ∧ (linkOf t l).group = 0 ∧
      (linkOf t l).keyTx = linkKey key tx (if spanNum s ≤ peer then 0 else 1) ∧
      (linkOf t l).keyRx = linkKey key tx (if spanNum s ≤ peer then 1 else 0)) ∧
    (ready → proof ≠ linkProof key tx peerId → ∃ t, exec (.spanLinkTraining l peer peerId peerNonce proof) s = .next t ∧
      Within [.eng, .rng, .span, .log, .budget, .outbox] s t ∧ .spanTrain l (spanNum s) nonce (linkProof key tx devId) ∈ t.outbox ∧
      (linkOf t l).st = 1 ∧ (linkOf t l).downAt = s.time.clock) ∧
    (¬ ready → exec (.spanLinkTraining l peer peerId peerNonce proof) s = .next s)) ∧
  (∀ (l : Nat) (f : Flit) (ok : Bool) (msg : Option PairRx) (s : State), l < s.span.links.length →
    let x := linkOf s l
    let next := (x.fseq + 1) % 4294967296
    (x.st ≠ 3 → exec (.spanFlitReceive l f ok msg) s = .next s) ∧
    (x.st = 3 → flitAccept x.fseq f = none →
      exec (.spanFlitReceive l f ok msg) s = .next { s with outbox := s.outbox ++ [.spanNak l x.fseq] }) ∧
    (∀ c, x.st = 3 → flitAccept x.fseq f = some c →
      (ctlBit c 66 = true → ∃ t, exec (.spanFlitReceive l f ok msg) s = .next t ∧ Within [.span, .outbox] s t ∧
        (linkOf t l).fseq = next ∧ (linkOf t l).inGroup = x.inGroup) ∧
      (ctlBit c 66 = false →
        let n := if ctlBit c 67 then 1 else if x.inGroup = 0 then 0 else x.inGroup + 1
        (n ≠ 4 → ∃ t, exec (.spanFlitReceive l f ok msg) s = .next t ∧ Within [.span, .outbox] s t ∧
          (linkOf t l).fseq = next ∧ (linkOf t l).inGroup = n ∧ (linkOf t l).group = x.group) ∧
        (n = 4 → ok = true → x.pair = false → ∃ t, exec (.spanFlitReceive l f ok msg) s = .next t ∧ Within [.span, .outbox] s t ∧
          (linkOf t l).fseq = next ∧ (linkOf t l).inGroup = 0 ∧ (linkOf t l).group = x.group + 1) ∧
        (n = 4 → ok = false → ∃ t, exec (.spanFlitReceive l f ok msg) s = .next t ∧
          (linkOf t l).fseq = (next + 4294967292) % 4294967296 ∧ (linkOf t l).inGroup = 0 ∧ (linkOf t l).group = x.group ∧
          .spanNak l ((next + 4294967292) % 4294967296) ∈ t.outbox)))) ∧
  (∀ (l n a b : Nat) (s : State), l < s.span.links.length →
    let x := linkOf s l
    (x.st = 2 ∨ x.st = 3 → ∃ t, exec (.spanLinkDown l n) s = .next t ∧ Within [.span, .log, .outbox] s t ∧
      (linkOf t l).st = 1 ∧ (linkOf t l).downAt = s.time.clock ∧
      (x.st = 3 → x.pair = false → s.sys.devnum.isSome = true → linkFailed t (devnum s) x.peer = true)) ∧
    (x.st ≠ 2 → x.st ≠ 3 → exec (.spanLinkDown l n) s = .next s) ∧
    (x.st = 1 → s.time.clock - x.downAt ≥ 100000000 → inService s = true → ∃ t, exec (.spanLinkRetrain l) s = .next t ∧
      Within [.span] s t ∧ linkOf t l = { x with st := 2 } ∧ ∀ k, k ≠ l → linkOf t k = linkOf s k) ∧
    (x.st ≠ 1 ∨ s.time.clock - x.downAt < 100000000 → exec (.spanLinkRetrain l) s = .next s) ∧
    (s.sys.devnum.isSome = true → inService s = true → linkFailed s a b = false → ∃ t, exec (.routePacket a b) s = .next t ∧
      Within [.span, .log, .outbox] s t ∧ linkFailed t a b = true ∧
      ∀ k, k < 4 → (linkOf s k).st = 3 → (linkOf s k).pair = false → .span k ⟨(linkOf s k).peer, devnum s, 6, 0, BitVec.ofNat 64 (a + 64 * b), [], 0⟩ ∈ t.outbox) ∧
    (s.sys.devnum = none ∨ linkFailed s a b = true → exec (.routePacket a b) s = .next s)) ∧
  (∀ (l : Nat) (k : Packet) (s : State), (linkOf s l).st = 3 → (linkOf s l).pair = false →
    let last := mgetD s.span.rxSeq k.src 0
    let held := s.span.ahead.filter (fun x => x.2.src == k.src)
    (s.sys.devnum = some k.dst →
      (k.seq ≤ last ∨ (held.any (fun x => x.2.seq == k.seq)) = true → ∃ t, exec (.spanPacketReceive l k) s = .next t ∧
        Within [.span, .outbox] s t ∧ t.outbox = s.outbox ++ [.spanCredit l k.vc 1] ∧
        t.span.rxSeq = s.span.rxSeq ∧ t.span.ahead = s.span.ahead) ∧
      (k.seq = last + 1 → held = [] → ∃ t, exec (.spanPacketReceive l k) s = .next t ∧ Within [.span, .outbox] s t ∧
        t.outbox = s.outbox ++ [.spanCredit l k.vc 1] ∧
        mgetD t.span.rxSeq k.src 0 = k.seq ∧ t.span.unreach = s.span.unreach.filter (· != k.src)) ∧
      (last + 1 < k.seq → (held.any (fun x => x.2.seq == k.seq)) = false → held.length < 64 → ∃ t,
        exec (.spanPacketReceive l k) s = .next t ∧ Within [.span, .outbox] s t ∧
        t.outbox = s.outbox ++ [.spanCredit l k.vc 1] ∧ t.span.rxSeq = s.span.rxSeq ∧ t.span.ahead = s.span.ahead ++ [(s.time.clock, k)])) ∧
    (∀ m, m < s.span.links.length → (s.sys.devnum = none ∧ m = oppositeLink l) ∨
        (∃ d, s.sys.devnum = some d ∧ k.dst ≠ d ∧ routeLink s k.dst = some m) →
      let v := if dateline s m then 1 else k.vc
      let go := (linkOf s m).st = 3 ∧ lget (linkOf s m).credits v 0 ≠ 0 ∧ ∀ w ∈ (linkOf s m).waiting, w.vc ≠ v
      (go → ∃ t, exec (.spanPacketReceive l k) s = .next t ∧ Within [.span, .outbox] s t ∧
        t.outbox = s.outbox ++ [.spanCredit l k.vc 1, .span m { k with vc := v }] ∧
        (linkOf t m).unacked = (linkOf s m).unacked ++ [{ k with vc := v }] ∧ (linkOf t m).waiting = (linkOf s m).waiting ∧
        lget (linkOf t m).credits v 0 = lget (linkOf s m).credits v 0 - 1) ∧
      (¬ go → ∃ t, exec (.spanPacketReceive l k) s = .next t ∧ Within [.span, .outbox] s t ∧
        t.outbox = s.outbox ++ [.spanCredit l k.vc 1] ∧ (linkOf t m).unacked = (linkOf s m).unacked ∧
        (linkOf t m).waiting = (linkOf s m).waiting ++ [{ k with vc := v }] ∧ (linkOf t m).credits = (linkOf s m).credits))) ∧
  (∀ (l : Nat) (k : Packet) (s : State), (linkOf s l).st ≠ 3 ∨ (linkOf s l).pair = true →
    exec (.spanPacketReceive l k) s = .next s) ∧
  (∀ (src : Nat) (s : State),
    let due := (s.span.ahead.any (fun x => x.2.src == src && decide (s.time.clock - x.1 ≥ 1000000))) = true ∧ src ∉ s.span.unreach
    (due → ∃ t, exec (.spanGapTimeout src) s = .next t ∧ Within [.span, .log] s t ∧ src ∈ t.span.unreach) ∧
    (¬ due → exec (.spanGapTimeout src) s = .next s)) ∧
  (∀ (devid : List Byte) (num : Nat) (s : State), s.sys.startup = false → s.sys.held = false →
    (devid = devId → num < 64 → s.sys.devnum = none ∨ mode s = 4 →
      exec (.numberPacket devid num) s = .next { s with sys := { s.sys with devnum := some num } }) ∧
    (devid = devId → s.sys.devnum.isSome = true → mode s ≠ 4 → exec (.numberPacket devid num) s = .next s) ∧
    (devid ≠ devId → s.sys.gateway = true → exec (.numberPacket devid num) s = .next s) ∧
    (devid ≠ devId → s.sys.gateway = false → ∃ t, exec (.numberPacket devid num) s = .next t ∧ Within [.outbox] s t ∧
      ∀ k, k < 4 → (linkOf s k).st = 3 → (linkOf s k).pair = false → .span k ⟨(linkOf s k).peer, devnum s, 7, 0, BitVec.ofNat 64 num, devid, 0⟩ ∈ t.outbox)) ∧
  (∀ (f ring slot : Nat) (o : List Byte) (s : State), f < s.fns.length → ring < (fnOf s f).rings.length →
    let r := ringOf s f ring
    let open_ := s.sys.gateway = true ∧ inService s = true ∧ r.active = true ∧ r.stopped = false ∧ dmaOk s f = true ∧ r.bufMap ≠ []
    (open_ → ∃ t, exec (.sheetPacket f ring slot o) s = .next t ∧ Within [.sys, .fns, .eng, .log, .budget, .outbox] s t ∧
      (ringOf t f ring).prod = r.prod + o.length / 64 ∧ (ring ≠ 4 → (ringOf t f ring).lastSlot = slot) ∧
      ∀ w ∈ dmaWrites f r.bufMap (r.buf + r.prod % ringUnits r * 64) (o.take (ringUnits r * 64 - r.prod % ringUnits r * 64)), w ∈ t.outbox) ∧
    (¬ open_ → exec (.sheetPacket f ring slot o) s = .next s))

/-- The protocol's own steps (order of fetch: log 56). -/
def Obligations.ProtocolSteps : Prop :=
  (∀ (f q : Nat) (mem : List Host.Cell) (s : State), f < s.fns.length → q < (fnOf s f).queues.length → askedOf s f q = none →
    let x := queueOf s f q
    (mayFetch s f q = false → exec (.commandFetch f q mem) s = .next s) ∧
    (∀ b, mayFetch s f q = true → pinnedBus x.sqMap (x.sqBase + 64 * x.head) = some b →
      let c := entryAt mem f q b
      let u := workFor 10 1 0 (ctlClass (Cmd.opc c)) f <| hostMove 64 f <|
        updQueue f q (fun x => { x with head := (x.head + 1) % x.n, fetched := x.fetched + 1 }) (hostActs (pinnedLookup f s))
      (∀ v st, admissionFail mem c u = (v, some st) → ∃ t, exec (.commandFetch f q mem) s = .next t ∧ t.journal = s.journal ∧
        t.sys.token = s.sys.token ∧ (queueOf t f q).head = (x.head + 1) % x.n ∧
        .refused (cTag c) st (cNoirq c) (devnum s) ∈ (queueOf t f q).waiting) ∧
      (∀ v, admissionFail mem c u = (v, none) → pairStandby s = false → ∃ t j, exec (.commandFetch f q mem) s = .next t ∧
        t.sys.token = s.sys.token + 1 ∧ jent t (s.sys.token + 1) = some j ∧ j.cmd.words = c.words ∧ j.cmd.fn = f ∧
        j.cmd.qp = q ∧ j.outcome = none ∧ (queueOf t f q).head = (x.head + 1) % x.n ∧
        .admitted (s.sys.token + 1) ∈ (queueOf t f q).waiting) ∧
      (∀ v, admissionFail mem c u = (v, none) → pairStandby s = true → ∃ t a, exec (.commandFetch f q mem) s = .next t ∧
        t.journal = s.journal ∧ t.pair.asked = s.pair.asked ++ [a] ∧ a.words = c.words ∧ .pair (.admission a) ∈ t.outbox))) ∧
  (∀ (f : Nat) (mem : List Host.Cell) (s : State), ReachesBar s f →
    let ready := (queueOf s f 0).st = 0 ∧ pairServed s f 0 = true ∧ dmaOk s f = true ∧ bootstrapping s f = false ∧ handingOver s = false
    (¬ ready → exec (.queueBootstrap f mem) s = .next s) ∧
    (∀ v b, ready → translate mem f 0 false (hostActs s) = (v, some b) →
      let c := entryAt mem f 0 b
      let good := hostAnswers mem b 64 = true ∧ Cmd.opc c = 0x0010 ∧ cCtx c = 0
      (¬ good → ∃ t, exec (.queueBootstrap f mem) s = .next t ∧ t.journal = s.journal ∧
        (f ≠ 0 → f < s.fns.length → (fnOf t f).evt.getLsbD 1 = true)) ∧
      (∀ w, good → admissionFail mem c (workFor 10 1 0 (ctlClass (Cmd.opc c)) f (hostMove 64 f v)) = (w, none) → pairStandby s = false → ∃ t j, exec (.queueBootstrap f mem) s = .next t ∧
        t.sys.token = s.sys.token + 1 ∧ jent t (s.sys.token + 1) = some j ∧ j.cmd.words = c.words ∧ j.outcome = none))) ∧
  (∀ (f q : Nat) (s : State), f < s.fns.length → q < (fnOf s f).queues.length →
    let x := queueOf s f q
    let a := x.cqBase + 32 * (x.written % x.n)
    let ready := x.st ≠ 0 ∧ dmaOk s f = true ∧ pairServed s f q = true
    let entry (tag : W32) (st tok e : Nat) (r : W32) (dev : Nat) : List Byte :=
      complOctets tag st x.head tok e r (x.written / x.n % 2 == 0) dev
    (¬ ready → exec (.completionWrite f q) s = .next s) ∧
    (∀ tag st n dev rest, ready → x.waiting = .refused tag st n dev :: rest → complReachable x = true → ∃ t,
      exec (.completionWrite f q) s = .next t ∧ Within [.sys, .fns, .budget, .outbox] s t ∧ (queueOf t f q).waiting = rest ∧
      (queueOf t f q).written = x.written + 1 ∧
      (let e := entry tag st 0 s.sys.epoch 0 dev
       t.outbox = s.outbox ++ (dmaWrites f x.cqMap a (e.take 28) ++ dmaWrites f x.cqMap (a + 28) (e.drop 28)) ++
         (if x.vecEn && !n then [.msix f x.vec] else []))) ∧
    (∀ k rest j o, ready → x.waiting = .admitted k :: rest → jent s k = some j → j.ledgered = false → j.outcome = some o →
      (j.outAck = false → exec (.completionWrite f q) s = .next s) ∧
      (j.outAck = true → complReachable x = true → restarts j o = false → j.mark ≠ .dado → ∃ t, exec (.completionWrite f q) s = .next t ∧
        Within [.sys, .fns, .journal, .budget, .outbox] s t ∧ (queueOf t f q).waiting = rest ∧
        jent t k = some { j with written := true } ∧
        (let e := entry (cTag j.cmd) o.status k (outEpoch s j o) o.result o.dev
         let out := (j.staged.map (fun g => g.out)).getD []
         t.outbox = s.outbox ++ (if out = [] then [] else outWrites j.cmd out) ++
           (dmaWrites f x.cqMap a (e.take 28) ++ dmaWrites f x.cqMap (a + 28) (e.drop 28)) ++
           (if x.vecEn && !cNoirq j.cmd then [.msix f x.vec] else []))) ∧
      (∀ g, j.outAck = true → complReachable x = true → restarts j o = false → j.mark = .dado → j.staged = some g → g.out ≠ [] →
        ∃ t, exec (.completionWrite f q) s = .next t ∧ Within [.sys, .fns, .journal, .budget, .outbox] s t ∧
        jent t k = some { j with written := true } ∧
        (let e := entry (cTag j.cmd) 0x0802 k (outEpoch s j o) 0 o.dev
         t.outbox = s.outbox ++ (dmaWrites f x.cqMap a (e.take 28) ++ dmaWrites f x.cqMap (a + 28) (e.drop 28)) ++
           (if x.vecEn && !cNoirq j.cmd then [.msix f x.vec] else []))) ∧
      (j.outAck = true → complReachable x = true → restarts j o = true → ∃ u, exec (.completionWrite f q) s = .next (resetDevice u) ∧
        jent u k = some { j with written := true }) ∧
      (j.outAck = true → complReachable x = false → j.written = false → ∃ t, exec (.completionWrite f q) s = .next t ∧
        jent t k = some { j with ledgered := true } ∧ t.outbox = s.outbox))) ∧
  (∀ (s : State) (k : Nat) (rest : List Nat) (j : JEntry), s.deferred = k :: rest →
    (s.pair.mcfg = [] → jent s k = some j → j.outcome = none → closingFor j.cmd s = true → exec .configTakeEffect s = .next s) ∧
    (s.pair.mcfg = [] → closingFor j.cmd s = false → jent s k = some j → j.outcome = none → modeOk s j.cmd = true → j.cmd.tok = k →
      Cmd.opc j.cmd = 0x2001 → sheetHistoryCheck j.cmd s = none → ∃ t, exec .configTakeEffect s = .next t ∧
        Ends s t k 0 0 [] ∧ NewEpoch s t ∧ t.deferred = rest ∧ t.hawk.depth = (cw j.cmd 8).toNat)) ∧
  (∀ (s : State) (c : Cmd) (e : Nat) (rest : List (Cmd × Nat)), s.pair.mcfg = (c, e) :: rest →
    (closingFor c s = true → exec .configTakeEffect s = .next s) ∧
    (closingFor c s = false → exec .configTakeEffect s =
      .next (mirrorConfig c e { s with pair := { s.pair with mcfg := rest } }))) ∧
  (∀ (k : Nat) (s : State) (j : JEntry), jent s k = some j →
    (j.outcome = none → j.mark ≠ .none → j.remote = false → inRehash j = false → NothingWaits s j.cmd →
      (safeAtOnce j = true → ∃ t, exec (.safePointStop k) s = .next t ∧ Ends s t k (markStatus j.mark) 0 []) ∧
      (∀ g, safeAtOnce j = false → j.staged = some g → ∃ t, exec (.safePointStop k) s = .next t ∧
        Ends s t k (markStatus j.mark) 0 [] ∧
        (g.wrote ≠ 0 → dmaOk s j.cmd.fn = true → ∀ o ∈ outWrites j.cmd (List.replicate g.wrote 0), o ∈ t.outbox))) ∧
    (∀ i, j.outcome = none → j.mark ≠ .none → j.remote = false → inRehash j = false → safeAtOnce j = false → j.staged = none →
      (List.range 4).find? (fun i => (unitOf s i).busy && (unitOf s i).tok == k) = some i → i < s.pke.units.length → ∃ t,
        exec (.safePointStop k) s = .next t ∧ (unitOf t i).busy = false ∧ (unitOf t i).wiping = true ∧ t.journal = s.journal) ∧
    (∀ w a, msorted none s.journal = true → j.outcome = none → j.mark = .abort w → w ≠ k → j.remote = false → inRehash j = false → safeAtOnce j = true →
      (fnOf s j.cmd.fn).fenced = false → jent s w = some a → Cmd.opc a.cmd = 0x0F01 → a.started = true → a.outcome = none →
      a.cmd.fn = j.cmd.fn → cCtx a.cmd = j.cmd.qp → cw a.cmd 8 = cTag j.cmd → ∃ t, exec (.safePointStop k) s = .next t ∧
        ((jent t k).bind (fun j => j.outcome)).map (fun o => o.status) = some 0x0501 ∧
        ((jent t w).bind (fun j => j.outcome)).map (fun o => (o.status, o.result)) = some (0, BitVec.ofNat 32 k)) ∧
    (j.outcome.isSome = true ∨ j.mark = .none → exec (.safePointStop k) s = .next s) ∧
    (∀ g, j.staged = some g → j.started = true → j.outcome = none → j.remote = false → workStopped j.cmd s = false →
      NothingWaits s j.cmd → ∃ t, exec (.engineWorkDone k) s = .next t ∧
        (j.mark ≠ .dado ∨ g.out = [] → Ends s t k g.status g.result g.out) ∧
        (j.mark = .dado → g.out ≠ [] → Ends s t k 0x0802 0 [])) ∧
    (∀ g w a, msorted none s.journal = true → j.staged = some g → j.started = true → j.outcome = none → j.remote = false → workStopped j.cmd s = false →
      j.mark ≠ .dado → g.status ≠ 0x0501 → w ≠ k → (fnOf s j.cmd.fn).fenced = false → jent s w = some a →
      Cmd.opc a.cmd = 0x0F01 → a.started = true → a.outcome = none → a.cmd.fn = j.cmd.fn → cCtx a.cmd = j.cmd.qp →
      cw a.cmd 8 = cTag j.cmd → ∃ t, exec (.engineWorkDone k) s = .next t ∧
        ((jent t k).bind (fun j => j.outcome)).map (fun o => o.status) = some g.status ∧
        ((jent t w).bind (fun j => j.outcome)).map (fun o => o.status) = some 0x0502) ∧
    (j.staged = none ∨ j.outcome.isSome = true → exec (.engineWorkDone k) s = .next s) ∧
    (let due := j.started = false ∧ j.outcome = none ∧ j.mark = .none ∧ j.remote = false ∧ j.admAck = true ∧ k ∉ s.deferred ∧
       inService s = true ∧ s.time.clock - j.at_ ≥ s.budget.wait * 1000000
     (due → ∃ t, exec (.budgetWaitExceeded k) s = .next t ∧ Ends s t k 0x0504 0 []) ∧
     (¬ due → exec (.budgetWaitExceeded k) s = .next s))) ∧
  (∀ s : State,
    (sourceDue s = false → exec .budgetPeriodBoundary s = .next s) ∧
    (sourceDue s = true → ∃ t, exec .budgetPeriodBoundary s = .next t ∧ Within [.log, .budget, .fw] s t ∧
      (s.budget.next = none → t.budget.table = s.budget.table ∧ t.budget.wait = s.budget.wait) ∧
      (∀ tb w e m, s.budget.next = some (tb, w, e, m) → t.budget.table = tb ∧ t.budget.tableInv = Budget.shadowOf tb ∧
        t.budget.wait = w ∧ t.budget.tepoch = e ∧ t.budget.next = none) ∧
      t.budget.shares = shareCount s ∧
      ∀ k l, mget s.budget.leaves k = some l → k % 65 = 0 ∨ fnEnabled s (k % 65) = true →
        mget t.budget.leaves k = some { l with d := min l.d 0 + (quantum t (k / 650) (k / 65 % 10) : Nat) })) ∧
  (∀ (f : Nat) (s : State), s.sys.held = false → fnEnabled s f = true →
    (s.sys.startup = true → ∀ on, exec (.busMasterEnableChange f on) s = .next { s with outbox := s.outbox ++ [.retryStatus f] }) ∧
    (s.sys.startup = false → exec (.busMasterEnableChange f false) s = .next (updFn f (fun x => { x with bme := false }) s)) ∧
    (s.sys.startup = false → (∀ q, q < 16 → (queueOf s f q).waiting = []) →
      exec (.busMasterEnableChange f true) s = .next (updFn f (fun x => { x with bme := true }) s)))

/-- What the host does through its BARs and configuration space (SPDM and IDE answers: log 54). -/
def Obligations.HostRequests : Prop :=
  (∀ (f q : Nat) (v : W32) (s : State), ReachesBar s f → f < s.fns.length → q < (fnOf s f).queues.length →
    let x := queueOf s f q
    let n := bits v 11 0
    let d := (n + x.n - x.released % x.n) % x.n
    (takesBell s f q = false → exec (.sqTailDoorbell f q v) s = .next s ∧ exec (.cqHeadDoorbell f q v) s = .next s) ∧
    (takesBell s f q = true → n < x.n → ∃ t, exec (.sqTailDoorbell f q v) s = .next t ∧ Within [.sys, .fns] s t ∧
      queueOf t f q = { x with tail := n }) ∧
    (takesBell s f q = true → x.n ≤ n → ∃ t, exec (.sqTailDoorbell f q v) s = .next t ∧ Within [.fns, .log] s t ∧
      queueOf t f q = { x with st := 2, cause := 1 }) ∧
    (takesBell s f q = true → (x.n ≤ n ∨ x.written - x.released < d) → ∃ t, exec (.cqHeadDoorbell f q v) s = .next t ∧
      Within [.fns, .log] s t ∧ queueOf t f q = { x with st := 2, cause := 2 }) ∧
    (takesBell s f q = true → n < x.n → d ≤ x.written - x.released → ∃ t, exec (.cqHeadDoorbell f q v) s = .next t ∧
      Within [.fns, .journal, .outbox] s t ∧
      queueOf t f q = { x with released := x.released + d, unreleased := x.unreleased.drop d } ∧
      (∀ k, k ∉ x.unreleased.take d → jent t k = jent s k) ∧
      (msorted none s.journal = true → ∀ k ∈ x.unreleased.take d, ∀ j, jent s k = some j → j.ledgered = false → jent t k = none))) ∧
  (∀ (v : W32) (s : State),
    let evts (s : State) : List W32 := [s.sys.evt, s.tamper.evt, s.log.evt, s.budget.evt, s.time.evt, s.skim.evt, s.hawk.evt,
      s.trowel.evt, s.sealer.evt, s.keys.evt, s.rng.evt, s.eng.evt, s.span.evt, s.pair.evt, s.sys.ddoEvt]
    (∀ w, w < 15 → ReachesBar s 0 → ∃ t, exec (.evtW1cWrite 0 (if w = 0 then 0x0C else 4096 * w + 4) v) s = .next t ∧
      exec (.registerWrite 0 (if w = 0 then 0x0C else 4096 * w + 4) v) s = .next t ∧
      evts t = (evts s).set w ((evts s).getD w 0 &&& ~~~v) ∧ t.journal = s.journal ∧ t.fns = s.fns ∧ t.log.queue = s.log.queue ∧
      mode t = mode s) ∧
    (∀ f, f ≠ 0 → f < s.fns.length → ReachesBar s f → exec (.evtW1cWrite f 0x0C v) s =
      .next (updFn f (fun x => { x with evt := x.evt &&& ~~~v }) s)) ∧
    (∀ f off, ReachesBar s f → w1cAt f off v s = none → exec (.evtW1cWrite f off v) s = .next s) ∧
    (ReachesBar s 0 → v = 0xA5C3 → exec (.registerWrite 0 0x28 v) s = .next (resetDevice s)) ∧
    (ReachesBar s 0 → v ≠ 0xA5C3 → ∃ t, exec (.registerWrite 0 0x28 v) s = .next t ∧ Within [.sys, .log] s t ∧
      t.sys.evt.getLsbD 5 = true) ∧
    (∀ off, ReachesBar s 0 → w1cAt 0 off v s = none → off ≠ 0x28 → off / 4096 < 15 → exec (.registerWrite 0 off v) s = .next s) ∧
    (∀ q, q < 16 → ReachesBar s 0 → exec (.registerWrite 0 (0xF000 + 8 * q) v) s = exec (.sqTailDoorbell 0 q v) s ∧
      exec (.registerWrite 0 (0xF000 + 8 * q + 4) v) s = exec (.cqHeadDoorbell 0 q v) s) ∧
    (∀ f q, f ≠ 0 → q < 16 → ReachesBar s f → exec (.registerWrite f (0x1000 + 8 * q) v) s = exec (.sqTailDoorbell f q v) s ∧
      exec (.registerWrite f (0x1000 + 8 * q + 4) v) s = exec (.cqHeadDoorbell f q v) s) ∧
    (∀ r, r < 5 → ReachesBar s 0 → s.sys.gateway = true →
      exec (.registerWrite 0 (0xF800 + 16 * r) v) s = exec (.ringConsWrite 0 r v) s)) ∧
  (∀ (f r : Nat) (v : W32) (s : State), f < s.fns.length → r < (fnOf s f).rings.length → ReachesBar s f →
    let x := ringOf s f r
    (x.active = false ∨ (fnOf s f).fenced = true → exec (.ringConsWrite f r v) s = .next s) ∧
    (x.active = true → (fnOf s f).fenced = false → (x.prod + 4294967296 - v.toNat) % 4294967296 ≤ ringUnits x →
      exec (.ringConsWrite f r v) s = .next (updRing f r (fun x => { x with cons := v }) s)) ∧
    (x.active = true → (fnOf s f).fenced = false → ringUnits x < (x.prod + 4294967296 - v.toNat) % 4294967296 →
      ∃ t, exec (.ringConsWrite f r v) s = .next t ∧ Within [.sys, .fns, .hawk, .log, .outbox] s t ∧
        ringOf t f r = { x with badCons := true } ∧ t.hawk.evt.getLsbD 5 = true)) ∧
  (∀ (f off : Nat) (s : State), s.sys.held = false → fnEnabled s f = true →
    (s.sys.startup = true → exec (.loRegisterRead f off) s = .next { s with outbox := s.outbox ++ [.unsupported f] }) ∧
    (∀ v, s.sys.startup = false → ideDrop s f = false → barLo s f off = some v → exec (.loRegisterRead f off) s = .next { s with
      outbox := s.outbox ++ [.mmio f off (BitVec.ofNat 32 v)]
      sys := { s.sys with hiLatch := mset s.sys.hiLatch (latchKey f (off + 4)) (BitVec.ofNat 32 (v / 4294967296)) } }) ∧
    (s.sys.startup = false → ideDrop s f = false → barLo s f off = none → (f ≠ 0 ∨ shGood s off = true) →
      exec (.loRegisterRead f off) s = .next { s with outbox := s.outbox ++ [.mmio f off (barValue s f off)] }) ∧
    (f = 0 → s.sys.startup = false → ideDrop s 0 = false → barLo s 0 off = none → shGood s off = true →
      exec (.shFieldRead off) s = .next { s with outbox := s.outbox ++ [.mmio 0 off (barValue s 0 off)] }) ∧
    (f = 0 → s.sys.startup = false → ideDrop s 0 = false → barLo s 0 off = none → shGood s off = false → s.tamper.armed = true →
      max 1 (tmpN s 15) ≤ (windowEvents s 15 (tmpW s 15 * 1000000)).length → ∃ t, exec (.shFieldRead off) s = .next t ∧
        (respRun s 15 = 2 → mode t = 5) ∧ (respRun s 15 = 3 → t.keys.bbkek = none))) ∧
  (∀ (f : Nat) (s : State),
    (s.sys.held = true → exec (.pcieConfigRequest f) s = .next s) ∧
    (s.sys.held = false → exec (.pcieConfigRequest f) s = .next { s with outbox := s.outbox ++ [
      if s.sys.startup then .retryStatus f
      else if fnEnabled s f then .config f (pcieConfig f) else .unsupported f] }) ∧
    (pcieConfig f).vendor = Config.vendorId.toNat ∧ (pcieConfig f).device = (if f = 0 then 0x9612 else 0x9613) ∧
    (pcieConfig f).routing = f ∧ (pcieConfig f).bars = (if f = 0 then [(0, 65536), (2, 8192)] else [(0, 16384), (2, 4096)])) ∧
  (∀ (r : SpdmReq) (s : State),
    (s.sys.held = true → exec (.spdmRequest r) s = .next s) ∧
    (s.sys.held = false → s.sys.startup = true →
      exec (.spdmRequest r) s = .next { s with outbox := s.outbox ++ [.retryStatus 0] }) ∧
    (s.sys.held = false → s.sys.startup = false → ∃ t, exec (.spdmRequest r) s = .next t ∧ Within [.sys, .outbox] s t ∧
      t.outbox = s.outbox ++ [.spdm (spdmAnswer r s)] ∧
      (∀ n, r = .getMeasurement n → 1 ≤ n → n ≤ 16 → spdmAnswer r s = fit 64 (lget s.fw.meas (n - 1) [])) ∧
      (∀ ok, r = .keyExchange ok → t.sys = if ok then { s.sys with spdm := true } else s.sys) ∧
      (r = .ideLinkKey → t.sys = if s.sys.spdm then { s.sys with ideLink := 2 } else s.sys) ∧
      (∀ n lo hi, r = .ideSelKey n lo hi → n < 16 →
        t.sys = if s.sys.spdm then { s.sys with ideSel := mset s.sys.ideSel n (lo, hi) } else s.sys) ∧
      (r = .ideStop none → t.sys = if s.sys.spdm then { s.sys with ideLink := 1 } else s.sys) ∧
      (∀ n, r = .ideStop (some n) → t.sys = if s.sys.spdm then { s.sys with ideSel := mdel s.sys.ideSel n } else s.sys)))

/-- Resets and start-up (START-UP in one step: log 49; what Primer finds is given by the row's operand: log 6). -/
def Obligations.ResetsAndStartUp : Prop :=
  (∀ (f : Nat) (s : State), f < s.fns.length → s.sys.held = false → s.sys.startup = false →
    (fnEnabled s f = true → (fnOf s f).fenced = false → openToks f s = [] → ∃ t, exec (.functionLevelReset f) s = .next t ∧
      (fnOf t f).fenced = false ∧ (fnOf t f).resetNo = ((fnOf s f).resetNo + 1) % 256 ∧ t.sys.epoch = s.sys.epoch + 1 ∧
      (∀ q, queueOf t f q = default) ∧ (∀ r, ringOf t f r = default) ∧
      ∀ e ∈ t.skim.ctx, ¬ (e.2.kind = 7 ∧ e.2.fn = f)) ∧
    (fnEnabled s f = false ∨ (fnOf s f).fenced = true → exec (.functionLevelReset f) s = .next s)) ∧
  (∀ (f : Nat) (s : State), s.sys.held = false → fnEnabled s f = true → s.sys.startup = true →
    exec (.functionLevelReset f) s = .next { s with outbox := s.outbox ++ [.retryStatus f] }) ∧
  (∀ s : State,
    (s.sys.held = true → exec .conventionalReset s = .next s) ∧
    (s.sys.held = false → ∃ t, exec .conventionalReset s = .next t ∧ t.sys.ideLink = 0 ∧ t.sys.ideSel = [] ∧ t.sys.spdm = false ∧
      t.sys.rateCap = 4 ∧ t.sys.vfe = false ∧ (s.sys.vfe = true → t.sys.numVfs = 0) ∧ t.keys = s.keys ∧
      (s.sys.startup = false → 0 < s.fns.length → (fnOf s 0).fenced = false →
        (fnOf t 0).resetNo = ((fnOf s 0).resetNo + 1) % 256))) ∧
  (∀ (on : Bool) (n : Nat) (s : State),
    (s.sys.held = true ∨ (s.sys.startup = false ∧ on = s.sys.vfe) → exec (.vfEnableChange on n) s = .next s) ∧
    (s.sys.startup = true → s.sys.held = false →
      exec (.vfEnableChange on n) s = .next { s with outbox := s.outbox ++ [.retryStatus 0] }) ∧
    (s.sys.startup = false → s.sys.held = false → s.sys.vfe = false →
      exec (.vfEnableChange true n) s = .next { s with sys := { s.sys with vfe := true, numVfs := min 64 n } }) ∧
    (s.sys.startup = false → s.sys.held = false → s.sys.vfe = true → ∃ t, exec (.vfEnableChange false n) s = .next t ∧
      t.sys.vfe = false ∧ t.sys.numVfs = 0 ∧ t.keys = s.keys)) ∧
  (∀ (lath rep : Bool) (rates : List Nat) (s : State), s.sys.held = false →
    (lath = true → bestRate rates s.sys.rateCap ≠ 0 → exec (.ucieLinkTraining lath rates rep) s = .next { s with
      outbox := s.outbox ++ [.sideband 1]
      sys := { s.sys with ucieUp := true, rate := bestRate rates s.sys.rateCap, rates := rates, repaired := rep, fseq := 0, txSeq := 0
                          txBuf := [] } }) ∧
    (lath = false ∨ bestRate rates s.sys.rateCap = 0 →
      exec (.ucieLinkTraining lath rates rep) s = .next { s with outbox := s.outbox ++ [.sideband 1] })) ∧
  (∀ (f : Flit) (s : State), s.sys.held = false →
    let n := s.sys.txSeq
    let answer (q : Nat) (ack nak : Bool) : List Byte := flitOctets n [] (controlWord n q ack nak)
    (s.sys.ucieUp = false → exec (.ucieFlitReceive f) s = .next s) ∧
    (s.sys.ucieUp = true → flitAccept s.sys.fseq f = none →
      ∃ t, exec (.ucieFlitReceive f) s = .next t ∧ Within [.sys, .outbox] s t ∧ t.sys.fseq = s.sys.fseq ∧
        t.sys.lathCorr = s.sys.lathCorr + flitFixed f ∧ t.sys.txSeq = (n + 1) % 4294967296 ∧
        t.outbox = s.outbox ++ [.ucieFlit (answer s.sys.fseq false true)]) ∧
    (∀ c, s.sys.ucieUp = true → flitAccept s.sys.fseq f = some c → ∃ t, exec (.ucieFlitReceive f) s = .next t ∧
      Within [.sys, .outbox] s t ∧ t.sys.fseq = (s.sys.fseq + 1) % 4294967296 ∧
      t.sys.lathCorr = s.sys.lathCorr + flitFixed f ∧ t.sys.txSeq = (n + 1) % 4294967296 ∧
      (let again := s.sys.txBuf.dropWhile (fun e => e.1 != ctlAckSeq c)
       (ctlBit c 65 = false → t.sys.replay = s.sys.replay ∧ t.outbox = s.outbox ++ [.ucieFlit (answer f.fseq true false)]) ∧
       (ctlBit c 65 = true → t.sys.replay = s.sys.replay + again.length ∧
         t.outbox = s.outbox ++ again.map (fun e => Output.ucieFlit e.2) ++ [.ucieFlit (answer f.fseq true false)])))) ∧
  (∀ (r n : Nat) (s : State),
    let low := bestRate s.sys.rates (s.sys.rate - 1)
    let due := s.sys.ucieUp = true ∧ s.sys.held = false ∧ n < r * 1000000 ∧ low ≠ 0
    (due → ∃ t, exec (.ucieRetrain r n) s = .next t ∧ Within [.sys, .log] s t ∧ t.sys.rate = low ∧ t.sys.rateCap = low ∧
      t.sys.fseq = 0 ∧ t.sys.evt.getLsbD 3 = true) ∧
    (¬ due → exec (.ucieRetrain r n) s = .next s)) ∧
  (∀ (v : W32) (s : State), ReachesBar s 0 →
    (v = 0xA5C3 → exec (.sysResetWrite v) s = .next (resetDevice s)) ∧
    (v ≠ 0xA5C3 → ∃ t, exec (.sysResetWrite v) s = .next t ∧ Within [.sys, .log] s t ∧ t.sys.evt.getLsbD 5 = true)) ∧
  (∀ s : State, ∀ row ∈ [Instr.porstNAssert, Instr.railUndervoltage], s.sys.held = false → ∃ t, exec row s = .next t ∧
    t.injected = [] ∧ t.deferred = [] ∧ t.sys.epoch = s.sys.epoch ∧ t.sys.token = s.sys.token ∧
    (∀ k x, (k, x) ∈ t.skim.ctx → x.kind ≠ 7) ∧ (∀ f q, (queueOf t f q).st = 0) ∧
    (∀ e ∈ t.trowel.progs, e.2.phase = .idle ∧ e.2.inMsg = none) ∧
    (∀ f, f < 65 → (fnOf t f).resetNo = ((fnOf s f).resetNo + 1) % 256)) ∧
  (∀ s : State,
    (∀ b, s.sys.held = true ∨ s.fw.boots = 0 → ∃ u, exec (.porstNDeassert b) s = .next (startUp u) ∧ u.fw.facts = b ∧
      u.sys.held = false ∧ u.tamper.backup = !s.tamper.vauxOk ∧ u.tamper.steps = s.tamper.steps ∧ u.keys = s.keys ∧
      (b.powerUp = true → u.journal = [] ∧ u.skim.ctx = [] ∧ u.trowel.progs = [] ∧ u.sys.epoch = s.sys.epochTop ∧
        u.sys.token = s.sys.tokenTop) ∧
      (b.powerUp = false → u.journal = s.journal ∧ u.sys.epoch = s.sys.epoch ∧ u.sys.token = s.sys.token)) ∧
    (∀ b, s.sys.held = false → s.fw.boots ≠ 0 → exec (.porstNDeassert b) s = .next s) ∧
    (let images := bootImages [1, 2, 3, 4, 5, 6, 7] (bootPatch (checkBbkek (deriveSlots s)))
     let ends (m : Nat) : Prop := mode (startRest s) = m ∧ (startRest s).sys.startup = false
     (s.fw.facts.otpOk = false → ends 5) ∧
     (s.fw.facts.otpOk = true → 64 ≤ s.tamper.steps → ends (if s.fw.factoryDone then 7 else 0)) ∧
     (s.fw.facts.otpOk = true → s.tamper.steps < 64 → images.1 = false → ends 5) ∧
     (s.fw.facts.otpOk = true → s.tamper.steps < 64 → images.1 = true → hbmStep (startValues images.2) = none → ends 5) ∧
     (∀ u, s.fw.facts.otpOk = true → s.tamper.steps < 64 → images.1 = true → hbmStep (startValues images.2) = some u →
       ((keysStep u).keys.resvFault = true → ends 5) ∧
       ((keysStep u).keys.resvFault = false → startMode (coresStep (keysStep u)) ≠ 8 → ends (startMode (coresStep (keysStep u)))) ∧
       ((keysStep u).keys.resvFault = false → startMode (coresStep (keysStep u)) = 8 →
         (startRest s).pair.listen = some (coresStep (keysStep u)).time.clock))) ∧
    (let due := s.sys.startup = true ∧ s.tamper.advBlocked = true ∧ s.tamper.vauxOk = true ∧ s.sys.held = false
     (due → s.tamper.pending.isSome = true → ∃ u, exec .advanceRetry s = .next (startRest u) ∧ Within [.tamper, .fw, .log] s u ∧
       u.tamper.pending = none ∧ u.tamper.advBlocked = false ∧ u.tamper.steps = min 64 (s.tamper.steps + 1)) ∧
     (¬ due → exec .advanceRetry s = .next s)) ∧
    (∀ at_, s.pair.listen = some at_ →
      (slotsPast s at_ 64 = true → ∃ t, exec .pairListenEnd s = .next t ∧ Within [.sys, .time, .ports, .skim, .publ, .pair, .log, .fw, .outbox] s t ∧
        t.pair.listen = none ∧ t.pair.standby = s.pair.listenHb ∧ t.sys.startup = false ∧
        mode t = (if s.pair.listenHb then 3 else 2) ∧
        t.pair.gen = (if s.pair.listenHb ∨ s.pair.gen = 0xFFFFFFFF then s.pair.gen else s.pair.gen + 1)) ∧
      (slotsPast s at_ 64 = false → exec .pairListenEnd s = .next s)) ∧
    (s.pair.listen = none → exec .pairListenEnd s = .next s))
end

