-- ==== Sys2Proof/Laws/Maps.lean ====
section
/-! SUPPORT. Maps.lean: the laws of tables, indexed lists and sparse memories: read after write, everything else left
alone, and the canonical form kept. -/
namespace Sys2Proof.Machine

theorem mget_mset_self {α : Type} (m : Map α) (k : Nat) (v : α) : mget (mset m k v) k = some v := by
  induction m with
  | nil => simp [mset, mget]
  | cons e m ih =>
    obtain ⟨k', v'⟩ := e
    unfold mset
    split
    · simp [mget]
    · split
      · simp [mget]
      · simp [mget, *]

theorem mget_mset_other {α : Type} (m : Map α) (k j : Nat) (v : α) (h : j ≠ k) : mget (mset m k v) j = mget m j := by
  induction m with
  | nil => simp [mset, mget, h]
  | cons e m ih =>
    obtain ⟨k', v'⟩ := e
    unfold mset
    split
    · simp [mget, h]
    · split
      · subst k'; simp [mget, h]
      · simp [mget, ih]

theorem mget_mupd_self {α : Type} (m : Map α) (k : Nat) (f : α → α) : mget (mupd m k f) k = (mget m k).map f := by
  induction m with
  | nil => rfl
  | cons e m ih =>
    obtain ⟨k', v'⟩ := e
    by_cases h : k = k' <;> simp [mupd, mget, h]
    rw [ih]

theorem mget_mupd_other {α : Type} (m : Map α) (k j : Nat) (f : α → α) (h : j ≠ k) :
    mget (mupd m k f) j = mget m j := by
  induction m with
  | nil => rfl
  | cons e m ih =>
    obtain ⟨k', v'⟩ := e
    by_cases e : k = k'
    · subst k'; simp [mupd, mget, h]
    · simp [mupd, mget, e, ih]

theorem mget_mdel_other {α : Type} (m : Map α) (k j : Nat) (h : j ≠ k) : mget (mdel m k) j = mget m j := by
  induction m with
  | nil => rfl
  | cons e m ih =>
    obtain ⟨k', v'⟩ := e
    by_cases e : k = k'
    · subst k'; simp [mdel, mget, h]
    · simp [mdel, mget, e, ih]

/-- Keys above one bound are above a lower one. -/
theorem msorted_weaken {α : Type} {lo hi : Nat} (h : lo ≤ hi) {m : Map α} (s : msorted (some hi) m = true) :
    msorted (some lo) m = true := by
  cases m with
  | nil => rfl
  | cons e m =>
    obtain ⟨k, v⟩ := e
    simp [msorted] at s ⊢
    exact ⟨by omega, s.2⟩

theorem msorted_none {α : Type} {lo : Nat} {m : Map α} (s : msorted (some lo) m = true) : msorted none m = true := by
  cases m with
  | nil => rfl
  | cons e m =>
    obtain ⟨k, v⟩ := e
    simp [msorted] at s ⊢
    exact s.2

theorem msorted_mset_some {α : Type} (m : Map α) (lo k : Nat) (v : α) (h : lo < k) (s : msorted (some lo) m = true) :
    msorted (some lo) (mset m k v) = true := by
  induction m generalizing lo with
  | nil => simp [mset, msorted, h]
  | cons e m ih =>
    obtain ⟨k', v'⟩ := e
    simp [msorted] at s
    unfold mset
    split
    · simp [msorted, *]
    · split
      · subst k'; simp [msorted, h, s.2]
      · simp [msorted, s.1]; exact ih k' (by omega) s.2

/-- Writing an entry keeps the keys rising. -/
theorem msorted_mset {α : Type} (m : Map α) (k : Nat) (v : α) (s : msorted none m = true) :
    msorted none (mset m k v) = true := by
  cases m with
  | nil => rfl
  | cons e m =>
    obtain ⟨k', v'⟩ := e
    simp [msorted] at s
    unfold mset
    split
    · simp [msorted, *]
    · split
      · subst k'; simp [msorted, s]
      · simp [msorted]; exact msorted_mset_some m k' k v (by omega) s

theorem msorted_mupd {α : Type} (m : Map α) (lo : Option Nat) (k : Nat) (f : α → α) :
    msorted lo (mupd m k f) = msorted lo m := by
  induction m generalizing lo with
  | nil => rfl
  | cons e m ih =>
    obtain ⟨k', v'⟩ := e
    unfold mupd
    split
    · cases lo <;> rfl
    · cases lo <;> simp [msorted, ih]

theorem msorted_mdel_some {α : Type} (m : Map α) (lo k : Nat) (s : msorted (some lo) m = true) :
    msorted (some lo) (mdel m k) = true := by
  induction m generalizing lo with
  | nil => rfl
  | cons e m ih =>
    obtain ⟨k', v'⟩ := e
    simp [msorted] at s
    unfold mdel
    split
    · exact msorted_weaken (by omega) s.2
    · simp [msorted, s.1]; exact ih k' s.2

theorem msorted_mdel {α : Type} (m : Map α) (k : Nat) (s : msorted none m = true) : msorted none (mdel m k) = true := by
  cases m with
  | nil => rfl
  | cons e m =>
    obtain ⟨k', v'⟩ := e
    simp [msorted] at s
    unfold mdel
    split
    · exact msorted_none s
    · simp [msorted]; exact msorted_mdel_some m k' k s

theorem length_lupd {α : Type} (l : List α) (i : Nat) (f : α → α) : (lupd l i f).length = l.length := by
  induction l generalizing i with
  | nil => rfl
  | cons a l ih => cases i <;> simp [lupd, ih]

theorem lget_lupd_self {α : Type} (l : List α) (i : Nat) (f : α → α) (d : α) (h : i < l.length) :
    lget (lupd l i f) i d = f (lget l i d) := by
  induction l generalizing i with
  | nil => simp at h
  | cons a l ih =>
    cases i with
    | zero => rfl
    | succ i => simpa [lupd, lget] using ih i (by simpa using h)

theorem lget_lupd_other {α : Type} (l : List α) (i j : Nat) (f : α → α) (d : α) (h : j ≠ i) :
    lget (lupd l i f) j d = lget l j d := by
  induction l generalizing i j with
  | nil => rfl
  | cons a l ih =>
    cases i with
    | zero =>
      cases j with
      | zero => exact absurd rfl h
      | succ j => rfl
    | succ i =>
      cases j with
      | zero => rfl
      | succ j => simpa [lupd, lget] using ih i j (by omega)

/-- An address below every listed one reads 0. -/
theorem memRd_below (m : List Host.Cell) (lo a : Nat) (w : memWf (some lo) m = true) (h : a ≤ lo) : memRd m a = 0 := by
  induction m generalizing lo with
  | nil => rfl
  | cons e m ih =>
    obtain ⟨k, v⟩ := e
    simp [memWf] at w
    have : a ≠ k := by omega
    simp [memRd, this]
    exact ih k w.2 (by omega)

theorem memWf_weaken {lo hi : Nat} (h : lo ≤ hi) {m : List Host.Cell} (w : memWf (some hi) m = true) :
    memWf (some lo) m = true := by
  cases m with
  | nil => rfl
  | cons e m =>
    obtain ⟨k, v⟩ := e
    simp [memWf] at w ⊢
    exact ⟨⟨by omega, w.1.2⟩, w.2⟩

theorem memWf_none {lo : Nat} {m : List Host.Cell} (w : memWf (some lo) m = true) : memWf none m = true := by
  cases m with
  | nil => rfl
  | cons e m =>
    obtain ⟨k, v⟩ := e
    simp [memWf] at w ⊢
    exact ⟨w.1.2, w.2⟩

theorem memWf_memWr_some (m : List Host.Cell) (lo a : Nat) (v : Byte) (h : lo < a) (w : memWf (some lo) m = true) :
    memWf (some lo) (memWr m a v) = true := by
  induction m generalizing lo with
  | nil =>
    unfold memWr
    split
    · rfl
    · simp [memWf, h]; exact ‹¬v = 0›
  | cons e m ih =>
    obtain ⟨k, v'⟩ := e
    simp [memWf] at w
    unfold memWr
    split
    · split
      · simp [memWf, w]
      · simp [memWf, h, w]; exact ⟨‹¬v = 0›, ‹a < k›⟩
    · split
      · subst k
        split
        · exact memWf_weaken (by omega) w.2
        · simp [memWf, h, w.2]; exact ‹¬v = 0›
      · simp [memWf, w.1]
        exact ih k (by omega) w.2

/-- Every write keeps the canonical form. -/
theorem memWf_memWr (m : List Host.Cell) (a : Nat) (v : Byte) (w : memWf none m = true) :
    memWf none (memWr m a v) = true := by
  cases m with
  | nil =>
    unfold memWr
    split
    · rfl
    · simp [memWf]; exact ‹¬v = 0›
  | cons e m =>
    obtain ⟨k, v'⟩ := e
    simp [memWf] at w
    unfold memWr
    split
    · split
      · simp [memWf, w]
      · simp [memWf, w]; exact ⟨‹¬v = 0›, ‹a < k›⟩
    · split
      · subst k
        split
        · exact memWf_none w.2
        · simp [memWf, w.2]; exact ‹¬v = 0›
      · simp [memWf, w.1]
        exact memWf_memWr_some m k a v (by omega) w.2

theorem memWf_memWrN (m : List Host.Cell) (a : Nat) (l : List Byte) (w : memWf none m = true) :
    memWf none (memWrN m a l) = true := by
  induction l generalizing m a with
  | nil => exact w
  | cons b l ih => exact ih _ _ (memWf_memWr m a b w)

/-- A write leaves every other octet alone. -/
theorem memRd_memWr_other (m : List Host.Cell) (a b : Nat) (v : Byte) (h : b ≠ a) : memRd (memWr m a v) b = memRd m b := by
  induction m with
  | nil =>
    unfold memWr
    split <;> simp [memRd, h]
  | cons e m ih =>
    obtain ⟨k, v'⟩ := e
    unfold memWr
    split
    · split
      · rfl
      · simp [memRd, h]
    · split
      · subst k
        split <;> simp [memRd, h]
      · simp [memRd, ih]

theorem memRd_memWr_self_some (m : List Host.Cell) (lo a : Nat) (v : Byte) (h : lo < a) (w : memWf (some lo) m = true) :
    memRd (memWr m a v) a = v := by
  induction m generalizing lo with
  | nil =>
    unfold memWr
    split
    · simp [memRd, *]
    · simp [memRd]
  | cons e m ih =>
    obtain ⟨k, v'⟩ := e
    simp [memWf] at w
    unfold memWr
    split
    · split
      · have : a ≠ k := by omega
        simp [memRd, this]
        rw [memRd_below m k a w.2 (by omega)]
        exact Eq.symm ‹v = 0›
      · simp [memRd]
    · split
      · subst k
        split
        · rw [memRd_below m a a w.2 (Nat.le_refl _)]
          exact Eq.symm ‹v = 0›
        · simp [memRd]
      · simp [memRd, *]
        exact ih k (by omega) w.2

/-- Reading back what was written. -/
theorem memRd_memWr_self (m : List Host.Cell) (a : Nat) (v : Byte) (w : memWf none m = true) :
    memRd (memWr m a v) a = v := by
  cases m with
  | nil =>
    unfold memWr
    split
    · simp [memRd, *]
    · simp [memRd]
  | cons e m =>
    obtain ⟨k, v'⟩ := e
    simp [memWf] at w
    unfold memWr
    split
    · split
      · have : a ≠ k := by omega
        simp [memRd, this]
        rw [memRd_below m k a w.2 (by omega)]
        exact Eq.symm ‹v = 0›
      · simp [memRd]
    · split
      · subst k
        split
        · rw [memRd_below m a a w.2 (Nat.le_refl _)]
          exact Eq.symm ‹v = 0›
        · simp [memRd]
      · simp [memRd, *]
        exact memRd_memWr_self_some m k a v (by omega) w.2

/-- Octets outside those written read as before. -/
theorem memRd_memWrN_other (m : List Host.Cell) (a b : Nat) (l : List Byte) (h : b < a ∨ a + l.length ≤ b) :
    memRd (memWrN m a l) b = memRd m b := by
  induction l generalizing m a with
  | nil => rfl
  | cons x l ih =>
    simp only [List.length_cons] at h
    rw [memWrN, ih (memWr m a x) (a + 1) (by omega), memRd_memWr_other m a b x (by omega)]

end Sys2Proof.Machine
end

