-- ==== Sys2Proof/Laws/Goes.lean ====
section
/-! SUPPORT. Laws/Goes.lean: the relation that every operation of the model keeps between the state before and after
it (Goes: legality, onward counters, untouched parts), its rules for record updates, folds and branches. -/
set_option linter.unusedSimpArgs false
set_option Elab.async false
namespace Sys2Proof.Machine

/-- What a way from one state to another keeps: a legal state stays legal and goes onward, and nothing outside the parts
named changes. -/
structure Goes (ps : List Part) (s t : State) : Prop where
  legal : Legal s → Legal t ∧ Onward s t
  within : Within ps s t
  canon : Canon s → Canon t

/-- The same of an outcome, where it is a next state. -/
structure GoesTo (ps : List Part) (s : State) (o : Host.Outcome State Fault Refusal) : Prop where
  holds : ∀ t, o = .next t → Goes ps s t

theorem Goes.rfl {ps : List Part} {s : State} : Goes ps s s :=
  ⟨fun h => ⟨h, Nat.le_refl _, Nat.le_refl _, Nat.le_refl _, Nat.le_refl _, Eq.refl _⟩, fun p _ => by cases p <;> exact Eq.refl _,
   fun c => c⟩

theorem Part.same_trans {p : Part} {s t u : State} (h : p.same s t) (g : p.same t u) : p.same s u := by
  cases p <;> exact g.trans h

theorem Goes.trans {ps : List Part} {s t u : State} (h : Goes ps s t) (g : Goes ps t u) : Goes ps s u :=
  ⟨fun l => by
    obtain ⟨lt, a, b, c, d, e⟩ := h.legal l
    obtain ⟨lu, a', b', c', d', e'⟩ := g.legal lt
    exact ⟨lu, Nat.le_trans a a', Nat.le_trans b b', Nat.le_trans c c', Nat.le_trans d d', e'.trans e⟩,
   fun p hp => Part.same_trans (h.within p hp) (g.within p hp), fun c => g.canon (h.canon c)⟩

theorem Goes.move {ps : List Part} {s0 s t : State} (h : Goes ps s0 s) (g : Legal s → Legal t ∧ Onward s t)
    (w : Within ps s t) (k : Canon s → Canon t := by exact fun c => c) : Goes ps s0 t := h.trans ⟨g, w, k⟩

/-- The fields of Sys that Legal and Onward speak of agree. -/
def SysSame (x y : Sys) : Prop :=
  y.mode = x.mode ∧ y.epoch = x.epoch ∧ y.epochTop = x.epochTop ∧ y.token = x.token ∧ y.tokenTop = x.tokenTop

/-- A state written field by field that a way leads to. -/
structure GoesMk (ps : List Part) (s0 : State) (x0 : Sys) (x1 : List Fn) (x2 : Map JEntry) (x3 : List Nat) (x4 :
    TimeUnit) (x5 : List Port) (x6 : List BpCfg) (x7 : Skim) (x8 : Hawk) (x9 : Trowel) (x10 : Publ) (x11 : Engines)
    (x12 : Pke) (x13 : Rng) (x14 : KeyStore) (x15 : Sealer) (x16 : Tamper) (x17 : Pair) (x18 : Span) (x19 : Recorder)
    (x20 : Budget) (x21 : Firmware) (x22 : List (Nat × Nat)) (x23 : Nat) (x24 : List Output) (x25 : List Instr) : Prop
    where
  holds : Goes ps s0 ⟨x0, x1, x2, x3, x4, x5, x6, x7, x8, x9, x10, x11, x12, x13, x14, x15, x16, x17, x18, x19, x20,
      x21, x22, x23, x24, x25⟩

theorem Goes.mk_eq {ps : List Part} {s0 : State} {x0 x1 x2 x3 x4 x5 x6 x7 x8 x9 x10 x11 x12 x13 x14 x15 x16 x17 x18
    x19 x20 x21 x22 x23 x24 x25} :
    Goes ps s0 ⟨x0, x1, x2, x3, x4, x5, x6, x7, x8, x9, x10, x11, x12, x13, x14, x15, x16, x17, x18, x19, x20, x21, x22,
        x23, x24, x25⟩ = GoesMk ps s0 x0 x1 x2 x3 x4 x5 x6 x7 x8 x9 x10 x11 x12 x13 x14 x15 x16 x17 x18 x19 x20 x21
        x22 x23 x24 x25 :=
  propext ⟨fun h => ⟨h⟩, fun h => h.holds⟩

/-- A record update: each part is as before or one of those named. -/
theorem GoesMk.upd {ps : List Part} {s0 s : State} {x0 x1 x2 x3 x4 x5 x6 x7 x8 x9 x10 x11 x12 x13 x14 x15 x16 x17 x18
    x19 x20 x21 x22 x23 x24} (h : Goes ps s0 s)
    (h_sys : x0 = s.sys ∨ Part.sys ∈ ps ∧ SysSame s.sys x0)
    (h_fns : x1 = s.fns ∨ Part.fns ∈ ps)
    (h_journal : x2 = s.journal ∨ Part.journal ∈ ps)
    (h_deferred : x3 = s.deferred ∨ Part.deferred ∈ ps)
    (h_time : x4 = s.time ∨ Part.time ∈ ps)
    (h_ports : x5 = s.ports ∨ Part.ports ∈ ps)
    (h_bpcfg : x6 = s.bpcfg ∨ Part.bpcfg ∈ ps)
    (h_skim : x7 = s.skim ∨ Part.skim ∈ ps)
    (h_hawk : x8 = s.hawk ∨ Part.hawk ∈ ps)
    (h_trowel : x9 = s.trowel ∨ Part.trowel ∈ ps ∧ (Canon s → ∀ e ∈ x9.progs, canonProg e.2))
    (h_publ : x10 = s.publ ∨ Part.publ ∈ ps)
    (h_eng : x11 = s.eng ∨ Part.eng ∈ ps)
    (h_pke : x12 = s.pke ∨ Part.pke ∈ ps)
    (h_rng : x13 = s.rng ∨ Part.rng ∈ ps)
    (h_keys : x14 = s.keys ∨ Part.keys ∈ ps ∧ x14.oepoch = s.keys.oepoch)
    (h_sealer : x15 = s.sealer ∨ Part.sealer ∈ ps)
    (h_tamper : x16 = s.tamper ∨ Part.tamper ∈ ps ∧ x16.steps = s.tamper.steps)
    (h_pair : x17 = s.pair ∨ Part.pair ∈ ps)
    (h_span : x18 = s.span ∨ Part.span ∈ ps)
    (h_log : x19 = s.log ∨ Part.log ∈ ps)
    (h_budget : x20 = s.budget ∨ Part.budget ∈ ps)
    (h_fw : x21 = s.fw ∨ Part.fw ∈ ps)
    (h_injected : x22 = s.injected ∨ Part.injected ∈ ps)
    (h_freeCtr : x23 = s.freeCtr ∨ Part.freeCtr ∈ ps)
    (h_outbox : x24 = s.outbox ∨ Part.outbox ∈ ps) :
    GoesMk ps s0 x0 x1 x2 x3 x4 x5 x6 x7 x8 x9 x10 x11 x12 x13 x14 x15 x16 x17 x18 x19 x20 x21 x22 x23 x24 s.pending :=
  ⟨h.trans ⟨fun l => by
    obtain ⟨l1, l2, l3, l4, l5⟩ := l
    have hs : SysSame s.sys x0 := h_sys.elim (fun e => by rw [e]; exact ⟨Eq.refl _, Eq.refl _, Eq.refl _, Eq.refl _, Eq.refl _⟩) (fun e => e.2)
    have hk : (x14).oepoch = s.keys.oepoch := h_keys.elim (fun e => by rw [e]) (fun e => e.2)
    have ht : (x16).steps = s.tamper.steps := h_tamper.elim (fun e => by rw [e]) (fun e => e.2)
    obtain ⟨g1, g2, g3, g4, g5⟩ := hs
    refine ⟨⟨?_, ?_, ?_, ?_, ?_⟩, ?_, ?_, ?_, ?_, Eq.refl _⟩ <;> simp only [g1, g2, g3, g4, g5, hk, ht] <;>
      first | assumption | exact Nat.le_refl _,
   fun p hp => by
    cases p
    case sys => exact h_sys.elim id (fun e => absurd e.1 hp)
    case fns => exact h_fns.elim id (fun e => absurd e hp)
    case journal => exact h_journal.elim id (fun e => absurd e hp)
    case deferred => exact h_deferred.elim id (fun e => absurd e hp)
    case time => exact h_time.elim id (fun e => absurd e hp)
    case ports => exact h_ports.elim id (fun e => absurd e hp)
    case bpcfg => exact h_bpcfg.elim id (fun e => absurd e hp)
    case skim => exact h_skim.elim id (fun e => absurd e hp)
    case hawk => exact h_hawk.elim id (fun e => absurd e hp)
    case trowel => exact h_trowel.elim id (fun e => absurd e.1 hp)
    case publ => exact h_publ.elim id (fun e => absurd e hp)
    case eng => exact h_eng.elim id (fun e => absurd e hp)
    case pke => exact h_pke.elim id (fun e => absurd e hp)
    case rng => exact h_rng.elim id (fun e => absurd e hp)
    case keys => exact h_keys.elim id (fun e => absurd e.1 hp)
    case sealer => exact h_sealer.elim id (fun e => absurd e hp)
    case tamper => exact h_tamper.elim id (fun e => absurd e.1 hp)
    case pair => exact h_pair.elim id (fun e => absurd e hp)
    case span => exact h_span.elim id (fun e => absurd e hp)
    case log => exact h_log.elim id (fun e => absurd e hp)
    case budget => exact h_budget.elim id (fun e => absurd e hp)
    case fw => exact h_fw.elim id (fun e => absurd e hp)
    case injected => exact h_injected.elim id (fun e => absurd e hp)
    case freeCtr => exact h_freeCtr.elim id (fun e => absurd e hp)
    case outbox => exact h_outbox.elim id (fun e => absurd e hp),
   fun c => h_trowel.elim (fun e => by intro x hx; exact c x (e ▸ hx)) (fun e => e.2 c)⟩⟩

/-- A fold of steps that each go. -/
theorem Goes.foldl {α : Type} {ps : List Part} {s0 s : State} {f : State → α → State} (l : List α) (h : Goes ps s0 s)
    (hf : ∀ s a, Goes ps s0 s → Goes ps s0 (f s a)) : Goes ps s0 (l.foldl f s) := by
  induction l generalizing s with
  | nil => exact h
  | cons a l ih => exact ih (hf s a h)

/-- A fold that carries a state and something else, whose steps each go. -/
theorem Goes.foldl1 {α β : Type} {ps : List Part} {s0 : State} {r : State × β} {f : State × β → α → State × β} (l :
    List α)
    (h : Goes ps s0 r.1) (hf : ∀ r a, Goes ps s0 r.1 → Goes ps s0 (f r a).1) : Goes ps s0 (l.foldl f r).1 := by
  induction l generalizing r with
  | nil => exact h
  | cons a l ih => exact ih (hf r a h)

theorem Goes.foldl2 {α β : Type} {ps : List Part} {s0 : State} {r : β × State} {f : β × State → α → β × State} (l :
    List α)
    (h : Goes ps s0 r.2) (hf : ∀ r a, Goes ps s0 r.2 → Goes ps s0 (f r a).2) : Goes ps s0 (l.foldl f r).2 := by
  induction l generalizing r with
  | nil => exact h
  | cons a l ih => exact ih (hf r a h)

theorem Goes.ite {ps : List Part} {s0 a b : State} {c : Prop} [Decidable c] (ha : Goes ps s0 a) (hb : Goes ps s0 b) :
    Goes ps s0 (if c then a else b) := by split <;> assumption

theorem GoesTo.next {ps : List Part} {s0 s : State} (h : Goes ps s0 s) : GoesTo ps s0 (.next s) :=
  ⟨fun t e => by cases e; exact h⟩

theorem GoesTo.refused {ps : List Part} {s0 : State} {r : Refusal} : GoesTo ps s0 (.refused r) := ⟨fun t e => by cases e⟩

/-- Parts that a callee reaches lie within those that its caller reaches. -/
theorem reach {ps l l' : List Part} (w : l ⊆ ps) (e : l'.all (fun p => l.contains p) = true) : l' ⊆ ps := fun p hp =>
  w (List.contains_iff_mem.1 (List.all_eq_true.1 e p hp))

theorem reachOne {ps l : List Part} {p : Part} (w : l ⊆ ps) (e : l.contains p = true) : p ∈ ps :=
  w (List.contains_iff_mem.1 e)


theorem canonProg_default : canonProg default := ⟨rfl, rfl, rfl⟩

theorem Canon.progOf {s : State} (c : Canon s) {p : Nat} {g : Prog} (e : progOf s p = some g) : canonProg g := by
  have : ∀ (m : Map Prog), (∀ e ∈ m, canonProg e.2) → mget m p = some g → canonProg g := fun m => by
    induction m with
    | nil => intro _ e; cases e
    | cons x m ih =>
      obtain ⟨k, v⟩ := x
      intro h e
      unfold mget at e
      split at e
      · cases e; exact h _ (List.mem_cons_self ..)
      · exact ih (fun y hy => h y (List.mem_cons_of_mem _ hy)) e
  exact this _ c e

theorem canon_mupd {m : Map Prog} {p : Nat} {f : Prog → Prog} (h : ∀ e ∈ m, canonProg e.2)
    (hf : ∀ g, canonProg g → canonProg (f g)) : ∀ e ∈ mupd m p f, canonProg e.2 := by
  induction m with
  | nil => exact h
  | cons x m ih =>
    obtain ⟨k, v⟩ := x
    have h1 := h (k, v) (List.mem_cons_self ..)
    have h2 : ∀ e ∈ m, canonProg e.2 := fun y hy => h y (List.mem_cons_of_mem _ hy)
    unfold mupd
    split <;> intro e he <;> rcases List.mem_cons.1 he with rfl | he
    · exact hf _ h1
    · exact h2 _ he
    · exact h1
    · exact ih h2 _ he

theorem canon_mset {m : Map Prog} {p : Nat} {g : Prog} (h : ∀ e ∈ m, canonProg e.2) (hg : canonProg g) :
    ∀ e ∈ mset m p g, canonProg e.2 := by
  induction m with
  | nil => intro e he; rcases List.mem_cons.1 he with rfl | he; exact hg; cases he
  | cons x m ih =>
    obtain ⟨k, v⟩ := x
    have h1 := h (k, v) (List.mem_cons_self ..)
    have h2 : ∀ e ∈ m, canonProg e.2 := fun y hy => h y (List.mem_cons_of_mem _ hy)
    unfold mset
    split
    · intro e he
      rcases List.mem_cons.1 he with rfl | he
      · exact hg
      · exact h _ he
    · split <;> intro e he <;> rcases List.mem_cons.1 he with rfl | he
      · exact hg
      · exact h2 _ he
      · exact h1
      · exact ih h2 _ he

theorem canon_mdel {m : Map Prog} {p : Nat} (h : ∀ e ∈ m, canonProg e.2) : ∀ e ∈ mdel m p, canonProg e.2 := by
  induction m with
  | nil => exact h
  | cons x m ih =>
    obtain ⟨k, v⟩ := x
    have h2 : ∀ e ∈ m, canonProg e.2 := fun y hy => h y (List.mem_cons_of_mem _ hy)
    unfold mdel
    split
    · exact h2
    · intro e he
      rcases List.mem_cons.1 he with rfl | he
      · exact h (k, v) (List.mem_cons_self ..)
      · exact ih h2 _ he

theorem canon_map {m : Map Prog} {f : Nat × Prog → Nat × Prog} (h : ∀ e ∈ m, canonProg e.2)
    (hf : ∀ e, canonProg e.2 → canonProg (f e).2) : ∀ e ∈ m.map f, canonProg e.2 := fun e he => by
  obtain ⟨x, hx, rfl⟩ := List.mem_map.1 he
  exact hf x (h x hx)

theorem canonData {g : Prog} {m : List Host.Cell} (h : canonProg g) (w : memWf none m = true) :
    canonProg { g with data := m } := ⟨w, h.2.1, h.2.2⟩

theorem memWf_wrote (a : Nat) (l : List Byte) : memWf none (memWrN [] a l) = true := memWf_memWrN [] a l rfl

theorem canonProg_of {g g' : Prog} (h : canonProg g) (a : g'.data = g.data) (b : g'.dwin = g.dwin) (c : g'.mbox =
    g.mbox) :
    canonProg g' := ⟨a ▸ h.1, b ▸ h.2.1, c ▸ h.2.2⟩

theorem id_canon : ∀ g : Prog, canonProg g → canonProg (id g) := fun _ h => h

theorem gset_canon {d : Fld4} {v : W32} {g : Prog} (h : canonProg g) : canonProg (gset d v g) := by
  unfold gset; split <;> exact h

theorem aset_canon {d : Fld4} {v : W64} {g : Prog} (h : canonProg g) : canonProg (aset d v g) := by
  unfold aset; split <;> exact h

theorem baseUpdate_canon {a : Fld4} {m : BitVec 3} {n : Nat} {g : Prog} (h : canonProg g) : canonProg (baseUpdate a m n g) := by
  unfold baseUpdate; split <;> first | with_reducible exact gset_canon h | exact h

theorem mbox_canon {a : Nat} {l : List Byte} {g : Prog} (h : canonProg g) :
    canonProg { g with mbox := memWrN g.mbox a l } := ⟨h.1, h.2.1, memWf_memWrN _ _ _ h.2.2⟩

theorem data_canon {a : Nat} {l : List Byte} {g : Prog} (h : canonProg g) :
    canonProg { g with data := memWrN g.data a l } := ⟨memWf_memWrN _ _ _ h.1, h.2⟩

theorem mbWr_canon {o : Nat} {v : W32} {g : Prog} (h : canonProg g) : canonProg (mbWr o v g) := mbox_canon h

theorem clearOut_canon {g : Prog} (h : canonProg g) : canonProg (clearOut g) := mbWr_canon (mbox_canon h)

end Sys2Proof.Machine
end

