-- ==== Sys2Proof/Laws/GoesCore.lean ====
section
/-! SUPPORT. Laws/GoesCore.lean: what every operation of the files Ops, Dado, Packets, Lath, Wire, Leaves, Index, Journal, Rng, Time, Seal, Cache, Ports, Reset, Rings, Rows does to
the state at most (f_goes; f_pair for one that answers a pair): the parts it reaches, legality kept, counters onward. -/
set_option linter.unusedSimpArgs false
namespace Sys2Proof.Machine

/-- A change of the system registers alone. -/
theorem sysOnly {ps : List Part} {s : State} {x : Sys} {l : List Part} (w : l ⊆ ps) (e : l.contains .sys = true) :
    Within ps s { s with sys := x } := fun p hp => by
  cases p
  case sys => exact absurd (reachOne w e) hp
  all_goals exact Eq.refl _

theorem emit_goes {ps : List Part} {s0 : State} (o : Output) (s : State) (h : Goes ps s0 s) (w : [.outbox] ⊆ ps) :
    Goes ps s0 (emit o s) := by
  unfold emit
  repeat' (first | with_reducible assumption | exact Or.inr (reachOne w (Eq.refl _)) | exact Or.inl rfl |
    simp only [Goes.mk_eq] | with_reducible apply GoesMk.upd)

theorem emits_goes {ps : List Part} {s0 : State} (os : List Output) (s : State) (h : Goes ps s0 s) (w : [.outbox] ⊆
    ps) : Goes ps s0 (emits os s) := by
  unfold emits
  repeat' (first
    | with_reducible assumption | exact Or.inr (reachOne w (Eq.refl _)) | exact Or.inl rfl | simp only [Goes.mk_eq]
    | with_reducible apply GoesMk.upd | dsimp only)

theorem updFn_goes {ps : List Part} {s0 : State} (f : Nat) (g : Fn → Fn) (s : State) (h : Goes ps s0 s) (w : [.fns] ⊆
    ps) : Goes ps s0 (updFn f g s) := by
  unfold updFn
  repeat' (first
    | with_reducible assumption | exact Or.inr (reachOne w (Eq.refl _)) | exact Or.inl rfl | simp only [Goes.mk_eq]
    | with_reducible apply GoesMk.upd | dsimp only)

theorem updQueue_goes {ps : List Part} {s0 : State} (f q : Nat) (g : Queue → Queue) (s : State) (h : Goes ps s0 s) (w
    : [.fns] ⊆ ps) : Goes ps s0 (updQueue f q g s) := by
  unfold updQueue
  repeat' (first
    | with_reducible assumption | exact reach w (Eq.refl _) | with_reducible apply updFn_goes
    | exact Or.inr (reachOne w (Eq.refl _)) | exact Or.inl rfl | simp only [Goes.mk_eq]
    | with_reducible apply GoesMk.upd | dsimp only)

theorem updRing_goes {ps : List Part} {s0 : State} (f r : Nat) (g : Ring → Ring) (s : State) (h : Goes ps s0 s) (w :
    [.fns] ⊆ ps) : Goes ps s0 (updRing f r g s) := by
  unfold updRing
  repeat' (first
    | with_reducible assumption | exact reach w (Eq.refl _) | with_reducible apply updFn_goes
    | exact Or.inr (reachOne w (Eq.refl _)) | exact Or.inl rfl | simp only [Goes.mk_eq]
    | with_reducible apply GoesMk.upd | dsimp only)

theorem updBp_goes {ps : List Part} {s0 : State} (b : Nat) (g : BpTime → BpTime) (s : State) (h : Goes ps s0 s) (w :
    [.time] ⊆ ps) : Goes ps s0 (updBp b g s) := by
  unfold updBp
  repeat' (first
    | with_reducible assumption | exact Or.inr (reachOne w (Eq.refl _)) | exact Or.inl rfl | simp only [Goes.mk_eq]
    | with_reducible apply GoesMk.upd | dsimp only)

theorem updTrk_goes {ps : List Part} {s0 : State} (b : Nat) (g : Tracker → Tracker) (s : State) (h : Goes ps s0 s) (w
    : [.time] ⊆ ps) : Goes ps s0 (updTrk b g s) := by
  unfold updTrk
  repeat' (first
    | with_reducible assumption | exact Or.inr (reachOne w (Eq.refl _)) | exact Or.inl rfl | simp only [Goes.mk_eq]
    | with_reducible apply GoesMk.upd | dsimp only)

theorem updPort_goes {ps : List Part} {s0 : State} (n : Nat) (g : Port → Port) (s : State) (h : Goes ps s0 s) (w :
    [.ports] ⊆ ps) : Goes ps s0 (updPort n g s) := by
  unfold updPort
  repeat' (first
    | with_reducible assumption | exact Or.inr (reachOne w (Eq.refl _)) | exact Or.inl rfl | simp only [Goes.mk_eq]
    | with_reducible apply GoesMk.upd | dsimp only)

theorem updCfg_goes {ps : List Part} {s0 : State} (b : Nat) (g : BpCfg → BpCfg) (s : State) (h : Goes ps s0 s) (w :
    [.bpcfg] ⊆ ps) : Goes ps s0 (updCfg b g s) := by
  unfold updCfg
  repeat' (first
    | with_reducible assumption | exact Or.inr (reachOne w (Eq.refl _)) | exact Or.inl rfl | simp only [Goes.mk_eq]
    | with_reducible apply GoesMk.upd | dsimp only)

theorem dirtyCtx_goes {ps : List Part} {s0 : State} (k : Nat) (s : State) (h : Goes ps s0 s) (w : [.skim] ⊆ ps) : Goes
    ps s0 (dirtyCtx k s) := by
  unfold dirtyCtx
  repeat' (first
    | with_reducible assumption | with_reducible apply Goes.ite | exact Or.inr (reachOne w (Eq.refl _))
    | exact Or.inl rfl | simp only [Goes.mk_eq] | with_reducible apply GoesMk.upd | split | dsimp only)

theorem updCtx_goes {ps : List Part} {s0 : State} (k : Nat) (g : Ctx → Ctx) (s : State) (h : Goes ps s0 s) (w :
    [.skim] ⊆ ps) : Goes ps s0 (updCtx k g s) := by
  unfold updCtx
  repeat' (first
    | with_reducible assumption | exact reach w (Eq.refl _) | with_reducible apply dirtyCtx_goes
    | exact Or.inr (reachOne w (Eq.refl _)) | exact Or.inl rfl | simp only [Goes.mk_eq]
    | with_reducible apply GoesMk.upd | dsimp only)

theorem updProg_goes {ps : List Part} {s0 : State} (p : Nat) (g : Prog → Prog) (s : State) (h : Goes ps s0 s)
    (hg : ∀ g', canonProg g' → canonProg (g g')) (w : [.trowel] ⊆ ps) : Goes ps s0 (updProg p g s) := by
  unfold updProg
  repeat' (first | with_reducible assumption | exact Or.inr ⟨reachOne w (Eq.refl _), fun c => canon_mupd c hg⟩ |
    exact Or.inl rfl | simp only [Goes.mk_eq] | with_reducible apply GoesMk.upd)

theorem updJ_goes {ps : List Part} {s0 : State} (t : Nat) (g : JEntry → JEntry) (s : State) (h : Goes ps s0 s) (w :
    [.journal] ⊆ ps) : Goes ps s0 (updJ t g s) := by
  unfold updJ
  repeat' (first
    | with_reducible assumption | exact Or.inr (reachOne w (Eq.refl _)) | exact Or.inl rfl | simp only [Goes.mk_eq]
    | with_reducible apply GoesMk.upd | dsimp only)

theorem updReg_goes {ps : List Part} {s0 : State} (r : Nat) (g : Region → Region) (s : State) (h : Goes ps s0 s) (w :
    [.sealer] ⊆ ps) : Goes ps s0 (updReg r g s) := by
  unfold updReg
  repeat' (first
    | with_reducible assumption | exact Or.inr (reachOne w (Eq.refl _)) | exact Or.inl rfl | simp only [Goes.mk_eq]
    | with_reducible apply GoesMk.upd | dsimp only)

theorem updVol_goes {ps : List Part} {s0 : State} (g : Volume → Volume) (s : State) (h : Goes ps s0 s) (w : [.sealer]
    ⊆ ps) : Goes ps s0 (updVol g s) := by
  unfold updVol
  repeat' (first
    | with_reducible assumption | exact Or.inr (reachOne w (Eq.refl _)) | exact Or.inl rfl | simp only [Goes.mk_eq]
    | with_reducible apply GoesMk.upd | dsimp only)

theorem updLink_goes {ps : List Part} {s0 : State} (l : Nat) (g : SpanLink → SpanLink) (s : State) (h : Goes ps s0 s)
    (w : [.span] ⊆ ps) : Goes ps s0 (updLink l g s) := by
  unfold updLink
  repeat' (first
    | with_reducible assumption | exact Or.inr (reachOne w (Eq.refl _)) | exact Or.inl rfl | simp only [Goes.mk_eq]
    | with_reducible apply GoesMk.upd | dsimp only)

theorem updSrc_goes {ps : List Part} {s0 : State} (i : Nat) (g : TmpSrc → TmpSrc) (s : State) (h : Goes ps s0 s) (w :
    [.tamper] ⊆ ps) : Goes ps s0 (updSrc i g s) := by
  unfold updSrc
  repeat' (first
    | with_reducible assumption | exact Or.inr (reachOne w (Eq.refl _)) | exact Or.inr ⟨reachOne w (Eq.refl _), rfl⟩
    | exact Or.inl rfl | simp only [Goes.mk_eq] | with_reducible apply GoesMk.upd | dsimp only)

theorem updUnit_goes {ps : List Part} {s0 : State} (i : Nat) (g : PkeUnit → PkeUnit) (s : State) (h : Goes ps s0 s) (w
    : [.pke] ⊆ ps) : Goes ps s0 (updUnit i g s) := by
  unfold updUnit
  repeat' (first
    | with_reducible assumption | exact Or.inr (reachOne w (Eq.refl _)) | exact Or.inl rfl | simp only [Goes.mk_eq]
    | with_reducible apply GoesMk.upd | dsimp only)

theorem cntSkim_goes {ps : List Part} {s0 : State} (i n : Nat) (s : State) (h : Goes ps s0 s) (w : [.skim] ⊆ ps) :
    Goes ps s0 (cntSkim i n s) := by
  unfold cntSkim
  repeat' (first
    | with_reducible assumption | exact Or.inr (reachOne w (Eq.refl _)) | exact Or.inl rfl | simp only [Goes.mk_eq]
    | with_reducible apply GoesMk.upd | dsimp only)

theorem cntHawk_goes {ps : List Part} {s0 : State} (i n : Nat) (s : State) (h : Goes ps s0 s) (w : [.hawk] ⊆ ps) :
    Goes ps s0 (cntHawk i n s) := by
  unfold cntHawk
  repeat' (first
    | with_reducible assumption | exact Or.inr (reachOne w (Eq.refl _)) | exact Or.inl rfl | simp only [Goes.mk_eq]
    | with_reducible apply GoesMk.upd | dsimp only)

theorem cntTrw_goes {ps : List Part} {s0 : State} (i n : Nat) (s : State) (h : Goes ps s0 s) (w : [.trowel] ⊆ ps) :
    Goes ps s0 (cntTrw i n s) := by
  unfold cntTrw
  repeat' (first
    | with_reducible assumption | exact Or.inr (reachOne w (Eq.refl _))
    | exact Or.inr ⟨reachOne w (Eq.refl _), fun c => c⟩ | exact Or.inl rfl | simp only [Goes.mk_eq]
    | with_reducible apply GoesMk.upd | dsimp only)

theorem cntEng_goes {ps : List Part} {s0 : State} (i n : Nat) (s : State) (h : Goes ps s0 s) (w : [.eng] ⊆ ps) : Goes
    ps s0 (cntEng i n s) := by
  unfold cntEng
  repeat' (first
    | with_reducible assumption | exact Or.inr (reachOne w (Eq.refl _)) | exact Or.inl rfl | simp only [Goes.mk_eq]
    | with_reducible apply GoesMk.upd | dsimp only)

theorem cntPke_goes {ps : List Part} {s0 : State} (i n : Nat) (s : State) (h : Goes ps s0 s) (w : [.pke] ⊆ ps) : Goes
    ps s0 (cntPke i n s) := by
  unfold cntPke
  repeat' (first
    | with_reducible assumption | exact Or.inr (reachOne w (Eq.refl _)) | exact Or.inl rfl | simp only [Goes.mk_eq]
    | with_reducible apply GoesMk.upd | dsimp only)

theorem cntRng_goes {ps : List Part} {s0 : State} (i n : Nat) (s : State) (h : Goes ps s0 s) (w : [.rng] ⊆ ps) : Goes
    ps s0 (cntRng i n s) := by
  unfold cntRng
  repeat' (first
    | with_reducible assumption | exact Or.inr (reachOne w (Eq.refl _)) | exact Or.inl rfl | simp only [Goes.mk_eq]
    | with_reducible apply GoesMk.upd | dsimp only)

theorem cntKst_goes {ps : List Part} {s0 : State} (i n : Nat) (s : State) (h : Goes ps s0 s) (w : [.keys] ⊆ ps) : Goes
    ps s0 (cntKst i n s) := by
  unfold cntKst
  repeat' (first
    | with_reducible assumption | exact Or.inr (reachOne w (Eq.refl _)) | exact Or.inr ⟨reachOne w (Eq.refl _), rfl⟩
    | exact Or.inl rfl | simp only [Goes.mk_eq] | with_reducible apply GoesMk.upd | dsimp only)

theorem cntSlr_goes {ps : List Part} {s0 : State} (i n : Nat) (s : State) (h : Goes ps s0 s) (w : [.sealer] ⊆ ps) :
    Goes ps s0 (cntSlr i n s) := by
  unfold cntSlr
  repeat' (first
    | with_reducible assumption | exact Or.inr (reachOne w (Eq.refl _)) | exact Or.inl rfl | simp only [Goes.mk_eq]
    | with_reducible apply GoesMk.upd | dsimp only)

theorem cntPrc_goes {ps : List Part} {s0 : State} (i n : Nat) (s : State) (h : Goes ps s0 s) (w : [.pair] ⊆ ps) : Goes
    ps s0 (cntPrc i n s) := by
  unfold cntPrc
  repeat' (first
    | with_reducible assumption | exact Or.inr (reachOne w (Eq.refl _)) | exact Or.inl rfl | simp only [Goes.mk_eq]
    | with_reducible apply GoesMk.upd | dsimp only)

theorem cntSpn_goes {ps : List Part} {s0 : State} (i n : Nat) (s : State) (h : Goes ps s0 s) (w : [.span] ⊆ ps) : Goes
    ps s0 (cntSpn i n s) := by
  unfold cntSpn
  repeat' (first
    | with_reducible assumption | exact Or.inr (reachOne w (Eq.refl _)) | exact Or.inl rfl | simp only [Goes.mk_eq]
    | with_reducible apply GoesMk.upd | dsimp only)

theorem cntDdo_goes {ps : List Part} {s0 : State} (i n : Nat) (s : State) (h : Goes ps s0 s) (w : [.sys] ⊆ ps) : Goes
    ps s0 (cntDdo i n s) := by
  unfold cntDdo
  repeat' (first
    | with_reducible assumption | exact Or.inr (reachOne w (Eq.refl _)) | exact Or.inr ⟨reachOne w (Eq.refl _), rfl⟩
    | exact Or.inr ⟨reachOne w (Eq.refl _), rfl, rfl, rfl, rfl, rfl⟩ | exact Or.inl rfl | simp only [Goes.mk_eq]
    | with_reducible apply GoesMk.upd | dsimp only)

theorem cntBgt_goes {ps : List Part} {s0 : State} (i n : Nat) (s : State) (h : Goes ps s0 s) (w : [.budget] ⊆ ps) :
    Goes ps s0 (cntBgt i n s) := by
  unfold cntBgt
  repeat' (first
    | with_reducible assumption | exact Or.inr (reachOne w (Eq.refl _)) | exact Or.inl rfl | simp only [Goes.mk_eq]
    | with_reducible apply GoesMk.upd | dsimp only)

theorem cntPort_goes {ps : List Part} {s0 : State} (p i n : Nat) (s : State) (h : Goes ps s0 s) (w : [.ports] ⊆ ps) :
    Goes ps s0 (cntPort p i n s) := by
  unfold cntPort
  repeat' (first
    | with_reducible assumption | exact reach w (Eq.refl _) | with_reducible apply updPort_goes
    | exact Or.inr (reachOne w (Eq.refl _)) | exact Or.inl rfl | simp only [Goes.mk_eq]
    | with_reducible apply GoesMk.upd | dsimp only)

theorem cntLink_goes {ps : List Part} {s0 : State} (l i n : Nat) (s : State) (h : Goes ps s0 s) (w : [.span] ⊆ ps) :
    Goes ps s0 (cntLink l i n s) := by
  unfold cntLink
  repeat' (first
    | with_reducible assumption | exact reach w (Eq.refl _) | with_reducible apply updLink_goes
    | exact Or.inr (reachOne w (Eq.refl _)) | exact Or.inl rfl | simp only [Goes.mk_eq]
    | with_reducible apply GoesMk.upd | dsimp only)

theorem cntCtx_goes {ps : List Part} {s0 : State} (k i n : Nat) (s : State) (h : Goes ps s0 s) (w : [.skim] ⊆ ps) :
    Goes ps s0 (cntCtx k i n s) := by
  unfold cntCtx
  repeat' (first
    | with_reducible assumption | exact reach w (Eq.refl _) | with_reducible apply updCtx_goes
    | exact Or.inr (reachOne w (Eq.refl _)) | exact Or.inl rfl | simp only [Goes.mk_eq]
    | with_reducible apply GoesMk.upd | dsimp only)

theorem countDrop_goes {ps : List Part} {s0 : State} (s : State) (h : Goes ps s0 s) (w : [.log] ⊆ ps) : Goes ps s0
    (countDrop s) := by
  unfold countDrop
  repeat' (first
    | with_reducible assumption | with_reducible apply Goes.ite | exact Or.inr (reachOne w (Eq.refl _))
    | exact Or.inl rfl | simp only [Goes.mk_eq] | with_reducible apply GoesMk.upd | split | dsimp only)

theorem logEv_goes {ps : List Part} {s0 : State} (type sev : Nat) (body : List W64) (s : State) (h : Goes ps s0 s) (w
    : [.log] ⊆ ps) : Goes ps s0 (logEv type sev body s) := by
  unfold logEv
  repeat' (first
    | with_reducible assumption | exact reach w (Eq.refl _) | with_reducible apply countDrop_goes
    | with_reducible apply Goes.ite | exact Or.inr (reachOne w (Eq.refl _)) | exact Or.inl rfl
    | simp only [Goes.mk_eq] | with_reducible apply GoesMk.upd | split | dsimp only)

/-- The part that holds the main EVT register of a window. -/
def evtPart (w : Nat) : Part :=
  ([.sys, .tamper, .log, .budget, .time, .skim, .hawk, .trowel, .sealer, .keys, .rng, .eng, .span, .pair] : List Part).getD w .sys

theorem setEvt_goes {ps : List Part} {s0 : State} (n b : Nat) (s : State) (h : Goes ps s0 s) (w : [evtPart n] ⊆ ps) :
    Goes ps s0 (setEvt n b s) := by
  have g : evtPart n ∈ ps := w (List.mem_singleton.2 (Eq.refl _))
  unfold setEvt
  split
  all_goals
    repeat' (first | with_reducible assumption | exact Or.inr g | exact Or.inr ⟨g, rfl⟩ | exact Or.inr ⟨g, fun c => c⟩ |
      exact Or.inr ⟨g, rfl, rfl, rfl, rfl, rfl⟩ | exact Or.inl rfl | simp only [Goes.mk_eq] |
      with_reducible apply GoesMk.upd)

theorem event_goes {ps : List Part} {s0 : State} (n b : Nat) (s : State) (h : Goes ps s0 s) (w : [evtPart n, .log] ⊆ ps) :
    Goes ps s0 (event n b s) := by
  unfold event
  exact logEv_goes _ _ _ _ (setEvt_goes _ _ _ h fun p hp => w (by simp_all)) fun p hp => w (by simp_all)

theorem eventB_goes {ps : List Part} {s0 : State} (n b : Nat) (hi : W32) (body : List W64) (s : State) (h : Goes ps s0 s) (w : [evtPart n, .log] ⊆ ps) :
    Goes ps s0 (eventB n b hi body s) := by
  unfold eventB
  exact logEv_goes _ _ _ _ (setEvt_goes _ _ _ h fun p hp => w (by simp_all)) fun p hp => w (by simp_all)

theorem portEvent_goes {ps : List Part} {s0 : State} (n b : Nat) (s : State) (h : Goes ps s0 s) (w : [.ports, .log] ⊆
    ps) : Goes ps s0 (portEvent n b s) := by
  unfold portEvent
  repeat' (first
    | with_reducible assumption | exact reach w (Eq.refl _) | with_reducible apply updPort_goes
    | with_reducible apply logEv_goes | exact Or.inr (reachOne w (Eq.refl _)) | exact Or.inl rfl
    | simp only [Goes.mk_eq] | with_reducible apply GoesMk.upd | dsimp only)

theorem pkeEvent_goes {ps : List Part} {s0 : State} (b : Nat) (s : State) (h : Goes ps s0 s) (w : [.pke, .log] ⊆ ps) :
    Goes ps s0 (pkeEvent b s) := by
  unfold pkeEvent
  repeat' (first
    | with_reducible assumption | exact reach w (Eq.refl _) | with_reducible apply logEv_goes
    | exact Or.inr (reachOne w (Eq.refl _)) | exact Or.inl rfl | simp only [Goes.mk_eq]
    | with_reducible apply GoesMk.upd | dsimp only)

theorem fnEvent_goes {ps : List Part} {s0 : State} (f b i : Nat) (s : State) (h : Goes ps s0 s) (w : [.fns, .log] ⊆
    ps) : Goes ps s0 (fnEvent f b i s) := by
  unfold fnEvent
  repeat' (first
    | with_reducible assumption | exact reach w (Eq.refl _) | with_reducible apply updFn_goes
    | with_reducible apply logEv_goes | with_reducible apply Goes.ite | exact Or.inr (reachOne w (Eq.refl _))
    | exact Or.inl rfl | simp only [Goes.mk_eq] | with_reducible apply GoesMk.upd | split | dsimp only)

theorem setModeField_goes {ps : List Part} {s0 : State} (m : Nat) (s : State) (h : Goes ps s0 s) (w : [.sys] ⊆ ps) (hm : m ≤ 7) :
    Goes ps s0 (setModeField m s) := by
  have e : (BitVec.ofNat 32 m).toNat = m := by rw [BitVec.toNat_ofNat]; exact Nat.mod_eq_of_lt (by omega)
  exact h.move (fun ⟨_, _, l3, l4, l5⟩ => ⟨⟨rfl, e.symm ▸ hm, l3, l4, l5⟩, Nat.le_refl _, Nat.le_refl _, Nat.le_refl _,
    Nat.le_refl _, Eq.refl _⟩) (sysOnly w rfl)

theorem bumpEpoch_goes {ps : List Part} {s0 : State} (s : State) (h : Goes ps s0 s) (w : [.sys] ⊆ ps) : Goes ps s0 (bumpEpoch s) :=
  h.move (fun ⟨l1, l2, l3, l4, l5⟩ =>
    ⟨⟨l1, l2, by unfold bumpEpoch; dsimp only; split <;> omega, l4, l5⟩, Nat.le_succ _, Nat.le_refl _, Nat.le_refl _, Nat.le_refl _,
      Eq.refl _⟩) (sysOnly w rfl)

theorem changeMode_goes {ps : List Part} {s0 : State} (m : Nat) (s : State) (h : Goes ps s0 s) (w : [.sys, .log] ⊆ ps) (hm : m ≤ 7) :
    Goes ps s0 (changeMode m s) := by
  unfold changeMode
  split
  · exact h
  · exact logEv_goes _ _ _ _ (setEvt_goes _ _ _ (setModeField_goes m s h (reach w rfl) hm) (reach w rfl)) (reach w rfl)

theorem mirrorItem_goes {ps : List Part} {s0 : State} (m : MirrorItem) (s : State) (h : Goes ps s0 s) (w : [.outbox] ⊆
    ps) : Goes ps s0 (mirrorItem m s) := by
  unfold mirrorItem
  repeat' (first
    | with_reducible assumption | exact reach w (Eq.refl _) | with_reducible apply emit_goes
    | with_reducible apply Goes.ite | split | dsimp only)

theorem enterMode_goes {ps : List Part} {s0 : State} (m : Nat) (s : State) (h : Goes ps s0 s) (w : [.sys, .log, .outbox] ⊆ ps) (hm : m ≤ 7) :
    Goes ps s0 (enterMode m s) := by
  unfold enterMode
  split
  · exact h
  · exact bumpEpoch_goes _ (changeMode_goes m _ (mirrorItem_goes _ _ h (reach w rfl)) (reach w rfl) hm) (reach w rfl)

theorem bumpMirrored_goes {ps : List Part} {s0 : State} (s : State) (h : Goes ps s0 s) (w : [.sys, .outbox] ⊆ ps) :
    Goes ps s0 (bumpMirrored s) := by
  unfold bumpMirrored
  repeat' (first
    | with_reducible assumption | exact reach w (Eq.refl _) | with_reducible apply bumpEpoch_goes
    | with_reducible apply mirrorItem_goes | dsimp only)

theorem nextToken_goes {ps : List Part} {s0 : State} (s : State) (h : Goes ps s0 s) (w : [.sys] ⊆ ps) : Goes ps s0 (nextToken s).2 :=
  h.move (fun ⟨l1, l2, l3, l4, l5⟩ =>
    ⟨⟨l1, l2, l3, by unfold nextToken; dsimp only; split <;> omega, l5⟩, Nat.le_refl _, Nat.le_succ _, Nat.le_refl _,
      Nat.le_refl _, Eq.refl _⟩) (sysOnly w rfl)

theorem nextToken_pair {ps : List Part} {s0 s1 s : State} {z} (e : nextToken s = (z, s1)) (h : Goes ps s0 s) (w : [.sys] ⊆ ps) :
    Goes ps s0 s1 := by
  have g := nextToken_goes s h w
  rw [e] at g; exact g

theorem fresh_goes {ps : List Part} {s0 : State} (s : State) (h : Goes ps s0 s) (w : [.freeCtr] ⊆ ps) : Goes ps s0
    (fresh s).2 := by
  unfold fresh
  repeat' (first
    | with_reducible assumption | exact Or.inr (reachOne w (Eq.refl _)) | exact Or.inl rfl | simp only [Goes.mk_eq]
    | with_reducible apply GoesMk.upd | dsimp only)

theorem fresh_pair {ps : List Part} {s0 s1 : State} {s : State} {z} (e : fresh s = (z, s1)) (h : Goes ps s0 s) (w :
    [.freeCtr] ⊆ ps) : Goes ps s0 s1 := by
  have g := fresh_goes (s0 := s0) s h w
  rw [e] at g; exact g

theorem portStateLog_goes {ps : List Part} {s0 : State} (n old new : Nat) (s : State) (h : Goes ps s0 s) (w : [.log] ⊆
    ps) : Goes ps s0 (portStateLog n old new s) := by
  unfold portStateLog
  repeat' (first
    | with_reducible assumption | exact reach w (Eq.refl _) | with_reducible apply logEv_goes | dsimp only)

theorem measure_goes {ps : List Part} {s0 : State} (i : Nat) (m : List Byte) (s : State) (h : Goes ps s0 s) (w :
    [.log, .fw] ⊆ ps) : Goes ps s0 (measure i m s) := by
  unfold measure
  repeat' (first
    | with_reducible assumption | exact reach w (Eq.refl _) | with_reducible apply logEv_goes
    | exact Or.inr (reachOne w (Eq.refl _)) | exact Or.inl rfl | simp only [Goes.mk_eq]
    | with_reducible apply GoesMk.upd | dsimp only)

theorem guarShort_goes {ps : List Part} {s0 : State} (e : Nat) (s : State) (h : Goes ps s0 s) (w : [.log, .budget] ⊆
    ps) : Goes ps s0 (guarShort e s) := by
  unfold guarShort
  repeat' (first
    | with_reducible assumption | exact reach w (Eq.refl _) | with_reducible apply cntBgt_goes
    | with_reducible apply event_goes | with_reducible apply Goes.ite | exact Or.inr (reachOne w (Eq.refl _))
    | exact Or.inl rfl | simp only [Goes.mk_eq] | with_reducible apply GoesMk.upd | split | dsimp only)

theorem charge_goes {ps : List Part} {s0 : State} (e c f cycles : Nat) (s : State) (h : Goes ps s0 s) (w : [.log,
    .budget] ⊆ ps) : Goes ps s0 (charge e c f cycles s) := by
  unfold charge
  repeat' (first
    | with_reducible assumption | exact reach w (Eq.refl _) | with_reducible apply guarShort_goes
    | with_reducible apply Goes.ite | exact Or.inr (reachOne w (Eq.refl _)) | exact Or.inl rfl
    | simp only [Goes.mk_eq] | with_reducible apply GoesMk.upd | split | dsimp only)

theorem workFor_goes {ps : List Part} {s0 : State} (kind amount e c f : Nat) (s : State) (h : Goes ps s0 s) (w :
    [.log, .budget] ⊆ ps) : Goes ps s0 (workFor kind amount e c f s) := by
  unfold workFor
  repeat' (first
    | with_reducible assumption | exact reach w (Eq.refl _) | with_reducible apply charge_goes | dsimp only)

theorem openWork_goes {ps : List Part} {s0 : State} (kind amount e c : Nat) (s : State) (h : Goes ps s0 s) (w : [.log,
    .budget] ⊆ ps) : Goes ps s0 (openWork kind amount e c s) := by
  unfold openWork
  repeat' (first
    | with_reducible assumption | exact reach w (Eq.refl _) | with_reducible apply workFor_goes | dsimp only)

theorem hostMove_goes {ps : List Part} {s0 : State} (octs f : Nat) (s : State) (h : Goes ps s0 s) (w : [.log, .budget]
    ⊆ ps) : Goes ps s0 (hostMove octs f s) := by
  unfold hostMove
  repeat' (first
    | with_reducible assumption | exact reach w (Eq.refl _) | with_reducible apply workFor_goes
    | with_reducible apply Goes.ite | split | dsimp only)

theorem clientOp_goes {ps : List Part} {s0 : State} (owner alg : Nat) (s : State) (h : Goes ps s0 s) (w : [.pke] ⊆ ps)
    : Goes ps s0 (clientOp owner alg s) := by
  unfold clientOp
  repeat' (first
    | with_reducible assumption | exact reach w (Eq.refl _) | with_reducible apply updUnit_goes
    | exact Or.inr (reachOne w (Eq.refl _)) | exact Or.inl rfl | simp only [Goes.mk_eq]
    | with_reducible apply GoesMk.upd | split | dsimp only)

theorem clientWork_goes {ps : List Part} {s0 : State} (owner alg cycles f : Nat) (s : State) (h : Goes ps s0 s) (w :
    [.pke, .log, .budget] ⊆ ps) : Goes ps s0 (clientWork owner alg cycles f s) := by
  unfold clientWork
  repeat' (first
    | with_reducible assumption | exact reach w (Eq.refl _) | with_reducible apply clientOp_goes
    | with_reducible apply cntPke_goes | with_reducible apply charge_goes | dsimp only)

theorem verifyWork_goes {ps : List Part} {s0 : State} (owner f : Nat) (s : State) (h : Goes ps s0 s) (w : [.pke, .log,
    .budget] ⊆ ps) : Goes ps s0 (verifyWork owner f s) := by
  unfold verifyWork
  repeat' (first
    | with_reducible assumption | exact reach w (Eq.refl _) | with_reducible apply clientWork_goes | dsimp only)

theorem signWork_goes {ps : List Part} {s0 : State} (owner f : Nat) (s : State) (h : Goes ps s0 s) (w : [.pke, .log,
    .budget] ⊆ ps) : Goes ps s0 (signWork owner f s) := by
  unfold signWork
  repeat' (first
    | with_reducible assumption | exact reach w (Eq.refl _) | with_reducible apply clientWork_goes | dsimp only)

theorem tokensWork_goes {ps : List Part} {s0 : State} (n f : Nat) (s : State) (h : Goes ps s0 s) (w : [.pke, .log,
    .budget] ⊆ ps) : Goes ps s0 (tokensWork n f s) := by
  unfold tokensWork
  repeat' (first
    | with_reducible assumption | exact reach w (Eq.refl _) | intro _ | with_reducible apply verifyWork_goes
    | with_reducible apply Goes.foldl | with_reducible apply Goes.foldl1 | with_reducible apply Goes.foldl2
    | dsimp only)

theorem imageWork_goes {ps : List Part} {s0 : State} (owner f n : Nat) (s : State) (h : Goes ps s0 s) (w : [.pke,
    .log, .budget] ⊆ ps) : Goes ps s0 (imageWork owner f n s) := by
  unfold imageWork
  repeat' (first
    | with_reducible assumption | exact reach w (Eq.refl _) | with_reducible apply charge_goes
    | with_reducible apply verifyWork_goes | dsimp only)

theorem takeLane_goes {ps : List Part} {s0 : State} (e client tok : Nat) (regs : List Byte) (s : State) (h : Goes ps
    s0 s) (w : [.eng] ⊆ ps) : Goes ps s0 (takeLane e client tok regs s) := by
  unfold takeLane
  repeat' (first
    | with_reducible assumption | with_reducible apply Goes.ite | exact Or.inr (reachOne w (Eq.refl _))
    | exact Or.inl rfl | simp only [Goes.mk_eq] | with_reducible apply GoesMk.upd | split | dsimp only)

theorem engineWork_goes {ps : List Part} {s0 : State} (e c f cycles client tok : Nat) (regs : List Byte) (s : State)
    (h : Goes ps s0 s) (w : [.eng, .log, .budget] ⊆ ps) : Goes ps s0 (engineWork e c f cycles client tok regs s) := by
  unfold engineWork
  repeat' (first
    | with_reducible assumption | exact reach w (Eq.refl _) | with_reducible apply takeLane_goes
    | with_reducible apply charge_goes | dsimp only)

theorem tagWork_goes {ps : List Part} {s0 : State} (alg c client : Nat) (key octs : List Byte) (s : State) (h : Goes
    ps s0 s) (w : [.eng, .log, .budget] ⊆ ps) : Goes ps s0 (tagWork alg c client key octs s) := by
  unfold tagWork
  repeat' (first
    | with_reducible assumption | exact reach w (Eq.refl _) | with_reducible apply engineWork_goes
    | with_reducible apply Goes.ite | split | dsimp only)

theorem generateWork_goes {ps : List Part} {s0 : State} (f i n : Nat) (key : List Byte) (s : State) (h : Goes ps s0 s)
    (w : [.eng, .log, .budget] ⊆ ps) : Goes ps s0 (generateWork f i n key s) := by
  unfold generateWork
  repeat' (first
    | with_reducible assumption | exact reach w (Eq.refl _) | with_reducible apply engineWork_goes | dsimp only)

theorem dadoFault_goes {ps : List Part} {s0 : State} (f iova : Nat) (wr : Bool) (level kind : Nat) (s : State) (h :
    Goes ps s0 s) (w : [.sys, .fns, .log] ⊆ ps) : Goes ps s0 (dadoFault f iova wr level kind s) := by
  unfold dadoFault
  repeat' (first
    | with_reducible assumption | exact reach w (Eq.refl _) | with_reducible apply cntDdo_goes
    | with_reducible apply updFn_goes | with_reducible apply eventB_goes | with_reducible apply fnEvent_goes
    | with_reducible apply Goes.ite | exact Or.inr (reachOne w (Eq.refl _))
    | exact Or.inr ⟨reachOne w (Eq.refl _), rfl⟩ | exact Or.inr ⟨reachOne w (Eq.refl _), rfl, rfl, rfl, rfl, rfl⟩
    | exact Or.inl rfl | simp only [Goes.mk_eq] | with_reducible apply GoesMk.upd | split | dsimp only)

theorem translate_goes {ps : List Part} {s0 : State} (mem : List Host.Cell) (f iova : Nat) (write : Bool) (s : State)
    (h : Goes ps s0 s) (w : [.sys, .fns, .log, .budget] ⊆ ps) : Goes ps s0 (translate mem f iova write s).1 := by
  unfold translate
  repeat' (first
    | with_reducible assumption | exact reach w (Eq.refl _) | with_reducible apply cntDdo_goes
    | with_reducible apply dadoFault_goes | with_reducible apply workFor_goes | with_reducible apply updFn_goes
    | with_reducible apply Goes.ite | exact Or.inr (reachOne w (Eq.refl _))
    | exact Or.inr ⟨reachOne w (Eq.refl _), rfl⟩ | exact Or.inr ⟨reachOne w (Eq.refl _), rfl, rfl, rfl, rfl, rfl⟩
    | exact Or.inl rfl | simp only [Goes.mk_eq] | with_reducible apply GoesMk.upd | split | dsimp only)

theorem translate_pair {ps : List Part} {s0 s1 : State} {mem : List Host.Cell} {f iova : Nat} {write : Bool} {s :
    State} {z} (e : translate mem f iova write s = (s1, z)) (h : Goes ps s0 s) (w : [.sys, .fns, .log, .budget] ⊆ ps)
    : Goes ps s0 s1 := by
  have g := translate_goes (s0 := s0) mem f iova write s h w
  rw [e] at g; exact g

theorem translateRange_goes {ps : List Part} {s0 : State} (mem : List Host.Cell) (f : Nat) (write : Bool) (n a : Nat)
    (s : State) (h : Goes ps s0 s) (w : [.sys, .fns, .log, .budget] ⊆ ps) : Goes ps s0 (translateRange mem f write n a s).1 := by
  induction n generalizing a s with
  | zero => exact h
  | succ n ih =>
    unfold translateRange
    split
    · exact translate_pair (by with_reducible assumption) h w
    · exact ih _ _ (translate_pair (by with_reducible assumption) h w)

theorem translateRange_pair {ps : List Part} {s0 s1 : State} {mem : List Host.Cell} {f : Nat} {write : Bool} {n a : Nat} {s : State} {z} (e : translateRange mem f write n a s = (s1, z)) (h : Goes ps s0 s)
    (w : [.sys, .fns, .log, .budget] ⊆ ps) : Goes ps s0 s1 := by
  have g := translateRange_goes (s0 := s0) mem f write n a s h w
  rw [e] at g; exact g

theorem checkRange_goes {ps : List Part} {s0 : State} (mem : List Host.Cell) (f a n : Nat) (write : Bool) (s : State)
    (h : Goes ps s0 s) (w : [.sys, .fns, .log, .budget] ⊆ ps) : Goes ps s0 (checkRange mem f a n write s).1 := by
  unfold checkRange
  repeat' (first
    | with_reducible assumption | exact reach w (Eq.refl _) | with_reducible apply translateRange_goes
    | refine translateRange_pair (by with_reducible assumption) ?_ ?_ | dsimp only)

theorem checkRange_pair {ps : List Part} {s0 s1 : State} {mem : List Host.Cell} {f a n : Nat} {write : Bool} {s :
    State} {z} (e : checkRange mem f a n write s = (s1, z)) (h : Goes ps s0 s) (w : [.sys, .fns, .log, .budget] ⊆ ps)
    : Goes ps s0 s1 := by
  have g := checkRange_goes (s0 := s0) mem f a n write s h w
  rw [e] at g; exact g

theorem extentsFrom_goes {ps : List Part} {s0 : State} (mem : List Host.Cell) (f : Nat) (write : Bool) (n a : Nat)
    (l : List (Nat × Nat × Nat)) (s : State) (h : Goes ps s0 s) (w : [.sys, .fns, .log, .budget] ⊆ ps) :
    Goes ps s0 (extentsFrom mem f write n a l s).1 := by
  induction n generalizing a l s with
  | zero => exact h
  | succ n ih =>
    unfold extentsFrom
    split
    · exact translate_pair (by with_reducible assumption) h w
    · exact ih _ _ _ (translate_pair (by with_reducible assumption) h w)

theorem extentsFrom_pair {ps : List Part} {s0 s1 : State} {mem : List Host.Cell} {f : Nat} {write : Bool} {n a : Nat} {l : List (Nat × Nat × Nat)} {s : State} {z} (e : extentsFrom mem f write n a l s = (s1, z)) (h : Goes ps s0 s)
    (w : [.sys, .fns, .log, .budget] ⊆ ps) : Goes ps s0 s1 := by
  have g := extentsFrom_goes (s0 := s0) mem f write n a l s h w
  rw [e] at g; exact g

theorem pinnedMap_goes {ps : List Part} {s0 : State} (mem : List Host.Cell) (f a n : Nat) (write : Bool) (s : State)
    (h : Goes ps s0 s) (w : [.sys, .fns, .log, .budget] ⊆ ps) : Goes ps s0 (pinnedMap mem f a n write s).1 := by
  unfold pinnedMap
  repeat' (first
    | with_reducible assumption | exact reach w (Eq.refl _) | with_reducible apply extentsFrom_goes
    | refine extentsFrom_pair (by with_reducible assumption) ?_ ?_ | with_reducible apply Goes.ite | split
    | dsimp only)

theorem pinnedMap_pair {ps : List Part} {s0 s1 : State} {mem : List Host.Cell} {f a n : Nat} {write : Bool} {s :
    State} {z} (e : pinnedMap mem f a n write s = (s1, z)) (h : Goes ps s0 s) (w : [.sys, .fns, .log, .budget] ⊆ ps) :
    Goes ps s0 s1 := by
  have g := pinnedMap_goes (s0 := s0) mem f a n write s h w
  rw [e] at g; exact g

theorem pinnedLookup_goes {ps : List Part} {s0 : State} (f : Nat) (s : State) (h : Goes ps s0 s) (w : [.sys] ⊆ ps) :
    Goes ps s0 (pinnedLookup f s) := by
  unfold pinnedLookup
  repeat' (first
    | with_reducible assumption | exact reach w (Eq.refl _) | with_reducible apply cntDdo_goes
    | with_reducible apply Goes.ite | split | dsimp only)

theorem extentLimit_goes {ps : List Part} {s0 : State} (s : State) (h : Goes ps s0 s) (w : [.sys, .log] ⊆ ps) : Goes
    ps s0 (extentLimit s) := by
  unfold extentLimit
  repeat' (first
    | with_reducible assumption | exact reach w (Eq.refl _) | with_reducible apply event_goes | dsimp only)

theorem barWrite_goes {ps : List Part} {s0 : State} (f : Nat) (g : State → State) (s : State) (h : Goes ps s0 s) (hg :
    ∀  s, Goes ps s0 s → Goes ps s0 (g  s)) (w : [.sys, .log, .outbox] ⊆ ps) : Goes ps s0 (barWrite f g s) := by
  unfold barWrite
  repeat' (first
    | with_reducible assumption | exact reach w (Eq.refl _) | apply hg | with_reducible apply emit_goes
    | with_reducible apply event_goes | with_reducible apply Goes.ite | split | dsimp only)

theorem sendOn_goes {ps : List Part} {s0 : State} (l : Nat) (k : Packet) (s : State) (h : Goes ps s0 s) (w : [.span,
    .outbox] ⊆ ps) : Goes ps s0 (sendOn l k s) := by
  unfold sendOn
  repeat' (first
    | with_reducible assumption | exact reach w (Eq.refl _) | with_reducible apply emit_goes
    | with_reducible apply updLink_goes | with_reducible apply Goes.ite | exact Or.inr (reachOne w (Eq.refl _))
    | exact Or.inl rfl | simp only [Goes.mk_eq] | with_reducible apply GoesMk.upd | split | dsimp only)

theorem sendWaiting_goes {ps : List Part} {s0 : State} (l : Nat) (s : State) (h : Goes ps s0 s) (w : [.span, .outbox]
    ⊆ ps) : Goes ps s0 (sendWaiting l s) := by
  unfold sendWaiting
  repeat' (first
    | with_reducible assumption | exact reach w (Eq.refl _) | intro _ | with_reducible apply sendOn_goes
    | with_reducible apply updLink_goes | with_reducible apply Goes.foldl | with_reducible apply Goes.foldl1
    | with_reducible apply Goes.foldl2 | exact Or.inr (reachOne w (Eq.refl _)) | exact Or.inl rfl
    | simp only [Goes.mk_eq] | with_reducible apply GoesMk.upd | dsimp only)

theorem sendPacket_goes {ps : List Part} {s0 : State} (dst ptype arg : Nat) (body : List Byte) (s : State) (h : Goes
    ps s0 s) (w : [.span, .outbox] ⊆ ps) : Goes ps s0 (sendPacket dst ptype arg body s) := by
  unfold sendPacket
  repeat' (first
    | with_reducible assumption | exact reach w (Eq.refl _) | with_reducible apply sendOn_goes
    | exact Or.inr (reachOne w (Eq.refl _)) | exact Or.inl rfl | simp only [Goes.mk_eq]
    | with_reducible apply GoesMk.upd | dsimp only)

theorem answerGateway_goes {ps : List Part} {s0 : State} (tok : Nat) (o : Outcome) (out : List Byte) (s : State) (h :
    Goes ps s0 s) (w : [.journal, .span, .outbox] ⊆ ps) : Goes ps s0 (answerGateway tok o out s) := by
  unfold answerGateway
  repeat' (first
    | with_reducible assumption | exact reach w (Eq.refl _) | with_reducible apply sendPacket_goes
    | with_reducible apply updJ_goes | with_reducible apply Goes.ite | exact Or.inr (reachOne w (Eq.refl _))
    | exact Or.inl rfl | simp only [Goes.mk_eq] | with_reducible apply GoesMk.upd | split | dsimp only)

theorem settleAs_goes {ps : List Part} {s0 : State} (epoch dev tok status : Nat) (result : W32) (out : List Byte) (s :
    State) (h : Goes ps s0 s) (w : [.journal, .span, .outbox] ⊆ ps) : Goes ps s0 (settleAs epoch dev tok status result
    out s) := by
  unfold settleAs
  repeat' (first
    | with_reducible assumption | exact reach w (Eq.refl _) | with_reducible apply updJ_goes
    | with_reducible apply answerGateway_goes | with_reducible apply emit_goes | with_reducible apply Goes.ite
    | exact Or.inr (reachOne w (Eq.refl _)) | exact Or.inl rfl | simp only [Goes.mk_eq]
    | with_reducible apply GoesMk.upd | split | dsimp only)

theorem settle_goes {ps : List Part} {s0 : State} (tok status : Nat) (result : W32) (out : List Byte) (s : State) (h :
    Goes ps s0 s) (w : [.journal, .span, .outbox] ⊆ ps) : Goes ps s0 (settle tok status result out s) := by
  unfold settle
  repeat' (first
    | with_reducible assumption | exact reach w (Eq.refl _) | with_reducible apply settleAs_goes | dsimp only)

theorem runPlain_goes {ps : List Part} {s0 : State} (check : Cmd → State → Option Nat) (eff : Cmd → State → Eff) (c :
    Cmd) (s : State) (h : Goes ps s0 s) (heff : ∀ a0 s, Goes ps s0 s → Goes ps s0 (eff a0 s).st) (w : [.journal,
    .span, .outbox] ⊆ ps) : Goes ps s0 (runPlain check eff c s) := by
  unfold runPlain
  repeat' (first
    | with_reducible assumption | exact reach w (Eq.refl _) | apply heff | with_reducible apply settle_goes
    | with_reducible apply Goes.ite | exact Or.inr (reachOne w (Eq.refl _)) | exact Or.inl rfl
    | simp only [Goes.mk_eq] | with_reducible apply GoesMk.upd | split | dsimp only)

theorem applyConfig_goes {ps : List Part} {s0 : State} (check : Cmd → State → Option Nat) (eff : Cmd → State → Eff) (c
    : Cmd) (s : State) (h : Goes ps s0 s) (heff : ∀ a0 s, Goes ps s0 s → Goes ps s0 (eff a0 s).st) (w : [.sys,
    .journal, .span, .outbox] ⊆ ps) : Goes ps s0 (applyConfig check eff c s) := by
  unfold applyConfig
  repeat' (first
    | with_reducible assumption | exact reach w (Eq.refl _) | apply heff | with_reducible apply settle_goes
    | with_reducible apply bumpEpoch_goes | with_reducible apply mirrorItem_goes | with_reducible apply Goes.ite
    | exact Or.inr (reachOne w (Eq.refl _)) | exact Or.inr ⟨reachOne w (Eq.refl _), rfl⟩
    | exact Or.inr ⟨reachOne w (Eq.refl _), rfl, rfl, rfl, rfl, rfl⟩ | exact Or.inl rfl | simp only [Goes.mk_eq]
    | with_reducible apply GoesMk.upd | split | dsimp only)

theorem runConfigBy_goes {ps : List Part} {s0 : State} (apply : Cmd → State → State) (c : Cmd) (s : State) (h : Goes
    ps s0 s) (happly : ∀ a0 s, Goes ps s0 s → Goes ps s0 (apply a0 s)) (w : [.deferred] ⊆ ps) : Goes ps s0
    (runConfigBy apply c s) := by
  unfold runConfigBy
  repeat' (first
    | with_reducible assumption | apply happly | with_reducible apply Goes.ite | exact Or.inr (reachOne w (Eq.refl _))
    | exact Or.inl rfl | simp only [Goes.mk_eq] | with_reducible apply GoesMk.upd | split | dsimp only)

theorem runConfig_goes {ps : List Part} {s0 : State} (check : Cmd → State → Option Nat) (eff : Cmd → State → Eff) (c :
    Cmd) (s : State) (h : Goes ps s0 s) (heff : ∀ a0 s, Goes ps s0 s → Goes ps s0 (eff a0 s).st) (w : [.sys, .journal,
    .deferred, .span, .outbox] ⊆ ps) : Goes ps s0 (runConfig check eff c s) := by
  unfold runConfig
  repeat' (first
    | with_reducible assumption | exact reach w (Eq.refl _) | intro _ | apply heff
    | with_reducible apply runConfigBy_goes | with_reducible apply applyConfig_goes | dsimp only)

theorem runWork_goes {ps : List Part} {s0 : State} (check : Cmd → State → Option Nat) (eff : Cmd → State → Eff) (c :
    Cmd) (s : State) (h : Goes ps s0 s) (heff : ∀ a0 s, Goes ps s0 s → Goes ps s0 (eff a0 s).st) (w : [.journal,
    .span, .outbox] ⊆ ps) : Goes ps s0 (runWork check eff c s) := by
  unfold runWork
  repeat' (first
    | with_reducible assumption | exact reach w (Eq.refl _) | apply heff | with_reducible apply settle_goes
    | with_reducible apply updJ_goes | with_reducible apply Goes.ite | exact Or.inr (reachOne w (Eq.refl _))
    | exact Or.inl rfl | simp only [Goes.mk_eq] | with_reducible apply GoesMk.upd | split | dsimp only)

theorem startCmd_goes {ps : List Part} {s0 : State} (tok : Nat) (s : State) (h : Goes ps s0 s) (w : [.journal] ⊆ ps) :
    Goes ps s0 (startCmd tok s) := by
  unfold startCmd
  repeat' (first
    | with_reducible assumption | exact reach w (Eq.refl _) | with_reducible apply updJ_goes
    | exact Or.inr (reachOne w (Eq.refl _)) | exact Or.inl rfl | simp only [Goes.mk_eq]
    | with_reducible apply GoesMk.upd | dsimp only)

theorem done_goes {ps : List Part} {s0 : State} (s : State) (h : Goes ps s0 s) : Goes ps s0 (done s).st := by
  unfold done
  repeat' (first
    | with_reducible assumption | dsimp only)

theorem output_goes {ps : List Part} {s0 : State} (c : Cmd) (out : List Byte) (s : State) (h : Goes ps s0 s) : Goes ps
    s0 (output c out s).st := by
  unfold output
  repeat' (first
    | with_reducible assumption | with_reducible apply Goes.ite | split | dsimp only)

theorem ledgerFn_goes {ps : List Part} {s0 : State} (f : Nat) (s : State) (h : Goes ps s0 s) (w : [.fns, .journal] ⊆
    ps) : Goes ps s0 (ledgerFn f s) := by
  unfold ledgerFn
  repeat' (first
    | with_reducible assumption | exact reach w (Eq.refl _) | with_reducible apply updFn_goes
    | with_reducible apply Goes.ite | exact Or.inr (reachOne w (Eq.refl _)) | exact Or.inl rfl
    | simp only [Goes.mk_eq] | with_reducible apply GoesMk.upd | split | dsimp only)

theorem dropIndex_goes {ps : List Part} {s0 : State} (k : Nat) (s : State) (h : Goes ps s0 s) (w : [.skim] ⊆ ps) :
    Goes ps s0 (dropIndex k s) := by
  unfold dropIndex
  repeat' (first
    | with_reducible assumption | with_reducible apply Goes.ite | exact Or.inr (reachOne w (Eq.refl _))
    | exact Or.inl rfl | simp only [Goes.mk_eq] | with_reducible apply GoesMk.upd | split | dsimp only)

theorem addIndex_goes {ps : List Part} {s0 : State} (k : Nat) (s : State) (h : Goes ps s0 s) (w : [.skim, .freeCtr] ⊆
    ps) : Goes ps s0 (addIndex k s).1 := by
  unfold addIndex
  repeat' (first
    | with_reducible assumption | exact Or.inr (reachOne w (Eq.refl _)) | exact Or.inl rfl | simp only [Goes.mk_eq]
    | with_reducible apply GoesMk.upd | split | dsimp only)

theorem addIndex_pair {ps : List Part} {s0 s1 : State} {k : Nat} {s : State} {z} (e : addIndex k s = (s1, z)) (h :
    Goes ps s0 s) (w : [.skim, .freeCtr] ⊆ ps) : Goes ps s0 s1 := by
  have g := addIndex_goes (s0 := s0) k s h w
  rw [e] at g; exact g

theorem swapIndex_goes {ps : List Part} {s0 : State} (seed : W64) (s : State) (h : Goes ps s0 s) (w : [.skim,
    .freeCtr] ⊆ ps) : Goes ps s0 (swapIndex seed s).1 := by
  unfold swapIndex
  repeat' (first
    | with_reducible assumption | exact Or.inr (reachOne w (Eq.refl _)) | exact Or.inl rfl | simp only [Goes.mk_eq]
    | with_reducible apply GoesMk.upd | split | dsimp only)

theorem swapIndex_pair {ps : List Part} {s0 s1 : State} {seed : W64} {s : State} {z} (e : swapIndex seed s = (s1, z))
    (h : Goes ps s0 s) (w : [.skim, .freeCtr] ⊆ ps) : Goes ps s0 s1 := by
  have g := swapIndex_goes (s0 := s0) seed s h w
  rw [e] at g; exact g

theorem startIndex_goes {ps : List Part} {s0 : State} (s : State) (h : Goes ps s0 s) (w : [.skim, .freeCtr] ⊆ ps) :
    Goes ps s0 (startIndex s) := by
  unfold startIndex
  repeat' (first
    | with_reducible assumption | exact Or.inr (reachOne w (Eq.refl _)) | exact Or.inl rfl | simp only [Goes.mk_eq]
    | with_reducible apply GoesMk.upd | split | dsimp only)

theorem updDrbg_goes {ps : List Part} {s0 : State} (i : Nat) (g : Drbg → Drbg) (s : State) (h : Goes ps s0 s) (w :
    [.rng] ⊆ ps) : Goes ps s0 (updDrbg i g s) := by
  unfold updDrbg
  repeat' (first
    | with_reducible assumption | exact Or.inr (reachOne w (Eq.refl _)) | exact Or.inl rfl | simp only [Goes.mk_eq]
    | with_reducible apply GoesMk.upd | dsimp only)

theorem instantiate_goes {ps : List Part} {s0 : State} (i : Nat) (s : State) (h : Goes ps s0 s) (w : [.rng] ⊆ ps) :
    Goes ps s0 (instantiate i s) := by
  unfold instantiate
  repeat' (first
    | with_reducible assumption | exact reach w (Eq.refl _) | with_reducible apply cntRng_goes
    | with_reducible apply updDrbg_goes | exact Or.inr (reachOne w (Eq.refl _)) | exact Or.inl rfl
    | simp only [Goes.mk_eq] | with_reducible apply GoesMk.upd | dsimp only)

theorem reseed_goes {ps : List Part} {s0 : State} (i : Nat) (s : State) (h : Goes ps s0 s) (w : [.rng] ⊆ ps) : Goes ps
    s0 (reseed i s) := by
  unfold reseed
  repeat' (first
    | with_reducible assumption | exact reach w (Eq.refl _) | with_reducible apply cntRng_goes
    | with_reducible apply updDrbg_goes | exact Or.inr (reachOne w (Eq.refl _)) | exact Or.inl rfl
    | simp only [Goes.mk_eq] | with_reducible apply GoesMk.upd | dsimp only)

theorem seedFor_goes {ps : List Part} {s0 : State} (i : Nat) (s : State) (h : Goes ps s0 s) (w : [.rng] ⊆ ps) : Goes
    ps s0 (seedFor i s) := by
  unfold seedFor
  repeat' (first
    | with_reducible assumption | exact reach w (Eq.refl _) | with_reducible apply instantiate_goes
    | with_reducible apply reseed_goes | with_reducible apply Goes.ite | split | dsimp only)

theorem generate_goes {ps : List Part} {s0 : State} (f i n : Nat) (s : State) (h : Goes ps s0 s) (w : [.eng, .rng,
    .log, .budget] ⊆ ps) : Goes ps s0 (generate f i n s).2 := by
  unfold generate
  repeat' (first
    | with_reducible assumption | exact reach w (Eq.refl _) | with_reducible apply seedFor_goes
    | with_reducible apply generateWork_goes | with_reducible apply cntRng_goes | with_reducible apply updDrbg_goes
    | exact Or.inr (reachOne w (Eq.refl _)) | exact Or.inl rfl | simp only [Goes.mk_eq]
    | with_reducible apply GoesMk.upd | dsimp only)

theorem generate_pair {ps : List Part} {s0 s1 : State} {f i n : Nat} {s : State} {z} (e : generate f i n s = (z, s1))
    (h : Goes ps s0 s) (w : [.eng, .rng, .log, .budget] ⊆ ps) : Goes ps s0 s1 := by
  have g := generate_goes (s0 := s0) f i n s h w
  rw [e] at g; exact g

theorem freeOctets_goes {ps : List Part} {s0 : State} (n : Nat) (s : State) (h : Goes ps s0 s) (w : [.freeCtr] ⊆ ps) :
    Goes ps s0 (freeOctets n s).2 := by
  unfold freeOctets
  repeat' (first
    | with_reducible assumption | exact Or.inr (reachOne w (Eq.refl _)) | exact Or.inl rfl | simp only [Goes.mk_eq]
    | with_reducible apply GoesMk.upd | dsimp only)

theorem freeOctets_pair {ps : List Part} {s0 s1 : State} {n : Nat} {s : State} {z} (e : freeOctets n s = (z, s1)) (h :
    Goes ps s0 s) (w : [.freeCtr] ⊆ ps) : Goes ps s0 s1 := by
  have g := freeOctets_goes (s0 := s0) n s h w
  rw [e] at g; exact g

theorem endDraws_goes {ps : List Part} {s0 : State} (st : Nat) (s : State) (h : Goes ps s0 s) (w : [.journal, .rng,
    .span, .outbox] ⊆ ps) : Goes ps s0 (endDraws st s) := by
  unfold endDraws
  repeat' (first
    | with_reducible assumption | exact reach w (Eq.refl _) | intro _ | with_reducible apply cntRng_goes
    | with_reducible apply settle_goes | with_reducible apply Goes.foldl | with_reducible apply Goes.foldl1
    | with_reducible apply Goes.foldl2 | dsimp only)

theorem drawnValues_goes {ps : List Part} {s0 : State} (src : Nat → List Byte) (s : State) (h : Goes ps s0 s) (w :
    [.fns, .skim, .eng] ⊆ ps) : Goes ps s0 (drawnValues src s) := by
  unfold drawnValues
  repeat' (first
    | with_reducible assumption | exact Or.inr (reachOne w (Eq.refl _)) | exact Or.inl rfl | simp only [Goes.mk_eq]
    | with_reducible apply GoesMk.upd | dsimp only)

theorem fallbackValues_goes {ps : List Part} {s0 : State} (s : State) (h : Goes ps s0 s) (w : [.fns, .skim, .eng,
    .rng, .log, .freeCtr] ⊆ ps) : Goes ps s0 (fallbackValues s) := by
  unfold fallbackValues
  repeat' (first
    | with_reducible assumption | exact reach w (Eq.refl _) | with_reducible apply startIndex_goes
    | with_reducible apply drawnValues_goes | with_reducible apply event_goes | exact Or.inr (reachOne w (Eq.refl _))
    | exact Or.inl rfl | simp only [Goes.mk_eq] | with_reducible apply GoesMk.upd | dsimp only)

theorem startValues_goes {ps : List Part} {s0 : State} (s : State) (h : Goes ps s0 s) (w : [.fns, .skim, .eng, .rng,
    .log, .freeCtr] ⊆ ps) : Goes ps s0 (startValues s) := by
  unfold startValues
  repeat' (first
    | with_reducible assumption | exact reach w (Eq.refl _) | with_reducible apply fallbackValues_goes
    | with_reducible apply drawnValues_goes | with_reducible apply startIndex_goes | with_reducible apply Goes.ite
    | exact Or.inr (reachOne w (Eq.refl _)) | exact Or.inl rfl | simp only [Goes.mk_eq]
    | with_reducible apply GoesMk.upd | split | dsimp only)

theorem rngRestart_goes {ps : List Part} {s0 : State} (s : State) (h : Goes ps s0 s) (w : [.rng] ⊆ ps) : Goes ps s0
    (rngRestart s) := by
  unfold rngRestart
  repeat' (first
    | with_reducible assumption | with_reducible apply Goes.ite | exact Or.inr (reachOne w (Eq.refl _))
    | exact Or.inl rfl | simp only [Goes.mk_eq] | with_reducible apply GoesMk.upd | split | dsimp only)

theorem updRsrc_goes {ps : List Part} {s0 : State} (i : Nat) (g : RngSrc → RngSrc) (s : State) (h : Goes ps s0 s) (w :
    [.rng] ⊆ ps) : Goes ps s0 (updRsrc i g s) := by
  unfold updRsrc
  repeat' (first
    | with_reducible assumption | exact Or.inr (reachOne w (Eq.refl _)) | exact Or.inl rfl | simp only [Goes.mk_eq]
    | with_reducible apply GoesMk.upd | dsimp only)

theorem releaseBlock_goes {ps : List Part} {s0 : State} (i : Nat) (b : List Byte) (s : State) (h : Goes ps s0 s) (w :
    [.rng] ⊆ ps) : Goes ps s0 (releaseBlock i b s) := by
  unfold releaseBlock
  repeat' (first
    | with_reducible assumption | exact reach w (Eq.refl _) | with_reducible apply cntRng_goes
    | with_reducible apply Goes.ite | exact Or.inr (reachOne w (Eq.refl _)) | exact Or.inl rfl
    | simp only [Goes.mk_eq] | with_reducible apply GoesMk.upd | split | dsimp only)

theorem firstSeed_goes {ps : List Part} {s0 : State} (s : State) (h : Goes ps s0 s) (w : [.rng] ⊆ ps) : Goes ps s0
    (firstSeed s) := by
  unfold firstSeed
  repeat' (first
    | with_reducible assumption | exact reach w (Eq.refl _) | with_reducible apply instantiate_goes
    | with_reducible apply Goes.ite | exact Or.inr (reachOne w (Eq.refl _)) | exact Or.inl rfl
    | simp only [Goes.mk_eq] | with_reducible apply GoesMk.upd | split | dsimp only)

theorem healthFail_goes {ps : List Part} {s0 : State} (i kind : Nat) (s : State) (h : Goes ps s0 s) (w : [.journal,
    .rng, .span, .log, .outbox] ⊆ ps) : Goes ps s0 (healthFail i kind s) := by
  unfold healthFail
  repeat' (first
    | with_reducible assumption | exact reach w (Eq.refl _) | with_reducible apply updRsrc_goes
    | with_reducible apply cntRng_goes | with_reducible apply event_goes | with_reducible apply endDraws_goes
    | with_reducible apply Goes.ite | exact Or.inr (reachOne w (Eq.refl _)) | exact Or.inl rfl
    | simp only [Goes.mk_eq] | with_reducible apply GoesMk.upd | split | dsimp only)

theorem rngResume_goes {ps : List Part} {s0 : State} (i : Nat) (s : State) (h : Goes ps s0 s) (w : [.rng, .log] ⊆ ps)
    : Goes ps s0 (rngResume i s) := by
  unfold rngResume
  repeat' (first
    | with_reducible assumption | exact reach w (Eq.refl _) | with_reducible apply event_goes
    | with_reducible apply Goes.ite | exact Or.inr (reachOne w (Eq.refl _)) | exact Or.inl rfl
    | simp only [Goes.mk_eq] | with_reducible apply GoesMk.upd | split | dsimp only)

theorem healthWindow_goes {ps : List Part} {s0 : State} (i : Nat) (octs : List Byte) (block : Option (List Byte)) (s :
    State) (h : Goes ps s0 s) (w : [.journal, .rng, .span, .log, .outbox] ⊆ ps) : Goes ps s0 (healthWindow i octs
    block s) := by
  unfold healthWindow
  repeat' (first
    | with_reducible assumption | exact reach w (Eq.refl _) | with_reducible apply updRsrc_goes
    | with_reducible apply healthFail_goes | with_reducible apply releaseBlock_goes
    | with_reducible apply firstSeed_goes | with_reducible apply rngResume_goes | with_reducible apply Goes.ite
    | exact Or.inr (reachOne w (Eq.refl _)) | exact Or.inl rfl | simp only [Goes.mk_eq]
    | with_reducible apply GoesMk.upd | split | dsimp only)

theorem execEntropyTimeout_goes {ps : List Part} {s0 : State} (s : State) (h : Goes ps s0 s) (w : [.fns, .journal,
    .skim, .eng, .rng, .span, .log, .freeCtr, .outbox] ⊆ ps) : GoesTo ps s0 (execEntropyTimeout s) := by
  unfold execEntropyTimeout
  repeat' (first
    | with_reducible assumption | exact reach w (Eq.refl _) | apply GoesTo.next | with_reducible apply endDraws_goes
    | with_reducible apply fallbackValues_goes | with_reducible apply event_goes | with_reducible apply Goes.ite
    | exact Or.inr (reachOne w (Eq.refl _)) | exact Or.inl rfl | simp only [Goes.mk_eq]
    | with_reducible apply GoesMk.upd | split | dsimp only)

theorem execRngResumeTimeout_goes {ps : List Part} {s0 : State} (s : State) (h : Goes ps s0 s) (w : [.journal, .rng,
    .span, .log, .outbox] ⊆ ps) : GoesTo ps s0 (execRngResumeTimeout s) := by
  unfold execRngResumeTimeout
  repeat' (first
    | with_reducible assumption | exact reach w (Eq.refl _) | apply GoesTo.next | with_reducible apply event_goes
    | with_reducible apply endDraws_goes | with_reducible apply Goes.ite | split | dsimp only)

theorem rngGetEff_goes {ps : List Part} {s0 : State} (c : Cmd) (s : State) (h : Goes ps s0 s) (w : [.eng, .rng, .log,
    .budget] ⊆ ps) : Goes ps s0 (rngGetEff c s).st := by
  unfold rngGetEff
  repeat' (first
    | with_reducible assumption | exact reach w (Eq.refl _) | with_reducible apply generate_goes
    | refine generate_pair (by with_reducible assumption) ?_ ?_ | dsimp only)

theorem withDraw_goes {ps : List Part} {s0 : State} (inst : Nat) (run : Cmd → State → State) (c : Cmd) (s : State) (h
    : Goes ps s0 s) (hrun : ∀ a0 s, Goes ps s0 s → Goes ps s0 (run a0 s)) (w : [.rng] ⊆ ps) : Goes ps s0 (withDraw
    inst run c s) := by
  unfold withDraw
  repeat' (first
    | with_reducible assumption | exact reach w (Eq.refl _) | apply hrun | with_reducible apply cntRng_goes
    | with_reducible apply Goes.ite | exact Or.inr (reachOne w (Eq.refl _)) | exact Or.inl rfl
    | simp only [Goes.mk_eq] | with_reducible apply GoesMk.upd | split | dsimp only)

theorem execRngGet_goes {ps : List Part} {s0 : State} (c : Cmd) (s : State) (h : Goes ps s0 s) (w : [.journal, .eng,
    .rng, .span, .log, .budget, .outbox] ⊆ ps) : GoesTo ps s0 (execRngGet c s) := by
  unfold execRngGet
  repeat' (first
    | with_reducible assumption | exact reach w (Eq.refl _) | intro _ | apply GoesTo.next
    | with_reducible apply withDraw_goes | with_reducible apply runWork_goes | with_reducible apply rngGetEff_goes
    | with_reducible apply Goes.ite | exact Or.inr (reachOne w (Eq.refl _)) | exact Or.inl rfl
    | simp only [Goes.mk_eq] | with_reducible apply GoesMk.upd | split | dsimp only)

theorem rngReseedEff_goes {ps : List Part} {s0 : State} (c : Cmd) (s : State) (h : Goes ps s0 s) (w : [.rng] ⊆ ps) :
    Goes ps s0 (rngReseedEff c s).st := by
  unfold rngReseedEff
  repeat' (first
    | with_reducible assumption | exact reach w (Eq.refl _) | with_reducible apply done_goes
    | with_reducible apply rngRestart_goes | with_reducible apply reseed_goes | with_reducible apply updDrbg_goes
    | with_reducible apply instantiate_goes | with_reducible apply Goes.ite | exact Or.inr (reachOne w (Eq.refl _))
    | exact Or.inl rfl | simp only [Goes.mk_eq] | with_reducible apply GoesMk.upd | split | dsimp only)

theorem execRngReseed_goes {ps : List Part} {s0 : State} (c : Cmd) (s : State) (h : Goes ps s0 s) (w : [.journal,
    .rng, .span, .outbox] ⊆ ps) : GoesTo ps s0 (execRngReseed c s) := by
  unfold execRngReseed
  repeat' (first
    | with_reducible assumption | exact reach w (Eq.refl _) | intro _ | apply GoesTo.next
    | with_reducible apply cntRng_goes | with_reducible apply runPlain_goes | with_reducible apply rngReseedEff_goes
    | with_reducible apply Goes.ite | split | dsimp only)

theorem rngPatternEff_goes {ps : List Part} {s0 : State} (c : Cmd) (s : State) (h : Goes ps s0 s) (w : [.rng] ⊆ ps) :
    Goes ps s0 (rngPatternEff c s).st := by
  unfold rngPatternEff
  repeat' (first
    | with_reducible assumption | exact reach w (Eq.refl _) | with_reducible apply done_goes
    | with_reducible apply Goes.ite | exact Or.inr (reachOne w (Eq.refl _)) | exact Or.inl rfl
    | simp only [Goes.mk_eq] | with_reducible apply GoesMk.upd | split | dsimp only)

theorem execRngPattern_goes {ps : List Part} {s0 : State} (c : Cmd) (s : State) (h : Goes ps s0 s) (w : [.sys,
    .journal, .deferred, .rng, .span, .outbox] ⊆ ps) : GoesTo ps s0 (execRngPattern c s) := by
  unfold execRngPattern
  repeat' (first
    | with_reducible assumption | exact reach w (Eq.refl _) | intro _ | apply GoesTo.next
    | with_reducible apply runConfig_goes | with_reducible apply rngPatternEff_goes | dsimp only)

theorem slewTo_goes {ps : List Part} {s0 : State} (b : Nat) (s : State) (h : Goes ps s0 s) (w : [.time] ⊆ ps) : Goes
    ps s0 (slewTo b s) := by
  unfold slewTo
  repeat' (first
    | with_reducible assumption | exact Or.inr (reachOne w (Eq.refl _)) | exact Or.inl rfl | simp only [Goes.mk_eq]
    | with_reducible apply GoesMk.upd | dsimp only)

theorem selectSrc_goes {ps : List Part} {s0 : State} (b : Nat) (s : State) (h : Goes ps s0 s) (w : [.time] ⊆ ps) :
    Goes ps s0 (selectSrc b s) := by
  unfold selectSrc
  repeat' (first
    | with_reducible assumption | exact Or.inr (reachOne w (Eq.refl _)) | exact Or.inl rfl | simp only [Goes.mk_eq]
    | with_reducible apply GoesMk.upd | dsimp only)

theorem sourceChange_goes {ps : List Part} {s0 : State} (b : Nat) (s : State) (h : Goes ps s0 s) (w : [.time, .log] ⊆
    ps) : Goes ps s0 (sourceChange b s) := by
  unfold sourceChange
  repeat' (first
    | with_reducible assumption | exact reach w (Eq.refl _) | with_reducible apply slewTo_goes
    | with_reducible apply selectSrc_goes | with_reducible apply event_goes | exact Or.inr (reachOne w (Eq.refl _))
    | exact Or.inl rfl | simp only [Goes.mk_eq] | with_reducible apply GoesMk.upd | dsimp only)

theorem enterHoldover_goes {ps : List Part} {s0 : State} (s : State) (h : Goes ps s0 s) (w : [.time, .log] ⊆ ps) :
    Goes ps s0 (enterHoldover s) := by
  unfold enterHoldover
  repeat' (first
    | with_reducible assumption | exact reach w (Eq.refl _) | with_reducible apply event_goes
    | with_reducible apply Goes.ite | exact Or.inr (reachOne w (Eq.refl _)) | exact Or.inl rfl
    | simp only [Goes.mk_eq] | with_reducible apply GoesMk.upd | split | dsimp only)

theorem relock_goes {ps : List Part} {s0 : State} (b : Nat) (s : State) (h : Goes ps s0 s) (w : [.time, .log] ⊆ ps) :
    Goes ps s0 (relock b s) := by
  unfold relock
  repeat' (first
    | with_reducible assumption | exact reach w (Eq.refl _) | with_reducible apply slewTo_goes
    | with_reducible apply sourceChange_goes | with_reducible apply event_goes | with_reducible apply selectSrc_goes
    | with_reducible apply Goes.ite | exact Or.inr (reachOne w (Eq.refl _)) | exact Or.inl rfl
    | simp only [Goes.mk_eq] | with_reducible apply GoesMk.upd | split | dsimp only)

theorem noteDisagree_goes {ps : List Part} {s0 : State} (s : State) (h : Goes ps s0 s) (w : [.time, .log] ⊆ ps) : Goes
    ps s0 (noteDisagree s) := by
  unfold noteDisagree
  repeat' (first
    | with_reducible assumption | exact reach w (Eq.refl _) | with_reducible apply event_goes
    | with_reducible apply Goes.ite | exact Or.inr (reachOne w (Eq.refl _)) | exact Or.inl rfl
    | simp only [Goes.mk_eq] | with_reducible apply GoesMk.upd | split | dsimp only)

theorem choose_goes {ps : List Part} {s0 : State} (s : State) (h : Goes ps s0 s) (w : [.time, .log] ⊆ ps) : Goes ps s0
    (choose s) := by
  unfold choose
  repeat' (first
    | with_reducible assumption | exact reach w (Eq.refl _) | with_reducible apply selectSrc_goes
    | with_reducible apply sourceChange_goes | with_reducible apply relock_goes
    | with_reducible apply enterHoldover_goes | with_reducible apply Goes.ite | exact Or.inr (reachOne w (Eq.refl _))
    | exact Or.inl rfl | simp only [Goes.mk_eq] | with_reducible apply GoesMk.upd | split | dsimp only)

theorem reselect_goes {ps : List Part} {s0 : State} (s : State) (h : Goes ps s0 s) (w : [.time, .log] ⊆ ps) : Goes ps
    s0 (reselect s) := by
  unfold reselect
  repeat' (first
    | with_reducible assumption | exact reach w (Eq.refl _) | with_reducible apply noteDisagree_goes
    | with_reducible apply choose_goes | dsimp only)

theorem disqualify_goes {ps : List Part} {s0 : State} (b : Nat) (s : State) (h : Goes ps s0 s) (w : [.time, .log] ⊆
    ps) : Goes ps s0 (disqualify b s) := by
  unfold disqualify
  repeat' (first
    | with_reducible assumption | exact reach w (Eq.refl _) | with_reducible apply reselect_goes
    | with_reducible apply updBp_goes | with_reducible apply Goes.ite | exact Or.inr (reachOne w (Eq.refl _))
    | exact Or.inl rfl | simp only [Goes.mk_eq] | with_reducible apply GoesMk.upd | split | dsimp only)

theorem leaveSlave_goes {ps : List Part} {s0 : State} (b st : Nat) (s : State) (h : Goes ps s0 s) (w : [.time, .log] ⊆
    ps) : Goes ps s0 (leaveSlave b st s) := by
  unfold leaveSlave
  repeat' (first
    | with_reducible assumption | exact reach w (Eq.refl _) | with_reducible apply updBp_goes
    | with_reducible apply disqualify_goes | exact Or.inr (reachOne w (Eq.refl _)) | exact Or.inl rfl
    | simp only [Goes.mk_eq] | with_reducible apply GoesMk.upd | dsimp only)

theorem bpDead_goes {ps : List Part} {s0 : State} (b : Nat) (s : State) (h : Goes ps s0 s) (w : [.time, .log] ⊆ ps) :
    Goes ps s0 (bpDead b s) := by
  unfold bpDead
  repeat' (first
    | with_reducible assumption | exact reach w (Eq.refl _) | with_reducible apply leaveSlave_goes
    | with_reducible apply updBp_goes | exact Or.inr (reachOne w (Eq.refl _)) | exact Or.inl rfl
    | simp only [Goes.mk_eq] | with_reducible apply GoesMk.upd | dsimp only)

theorem calmInterval_goes {ps : List Part} {s0 : State} (s : State) (h : Goes ps s0 s) (w : [.time, .log] ⊆ ps) : Goes
    ps s0 (calmInterval s) := by
  unfold calmInterval
  repeat' (first
    | with_reducible assumption | exact reach w (Eq.refl _) | with_reducible apply noteDisagree_goes
    | with_reducible apply Goes.ite | exact Or.inr (reachOne w (Eq.refl _)) | exact Or.inl rfl
    | simp only [Goes.mk_eq] | with_reducible apply GoesMk.upd | split | dsimp only)

theorem takeMaster_goes {ps : List Part} {s0 : State} (b : Nat) (s : State) (h : Goes ps s0 s) (w : [.time, .log] ⊆
    ps) : Goes ps s0 (takeMaster b s) := by
  unfold takeMaster
  repeat' (first
    | with_reducible assumption | exact reach w (Eq.refl _) | with_reducible apply leaveSlave_goes
    | with_reducible apply disqualify_goes | with_reducible apply updBp_goes | with_reducible apply Goes.ite
    | exact Or.inr (reachOne w (Eq.refl _)) | exact Or.inl rfl | simp only [Goes.mk_eq]
    | with_reducible apply GoesMk.upd | split | dsimp only)

theorem ptpAnnounce_goes {ps : List Part} {s0 : State} (b : Nat) (lanB : Bool) (d : PtpDs) (utc : Int) (utcOk : Bool)
    (s : State) (h : Goes ps s0 s) (w : [.time, .log] ⊆ ps) : Goes ps s0 (ptpAnnounce b lanB d utc utcOk s) := by
  unfold ptpAnnounce
  repeat' (first
    | with_reducible assumption | exact reach w (Eq.refl _) | with_reducible apply takeMaster_goes
    | with_reducible apply updBp_goes | with_reducible apply Goes.ite | exact Or.inr (reachOne w (Eq.refl _))
    | exact Or.inl rfl | simp only [Goes.mk_eq] | with_reducible apply GoesMk.upd | split | dsimp only)

theorem ptpSync_goes {ps : List Part} {s0 : State} (b : Nat) (lanB : Bool) (o : Int) (t : Nat) (s : State) (h : Goes
    ps s0 s) (w : [.time, .log, .freeCtr] ⊆ ps) : Goes ps s0 (ptpSync b lanB o t s) := by
  unfold ptpSync
  repeat' (first
    | with_reducible assumption | exact reach w (Eq.refl _) | with_reducible apply updBp_goes
    | with_reducible apply disqualify_goes | with_reducible apply reselect_goes
    | with_reducible apply calmInterval_goes | with_reducible apply noteDisagree_goes | with_reducible apply Goes.ite
    | exact Or.inr (reachOne w (Eq.refl _)) | exact Or.inl rfl | simp only [Goes.mk_eq]
    | with_reducible apply GoesMk.upd | split | dsimp only)

theorem setSyncOpen_goes {ps : List Part} {s0 : State} (b : Nat) (lanB : Bool) (o : Option Nat) (s : State) (h : Goes
    ps s0 s) (w : [.time] ⊆ ps) : Goes ps s0 (setSyncOpen b lanB o s) := by
  unfold setSyncOpen
  repeat' (first
    | with_reducible assumption | exact reach w (Eq.refl _) | with_reducible apply updBp_goes
    | with_reducible apply Goes.ite | exact Or.inr (reachOne w (Eq.refl _)) | exact Or.inl rfl
    | simp only [Goes.mk_eq] | with_reducible apply GoesMk.upd | split | dsimp only)

theorem ptpReceive_goes {ps : List Part} {s0 : State} (port : Nat) (m : PtpMsg) (s : State) (h : Goes ps s0 s) (w :
    [.time, .log, .freeCtr] ⊆ ps) : Goes ps s0 (ptpReceive port m s) := by
  unfold ptpReceive
  repeat' (first
    | with_reducible assumption | exact reach w (Eq.refl _) | with_reducible apply ptpAnnounce_goes
    | with_reducible apply setSyncOpen_goes | with_reducible apply ptpSync_goes | with_reducible apply updBp_goes
    | with_reducible apply Goes.ite | exact Or.inr (reachOne w (Eq.refl _)) | exact Or.inl rfl
    | simp only [Goes.mk_eq] | with_reducible apply GoesMk.upd | split | dsimp only)

theorem execAnnounceTimeout_goes {ps : List Part} {s0 : State} (b : Nat) (lanB : Bool) (s : State) (h : Goes ps s0 s)
    (w : [.time, .log] ⊆ ps) : GoesTo ps s0 (execAnnounceTimeout b lanB s) := by
  unfold execAnnounceTimeout
  repeat' (first
    | with_reducible assumption | exact reach w (Eq.refl _) | apply GoesTo.next | with_reducible apply takeMaster_goes
    | with_reducible apply updBp_goes | with_reducible apply Goes.ite | exact Or.inr (reachOne w (Eq.refl _))
    | exact Or.inl rfl | simp only [Goes.mk_eq] | with_reducible apply GoesMk.upd | split | dsimp only)

theorem ppsLow_goes {ps : List Part} {s0 : State} (s : State) (h : Goes ps s0 s) (w : [.time, .outbox] ⊆ ps) : Goes ps
    s0 (ppsLow s) := by
  unfold ppsLow
  repeat' (first
    | with_reducible assumption | exact reach w (Eq.refl _) | with_reducible apply emit_goes
    | with_reducible apply Goes.ite | exact Or.inr (reachOne w (Eq.refl _)) | exact Or.inl rfl
    | simp only [Goes.mk_eq] | with_reducible apply GoesMk.upd | split | dsimp only)

theorem execFreerunEntry_goes {ps : List Part} {s0 : State} (s : State) (h : Goes ps s0 s) (w : [.time, .log, .outbox]
    ⊆ ps) : GoesTo ps s0 (execFreerunEntry s) := by
  unfold execFreerunEntry
  repeat' (first
    | with_reducible assumption | exact reach w (Eq.refl _) | apply GoesTo.next | with_reducible apply ppsLow_goes
    | with_reducible apply event_goes | with_reducible apply Goes.ite | exact Or.inr (reachOne w (Eq.refl _))
    | exact Or.inl rfl | simp only [Goes.mk_eq] | with_reducible apply GoesMk.upd | split | dsimp only)

theorem execRevertHoldExpiry_goes {ps : List Part} {s0 : State} (b : Nat) (s : State) (h : Goes ps s0 s) (w : [.time,
    .log] ⊆ ps) : GoesTo ps s0 (execRevertHoldExpiry b s) := by
  unfold execRevertHoldExpiry
  repeat' (first
    | with_reducible assumption | exact reach w (Eq.refl _) | apply GoesTo.next
    | with_reducible apply noteDisagree_goes | with_reducible apply sourceChange_goes | with_reducible apply Goes.ite
    | split | dsimp only)

theorem execPpsInEdge_goes {ps : List Part} {s0 : State} (s : State) (h : Goes ps s0 s) (w : [.time, .log] ⊆ ps) :
    GoesTo ps s0 (execPpsInEdge s) := by
  unfold execPpsInEdge
  repeat' (first
    | with_reducible assumption | exact reach w (Eq.refl _) | apply GoesTo.next
    | with_reducible apply noteDisagree_goes | with_reducible apply Goes.ite | exact Or.inr (reachOne w (Eq.refl _))
    | exact Or.inl rfl | simp only [Goes.mk_eq] | with_reducible apply GoesMk.upd | split | dsimp only)

theorem execPpsInTimeout_goes {ps : List Part} {s0 : State} (s : State) (h : Goes ps s0 s) (w : [.time] ⊆ ps) : GoesTo
    ps s0 (execPpsInTimeout s) := by
  unfold execPpsInTimeout
  repeat' (first
    | with_reducible assumption | apply GoesTo.next | with_reducible apply Goes.ite
    | exact Or.inr (reachOne w (Eq.refl _)) | exact Or.inl rfl | simp only [Goes.mk_eq]
    | with_reducible apply GoesMk.upd | split | dsimp only)

theorem execPpsOutPulse_goes {ps : List Part} {s0 : State} (rise : Bool) (s : State) (h : Goes ps s0 s) (w : [.time,
    .outbox] ⊆ ps) : GoesTo ps s0 (execPpsOutPulse rise s) := by
  unfold execPpsOutPulse
  repeat' (first
    | with_reducible assumption | exact reach w (Eq.refl _) | apply GoesTo.next | with_reducible apply emit_goes
    | with_reducible apply ppsLow_goes | with_reducible apply Goes.ite | exact Or.inr (reachOne w (Eq.refl _))
    | exact Or.inl rfl | simp only [Goes.mk_eq] | with_reducible apply GoesMk.upd | split | dsimp only)

theorem execOsc10mChange_goes {ps : List Part} {s0 : State} (err : Option Int) (s : State) (h : Goes ps s0 s) (w :
    [.time] ⊆ ps) : GoesTo ps s0 (execOsc10mChange err s) := by
  unfold execOsc10mChange
  repeat' (first
    | with_reducible assumption | apply GoesTo.next | with_reducible apply Goes.ite
    | exact Or.inr (reachOne w (Eq.refl _)) | exact Or.inl rfl | simp only [Goes.mk_eq]
    | with_reducible apply GoesMk.upd | split | dsimp only)

theorem sysTimecfgEff_goes {ps : List Part} {s0 : State} (c : Cmd) (s : State) (h : Goes ps s0 s) (w : [.time, .log] ⊆
    ps) : Goes ps s0 (sysTimecfgEff c s).st := by
  unfold sysTimecfgEff
  repeat' (first
    | with_reducible assumption | exact reach w (Eq.refl _) | with_reducible apply done_goes
    | with_reducible apply reselect_goes | exact Or.inr (reachOne w (Eq.refl _)) | exact Or.inl rfl
    | simp only [Goes.mk_eq] | with_reducible apply GoesMk.upd | dsimp only)

theorem execSysTimecfg_goes {ps : List Part} {s0 : State} (c : Cmd) (s : State) (h : Goes ps s0 s) (w : [.sys,
    .journal, .deferred, .time, .span, .log, .outbox] ⊆ ps) : GoesTo ps s0 (execSysTimecfg c s) := by
  unfold execSysTimecfg
  repeat' (first
    | with_reducible assumption | exact reach w (Eq.refl _) | intro _ | apply GoesTo.next
    | with_reducible apply runConfig_goes | with_reducible apply sysTimecfgEff_goes | dsimp only)

theorem sysTimestepEff_goes {ps : List Part} {s0 : State} (x1 : Cmd) (s : State) (h : Goes ps s0 s) (w : [.time,
    .hawk] ⊆ ps) : Goes ps s0 (sysTimestepEff x1 s).st := by
  unfold sysTimestepEff
  repeat' (first
    | with_reducible assumption | exact reach w (Eq.refl _) | with_reducible apply done_goes
    | with_reducible apply Goes.ite | exact Or.inr (reachOne w (Eq.refl _)) | exact Or.inl rfl
    | simp only [Goes.mk_eq] | with_reducible apply GoesMk.upd | split | dsimp only)

theorem execSysTimestep_goes {ps : List Part} {s0 : State} (c : Cmd) (s : State) (h : Goes ps s0 s) (w : [.sys,
    .journal, .deferred, .time, .hawk, .span, .outbox] ⊆ ps) : GoesTo ps s0 (execSysTimestep c s) := by
  unfold execSysTimestep
  repeat' (first
    | with_reducible assumption | exact reach w (Eq.refl _) | intro _ | apply GoesTo.next
    | with_reducible apply runConfig_goes | with_reducible apply sysTimestepEff_goes | dsimp only)

theorem tick_goes {ps : List Part} {s0 : State} (s : State) (h : Goes ps s0 s) (w : [.time, .log] ⊆ ps) : Goes ps s0
    (tick s) := by
  unfold tick
  repeat' (first
    | with_reducible assumption | exact reach w (Eq.refl _) | with_reducible apply calmInterval_goes
    | with_reducible apply Goes.ite | exact Or.inr (reachOne w (Eq.refl _)) | exact Or.inl rfl
    | simp only [Goes.mk_eq] | with_reducible apply GoesMk.upd | split | dsimp only)

theorem updMdc_goes {ps : List Part} {s0 : State} (g : List MetaEnt → List MetaEnt) (s : State) (h : Goes ps s0 s) (w
    : [.sealer] ⊆ ps) : Goes ps s0 (updMdc g s) := by
  unfold updMdc
  repeat' (first
    | with_reducible assumption | exact Or.inr (reachOne w (Eq.refl _)) | exact Or.inl rfl | simp only [Goes.mk_eq]
    | with_reducible apply GoesMk.upd | dsimp only)

theorem touchItem_goes {ps : List Part} {s0 : State} (rid level idx : Nat) (dirty : Bool) (s : State) (h : Goes ps s0
    s) (w : [.sealer] ⊆ ps) : Goes ps s0 (touchItem rid level idx dirty s) := by
  unfold touchItem
  repeat' (first
    | with_reducible assumption | exact reach w (Eq.refl _) | with_reducible apply updMdc_goes | dsimp only)

theorem writeBackItem_goes {ps : List Part} {s0 : State} (e : MetaEnt) (s : State) (h : Goes ps s0 s) (w : [.sealer,
    .outbox] ⊆ ps) : Goes ps s0 (writeBackItem e s) := by
  unfold writeBackItem
  repeat' (first
    | with_reducible assumption | exact reach w (Eq.refl _) | with_reducible apply updReg_goes
    | with_reducible apply emit_goes | with_reducible apply updMdc_goes | with_reducible apply Goes.ite
    | exact Or.inr (reachOne w (Eq.refl _)) | exact Or.inl rfl | simp only [Goes.mk_eq]
    | with_reducible apply GoesMk.upd | split | dsimp only)

theorem evictItem_goes {ps : List Part} {s0 : State} (s : State) (h : Goes ps s0 s) (w : [.sealer, .outbox] ⊆ ps) :
    Goes ps s0 (evictItem s) := by
  unfold evictItem
  repeat' (first
    | with_reducible assumption | exact reach w (Eq.refl _) | with_reducible apply updMdc_goes
    | with_reducible apply writeBackItem_goes | with_reducible apply Goes.ite | exact Or.inr (reachOne w (Eq.refl _))
    | exact Or.inl rfl | simp only [Goes.mk_eq] | with_reducible apply GoesMk.upd | split | dsimp only)

theorem touchPath_goes {ps : List Part} {s0 : State} (rid lbn : Nat) (line node : Bool) (s : State) (h : Goes ps s0 s)
    (w : [.sealer, .outbox] ⊆ ps) : Goes ps s0 (touchPath rid lbn line node s) := by
  unfold touchPath
  repeat' (first
    | with_reducible assumption | exact reach w (Eq.refl _) | intro _ | with_reducible apply evictItem_goes
    | with_reducible apply touchItem_goes | with_reducible apply Goes.foldl | with_reducible apply Goes.foldl1
    | with_reducible apply Goes.foldl2 | dsimp only)

theorem putSector_goes {ps : List Part} {s0 : State} (rid lbn gen : Nat) (plain : List Byte) (s : State) (h : Goes ps
    s0 s) (w : [.sealer, .outbox] ⊆ ps) : Goes ps s0 (putSector rid lbn gen plain s) := by
  unfold putSector
  repeat' (first
    | with_reducible assumption | exact reach w (Eq.refl _) | with_reducible apply updReg_goes
    | with_reducible apply emit_goes | with_reducible apply touchPath_goes | exact Or.inr (reachOne w (Eq.refl _))
    | exact Or.inl rfl | simp only [Goes.mk_eq] | with_reducible apply GoesMk.upd | dsimp only)

theorem sealWrite_goes {ps : List Part} {s0 : State} (rid lbn : Nat) (plain : List Byte) (s : State) (h : Goes ps s0
    s) (w : [.sealer, .log, .outbox] ⊆ ps) : Goes ps s0 (sealWrite rid lbn plain s) := by
  unfold sealWrite
  repeat' (first
    | with_reducible assumption | exact reach w (Eq.refl _) | with_reducible apply putSector_goes
    | with_reducible apply event_goes | with_reducible apply updReg_goes | with_reducible apply cntSlr_goes
    | with_reducible apply Goes.ite | exact Or.inr (reachOne w (Eq.refl _)) | exact Or.inl rfl
    | simp only [Goes.mk_eq] | with_reducible apply GoesMk.upd | split | dsimp only)

theorem writeBackCtx_goes {ps : List Part} {s0 : State} (k : Nat) (s : State) (h : Goes ps s0 s) (w : [.skim, .sealer,
    .log, .outbox] ⊆ ps) : Goes ps s0 (writeBackCtx k s) := by
  unfold writeBackCtx
  repeat' (first
    | with_reducible assumption | exact reach w (Eq.refl _) | with_reducible apply sealWrite_goes
    | with_reducible apply Goes.ite | exact Or.inr (reachOne w (Eq.refl _)) | exact Or.inl rfl
    | simp only [Goes.mk_eq] | with_reducible apply GoesMk.upd | split | dsimp only)

theorem trimCache_goes {ps : List Part} {s0 : State} (s : State) (h : Goes ps s0 s) (w : [.skim, .sealer, .log,
    .outbox] ⊆ ps) : Goes ps s0 (trimCache s) := by
  unfold trimCache
  repeat' (first
    | with_reducible assumption | exact reach w (Eq.refl _) | intro _ | with_reducible apply writeBackCtx_goes
    | with_reducible apply Goes.foldl | with_reducible apply Goes.foldl1 | with_reducible apply Goes.foldl2
    | with_reducible apply Goes.ite | exact Or.inr (reachOne w (Eq.refl _)) | exact Or.inl rfl
    | simp only [Goes.mk_eq] | with_reducible apply GoesMk.upd | split | dsimp only)

theorem touchCtx_goes {ps : List Part} {s0 : State} (k : Nat) (s : State) (h : Goes ps s0 s) (w : [.skim, .sealer,
    .log, .outbox] ⊆ ps) : Goes ps s0 (touchCtx k s) := by
  unfold touchCtx
  repeat' (first
    | with_reducible assumption | exact reach w (Eq.refl _) | with_reducible apply trimCache_goes
    | exact Or.inr (reachOne w (Eq.refl _)) | exact Or.inl rfl | simp only [Goes.mk_eq]
    | with_reducible apply GoesMk.upd | dsimp only)

theorem newCtx_goes {ps : List Part} {s0 : State} (k : Nat) (x : Ctx) (s : State) (h : Goes ps s0 s) (w : [.skim,
    .sealer, .log, .outbox] ⊆ ps) : Goes ps s0 (newCtx k x s) := by
  unfold newCtx
  repeat' (first
    | with_reducible assumption | exact reach w (Eq.refl _) | with_reducible apply dirtyCtx_goes
    | with_reducible apply trimCache_goes | with_reducible apply touchCtx_goes | with_reducible apply Goes.ite
    | exact Or.inr (reachOne w (Eq.refl _)) | exact Or.inl rfl | simp only [Goes.mk_eq]
    | with_reducible apply GoesMk.upd | split | dsimp only)

theorem freeCtx_goes {ps : List Part} {s0 : State} (k : Nat) (s : State) (h : Goes ps s0 s) (w : [.skim] ⊆ ps) : Goes
    ps s0 (freeCtx k s) := by
  unfold freeCtx
  repeat' (first
    | with_reducible assumption | exact Or.inr (reachOne w (Eq.refl _)) | exact Or.inl rfl | simp only [Goes.mk_eq]
    | with_reducible apply GoesMk.upd | dsimp only)

theorem nextSeq_goes {ps : List Part} {s0 : State} (b : Nat) (s : State) (h : Goes ps s0 s) (w : [.bpcfg] ⊆ ps) : Goes
    ps s0 (nextSeq b s).2 := by
  unfold nextSeq
  repeat' (first
    | with_reducible assumption | exact reach w (Eq.refl _) | with_reducible apply updCfg_goes
    | with_reducible apply Goes.ite | exact Or.inr (reachOne w (Eq.refl _)) | exact Or.inl rfl
    | simp only [Goes.mk_eq] | with_reducible apply GoesMk.upd | split | dsimp only)

theorem nextSeq_pair {ps : List Part} {s0 s1 : State} {b : Nat} {s : State} {z} (e : nextSeq b s = (z, s1)) (h : Goes
    ps s0 s) (w : [.bpcfg] ⊆ ps) : Goes ps s0 s1 := by
  have g := nextSeq_goes (s0 := s0) b s h w
  rw [e] at g; exact g

theorem enqueue_goes {ps : List Part} {s0 : State} (port q : Nat) (f : TxFrame) (s : State) (h : Goes ps s0 s) (w :
    [.ports] ⊆ ps) : Goes ps s0 (enqueue port q f s) := by
  unfold enqueue
  repeat' (first
    | with_reducible assumption | exact reach w (Eq.refl _) | with_reducible apply updPort_goes
    | with_reducible apply Goes.ite | exact Or.inr (reachOne w (Eq.refl _)) | exact Or.inl rfl
    | simp only [Goes.mk_eq] | with_reducible apply GoesMk.upd | split | dsimp only)

theorem sendBoth_goes {ps : List Part} {s0 : State} (b q : Nat) (body : TxBody) (plain : List Byte) (vlan src : Nat)
    (s : State) (h : Goes ps s0 s) (w : [.ports, .bpcfg] ⊆ ps) : Goes ps s0 (sendBoth b q body plain vlan src s) := by
  unfold sendBoth
  repeat' (first
    | with_reducible assumption | exact reach w (Eq.refl _) | with_reducible apply nextSeq_goes
    | refine nextSeq_pair (by with_reducible assumption) ?_ ?_ | with_reducible apply enqueue_goes | dsimp only)

theorem keyPromoteLog_goes {ps : List Part} {s0 : State} (ctx slot : Nat) (keyId : W32) (s : State) (h : Goes ps s0 s)
    (w : [.log] ⊆ ps) : Goes ps s0 (keyPromoteLog ctx slot keyId s) := by
  unfold keyPromoteLog
  repeat' (first
    | with_reducible assumption | exact reach w (Eq.refl _) | with_reducible apply logEv_goes | dsimp only)

theorem switchTxSa_goes {ps : List Part} {s0 : State} (port : Nat) (s : State) (h : Goes ps s0 s) (w : [.ports, .skim,
    .log] ⊆ ps) : Goes ps s0 (switchTxSa port s) := by
  unfold switchTxSa
  repeat' (first
    | with_reducible assumption | exact reach w (Eq.refl _) | with_reducible apply freeCtx_goes
    | with_reducible apply updCtx_goes | with_reducible apply updPort_goes | with_reducible apply keyPromoteLog_goes
    | exact Or.inr (reachOne w (Eq.refl _)) | exact Or.inl rfl | simp only [Goes.mk_eq]
    | with_reducible apply GoesMk.upd | split | dsimp only)

theorem takePn_goes {ps : List Part} {s0 : State} (port : Nat) (s : State) (h : Goes ps s0 s) (w : [.ports, .skim,
    .log] ⊆ ps) : Goes ps s0 (takePn port s).2 := by
  unfold takePn
  repeat' (first
    | with_reducible assumption | exact reach w (Eq.refl _) | with_reducible apply updCtx_goes
    | with_reducible apply portEvent_goes | with_reducible apply updPort_goes | with_reducible apply switchTxSa_goes
    | with_reducible apply Goes.ite | exact Or.inr (reachOne w (Eq.refl _)) | exact Or.inl rfl
    | simp only [Goes.mk_eq] | with_reducible apply GoesMk.upd | split | dsimp only)

theorem takePn_pair {ps : List Part} {s0 s1 : State} {port : Nat} {s : State} {z} (e : takePn port s = (z, s1)) (h :
    Goes ps s0 s) (w : [.ports, .skim, .log] ⊆ ps) : Goes ps s0 s1 := by
  have g := takePn_goes (s0 := s0) port s h w
  rw [e] at g; exact g

theorem startFrame_goes {ps : List Part} {s0 : State} (n : Nat) (f : TxFrame) (m : Option (Nat × Nat)) (w_ : List
    Byte) (s : State) (h : Goes ps s0 s) (w : [.ports, .outbox] ⊆ ps) : Goes ps s0 (startFrame n f m w_ s) := by
  unfold startFrame
  repeat' (first
    | with_reducible assumption | exact reach w (Eq.refl _) | with_reducible apply updPort_goes
    | with_reducible apply emit_goes | with_reducible apply cntPort_goes | with_reducible apply Goes.ite
    | exact Or.inr (reachOne w (Eq.refl _)) | exact Or.inl rfl | simp only [Goes.mk_eq]
    | with_reducible apply GoesMk.upd | split | dsimp only)

theorem transmit_goes {ps : List Part} {s0 : State} (n : Nat) (f : TxFrame) (s : State) (h : Goes ps s0 s) (w :
    [.ports, .skim, .log, .outbox] ⊆ ps) : Goes ps s0 (transmit n f s) := by
  unfold transmit
  repeat' (first
    | with_reducible assumption | exact reach w (Eq.refl _) | with_reducible apply takePn_goes
    | refine takePn_pair (by with_reducible assumption) ?_ ?_ | with_reducible apply startFrame_goes
    | with_reducible apply Goes.ite | exact Or.inr (reachOne w (Eq.refl _)) | exact Or.inl rfl
    | simp only [Goes.mk_eq] | with_reducible apply GoesMk.upd | split | dsimp only)

theorem flushAnnounce_goes {ps : List Part} {s0 : State} (n : Nat) (s : State) (h : Goes ps s0 s) (w : [.ports, .skim,
    .log, .outbox] ⊆ ps) : Goes ps s0 (flushAnnounce n s) := by
  unfold flushAnnounce
  repeat' (first
    | with_reducible assumption | exact reach w (Eq.refl _) | intro _ | with_reducible apply updPort_goes
    | with_reducible apply transmit_goes | with_reducible apply Goes.foldl | with_reducible apply Goes.foldl1
    | with_reducible apply Goes.foldl2 | exact Or.inr (reachOne w (Eq.refl _)) | exact Or.inl rfl
    | simp only [Goes.mk_eq] | with_reducible apply GoesMk.upd | dsimp only)

theorem sendHeartbeat_goes {ps : List Part} {s0 : State} (b type cause : Nat) (s : State) (h : Goes ps s0 s) (w :
    [.ports, .bpcfg] ⊆ ps) : Goes ps s0 (sendHeartbeat b type cause s) := by
  unfold sendHeartbeat
  repeat' (first
    | with_reducible assumption | exact reach w (Eq.refl _) | with_reducible apply sendBoth_goes
    | with_reducible apply Goes.ite | split | dsimp only)

theorem announceFailure_goes {ps : List Part} {s0 : State} (cause : Nat) (s : State) (h : Goes ps s0 s) (w : [.ports,
    .bpcfg, .skim, .log, .outbox] ⊆ ps) : Goes ps s0 (announceFailure cause s) := by
  unfold announceFailure
  repeat' (first
    | with_reducible assumption | exact reach w (Eq.refl _) | intro _ | with_reducible apply emit_goes
    | with_reducible apply sendHeartbeat_goes | with_reducible apply flushAnnounce_goes
    | with_reducible apply Goes.foldl | with_reducible apply Goes.foldl1 | with_reducible apply Goes.foldl2
    | with_reducible apply Goes.ite | exact Or.inr (reachOne w (Eq.refl _)) | exact Or.inl rfl
    | simp only [Goes.mk_eq] | with_reducible apply GoesMk.upd | split | dsimp only)

theorem frameGone_goes {ps : List Part} {s0 : State} (c : Nat) (s : State) (h : Goes ps s0 s) (w : [.skim, .publ] ⊆
    ps) : Goes ps s0 (frameGone c s) := by
  unfold frameGone
  repeat' (first
    | with_reducible assumption | exact reach w (Eq.refl _) | with_reducible apply updCtx_goes
    | with_reducible apply freeCtx_goes | with_reducible apply Goes.ite | exact Or.inr (reachOne w (Eq.refl _))
    | exact Or.inl rfl | simp only [Goes.mk_eq] | with_reducible apply GoesMk.upd | split | dsimp only)

theorem cutFrame_goes {ps : List Part} {s0 : State} (n : Nat) (s : State) (h : Goes ps s0 s) (w : [.ports, .outbox] ⊆
    ps) : Goes ps s0 (cutFrame n s) := by
  unfold cutFrame
  repeat' (first
    | with_reducible assumption | exact reach w (Eq.refl _) | with_reducible apply emit_goes
    | with_reducible apply cntPort_goes | with_reducible apply updPort_goes | with_reducible apply Goes.ite
    | exact Or.inr (reachOne w (Eq.refl _)) | exact Or.inl rfl | simp only [Goes.mk_eq]
    | with_reducible apply GoesMk.upd | split | dsimp only)

theorem portLeave_goes {ps : List Part} {s0 : State} (n st : Nat) (s : State) (h : Goes ps s0 s) (w : [.time, .ports,
    .skim, .publ, .log, .outbox] ⊆ ps) : Goes ps s0 (portLeave n st s) := by
  unfold portLeave
  repeat' (first
    | with_reducible assumption | exact reach w (Eq.refl _) | intro _ | with_reducible apply cutFrame_goes
    | with_reducible apply updPort_goes | with_reducible apply frameGone_goes | with_reducible apply updBp_goes
    | with_reducible apply takeMaster_goes | with_reducible apply bpDead_goes | with_reducible apply Goes.foldl
    | with_reducible apply Goes.foldl1 | with_reducible apply Goes.foldl2 | with_reducible apply Goes.ite
    | exact Or.inr (reachOne w (Eq.refl _)) | exact Or.inl rfl | simp only [Goes.mk_eq]
    | with_reducible apply GoesMk.upd | split | dsimp only)

theorem portDown_goes {ps : List Part} {s0 : State} (n : Nat) (s : State) (h : Goes ps s0 s) (w : [.time, .ports,
    .skim, .publ, .log, .outbox] ⊆ ps) : Goes ps s0 (portDown n s) := by
  unfold portDown
  repeat' (first
    | with_reducible assumption | exact reach w (Eq.refl _) | with_reducible apply portEvent_goes
    | with_reducible apply cntPort_goes | with_reducible apply portLeave_goes | with_reducible apply Goes.ite | split
    | dsimp only)

theorem portDisable_goes {ps : List Part} {s0 : State} (n : Nat) (s : State) (h : Goes ps s0 s) (w : [.time, .ports,
    .skim, .publ, .log, .outbox] ⊆ ps) : Goes ps s0 (portDisable n s) := by
  unfold portDisable
  repeat' (first
    | with_reducible assumption | exact reach w (Eq.refl _) | with_reducible apply portStateLog_goes
    | with_reducible apply portLeave_goes | with_reducible apply Goes.ite | split | dsimp only)

theorem enablePorts_goes {ps : List Part} {s0 : State} (s : State) (h : Goes ps s0 s) (w : [.time, .ports, .skim,
    .publ, .log, .outbox] ⊆ ps) : Goes ps s0 (enablePorts s) := by
  unfold enablePorts
  repeat' (first
    | with_reducible assumption | exact reach w (Eq.refl _) | intro _ | with_reducible apply portDown_goes
    | with_reducible apply updBp_goes | with_reducible apply Goes.foldl | with_reducible apply Goes.foldl1
    | with_reducible apply Goes.foldl2 | with_reducible apply Goes.ite | exact Or.inr (reachOne w (Eq.refl _))
    | exact Or.inl rfl | simp only [Goes.mk_eq] | with_reducible apply GoesMk.upd | split | dsimp only)

theorem execPortSignalLoss_goes {ps : List Part} {s0 : State} (n : Nat) (s : State) (h : Goes ps s0 s) (w : [.time,
    .ports, .skim, .publ, .log, .outbox] ⊆ ps) : GoesTo ps s0 (execPortSignalLoss n s) := by
  unfold execPortSignalLoss
  repeat' (first
    | with_reducible assumption | exact reach w (Eq.refl _) | apply GoesTo.next | with_reducible apply updPort_goes
    | with_reducible apply portDown_goes | with_reducible apply Goes.ite | exact Or.inr (reachOne w (Eq.refl _))
    | exact Or.inl rfl | simp only [Goes.mk_eq] | with_reducible apply GoesMk.upd | split | dsimp only)

theorem execPortUp_goes {ps : List Part} {s0 : State} (n : Nat) (negotiated : Bool) (s : State) (h : Goes ps s0 s) (w
    : [.time, .ports, .skim, .publ, .log, .outbox] ⊆ ps) : GoesTo ps s0 (execPortUp n negotiated s) := by
  unfold execPortUp
  repeat' (first
    | with_reducible assumption | exact reach w (Eq.refl _) | apply GoesTo.next | with_reducible apply portDown_goes
    | with_reducible apply updPort_goes | with_reducible apply updBp_goes | with_reducible apply portEvent_goes
    | with_reducible apply Goes.ite | exact Or.inr (reachOne w (Eq.refl _)) | exact Or.inl rfl
    | simp only [Goes.mk_eq] | with_reducible apply GoesMk.upd | split | dsimp only)

theorem execPortDegraded_goes {ps : List Part} {s0 : State} (n errs : Nat) (s : State) (h : Goes ps s0 s) (w :
    [.ports, .log] ⊆ ps) : GoesTo ps s0 (execPortDegraded n errs s) := by
  unfold execPortDegraded
  repeat' (first
    | with_reducible assumption | exact reach w (Eq.refl _) | apply GoesTo.next | with_reducible apply portEvent_goes
    | with_reducible apply updPort_goes | with_reducible apply Goes.ite | exact Or.inr (reachOne w (Eq.refl _))
    | exact Or.inl rfl | simp only [Goes.mk_eq] | with_reducible apply GoesMk.upd | split | dsimp only)

theorem execPortUndegrade_goes {ps : List Part} {s0 : State} (n : Nat) (s : State) (h : Goes ps s0 s) (w : [.ports,
    .log] ⊆ ps) : GoesTo ps s0 (execPortUndegrade n s) := by
  unfold execPortUndegrade
  repeat' (first
    | with_reducible assumption | exact reach w (Eq.refl _) | apply GoesTo.next
    | with_reducible apply portStateLog_goes | with_reducible apply updPort_goes | with_reducible apply Goes.ite
    | exact Or.inr (reachOne w (Eq.refl _)) | exact Or.inl rfl | simp only [Goes.mk_eq]
    | with_reducible apply GoesMk.upd | split | dsimp only)

theorem correct_goes {ps : List Part} {s0 : State} (n : Nat) (f : TxFrame) (s : State) (h : Goes ps s0 s) (w :
    [.ports] ⊆ ps) : Goes ps s0 (correct n f s).2 := by
  unfold correct
  repeat' (first
    | with_reducible assumption | exact reach w (Eq.refl _) | with_reducible apply hsrForward_goes
    | with_reducible apply updPort_goes | exact Or.inr (reachOne w (Eq.refl _)) | exact Or.inl rfl
    | simp only [Goes.mk_eq] | with_reducible apply GoesMk.upd | split | dsimp only)

theorem correct_pair {ps : List Part} {s0 s1 : State} {n : Nat} {f : TxFrame} {s : State} {z} (e : correct n f s = (z,
    s1)) (h : Goes ps s0 s) (w : [.ports] ⊆ ps) : Goes ps s0 s1 := by
  have g := correct_goes (s0 := s0) n f s h w
  rw [e] at g; exact g

theorem execPortTransmit_goes {ps : List Part} {s0 : State} (n : Nat) (s : State) (h : Goes ps s0 s) (w : [.ports,
    .skim, .publ, .log, .outbox] ⊆ ps) : GoesTo ps s0 (execPortTransmit n s) := by
  unfold execPortTransmit
  repeat' (first
    | with_reducible assumption | exact reach w (Eq.refl _) | apply GoesTo.next | with_reducible apply updPort_goes
    | with_reducible apply frameGone_goes | with_reducible apply correct_goes
    | refine correct_pair (by with_reducible assumption) ?_ ?_ | with_reducible apply transmit_goes
    | with_reducible apply Goes.ite | exact Or.inr (reachOne w (Eq.refl _)) | exact Or.inl rfl
    | simp only [Goes.mk_eq] | with_reducible apply GoesMk.upd | split | dsimp only)

theorem execPrpSupervision_goes {ps : List Part} {s0 : State} (b : Nat) (s : State) (h : Goes ps s0 s) (w : [.ports,
    .bpcfg] ⊆ ps) : GoesTo ps s0 (execPrpSupervision b s) := by
  unfold execPrpSupervision
  repeat' (first
    | with_reducible assumption | exact reach w (Eq.refl _) | apply GoesTo.next | with_reducible apply sendBoth_goes
    | with_reducible apply updCfg_goes | with_reducible apply Goes.ite | exact Or.inr (reachOne w (Eq.refl _))
    | exact Or.inl rfl | simp only [Goes.mk_eq] | with_reducible apply GoesMk.upd | split | dsimp only)

theorem sendPdelay_goes {ps : List Part} {s0 : State} (n : Nat) (body : TxBody) (plain : List Byte) (s : State) (h :
    Goes ps s0 s) (w : [.ports, .bpcfg] ⊆ ps) : Goes ps s0 (sendPdelay n body plain s) := by
  unfold sendPdelay
  repeat' (first
    | with_reducible assumption | exact reach w (Eq.refl _) | with_reducible apply nextSeq_goes
    | refine nextSeq_pair (by with_reducible assumption) ?_ ?_ | with_reducible apply enqueue_goes
    | with_reducible apply Goes.ite | exact Or.inr (reachOne w (Eq.refl _)) | exact Or.inl rfl
    | simp only [Goes.mk_eq] | with_reducible apply GoesMk.upd | split | dsimp only)

theorem execPdelayRequest_goes {ps : List Part} {s0 : State} (n : Nat) (s : State) (h : Goes ps s0 s) (w : [.time,
    .ports, .bpcfg] ⊆ ps) : GoesTo ps s0 (execPdelayRequest n s) := by
  unfold execPdelayRequest
  repeat' (first
    | with_reducible assumption | exact reach w (Eq.refl _) | apply GoesTo.next | with_reducible apply updBp_goes
    | with_reducible apply sendPdelay_goes | with_reducible apply Goes.ite | exact Or.inr (reachOne w (Eq.refl _))
    | exact Or.inl rfl | simp only [Goes.mk_eq] | with_reducible apply GoesMk.upd | split | dsimp only)

theorem answerPdelay_goes {ps : List Part} {s0 : State} (n domain q : Nat) (port : List Byte) (s : State) (h : Goes ps
    s0 s) (w : [.ports, .bpcfg] ⊆ ps) : Goes ps s0 (answerPdelay n domain q port s) := by
  unfold answerPdelay
  repeat' (first
    | with_reducible assumption | exact reach w (Eq.refl _) | with_reducible apply sendPdelay_goes
    | with_reducible apply Goes.ite | split | dsimp only)

theorem dropSa_goes {ps : List Part} {s0 : State} (k : Nat) (s : State) (h : Goes ps s0 s) (w : [.skim] ⊆ ps) : Goes
    ps s0 (dropSa k s) := by
  unfold dropSa
  repeat' (first
    | with_reducible assumption | exact reach w (Eq.refl _) | with_reducible apply freeCtx_goes
    | with_reducible apply dropIndex_goes | dsimp only)

theorem installSa_goes {ps : List Part} {s0 : State} (xpn : Bool) (b : Nat) (a : SaSpec) (s : State) (h : Goes ps s0
    s) (w : [.ports, .skim, .sealer, .log, .freeCtr, .outbox] ⊆ ps) : Goes ps s0 (installSa xpn b a s).1 := by
  unfold installSa
  repeat' (first
    | with_reducible assumption | exact reach w (Eq.refl _) | intro _ | with_reducible apply newCtx_goes
    | with_reducible apply dropSa_goes | with_reducible apply switchTxSa_goes | with_reducible apply addIndex_goes
    | refine addIndex_pair (by with_reducible assumption) ?_ ?_ | with_reducible apply Goes.foldl
    | with_reducible apply Goes.foldl1 | with_reducible apply Goes.foldl2 | with_reducible apply Goes.ite
    | exact Or.inr (reachOne w (Eq.refl _)) | exact Or.inl rfl | simp only [Goes.mk_eq]
    | with_reducible apply GoesMk.upd | split | dsimp only)

theorem installSa_pair {ps : List Part} {s0 s1 : State} {xpn : Bool} {b : Nat} {a : SaSpec} {s : State} {z} (e :
    installSa xpn b a s = (s1, z)) (h : Goes ps s0 s) (w : [.ports, .skim, .sealer, .log, .freeCtr, .outbox] ⊆ ps) :
    Goes ps s0 s1 := by
  have g := installSa_goes (s0 := s0) xpn b a s h w
  rw [e] at g; exact g

theorem sysPortcfgEff_goes {ps : List Part} {s0 : State} (c : Cmd) (s : State) (h : Goes ps s0 s) (w : [.time, .ports,
    .bpcfg, .skim, .publ, .sealer, .log, .freeCtr, .outbox] ⊆ ps) : Goes ps s0 (sysPortcfgEff c s).1 := by
  unfold sysPortcfgEff
  repeat' (first
    | with_reducible assumption | exact reach w (Eq.refl _) | intro _ | with_reducible apply updCfg_goes
    | with_reducible apply installSa_goes | refine installSa_pair (by with_reducible assumption) ?_ ?_
    | with_reducible apply portDown_goes | with_reducible apply Goes.foldl | with_reducible apply Goes.foldl1
    | with_reducible apply Goes.foldl2 | with_reducible apply Goes.ite | exact Or.inr (reachOne w (Eq.refl _))
    | exact Or.inl rfl | simp only [Goes.mk_eq] | with_reducible apply GoesMk.upd | split | dsimp only)

theorem sysPortcfgEff_pair {ps : List Part} {s0 s1 : State} {c : Cmd} {s : State} {z} (e : sysPortcfgEff c s = (s1,
    z)) (h : Goes ps s0 s) (w : [.time, .ports, .bpcfg, .skim, .publ, .sealer, .log, .freeCtr, .outbox] ⊆ ps) : Goes
    ps s0 s1 := by
  have g := sysPortcfgEff_goes (s0 := s0) c s h w
  rw [e] at g; exact g

theorem applyIndexed_goes {ps : List Part} {s0 : State} (check : Cmd → State → Option Nat) (eff : Cmd → State → State
    × Bool) (c : Cmd) (s : State) (h : Goes ps s0 s) (heff : ∀ a0 s, Goes ps s0 s → Goes ps s0 (eff a0 s).1) (w :
    [.sys, .journal, .skim, .span, .outbox] ⊆ ps) : Goes ps s0 (applyIndexed check eff c s) := by
  unfold applyIndexed
  repeat' (first
    | with_reducible assumption | exact reach w (Eq.refl _) | apply heff | with_reducible apply settle_goes
    | with_reducible apply bumpEpoch_goes | with_reducible apply mirrorItem_goes | with_reducible apply startCmd_goes
    | with_reducible apply Goes.ite | exact Or.inr (reachOne w (Eq.refl _))
    | exact Or.inr ⟨reachOne w (Eq.refl _), rfl⟩ | exact Or.inr ⟨reachOne w (Eq.refl _), rfl, rfl, rfl, rfl, rfl⟩
    | exact Or.inl rfl | simp only [Goes.mk_eq] | with_reducible apply GoesMk.upd | split | dsimp only)

theorem execSysPortcfg_goes {ps : List Part} {s0 : State} (c : Cmd) (s : State) (h : Goes ps s0 s) (w : [.sys,
    .journal, .deferred, .time, .ports, .bpcfg, .skim, .publ, .sealer, .span, .log, .freeCtr, .outbox] ⊆ ps) : GoesTo
    ps s0 (execSysPortcfg c s) := by
  unfold execSysPortcfg
  repeat' (first
    | with_reducible assumption | exact reach w (Eq.refl _) | intro _ | apply GoesTo.next
    | with_reducible apply runConfigBy_goes | with_reducible apply applyIndexed_goes
    | with_reducible apply sysPortcfgEff_goes | refine sysPortcfgEff_pair (by with_reducible assumption) ?_ ?_
    | dsimp only)

theorem withdrawMbox_goes {ps : List Part} {s0 : State} (tok : Nat) (s : State) (h : Goes ps s0 s) (w : [.trowel] ⊆
    ps) : Goes ps s0 (withdrawMbox tok s) := by
  unfold withdrawMbox
  repeat' (first
    | with_reducible assumption | with_reducible apply Goes.ite | exact Or.inr (reachOne w (Eq.refl _))
    | exact Or.inr ⟨reachOne w (Eq.refl _), fun c => c⟩ | exact Or.inr ⟨reachOne w (Eq.refl _), fun c => canon_mdel c⟩
    | exact Or.inr ⟨reachOne w (Eq.refl _), fun _ _ h => absurd h List.not_mem_nil⟩
    | (refine Or.inr ⟨reachOne w (Eq.refl _), fun c => canon_map c ?_⟩; intro _ h; (try dsimp only); (repeat' split); all_goals exact canonProg_of h rfl rfl rfl)
    | exact Or.inl rfl | simp only [Goes.mk_eq] | with_reducible apply GoesMk.upd | split | dsimp only)

theorem cancel_goes {ps : List Part} {s0 : State} (tok st : Nat) (s : State) (h : Goes ps s0 s) (w : [.journal,
    .deferred, .trowel, .pke, .span, .outbox] ⊆ ps) : Goes ps s0 (cancel tok st s) := by
  unfold cancel
  repeat' (first
    | with_reducible assumption | exact reach w (Eq.refl _) | with_reducible apply withdrawMbox_goes
    | with_reducible apply settle_goes | with_reducible apply Goes.ite | exact Or.inr (reachOne w (Eq.refl _))
    | exact Or.inr ⟨reachOne w (Eq.refl _), fun c => c⟩ | exact Or.inl rfl | simp only [Goes.mk_eq]
    | with_reducible apply GoesMk.upd | split | dsimp only)

theorem endRehash_goes {ps : List Part} {s0 : State} (tok : Nat) (s : State) (h : Goes ps s0 s) (w : [.journal, .skim,
    .span, .outbox] ⊆ ps) : Goes ps s0 (endRehash tok s) := by
  unfold endRehash
  repeat' (first
    | with_reducible assumption | exact reach w (Eq.refl _) | with_reducible apply updJ_goes
    | with_reducible apply settle_goes | exact Or.inr (reachOne w (Eq.refl _)) | exact Or.inl rfl
    | simp only [Goes.mk_eq] | with_reducible apply GoesMk.upd | dsimp only)

theorem dropUnadmitted_goes {ps : List Part} {s0 : State} (p : JEntry → Bool) (s : State) (h : Goes ps s0 s) (w :
    [.journal, .outbox] ⊆ ps) : Goes ps s0 (dropUnadmitted p s) := by
  unfold dropUnadmitted
  repeat' (first
    | with_reducible assumption | exact reach w (Eq.refl _) | intro _ | with_reducible apply mirrorItem_goes
    | with_reducible apply Goes.foldl | with_reducible apply Goes.foldl1 | with_reducible apply Goes.foldl2
    | exact Or.inr (reachOne w (Eq.refl _)) | exact Or.inl rfl | simp only [Goes.mk_eq]
    | with_reducible apply GoesMk.upd | dsimp only)

theorem releaseFn_goes {ps : List Part} {s0 : State} (f : Nat) (s : State) (h : Goes ps s0 s) (w : [.sys, .fns,
    .journal, .skim, .hawk, .outbox] ⊆ ps) : Goes ps s0 (releaseFn f s) := by
  unfold releaseFn
  repeat' (first
    | with_reducible assumption | exact reach w (Eq.refl _) | intro _ | with_reducible apply freeCtx_goes
    | with_reducible apply bumpMirrored_goes | with_reducible apply updFn_goes | with_reducible apply Goes.foldl
    | with_reducible apply Goes.foldl1 | with_reducible apply Goes.foldl2 | exact Or.inr (reachOne w (Eq.refl _))
    | exact Or.inr ⟨reachOne w (Eq.refl _), rfl⟩ | exact Or.inr ⟨reachOne w (Eq.refl _), rfl, rfl, rfl, rfl, rfl⟩
    | exact Or.inl rfl | simp only [Goes.mk_eq] | with_reducible apply GoesMk.upd | dsimp only)

theorem wipeLanes_goes {ps : List Part} {s0 : State} (f : Nat) (s : State) (h : Goes ps s0 s) (w : [.eng] ⊆ ps) : Goes
    ps s0 (wipeLanes f s) := by
  unfold wipeLanes
  repeat' (first
    | with_reducible assumption | with_reducible apply Goes.ite | exact Or.inr (reachOne w (Eq.refl _))
    | exact Or.inl rfl | simp only [Goes.mk_eq] | with_reducible apply GoesMk.upd | split | dsimp only)

theorem finishFnReset_goes {ps : List Part} {s0 : State} (f : Nat) (s : State) (h : Goes ps s0 s) (w : [.sys, .fns,
    .journal, .skim, .hawk, .eng, .rng, .log, .freeCtr, .outbox] ⊆ ps) : Goes ps s0 (finishFnReset f s) := by
  unfold finishFnReset
  repeat' (first
    | with_reducible assumption | exact reach w (Eq.refl _) | with_reducible apply wipeLanes_goes
    | with_reducible apply ledgerFn_goes | with_reducible apply freeOctets_goes
    | refine freeOctets_pair (by with_reducible assumption) ?_ ?_ | with_reducible apply updDrbg_goes
    | with_reducible apply updFn_goes | with_reducible apply instantiate_goes | with_reducible apply releaseFn_goes
    | with_reducible apply fnEvent_goes | with_reducible apply event_goes | with_reducible apply Goes.ite
    | exact Or.inr (reachOne w (Eq.refl _)) | exact Or.inr ⟨reachOne w (Eq.refl _), rfl⟩
    | exact Or.inr ⟨reachOne w (Eq.refl _), rfl, rfl, rfl, rfl, rfl⟩ | exact Or.inl rfl | simp only [Goes.mk_eq]
    | with_reducible apply GoesMk.upd | split | dsimp only)

theorem functionReset_goes {ps : List Part} {s0 : State} (f : Nat) (s : State) (h : Goes ps s0 s) (w : [.sys, .fns,
    .journal, .deferred, .skim, .hawk, .trowel, .eng, .pke, .rng, .pair, .span, .log, .freeCtr, .outbox] ⊆ ps) : Goes
    ps s0 (functionReset f s) := by
  unfold functionReset
  repeat' (first
    | with_reducible assumption | exact reach w (Eq.refl _) | intro _ | with_reducible apply dropUnadmitted_goes
    | with_reducible apply updFn_goes | with_reducible apply cancel_goes | with_reducible apply updJ_goes
    | with_reducible apply finishFnReset_goes | with_reducible apply Goes.foldl | with_reducible apply Goes.foldl1
    | with_reducible apply Goes.foldl2 | with_reducible apply Goes.ite | exact Or.inr (reachOne w (Eq.refl _))
    | exact Or.inr ⟨reachOne w (Eq.refl _), rfl⟩ | exact Or.inr ⟨reachOne w (Eq.refl _), fun c => c⟩
    | exact Or.inr ⟨reachOne w (Eq.refl _), rfl, rfl, rfl, rfl, rfl⟩ | exact Or.inl rfl | simp only [Goes.mk_eq]
    | with_reducible apply GoesMk.upd | split | dsimp only)

theorem measureLife_goes {ps : List Part} {s0 : State} (s : State) (h : Goes ps s0 s) (w : [.log, .fw] ⊆ ps) : Goes ps
    s0 (measureLife s) := by
  unfold measureLife
  repeat' (first
    | with_reducible assumption | exact reach w (Eq.refl _) | with_reducible apply measure_goes | dsimp only)

theorem measureOfficers_goes {ps : List Part} {s0 : State} (s : State) (h : Goes ps s0 s) (w : [.log, .fw] ⊆ ps) :
    Goes ps s0 (measureOfficers s) := by
  unfold measureOfficers
  repeat' (first
    | with_reducible assumption | exact reach w (Eq.refl _) | with_reducible apply measure_goes | dsimp only)

theorem wipeOwnerSlots_goes {ps : List Part} {s0 : State} (s : State) (h : Goes ps s0 s) (w : [.keys] ⊆ ps) : Goes ps
    s0 (wipeOwnerSlots s) := by
  unfold wipeOwnerSlots
  repeat' (first
    | with_reducible assumption | exact Or.inr (reachOne w (Eq.refl _)) | exact Or.inr ⟨reachOne w (Eq.refl _), rfl⟩
    | exact Or.inl rfl | simp only [Goes.mk_eq] | with_reducible apply GoesMk.upd | dsimp only)

theorem eraseBbkek_goes {ps : List Part} {s0 : State} (s : State) (h : Goes ps s0 s) (w : [.keys] ⊆ ps) : Goes ps s0
    (eraseBbkek s) := by
  unfold eraseBbkek
  repeat' (first
    | with_reducible assumption | exact Or.inr (reachOne w (Eq.refl _)) | exact Or.inr ⟨reachOne w (Eq.refl _), rfl⟩
    | exact Or.inl rfl | simp only [Goes.mk_eq] | with_reducible apply GoesMk.upd | dsimp only)

theorem stopDevice_goes {ps : List Part} {s0 : State} (s : State) (h : Goes ps s0 s) (w : [.time, .ports, .skim, .hawk, .trowel, .publ, .eng, .pke, .log, .outbox] ⊆ ps) :
    Goes ps s0 (stopDevice s) := by
  unfold stopDevice
  have h2 : Goes ps s0 ((List.range 8).foldl (fun s n => portDisable n s) s) :=
    Goes.foldl _ h fun _ _ h => portDisable_goes _ _ h (reach w rfl)
  dsimp only
  generalize (List.range 8).foldl (fun s n => portDisable n s) s = u at h2
  repeat' (first
    | with_reducible assumption | exact Or.inr (reachOne w (Eq.refl _))
    | exact Or.inr ⟨reachOne w (Eq.refl _), fun c => c⟩ | exact Or.inl rfl | simp only [Goes.mk_eq]
    | with_reducible apply GoesMk.upd)

theorem enterHalted_goes {ps : List Part} {s0 : State} (s : State) (h : Goes ps s0 s) (w : [.sys, .time, .ports,
    .bpcfg, .skim, .hawk, .trowel, .publ, .eng, .pke, .rng, .log, .outbox] ⊆ ps) : Goes ps s0 (enterHalted s) := by
  unfold enterHalted
  repeat' (first
    | with_reducible assumption | exact reach w (Eq.refl _) | with_reducible apply enterMode_goes
    | with_reducible apply stopDevice_goes | with_reducible apply announceFailure_goes
    | with_reducible apply rngRestart_goes | with_reducible apply Goes.ite | split | dsimp only | omega)

/-- A change of the tamper controller alone. -/
theorem tamperOnly {ps : List Part} {s : State} {x : Tamper} {l : List Part} (w : l ⊆ ps) (e : l.contains .tamper = true) :
    Within ps s { s with tamper := x } := fun p hp => by
  cases p
  case tamper => exact absurd (reachOne w e) hp
  all_goals exact Eq.refl _

theorem advanceTamper_goes {ps : List Part} {s0 : State} (src : Nat) (s : State) (h : Goes ps s0 s) (w : [.tamper, .log, .fw] ⊆ ps) :
    Goes ps s0 (advanceTamper src s) := by
  unfold advanceTamper
  split
  · refine measureLife_goes _ (h.move (fun l => ?_) (tamperOnly w rfl)) (reach w rfl)
    obtain ⟨l1, l2, l3, l4, l5⟩ := l
    exact ⟨⟨l1, l2, l3, l4, Nat.min_le_left _ _⟩, Nat.le_refl _, Nat.le_refl _, Nat.le_refl _,
      Nat.le_min.2 ⟨l5, Nat.le_succ _⟩, Eq.refl _⟩
  · repeat' (first | with_reducible assumption | exact Or.inr (reachOne w (Eq.refl _)) |
      exact Or.inr ⟨reachOne w (Eq.refl _), rfl⟩ | exact Or.inl rfl | simp only [Goes.mk_eq] |
      with_reducible apply GoesMk.upd)

theorem zeroizeLog_goes {ps : List Part} {s0 : State} (step src : Nat) (s : State) (h : Goes ps s0 s) (w : [.log] ⊆
    ps) : Goes ps s0 (zeroizeLog step src s) := by
  unfold zeroizeLog
  repeat' (first
    | with_reducible assumption | exact reach w (Eq.refl _) | with_reducible apply step_goes
    | with_reducible apply logEv_goes | dsimp only)

theorem zeroizeTwo_goes {ps : List Part} {s0 : State} (src : Nat) (s : State) (h : Goes ps s0 s) (w : [.keys, .tamper,
    .log] ⊆ ps) : Goes ps s0 (zeroizeTwo src s) := by
  unfold zeroizeTwo
  repeat' (first
    | with_reducible assumption | exact reach w (Eq.refl _) | with_reducible apply zeroizeLog_goes
    | with_reducible apply eraseBbkek_goes | exact Or.inr (reachOne w (Eq.refl _))
    | exact Or.inr ⟨reachOne w (Eq.refl _), rfl⟩ | exact Or.inl rfl | simp only [Goes.mk_eq]
    | with_reducible apply GoesMk.upd | dsimp only)

theorem zeroize_goes {ps : List Part} {s0 : State} (src : Nat) (s : State) (h : Goes ps s0 s) (w : [.sys, .time,
    .ports, .bpcfg, .skim, .hawk, .trowel, .publ, .eng, .pke, .keys, .tamper, .log, .fw, .outbox] ⊆ ps) : Goes ps s0
    (zeroize src s) := by
  unfold zeroize
  repeat' (first
    | with_reducible assumption | exact reach w (Eq.refl _) | with_reducible apply zeroizeTwo_goes
    | with_reducible apply zeroizeLog_goes | with_reducible apply announceFailure_goes
    | with_reducible apply stopDevice_goes | with_reducible apply advanceTamper_goes
    | with_reducible apply wipeOwnerSlots_goes | with_reducible apply enterMode_goes | with_reducible apply Goes.ite
    | exact Or.inr (reachOne w (Eq.refl _)) | exact Or.inr ⟨reachOne w (Eq.refl _), rfl⟩
    | exact Or.inr ⟨reachOne w (Eq.refl _), fun c => c⟩
    | exact Or.inr ⟨reachOne w (Eq.refl _), rfl, rfl, rfl, rfl, rfl⟩ | exact Or.inl rfl | simp only [Goes.mk_eq]
    | with_reducible apply GoesMk.upd | split | dsimp only | omega)

theorem dropSessions_goes {ps : List Part} {s0 : State} (s : State) (h : Goes ps s0 s) (w : [.skim, .publ] ⊆ ps) :
    Goes ps s0 (dropSessions s) := by
  unfold dropSessions
  repeat' (first
    | with_reducible assumption | exact Or.inr (reachOne w (Eq.refl _)) | exact Or.inl rfl | simp only [Goes.mk_eq]
    | with_reducible apply GoesMk.upd | dsimp only)

theorem resetRegisters_goes {ps : List Part} {s0 : State} (s : State) (h : Goes ps s0 s) (w : [.sys, .fns, .deferred,
    .time, .ports, .bpcfg, .skim, .hawk, .trowel, .publ, .eng, .pke, .rng, .keys, .sealer, .tamper, .pair, .span,
    .log, .budget, .fw, .injected] ⊆ ps) : Goes ps s0 (resetRegisters s) := by
  unfold resetRegisters
  repeat' (first
    | with_reducible assumption
    | exact Or.inr ⟨reachOne w (Eq.refl _), fun c => canon_map c fun _ h => (h : canonProg (idleProg _))⟩
    | with_reducible apply Goes.ite | exact Or.inr (reachOne w (Eq.refl _))
    | exact Or.inr ⟨reachOne w (Eq.refl _), rfl⟩ | exact Or.inr ⟨reachOne w (Eq.refl _), fun c => c⟩
    | exact Or.inr ⟨reachOne w (Eq.refl _), fun c => canon_mdel c⟩
    | exact Or.inr ⟨reachOne w (Eq.refl _), fun _ _ h => absurd h List.not_mem_nil⟩
    | (refine Or.inr ⟨reachOne w (Eq.refl _), fun c => canon_map c ?_⟩; intro _ h; (try dsimp only); (repeat' split); all_goals exact canonProg_of h rfl rfl rfl)
    | exact Or.inr ⟨reachOne w (Eq.refl _), rfl, rfl, rfl, rfl, rfl⟩ | exact Or.inl rfl | simp only [Goes.mk_eq]
    | with_reducible apply GoesMk.upd | split | dsimp only)

theorem deviceReset_goes {ps : List Part} {s0 : State} (s : State) (h : Goes ps s0 s) (w : [.sys, .fns, .journal,
    .deferred, .time, .ports, .bpcfg, .skim, .hawk, .trowel, .publ, .eng, .pke, .rng, .keys, .sealer, .tamper, .pair,
    .span, .log, .budget, .fw, .injected, .outbox] ⊆ ps) : Goes ps s0 (deviceReset s) := by
  unfold deviceReset
  repeat' (first
    | with_reducible assumption | exact reach w (Eq.refl _) | intro _ | with_reducible apply dropUnadmitted_goes
    | with_reducible apply endRehash_goes | with_reducible apply cancel_goes | with_reducible apply ledgerFn_goes
    | with_reducible apply resetRegisters_goes | with_reducible apply dropSessions_goes
    | with_reducible apply emit_goes | with_reducible apply Goes.foldl | with_reducible apply Goes.foldl1
    | with_reducible apply Goes.foldl2 | with_reducible apply Goes.ite | exact Or.inr (reachOne w (Eq.refl _))
    | exact Or.inr ⟨reachOne w (Eq.refl _), rfl⟩ | exact Or.inr ⟨reachOne w (Eq.refl _), fun c => c⟩
    | exact Or.inr ⟨reachOne w (Eq.refl _), rfl, rfl, rfl, rfl, rfl⟩ | exact Or.inl rfl | simp only [Goes.mk_eq]
    | with_reducible apply GoesMk.upd | split | dsimp only)

theorem powerLoss_goes {ps : List Part} {s0 : State} (s : State) (h : Goes ps s0 s)
    (w : [.sys, .fns, .journal, .time, .bpcfg, .skim, .hawk, .trowel, .publ, .rng, .sealer, .span, .budget] ⊆ ps) : Goes ps s0 (powerLoss s) :=
  h.move (fun ⟨l1, l2, l3, l4, l5⟩ =>
    ⟨⟨l1, l2, Nat.le_add_right _ _, Nat.le_add_right _ _, l5⟩, l3, l4, Nat.le_refl _, Nat.le_refl _, Eq.refl _⟩)
    (fun p hp => by
      cases p
      all_goals first | exact Eq.refl _ | exact absurd (reachOne w (Eq.refl _)) hp)
    (fun _ _ h => absurd h List.not_mem_nil)

theorem writeControl_goes {ps : List Part} {s0 : State} (f ring : Nat) (s : State) (h : Goes ps s0 s) (w : [.sys,
    .outbox] ⊆ ps) : Goes ps s0 (writeControl f ring s) := by
  unfold writeControl
  repeat' (first
    | with_reducible assumption | exact reach w (Eq.refl _) | with_reducible apply emits_goes
    | with_reducible apply pinnedLookup_goes | with_reducible apply Goes.ite | split | dsimp only)

theorem stopRing_goes {ps : List Part} {s0 : State} (f ring : Nat) (reach_ : Bool) (s : State) (h : Goes ps s0 s) (w :
    [.sys, .fns, .hawk, .log, .outbox] ⊆ ps) : Goes ps s0 (stopRing f ring reach_ s) := by
  unfold stopRing
  repeat' (first
    | with_reducible assumption | exact reach w (Eq.refl _) | with_reducible apply updRing_goes
    | with_reducible apply writeControl_goes | with_reducible apply fnEvent_goes | with_reducible apply event_goes
    | with_reducible apply Goes.ite | exact Or.inr (reachOne w (Eq.refl _))
    | exact Or.inr ⟨reachOne w (Eq.refl _), rfl⟩ | exact Or.inr ⟨reachOne w (Eq.refl _), rfl, rfl, rfl, rfl, rfl⟩
    | exact Or.inl rfl | simp only [Goes.mk_eq] | with_reducible apply GoesMk.upd | split | dsimp only)

theorem ringSend_goes {ps : List Part} {s0 : State} (f ring slot addr : Nat) (octs : List Byte) (s : State) (h : Goes
    ps s0 s) (w : [.span, .outbox] ⊆ ps) : Goes ps s0 (ringSend f ring slot addr octs s) := by
  unfold ringSend
  repeat' (first
    | with_reducible assumption | exact reach w (Eq.refl _) | with_reducible apply emits_goes
    | with_reducible apply sendPacket_goes | with_reducible apply Goes.ite | split | dsimp only)

theorem entryWork_goes {ps : List Part} {s0 : State} (f ring : Nat) (entry : List Byte) (s : State) (h : Goes ps s0 s)
    (w : [.eng, .log, .budget] ⊆ ps) : Goes ps s0 (entryWork f ring entry s) := by
  unfold entryWork
  repeat' (first
    | with_reducible assumption | exact reach w (Eq.refl _) | with_reducible apply openWork_goes
    | with_reducible apply engineWork_goes | dsimp only)

theorem putEntry_goes {ps : List Part} {s0 : State} (f ring slot : Nat) (entry : List Byte) (s : State) (h : Goes ps
    s0 s) (w : [.sys, .fns, .eng, .span, .log, .budget, .outbox] ⊆ ps) : Goes ps s0 (putEntry f ring slot entry s) :=
    by
  unfold putEntry
  repeat' (first
    | with_reducible assumption | exact reach w (Eq.refl _) | with_reducible apply entryWork_goes
    | with_reducible apply ringSend_goes | with_reducible apply pinnedLookup_goes | with_reducible apply updRing_goes
    | with_reducible apply writeControl_goes | with_reducible apply emit_goes | with_reducible apply Goes.ite
    | exact Or.inr (reachOne w (Eq.refl _)) | exact Or.inr ⟨reachOne w (Eq.refl _), rfl⟩
    | exact Or.inr ⟨reachOne w (Eq.refl _), rfl, rfl, rfl, rfl, rfl⟩ | exact Or.inl rfl | simp only [Goes.mk_eq]
    | with_reducible apply GoesMk.upd | split | dsimp only)

theorem writeEvent_goes {ps : List Part} {s0 : State} (f : Nat) (head body : List Byte) (s : State) (h : Goes ps s0 s)
    (w : [.sys, .fns, .skim, .eng, .span, .log, .budget, .outbox] ⊆ ps) : Goes ps s0 (writeEvent f head body s) := by
  unfold writeEvent
  repeat' (first
    | with_reducible assumption | exact reach w (Eq.refl _) | with_reducible apply updRing_goes
    | with_reducible apply putEntry_goes | with_reducible apply event_goes | with_reducible apply cntSkim_goes
    | with_reducible apply Goes.ite | exact Or.inr (reachOne w (Eq.refl _))
    | exact Or.inr ⟨reachOne w (Eq.refl _), rfl⟩ | exact Or.inr ⟨reachOne w (Eq.refl _), rfl, rfl, rfl, rfl, rfl⟩
    | exact Or.inl rfl | simp only [Goes.mk_eq] | with_reducible apply GoesMk.upd | split | dsimp only)

theorem sheetKeyEff_goes {ps : List Part} {s0 : State} (c : Cmd) (s : State) (h : Goes ps s0 s) (w : [.fns] ⊆ ps) :
    Goes ps s0 (sheetKeyEff c s).st := by
  unfold sheetKeyEff
  repeat' (first
    | with_reducible assumption | exact reach w (Eq.refl _) | with_reducible apply done_goes
    | with_reducible apply updFn_goes | exact Or.inr (reachOne w (Eq.refl _)) | exact Or.inl rfl
    | simp only [Goes.mk_eq] | with_reducible apply GoesMk.upd | dsimp only)

theorem execSheetKey_goes {ps : List Part} {s0 : State} (c : Cmd) (s : State) (h : Goes ps s0 s) (w : [.sys, .fns,
    .journal, .deferred, .span, .outbox] ⊆ ps) : GoesTo ps s0 (execSheetKey c s) := by
  unfold execSheetKey
  repeat' (first
    | with_reducible assumption | exact reach w (Eq.refl _) | intro _ | apply GoesTo.next
    | with_reducible apply runConfig_goes | with_reducible apply sheetKeyEff_goes | dsimp only)

theorem sheetRingEff_goes {ps : List Part} {s0 : State} (c : Cmd) (s : State) (h : Goes ps s0 s) (w : [.sys, .fns,
    .hawk, .eng, .rng, .log, .budget, .outbox] ⊆ ps) : Goes ps s0 (sheetRingEff c s).st := by
  unfold sheetRingEff
  repeat' (first
    | with_reducible assumption | exact reach w (Eq.refl _) | with_reducible apply done_goes
    | with_reducible apply updRing_goes | with_reducible apply generate_goes
    | refine generate_pair (by with_reducible assumption) ?_ ?_ | with_reducible apply writeControl_goes
    | with_reducible apply mirrorItem_goes | with_reducible apply Goes.ite | exact Or.inr (reachOne w (Eq.refl _))
    | exact Or.inr ⟨reachOne w (Eq.refl _), rfl⟩ | exact Or.inr ⟨reachOne w (Eq.refl _), rfl, rfl, rfl, rfl, rfl⟩
    | exact Or.inl rfl | simp only [Goes.mk_eq] | with_reducible apply GoesMk.upd | split | dsimp only)

theorem execSheetRing_goes {ps : List Part} {s0 : State} (c : Cmd) (s : State) (h : Goes ps s0 s) (w : [.sys, .fns,
    .journal, .deferred, .hawk, .eng, .rng, .span, .log, .budget, .outbox] ⊆ ps) : GoesTo ps s0 (execSheetRing c s) :=
    by
  unfold execSheetRing
  repeat' (first
    | with_reducible assumption | exact reach w (Eq.refl _) | intro _ | apply GoesTo.next
    | with_reducible apply runConfig_goes | with_reducible apply sheetRingEff_goes
    | with_reducible apply withDraw_goes | with_reducible apply Goes.ite | exact Or.inr (reachOne w (Eq.refl _))
    | exact Or.inr ⟨reachOne w (Eq.refl _), rfl⟩ | exact Or.inr ⟨reachOne w (Eq.refl _), rfl, rfl, rfl, rfl, rfl⟩
    | exact Or.inl rfl | simp only [Goes.mk_eq] | with_reducible apply GoesMk.upd | split | dsimp only)

theorem sheetViewEff_goes {ps : List Part} {s0 : State} (c : Cmd) (s : State) (h : Goes ps s0 s) (w : [.fns] ⊆ ps) :
    Goes ps s0 (sheetViewEff c s).st := by
  unfold sheetViewEff
  repeat' (first
    | with_reducible assumption | exact reach w (Eq.refl _) | with_reducible apply done_goes
    | with_reducible apply updRing_goes | with_reducible apply Goes.ite | exact Or.inr (reachOne w (Eq.refl _))
    | exact Or.inl rfl | simp only [Goes.mk_eq] | with_reducible apply GoesMk.upd | split | dsimp only)

theorem execSheetView_goes {ps : List Part} {s0 : State} (c : Cmd) (s : State) (h : Goes ps s0 s) (w : [.sys, .fns,
    .journal, .deferred, .span, .outbox] ⊆ ps) : GoesTo ps s0 (execSheetView c s) := by
  unfold execSheetView
  repeat' (first
    | with_reducible assumption | exact reach w (Eq.refl _) | intro _ | apply GoesTo.next
    | with_reducible apply runConfig_goes | with_reducible apply sheetViewEff_goes | dsimp only)

theorem writeCons_goes {ps : List Part} {s0 : State} (f ring : Nat) (v : W32) (s : State) (h : Goes ps s0 s) (w :
    [.sys, .fns, .hawk, .log, .outbox] ⊆ ps) : Goes ps s0 (writeCons f ring v s) := by
  unfold writeCons
  repeat' (first
    | with_reducible assumption | exact reach w (Eq.refl _) | with_reducible apply updRing_goes
    | with_reducible apply event_goes | with_reducible apply writeControl_goes | with_reducible apply Goes.ite
    | exact Or.inr (reachOne w (Eq.refl _)) | exact Or.inr ⟨reachOne w (Eq.refl _), rfl⟩
    | exact Or.inr ⟨reachOne w (Eq.refl _), rfl, rfl, rfl, rfl, rfl⟩ | exact Or.inl rfl | simp only [Goes.mk_eq]
    | with_reducible apply GoesMk.upd | split | dsimp only)

theorem execRingConsWrite_goes {ps : List Part} {s0 : State} (f ring : Nat) (v : W32) (s : State) (h : Goes ps s0 s)
    (w : [.sys, .fns, .hawk, .log, .outbox] ⊆ ps) : GoesTo ps s0 (execRingConsWrite f ring v s) := by
  unfold execRingConsWrite
  repeat' (first
    | with_reducible assumption | exact reach w (Eq.refl _) | intro _ | apply GoesTo.next
    | with_reducible apply barWrite_goes | with_reducible apply writeCons_goes | with_reducible apply Goes.ite | split
    | dsimp only)

theorem histPut_goes {ps : List Part} {s0 : State} (b id slot sub : Nat) (r : Row) (s : State) (h : Goes ps s0 s) (w :
    [.hawk, .log, .budget] ⊆ ps) : Goes ps s0 (histPut b id slot sub r s) := by
  unfold histPut
  repeat' (first
    | with_reducible assumption | exact reach w (Eq.refl _) | with_reducible apply openWork_goes
    | exact Or.inr (reachOne w (Eq.refl _)) | exact Or.inl rfl | simp only [Goes.mk_eq]
    | with_reducible apply GoesMk.upd | dsimp only)

theorem histDrop_goes {ps : List Part} {s0 : State} (id : Nat) (s : State) (h : Goes ps s0 s) (w : [.hawk] ⊆ ps) :
    Goes ps s0 (histDrop id s) := by
  unfold histDrop
  repeat' (first
    | with_reducible assumption | exact Or.inr (reachOne w (Eq.refl _)) | exact Or.inl rfl | simp only [Goes.mk_eq]
    | with_reducible apply GoesMk.upd | dsimp only)

theorem flagSrc_goes {ps : List Part} {s0 : State} (k f : Nat) (s : State) (h : Goes ps s0 s) (w : [.hawk] ⊆ ps) :
    Goes ps s0 (flagSrc k f s) := by
  unfold flagSrc
  repeat' (first
    | with_reducible assumption | exact Or.inr (reachOne w (Eq.refl _)) | exact Or.inl rfl | simp only [Goes.mk_eq]
    | with_reducible apply GoesMk.upd | dsimp only)

theorem storeSample_goes {ps : List Part} {s0 : State} (k : Nat) (x : Ctx) (n : Nat) (a : Asdu) (lanB : Bool) (copy :
    Option (Nat × Nat)) (s : State) (h : Goes ps s0 s) (w : [.hawk, .log, .budget] ⊆ ps) : Goes ps s0 (storeSample k x
    n a lanB copy s) := by
  unfold storeSample
  repeat' (first
    | with_reducible assumption | exact reach w (Eq.refl _) | with_reducible apply flagSrc_goes
    | with_reducible apply event_goes | with_reducible apply cntHawk_goes | with_reducible apply histPut_goes
    | with_reducible apply Goes.ite | exact Or.inr (reachOne w (Eq.refl _)) | exact Or.inl rfl
    | simp only [Goes.mk_eq] | with_reducible apply GoesMk.upd | split | dsimp only)

theorem putFixed_goes {ps : List Part} {s0 : State} (b part slot : Nat) (rows : List Row) (s : State) (h : Goes ps s0
    s) (w : [.hawk] ⊆ ps) : Goes ps s0 (putFixed b part slot rows s) := by
  unfold putFixed
  repeat' (first
    | with_reducible assumption | exact Or.inr (reachOne w (Eq.refl _)) | exact Or.inl rfl | simp only [Goes.mk_eq]
    | with_reducible apply GoesMk.upd | dsimp only)

theorem nextRecnum_goes {ps : List Part} {s0 : State} (s : State) (h : Goes ps s0 s) (w : [.hawk, .outbox] ⊆ ps) :
    Goes ps s0 (nextRecnum s).2 := by
  unfold nextRecnum
  repeat' (first
    | with_reducible assumption | exact reach w (Eq.refl _) | with_reducible apply emit_goes
    | with_reducible apply Goes.ite | exact Or.inr (reachOne w (Eq.refl _)) | exact Or.inl rfl
    | simp only [Goes.mk_eq] | with_reducible apply GoesMk.upd | split | dsimp only)

theorem nextRecnum_pair {ps : List Part} {s0 s1 : State} {s : State} {z} (e : nextRecnum s = (z, s1)) (h : Goes ps s0
    s) (w : [.hawk, .outbox] ⊆ ps) : Goes ps s0 s1 := by
  have g := nextRecnum_goes (s0 := s0) s h w
  rw [e] at g; exact g

theorem updTrig_goes {ps : List Part} {s0 : State} (t : Nat) (g : Trigger → Trigger) (s : State) (h : Goes ps s0 s) (w
    : [.hawk] ⊆ ps) : Goes ps s0 (updTrig t g s) := by
  unfold updTrig
  repeat' (first
    | with_reducible assumption | exact Or.inr (reachOne w (Eq.refl _)) | exact Or.inl rfl | simp only [Goes.mk_eq]
    | with_reducible apply GoesMk.upd | dsimp only)

theorem openRec_goes {ps : List Part} {s0 : State} (t slot first source : Nat) (data : List Byte) (s : State) (h :
    Goes ps s0 s) (w : [.hawk, .log, .outbox] ⊆ ps) : Goes ps s0 (openRec t slot first source data s) := by
  unfold openRec
  repeat' (first
    | with_reducible assumption | exact reach w (Eq.refl _) | with_reducible apply nextRecnum_goes
    | refine nextRecnum_pair (by with_reducible assumption) ?_ ?_ | with_reducible apply event_goes
    | with_reducible apply cntHawk_goes | with_reducible apply Goes.ite | exact Or.inr (reachOne w (Eq.refl _))
    | exact Or.inl rfl | simp only [Goes.mk_eq] | with_reducible apply GoesMk.upd | split | dsimp only)

theorem fireTrig_goes {ps : List Part} {s0 : State} (t slot source : Nat) (data : List Byte) (s : State) (h : Goes ps
    s0 s) (w : [.hawk, .log, .outbox] ⊆ ps) : Goes ps s0 (fireTrig t slot source data s) := by
  unfold fireTrig
  repeat' (first
    | with_reducible assumption | exact reach w (Eq.refl _) | intro _ | with_reducible apply updTrig_goes
    | with_reducible apply event_goes | with_reducible apply cntHawk_goes | with_reducible apply openRec_goes
    | with_reducible apply Goes.foldl | with_reducible apply Goes.foldl1 | with_reducible apply Goes.foldl2
    | with_reducible apply Goes.ite | exact Or.inr (reachOne w (Eq.refl _)) | exact Or.inl rfl
    | simp only [Goes.mk_eq] | with_reducible apply GoesMk.upd | split | dsimp only)

theorem rowTrigger_goes {ps : List Part} {s0 : State} (t slot : Nat) (r : Row) (s : State) (h : Goes ps s0 s) (w :
    [.hawk, .log, .outbox] ⊆ ps) : Goes ps s0 (rowTrigger t slot r s) := by
  unfold rowTrigger
  repeat' (first
    | with_reducible assumption | exact reach w (Eq.refl _) | with_reducible apply updTrig_goes
    | with_reducible apply fireTrig_goes | with_reducible apply Goes.ite | exact Or.inr (reachOne w (Eq.refl _))
    | exact Or.inl rfl | simp only [Goes.mk_eq] | with_reducible apply GoesMk.upd | split | dsimp only)

theorem rowTriggers_goes {ps : List Part} {s0 : State} (b slot : Nat) (rows : List Row) (s : State) (h : Goes ps s0 s)
    (w : [.hawk, .log, .outbox] ⊆ ps) : Goes ps s0 (rowTriggers b slot rows s) := by
  unfold rowTriggers
  repeat' (first
    | with_reducible assumption | exact reach w (Eq.refl _) | intro _ | with_reducible apply rowTrigger_goes
    | with_reducible apply Goes.foldl | with_reducible apply Goes.foldl1 | with_reducible apply Goes.foldl2
    | with_reducible apply Goes.ite | split | dsimp only)

end Sys2Proof.Machine
end

