-- ==== Sys2Proof/Laws/GoesPaths.lean ====
section
/-! SUPPORT. Laws/GoesPaths.lean: what every operation of the files Skim, Sys, Streams, Publ, Trowel, Sealer, Tracker, Closing, Budget does to
the state at most (f_goes; f_pair for one that answers a pair): the parts it reaches, legality kept, counters onward. -/
set_option linter.unusedSimpArgs false
namespace Sys2Proof.Machine

theorem updSource_goes {ps : List Part} {s0 : State} (b mac : Nat) (g : Source → Source) (s : State) (h : Goes ps s0
    s) (w : [.skim] ⊆ ps) : Goes ps s0 (updSource b mac g s) := by
  unfold updSource
  repeat' (first
    | with_reducible assumption | with_reducible apply Goes.ite | exact Or.inr (reachOne w (Eq.refl _))
    | exact Or.inl rfl | simp only [Goes.mk_eq] | with_reducible apply GoesMk.upd | split | dsimp only)

theorem meetCopy_goes {ps : List Part} {s0 : State} (p : DupPos) (d : W32) (s : State) (h : Goes ps s0 s) (w : [.skim,
    .hawk, .log] ⊆ ps) : Goes ps s0 (meetCopy p d s) := by
  unfold meetCopy
  repeat' (first
    | with_reducible assumption | exact reach w (Eq.refl _) | with_reducible apply event_goes
    | with_reducible apply cntSkim_goes | with_reducible apply flagSrc_goes | with_reducible apply cntCtx_goes
    | with_reducible apply Goes.ite | exact Or.inr (reachOne w (Eq.refl _)) | exact Or.inl rfl
    | simp only [Goes.mk_eq] | with_reducible apply GoesMk.upd | split | dsimp only)

theorem dropDup_goes {ps : List Part} {s0 : State} (b mac seq : Nat) (p : DupPos) (s : State) (h : Goes ps s0 s) (w :
    [.skim, .hawk] ⊆ ps) : Goes ps s0 (dropDup b mac seq p s) := by
  unfold dropDup
  repeat' (first
    | with_reducible assumption | exact reach w (Eq.refl _) | with_reducible apply cntSkim_goes
    | with_reducible apply cntCtx_goes | exact Or.inr (reachOne w (Eq.refl _)) | exact Or.inl rfl
    | simp only [Goes.mk_eq] | with_reducible apply GoesMk.upd | split | dsimp only)

theorem dupKnown_goes {ps : List Part} {s0 : State} (x : Source) (seq : Nat) (d : W32) (s : State) (h : Goes ps s0 s)
    (w : [.skim, .hawk, .log] ⊆ ps) : Goes ps s0 (dupKnown x seq d s).1 := by
  unfold dupKnown
  repeat' (first
    | with_reducible assumption | exact reach w (Eq.refl _) | with_reducible apply updSource_goes
    | with_reducible apply meetCopy_goes | with_reducible apply Goes.ite | exact Or.inr (reachOne w (Eq.refl _))
    | exact Or.inl rfl | simp only [Goes.mk_eq] | with_reducible apply GoesMk.upd | split | dsimp only)

theorem dupKnown_pair {ps : List Part} {s0 s1 : State} {x : Source} {seq : Nat} {d : W32} {s : State} {z} (e :
    dupKnown x seq d s = (s1, z)) (h : Goes ps s0 s) (w : [.skim, .hawk, .log] ⊆ ps) : Goes ps s0 s1 := by
  have g := dupKnown_goes (s0 := s0) x seq d s h w
  rw [e] at g; exact g

theorem dupCheck_goes {ps : List Part} {s0 : State} (b mac seq : Nat) (d : W32) (s : State) (h : Goes ps s0 s) (w :
    [.skim, .hawk, .log] ⊆ ps) : Goes ps s0 (dupCheck b mac seq d s).1 := by
  unfold dupCheck
  repeat' (first
    | with_reducible assumption | exact reach w (Eq.refl _) | with_reducible apply dupKnown_goes
    | refine dupKnown_pair (by with_reducible assumption) ?_ ?_ | with_reducible apply event_goes
    | with_reducible apply cntSkim_goes | with_reducible apply Goes.ite | exact Or.inr (reachOne w (Eq.refl _))
    | exact Or.inl rfl | simp only [Goes.mk_eq] | with_reducible apply GoesMk.upd | split | dsimp only)

theorem dupCheck_pair {ps : List Part} {s0 s1 : State} {b mac seq : Nat} {d : W32} {s : State} {z} (e : dupCheck b mac
    seq d s = (s1, z)) (h : Goes ps s0 s) (w : [.skim, .hawk, .log] ⊆ ps) : Goes ps s0 s1 := by
  have g := dupCheck_goes (s0 := s0) b mac seq d s h w
  rw [e] at g; exact g

theorem dupDone_goes {ps : List Part} {s0 : State} (b mac seq : Nat) (ok : Bool) (ctx : Option Nat) (s : State) (h :
    Goes ps s0 s) (w : [.skim] ⊆ ps) : Goes ps s0 (dupDone b mac seq ok ctx s) := by
  unfold dupDone
  repeat' (first
    | with_reducible assumption | exact reach w (Eq.refl _) | with_reducible apply updSource_goes
    | with_reducible apply Goes.ite | exact Or.inr (reachOne w (Eq.refl _)) | exact Or.inl rfl
    | simp only [Goes.mk_eq] | with_reducible apply GoesMk.upd | split | dsimp only)

theorem heldFrame_goes {ps : List Part} {s0 : State} (port : Nat) (f : RxFrame) (s : State) (h : Goes ps s0 s) (w :
    [.freeCtr] ⊆ ps) : Goes ps s0 (heldFrame port f s).2 := by
  unfold heldFrame
  repeat' (first
    | with_reducible assumption | exact reach w (Eq.refl _) | intro _ | with_reducible apply fresh_goes
    | refine fresh_pair (by with_reducible assumption) ?_ ?_ | with_reducible apply Goes.foldl
    | with_reducible apply Goes.foldl1 | with_reducible apply Goes.foldl2 | dsimp only)

theorem heldFrame_pair {ps : List Part} {s0 s1 : State} {port : Nat} {f : RxFrame} {s : State} {z} (e : heldFrame port
    f s = (z, s1)) (h : Goes ps s0 s) (w : [.freeCtr] ⊆ ps) : Goes ps s0 s1 := by
  have g := heldFrame_goes (s0 := s0) port f s h w
  rw [e] at g; exact g

theorem readWords_goes {ps : List Part} {s0 : State} (h_ : HeldFrame) (lo n : Nat) (s : State) (h : Goes ps s0 s) (w :
    [.skim, .log] ⊆ ps) : Goes ps s0 (readWords h_ lo n s).1 := by
  unfold readWords
  repeat' (first
    | with_reducible assumption | exact reach w (Eq.refl _) | with_reducible apply cntSkim_goes
    | with_reducible apply event_goes | with_reducible apply Goes.ite | split | dsimp only)

theorem readWords_pair {ps : List Part} {s0 s1 : State} {h_ : HeldFrame} {lo n : Nat} {s : State} {z} (e : readWords
    h_ lo n s = (s1, z)) (h : Goes ps s0 s) (w : [.skim, .log] ⊆ ps) : Goes ps s0 s1 := by
  have g := readWords_goes (s0 := s0) h_ lo n s h w
  rw [e] at g; exact g

theorem settleOvl_goes {ps : List Part} {s0 : State} (s : State) (h : Goes ps s0 s) (w : [.skim] ⊆ ps) : Goes ps s0
    (settleOvl s) := by
  unfold settleOvl
  repeat' (first
    | with_reducible assumption | exact Or.inr (reachOne w (Eq.refl _)) | exact Or.inl rfl | simp only [Goes.mk_eq]
    | with_reducible apply GoesMk.upd | dsimp only)

theorem bufTake_goes {ps : List Part} {s0 : State} (n : Nat) (s : State) (h : Goes ps s0 s) (w : [.skim] ⊆ ps) : Goes
    ps s0 (bufTake n s) := by
  unfold bufTake
  repeat' (first
    | with_reducible assumption | exact Or.inr (reachOne w (Eq.refl _)) | exact Or.inl rfl | simp only [Goes.mk_eq]
    | with_reducible apply GoesMk.upd | dsimp only)

theorem bufFree_goes {ps : List Part} {s0 : State} (n : Nat) (s : State) (h : Goes ps s0 s) (w : [.skim] ⊆ ps) : Goes
    ps s0 (bufFree n s) := by
  unfold bufFree
  repeat' (first
    | with_reducible assumption | exact reach w (Eq.refl _) | with_reducible apply settleOvl_goes
    | exact Or.inr (reachOne w (Eq.refl _)) | exact Or.inl rfl | simp only [Goes.mk_eq]
    | with_reducible apply GoesMk.upd | dsimp only)

theorem dropOvl_goes {ps : List Part} {s0 : State} (k cls : Nat) (s : State) (h : Goes ps s0 s) (w : [.skim, .hawk] ⊆
    ps) : Goes ps s0 (dropOvl k cls s) := by
  unfold dropOvl
  repeat' (first
    | with_reducible assumption | exact reach w (Eq.refl _) | with_reducible apply flagSrc_goes
    | with_reducible apply cntCtx_goes | with_reducible apply cntSkim_goes | dsimp only)

theorem dropOvl5_goes {ps : List Part} {s0 : State} (k cls : Nat) (s : State) (h : Goes ps s0 s) (w : [.skim, .hawk,
    .log] ⊆ ps) : Goes ps s0 (dropOvl5 k cls s) := by
  unfold dropOvl5
  repeat' (first
    | with_reducible assumption | exact reach w (Eq.refl _) | with_reducible apply dropOvl_goes
    | with_reducible apply event_goes | with_reducible apply Goes.ite | exact Or.inr (reachOne w (Eq.refl _))
    | exact Or.inl rfl | simp only [Goes.mk_eq] | with_reducible apply GoesMk.upd | split | dsimp only)

theorem dropAuth_goes {ps : List Part} {s0 : State} (k : Nat) (s : State) (h : Goes ps s0 s) (w : [.skim, .hawk, .log]
    ⊆ ps) : Goes ps s0 (dropAuth k s) := by
  unfold dropAuth
  repeat' (first
    | with_reducible assumption | exact reach w (Eq.refl _) | with_reducible apply flagSrc_goes
    | with_reducible apply event_goes | with_reducible apply cntCtx_goes | with_reducible apply cntSkim_goes
    | dsimp only)

theorem dropKey_goes {ps : List Part} {s0 : State} (k : Nat) (s : State) (h : Goes ps s0 s) (w : [.skim] ⊆ ps) : Goes
    ps s0 (dropKey k s) := by
  unfold dropKey
  repeat' (first
    | with_reducible assumption | exact reach w (Eq.refl _) | with_reducible apply cntCtx_goes
    | with_reducible apply cntSkim_goes | dsimp only)

theorem keyFault_goes {ps : List Part} {s0 : State} (k : Nat) (s : State) (h : Goes ps s0 s) (w : [.skim, .log] ⊆ ps)
    : Goes ps s0 (keyFault k s) := by
  unfold keyFault
  repeat' (first
    | with_reducible assumption | exact reach w (Eq.refl _) | with_reducible apply updCtx_goes
    | with_reducible apply dropKey_goes | with_reducible apply setEvt_goes | with_reducible apply event_goes
    | with_reducible apply Goes.ite | exact Or.inr (reachOne w (Eq.refl _)) | exact Or.inl rfl
    | simp only [Goes.mk_eq] | with_reducible apply GoesMk.upd | split | dsimp only)

theorem authFrame_goes {ps : List Part} {s0 : State} (k : Nat) (x : Ctx) (macsec : Bool) (ext : Option AuthExt) (body
    : List Byte) (slots : List Nat) (s : State) (h : Goes ps s0 s) (w : [.skim, .hawk, .eng, .log, .budget] ⊆ ps) :
    Goes ps s0 (authFrame k x macsec ext body slots s).1 := by
  unfold authFrame
  repeat' (first
    | with_reducible assumption | exact reach w (Eq.refl _) | with_reducible apply dropAuth_goes
    | with_reducible apply dropKey_goes | with_reducible apply keyFault_goes | with_reducible apply tagWork_goes
    | with_reducible apply updCtx_goes | with_reducible apply Goes.ite | exact Or.inr (reachOne w (Eq.refl _))
    | exact Or.inl rfl | simp only [Goes.mk_eq] | with_reducible apply GoesMk.upd | split | dsimp only)

theorem authFrame_pair {ps : List Part} {s0 s1 : State} {k : Nat} {x : Ctx} {macsec : Bool} {ext : Option AuthExt}
    {body : List Byte} {slots : List Nat} {s : State} {z} (e : authFrame k x macsec ext body slots s = (s1, z)) (h :
    Goes ps s0 s) (w : [.skim, .hawk, .eng, .log, .budget] ⊆ ps) : Goes ps s0 s1 := by
  have g := authFrame_goes (s0 := s0) k x macsec ext body slots s h w
  rw [e] at g; exact g

theorem dropFormat_goes {ps : List Part} {s0 : State} (k : Nat) (s : State) (h : Goes ps s0 s) (w : [.skim] ⊆ ps) :
    Goes ps s0 (dropFormat k s) := by
  unfold dropFormat
  repeat' (first
    | with_reducible assumption | exact reach w (Eq.refl _) | with_reducible apply cntCtx_goes
    | with_reducible apply cntSkim_goes | dsimp only)

theorem dropSim_goes {ps : List Part} {s0 : State} (k : Nat) (s : State) (h : Goes ps s0 s) (w : [.skim] ⊆ ps) : Goes
    ps s0 (dropSim k s) := by
  unfold dropSim
  repeat' (first
    | with_reducible assumption | exact reach w (Eq.refl _) | with_reducible apply cntCtx_goes
    | with_reducible apply cntSkim_goes | dsimp only)

theorem dropNotime_goes {ps : List Part} {s0 : State} (k : Nat) (s : State) (h : Goes ps s0 s) (w : [.skim] ⊆ ps) :
    Goes ps s0 (dropNotime k s) := by
  unfold dropNotime
  repeat' (first
    | with_reducible assumption | exact reach w (Eq.refl _) | with_reducible apply cntCtx_goes
    | with_reducible apply cntSkim_goes | dsimp only)

theorem oneAsdu_goes {ps : List Part} {s0 : State} (k : Nat) (lanB : Bool) (copy : Option (Nat × Nat)) (a : Asdu) (n :
    Nat) (s : State) (h : Goes ps s0 s) (w : [.skim, .hawk, .log, .budget] ⊆ ps) : Goes ps s0 (oneAsdu k lanB copy a n
    s).1 := by
  unfold oneAsdu
  repeat' (first
    | with_reducible assumption | exact reach w (Eq.refl _) | with_reducible apply flagSrc_goes
    | with_reducible apply cntCtx_goes | with_reducible apply cntSkim_goes | with_reducible apply accept_goes
    | with_reducible apply updCtx_goes | with_reducible apply storeSample_goes | with_reducible apply Goes.ite
    | exact Or.inr (reachOne w (Eq.refl _)) | exact Or.inl rfl | simp only [Goes.mk_eq]
    | with_reducible apply GoesMk.upd | split | dsimp only)

theorem oneAsdu_pair {ps : List Part} {s0 s1 : State} {k : Nat} {lanB : Bool} {copy : Option (Nat × Nat)} {a : Asdu}
    {n : Nat} {s : State} {z} (e : oneAsdu k lanB copy a n s = (s1, z)) (h : Goes ps s0 s) (w : [.skim, .hawk, .log,
    .budget] ⊆ ps) : Goes ps s0 s1 := by
  have g := oneAsdu_goes (s0 := s0) k lanB copy a n s h w
  rw [e] at g; exact g

theorem svAsdus_goes {ps : List Part} {s0 : State} (k : Nat) (lanB : Bool) (copy : Option (Nat × Nat))
    (l : List (Asdu × Option Nat)) (s : State) (h : Goes ps s0 s) (w : [.skim, .hawk, .log, .budget] ⊆ ps) : Goes ps s0 (svAsdus k lanB copy l s).1 := by
  induction l generalizing s with
  | nil => exact h
  | cons x l ih =>
    obtain ⟨a, n⟩ := x
    cases n with
    | none => exact ih s h
    | some n => exact ih _ (oneAsdu_goes k lanB copy a n s h w)

theorem svAsdus_pair {ps : List Part} {s0 s1 : State} {k : Nat} {lanB : Bool} {copy : Option (Nat × Nat)} {l : List (Asdu × Option Nat)} {s : State} {z} (e : svAsdus k lanB copy l s = (s1, z)) (h : Goes ps s0 s)
    (w : [.skim, .hawk, .log, .budget] ⊆ ps) : Goes ps s0 s1 := by
  have g := svAsdus_goes (s0 := s0) k lanB copy l s h w
  rw [e] at g; exact g

theorem svFrame_goes {ps : List Part} {s0 : State} (k : Nat) (x : Ctx) (h_ : HeldFrame) (macsec sim : Bool) (noAsdu :
    Nat) (asdus : List Asdu) (ext : Option AuthExt) (copy : Option (Nat × Nat)) (s : State) (h : Goes ps s0 s) (w :
    [.time, .skim, .hawk, .eng, .log, .budget, .outbox] ⊆ ps) : Goes ps s0 (svFrame k x h_ macsec sim noAsdu asdus ext
    copy s).1 := by
  unfold svFrame
  repeat' (first
    | with_reducible assumption | exact reach w (Eq.refl _) | with_reducible apply dropFormat_goes
    | with_reducible apply dropSim_goes | with_reducible apply dropAuth_goes | with_reducible apply dropNotime_goes
    | with_reducible apply event_goes | with_reducible apply cntCtx_goes | with_reducible apply cntSkim_goes
    | with_reducible apply authFrame_goes | refine authFrame_pair (by with_reducible assumption) ?_ ?_
    | with_reducible apply svAsdus_goes | refine svAsdus_pair (by with_reducible assumption) ?_ ?_
    | with_reducible apply mirrorItem_goes | with_reducible apply Goes.ite | exact Or.inr (reachOne w (Eq.refl _))
    | exact Or.inl rfl | simp only [Goes.mk_eq] | with_reducible apply GoesMk.upd | split | dsimp only)

theorem svFrame_pair {ps : List Part} {s0 s1 : State} {k : Nat} {x : Ctx} {h_ : HeldFrame} {macsec sim : Bool} {noAsdu
    : Nat} {asdus : List Asdu} {ext : Option AuthExt} {copy : Option (Nat × Nat)} {s : State} {z} (e : svFrame k x h_
    macsec sim noAsdu asdus ext copy s = (s1, z)) (h : Goes ps s0 s) (w : [.time, .skim, .hawk, .eng, .log, .budget,
    .outbox] ⊆ ps) : Goes ps s0 s1 := by
  have g := svFrame_goes (s0 := s0) k x h_ macsec sim noAsdu asdus ext copy s h w
  rw [e] at g; exact g

theorem gooseEvent_goes {ps : List Part} {s0 : State} (k type : Nat) (gap sim fault : Bool) (g : GoosePart) (slot :
    Nat) (data : List Byte) (s : State) (h : Goes ps s0 s) (w : [.sys, .fns, .skim, .hawk, .eng, .span, .log, .budget,
    .outbox] ⊆ ps) : Goes ps s0 (gooseEvent k type gap sim fault g slot data s) := by
  unfold gooseEvent
  repeat' (first
    | with_reducible assumption | exact reach w (Eq.refl _) | intro _ | with_reducible apply writeEvent_goes
    | with_reducible apply fireTrig_goes | with_reducible apply Goes.foldl | with_reducible apply Goes.foldl1
    | with_reducible apply Goes.foldl2 | with_reducible apply Goes.ite | split | dsimp only)

theorem gooseAccept_goes {ps : List Part} {s0 : State} (k : Nat) (x : Ctx) (h_ : HeldFrame) (m : GooseMsg) (ev gap :
    Nat) (s : State) (h : Goes ps s0 s) (w : [.sys, .fns, .skim, .hawk, .eng, .span, .log, .budget, .outbox] ⊆ ps) :
    Goes ps s0 (gooseAccept k x h_ m ev gap s) := by
  unfold gooseAccept
  repeat' (first
    | with_reducible assumption | exact reach w (Eq.refl _) | with_reducible apply updCtx_goes
    | with_reducible apply cntCtx_goes | with_reducible apply cntSkim_goes | with_reducible apply mirrorItem_goes
    | with_reducible apply gooseEvent_goes | with_reducible apply Goes.ite | exact Or.inr (reachOne w (Eq.refl _))
    | exact Or.inr ⟨reachOne w (Eq.refl _), rfl⟩ | exact Or.inr ⟨reachOne w (Eq.refl _), rfl, rfl, rfl, rfl, rfl⟩
    | exact Or.inl rfl | simp only [Goes.mk_eq] | with_reducible apply GoesMk.upd | split | dsimp only)

theorem gooseFrame_goes {ps : List Part} {s0 : State} (k : Nat) (x : Ctx) (h_ : HeldFrame) (macsec sim : Bool) (m :
    GooseMsg) (ext : Option AuthExt) (s : State) (h : Goes ps s0 s) (w : [.sys, .fns, .skim, .hawk, .eng, .span, .log,
    .budget, .outbox] ⊆ ps) : Goes ps s0 (gooseFrame k x h_ macsec sim m ext s).1 := by
  unfold gooseFrame
  repeat' (first
    | with_reducible assumption | exact reach w (Eq.refl _) | with_reducible apply dropFormat_goes
    | with_reducible apply dropSim_goes | with_reducible apply dropAuth_goes | with_reducible apply dropNotime_goes
    | with_reducible apply authFrame_goes | refine authFrame_pair (by with_reducible assumption) ?_ ?_
    | with_reducible apply cntCtx_goes | with_reducible apply cntSkim_goes | with_reducible apply accept_goes
    | with_reducible apply gooseAccept_goes | with_reducible apply Goes.ite | exact Or.inr (reachOne w (Eq.refl _))
    | exact Or.inr ⟨reachOne w (Eq.refl _), rfl⟩ | exact Or.inr ⟨reachOne w (Eq.refl _), rfl, rfl, rfl, rfl, rfl⟩
    | exact Or.inl rfl | simp only [Goes.mk_eq] | with_reducible apply GoesMk.upd | split | dsimp only)

theorem gooseFrame_pair {ps : List Part} {s0 s1 : State} {k : Nat} {x : Ctx} {h_ : HeldFrame} {macsec sim : Bool} {m :
    GooseMsg} {ext : Option AuthExt} {s : State} {z} (e : gooseFrame k x h_ macsec sim m ext s = (s1, z)) (h : Goes ps
    s0 s) (w : [.sys, .fns, .skim, .hawk, .eng, .span, .log, .budget, .outbox] ⊆ ps) : Goes ps s0 s1 := by
  have g := gooseFrame_goes (s0 := s0) k x h_ macsec sim m ext s h w
  rw [e] at g; exact g

theorem readBody_goes {ps : List Part} {s0 : State} (h_ : HeldFrame) (s : State) (h : Goes ps s0 s) (w : [.skim, .log]
    ⊆ ps) : Goes ps s0 (readBody h_ s).1 := by
  unfold readBody
  repeat' (first
    | with_reducible assumption | exact reach w (Eq.refl _) | with_reducible apply readWords_goes
    | refine readWords_pair (by with_reducible assumption) ?_ ?_ | with_reducible apply Goes.ite | split | dsimp only)

theorem readBody_pair {ps : List Part} {s0 s1 : State} {h_ : HeldFrame} {s : State} {z} (e : readBody h_ s = (s1, z))
    (h : Goes ps s0 s) (w : [.skim, .log] ⊆ ps) : Goes ps s0 s1 := by
  have g := readBody_goes (s0 := s0) h_ s h w
  rw [e] at g; exact g

theorem verifyFrame_goes {ps : List Part} {s0 : State} (k : Nat) (h_ : HeldFrame) (copy : Option (Nat × Nat)) (s :
    State) (h : Goes ps s0 s) (w : [.sys, .fns, .time, .skim, .hawk, .eng, .span, .log, .budget, .outbox] ⊆ ps) : Goes
    ps s0 (verifyFrame k h_ copy s).1 := by
  unfold verifyFrame
  repeat' (first
    | with_reducible assumption | exact reach w (Eq.refl _) | with_reducible apply readBody_goes
    | refine readBody_pair (by with_reducible assumption) ?_ ?_ | with_reducible apply svFrame_goes
    | refine svFrame_pair (by with_reducible assumption) ?_ ?_ | with_reducible apply gooseFrame_goes
    | refine gooseFrame_pair (by with_reducible assumption) ?_ ?_ | with_reducible apply dropFormat_goes
    | with_reducible apply Goes.ite | exact Or.inr (reachOne w (Eq.refl _))
    | exact Or.inr ⟨reachOne w (Eq.refl _), rfl⟩ | exact Or.inr ⟨reachOne w (Eq.refl _), rfl, rfl, rfl, rfl, rfl⟩
    | exact Or.inl rfl | simp only [Goes.mk_eq] | with_reducible apply GoesMk.upd | split | dsimp only)

theorem verifyFrame_pair {ps : List Part} {s0 s1 : State} {k : Nat} {h_ : HeldFrame} {copy : Option (Nat × Nat)} {s :
    State} {z} (e : verifyFrame k h_ copy s = (s1, z)) (h : Goes ps s0 s) (w : [.sys, .fns, .time, .skim, .hawk, .eng,
    .span, .log, .budget, .outbox] ⊆ ps) : Goes ps s0 s1 := by
  have g := verifyFrame_goes (s0 := s0) k h_ copy s h w
  rw [e] at g; exact g

theorem freeDrained_goes {ps : List Part} {s0 : State} (k : Nat) (s : State) (h : Goes ps s0 s) (w : [.skim, .hawk] ⊆
    ps) : Goes ps s0 (freeDrained k s) := by
  unfold freeDrained
  repeat' (first
    | with_reducible assumption | exact reach w (Eq.refl _) | with_reducible apply histDrop_goes
    | with_reducible apply freeCtx_goes | with_reducible apply Goes.ite | exact Or.inr (reachOne w (Eq.refl _))
    | exact Or.inl rfl | simp only [Goes.mk_eq] | with_reducible apply GoesMk.upd | split | dsimp only)

theorem closeDup_goes {ps : List Part} {s0 : State} (h_ : HeldFrame) (tracked ok : Bool) (ctx : Option Nat) (s :
    State) (h : Goes ps s0 s) (w : [.skim] ⊆ ps) : Goes ps s0 (closeDup h_ tracked ok ctx s) := by
  unfold closeDup
  repeat' (first
    | with_reducible assumption | exact reach w (Eq.refl _) | with_reducible apply dupDone_goes
    | with_reducible apply Goes.ite | exact Or.inr (reachOne w (Eq.refl _)) | exact Or.inl rfl
    | simp only [Goes.mk_eq] | with_reducible apply GoesMk.upd | split | dsimp only)

theorem skimFrom4_goes {ps : List Part} {s0 : State} (h_ : HeldFrame) (tracked : Bool) (s : State) (h : Goes ps s0 s)
    (w : [.sys, .fns, .time, .skim, .hawk, .eng, .sealer, .span, .log, .budget, .outbox] ⊆ ps) : Goes ps s0 (skimFrom4
    h_ tracked s) := by
  unfold skimFrom4
  repeat' (first
    | with_reducible assumption | exact reach w (Eq.refl _) | with_reducible apply closeDup_goes
    | with_reducible apply cntSkim_goes | with_reducible apply updSource_goes | with_reducible apply dropOvl5_goes
    | with_reducible apply dropOvl_goes | with_reducible apply touchCtx_goes | with_reducible apply verifyFrame_goes
    | refine verifyFrame_pair (by with_reducible assumption) ?_ ?_ | with_reducible apply Goes.ite
    | exact Or.inr (reachOne w (Eq.refl _)) | exact Or.inr ⟨reachOne w (Eq.refl _), rfl⟩
    | exact Or.inr ⟨reachOne w (Eq.refl _), rfl, rfl, rfl, rfl, rfl⟩ | exact Or.inl rfl | simp only [Goes.mk_eq]
    | with_reducible apply GoesMk.upd | split | dsimp only)

theorem resumeFetch_goes {ps : List Part} {s0 : State} (k : Nat) (s : State) (h : Goes ps s0 s) (w : [.sys, .fns,
    .time, .skim, .hawk, .eng, .sealer, .span, .log, .budget, .outbox] ⊆ ps) : Goes ps s0 (resumeFetch k s) := by
  unfold resumeFetch
  repeat' (first
    | with_reducible assumption | exact reach w (Eq.refl _) | intro _ | with_reducible apply touchCtx_goes
    | with_reducible apply openWork_goes | with_reducible apply verifyFrame_goes
    | refine verifyFrame_pair (by with_reducible assumption) ?_ ?_ | with_reducible apply closeDup_goes
    | with_reducible apply bufFree_goes | with_reducible apply freeDrained_goes | with_reducible apply Goes.foldl
    | with_reducible apply Goes.foldl1 | with_reducible apply Goes.foldl2 | exact Or.inr (reachOne w (Eq.refl _))
    | exact Or.inr ⟨reachOne w (Eq.refl _), rfl⟩ | exact Or.inr ⟨reachOne w (Eq.refl _), rfl, rfl, rfl, rfl, rfl⟩
    | exact Or.inl rfl | simp only [Goes.mk_eq] | with_reducible apply GoesMk.upd | dsimp only)

theorem sysInfoEff_goes {ps : List Part} {s0 : State} (c : Cmd) (s : State) (h : Goes ps s0 s) : Goes ps s0
    (sysInfoEff c s).st := by
  unfold sysInfoEff
  repeat' (first
    | with_reducible assumption | with_reducible apply output_goes | dsimp only)

theorem execSysInfo_goes {ps : List Part} {s0 : State} (c : Cmd) (s : State) (h : Goes ps s0 s) (w : [.journal, .span,
    .outbox] ⊆ ps) : GoesTo ps s0 (execSysInfo c s) := by
  unfold execSysInfo
  repeat' (first
    | with_reducible assumption | exact reach w (Eq.refl _) | intro _ | apply GoesTo.next
    | with_reducible apply runPlain_goes | with_reducible apply sysInfoEff_goes | dsimp only)

theorem sysQcreateEff_goes {ps : List Part} {s0 : State} (c : Cmd) (s : State) (h : Goes ps s0 s) (w : [.sys, .fns,
    .log] ⊆ ps) : Goes ps s0 (sysQcreateEff c s).st := by
  unfold sysQcreateEff
  repeat' (first
    | with_reducible assumption | exact reach w (Eq.refl _) | with_reducible apply extentLimit_goes
    | with_reducible apply done_goes | with_reducible apply updQueue_goes | with_reducible apply admitted_goes
    | with_reducible apply Goes.ite | exact Or.inr (reachOne w (Eq.refl _))
    | exact Or.inr ⟨reachOne w (Eq.refl _), rfl⟩ | exact Or.inr ⟨reachOne w (Eq.refl _), rfl, rfl, rfl, rfl, rfl⟩
    | exact Or.inl rfl | simp only [Goes.mk_eq] | with_reducible apply GoesMk.upd | split | dsimp only)

theorem bootstrapFailed_goes {ps : List Part} {s0 : State} (c : Cmd) (boot : Bool) (s : State) (h : Goes ps s0 s) (w :
    [.fns, .journal, .log] ⊆ ps) : Goes ps s0 (bootstrapFailed c boot s) := by
  unfold bootstrapFailed
  repeat' (first
    | with_reducible assumption | exact reach w (Eq.refl _) | with_reducible apply fnEvent_goes
    | with_reducible apply ledgerFn_goes | with_reducible apply Goes.ite | exact Or.inr (reachOne w (Eq.refl _))
    | exact Or.inl rfl | simp only [Goes.mk_eq] | with_reducible apply GoesMk.upd | split | dsimp only)

theorem execSysQcreate_goes {ps : List Part} {s0 : State} (c : Cmd) (s : State) (h : Goes ps s0 s) (w : [.sys, .fns,
    .journal, .deferred, .span, .log, .outbox] ⊆ ps) : GoesTo ps s0 (execSysQcreate c s) := by
  unfold execSysQcreate
  repeat' (first
    | with_reducible assumption | exact reach w (Eq.refl _) | intro _ | apply GoesTo.next
    | with_reducible apply bootstrapFailed_goes | with_reducible apply runConfig_goes
    | with_reducible apply sysQcreateEff_goes | with_reducible apply Goes.ite | split | dsimp only)

theorem sysQdeleteEff_goes {ps : List Part} {s0 : State} (c : Cmd) (s : State) (h : Goes ps s0 s) (w : [.fns] ⊆ ps) :
    Goes ps s0 (sysQdeleteEff c s).st := by
  unfold sysQdeleteEff
  repeat' (first
    | with_reducible assumption | exact reach w (Eq.refl _) | with_reducible apply done_goes
    | with_reducible apply updQueue_goes | dsimp only)

theorem execSysQdelete_goes {ps : List Part} {s0 : State} (c : Cmd) (s : State) (h : Goes ps s0 s) (w : [.sys, .fns,
    .journal, .deferred, .span, .outbox] ⊆ ps) : GoesTo ps s0 (execSysQdelete c s) := by
  unfold execSysQdelete
  repeat' (first
    | with_reducible assumption | exact reach w (Eq.refl _) | intro _ | apply GoesTo.next
    | with_reducible apply runConfig_goes | with_reducible apply sysQdeleteEff_goes | with_reducible apply Goes.ite
    | split | dsimp only)

theorem sysLedgerEff_goes {ps : List Part} {s0 : State} (c : Cmd) (s : State) (h : Goes ps s0 s) (w : [.fns, .journal]
    ⊆ ps) : Goes ps s0 (sysLedgerEff c s).st := by
  unfold sysLedgerEff
  repeat' (first
    | with_reducible assumption | exact reach w (Eq.refl _) | with_reducible apply updFn_goes
    | with_reducible apply Goes.ite | exact Or.inr (reachOne w (Eq.refl _)) | exact Or.inl rfl
    | simp only [Goes.mk_eq] | with_reducible apply GoesMk.upd | split | dsimp only)

theorem execSysLedger_goes {ps : List Part} {s0 : State} (c : Cmd) (s : State) (h : Goes ps s0 s) (w : [.fns,
    .journal, .span, .outbox] ⊆ ps) : GoesTo ps s0 (execSysLedger c s) := by
  unfold execSysLedger
  repeat' (first
    | with_reducible assumption | exact reach w (Eq.refl _) | intro _ | apply GoesTo.next
    | with_reducible apply runPlain_goes | with_reducible apply sysLedgerEff_goes | dsimp only)

theorem sysHostcfgEff_goes {ps : List Part} {s0 : State} (c : Cmd) (s : State) (h : Goes ps s0 s) (w : [.sys] ⊆ ps) :
    Goes ps s0 (sysHostcfgEff c s).st := by
  unfold sysHostcfgEff
  repeat' (first
    | with_reducible assumption | exact reach w (Eq.refl _) | with_reducible apply done_goes
    | exact Or.inr (reachOne w (Eq.refl _)) | exact Or.inr ⟨reachOne w (Eq.refl _), rfl⟩
    | exact Or.inr ⟨reachOne w (Eq.refl _), rfl, rfl, rfl, rfl, rfl⟩ | exact Or.inl rfl | simp only [Goes.mk_eq]
    | with_reducible apply GoesMk.upd | dsimp only)

theorem execSysHostcfg_goes {ps : List Part} {s0 : State} (c : Cmd) (s : State) (h : Goes ps s0 s) (w : [.sys,
    .journal, .deferred, .span, .outbox] ⊆ ps) : GoesTo ps s0 (execSysHostcfg c s) := by
  unfold execSysHostcfg
  repeat' (first
    | with_reducible assumption | exact reach w (Eq.refl _) | intro _ | apply GoesTo.next
    | with_reducible apply runConfig_goes | with_reducible apply sysHostcfgEff_goes | dsimp only)

theorem sysFnmapEff_goes {ps : List Part} {s0 : State} (c : Cmd) (s : State) (h : Goes ps s0 s) (w : [.fns] ⊆ ps) :
    Goes ps s0 (sysFnmapEff c s).st := by
  unfold sysFnmapEff
  repeat' (first
    | with_reducible assumption | exact reach w (Eq.refl _) | with_reducible apply done_goes
    | with_reducible apply updFn_goes | exact Or.inr (reachOne w (Eq.refl _)) | exact Or.inl rfl
    | simp only [Goes.mk_eq] | with_reducible apply GoesMk.upd | dsimp only)

theorem queueError_goes {ps : List Part} {s0 : State} (f q cause : Nat) (s : State) (h : Goes ps s0 s) (w : [.fns,
    .log] ⊆ ps) : Goes ps s0 (queueError f q cause s) := by
  unfold queueError
  repeat' (first
    | with_reducible assumption | exact reach w (Eq.refl _) | with_reducible apply fnEvent_goes
    | with_reducible apply updQueue_goes | with_reducible apply Goes.ite | exact Or.inr (reachOne w (Eq.refl _))
    | exact Or.inl rfl | simp only [Goes.mk_eq] | with_reducible apply GoesMk.upd | split | dsimp only)

theorem sysDadoinvEff_goes {ps : List Part} {s0 : State} (c : Cmd) (s : State) (h : Goes ps s0 s) (w : [.sys, .fns,
    .journal, .hawk, .log, .outbox] ⊆ ps) : Goes ps s0 (sysDadoinvEff c s).st := by
  unfold sysDadoinvEff
  repeat' (first
    | with_reducible assumption | exact reach w (Eq.refl _) | intro _ | with_reducible apply updFn_goes
    | with_reducible apply stopRing_goes | with_reducible apply queueError_goes | with_reducible apply done_goes
    | with_reducible apply event_goes | with_reducible apply cntDdo_goes | with_reducible apply Goes.foldl
    | with_reducible apply Goes.foldl1 | with_reducible apply Goes.foldl2 | with_reducible apply Goes.ite
    | exact Or.inr (reachOne w (Eq.refl _)) | exact Or.inr ⟨reachOne w (Eq.refl _), rfl⟩
    | exact Or.inr ⟨reachOne w (Eq.refl _), rfl, rfl, rfl, rfl, rfl⟩ | exact Or.inl rfl | simp only [Goes.mk_eq]
    | with_reducible apply GoesMk.upd | split | dsimp only)

theorem execSysDadoinv_goes {ps : List Part} {s0 : State} (c : Cmd) (s : State) (h : Goes ps s0 s) (w : [.sys, .fns,
    .journal, .hawk, .span, .log, .outbox] ⊆ ps) : GoesTo ps s0 (execSysDadoinv c s) := by
  unfold execSysDadoinv
  repeat' (first
    | with_reducible assumption | exact reach w (Eq.refl _) | intro _ | apply GoesTo.next
    | with_reducible apply runPlain_goes | with_reducible apply sysDadoinvEff_goes | dsimp only)

theorem execSysFnreset_goes {ps : List Part} {s0 : State} (c : Cmd) (s : State) (h : Goes ps s0 s) (w : [.sys, .fns,
    .journal, .deferred, .skim, .hawk, .trowel, .eng, .pke, .rng, .pair, .span, .log, .freeCtr, .outbox] ⊆ ps) :
    GoesTo ps s0 (execSysFnreset c s) := by
  unfold execSysFnreset
  repeat' (first
    | with_reducible assumption | exact reach w (Eq.refl _) | apply GoesTo.next | with_reducible apply settle_goes
    | with_reducible apply functionReset_goes | with_reducible apply Goes.ite | exact Or.inr (reachOne w (Eq.refl _))
    | exact Or.inr ⟨reachOne w (Eq.refl _), rfl⟩ | exact Or.inr ⟨reachOne w (Eq.refl _), fun c => c⟩
    | exact Or.inr ⟨reachOne w (Eq.refl _), rfl, rfl, rfl, rfl, rfl⟩ | exact Or.inl rfl | simp only [Goes.mk_eq]
    | with_reducible apply GoesMk.upd | split | dsimp only)

theorem abortMark_goes {ps : List Part} {s0 : State} (c : Cmd) (s : State) (h : Goes ps s0 s) (w : [.journal] ⊆ ps) :
    Goes ps s0 (abortMark c s) := by
  unfold abortMark
  repeat' (first
    | with_reducible assumption | exact reach w (Eq.refl _) | with_reducible apply updJ_goes
    | with_reducible apply Goes.ite | exact Or.inr (reachOne w (Eq.refl _)) | exact Or.inl rfl
    | simp only [Goes.mk_eq] | with_reducible apply GoesMk.upd | split | dsimp only)

theorem settleAborts_goes {ps : List Part} {s0 : State} (tok : Nat) (s : State) (h : Goes ps s0 s) (w : [.journal,
    .span, .outbox] ⊆ ps) : Goes ps s0 (settleAborts tok s) := by
  unfold settleAborts
  repeat' (first
    | with_reducible assumption | exact reach w (Eq.refl _) | intro _ | with_reducible apply settle_goes
    | with_reducible apply Goes.foldl | with_reducible apply Goes.foldl1 | with_reducible apply Goes.foldl2
    | with_reducible apply Goes.ite | exact Or.inr (reachOne w (Eq.refl _)) | exact Or.inl rfl
    | simp only [Goes.mk_eq] | with_reducible apply GoesMk.upd | split | dsimp only)

theorem afterOutcome_goes {ps : List Part} {s0 : State} (tok : Nat) (s : State) (h : Goes ps s0 s) (w : [.sys, .fns,
    .journal, .skim, .hawk, .eng, .rng, .span, .log, .freeCtr, .outbox] ⊆ ps) : Goes ps s0 (afterOutcome tok s) := by
  unfold afterOutcome
  repeat' (first
    | with_reducible assumption | exact reach w (Eq.refl _) | with_reducible apply settleAborts_goes
    | with_reducible apply finishFnReset_goes | with_reducible apply Goes.ite | exact Or.inr (reachOne w (Eq.refl _))
    | exact Or.inr ⟨reachOne w (Eq.refl _), rfl⟩ | exact Or.inr ⟨reachOne w (Eq.refl _), rfl, rfl, rfl, rfl, rfl⟩
    | exact Or.inl rfl | simp only [Goes.mk_eq] | with_reducible apply GoesMk.upd | split | dsimp only)

theorem execCmdAbort_goes {ps : List Part} {s0 : State} (c : Cmd) (s : State) (h : Goes ps s0 s) (w : [.journal,
    .deferred, .trowel, .pke, .span, .outbox] ⊆ ps) : GoesTo ps s0 (execCmdAbort c s) := by
  unfold execCmdAbort
  repeat' (first
    | with_reducible assumption | exact reach w (Eq.refl _) | apply GoesTo.next | with_reducible apply settle_goes
    | with_reducible apply startCmd_goes | with_reducible apply abortMark_goes
    | with_reducible apply settleAborts_goes | with_reducible apply cancel_goes | with_reducible apply Goes.ite
    | exact Or.inr (reachOne w (Eq.refl _)) | exact Or.inr ⟨reachOne w (Eq.refl _), fun c => c⟩ | exact Or.inl rfl
    | simp only [Goes.mk_eq] | with_reducible apply GoesMk.upd | split | dsimp only)

theorem streamMrateEff_goes {ps : List Part} {s0 : State} (c : Cmd) (s : State) (h : Goes ps s0 s) (w : [.time, .hawk]
    ⊆ ps) : Goes ps s0 (streamMrateEff c s).st := by
  unfold streamMrateEff
  repeat' (first
    | with_reducible assumption | exact reach w (Eq.refl _) | with_reducible apply updBp_goes
    | with_reducible apply done_goes | with_reducible apply Goes.ite | exact Or.inr (reachOne w (Eq.refl _))
    | exact Or.inl rfl | simp only [Goes.mk_eq] | with_reducible apply GoesMk.upd | split | dsimp only)

theorem execStreamMrate_goes {ps : List Part} {s0 : State} (c : Cmd) (s : State) (h : Goes ps s0 s) (w : [.sys,
    .journal, .deferred, .time, .hawk, .span, .outbox] ⊆ ps) : GoesTo ps s0 (execStreamMrate c s) := by
  unfold execStreamMrate
  repeat' (first
    | with_reducible assumption | exact reach w (Eq.refl _) | intro _ | apply GoesTo.next
    | with_reducible apply runConfig_goes | with_reducible apply streamMrateEff_goes | dsimp only)

theorem streamCycrefEff_goes {ps : List Part} {s0 : State} (c : Cmd) (s : State) (h : Goes ps s0 s) (w : [.time] ⊆ ps)
    : Goes ps s0 (streamCycrefEff c s).st := by
  unfold streamCycrefEff
  repeat' (first
    | with_reducible assumption | exact reach w (Eq.refl _) | with_reducible apply done_goes
    | with_reducible apply updTrk_goes | with_reducible apply Goes.ite | exact Or.inr (reachOne w (Eq.refl _))
    | exact Or.inl rfl | simp only [Goes.mk_eq] | with_reducible apply GoesMk.upd | split | dsimp only)

theorem execStreamCycref_goes {ps : List Part} {s0 : State} (c : Cmd) (s : State) (h : Goes ps s0 s) (w : [.sys,
    .journal, .deferred, .time, .span, .outbox] ⊆ ps) : GoesTo ps s0 (execStreamCycref c s) := by
  unfold execStreamCycref
  repeat' (first
    | with_reducible assumption | exact reach w (Eq.refl _) | intro _ | apply GoesTo.next
    | with_reducible apply runConfig_goes | with_reducible apply streamCycrefEff_goes | dsimp only)

theorem streamSubEff_goes {ps : List Part} {s0 : State} (c : Cmd) (s : State) (h : Goes ps s0 s) (w : [.skim, .hawk,
    .sealer, .log, .freeCtr, .outbox] ⊆ ps) : Goes ps s0 (streamSubEff c s).1 := by
  unfold streamSubEff
  repeat' (first
    | with_reducible assumption | exact reach w (Eq.refl _) | with_reducible apply addIndex_goes
    | refine addIndex_pair (by with_reducible assumption) ?_ ?_ | with_reducible apply histDrop_goes
    | with_reducible apply newCtx_goes | exact Or.inr (reachOne w (Eq.refl _)) | exact Or.inl rfl
    | simp only [Goes.mk_eq] | with_reducible apply GoesMk.upd | dsimp only)

theorem streamSubEff_pair {ps : List Part} {s0 s1 : State} {c : Cmd} {s : State} {z} (e : streamSubEff c s = (s1, z))
    (h : Goes ps s0 s) (w : [.skim, .hawk, .sealer, .log, .freeCtr, .outbox] ⊆ ps) : Goes ps s0 s1 := by
  have g := streamSubEff_goes (s0 := s0) c s h w
  rw [e] at g; exact g

theorem execStreamSub_goes {ps : List Part} {s0 : State} (c : Cmd) (s : State) (h : Goes ps s0 s) (w : [.sys,
    .journal, .deferred, .skim, .hawk, .sealer, .span, .log, .freeCtr, .outbox] ⊆ ps) : GoesTo ps s0 (execStreamSub c
    s) := by
  unfold execStreamSub
  repeat' (first
    | with_reducible assumption | exact reach w (Eq.refl _) | intro _ | apply GoesTo.next
    | with_reducible apply runConfigBy_goes | with_reducible apply applyIndexed_goes
    | with_reducible apply streamSubEff_goes | refine streamSubEff_pair (by with_reducible assumption) ?_ ?_
    | dsimp only)

theorem execIndexSwap_goes {ps : List Part} {s0 : State} (s : State) (h : Goes ps s0 s) (w : [.sys, .fns, .journal,
    .skim, .hawk, .eng, .rng, .span, .log, .budget, .freeCtr, .outbox] ⊆ ps) : GoesTo ps s0 (execIndexSwap s) := by
  unfold execIndexSwap
  repeat' (first
    | with_reducible assumption | exact reach w (Eq.refl _) | intro _ | apply GoesTo.next
    | with_reducible apply freeOctets_goes | refine freeOctets_pair (by with_reducible assumption) ?_ ?_
    | with_reducible apply charge_goes | with_reducible apply swapIndex_goes
    | refine swapIndex_pair (by with_reducible assumption) ?_ ?_ | with_reducible apply afterOutcome_goes
    | with_reducible apply endRehash_goes | with_reducible apply event_goes | with_reducible apply Goes.foldl
    | with_reducible apply Goes.foldl1 | with_reducible apply Goes.foldl2 | with_reducible apply Goes.ite
    | exact Or.inr (reachOne w (Eq.refl _)) | exact Or.inr ⟨reachOne w (Eq.refl _), rfl⟩
    | exact Or.inr ⟨reachOne w (Eq.refl _), rfl, rfl, rfl, rfl, rfl⟩ | exact Or.inl rfl | simp only [Goes.mk_eq]
    | with_reducible apply GoesMk.upd | split | dsimp only)

theorem streamUnsubEff_goes {ps : List Part} {s0 : State} (c : Cmd) (s : State) (h : Goes ps s0 s) (w : [.fns, .skim,
    .hawk] ⊆ ps) : Goes ps s0 (streamUnsubEff c s).st := by
  unfold streamUnsubEff
  repeat' (first
    | with_reducible assumption | exact reach w (Eq.refl _) | with_reducible apply updCtx_goes
    | with_reducible apply dropIndex_goes | with_reducible apply done_goes | with_reducible apply freeDrained_goes
    | exact Or.inr (reachOne w (Eq.refl _)) | exact Or.inl rfl | simp only [Goes.mk_eq]
    | with_reducible apply GoesMk.upd | dsimp only)

theorem execStreamUnsub_goes {ps : List Part} {s0 : State} (c : Cmd) (s : State) (h : Goes ps s0 s) (w : [.sys, .fns,
    .journal, .deferred, .skim, .hawk, .span, .outbox] ⊆ ps) : GoesTo ps s0 (execStreamUnsub c s) := by
  unfold execStreamUnsub
  repeat' (first
    | with_reducible assumption | exact reach w (Eq.refl _) | intro _ | apply GoesTo.next
    | with_reducible apply runConfig_goes | with_reducible apply streamUnsubEff_goes | dsimp only)

theorem streamKeysEff_goes {ps : List Part} {s0 : State} (c : Cmd) (s : State) (h : Goes ps s0 s) (w : [.skim] ⊆ ps) :
    Goes ps s0 (streamKeysEff c s).st := by
  unfold streamKeysEff
  repeat' (first
    | with_reducible assumption | exact reach w (Eq.refl _) | with_reducible apply done_goes
    | with_reducible apply updCtx_goes | exact Or.inr (reachOne w (Eq.refl _)) | exact Or.inl rfl
    | simp only [Goes.mk_eq] | with_reducible apply GoesMk.upd | dsimp only)

theorem execStreamKeys_goes {ps : List Part} {s0 : State} (c : Cmd) (s : State) (h : Goes ps s0 s) (w : [.sys,
    .journal, .deferred, .skim, .span, .outbox] ⊆ ps) : GoesTo ps s0 (execStreamKeys c s) := by
  unfold execStreamKeys
  repeat' (first
    | with_reducible assumption | exact reach w (Eq.refl _) | intro _ | apply GoesTo.next
    | with_reducible apply runConfig_goes | with_reducible apply streamKeysEff_goes | dsimp only)

theorem promoteRx_goes {ps : List Part} {s0 : State} (k : Nat) (x : Ctx) (s : State) (h : Goes ps s0 s) (w : [.skim,
    .log] ⊆ ps) : Goes ps s0 (promoteRx k x s) := by
  unfold promoteRx
  repeat' (first
    | with_reducible assumption | exact reach w (Eq.refl _) | with_reducible apply dropSa_goes
    | with_reducible apply keyPromoteLog_goes | with_reducible apply updCtx_goes
    | exact Or.inr (reachOne w (Eq.refl _)) | exact Or.inl rfl | simp only [Goes.mk_eq]
    | with_reducible apply GoesMk.upd | split | dsimp only)

theorem execKeyPromote_goes {ps : List Part} {s0 : State} (k : Nat) (s : State) (h : Goes ps s0 s) (w : [.ports,
    .skim, .log] ⊆ ps) : GoesTo ps s0 (execKeyPromote k s) := by
  unfold execKeyPromote
  repeat' (first
    | with_reducible assumption | exact reach w (Eq.refl _) | apply GoesTo.next | with_reducible apply updCtx_goes
    | with_reducible apply keyPromoteLog_goes | with_reducible apply switchTxSa_goes
    | with_reducible apply promoteRx_goes | with_reducible apply Goes.ite | exact Or.inr (reachOne w (Eq.refl _))
    | exact Or.inl rfl | simp only [Goes.mk_eq] | with_reducible apply GoesMk.upd | split | dsimp only)

theorem statsEff_goes {ps : List Part} {s0 : State} (c : Cmd) (s : State) (h : Goes ps s0 s) (w : [.skim] ⊆ ps) : Goes
    ps s0 (statsEff c s).st := by
  unfold statsEff
  repeat' (first
    | with_reducible assumption | exact reach w (Eq.refl _) | with_reducible apply output_goes
    | with_reducible apply updCtx_goes | with_reducible apply Goes.ite | exact Or.inr (reachOne w (Eq.refl _))
    | exact Or.inl rfl | simp only [Goes.mk_eq] | with_reducible apply GoesMk.upd | split | dsimp only)

theorem execStreamStats_goes {ps : List Part} {s0 : State} (c : Cmd) (s : State) (h : Goes ps s0 s) (w : [.journal,
    .skim, .span, .outbox] ⊆ ps) : GoesTo ps s0 (execStreamStats c s) := by
  unfold execStreamStats
  repeat' (first
    | with_reducible assumption | exact reach w (Eq.refl _) | intro _ | apply GoesTo.next
    | with_reducible apply runPlain_goes | with_reducible apply statsEff_goes | dsimp only)

theorem execDupWindowClear_goes {ps : List Part} {s0 : State} (b src : Nat) (s : State) (h : Goes ps s0 s) (w :
    [.ports, .skim] ⊆ ps) : GoesTo ps s0 (execDupWindowClear b src s) := by
  unfold execDupWindowClear
  repeat' (first
    | with_reducible assumption | exact reach w (Eq.refl _) | apply GoesTo.next | with_reducible apply updSource_goes
    | with_reducible apply updPort_goes | with_reducible apply Goes.ite | exact Or.inr (reachOne w (Eq.refl _))
    | exact Or.inl rfl | simp only [Goes.mk_eq] | with_reducible apply GoesMk.upd | split | dsimp only)

theorem execCacheLathFault_goes {ps : List Part} {s0 : State} (k : Nat) (modified : Bool) (s : State) (h : Goes ps s0
    s) (w : [.skim, .log, .outbox] ⊆ ps) : GoesTo ps s0 (execCacheLathFault k modified s) := by
  unfold execCacheLathFault
  repeat' (first
    | with_reducible assumption | exact reach w (Eq.refl _) | apply GoesTo.next | with_reducible apply updCtx_goes
    | with_reducible apply mirrorItem_goes | with_reducible apply event_goes | with_reducible apply logEv_goes
    | with_reducible apply cntSkim_goes | with_reducible apply Goes.ite | exact Or.inr (reachOne w (Eq.refl _))
    | exact Or.inl rfl | simp only [Goes.mk_eq] | with_reducible apply GoesMk.upd | split | dsimp only)

theorem execSupervisionExpiry_goes {ps : List Part} {s0 : State} (k : Nat) (s : State) (h : Goes ps s0 s) (w : [.sys,
    .fns, .skim, .hawk, .eng, .span, .log, .budget, .outbox] ⊆ ps) : GoesTo ps s0 (execSupervisionExpiry k s) := by
  unfold execSupervisionExpiry
  repeat' (first
    | with_reducible assumption | exact reach w (Eq.refl _) | apply GoesTo.next | with_reducible apply updCtx_goes
    | with_reducible apply cntCtx_goes | with_reducible apply gooseEvent_goes | with_reducible apply event_goes
    | with_reducible apply Goes.ite | exact Or.inr (reachOne w (Eq.refl _))
    | exact Or.inr ⟨reachOne w (Eq.refl _), rfl⟩ | exact Or.inr ⟨reachOne w (Eq.refl _), rfl, rfl, rfl, rfl, rfl⟩
    | exact Or.inl rfl | simp only [Goes.mk_eq] | with_reducible apply GoesMk.upd | split | dsimp only)

theorem updPub_goes {ps : List Part} {s0 : State} (k : Nat) (g : PubPart → PubPart) (s : State) (h : Goes ps s0 s) (w
    : [.skim] ⊆ ps) : Goes ps s0 (updPub k g s) := by
  unfold updPub
  repeat' (first
    | with_reducible assumption | exact reach w (Eq.refl _) | with_reducible apply updCtx_goes
    | exact Or.inr (reachOne w (Eq.refl _)) | exact Or.inl rfl | simp only [Goes.mk_eq]
    | with_reducible apply GoesMk.upd | dsimp only)

theorem pubPlain_goes {ps : List Part} {s0 : State} (x : Ctx) (t : Template) (spdu key keyId : Nat) (apdu : List Byte)
    (s : State) (h : Goes ps s0 s) (w : [.eng, .log, .budget] ⊆ ps) : Goes ps s0 (pubPlain x t spdu key keyId apdu
    s).2 := by
  unfold pubPlain
  repeat' (first
    | with_reducible assumption | exact reach w (Eq.refl _) | with_reducible apply tagWork_goes
    | with_reducible apply openWork_goes | dsimp only)

theorem pubPlain_pair {ps : List Part} {s0 s1 : State} {x : Ctx} {t : Template} {spdu key keyId : Nat} {apdu : List
    Byte} {s : State} {z} (e : pubPlain x t spdu key keyId apdu s = (z, s1)) (h : Goes ps s0 s) (w : [.eng, .log,
    .budget] ⊆ ps) : Goes ps s0 s1 := by
  have g := pubPlain_goes (s0 := s0) x t spdu key keyId apdu s h w
  rw [e] at g; exact g

theorem releasePub_goes {ps : List Part} {s0 : State} (k b : Nat) (f : TxFrame) (s : State) (h : Goes ps s0 s) (w :
    [.ports, .bpcfg, .skim] ⊆ ps) : Goes ps s0 (releasePub k b f s) := by
  unfold releasePub
  repeat' (first
    | with_reducible assumption | exact reach w (Eq.refl _) | with_reducible apply updPub_goes
    | with_reducible apply sendBoth_goes | with_reducible apply cntCtx_goes | with_reducible apply Goes.ite
    | exact Or.inr (reachOne w (Eq.refl _)) | exact Or.inl rfl | simp only [Goes.mk_eq]
    | with_reducible apply GoesMk.upd | split | dsimp only)

theorem buildGoose_goes {ps : List Part} {s0 : State} (k slot : Nat) (s : State) (h : Goes ps s0 s) (w : [.skim, .eng,
    .log, .budget] ⊆ ps) : Goes ps s0 (buildGoose k slot s).1 := by
  unfold buildGoose
  repeat' (first
    | with_reducible assumption | exact reach w (Eq.refl _) | with_reducible apply pubPlain_goes
    | refine pubPlain_pair (by with_reducible assumption) ?_ ?_ | with_reducible apply cntCtx_goes
    | with_reducible apply updPub_goes | with_reducible apply Goes.ite | exact Or.inr (reachOne w (Eq.refl _))
    | exact Or.inl rfl | simp only [Goes.mk_eq] | with_reducible apply GoesMk.upd | split | dsimp only)

theorem buildGoose_pair {ps : List Part} {s0 s1 : State} {k slot : Nat} {s : State} {z} (e : buildGoose k slot s =
    (s1, z)) (h : Goes ps s0 s) (w : [.skim, .eng, .log, .budget] ⊆ ps) : Goes ps s0 s1 := by
  have g := buildGoose_goes (s0 := s0) k slot s h w
  rw [e] at g; exact g

theorem pubDelta_goes {ps : List Part} {s0 : State} (k : Nat) (s : State) (h : Goes ps s0 s) (w : [.outbox] ⊆ ps) :
    Goes ps s0 (pubDelta k s) := by
  unfold pubDelta
  repeat' (first
    | with_reducible assumption | exact reach w (Eq.refl _) | with_reducible apply mirrorItem_goes | dsimp only)

theorem sendState_goes {ps : List Part} {s0 : State} (k tok : Nat) (raise : Option (Nat × Nat × Nat)) (s : State) (h :
    Goes ps s0 s) (w : [.ports, .bpcfg, .skim, .publ, .eng, .log, .budget, .outbox] ⊆ ps) : Goes ps s0 (sendState k
    tok raise s) := by
  unfold sendState
  repeat' (first
    | with_reducible assumption | exact reach w (Eq.refl _) | with_reducible apply buildGoose_goes
    | refine buildGoose_pair (by with_reducible assumption) ?_ ?_ | with_reducible apply emit_goes
    | with_reducible apply updPub_goes | with_reducible apply releasePub_goes | with_reducible apply Goes.ite
    | exact Or.inr (reachOne w (Eq.refl _)) | exact Or.inl rfl | simp only [Goes.mk_eq]
    | with_reducible apply GoesMk.upd | split | dsimp only)

theorem releaseHeld_goes {ps : List Part} {s0 : State} (tok : Nat) (s : State) (h : Goes ps s0 s) (w : [.ports,
    .bpcfg, .skim, .publ] ⊆ ps) : Goes ps s0 (releaseHeld tok s) := by
  unfold releaseHeld
  repeat' (first
    | with_reducible assumption | exact reach w (Eq.refl _) | intro _ | with_reducible apply frameGone_goes
    | with_reducible apply releasePub_goes | with_reducible apply Goes.foldl | with_reducible apply Goes.foldl1
    | with_reducible apply Goes.foldl2 | with_reducible apply Goes.ite | exact Or.inr (reachOne w (Eq.refl _))
    | exact Or.inl rfl | simp only [Goes.mk_eq] | with_reducible apply GoesMk.upd | split | dsimp only)

theorem stateChange_goes {ps : List Part} {s0 : State} (k tok inst : Nat) (arg : Option W32) (host : Option (List
    Byte)) (raise : Option (Nat × Nat × Nat)) (s : State) (h : Goes ps s0 s) (w : [.ports, .bpcfg, .skim, .publ, .eng,
    .log, .budget, .outbox] ⊆ ps) : Goes ps s0 (stateChange k tok inst arg host raise s) := by
  unfold stateChange
  repeat' (first
    | with_reducible assumption | exact reach w (Eq.refl _) | with_reducible apply updPub_goes
    | with_reducible apply sendState_goes | with_reducible apply cntCtx_goes | exact Or.inr (reachOne w (Eq.refl _))
    | exact Or.inl rfl | simp only [Goes.mk_eq] | with_reducible apply GoesMk.upd | split | dsimp only)

theorem retransmit_goes {ps : List Part} {s0 : State} (k : Nat) (s : State) (h : Goes ps s0 s) (w : [.ports, .bpcfg,
    .skim, .eng, .log, .budget, .outbox] ⊆ ps) : Goes ps s0 (retransmit k s) := by
  unfold retransmit
  repeat' (first
    | with_reducible assumption | exact reach w (Eq.refl _) | with_reducible apply updPub_goes
    | with_reducible apply pubDelta_goes | with_reducible apply cntCtx_goes | with_reducible apply buildGoose_goes
    | refine buildGoose_pair (by with_reducible assumption) ?_ ?_ | with_reducible apply releasePub_goes
    | with_reducible apply Goes.ite | exact Or.inr (reachOne w (Eq.refl _)) | exact Or.inl rfl
    | simp only [Goes.mk_eq] | with_reducible apply GoesMk.upd | split | dsimp only)

theorem execGooseRetransmit_goes {ps : List Part} {s0 : State} (k : Nat) (s : State) (h : Goes ps s0 s) (w : [.ports,
    .bpcfg, .skim, .eng, .log, .budget, .outbox] ⊆ ps) : GoesTo ps s0 (execGooseRetransmit k s) := by
  unfold execGooseRetransmit
  repeat' (first
    | with_reducible assumption | exact reach w (Eq.refl _) | apply GoesTo.next | with_reducible apply retransmit_goes
    | dsimp only)

theorem execPubFirstState_goes {ps : List Part} {s0 : State} (k : Nat) (s : State) (h : Goes ps s0 s) (w : [.ports,
    .bpcfg, .skim, .publ, .eng, .log, .budget, .outbox] ⊆ ps) : GoesTo ps s0 (execPubFirstState k s) := by
  unfold execPubFirstState
  repeat' (first
    | with_reducible assumption | exact reach w (Eq.refl _) | apply GoesTo.next
    | with_reducible apply stateChange_goes | with_reducible apply Goes.ite | exact Or.inr (reachOne w (Eq.refl _))
    | exact Or.inl rfl | simp only [Goes.mk_eq] | with_reducible apply GoesMk.upd | split | dsimp only)

theorem execSvFrameBuild_goes {ps : List Part} {s0 : State} (k : Nat) (s : State) (h : Goes ps s0 s) (w : [.ports,
    .bpcfg, .skim, .eng, .log, .budget, .outbox] ⊆ ps) : GoesTo ps s0 (execSvFrameBuild k s) := by
  unfold execSvFrameBuild
  repeat' (first
    | with_reducible assumption | exact reach w (Eq.refl _) | apply GoesTo.next | with_reducible apply pubPlain_goes
    | refine pubPlain_pair (by with_reducible assumption) ?_ ?_ | with_reducible apply updPub_goes
    | with_reducible apply pubDelta_goes | with_reducible apply releasePub_goes | with_reducible apply cntCtx_goes
    | with_reducible apply Goes.ite | exact Or.inr (reachOne w (Eq.refl _)) | exact Or.inl rfl
    | simp only [Goes.mk_eq] | with_reducible apply GoesMk.upd | split | dsimp only)

theorem svResume_goes {ps : List Part} {s0 : State} (k : Nat) (s : State) (h : Goes ps s0 s) (w : [.skim] ⊆ ps) : Goes
    ps s0 (svResume k s) := by
  unfold svResume
  repeat' (first
    | with_reducible assumption | exact reach w (Eq.refl _) | intro _ | with_reducible apply updPub_goes
    | with_reducible apply Goes.foldl | with_reducible apply Goes.foldl1 | with_reducible apply Goes.foldl2
    | with_reducible apply Goes.ite | exact Or.inr (reachOne w (Eq.refl _)) | exact Or.inl rfl
    | simp only [Goes.mk_eq] | with_reducible apply GoesMk.upd | split | dsimp only)

theorem resend_goes {ps : List Part} {s0 : State} (k : Nat) (stNum : W32) (s : State) (h : Goes ps s0 s) (w : [.ports,
    .bpcfg, .skim, .eng, .log, .budget, .outbox] ⊆ ps) : Goes ps s0 (resend k stNum s) := by
  unfold resend
  repeat' (first
    | with_reducible assumption | exact reach w (Eq.refl _) | with_reducible apply buildGoose_goes
    | refine buildGoose_pair (by with_reducible assumption) ?_ ?_ | with_reducible apply updPub_goes
    | with_reducible apply pubDelta_goes | with_reducible apply releasePub_goes | with_reducible apply cntCtx_goes
    | with_reducible apply Goes.ite | exact Or.inr (reachOne w (Eq.refl _)) | exact Or.inl rfl
    | simp only [Goes.mk_eq] | with_reducible apply GoesMk.upd | split | dsimp only)

theorem execPendingRaiseDiscard_goes {ps : List Part} {s0 : State} (s : State) (h : Goes ps s0 s) (w : [.publ] ⊆ ps) :
    GoesTo ps s0 (execPendingRaiseDiscard s) := by
  unfold execPendingRaiseDiscard
  repeat' (first
    | with_reducible assumption | apply GoesTo.next | exact Or.inr (reachOne w (Eq.refl _)) | exact Or.inl rfl
    | simp only [Goes.mk_eq] | with_reducible apply GoesMk.upd | dsimp only)

theorem pubOpenEff_goes {ps : List Part} {s0 : State} (c : Cmd) (s : State) (h : Goes ps s0 s) (w : [.skim, .publ,
    .sealer, .log, .outbox] ⊆ ps) : Goes ps s0 (pubOpenEff c s).st := by
  unfold pubOpenEff
  repeat' (first
    | with_reducible assumption | exact reach w (Eq.refl _) | with_reducible apply newCtx_goes
    | with_reducible apply done_goes | with_reducible apply Goes.ite | exact Or.inr (reachOne w (Eq.refl _))
    | exact Or.inl rfl | simp only [Goes.mk_eq] | with_reducible apply GoesMk.upd | split | dsimp only)

theorem execPubOpen_goes {ps : List Part} {s0 : State} (c : Cmd) (s : State) (h : Goes ps s0 s) (w : [.sys, .journal,
    .deferred, .skim, .publ, .sealer, .span, .log, .outbox] ⊆ ps) : GoesTo ps s0 (execPubOpen c s) := by
  unfold execPubOpen
  repeat' (first
    | with_reducible assumption | exact reach w (Eq.refl _) | intro _ | apply GoesTo.next
    | with_reducible apply runConfig_goes | with_reducible apply pubOpenEff_goes | dsimp only)

theorem pubCloseEff_goes {ps : List Part} {s0 : State} (c : Cmd) (s : State) (h : Goes ps s0 s) (w : [.skim, .publ] ⊆
    ps) : Goes ps s0 (pubCloseEff c s).st := by
  unfold pubCloseEff
  repeat' (first
    | with_reducible assumption | exact reach w (Eq.refl _) | with_reducible apply updCtx_goes
    | with_reducible apply done_goes | with_reducible apply frameGone_goes | exact Or.inr (reachOne w (Eq.refl _))
    | exact Or.inl rfl | simp only [Goes.mk_eq] | with_reducible apply GoesMk.upd | dsimp only)

theorem execPubClose_goes {ps : List Part} {s0 : State} (c : Cmd) (s : State) (h : Goes ps s0 s) (w : [.sys, .journal,
    .deferred, .skim, .publ, .span, .outbox] ⊆ ps) : GoesTo ps s0 (execPubClose c s) := by
  unfold execPubClose
  repeat' (first
    | with_reducible assumption | exact reach w (Eq.refl _) | intro _ | apply GoesTo.next
    | with_reducible apply runConfig_goes | with_reducible apply pubCloseEff_goes | dsimp only)

theorem pubSendEff_goes {ps : List Part} {s0 : State} (c : Cmd) (s : State) (h : Goes ps s0 s) (w : [.ports, .bpcfg,
    .skim, .publ, .eng, .log, .budget, .outbox] ⊆ ps) : Goes ps s0 (pubSendEff c s).st := by
  unfold pubSendEff
  repeat' (first
    | with_reducible assumption | exact reach w (Eq.refl _) | with_reducible apply cntCtx_goes
    | with_reducible apply stateChange_goes | with_reducible apply Goes.ite | split | dsimp only)

theorem runSend_goes {ps : List Part} {s0 : State} (c : Cmd) (s : State) (h : Goes ps s0 s) (w : [.journal, .ports,
    .bpcfg, .skim, .publ, .eng, .span, .log, .budget, .outbox] ⊆ ps) : Goes ps s0 (runSend c s) := by
  unfold runSend
  repeat' (first
    | with_reducible assumption | exact reach w (Eq.refl _) | intro _ | with_reducible apply runPlain_goes
    | with_reducible apply pubSendEff_goes | with_reducible apply Goes.ite | split | dsimp only)

theorem takeSends_goes {ps : List Part} {s0 : State} (k : Nat) (s : State) (h : Goes ps s0 s) (w : [.journal, .ports,
    .bpcfg, .skim, .publ, .eng, .span, .log, .budget, .outbox] ⊆ ps) : Goes ps s0 (takeSends k s) := by
  unfold takeSends
  repeat' (first
    | with_reducible assumption | exact reach w (Eq.refl _) | intro _ | with_reducible apply runSend_goes
    | with_reducible apply Goes.foldl | with_reducible apply Goes.foldl1 | with_reducible apply Goes.foldl2
    | dsimp only)

theorem execPubSend_goes {ps : List Part} {s0 : State} (c : Cmd) (s : State) (h : Goes ps s0 s) (w : [.journal,
    .ports, .bpcfg, .skim, .publ, .eng, .span, .log, .budget, .outbox] ⊆ ps) : GoesTo ps s0 (execPubSend c s) := by
  unfold execPubSend
  repeat' (first
    | with_reducible assumption | exact reach w (Eq.refl _) | apply GoesTo.next | with_reducible apply runSend_goes
    | dsimp only)

theorem performRaise_goes {ps : List Part} {s0 : State} (k : Nat) (arg : W32) (raise : Nat × Nat × Nat) (s : State) (h
    : Goes ps s0 s) (w : [.journal, .ports, .bpcfg, .skim, .publ, .eng, .span, .log, .budget, .outbox] ⊆ ps) : Goes ps
    s0 (performRaise k arg raise s) := by
  unfold performRaise
  repeat' (first
    | with_reducible assumption | exact reach w (Eq.refl _) | with_reducible apply takeSends_goes
    | with_reducible apply cntCtx_goes | with_reducible apply stateChange_goes | with_reducible apply Goes.ite
    | exact Or.inr (reachOne w (Eq.refl _)) | exact Or.inl rfl | simp only [Goes.mk_eq]
    | with_reducible apply GoesMk.upd | split | dsimp only)

theorem performPend_goes {ps : List Part} {s0 : State} (q : PendRaise) (s : State) (h : Goes ps s0 s) (w : [.journal,
    .ports, .bpcfg, .skim, .publ, .eng, .span, .log, .budget, .outbox] ⊆ ps) : Goes ps s0 (performPend q s) := by
  unfold performPend
  repeat' (first
    | with_reducible assumption | exact reach w (Eq.refl _) | with_reducible apply performRaise_goes
    | with_reducible apply cntCtx_goes | with_reducible apply Goes.ite | split | dsimp only)

theorem raised_goes {ps : List Part} {s0 : State} (p i k : Nat) (arg : W32) (g : Prog) (s : State) (h : Goes ps s0 s)
    (w : [.journal, .ports, .bpcfg, .skim, .trowel, .publ, .eng, .span, .log, .budget, .outbox] ⊆ ps) : Goes ps s0
    (raised p i k arg g s) := by
  unfold raised
  repeat' (first
    | with_reducible assumption | exact reach w (Eq.refl _) | with_reducible apply performRaise_goes
    | with_reducible apply cntTrw_goes | with_reducible apply cntCtx_goes | with_reducible apply Goes.ite
    | exact Or.inr (reachOne w (Eq.refl _)) | exact Or.inr ⟨reachOne w (Eq.refl _), fun c => c⟩ | exact Or.inl rfl
    | simp only [Goes.mk_eq] | with_reducible apply GoesMk.upd | split | dsimp only)

theorem pubCurveEff_goes {ps : List Part} {s0 : State} (c : Cmd) (s : State) (h : Goes ps s0 s) (w : [.skim] ⊆ ps) :
    Goes ps s0 (pubCurveEff c s).st := by
  unfold pubCurveEff
  repeat' (first
    | with_reducible assumption | exact reach w (Eq.refl _) | with_reducible apply done_goes
    | with_reducible apply updPub_goes | exact Or.inr (reachOne w (Eq.refl _)) | exact Or.inl rfl
    | simp only [Goes.mk_eq] | with_reducible apply GoesMk.upd | dsimp only)

theorem execPubCurve_goes {ps : List Part} {s0 : State} (c : Cmd) (s : State) (h : Goes ps s0 s) (w : [.sys, .journal,
    .deferred, .skim, .span, .outbox] ⊆ ps) : GoesTo ps s0 (execPubCurve c s) := by
  unfold execPubCurve
  repeat' (first
    | with_reducible assumption | exact reach w (Eq.refl _) | intro _ | apply GoesTo.next
    | with_reducible apply runConfig_goes | with_reducible apply pubCurveEff_goes | dsimp only)

theorem execPubStats_goes {ps : List Part} {s0 : State} (c : Cmd) (s : State) (h : Goes ps s0 s) (w : [.journal,
    .skim, .span, .outbox] ⊆ ps) : GoesTo ps s0 (execPubStats c s) := by
  unfold execPubStats
  repeat' (first
    | with_reducible assumption | exact reach w (Eq.refl _) | intro _ | apply GoesTo.next
    | with_reducible apply runPlain_goes | with_reducible apply statsEff_goes | dsimp only)

theorem replan_goes {ps : List Part} {s0 : State} (s : State) (h : Goes ps s0 s) (w : [.trowel, .log] ⊆ ps) : Goes ps
    s0 (replan s) := by
  unfold replan
  repeat' (first
    | with_reducible assumption | exact reach w (Eq.refl _) | with_reducible apply logEv_goes
    | with_reducible apply Goes.ite | exact Or.inr (reachOne w (Eq.refl _))
    | exact Or.inr ⟨reachOne w (Eq.refl _), fun c => c⟩ | exact Or.inl rfl | simp only [Goes.mk_eq]
    | with_reducible apply GoesMk.upd | split | dsimp only)

theorem sendFix_goes {ps : List Part} {s0 : State} (b part slot : Nat) (rows : List Row) (s : State) (h : Goes ps s0
    s) (w : [.pair, .outbox] ⊆ ps) : Goes ps s0 (sendFix b part slot rows s) := by
  unfold sendFix
  repeat' (first
    | with_reducible assumption | exact reach w (Eq.refl _) | with_reducible apply emit_goes
    | with_reducible apply Goes.ite | exact Or.inr (reachOne w (Eq.refl _)) | exact Or.inl rfl
    | simp only [Goes.mk_eq] | with_reducible apply GoesMk.upd | split | dsimp only)

theorem fixDerived_goes {ps : List Part} {s0 : State} (p : Nat) (rows : List Row) (s : State) (h : Goes ps s0 s) (w :
    [.hawk, .pair, .log, .budget, .outbox] ⊆ ps) : Goes ps s0 (fixDerived p rows s) := by
  unfold fixDerived
  repeat' (first
    | with_reducible assumption | exact reach w (Eq.refl _) | intro _ | with_reducible apply putFixed_goes
    | with_reducible apply histPut_goes | with_reducible apply event_goes | with_reducible apply cntHawk_goes
    | with_reducible apply rowTriggers_goes | with_reducible apply sendFix_goes | with_reducible apply Goes.foldl
    | with_reducible apply Goes.foldl1 | with_reducible apply Goes.foldl2 | with_reducible apply Goes.ite
    | exact Or.inr (reachOne w (Eq.refl _)) | exact Or.inl rfl | simp only [Goes.mk_eq]
    | with_reducible apply GoesMk.upd | split | dsimp only)

theorem stepBack_goes {ps : List Part} {s0 : State} (p : Nat) (g : Prog) (s : State) (h : Goes ps s0 s) (w : [.trowel]
    ⊆ ps) : Goes ps s0 (stepBack p g s) := by
  unfold stepBack
  repeat' (first
    | with_reducible assumption | with_reducible exact fun _ h => h | with_reducible exact id_canon
    | with_reducible exact fun _ h => canonProg_of h rfl rfl rfl | exact reach w (Eq.refl _)
    | with_reducible apply updProg_goes | with_reducible apply Goes.ite | exact Or.inr (reachOne w (Eq.refl _))
    | exact Or.inr ⟨reachOne w (Eq.refl _), fun c => c⟩ | exact Or.inl rfl | simp only [Goes.mk_eq]
    | with_reducible apply GoesMk.upd | split | dsimp only)

theorem startNext_goes {ps : List Part} {s0 : State} (c : Nat) (s : State) (h : Goes ps s0 s) (w : [.trowel] ⊆ ps) :
    Goes ps s0 (startNext c s) := by
  unfold startNext
  repeat' (first
    | with_reducible assumption | with_reducible exact fun _ h => h | with_reducible exact id_canon
    | with_reducible exact fun _ h => canonProg_of h rfl rfl rfl | exact reach w (Eq.refl _)
    | with_reducible apply updProg_goes | exact Or.inr (reachOne w (Eq.refl _))
    | exact Or.inr ⟨reachOne w (Eq.refl _), fun c => c⟩ | exact Or.inl rfl | simp only [Goes.mk_eq]
    | with_reducible apply GoesMk.upd | split | dsimp only)

theorem leaveCore_goes {ps : List Part} {s0 : State} (p c : Nat) (s : State) (h : Goes ps s0 s) (w : [.trowel] ⊆ ps) :
    Goes ps s0 (leaveCore p c s) := by
  unfold leaveCore
  repeat' (first
    | with_reducible assumption | exact reach w (Eq.refl _) | with_reducible apply startNext_goes
    | with_reducible apply Goes.ite | exact Or.inr (reachOne w (Eq.refl _))
    | exact Or.inr ⟨reachOne w (Eq.refl _), fun c => c⟩ | exact Or.inl rfl | simp only [Goes.mk_eq]
    | with_reducible apply GoesMk.upd | split | dsimp only)

theorem dropProg_goes {ps : List Part} {s0 : State} (p : Nat) (s : State) (h : Goes ps s0 s) (w : [.journal, .hawk,
    .trowel, .span, .log, .outbox] ⊆ ps) : Goes ps s0 (dropProg p s) := by
  unfold dropProg
  repeat' (first
    | with_reducible assumption | exact reach w (Eq.refl _) | intro _ | with_reducible apply histDrop_goes
    | with_reducible apply settle_goes | with_reducible apply replan_goes | with_reducible apply Goes.foldl
    | with_reducible apply Goes.foldl1 | with_reducible apply Goes.foldl2 | with_reducible apply Goes.ite
    | exact Or.inr (reachOne w (Eq.refl _)) | exact Or.inr ⟨reachOne w (Eq.refl _), fun c => c⟩
    | exact Or.inr ⟨reachOne w (Eq.refl _), fun c => canon_mdel c⟩
    | exact Or.inr ⟨reachOne w (Eq.refl _), fun _ _ h => absurd h List.not_mem_nil⟩
    | (refine Or.inr ⟨reachOne w (Eq.refl _), fun c => canon_map c ?_⟩; intro _ h; (try dsimp only); (repeat' split); all_goals exact canonProg_of h rfl rfl rfl)
    | exact Or.inl rfl | simp only [Goes.mk_eq] | with_reducible apply GoesMk.upd | split | dsimp only)

theorem endWork_goes {ps : List Part} {s0 : State} (p : Nat) (s : State) (h : Goes ps s0 s) (w : [.journal, .hawk,
    .trowel, .span, .log, .outbox] ⊆ ps) : Goes ps s0 (endWork p s) := by
  unfold endWork
  repeat' (first
    | with_reducible assumption | with_reducible exact fun _ h => h | with_reducible exact id_canon
    | with_reducible exact fun _ h => canonProg_of h rfl rfl rfl | exact reach w (Eq.refl _)
    | with_reducible apply leaveCore_goes | with_reducible apply updProg_goes | with_reducible apply idle_goes
    | with_reducible apply dropProg_goes | with_reducible apply Goes.ite | exact Or.inr (reachOne w (Eq.refl _))
    | exact Or.inr ⟨reachOne w (Eq.refl _), fun c => c⟩ | exact Or.inl rfl | simp only [Goes.mk_eq]
    | with_reducible apply GoesMk.upd | split | dsimp only)

theorem trwEvent_goes {ps : List Part} {s0 : State} (b n : Nat) (s : State) (h : Goes ps s0 s) (w : [.trowel, .log] ⊆
    ps) : Goes ps s0 (trwEvent b n s) := by
  unfold trwEvent
  repeat' (first
    | with_reducible assumption | exact reach w (Eq.refl _) | with_reducible apply eventB_goes | dsimp only)

theorem suspendAt_goes {ps : List Part} {s0 : State} (p : Nat) (s : State) (h : Goes ps s0 s) (w : [.trowel, .log] ⊆
    ps) : Goes ps s0 (suspendAt p s) := by
  unfold suspendAt
  repeat' (first
    | with_reducible assumption | with_reducible exact fun _ h => h | with_reducible exact id_canon
    | with_reducible exact fun _ h => canonProg_of h rfl rfl rfl | exact reach w (Eq.refl _)
    | with_reducible apply trwEvent_goes | with_reducible apply updProg_goes | with_reducible apply Goes.ite
    | exact Or.inr (reachOne w (Eq.refl _)) | exact Or.inr ⟨reachOne w (Eq.refl _), fun c => c⟩ | exact Or.inl rfl
    | simp only [Goes.mk_eq] | with_reducible apply GoesMk.upd | split | dsimp only)

theorem stopMark_canon {reason code : Nat} {g : Prog} (h : canonProg g) : canonProg (stopMark reason code g) := by
  unfold stopMark
  with_reducible exact canonProg_of (clearOut_canon (mbWr_canon h)) rfl rfl rfl

theorem stopWork_goes {ps : List Part} {s0 : State} (p reason code : Nat) (s : State) (h : Goes ps s0 s) (w :
    [.journal, .hawk, .trowel, .pair, .span, .log, .budget, .outbox] ⊆ ps) : Goes ps s0 (stopWork p reason code s) :=
    by
  unfold stopWork
  repeat' (first
    | with_reducible assumption | with_reducible exact fun _ h => stopMark_canon h | with_reducible exact fun _ h => h
    | with_reducible exact id_canon | with_reducible exact fun _ h => canonProg_of h rfl rfl rfl
    | exact reach w (Eq.refl _) | with_reducible apply updProg_goes | with_reducible apply cntTrw_goes
    | with_reducible apply trwEvent_goes | with_reducible apply fixDerived_goes | with_reducible apply endWork_goes
    | with_reducible apply suspendAt_goes | with_reducible apply Goes.ite | exact Or.inr (reachOne w (Eq.refl _))
    | exact Or.inr ⟨reachOne w (Eq.refl _), fun c => c⟩ | exact Or.inl rfl | simp only [Goes.mk_eq]
    | with_reducible apply GoesMk.upd | split | dsimp only)

theorem postOut_goes {ps : List Part} {s0 : State} (p : Nat) (s : State) (h : Goes ps s0 s) (w : [.sys, .fns, .skim,
    .trowel, .eng, .span, .log, .budget, .outbox] ⊆ ps) : Goes ps s0 (postOut p s) := by
  unfold postOut
  repeat' (first
    | with_reducible assumption | with_reducible exact fun _ h => h | with_reducible exact id_canon
    | with_reducible exact fun _ h => canonProg_of h rfl rfl rfl | exact reach w (Eq.refl _)
    | with_reducible apply updProg_goes | with_reducible apply trwEvent_goes | with_reducible apply cntTrw_goes
    | with_reducible apply writeEvent_goes | with_reducible apply Goes.ite | exact Or.inr (reachOne w (Eq.refl _))
    | exact Or.inr ⟨reachOne w (Eq.refl _), rfl⟩ | exact Or.inr ⟨reachOne w (Eq.refl _), fun c => c⟩
    | exact Or.inr ⟨reachOne w (Eq.refl _), rfl, rfl, rfl, rfl, rfl⟩ | exact Or.inl rfl | simp only [Goes.mk_eq]
    | with_reducible apply GoesMk.upd | split | dsimp only)

theorem fireSet_goes {ps : List Part} {s0 : State} (p : Nat) (s : State) (h : Goes ps s0 s) (w : [.hawk, .trowel,
    .log, .outbox] ⊆ ps) : Goes ps s0 (fireSet p s) := by
  unfold fireSet
  repeat' (first
    | with_reducible assumption | exact reach w (Eq.refl _) | intro _ | with_reducible apply fireTrig_goes
    | with_reducible apply cntTrw_goes | with_reducible apply Goes.foldl | with_reducible apply Goes.foldl1
    | with_reducible apply Goes.foldl2 | with_reducible apply Goes.ite | exact Or.inr (reachOne w (Eq.refl _))
    | exact Or.inr ⟨reachOne w (Eq.refl _), fun c => c⟩ | exact Or.inl rfl | simp only [Goes.mk_eq]
    | with_reducible apply GoesMk.upd | split | dsimp only)

theorem yieldWork_goes {ps : List Part} {s0 : State} (p : Nat) (s : State) (h : Goes ps s0 s) (w : [.sys, .fns,
    .journal, .skim, .hawk, .trowel, .eng, .pair, .span, .log, .budget, .outbox] ⊆ ps) : Goes ps s0 (yieldWork p s) :=
    by
  unfold yieldWork
  repeat' (first
    | with_reducible assumption | with_reducible exact fun _ h => clearOut_canon h | with_reducible apply updProg_goes
    | with_reducible apply endWork_goes | with_reducible exact fun _ h => h | with_reducible exact id_canon
    | with_reducible exact fun _ h => canonProg_of h rfl rfl rfl | with_reducible exact fun _ h => clearOut_canon h
    | exact reach w (Eq.refl _) | with_reducible apply updProg_goes | with_reducible apply fixDerived_goes
    | with_reducible apply fireSet_goes | with_reducible apply postOut_goes | with_reducible apply endWork_goes
    | exact Or.inr (reachOne w (Eq.refl _)) | exact Or.inr ⟨reachOne w (Eq.refl _), rfl⟩
    | exact Or.inr ⟨reachOne w (Eq.refl _), fun c => c⟩
    | exact Or.inr ⟨reachOne w (Eq.refl _), rfl, rfl, rfl, rfl, rfl⟩ | exact Or.inl rfl | simp only [Goes.mk_eq]
    | with_reducible apply GoesMk.upd | split | dsimp only)

theorem takeSwap_goes {ps : List Part} {s0 : State} (p : Nat) (s : State) (h : Goes ps s0 s) (w : [.trowel, .log, .fw]
    ⊆ ps) : Goes ps s0 (takeSwap p s) := by
  unfold takeSwap
  repeat' (first
    | with_reducible assumption | (intro _ h; refine ⟨?_, h.2⟩; dsimp only; split; exact h.1; exact memWf_wrote _ _)
    | with_reducible exact fun _ h => h | with_reducible exact id_canon
    | with_reducible exact fun _ h => canonProg_of h rfl rfl rfl | exact reach w (Eq.refl _)
    | with_reducible apply updProg_goes | with_reducible apply replan_goes | with_reducible apply trwEvent_goes
    | with_reducible apply cntTrw_goes | with_reducible apply measure_goes | with_reducible apply Goes.ite
    | exact Or.inr (reachOne w (Eq.refl _)) | exact Or.inr ⟨reachOne w (Eq.refl _), fun c => c⟩ | exact Or.inl rfl
    | simp only [Goes.mk_eq] | with_reducible apply GoesMk.upd | split | dsimp only)

theorem deliver_goes {ps : List Part} {s0 : State} (p n : Nat) (s : State) (h : Goes ps s0 s) (w : [.journal, .trowel,
    .span, .outbox] ⊆ ps) : Goes ps s0 (deliver p n s).1 := by
  unfold deliver
  repeat' (first
    | with_reducible assumption | (intro _ h; exact mbWr_canon (mbWr_canon (canonProg_of (mbox_canon h) rfl rfl rfl)))
    | with_reducible exact fun _ h => h | with_reducible exact id_canon
    | with_reducible exact fun _ h => canonProg_of h rfl rfl rfl | exact reach w (Eq.refl _)
    | with_reducible apply updProg_goes | with_reducible apply settle_goes | with_reducible apply Goes.ite
    | exact Or.inr (reachOne w (Eq.refl _)) | exact Or.inr ⟨reachOne w (Eq.refl _), fun c => c⟩ | exact Or.inl rfl
    | simp only [Goes.mk_eq] | with_reducible apply GoesMk.upd | split | dsimp only)

theorem deliver_pair {ps : List Part} {s0 s1 : State} {p n : Nat} {s : State} {z} (e : deliver p n s = (s1, z)) (h :
    Goes ps s0 s) (w : [.journal, .trowel, .span, .outbox] ⊆ ps) : Goes ps s0 s1 := by
  have g := deliver_goes (s0 := s0) p n s h w
  rw [e] at g; exact g

theorem emptyLatches_goes {ps : List Part} {s0 : State} (c : Nat) (s : State) (h : Goes ps s0 s) (w : [.trowel] ⊆ ps)
    : Goes ps s0 (emptyLatches c s) := by
  unfold emptyLatches
  repeat' (first
    | with_reducible assumption | with_reducible apply Goes.ite | exact Or.inr (reachOne w (Eq.refl _))
    | exact Or.inr ⟨reachOne w (Eq.refl _), fun c => c⟩ | exact Or.inr ⟨reachOne w (Eq.refl _), fun c => canon_mdel c⟩
    | exact Or.inr ⟨reachOne w (Eq.refl _), fun _ _ h => absurd h List.not_mem_nil⟩
    | (refine Or.inr ⟨reachOne w (Eq.refl _), fun c => canon_map c ?_⟩; intro _ h; (try dsimp only); (repeat' split); all_goals exact canonProg_of h rfl rfl rfl)
    | exact Or.inl rfl | simp only [Goes.mk_eq] | with_reducible apply GoesMk.upd | split | dsimp only)

theorem memWf_foldl {α : Type} (l : List α) (a : α → Nat) (o : α → List Byte) (m : List Host.Cell)
    (h : memWf none m = true) : memWf none (l.foldl (fun m j => memWrN m (a j) (o j)) m) = true := by
  induction l generalizing m with
  | nil => exact h
  | cons j l ih => exact ih _ (memWf_memWrN _ _ _ h)

theorem fillWindow_wf (n : Nat) (g : Prog) : memWf none (fillWindow n g) = true := memWf_foldl _ _ _ [] rfl

theorem restart_canon {g : Prog} (h : canonProg g) : canonProg (if g.firstNext = true then restartRegs g.img.entry g
    else if g.restartNext = true then restartRegs g.img.restart g else g) := by
  (repeat' split) <;> exact h

theorem fill_canon {g g' : Prog} (h : canonProg g) (a : g'.data = g.data) {n : Nat} {k : Prog}
    (b : g'.dwin = fillWindow n k) (c : g'.mbox = g.mbox) : canonProg g' :=
  ⟨a ▸ h.1, b ▸ fillWindow_wf n k, c ▸ h.2.2⟩

theorem releaseProg_goes {ps : List Part} {s0 : State} (p n : Nat) (s : State) (h : Goes ps s0 s) (w : [.journal,
    .ports, .bpcfg, .skim, .trowel, .publ, .eng, .span, .log, .budget, .fw, .outbox] ⊆ ps) : Goes ps s0 (releaseProg p
    n s) := by
  unfold releaseProg
  repeat' (first
    | with_reducible assumption
    | with_reducible exact fun _ h => mbWr_canon (clearOut_canon (fill_canon (restart_canon h) rfl rfl rfl))
    | with_reducible exact fun _ h => h | with_reducible exact id_canon
    | with_reducible exact fun _ h => canonProg_of h rfl rfl rfl | with_reducible exact fun _ h => clearOut_canon h
    | exact reach w (Eq.refl _) | with_reducible apply takeSwap_goes | with_reducible apply deliver_goes
    | refine deliver_pair (by with_reducible assumption) ?_ ?_ | with_reducible apply updProg_goes
    | with_reducible apply raised_goes | with_reducible apply stepBack_goes | with_reducible apply emptyLatches_goes
    | with_reducible apply startNext_goes | with_reducible apply cntTrw_goes | with_reducible apply Goes.ite
    | exact Or.inr (reachOne w (Eq.refl _)) | exact Or.inr ⟨reachOne w (Eq.refl _), fun c => c⟩ | exact Or.inl rfl
    | simp only [Goes.mk_eq] | with_reducible apply GoesMk.upd | split | dsimp only)

theorem skipRelease_goes {ps : List Part} {s0 : State} (p n : Nat) (s : State) (h : Goes ps s0 s) (w : [.hawk,
    .trowel, .pair, .log, .budget, .outbox] ⊆ ps) : Goes ps s0 (skipRelease p n s) := by
  unfold skipRelease
  repeat' (first
    | with_reducible assumption | with_reducible exact fun _ h => h | with_reducible exact id_canon
    | with_reducible exact fun _ h => canonProg_of h rfl rfl rfl | exact reach w (Eq.refl _)
    | with_reducible apply updProg_goes | with_reducible apply suspendAt_goes | with_reducible apply fixDerived_goes
    | exact Or.inr (reachOne w (Eq.refl _)) | exact Or.inr ⟨reachOne w (Eq.refl _), fun c => c⟩ | exact Or.inl rfl
    | simp only [Goes.mk_eq] | with_reducible apply GoesMk.upd | split | dsimp only)

theorem releaseOne_goes {ps : List Part} {s0 : State} (p n : Nat) (cyc : Bool) (s : State) (h : Goes ps s0 s) (w :
    [.journal, .ports, .bpcfg, .skim, .hawk, .trowel, .publ, .eng, .pair, .span, .log, .budget, .fw, .outbox] ⊆ ps) :
    Goes ps s0 (releaseOne p n cyc s) := by
  unfold releaseOne
  repeat' (first
    | with_reducible assumption | with_reducible exact fun _ h => h | with_reducible exact id_canon
    | with_reducible exact fun _ h => canonProg_of h rfl rfl rfl | exact reach w (Eq.refl _)
    | with_reducible apply idle_goes | with_reducible apply stopWork_goes | with_reducible apply skipRelease_goes
    | with_reducible apply releaseProg_goes | with_reducible apply updProg_goes | with_reducible apply fixDerived_goes
    | with_reducible apply Goes.ite | exact Or.inr (reachOne w (Eq.refl _))
    | exact Or.inr ⟨reachOne w (Eq.refl _), fun c => c⟩ | exact Or.inl rfl | simp only [Goes.mk_eq]
    | with_reducible apply GoesMk.upd | split | dsimp only)

theorem releaseAll_goes {ps : List Part} {s0 : State} (ps_ : Map Prog) (n : Nat) (cyc : Bool) (s : State) (h : Goes ps
    s0 s) (w : [.journal, .ports, .bpcfg, .skim, .hawk, .trowel, .publ, .eng, .pair, .span, .log, .budget, .fw,
    .outbox] ⊆ ps) : Goes ps s0 (releaseAll ps_ n cyc s) := by
  unfold releaseAll
  repeat' (first
    | with_reducible assumption | exact reach w (Eq.refl _) | intro _ | with_reducible apply releaseOne_goes
    | with_reducible apply Goes.foldl | with_reducible apply Goes.foldl1 | with_reducible apply Goes.foldl2
    | dsimp only)

theorem releaseSlots_goes {ps : List Part} {s0 : State} (b g n : Nat) (s : State) (h : Goes ps s0 s) (w : [.journal,
    .ports, .bpcfg, .skim, .hawk, .trowel, .publ, .eng, .pair, .span, .log, .budget, .fw, .outbox] ⊆ ps) : Goes ps s0
    (releaseSlots b g n s) := by
  unfold releaseSlots
  repeat' (first
    | with_reducible assumption | exact reach w (Eq.refl _) | with_reducible apply releaseAll_goes | dsimp only)

theorem releaseCycles_goes {ps : List Part} {s0 : State} (b n : Nat) (cyc : Bool) (s : State) (h : Goes ps s0 s) (w :
    [.journal, .ports, .bpcfg, .skim, .hawk, .trowel, .publ, .eng, .pair, .span, .log, .budget, .fw, .outbox] ⊆ ps) :
    Goes ps s0 (releaseCycles b n cyc s) := by
  unfold releaseCycles
  repeat' (first
    | with_reducible assumption | exact reach w (Eq.refl _) | with_reducible apply releaseAll_goes | dsimp only)

theorem movedData_goes {ps : List Part} {s0 : State} (g : Prog) (s : State) (h : Goes ps s0 s) (w : [.freeCtr] ⊆ ps) :
    Goes ps s0 (movedData g s).2 := by
  unfold movedData
  repeat' (first
    | with_reducible assumption | exact reach w (Eq.refl _) | with_reducible apply freeOctets_goes
    | refine freeOctets_pair (by with_reducible assumption) ?_ ?_ | with_reducible apply Goes.ite | split | dsimp only)

theorem movedData_pair {ps : List Part} {s0 s1 : State} {g : Prog} {s : State} {z} (e : movedData g s = (z, s1)) (h :
    Goes ps s0 s) (w : [.freeCtr] ⊆ ps) : Goes ps s0 s1 := by
  have g := movedData_goes (s0 := s0) g s h w
  rw [e] at g; exact g

theorem stopForMove_goes {ps : List Part} {s0 : State} (p : Nat) (lath : Bool) (s : State) (h : Goes ps s0 s) (w :
    [.journal, .hawk, .trowel, .pair, .span, .log, .budget, .outbox] ⊆ ps) : Goes ps s0 (stopForMove p lath s) := by
  unfold stopForMove
  repeat' (first
    | with_reducible assumption | with_reducible exact fun _ h => canonProg_of (mbWr_canon h) rfl rfl rfl
    | with_reducible exact fun _ h => h | with_reducible exact id_canon
    | with_reducible exact fun _ h => canonProg_of h rfl rfl rfl | exact reach w (Eq.refl _)
    | with_reducible apply idle_goes | with_reducible apply stopWork_goes | with_reducible apply updProg_goes
    | with_reducible apply Goes.ite | exact Or.inr (reachOne w (Eq.refl _))
    | exact Or.inr ⟨reachOne w (Eq.refl _), fun c => c⟩ | exact Or.inl rfl | simp only [Goes.mk_eq]
    | with_reducible apply GoesMk.upd | split | dsimp only)

theorem movedData_wf (g : Prog) (s : State) : memWf none (movedData g s).1 = true := by
  unfold movedData
  split <;> exact memWf_wrote _ _

theorem moveProg_goes {ps : List Part} {s0 : State} (p : Nat) (dest : Option Nat) (lath : Bool) (s : State) (h : Goes
    ps s0 s) (w : [.journal, .hawk, .trowel, .pair, .span, .log, .budget, .freeCtr, .outbox] ⊆ ps) : Goes ps s0
    (moveProg p dest lath s) := by
  unfold moveProg
  repeat' (first
    | with_reducible assumption | with_reducible exact fun _ h => canonProg_of (mbWr_canon h) rfl rfl rfl
    | exact fun _ h => ⟨movedData_wf _ _, h.2⟩ | with_reducible exact fun _ h => h | with_reducible exact id_canon
    | with_reducible exact fun _ h => canonProg_of h rfl rfl rfl | exact reach w (Eq.refl _)
    | with_reducible apply stopForMove_goes | with_reducible apply movedData_goes
    | refine movedData_pair (by with_reducible assumption) ?_ ?_ | with_reducible apply updProg_goes
    | with_reducible apply trwEvent_goes | with_reducible apply cntTrw_goes | exact Or.inr (reachOne w (Eq.refl _))
    | exact Or.inr ⟨reachOne w (Eq.refl _), fun c => c⟩ | exact Or.inl rfl | simp only [Goes.mk_eq]
    | with_reducible apply GoesMk.upd | split | dsimp only)

theorem retireBut_goes {ps : List Part} {s0 : State} (lath : Option Nat) (c : Nat) (s : State) (h : Goes ps s0 s) (w :
    [.journal, .hawk, .trowel, .pair, .span, .log, .budget, .freeCtr, .outbox] ⊆ ps) : Goes ps s0 (retireBut lath c s)
    := by
  unfold retireBut
  repeat' (first
    | with_reducible assumption | exact reach w (Eq.refl _) | intro _ | with_reducible apply replan_goes
    | with_reducible apply moveProg_goes | with_reducible apply trwEvent_goes | with_reducible apply Goes.foldl
    | with_reducible apply Goes.foldl1 | with_reducible apply Goes.foldl2 | with_reducible apply Goes.ite
    | exact Or.inr (reachOne w (Eq.refl _)) | exact Or.inr ⟨reachOne w (Eq.refl _), fun c => c⟩ | exact Or.inl rfl
    | simp only [Goes.mk_eq] | with_reducible apply GoesMk.upd | split | dsimp only)

theorem retireCore_goes {ps : List Part} {s0 : State} (c : Nat) (s : State) (h : Goes ps s0 s) (w : [.journal, .hawk,
    .trowel, .pair, .span, .log, .budget, .freeCtr, .outbox] ⊆ ps) : Goes ps s0 (retireCore c s) := by
  unfold retireCore
  repeat' (first
    | with_reducible assumption | exact reach w (Eq.refl _) | with_reducible apply retireBut_goes | dsimp only)

theorem execCoreSelftest_goes {ps : List Part} {s0 : State} (core : Nat) (pass : Bool) (s : State) (h : Goes ps s0 s)
    (w : [.journal, .hawk, .trowel, .pair, .span, .log, .budget, .freeCtr, .outbox] ⊆ ps) : GoesTo ps s0
    (execCoreSelftest core pass s) := by
  unfold execCoreSelftest
  repeat' (first
    | with_reducible assumption | exact reach w (Eq.refl _) | apply GoesTo.next | with_reducible apply retireCore_goes
    | with_reducible apply Goes.ite | split | dsimp only)

theorem loadVerified_goes {ps : List Part} {s0 : State} (check : Cmd → State → Option Nat) (eff : Cmd → State → Eff)
    (c : Cmd) (s : State) (h : Goes ps s0 s) (heff : ∀ a0 s, Goes ps s0 s → Goes ps s0 (eff a0 s).st) (w : [.sys,
    .journal, .pke, .span, .log, .budget, .outbox] ⊆ ps) : Goes ps s0 (loadVerified check eff c s) := by
  unfold loadVerified
  repeat' (first
    | with_reducible assumption | exact reach w (Eq.refl _) | intro _ | apply heff
    | with_reducible apply applyConfig_goes | with_reducible apply imageWork_goes | with_reducible apply Goes.ite
    | split | dsimp only)

theorem loadedProg_canon {c : Cmd} {s : State} (k : Canon s) : canonProg (loadedProg c s) := by
  unfold loadedProg
  dsimp only
  split
  · rename_i e
    exact (k.progOf e : canonProg _)
  · exact ⟨memWf_wrote _ _, rfl, rfl⟩

theorem trowelLoadEff_goes {ps : List Part} {s0 : State} (c : Cmd) (s : State) (h : Goes ps s0 s) (w : [.trowel, .log, .fw] ⊆ ps) :
    Goes ps s0 (trowelLoadEff c s).st := by
  unfold trowelLoadEff done
  dsimp only
  repeat' (first | with_reducible assumption | exact reach w (Eq.refl _) | with_reducible apply measure_goes |
    with_reducible apply replan_goes | with_reducible apply Goes.ite |
    exact Or.inr ⟨reachOne w (Eq.refl _), fun k => canon_mset k (loadedProg_canon k)⟩ |
    exact Or.inl rfl | simp only [Goes.mk_eq] | with_reducible apply GoesMk.upd)

theorem execTrowelLoad_goes {ps : List Part} {s0 : State} (c : Cmd) (s : State) (h : Goes ps s0 s) (w : [.sys,
    .journal, .deferred, .trowel, .pke, .span, .log, .budget, .fw, .outbox] ⊆ ps) : GoesTo ps s0 (execTrowelLoad c s)
    := by
  unfold execTrowelLoad
  repeat' (first
    | with_reducible assumption | exact reach w (Eq.refl _) | intro _ | apply GoesTo.next
    | with_reducible apply runConfigBy_goes | with_reducible apply loadVerified_goes
    | with_reducible apply trowelLoadEff_goes | dsimp only)

theorem trowelBindEff_goes {ps : List Part} {s0 : State} (c : Cmd) (s : State) (h : Goes ps s0 s) (w : [.hawk,
    .trowel] ⊆ ps) : Goes ps s0 (trowelBindEff c s).st := by
  unfold trowelBindEff
  repeat' (first
    | with_reducible assumption | with_reducible exact fun _ h => h | with_reducible exact id_canon
    | with_reducible exact fun _ h => canonProg_of h rfl rfl rfl | exact reach w (Eq.refl _) | intro _
    | with_reducible apply histDrop_goes | with_reducible apply done_goes | with_reducible apply updProg_goes
    | with_reducible apply Goes.foldl | with_reducible apply Goes.foldl1 | with_reducible apply Goes.foldl2
    | exact Or.inr (reachOne w (Eq.refl _)) | exact Or.inr ⟨reachOne w (Eq.refl _), fun c => c⟩ | exact Or.inl rfl
    | simp only [Goes.mk_eq] | with_reducible apply GoesMk.upd | split | dsimp only)

theorem execTrowelBind_goes {ps : List Part} {s0 : State} (c : Cmd) (s : State) (h : Goes ps s0 s) (w : [.sys,
    .journal, .deferred, .hawk, .trowel, .span, .outbox] ⊆ ps) : GoesTo ps s0 (execTrowelBind c s) := by
  unfold execTrowelBind
  repeat' (first
    | with_reducible assumption | exact reach w (Eq.refl _) | intro _ | apply GoesTo.next
    | with_reducible apply runConfig_goes | with_reducible apply trowelBindEff_goes | dsimp only)

theorem trowelStartEff_goes {ps : List Part} {s0 : State} (c : Cmd) (s : State) (h : Goes ps s0 s) (w : [.trowel] ⊆
    ps) : Goes ps s0 (trowelStartEff c s).st := by
  unfold trowelStartEff
  repeat' (first
    | with_reducible assumption | (intro _ h; split; exact h; exact canonProg_of h rfl rfl rfl)
    | with_reducible exact fun _ h => h | with_reducible exact id_canon
    | with_reducible exact fun _ h => canonProg_of h rfl rfl rfl
    | (intro _ h; dsimp only; split <;> exact canonProg_of h rfl rfl rfl) | exact reach w (Eq.refl _)
    | with_reducible apply done_goes | with_reducible apply updProg_goes | with_reducible apply Goes.ite
    | exact Or.inr (reachOne w (Eq.refl _)) | exact Or.inr ⟨reachOne w (Eq.refl _), fun c => c⟩ | exact Or.inl rfl
    | simp only [Goes.mk_eq] | with_reducible apply GoesMk.upd | split | dsimp only)

theorem execTrowelStart_goes {ps : List Part} {s0 : State} (c : Cmd) (s : State) (h : Goes ps s0 s) (w : [.sys,
    .journal, .deferred, .trowel, .span, .outbox] ⊆ ps) : GoesTo ps s0 (execTrowelStart c s) := by
  unfold execTrowelStart
  repeat' (first
    | with_reducible assumption | exact reach w (Eq.refl _) | intro _ | apply GoesTo.next
    | with_reducible apply runConfig_goes | with_reducible apply trowelStartEff_goes | dsimp only)

theorem trowelStopEff_goes {ps : List Part} {s0 : State} (c : Cmd) (s : State) (h : Goes ps s0 s) (w : [.trowel] ⊆ ps)
    : Goes ps s0 (trowelStopEff c s).st := by
  unfold trowelStopEff
  repeat' (first
    | with_reducible assumption | (intro _ h; split; exact h; exact canonProg_of h rfl rfl rfl)
    | with_reducible exact fun _ h => h | with_reducible exact id_canon
    | with_reducible exact fun _ h => canonProg_of h rfl rfl rfl
    | (intro _ h; dsimp only; split <;> exact canonProg_of h rfl rfl rfl) | exact reach w (Eq.refl _)
    | with_reducible apply done_goes | with_reducible apply updProg_goes | with_reducible apply Goes.ite
    | exact Or.inr (reachOne w (Eq.refl _)) | exact Or.inr ⟨reachOne w (Eq.refl _), fun c => c⟩ | exact Or.inl rfl
    | simp only [Goes.mk_eq] | with_reducible apply GoesMk.upd | split | dsimp only)

theorem execTrowelStop_goes {ps : List Part} {s0 : State} (c : Cmd) (s : State) (h : Goes ps s0 s) (w : [.sys,
    .journal, .deferred, .trowel, .span, .outbox] ⊆ ps) : GoesTo ps s0 (execTrowelStop c s) := by
  unfold execTrowelStop
  repeat' (first
    | with_reducible assumption | exact reach w (Eq.refl _) | intro _ | apply GoesTo.next
    | with_reducible apply runConfig_goes | with_reducible apply trowelStopEff_goes | dsimp only)

theorem trowelUnloadEff_goes {ps : List Part} {s0 : State} (c : Cmd) (s : State) (h : Goes ps s0 s) (w : [.journal,
    .hawk, .trowel, .span, .log, .outbox] ⊆ ps) : Goes ps s0 (trowelUnloadEff c s).st := by
  unfold trowelUnloadEff
  repeat' (first
    | with_reducible assumption | with_reducible exact fun _ h => h | with_reducible exact id_canon
    | with_reducible exact fun _ h => canonProg_of h rfl rfl rfl | exact reach w (Eq.refl _)
    | with_reducible apply idle_goes | with_reducible apply done_goes | with_reducible apply dropProg_goes
    | with_reducible apply updProg_goes | with_reducible apply Goes.ite | exact Or.inr (reachOne w (Eq.refl _))
    | exact Or.inr ⟨reachOne w (Eq.refl _), fun c => c⟩ | exact Or.inl rfl | simp only [Goes.mk_eq]
    | with_reducible apply GoesMk.upd | split | dsimp only)

theorem execTrowelUnload_goes {ps : List Part} {s0 : State} (c : Cmd) (s : State) (h : Goes ps s0 s) (w : [.sys,
    .journal, .deferred, .hawk, .trowel, .span, .log, .outbox] ⊆ ps) : GoesTo ps s0 (execTrowelUnload c s) := by
  unfold execTrowelUnload
  repeat' (first
    | with_reducible assumption | exact reach w (Eq.refl _) | intro _ | apply GoesTo.next
    | with_reducible apply runConfig_goes | with_reducible apply trowelUnloadEff_goes | dsimp only)

theorem execTrowelRetire_goes {ps : List Part} {s0 : State} (c : Cmd) (s : State) (h : Goes ps s0 s) (w : [.journal,
    .hawk, .trowel, .pair, .span, .log, .budget, .freeCtr, .outbox] ⊆ ps) : GoesTo ps s0 (execTrowelRetire c s) := by
  unfold execTrowelRetire
  repeat' (first
    | with_reducible assumption | exact reach w (Eq.refl _) | intro _ | apply GoesTo.next
    | with_reducible apply runPlain_goes | with_reducible apply done_goes | with_reducible apply retireCore_goes
    | dsimp only)

theorem stampMbox_goes {ps : List Part} {s0 : State} (c : Cmd) (s : State) (h : Goes ps s0 s) (w : [.trowel, .outbox]
    ⊆ ps) : Goes ps s0 (stampMbox c s) := by
  unfold stampMbox
  repeat' (first
    | with_reducible assumption | with_reducible exact fun _ h => h | with_reducible exact id_canon
    | with_reducible exact fun _ h => canonProg_of h rfl rfl rfl | exact reach w (Eq.refl _)
    | with_reducible apply mirrorItem_goes | with_reducible apply updProg_goes | with_reducible apply Goes.ite
    | exact Or.inr (reachOne w (Eq.refl _)) | exact Or.inr ⟨reachOne w (Eq.refl _), fun c => c⟩ | exact Or.inl rfl
    | simp only [Goes.mk_eq] | with_reducible apply GoesMk.upd | split | dsimp only)

theorem execTrowelMbsend_goes {ps : List Part} {s0 : State} (c : Cmd) (s : State) (h : Goes ps s0 s) (w : [.journal,
    .span, .outbox] ⊆ ps) : GoesTo ps s0 (execTrowelMbsend c s) := by
  unfold execTrowelMbsend
  repeat' (first
    | with_reducible assumption | exact reach w (Eq.refl _) | apply GoesTo.next | with_reducible apply settle_goes
    | with_reducible apply startCmd_goes | with_reducible apply Goes.ite | exact Or.inr (reachOne w (Eq.refl _))
    | exact Or.inl rfl | simp only [Goes.mk_eq] | with_reducible apply GoesMk.upd | split | dsimp only)

theorem sealFail_goes {ps : List Part} {s0 : State} (kind rid lbn pc : Nat) (s : State) (h : Goes ps s0 s) (w : [.sys,
    .time, .ports, .bpcfg, .skim, .hawk, .trowel, .publ, .eng, .pke, .rng, .sealer, .log, .outbox] ⊆ ps) : Goes ps s0
    (sealFail kind rid lbn pc s) := by
  unfold sealFail
  repeat' (first
    | with_reducible assumption | exact reach w (Eq.refl _) | with_reducible apply enterHalted_goes
    | with_reducible apply event_goes | with_reducible apply cntSlr_goes | exact Or.inr (reachOne w (Eq.refl _))
    | exact Or.inr ⟨reachOne w (Eq.refl _), rfl⟩ | exact Or.inr ⟨reachOne w (Eq.refl _), fun c => c⟩
    | exact Or.inr ⟨reachOne w (Eq.refl _), rfl, rfl, rfl, rfl, rfl⟩ | exact Or.inl rfl | simp only [Goes.mk_eq]
    | with_reducible apply GoesMk.upd | dsimp only)

theorem noteRow_goes {ps : List Part} {s0 : State} (twice : Bool) (addr : Nat) (s : State) (h : Goes ps s0 s) (w :
    [.sealer] ⊆ ps) : Goes ps s0 (noteRow twice addr s) := by
  unfold noteRow
  repeat' (first
    | with_reducible assumption | with_reducible apply Goes.ite | exact Or.inr (reachOne w (Eq.refl _))
    | exact Or.inl rfl | simp only [Goes.mk_eq] | with_reducible apply GoesMk.upd | split | dsimp only)

theorem countWord_goes {ps : List Part} {s0 : State} (x : Nat × LathWord × Option LathWord) (s : State) (h : Goes ps
    s0 s) (w : [.sealer, .log] ⊆ ps) : Goes ps s0 (countWord x s) := by
  unfold countWord
  repeat' (first
    | with_reducible assumption | exact reach w (Eq.refl _) | with_reducible apply noteRow_goes
    | with_reducible apply event_goes | with_reducible apply cntSlr_goes | with_reducible apply Goes.ite | split
    | dsimp only)

theorem countRead_goes {ps : List Part} {s0 : State} (rid lbn : Nat) (whole : Bool) (r : SectorRead) (s : State) (h :
    Goes ps s0 s) (w : [.sealer, .log] ⊆ ps) : Goes ps s0 (countRead rid lbn whole r s) := by
  unfold countRead
  repeat' (first
    | with_reducible assumption | exact reach w (Eq.refl _) | intro _ | with_reducible apply countWord_goes
    | with_reducible apply cntSlr_goes | with_reducible apply Goes.foldl | with_reducible apply Goes.foldl1
    | with_reducible apply Goes.foldl2 | with_reducible apply Goes.ite | split | dsimp only)

theorem execSealerAccess_goes {ps : List Part} {s0 : State} (rid lbn : Nat) (op : SealOp) (r : SectorRead) (s : State)
    (h : Goes ps s0 s) (w : [.sys, .time, .ports, .bpcfg, .skim, .hawk, .trowel, .publ, .eng, .pke, .rng, .sealer,
    .log, .outbox] ⊆ ps) : GoesTo ps s0 (execSealerAccess rid lbn op r s) := by
  unfold execSealerAccess
  repeat' (first
    | with_reducible assumption | exact reach w (Eq.refl _) | apply GoesTo.next | with_reducible apply countRead_goes
    | with_reducible apply sealFail_goes | with_reducible apply sealWrite_goes | with_reducible apply emit_goes
    | with_reducible apply touchPath_goes | with_reducible apply Goes.ite | exact Or.inr (reachOne w (Eq.refl _))
    | exact Or.inr ⟨reachOne w (Eq.refl _), rfl⟩ | exact Or.inr ⟨reachOne w (Eq.refl _), fun c => c⟩
    | exact Or.inr ⟨reachOne w (Eq.refl _), rfl, rfl, rfl, rfl, rfl⟩ | exact Or.inl rfl | simp only [Goes.mk_eq]
    | with_reducible apply GoesMk.upd | split | dsimp only)

theorem regionWalk_goes {ps : List Part} {s0 : State} (rid : Nat) (s : State) (h : Goes ps s0 s) (w : [.sealer, .log,
    .budget, .freeCtr, .outbox] ⊆ ps) : Goes ps s0 (regionWalk rid s) := by
  unfold regionWalk
  repeat' (first
    | with_reducible assumption | exact reach w (Eq.refl _) | with_reducible apply event_goes
    | with_reducible apply updReg_goes | with_reducible apply freeOctets_goes
    | refine freeOctets_pair (by with_reducible assumption) ?_ ?_ | with_reducible apply cntSlr_goes
    | with_reducible apply putSector_goes | with_reducible apply openWork_goes | exact Or.inr (reachOne w (Eq.refl _))
    | exact Or.inl rfl | simp only [Goes.mk_eq] | with_reducible apply GoesMk.upd | split | dsimp only)

theorem shrinkHistory_goes {ps : List Part} {s0 : State} (mib : Nat) (s : State) (h : Goes ps s0 s) (w : [.hawk,
    .sealer, .log] ⊆ ps) : Goes ps s0 (shrinkHistory mib s) := by
  unfold shrinkHistory
  repeat' (first
    | with_reducible assumption | exact reach w (Eq.refl _) | intro _ | with_reducible apply updReg_goes
    | with_reducible apply event_goes | with_reducible apply Goes.foldl | with_reducible apply Goes.foldl1
    | with_reducible apply Goes.foldl2 | with_reducible apply Goes.ite | exact Or.inr (reachOne w (Eq.refl _))
    | exact Or.inl rfl | simp only [Goes.mk_eq] | with_reducible apply GoesMk.upd | split | dsimp only)

theorem moveFrame_goes {ps : List Part} {s0 : State} (rid f p : Nat) (s : State) (h : Goes ps s0 s) (w : [.sealer] ⊆
    ps) : Goes ps s0 (moveFrame rid f p s) := by
  unfold moveFrame
  repeat' (first
    | with_reducible assumption | exact reach w (Eq.refl _) | with_reducible apply updReg_goes
    | with_reducible apply Goes.ite | exact Or.inr (reachOne w (Eq.refl _)) | exact Or.inl rfl
    | simp only [Goes.mk_eq] | with_reducible apply GoesMk.upd | split | dsimp only)

theorem moveFrames_goes {ps : List Part} {s0 : State} (pc : Nat) (spares : List Nat) (s : State) (h : Goes ps s0 s) (w
    : [.sealer] ⊆ ps) : Goes ps s0 (moveFrames pc spares s) := by
  unfold moveFrames
  repeat' (first
    | with_reducible assumption | exact reach w (Eq.refl _) | intro _ | with_reducible apply moveFrame_goes
    | with_reducible apply Goes.foldl | with_reducible apply Goes.foldl1 | with_reducible apply Goes.foldl2
    | dsimp only)

theorem retirePc_goes {ps : List Part} {s0 : State} (pc : Nat) (s : State) (h : Goes ps s0 s) (w : [.sys, .time,
    .ports, .bpcfg, .skim, .hawk, .trowel, .publ, .eng, .pke, .rng, .sealer, .log, .freeCtr, .outbox] ⊆ ps) : Goes ps
    s0 (retirePc pc s) := by
  unfold retirePc
  repeat' (first
    | with_reducible assumption | exact reach w (Eq.refl _) | with_reducible apply fresh_goes
    | refine fresh_pair (by with_reducible assumption) ?_ ?_ | with_reducible apply sealFail_goes
    | with_reducible apply event_goes | with_reducible apply moveFrames_goes | with_reducible apply shrinkHistory_goes
    | with_reducible apply Goes.ite | exact Or.inr (reachOne w (Eq.refl _))
    | exact Or.inr ⟨reachOne w (Eq.refl _), rfl⟩ | exact Or.inr ⟨reachOne w (Eq.refl _), fun c => c⟩
    | exact Or.inr ⟨reachOne w (Eq.refl _), rfl, rfl, rfl, rfl, rfl⟩ | exact Or.inl rfl | simp only [Goes.mk_eq]
    | with_reducible apply GoesMk.upd | split | dsimp only)

theorem execRowRepair_goes {ps : List Part} {s0 : State} (r : HbmRow) (spareRow : Bool) (s : State) (h : Goes ps s0 s)
    (w : [.sys, .time, .ports, .bpcfg, .skim, .hawk, .trowel, .publ, .eng, .pke, .rng, .sealer, .log, .freeCtr,
    .outbox] ⊆ ps) : GoesTo ps s0 (execRowRepair r spareRow s) := by
  unfold execRowRepair
  repeat' (first
    | with_reducible assumption | exact reach w (Eq.refl _) | apply GoesTo.next | with_reducible apply retirePc_goes
    | with_reducible apply event_goes | with_reducible apply cntSlr_goes | with_reducible apply Goes.ite
    | exact Or.inr (reachOne w (Eq.refl _)) | exact Or.inr ⟨reachOne w (Eq.refl _), rfl⟩
    | exact Or.inr ⟨reachOne w (Eq.refl _), fun c => c⟩
    | exact Or.inr ⟨reachOne w (Eq.refl _), rfl, rfl, rfl, rfl, rfl⟩ | exact Or.inl rfl | simp only [Goes.mk_eq]
    | with_reducible apply GoesMk.upd | split | dsimp only)

theorem cycleTriggers_goes {ps : List Part} {s0 : State} (b slot : Nat) (p : Bool → Nat → Nat → Bool) (s : State) (h :
    Goes ps s0 s) (w : [.hawk, .log, .outbox] ⊆ ps) : Goes ps s0 (cycleTriggers b slot p s) := by
  unfold cycleTriggers
  repeat' (first
    | with_reducible assumption | exact reach w (Eq.refl _) | intro _ | with_reducible apply fireTrig_goes
    | with_reducible apply Goes.foldl | with_reducible apply Goes.foldl1 | with_reducible apply Goes.foldl2
    | with_reducible apply Goes.ite | exact Or.inr (reachOne w (Eq.refl _)) | exact Or.inl rfl
    | simp only [Goes.mk_eq] | with_reducible apply GoesMk.upd | split | dsimp only)

theorem acceptCrossing_goes {ps : List Part} {s0 : State} (b slot x : Nat) (s : State) (h : Goes ps s0 s) (w : [.time]
    ⊆ ps) : Goes ps s0 (acceptCrossing b slot x s) := by
  unfold acceptCrossing
  repeat' (first
    | with_reducible assumption | exact reach w (Eq.refl _) | with_reducible apply updTrk_goes
    | exact Or.inr (reachOne w (Eq.refl _)) | exact Or.inl rfl | simp only [Goes.mk_eq]
    | with_reducible apply GoesMk.upd | dsimp only)

theorem acceptFreq_goes {ps : List Part} {s0 : State} (b slot i c : Nat) (s : State) (h : Goes ps s0 s) (w : [.time,
    .hawk, .log, .outbox] ⊆ ps) : Goes ps s0 (acceptFreq b slot i c s) := by
  unfold acceptFreq
  repeat' (first
    | with_reducible assumption | exact reach w (Eq.refl _) | with_reducible apply updTrk_goes
    | with_reducible apply cycleTriggers_goes | with_reducible apply Goes.ite | exact Or.inr (reachOne w (Eq.refl _))
    | exact Or.inl rfl | simp only [Goes.mk_eq] | with_reducible apply GoesMk.upd | split | dsimp only)

theorem testCrossing_goes {ps : List Part} {s0 : State} (b slot x : Nat) (s : State) (h : Goes ps s0 s) (w : [.time,
    .hawk, .log, .outbox] ⊆ ps) : Goes ps s0 (testCrossing b slot x s) := by
  unfold testCrossing
  repeat' (first
    | with_reducible assumption | exact reach w (Eq.refl _) | with_reducible apply acceptCrossing_goes
    | with_reducible apply acceptFreq_goes | exact Or.inr (reachOne w (Eq.refl _)) | exact Or.inl rfl
    | simp only [Goes.mk_eq] | with_reducible apply GoesMk.upd | split | dsimp only)

theorem detect_goes {ps : List Part} {s0 : State} (b slot : Nat) (r : CycRef) (s : State) (h : Goes ps s0 s) (w :
    [.time, .hawk, .log, .outbox] ⊆ ps) : Goes ps s0 (detect b slot r s) := by
  unfold detect
  repeat' (first
    | with_reducible assumption | exact reach w (Eq.refl _) | with_reducible apply updTrk_goes
    | with_reducible apply testCrossing_goes | with_reducible apply Goes.ite | exact Or.inr (reachOne w (Eq.refl _))
    | exact Or.inl rfl | simp only [Goes.mk_eq] | with_reducible apply GoesMk.upd | split | dsimp only)

theorem evaluate_goes {ps : List Part} {s0 : State} (b slot : Nat) (s : State) (h : Goes ps s0 s) (w : [.journal,
    .time, .ports, .bpcfg, .skim, .hawk, .trowel, .publ, .eng, .pair, .span, .log, .budget, .fw, .outbox] ⊆ ps) : Goes
    ps s0 (evaluate b slot s) := by
  unfold evaluate
  repeat' (first
    | with_reducible assumption | exact reach w (Eq.refl _) | with_reducible apply detect_goes
    | with_reducible apply releaseCycles_goes | with_reducible apply updTrk_goes | with_reducible apply Goes.ite
    | exact Or.inr (reachOne w (Eq.refl _)) | exact Or.inr ⟨reachOne w (Eq.refl _), fun c => c⟩ | exact Or.inl rfl
    | simp only [Goes.mk_eq] | with_reducible apply GoesMk.upd | split | dsimp only)

theorem coastEnd_goes {ps : List Part} {s0 : State} (b slot : Nat) (s : State) (h : Goes ps s0 s) (w : [.time, .hawk,
    .log, .outbox] ⊆ ps) : Goes ps s0 (coastEnd b slot s) := by
  unfold coastEnd
  repeat' (first
    | with_reducible assumption | exact reach w (Eq.refl _) | with_reducible apply updTrk_goes
    | with_reducible apply cycleTriggers_goes | with_reducible apply event_goes | with_reducible apply Goes.ite
    | exact Or.inr (reachOne w (Eq.refl _)) | exact Or.inl rfl | simp only [Goes.mk_eq]
    | with_reducible apply GoesMk.upd | split | dsimp only)

theorem coast_goes {ps : List Part} {s0 : State} (b slot : Nat) (s : State) (h : Goes ps s0 s) (w : [.journal, .time,
    .ports, .bpcfg, .skim, .hawk, .trowel, .publ, .eng, .pair, .span, .log, .budget, .fw, .outbox] ⊆ ps) : Goes ps s0
    (coast b slot s) := by
  unfold coast
  repeat' (first
    | with_reducible assumption | exact reach w (Eq.refl _) | with_reducible apply cycleTriggers_goes
    | with_reducible apply event_goes | with_reducible apply updTrk_goes | with_reducible apply coastEnd_goes
    | with_reducible apply releaseCycles_goes | with_reducible apply Goes.ite | exact Or.inr (reachOne w (Eq.refl _))
    | exact Or.inr ⟨reachOne w (Eq.refl _), fun c => c⟩ | exact Or.inl rfl | simp only [Goes.mk_eq]
    | with_reducible apply GoesMk.upd | split | dsimp only)

theorem execTrackerCoast_goes {ps : List Part} {s0 : State} (b : Nat) (s : State) (h : Goes ps s0 s) (w : [.journal,
    .time, .ports, .bpcfg, .skim, .hawk, .trowel, .publ, .eng, .pair, .span, .log, .budget, .fw, .outbox] ⊆ ps) :
    GoesTo ps s0 (execTrackerCoast b s) := by
  unfold execTrackerCoast
  repeat' (first
    | with_reducible assumption | exact reach w (Eq.refl _) | apply GoesTo.next | with_reducible apply coast_goes
    | with_reducible apply Goes.ite | exact Or.inr (reachOne w (Eq.refl _))
    | exact Or.inr ⟨reachOne w (Eq.refl _), fun c => c⟩ | exact Or.inl rfl | simp only [Goes.mk_eq]
    | with_reducible apply GoesMk.upd | split | dsimp only)

theorem slotHeartbeat_goes {ps : List Part} {s0 : State} (b : Nat) (s : State) (h : Goes ps s0 s) (w : [.ports,
    .bpcfg, .pair] ⊆ ps) : Goes ps s0 (slotHeartbeat b s) := by
  unfold slotHeartbeat
  repeat' (first
    | with_reducible assumption | exact reach w (Eq.refl _) | with_reducible apply sendHeartbeat_goes
    | with_reducible apply Goes.ite | exact Or.inr (reachOne w (Eq.refl _)) | exact Or.inl rfl
    | simp only [Goes.mk_eq] | with_reducible apply GoesMk.upd | split | dsimp only)

theorem groupsFrom_goes {ps : List Part} {s0 : State} (b slot : Nat) (s : State) (h : Goes ps s0 s) (w : [.hawk] ⊆ ps)
    : Goes ps s0 (groupsFrom b slot s) := by
  unfold groupsFrom
  repeat' (first
    | with_reducible assumption | intro _ | with_reducible apply Goes.foldl | with_reducible apply Goes.foldl1
    | with_reducible apply Goes.foldl2 | exact Or.inr (reachOne w (Eq.refl _)) | exact Or.inl rfl
    | simp only [Goes.mk_eq] | with_reducible apply GoesMk.upd | dsimp only)

theorem startSlot_goes {ps : List Part} {s0 : State} (b n : Nat) (s : State) (h : Goes ps s0 s) (w : [.time, .ports,
    .bpcfg, .hawk, .pair] ⊆ ps) : Goes ps s0 (startSlot b n s) := by
  unfold startSlot
  repeat' (first
    | with_reducible assumption | exact reach w (Eq.refl _) | with_reducible apply groupsFrom_goes
    | with_reducible apply updBp_goes | with_reducible apply slotHeartbeat_goes | with_reducible apply Goes.ite
    | exact Or.inr (reachOne w (Eq.refl _)) | exact Or.inl rfl | simp only [Goes.mk_eq]
    | with_reducible apply GoesMk.upd | split | dsimp only)

theorem execSlotStartEvent_goes {ps : List Part} {s0 : State} (b : Nat) (s : State) (h : Goes ps s0 s) (w : [.time,
    .ports, .bpcfg, .hawk, .pair] ⊆ ps) : GoesTo ps s0 (execSlotStartEvent b s) := by
  unfold execSlotStartEvent
  repeat' (first
    | with_reducible assumption | exact reach w (Eq.refl _) | apply GoesTo.next | with_reducible apply startSlot_goes
    | with_reducible apply Goes.ite | exact Or.inr (reachOne w (Eq.refl _)) | exact Or.inl rfl
    | simp only [Goes.mk_eq] | with_reducible apply GoesMk.upd | split | dsimp only)

theorem execTimeTrigger_goes {ps : List Part} {s0 : State} (t : Nat) (s : State) (h : Goes ps s0 s) (w : [.hawk, .log,
    .outbox] ⊆ ps) : GoesTo ps s0 (execTimeTrigger t s) := by
  unfold execTimeTrigger
  repeat' (first
    | with_reducible assumption | exact reach w (Eq.refl _) | apply GoesTo.next | with_reducible apply updTrig_goes
    | with_reducible apply fireTrig_goes | with_reducible apply Goes.ite | exact Or.inr (reachOne w (Eq.refl _))
    | exact Or.inl rfl | simp only [Goes.mk_eq] | with_reducible apply GoesMk.upd | split | dsimp only)

theorem fixRow_goes {ps : List Part} {s0 : State} (k : Nat) (x : Ctx) (sub slot flags : Nat) (acc : List Row) (s :
    State) (h : Goes ps s0 s) (w : [.hawk, .log, .budget] ⊆ ps) : Goes ps s0 (fixRow k x sub slot flags acc s).2 := by
  unfold fixRow
  repeat' (first
    | with_reducible assumption | exact reach w (Eq.refl _) | with_reducible apply cntHawk_goes
    | with_reducible apply histPut_goes | with_reducible apply Goes.ite | exact Or.inr (reachOne w (Eq.refl _))
    | exact Or.inl rfl | simp only [Goes.mk_eq] | with_reducible apply GoesMk.upd | split | dsimp only)

theorem fixRow_pair {ps : List Part} {s0 s1 : State} {k : Nat} {x : Ctx} {sub slot flags : Nat} {acc : List Row} {s :
    State} {z} (e : fixRow k x sub slot flags acc s = (z, s1)) (h : Goes ps s0 s) (w : [.hawk, .log, .budget] ⊆ ps) :
    Goes ps s0 s1 := by
  have g := fixRow_goes (s0 := s0) k x sub slot flags acc s h w
  rw [e] at g; exact g

theorem foldlRows_goes {α : Type} {ps : List Part} {s0 : State} {f : List Row → α → State → List Row × State}
    (hf : ∀ r a s, Goes ps s0 s → Goes ps s0 (f r a s).2) (l : List α) (p : List Row × State) (h : Goes ps s0 p.2) :
    Goes ps s0 (l.foldl (fun (p : List Row × State) a => f p.1 a p.2) p).2 := by
  induction l generalizing p with
  | nil => exact h
  | cons a l ih => exact ih _ (hf p.1 a p.2 h)

theorem fixStream_goes {ps : List Part} {s0 : State} (k : Nat) (x : Ctx) (slot : Nat) (acc : List Row) (s : State)
    (h : Goes ps s0 s) (w : [.hawk, .log, .budget] ⊆ ps) : Goes ps s0 (fixStream k x slot acc s).2 := by
  unfold fixStream
  dsimp only
  generalize hp : List.foldl _ _ _ = p
  have k : Goes ps s0 p.2 := by
    rw [← hp]
    exact foldlRows_goes (f := fun r sub s' => fixRow k x sub slot (sourceFlags s k x slot) r s')
      (fun r a s h => fixRow_goes k x a slot _ r s h w) _ (acc, s) h
  repeat' (first | with_reducible assumption | exact Or.inr (reachOne w (Eq.refl _)) | exact Or.inl rfl |
    simp only [Goes.mk_eq] | with_reducible apply GoesMk.upd)

theorem fixStream_pair {ps : List Part} {s0 s1 : State} {k : Nat} {x : Ctx} {slot : Nat} {acc : List Row} {s : State} {z} (e : fixStream k x slot acc s = (z, s1)) (h : Goes ps s0 s)
    (w : [.hawk, .log, .budget] ⊆ ps) : Goes ps s0 s1 := by
  have g := fixStream_goes (s0 := s0) k x slot acc s h w
  rw [e] at g; exact g

theorem fixGroup_goes {ps : List Part} {s0 : State} (b g slot : Nat) (s : State) (h : Goes ps s0 s) (w : [.hawk, .pair, .log, .budget, .outbox] ⊆ ps) :
    Goes ps s0 (fixGroup b g slot s) := by
  have k := foldlRows_goes (f := fun r (e : Nat × Ctx) s => fixStream e.1 e.2 slot r s)
    (fun r e s h => fixStream_goes e.1 e.2 slot r s h (reach w rfl)) (groupStreams s b g) ([], s) h
  unfold fixGroup
  split
  rename_i e
  rw [e] at k
  exact rowTriggers_goes _ _ _ _ (sendFix_goes _ _ _ _ _ (putFixed_goes _ _ _ _ _ k (reach w rfl)) (reach w rfl)) (reach w rfl)

theorem noteClosing_goes {ps : List Part} {s0 : State} (f r id slot : Nat) (s : State) (h : Goes ps s0 s) (w : [.hawk,
    .log, .budget] ⊆ ps) : Goes ps s0 (noteClosing f r id slot s) := by
  unfold noteClosing
  repeat' (first
    | with_reducible assumption | exact reach w (Eq.refl _) | with_reducible apply openWork_goes
    | with_reducible apply Goes.ite | exact Or.inr (reachOne w (Eq.refl _)) | exact Or.inl rfl
    | simp only [Goes.mk_eq] | with_reducible apply GoesMk.upd | split | dsimp only)

theorem noteClosings_goes {ps : List Part} {s0 : State} (b g slot : Nat) (s : State) (h : Goes ps s0 s) (w : [.hawk,
    .log, .budget] ⊆ ps) : Goes ps s0 (noteClosings b g slot s) := by
  unfold noteClosings
  repeat' (first
    | with_reducible assumption | exact reach w (Eq.refl _) | intro _ | with_reducible apply noteClosing_goes
    | with_reducible apply Goes.foldl | with_reducible apply Goes.foldl1 | with_reducible apply Goes.foldl2
    | dsimp only)

theorem closeSlot_goes {ps : List Part} {s0 : State} (b g slot at_ : Nat) (s : State) (h : Goes ps s0 s) (w :
    [.journal, .time, .ports, .bpcfg, .skim, .hawk, .trowel, .publ, .eng, .pair, .span, .log, .budget, .fw, .outbox] ⊆
    ps) : Goes ps s0 (closeSlot b g slot at_ s) := by
  unfold closeSlot
  repeat' (first
    | with_reducible assumption | exact reach w (Eq.refl _) | with_reducible apply coast_goes
    | with_reducible apply noteClosings_goes | with_reducible apply fixGroup_goes
    | with_reducible apply releaseSlots_goes | with_reducible apply evaluate_goes
    | with_reducible apply releaseAll_goes | with_reducible apply Goes.ite | exact Or.inr (reachOne w (Eq.refl _))
    | exact Or.inr ⟨reachOne w (Eq.refl _), fun c => c⟩ | exact Or.inl rfl | simp only [Goes.mk_eq]
    | with_reducible apply GoesMk.upd | split | dsimp only)

theorem execSlotCloseEvent_goes {ps : List Part} {s0 : State} (b g : Nat) (s : State) (h : Goes ps s0 s) (w :
    [.journal, .time, .ports, .bpcfg, .skim, .hawk, .trowel, .publ, .eng, .pair, .span, .log, .budget, .fw, .outbox] ⊆
    ps) : GoesTo ps s0 (execSlotCloseEvent b g s) := by
  unfold execSlotCloseEvent
  repeat' (first
    | with_reducible assumption | exact reach w (Eq.refl _) | apply GoesTo.next | with_reducible apply closeSlot_goes
    | with_reducible apply Goes.ite | exact Or.inr (reachOne w (Eq.refl _))
    | exact Or.inr ⟨reachOne w (Eq.refl _), fun c => c⟩ | exact Or.inl rfl | simp only [Goes.mk_eq]
    | with_reducible apply GoesMk.upd | split | dsimp only)

theorem writeSheet_goes {ps : List Part} {s0 : State} (h_ : HeldSheet) (catchup : Bool) (s : State) (h : Goes ps s0 s)
    (w : [.sys, .fns, .hawk, .eng, .span, .log, .budget, .outbox] ⊆ ps) : Goes ps s0 (writeSheet h_ catchup s) := by
  unfold writeSheet
  repeat' (first
    | with_reducible assumption | exact reach w (Eq.refl _) | with_reducible apply event_goes
    | with_reducible apply cntHawk_goes | with_reducible apply updRing_goes | with_reducible apply putEntry_goes
    | with_reducible apply mirrorItem_goes | with_reducible apply Goes.ite | exact Or.inr (reachOne w (Eq.refl _))
    | exact Or.inr ⟨reachOne w (Eq.refl _), rfl⟩ | exact Or.inr ⟨reachOne w (Eq.refl _), rfl, rfl, rfl, rfl, rfl⟩
    | exact Or.inl rfl | simp only [Goes.mk_eq] | with_reducible apply GoesMk.upd | split | dsimp only)

theorem confirmSlot_goes {ps : List Part} {s0 : State} (slot : Nat) (s : State) (h : Goes ps s0 s) (w : [.outbox] ⊆
    ps) : Goes ps s0 (confirmSlot slot s) := by
  unfold confirmSlot
  repeat' (first
    | with_reducible assumption | exact reach w (Eq.refl _) | with_reducible apply emit_goes
    | with_reducible apply Goes.ite | split | dsimp only)

theorem finishSheet_goes {ps : List Part} {s0 : State} (c : Closing) (s : State) (h : Goes ps s0 s) (w : [.sys, .fns,
    .hawk, .eng, .pair, .span, .log, .budget, .outbox] ⊆ ps) : Goes ps s0 (finishSheet c s) := by
  unfold finishSheet
  repeat' (first
    | with_reducible assumption | exact reach w (Eq.refl _) | with_reducible apply confirmSlot_goes
    | with_reducible apply writeSheet_goes | with_reducible apply Goes.ite | exact Or.inr (reachOne w (Eq.refl _))
    | exact Or.inr ⟨reachOne w (Eq.refl _), rfl⟩ | exact Or.inr ⟨reachOne w (Eq.refl _), rfl, rfl, rfl, rfl, rfl⟩
    | exact Or.inl rfl | simp only [Goes.mk_eq] | with_reducible apply GoesMk.upd | split | dsimp only)

theorem execSheetWrite_goes {ps : List Part} {s0 : State} (f ring : Nat) (s : State) (h : Goes ps s0 s) (w : [.sys,
    .fns, .hawk, .eng, .pair, .span, .log, .budget, .outbox] ⊆ ps) : GoesTo ps s0 (execSheetWrite f ring s) := by
  unfold execSheetWrite
  repeat' (first
    | with_reducible assumption | exact reach w (Eq.refl _) | apply GoesTo.next
    | with_reducible apply finishSheet_goes | with_reducible apply Goes.ite | exact Or.inr (reachOne w (Eq.refl _))
    | exact Or.inr ⟨reachOne w (Eq.refl _), rfl⟩ | exact Or.inr ⟨reachOne w (Eq.refl _), rfl, rfl, rfl, rfl, rfl⟩
    | exact Or.inl rfl | simp only [Goes.mk_eq] | with_reducible apply GoesMk.upd | split | dsimp only)

theorem sheetHistoryEff_goes {ps : List Part} {s0 : State} (c : Cmd) (s : State) (h : Goes ps s0 s) (w : [.hawk] ⊆ ps)
    : Goes ps s0 (sheetHistoryEff c s).st := by
  unfold sheetHistoryEff
  repeat' (first
    | with_reducible assumption | exact reach w (Eq.refl _) | with_reducible apply done_goes
    | exact Or.inr (reachOne w (Eq.refl _)) | exact Or.inl rfl | simp only [Goes.mk_eq]
    | with_reducible apply GoesMk.upd | dsimp only)

theorem execSheetHistory_goes {ps : List Part} {s0 : State} (c : Cmd) (s : State) (h : Goes ps s0 s) (w : [.sys,
    .journal, .deferred, .hawk, .span, .outbox] ⊆ ps) : GoesTo ps s0 (execSheetHistory c s) := by
  unfold execSheetHistory
  repeat' (first
    | with_reducible assumption | exact reach w (Eq.refl _) | intro _ | apply GoesTo.next
    | with_reducible apply runConfig_goes | with_reducible apply sheetHistoryEff_goes | dsimp only)

theorem sheetGroupEff_goes {ps : List Part} {s0 : State} (c : Cmd) (s : State) (h : Goes ps s0 s) (w : [.hawk] ⊆ ps) :
    Goes ps s0 (sheetGroupEff c s).st := by
  unfold sheetGroupEff
  repeat' (first
    | with_reducible assumption | exact reach w (Eq.refl _) | with_reducible apply done_goes
    | exact Or.inr (reachOne w (Eq.refl _)) | exact Or.inl rfl | simp only [Goes.mk_eq]
    | with_reducible apply GoesMk.upd | dsimp only)

theorem execSheetGroup_goes {ps : List Part} {s0 : State} (c : Cmd) (s : State) (h : Goes ps s0 s) (w : [.sys,
    .journal, .deferred, .hawk, .span, .outbox] ⊆ ps) : GoesTo ps s0 (execSheetGroup c s) := by
  unfold execSheetGroup
  repeat' (first
    | with_reducible assumption | exact reach w (Eq.refl _) | intro _ | apply GoesTo.next
    | with_reducible apply runConfig_goes | with_reducible apply sheetGroupEff_goes | dsimp only)

theorem switchTable_goes {ps : List Part} {s0 : State} (s : State) (h : Goes ps s0 s) (w : [.log, .budget, .fw] ⊆ ps)
    : Goes ps s0 (switchTable s) := by
  unfold switchTable
  repeat' (first
    | with_reducible assumption | exact reach w (Eq.refl _) | with_reducible apply measure_goes
    | with_reducible apply event_goes | exact Or.inr (reachOne w (Eq.refl _)) | exact Or.inl rfl
    | simp only [Goes.mk_eq] | with_reducible apply GoesMk.upd | split | dsimp only)

theorem takeSource_goes {ps : List Part} {s0 : State} (s : State) (h : Goes ps s0 s) (w : [.log, .budget] ⊆ ps) : Goes
    ps s0 (takeSource s) := by
  unfold takeSource
  repeat' (first
    | with_reducible assumption | exact reach w (Eq.refl _) | with_reducible apply event_goes
    | with_reducible apply Goes.ite | exact Or.inr (reachOne w (Eq.refl _)) | exact Or.inl rfl
    | simp only [Goes.mk_eq] | with_reducible apply GoesMk.upd | split | dsimp only)

theorem renewLeaves_goes {ps : List Part} {s0 : State} (s : State) (h : Goes ps s0 s) (w : [.budget] ⊆ ps) : Goes ps
    s0 (renewLeaves s) := by
  unfold renewLeaves
  repeat' (first
    | with_reducible assumption | exact Or.inr (reachOne w (Eq.refl _)) | exact Or.inl rfl | simp only [Goes.mk_eq]
    | with_reducible apply GoesMk.upd | dsimp only)

theorem stillShort_goes {ps : List Part} {s0 : State} (s : State) (h : Goes ps s0 s) (w : [.log, .budget] ⊆ ps) : Goes
    ps s0 (stillShort s) := by
  unfold stillShort
  repeat' (first
    | with_reducible assumption | exact reach w (Eq.refl _) | intro _ | with_reducible apply guarShort_goes
    | with_reducible apply Goes.foldl | with_reducible apply Goes.foldl1 | with_reducible apply Goes.foldl2
    | dsimp only)

theorem execBudgetPeriodBoundary_goes {ps : List Part} {s0 : State} (s : State) (h : Goes ps s0 s) (w : [.log,
    .budget, .fw] ⊆ ps) : GoesTo ps s0 (execBudgetPeriodBoundary s) := by
  unfold execBudgetPeriodBoundary
  repeat' (first
    | with_reducible assumption | exact reach w (Eq.refl _) | apply GoesTo.next | with_reducible apply takeSource_goes
    | with_reducible apply switchTable_goes | with_reducible apply stillShort_goes | with_reducible apply cntBgt_goes
    | with_reducible apply renewLeaves_goes | with_reducible apply Goes.ite | exact Or.inr (reachOne w (Eq.refl _))
    | exact Or.inl rfl | simp only [Goes.mk_eq] | with_reducible apply GoesMk.upd | split | dsimp only)

theorem execBudgetWaitExceeded_goes {ps : List Part} {s0 : State} (tok : Nat) (s : State) (h : Goes ps s0 s) (w :
    [.journal, .deferred, .trowel, .pke, .span, .log, .budget, .outbox] ⊆ ps) : GoesTo ps s0 (execBudgetWaitExceeded
    tok s) := by
  unfold execBudgetWaitExceeded
  repeat' (first
    | with_reducible assumption | exact reach w (Eq.refl _) | apply GoesTo.next | with_reducible apply event_goes
    | with_reducible apply cntBgt_goes | with_reducible apply cancel_goes | with_reducible apply Goes.ite
    | exact Or.inr (reachOne w (Eq.refl _)) | exact Or.inr ⟨reachOne w (Eq.refl _), fun c => c⟩ | exact Or.inl rfl
    | simp only [Goes.mk_eq] | with_reducible apply GoesMk.upd | split | dsimp only)

theorem budgetEff_goes {ps : List Part} {s0 : State} (c : Cmd) (s : State) (h : Goes ps s0 s) (w : [.budget] ⊆ ps) :
    Goes ps s0 (budgetEff c s).st := by
  unfold budgetEff
  repeat' (first
    | with_reducible assumption | exact reach w (Eq.refl _) | with_reducible apply done_goes
    | exact Or.inr (reachOne w (Eq.refl _)) | exact Or.inl rfl | simp only [Goes.mk_eq]
    | with_reducible apply GoesMk.upd | dsimp only)

end Sys2Proof.Machine
end

