-- ==== Sys2Proof/Laws/GoesStores.lean ====
section
/-! SUPPORT. Laws/GoesStores.lean: what every operation of the files Keys, Engines, Pke, Volume, Boot does to
the state at most (f_goes; f_pair for one that answers a pair): the parts it reaches, legality kept, counters onward. -/
set_option linter.unusedSimpArgs false
namespace Sys2Proof.Machine

theorem keyInfoEff_goes {ps : List Part} {s0 : State} (c : Cmd) (s : State) (h : Goes ps s0 s) : Goes ps s0
    (keyInfoEff c s).st := by
  unfold keyInfoEff
  repeat' (first
    | with_reducible assumption | with_reducible apply Goes.ite | split | dsimp only)

theorem execKeyInfo_goes {ps : List Part} {s0 : State} (c : Cmd) (s : State) (h : Goes ps s0 s) (w : [.journal, .span,
    .outbox] ⊆ ps) : GoesTo ps s0 (execKeyInfo c s) := by
  unfold execKeyInfo
  repeat' (first
    | with_reducible assumption | exact reach w (Eq.refl _) | intro _ | apply GoesTo.next
    | with_reducible apply runPlain_goes | with_reducible apply keyInfoEff_goes | dsimp only)

theorem keyTargetEff_goes {ps : List Part} {s0 : State} (c : Cmd) (s : State) (h : Goes ps s0 s) : Goes ps s0
    (keyTargetEff c s).st := by
  unfold keyTargetEff
  repeat' (first
    | with_reducible assumption | with_reducible apply output_goes | dsimp only)

theorem execKeyTarget_goes {ps : List Part} {s0 : State} (c : Cmd) (s : State) (h : Goes ps s0 s) (w : [.journal,
    .span, .outbox] ⊆ ps) : GoesTo ps s0 (execKeyTarget c s) := by
  unfold execKeyTarget
  repeat' (first
    | with_reducible assumption | exact reach w (Eq.refl _) | intro _ | apply GoesTo.next
    | with_reducible apply runPlain_goes | with_reducible apply keyTargetEff_goes | dsimp only)

theorem generateKey_goes {ps : List Part} {s0 : State} (ktype klen : Nat) (s : State) (h : Goes ps s0 s) (w : [.eng,
    .rng, .log, .budget] ⊆ ps) : Goes ps s0 (generateKey ktype klen s).2 := by
  unfold generateKey
  repeat' (first
    | with_reducible assumption | exact reach w (Eq.refl _) | with_reducible apply generate_goes
    | refine generate_pair (by with_reducible assumption) ?_ ?_ | with_reducible apply Goes.ite | split | dsimp only)

theorem generateKey_pair {ps : List Part} {s0 s1 : State} {ktype klen : Nat} {s : State} {z} (e : generateKey ktype
    klen s = (z, s1)) (h : Goes ps s0 s) (w : [.eng, .rng, .log, .budget] ⊆ ps) : Goes ps s0 s1 := by
  have g := generateKey_goes (s0 := s0) ktype klen s h w
  rw [e] at g; exact g

theorem applyItem_goes {ps : List Part} {s0 : State} (ucount : Nat) (cek : List Byte) (i : EnvItem) (s : State) (h :
    Goes ps s0 s) (w : [.eng, .rng, .keys, .log, .budget] ⊆ ps) : Goes ps s0 (applyItem ucount cek i s) := by
  unfold applyItem
  repeat' (first
    | with_reducible assumption | exact reach w (Eq.refl _) | with_reducible apply generateKey_goes
    | refine generateKey_pair (by with_reducible assumption) ?_ ?_ | with_reducible apply Goes.ite
    | exact Or.inr (reachOne w (Eq.refl _)) | exact Or.inr ⟨reachOne w (Eq.refl _), rfl⟩ | exact Or.inl rfl
    | simp only [Goes.mk_eq] | with_reducible apply GoesMk.upd | split | dsimp only)

theorem keyApplyEff_goes {ps : List Part} {s0 : State} (c : Cmd) (s : State) (h : Goes ps s0 s) (w : [.eng, .rng,
    .keys, .log, .budget, .freeCtr, .outbox] ⊆ ps) : Goes ps s0 (keyApplyEff c s).st := by
  unfold keyApplyEff
  repeat' (first
    | with_reducible assumption | exact reach w (Eq.refl _) | intro _ | with_reducible apply emit_goes
    | with_reducible apply applyItem_goes | with_reducible apply event_goes | with_reducible apply cntKst_goes
    | with_reducible apply done_goes | with_reducible apply Goes.foldl | with_reducible apply Goes.foldl1
    | with_reducible apply Goes.foldl2 | with_reducible apply Goes.ite | exact Or.inr (reachOne w (Eq.refl _))
    | exact Or.inr ⟨reachOne w (Eq.refl _), rfl⟩ | exact Or.inl rfl | simp only [Goes.mk_eq]
    | with_reducible apply GoesMk.upd | split | dsimp only)

theorem envWork_goes {ps : List Part} {s0 : State} (s : State) (h : Goes ps s0 s) (w : [.pke, .log, .budget] ⊆ ps) :
    Goes ps s0 (envWork s) := by
  unfold envWork
  repeat' (first
    | with_reducible assumption | exact reach w (Eq.refl _) | with_reducible apply clientWork_goes
    | with_reducible apply verifyWork_goes | dsimp only)

theorem applyEnvelope_goes {ps : List Part} {s0 : State} (c : Cmd) (s : State) (h : Goes ps s0 s) (w : [.sys,
    .journal, .eng, .pke, .rng, .keys, .span, .log, .budget, .freeCtr, .outbox] ⊆ ps) : Goes ps s0 (applyEnvelope c s)
    := by
  unfold applyEnvelope
  repeat' (first
    | with_reducible assumption | exact reach w (Eq.refl _) | intro _ | with_reducible apply envWork_goes
    | with_reducible apply applyConfig_goes | with_reducible apply keyApplyEff_goes | with_reducible apply event_goes
    | with_reducible apply cntKst_goes | with_reducible apply Goes.ite | split | dsimp only)

theorem drawNonce_goes {ps : List Part} {s0 : State} (s : State) (h : Goes ps s0 s) (w : [.eng, .rng, .keys, .log,
    .budget] ⊆ ps) : Goes ps s0 (drawNonce s).2 := by
  unfold drawNonce
  repeat' (first
    | with_reducible assumption | exact reach w (Eq.refl _) | with_reducible apply event_goes
    | with_reducible apply generate_goes | refine generate_pair (by with_reducible assumption) ?_ ?_
    | with_reducible apply Goes.ite | exact Or.inr (reachOne w (Eq.refl _))
    | exact Or.inr ⟨reachOne w (Eq.refl _), rfl⟩ | exact Or.inl rfl | simp only [Goes.mk_eq]
    | with_reducible apply GoesMk.upd | split | dsimp only)

theorem drawNonce_pair {ps : List Part} {s0 s1 : State} {s : State} {z} (e : drawNonce s = (z, s1)) (h : Goes ps s0 s)
    (w : [.eng, .rng, .keys, .log, .budget] ⊆ ps) : Goes ps s0 s1 := by
  have g := drawNonce_goes (s0 := s0) s h w
  rw [e] at g; exact g

theorem svcChallengeEff_goes {ps : List Part} {s0 : State} (c : Cmd) (s : State) (h : Goes ps s0 s) (w : [.eng, .rng,
    .keys, .log, .budget] ⊆ ps) : Goes ps s0 (svcChallengeEff c s).st := by
  unfold svcChallengeEff
  repeat' (first
    | with_reducible assumption | exact reach w (Eq.refl _) | with_reducible apply drawNonce_goes
    | refine drawNonce_pair (by with_reducible assumption) ?_ ?_ | with_reducible apply output_goes
    | exact Or.inr (reachOne w (Eq.refl _)) | exact Or.inr ⟨reachOne w (Eq.refl _), rfl⟩ | exact Or.inl rfl
    | simp only [Goes.mk_eq] | with_reducible apply GoesMk.upd | dsimp only)

theorem execSvcChallenge_goes {ps : List Part} {s0 : State} (c : Cmd) (s : State) (h : Goes ps s0 s) (w : [.journal,
    .eng, .rng, .keys, .span, .log, .budget, .outbox] ⊆ ps) : GoesTo ps s0 (execSvcChallenge c s) := by
  unfold execSvcChallenge
  repeat' (first
    | with_reducible assumption | exact reach w (Eq.refl _) | intro _ | apply GoesTo.next
    | with_reducible apply runPlain_goes | with_reducible apply svcChallengeEff_goes | with_reducible apply Goes.ite
    | split | dsimp only)

theorem execChallengeExpiry_goes {ps : List Part} {s0 : State} (s : State) (h : Goes ps s0 s) (w : [.keys] ⊆ ps) :
    GoesTo ps s0 (execChallengeExpiry s) := by
  unfold execChallengeExpiry
  repeat' (first
    | with_reducible assumption | apply GoesTo.next | with_reducible apply Goes.ite
    | exact Or.inr (reachOne w (Eq.refl _)) | exact Or.inr ⟨reachOne w (Eq.refl _), rfl⟩ | exact Or.inl rfl
    | simp only [Goes.mk_eq] | with_reducible apply GoesMk.upd | split | dsimp only)

theorem noteQuorum_goes {ps : List Part} {s0 : State} (c : Cmd) (s : State) (h : Goes ps s0 s) (w : [.pke, .keys,
    .log, .budget] ⊆ ps) : Goes ps s0 (noteQuorum c s) := by
  unfold noteQuorum
  repeat' (first
    | with_reducible assumption | exact reach w (Eq.refl _) | with_reducible apply cntKst_goes
    | with_reducible apply tokensWork_goes | with_reducible apply event_goes | with_reducible apply Goes.ite
    | exact Or.inr (reachOne w (Eq.refl _)) | exact Or.inr ⟨reachOne w (Eq.refl _), rfl⟩ | exact Or.inl rfl
    | simp only [Goes.mk_eq] | with_reducible apply GoesMk.upd | split | dsimp only)

theorem applyQuorum_goes {ps : List Part} {s0 : State} (check : Cmd → State → Option Nat) (eff : Cmd → State → Eff) (c
    : Cmd) (s : State) (h : Goes ps s0 s) (heff : ∀ a0 s, Goes ps s0 s → Goes ps s0 (eff a0 s).st) (w : [.sys,
    .journal, .pke, .keys, .span, .log, .budget, .outbox] ⊆ ps) : Goes ps s0 (applyQuorum check eff c s) := by
  unfold applyQuorum
  repeat' (first
    | with_reducible assumption | exact reach w (Eq.refl _) | intro _ | apply heff
    | with_reducible apply applyConfig_goes | with_reducible apply noteQuorum_goes
    | exact Or.inr (reachOne w (Eq.refl _)) | exact Or.inr ⟨reachOne w (Eq.refl _), rfl⟩
    | exact Or.inr ⟨reachOne w (Eq.refl _), rfl, rfl, rfl, rfl, rfl⟩ | exact Or.inl rfl | simp only [Goes.mk_eq]
    | with_reducible apply GoesMk.upd | split | dsimp only)

theorem putBlock_goes {ps : List Part} {s0 : State} (k : Nat) (block : List Byte) (s : State) (h : Goes ps s0 s) (w :
    [.sealer, .log, .outbox] ⊆ ps) : Goes ps s0 (putBlock k block s) := by
  unfold putBlock
  repeat' (first
    | with_reducible assumption | exact reach w (Eq.refl _) | with_reducible apply sealWrite_goes
    | with_reducible apply Goes.ite | split | dsimp only)

theorem updSes_goes {ps : List Part} {s0 : State} (k : Nat) (g : SesPart → SesPart) (s : State) (h : Goes ps s0 s) (w
    : [.skim, .sealer, .log, .outbox] ⊆ ps) : Goes ps s0 (updSes k g s) := by
  unfold updSes
  repeat' (first
    | with_reducible assumption | exact reach w (Eq.refl _) | with_reducible apply updCtx_goes
    | with_reducible apply putBlock_goes | with_reducible apply touchCtx_goes | exact Or.inr (reachOne w (Eq.refl _))
    | exact Or.inl rfl | simp only [Goes.mk_eq] | with_reducible apply GoesMk.upd | split | dsimp only)

theorem inTurn_goes {ps : List Part} {s0 : State} (run : Cmd → State → State) (c : Cmd) (s : State) (h : Goes ps s0 s)
    (hrun : ∀ a0 s, Goes ps s0 s → Goes ps s0 (run a0 s)) : Goes ps s0 (inTurn run c s) := by
  unfold inTurn
  repeat' (first
    | with_reducible assumption | apply hrun | with_reducible apply Goes.ite | split | dsimp only)

theorem onEngine_goes {ps : List Part} {s0 : State} (e : Nat) (run : Cmd → State → State) (c : Cmd) (s : State) (h :
    Goes ps s0 s) (hrun : ∀ a0 s, Goes ps s0 s → Goes ps s0 (run a0 s)) : Goes ps s0 (onEngine e run c s) := by
  unfold onEngine
  repeat' (first
    | with_reducible assumption | apply hrun | with_reducible apply Goes.ite | split | dsimp only)

theorem openSession_goes {ps : List Part} {s0 : State} (k fn src : Nat) (p : SesPart) (s : State) (h : Goes ps s0 s)
    (w : [.skim, .sealer, .log, .outbox] ⊆ ps) : Goes ps s0 (openSession k fn src p s) := by
  unfold openSession
  repeat' (first
    | with_reducible assumption | exact reach w (Eq.refl _) | with_reducible apply putBlock_goes
    | with_reducible apply newCtx_goes | exact Or.inr (reachOne w (Eq.refl _)) | exact Or.inl rfl
    | simp only [Goes.mk_eq] | with_reducible apply GoesMk.upd | dsimp only)

theorem closeSession_goes {ps : List Part} {s0 : State} (k : Nat) (s : State) (h : Goes ps s0 s) (w : [.skim, .sealer,
    .log, .outbox] ⊆ ps) : Goes ps s0 (closeSession k s) := by
  unfold closeSession
  repeat' (first
    | with_reducible assumption | exact reach w (Eq.refl _) | with_reducible apply freeCtx_goes
    | with_reducible apply putBlock_goes | with_reducible apply Goes.ite | split | dsimp only)

theorem installKey_goes {ps : List Part} {s0 : State} (k : Nat) (key : List Byte) (s : State) (h : Goes ps s0 s) (w :
    [.skim, .sealer, .log, .outbox] ⊆ ps) : Goes ps s0 (installKey k key s) := by
  unfold installKey
  repeat' (first
    | with_reducible assumption | exact reach w (Eq.refl _) | with_reducible apply updSes_goes
    | exact Or.inr (reachOne w (Eq.refl _)) | exact Or.inl rfl | simp only [Goes.mk_eq]
    | with_reducible apply GoesMk.upd | dsimp only)

theorem authFailed_goes {ps : List Part} {s0 : State} (k : Nat) (s : State) (h : Goes ps s0 s) (w : [.skim, .eng,
    .log] ⊆ ps) : Goes ps s0 (authFailed k s) := by
  unfold authFailed
  repeat' (first
    | with_reducible assumption | exact reach w (Eq.refl _) | with_reducible apply event_goes
    | with_reducible apply cntEng_goes | with_reducible apply cntCtx_goes | dsimp only)

theorem cphOpenEff_goes {ps : List Part} {s0 : State} (c : Cmd) (s : State) (h : Goes ps s0 s) (w : [.skim, .sealer,
    .log, .outbox] ⊆ ps) : Goes ps s0 (cphOpenEff c s).st := by
  unfold cphOpenEff
  repeat' (first
    | with_reducible assumption | exact reach w (Eq.refl _) | with_reducible apply done_goes
    | with_reducible apply openSession_goes | with_reducible apply Goes.ite | exact Or.inr (reachOne w (Eq.refl _))
    | exact Or.inl rfl | simp only [Goes.mk_eq] | with_reducible apply GoesMk.upd | split | dsimp only)

theorem execCphOpen_goes {ps : List Part} {s0 : State} (c : Cmd) (s : State) (h : Goes ps s0 s) (w : [.journal, .skim,
    .sealer, .span, .log, .outbox] ⊆ ps) : GoesTo ps s0 (execCphOpen c s) := by
  unfold execCphOpen
  repeat' (first
    | with_reducible assumption | exact reach w (Eq.refl _) | intro _ | apply GoesTo.next
    | with_reducible apply inTurn_goes | with_reducible apply runPlain_goes | with_reducible apply cphOpenEff_goes
    | dsimp only)

theorem cphCloseEff_goes {ps : List Part} {s0 : State} (c : Cmd) (s : State) (h : Goes ps s0 s) (w : [.skim, .sealer,
    .log, .outbox] ⊆ ps) : Goes ps s0 (cphCloseEff c s).st := by
  unfold cphCloseEff
  repeat' (first
    | with_reducible assumption | exact reach w (Eq.refl _) | with_reducible apply done_goes
    | with_reducible apply closeSession_goes | dsimp only)

theorem execCphClose_goes {ps : List Part} {s0 : State} (c : Cmd) (s : State) (h : Goes ps s0 s) (w : [.journal,
    .skim, .sealer, .span, .log, .outbox] ⊆ ps) : GoesTo ps s0 (execCphClose c s) := by
  unfold execCphClose
  repeat' (first
    | with_reducible assumption | exact reach w (Eq.refl _) | intro _ | apply GoesTo.next
    | with_reducible apply inTurn_goes | with_reducible apply runPlain_goes | with_reducible apply cphCloseEff_goes
    | dsimp only)

theorem cphFail_goes {ps : List Part} {s0 : State} (c : Cmd) (s : State) (h : Goes ps s0 s) (w : [.skim, .eng, .log] ⊆
    ps) : Goes ps s0 (cphFail c s).st := by
  unfold cphFail
  repeat' (first
    | with_reducible assumption | exact reach w (Eq.refl _) | with_reducible apply authFailed_goes | dsimp only)

theorem cphRunEff_goes {ps : List Part} {s0 : State} (c : Cmd) (s : State) (h : Goes ps s0 s) (w : [.skim, .eng,
    .sealer, .log, .budget, .outbox] ⊆ ps) : Goes ps s0 (cphRunEff c s).st := by
  unfold cphRunEff
  repeat' (first
    | with_reducible assumption | exact reach w (Eq.refl _) | with_reducible apply engineWork_goes
    | with_reducible apply cntEng_goes | with_reducible apply cntCtx_goes | with_reducible apply updSes_goes
    | with_reducible apply cphFail_goes | with_reducible apply done_goes | with_reducible apply installKey_goes
    | with_reducible apply authFailed_goes | with_reducible apply event_goes | with_reducible apply Goes.ite
    | exact Or.inr (reachOne w (Eq.refl _)) | exact Or.inl rfl | simp only [Goes.mk_eq]
    | with_reducible apply GoesMk.upd | split | dsimp only)

theorem runCipher_goes {ps : List Part} {s0 : State} (c : Cmd) (s : State) (h : Goes ps s0 s) (w : [.journal, .skim,
    .eng, .sealer, .span, .log, .budget, .outbox] ⊆ ps) : Goes ps s0 (runCipher c s) := by
  unfold runCipher
  repeat' (first
    | with_reducible assumption | exact reach w (Eq.refl _) | intro _ | with_reducible apply runWork_goes
    | with_reducible apply cphRunEff_goes | with_reducible apply emits_goes | with_reducible apply hostMove_goes
    | with_reducible apply updJ_goes | with_reducible apply Goes.ite | exact Or.inr (reachOne w (Eq.refl _))
    | exact Or.inl rfl | simp only [Goes.mk_eq] | with_reducible apply GoesMk.upd | split | dsimp only)

theorem execCphRun_goes {ps : List Part} {s0 : State} (c : Cmd) (s : State) (h : Goes ps s0 s) (w : [.journal, .skim,
    .eng, .sealer, .span, .log, .budget, .outbox] ⊆ ps) : GoesTo ps s0 (execCphRun c s) := by
  unfold execCphRun
  repeat' (first
    | with_reducible assumption | exact reach w (Eq.refl _) | intro _ | apply GoesTo.next
    | with_reducible apply inTurn_goes | with_reducible apply onEngine_goes | with_reducible apply runCipher_goes
    | dsimp only)

theorem cphSaveEff_goes {ps : List Part} {s0 : State} (c : Cmd) (s : State) (h : Goes ps s0 s) (w : [.skim, .eng,
    .rng, .sealer, .log, .budget, .outbox] ⊆ ps) : Goes ps s0 (cphSaveEff c s).st := by
  unfold cphSaveEff
  repeat' (first
    | with_reducible assumption | exact reach w (Eq.refl _) | with_reducible apply generate_goes
    | refine generate_pair (by with_reducible assumption) ?_ ?_ | with_reducible apply cntCtx_goes
    | with_reducible apply updSes_goes | with_reducible apply output_goes | with_reducible apply Goes.ite
    | exact Or.inr (reachOne w (Eq.refl _)) | exact Or.inl rfl | simp only [Goes.mk_eq]
    | with_reducible apply GoesMk.upd | split | dsimp only)

theorem execCphSave_goes {ps : List Part} {s0 : State} (c : Cmd) (s : State) (h : Goes ps s0 s) (w : [.journal, .skim,
    .eng, .rng, .sealer, .span, .log, .budget, .outbox] ⊆ ps) : GoesTo ps s0 (execCphSave c s) := by
  unfold execCphSave
  repeat' (first
    | with_reducible assumption | exact reach w (Eq.refl _) | intro _ | apply GoesTo.next
    | with_reducible apply inTurn_goes | with_reducible apply withDraw_goes | with_reducible apply runPlain_goes
    | with_reducible apply cphSaveEff_goes | with_reducible apply Goes.ite | exact Or.inr (reachOne w (Eq.refl _))
    | exact Or.inl rfl | simp only [Goes.mk_eq] | with_reducible apply GoesMk.upd | split | dsimp only)

theorem cphRestoreEff_goes {ps : List Part} {s0 : State} (c : Cmd) (s : State) (h : Goes ps s0 s) (w : [.skim,
    .sealer, .log, .outbox] ⊆ ps) : Goes ps s0 (cphRestoreEff c s).st := by
  unfold cphRestoreEff
  repeat' (first
    | with_reducible assumption | exact reach w (Eq.refl _) | with_reducible apply done_goes
    | with_reducible apply cntCtx_goes | with_reducible apply updSes_goes | with_reducible apply Goes.ite
    | exact Or.inr (reachOne w (Eq.refl _)) | exact Or.inl rfl | simp only [Goes.mk_eq]
    | with_reducible apply GoesMk.upd | split | dsimp only)

theorem noteRestore_goes {ps : List Part} {s0 : State} (c : Cmd) (s : State) (h : Goes ps s0 s) (w : [.skim, .eng,
    .log] ⊆ ps) : Goes ps s0 (noteRestore c s) := by
  unfold noteRestore
  repeat' (first
    | with_reducible assumption | exact reach w (Eq.refl _) | with_reducible apply authFailed_goes
    | with_reducible apply event_goes | with_reducible apply cntEng_goes | with_reducible apply cntCtx_goes
    | with_reducible apply Goes.ite | exact Or.inr (reachOne w (Eq.refl _)) | exact Or.inl rfl
    | simp only [Goes.mk_eq] | with_reducible apply GoesMk.upd | split | dsimp only)

theorem execCphRestore_goes {ps : List Part} {s0 : State} (c : Cmd) (s : State) (h : Goes ps s0 s) (w : [.journal,
    .skim, .eng, .sealer, .span, .log, .outbox] ⊆ ps) : GoesTo ps s0 (execCphRestore c s) := by
  unfold execCphRestore
  repeat' (first
    | with_reducible assumption | exact reach w (Eq.refl _) | intro _ | apply GoesTo.next
    | with_reducible apply inTurn_goes | with_reducible apply settle_goes | with_reducible apply noteRestore_goes
    | with_reducible apply runPlain_goes | with_reducible apply cphRestoreEff_goes | with_reducible apply Goes.ite
    | exact Or.inr (reachOne w (Eq.refl _)) | exact Or.inl rfl | simp only [Goes.mk_eq]
    | with_reducible apply GoesMk.upd | split | dsimp only)

theorem chargeHash_goes {ps : List Part} {s0 : State} (h_ w_ client : Nat) (c : Cmd) (key : List Byte) (s : State) (h
    : Goes ps s0 s) (w : [.eng, .log, .budget] ⊆ ps) : Goes ps s0 (chargeHash h_ w_ client c key s) := by
  unfold chargeHash
  repeat' (first
    | with_reducible assumption | exact reach w (Eq.refl _) | with_reducible apply engineWork_goes
    | with_reducible apply cntEng_goes | dsimp only)

theorem hshDigestEff_goes {ps : List Part} {s0 : State} (c : Cmd) (s : State) (h : Goes ps s0 s) (w : [.eng, .log,
    .budget] ⊆ ps) : Goes ps s0 (hshDigestEff c s).st := by
  unfold hshDigestEff
  repeat' (first
    | with_reducible assumption | exact reach w (Eq.refl _) | with_reducible apply output_goes
    | with_reducible apply chargeHash_goes | dsimp only)

theorem execHshDigest_goes {ps : List Part} {s0 : State} (c : Cmd) (s : State) (h : Goes ps s0 s) (w : [.journal,
    .eng, .span, .log, .budget, .outbox] ⊆ ps) : GoesTo ps s0 (execHshDigest c s) := by
  unfold execHshDigest
  repeat' (first
    | with_reducible assumption | exact reach w (Eq.refl _) | intro _ | apply GoesTo.next
    | with_reducible apply onEngine_goes | with_reducible apply runWork_goes | with_reducible apply hshDigestEff_goes
    | dsimp only)

theorem macEnd_goes {ps : List Part} {s0 : State} (c : Cmd) (h_ nlen slen t : Nat) (dir derive_ : Bool) (key inp :
    List Byte) (k tgt : Nat) (s : State) (h : Goes ps s0 s) (w : [.skim, .eng, .sealer, .log, .outbox] ⊆ ps) : Goes ps
    s0 (macEnd c h_ nlen slen t dir derive_ key inp k tgt s).st := by
  unfold macEnd
  repeat' (first
    | with_reducible assumption | exact reach w (Eq.refl _) | with_reducible apply done_goes
    | with_reducible apply installKey_goes | with_reducible apply authFailed_goes | with_reducible apply output_goes
    | with_reducible apply Goes.ite | split | dsimp only)

theorem hshMacEff_goes {ps : List Part} {s0 : State} (c : Cmd) (s : State) (h : Goes ps s0 s) (w : [.skim, .eng,
    .sealer, .log, .budget, .outbox] ⊆ ps) : Goes ps s0 (hshMacEff c s).st := by
  unfold hshMacEff
  repeat' (first
    | with_reducible assumption | exact reach w (Eq.refl _) | with_reducible apply macEnd_goes
    | with_reducible apply chargeHash_goes | dsimp only)

theorem execHshMac_goes {ps : List Part} {s0 : State} (c : Cmd) (s : State) (h : Goes ps s0 s) (w : [.journal, .skim,
    .eng, .sealer, .span, .log, .budget, .outbox] ⊆ ps) : GoesTo ps s0 (execHshMac c s) := by
  unfold execHshMac
  repeat' (first
    | with_reducible assumption | exact reach w (Eq.refl _) | intro _ | apply GoesTo.next
    | with_reducible apply inTurn_goes | with_reducible apply onEngine_goes | with_reducible apply runWork_goes
    | with_reducible apply hshMacEff_goes | dsimp only)

theorem hshOpenEff_goes {ps : List Part} {s0 : State} (c : Cmd) (s : State) (h : Goes ps s0 s) (w : [.skim, .sealer,
    .log, .outbox] ⊆ ps) : Goes ps s0 (hshOpenEff c s).st := by
  unfold hshOpenEff
  repeat' (first
    | with_reducible assumption | exact reach w (Eq.refl _) | with_reducible apply done_goes
    | with_reducible apply openSession_goes | with_reducible apply Goes.ite | exact Or.inr (reachOne w (Eq.refl _))
    | exact Or.inl rfl | simp only [Goes.mk_eq] | with_reducible apply GoesMk.upd | split | dsimp only)

theorem execHshOpen_goes {ps : List Part} {s0 : State} (c : Cmd) (s : State) (h : Goes ps s0 s) (w : [.journal, .skim,
    .sealer, .span, .log, .outbox] ⊆ ps) : GoesTo ps s0 (execHshOpen c s) := by
  unfold execHshOpen
  repeat' (first
    | with_reducible assumption | exact reach w (Eq.refl _) | intro _ | apply GoesTo.next
    | with_reducible apply inTurn_goes | with_reducible apply runPlain_goes | with_reducible apply hshOpenEff_goes
    | dsimp only)

theorem hshUpdateEff_goes {ps : List Part} {s0 : State} (c : Cmd) (s : State) (h : Goes ps s0 s) (w : [.skim, .eng,
    .sealer, .log, .budget, .outbox] ⊆ ps) : Goes ps s0 (hshUpdateEff c s).st := by
  unfold hshUpdateEff
  repeat' (first
    | with_reducible assumption | exact reach w (Eq.refl _) | with_reducible apply done_goes
    | with_reducible apply chargeHash_goes | with_reducible apply cntCtx_goes | with_reducible apply updSes_goes
    | exact Or.inr (reachOne w (Eq.refl _)) | exact Or.inl rfl | simp only [Goes.mk_eq]
    | with_reducible apply GoesMk.upd | dsimp only)

theorem execHshUpdate_goes {ps : List Part} {s0 : State} (c : Cmd) (s : State) (h : Goes ps s0 s) (w : [.journal,
    .skim, .eng, .sealer, .span, .log, .budget, .outbox] ⊆ ps) : GoesTo ps s0 (execHshUpdate c s) := by
  unfold execHshUpdate
  repeat' (first
    | with_reducible assumption | exact reach w (Eq.refl _) | intro _ | apply GoesTo.next
    | with_reducible apply inTurn_goes | with_reducible apply onEngine_goes | with_reducible apply runWork_goes
    | with_reducible apply hshUpdateEff_goes | dsimp only)

theorem hshFinalEff_goes {ps : List Part} {s0 : State} (c : Cmd) (s : State) (h : Goes ps s0 s) (w : [.skim, .eng,
    .sealer, .log, .budget, .outbox] ⊆ ps) : Goes ps s0 (hshFinalEff c s).st := by
  unfold hshFinalEff
  repeat' (first
    | with_reducible assumption | exact reach w (Eq.refl _) | with_reducible apply closeSession_goes
    | with_reducible apply chargeHash_goes | with_reducible apply output_goes | with_reducible apply macEnd_goes
    | with_reducible apply Goes.ite | split | dsimp only)

theorem execHshFinal_goes {ps : List Part} {s0 : State} (c : Cmd) (s : State) (h : Goes ps s0 s) (w : [.journal,
    .skim, .eng, .sealer, .span, .log, .budget, .outbox] ⊆ ps) : GoesTo ps s0 (execHshFinal c s) := by
  unfold execHshFinal
  repeat' (first
    | with_reducible assumption | exact reach w (Eq.refl _) | intro _ | apply GoesTo.next
    | with_reducible apply inTurn_goes | with_reducible apply onEngine_goes | with_reducible apply runWork_goes
    | with_reducible apply hshFinalEff_goes | dsimp only)

theorem startPke_goes {ps : List Part} {s0 : State} (i : Nat) (c : Cmd) (s : State) (h : Goes ps s0 s) (w : [.journal,
    .eng, .pke, .rng, .log, .budget] ⊆ ps) : Goes ps s0 (startPke i c s) := by
  unfold startPke
  repeat' (first
    | with_reducible assumption | exact reach w (Eq.refl _) | with_reducible apply generate_goes
    | refine generate_pair (by with_reducible assumption) ?_ ?_ | with_reducible apply startCmd_goes
    | with_reducible apply updUnit_goes | with_reducible apply Goes.ite | split | dsimp only)

theorem runPke_goes {ps : List Part} {s0 : State} (c : Cmd) (s : State) (h : Goes ps s0 s) (w : [.journal, .eng, .pke,
    .rng, .span, .log, .budget, .outbox] ⊆ ps) : Goes ps s0 (runPke c s) := by
  unfold runPke
  repeat' (first
    | with_reducible assumption | exact reach w (Eq.refl _) | with_reducible apply settle_goes
    | with_reducible apply cntRng_goes | with_reducible apply startPke_goes | with_reducible apply Goes.ite
    | exact Or.inr (reachOne w (Eq.refl _)) | exact Or.inl rfl | simp only [Goes.mk_eq]
    | with_reducible apply GoesMk.upd | split | dsimp only)

theorem execPkeSign_goes {ps : List Part} {s0 : State} (c : Cmd) (s : State) (h : Goes ps s0 s) (w : [.journal, .eng,
    .pke, .rng, .span, .log, .budget, .outbox] ⊆ ps) : GoesTo ps s0 (execPkeSign c s) := by
  unfold execPkeSign
  repeat' (first
    | with_reducible assumption | exact reach w (Eq.refl _) | apply GoesTo.next | with_reducible apply runPke_goes
    | dsimp only)

theorem execPkeVerify_goes {ps : List Part} {s0 : State} (c : Cmd) (s : State) (h : Goes ps s0 s) (w : [.journal,
    .eng, .pke, .rng, .span, .log, .budget, .outbox] ⊆ ps) : GoesTo ps s0 (execPkeVerify c s) := by
  unfold execPkeVerify
  repeat' (first
    | with_reducible assumption | exact reach w (Eq.refl _) | apply GoesTo.next | with_reducible apply runPke_goes
    | dsimp only)

theorem execPkeAgree_goes {ps : List Part} {s0 : State} (c : Cmd) (s : State) (h : Goes ps s0 s) (w : [.journal, .eng,
    .pke, .rng, .span, .log, .budget, .outbox] ⊆ ps) : GoesTo ps s0 (execPkeAgree c s) := by
  unfold execPkeAgree
  repeat' (first
    | with_reducible assumption | exact reach w (Eq.refl _) | intro _ | apply GoesTo.next
    | with_reducible apply inTurn_goes | with_reducible apply runPke_goes | dsimp only)

theorem execPkeEncap_goes {ps : List Part} {s0 : State} (c : Cmd) (s : State) (h : Goes ps s0 s) (w : [.journal, .eng,
    .pke, .rng, .span, .log, .budget, .outbox] ⊆ ps) : GoesTo ps s0 (execPkeEncap c s) := by
  unfold execPkeEncap
  repeat' (first
    | with_reducible assumption | exact reach w (Eq.refl _) | intro _ | apply GoesTo.next
    | with_reducible apply inTurn_goes | with_reducible apply runPke_goes | dsimp only)

theorem execPkeDecap_goes {ps : List Part} {s0 : State} (c : Cmd) (s : State) (h : Goes ps s0 s) (w : [.journal, .eng,
    .pke, .rng, .span, .log, .budget, .outbox] ⊆ ps) : GoesTo ps s0 (execPkeDecap c s) := by
  unfold execPkeDecap
  repeat' (first
    | with_reducible assumption | exact reach w (Eq.refl _) | intro _ | apply GoesTo.next
    | with_reducible apply inTurn_goes | with_reducible apply runPke_goes | dsimp only)

theorem execPkeKeygen_goes {ps : List Part} {s0 : State} (c : Cmd) (s : State) (h : Goes ps s0 s) (w : [.journal,
    .eng, .pke, .rng, .span, .log, .budget, .outbox] ⊆ ps) : GoesTo ps s0 (execPkeKeygen c s) := by
  unfold execPkeKeygen
  repeat' (first
    | with_reducible assumption | exact reach w (Eq.refl _) | intro _ | apply GoesTo.next
    | with_reducible apply inTurn_goes | with_reducible apply runPke_goes | dsimp only)

theorem pkZeros_goes {ps : List Part} {s0 : State} (c : Cmd) (st : Nat) (s : State) (h : Goes ps s0 s) : Goes ps s0
    (pkZeros c st s).st := by
  unfold pkZeros
  repeat' (first
    | with_reducible assumption | dsimp only)

theorem pkInvalid_goes {ps : List Part} {s0 : State} (c : Cmd) (s : State) (h : Goes ps s0 s) (w : [.pke, .log] ⊆ ps)
    : Goes ps s0 (pkInvalid c s).st := by
  unfold pkInvalid
  repeat' (first
    | with_reducible assumption | exact reach w (Eq.refl _) | with_reducible apply pkZeros_goes
    | with_reducible apply pkeEvent_goes | with_reducible apply cntPke_goes | dsimp only)

theorem spendPair_goes {ps : List Part} {s0 : State} (c : Cmd) (s : State) (h : Goes ps s0 s) (w : [.skim, .sealer,
    .log, .outbox] ⊆ ps) : Goes ps s0 (spendPair c s) := by
  unfold spendPair
  repeat' (first
    | with_reducible assumption | exact reach w (Eq.refl _) | with_reducible apply closeSession_goes
    | with_reducible apply Goes.ite | split | dsimp only)

theorem pkeResult_goes {ps : List Part} {s0 : State} (c : Cmd) (r : List Byte) (s : State) (h : Goes ps s0 s) (w :
    [.skim, .pke, .sealer, .log, .outbox] ⊆ ps) : Goes ps s0 (pkeResult c r s).st := by
  unfold pkeResult
  repeat' (first
    | with_reducible assumption | exact reach w (Eq.refl _) | with_reducible apply pkInvalid_goes
    | with_reducible apply pkZeros_goes | with_reducible apply pkeEvent_goes | with_reducible apply cntPke_goes
    | with_reducible apply done_goes | with_reducible apply spendPair_goes | with_reducible apply installKey_goes
    | with_reducible apply openSession_goes | with_reducible apply Goes.ite | exact Or.inr (reachOne w (Eq.refl _))
    | exact Or.inl rfl | simp only [Goes.mk_eq] | with_reducible apply GoesMk.upd | split | dsimp only)

theorem startWipe_goes {ps : List Part} {s0 : State} (i : Nat) (s : State) (h : Goes ps s0 s) (w : [.pke] ⊆ ps) : Goes
    ps s0 (startWipe i s) := by
  unfold startWipe
  repeat' (first
    | with_reducible assumption | exact reach w (Eq.refl _) | with_reducible apply updUnit_goes
    | exact Or.inr (reachOne w (Eq.refl _)) | exact Or.inl rfl | simp only [Goes.mk_eq]
    | with_reducible apply GoesMk.upd | dsimp only)

theorem resultReady_goes {ps : List Part} {s0 : State} (i : Nat) (s : State) (h : Goes ps s0 s) (w : [.sys, .fns,
    .journal, .skim, .hawk, .eng, .pke, .rng, .sealer, .span, .log, .budget, .freeCtr, .outbox] ⊆ ps) : Goes ps s0
    (resultReady i s) := by
  unfold resultReady
  repeat' (first
    | with_reducible assumption | exact reach w (Eq.refl _) | with_reducible apply cntPke_goes
    | with_reducible apply pkeResult_goes | with_reducible apply charge_goes | with_reducible apply startWipe_goes
    | with_reducible apply afterOutcome_goes | with_reducible apply settle_goes | with_reducible apply Goes.ite
    | exact Or.inr (reachOne w (Eq.refl _)) | exact Or.inr ⟨reachOne w (Eq.refl _), rfl⟩
    | exact Or.inr ⟨reachOne w (Eq.refl _), rfl, rfl, rfl, rfl, rfl⟩ | exact Or.inl rfl | simp only [Goes.mk_eq]
    | with_reducible apply GoesMk.upd | split | dsimp only)

theorem execPkeResultReady_goes {ps : List Part} {s0 : State} (i : Nat) (s : State) (h : Goes ps s0 s) (w : [.sys,
    .fns, .journal, .skim, .hawk, .eng, .pke, .rng, .sealer, .span, .log, .budget, .freeCtr, .outbox] ⊆ ps) : GoesTo
    ps s0 (execPkeResultReady i s) := by
  unfold execPkeResultReady
  repeat' (first
    | with_reducible assumption | exact reach w (Eq.refl _) | apply GoesTo.next
    | with_reducible apply resultReady_goes | dsimp only)

theorem endedFirst_goes {ps : List Part} {s0 : State} (s : State) (h : Goes ps s0 s) (w : [.sys, .fns, .journal,
    .skim, .hawk, .eng, .pke, .rng, .sealer, .span, .log, .budget, .freeCtr, .outbox] ⊆ ps) : Goes ps s0 (endedFirst
    s) := by
  unfold endedFirst
  repeat' (first
    | with_reducible assumption | exact reach w (Eq.refl _) | intro _ | with_reducible apply resultReady_goes
    | with_reducible apply Goes.foldl | with_reducible apply Goes.foldl1 | with_reducible apply Goes.foldl2
    | dsimp only)

theorem execPkeWipeDone_goes {ps : List Part} {s0 : State} (i : Nat) (s : State) (h : Goes ps s0 s) (w : [.sys, .fns,
    .journal, .skim, .hawk, .eng, .pke, .rng, .span, .log, .freeCtr, .outbox] ⊆ ps) : GoesTo ps s0 (execPkeWipeDone i
    s) := by
  unfold execPkeWipeDone
  repeat' (first
    | with_reducible assumption | exact reach w (Eq.refl _) | apply GoesTo.next | with_reducible apply updUnit_goes
    | with_reducible apply afterOutcome_goes | with_reducible apply settle_goes | with_reducible apply Goes.ite
    | exact Or.inr (reachOne w (Eq.refl _)) | exact Or.inr ⟨reachOne w (Eq.refl _), rfl⟩
    | exact Or.inr ⟨reachOne w (Eq.refl _), rfl, rfl, rfl, rfl, rfl⟩ | exact Or.inl rfl | simp only [Goes.mk_eq]
    | with_reducible apply GoesMk.upd | split | dsimp only)

theorem stopPke_goes {ps : List Part} {s0 : State} (i : Nat) (c : Cmd) (s : State) (h : Goes ps s0 s) (w : [.pke,
    .log, .budget] ⊆ ps) : Goes ps s0 (stopPke i c s) := by
  unfold stopPke
  repeat' (first
    | with_reducible assumption | exact reach w (Eq.refl _) | with_reducible apply startWipe_goes
    | with_reducible apply pkeEvent_goes | with_reducible apply cntPke_goes | with_reducible apply charge_goes
    | dsimp only)

theorem signerRnd_goes {ps : List Part} {s0 : State} (fn : Nat) (purpose : String) (s : State) (h : Goes ps s0 s) (w :
    [.eng, .pke, .rng, .log, .budget] ⊆ ps) : Goes ps s0 (signerRnd fn purpose s).2 := by
  unfold signerRnd
  repeat' (first
    | with_reducible assumption | exact reach w (Eq.refl _) | with_reducible apply event_goes
    | with_reducible apply generate_goes | refine generate_pair (by with_reducible assumption) ?_ ?_
    | with_reducible apply Goes.ite | exact Or.inr (reachOne w (Eq.refl _)) | exact Or.inl rfl
    | simp only [Goes.mk_eq] | with_reducible apply GoesMk.upd | split | dsimp only)

theorem signerRnd_pair {ps : List Part} {s0 s1 : State} {fn : Nat} {purpose : String} {s : State} {z} (e : signerRnd
    fn purpose s = (z, s1)) (h : Goes ps s0 s) (w : [.eng, .pke, .rng, .log, .budget] ⊆ ps) : Goes ps s0 s1 := by
  have g := signerRnd_goes (s0 := s0) fn purpose s h w
  rw [e] at g; exact g

theorem internalSign_goes {ps : List Part} {s0 : State} (owner fn : Nat) (purpose : String) (priv ctx octs : List
    Byte) (s : State) (h : Goes ps s0 s) (w : [.eng, .pke, .rng, .log, .budget] ⊆ ps) : Goes ps s0 (internalSign owner
    fn purpose priv ctx octs s).2 := by
  unfold internalSign
  repeat' (first
    | with_reducible assumption | exact reach w (Eq.refl _) | with_reducible apply signerRnd_goes
    | refine signerRnd_pair (by with_reducible assumption) ?_ ?_ | with_reducible apply signWork_goes
    | with_reducible apply pkeEvent_goes | with_reducible apply cntPke_goes | exact Or.inr (reachOne w (Eq.refl _))
    | exact Or.inl rfl | simp only [Goes.mk_eq] | with_reducible apply GoesMk.upd | split | dsimp only)

theorem internalSign_pair {ps : List Part} {s0 s1 : State} {owner fn : Nat} {purpose : String} {priv ctx octs : List
    Byte} {s : State} {z} (e : internalSign owner fn purpose priv ctx octs s = (z, s1)) (h : Goes ps s0 s) (w : [.eng,
    .pke, .rng, .log, .budget] ⊆ ps) : Goes ps s0 s1 := by
  have g := internalSign_goes (s0 := s0) owner fn purpose priv ctx octs s h w
  rw [e] at g; exact g

theorem updVolRec_goes {ps : List Part} {s0 : State} (n : Nat) (g : VolRec → VolRec) (s : State) (h : Goes ps s0 s) (w
    : [.sealer] ⊆ ps) : Goes ps s0 (updVolRec n g s) := by
  unfold updVolRec
  repeat' (first
    | with_reducible assumption | exact reach w (Eq.refl _) | with_reducible apply updVol_goes
    | with_reducible apply Goes.ite | exact Or.inr (reachOne w (Eq.refl _)) | exact Or.inl rfl
    | simp only [Goes.mk_eq] | with_reducible apply GoesMk.upd | split | dsimp only)

theorem postReq_goes {ps : List Part} {s0 : State} (kind op nsec lba recNum tok : Nat) (data : List Byte) (s : State)
    (h : Goes ps s0 s) (w : [.sealer, .span, .log, .budget, .outbox] ⊆ ps) : Goes ps s0 (postReq kind op nsec lba
    recNum tok data s) := by
  unfold postReq
  repeat' (first
    | with_reducible assumption | exact reach w (Eq.refl _) | with_reducible apply openWork_goes
    | with_reducible apply updVol_goes | with_reducible apply emit_goes | with_reducible apply sendPacket_goes
    | with_reducible apply Goes.ite | exact Or.inr (reachOne w (Eq.refl _)) | exact Or.inl rfl
    | simp only [Goes.mk_eq] | with_reducible apply GoesMk.upd | split | dsimp only)

theorem updJob_goes {ps : List Part} {s0 : State} (kind recNum tok : Nat) (g : VolJob → VolJob) (s : State) (h : Goes
    ps s0 s) (w : [.sealer] ⊆ ps) : Goes ps s0 (updJob kind recNum tok g s) := by
  unfold updJob
  repeat' (first
    | with_reducible assumption | exact reach w (Eq.refl _) | with_reducible apply updVol_goes
    | with_reducible apply Goes.ite | exact Or.inr (reachOne w (Eq.refl _)) | exact Or.inl rfl
    | simp only [Goes.mk_eq] | with_reducible apply GoesMk.upd | split | dsimp only)

theorem postJob_goes {ps : List Part} {s0 : State} (j : VolJob) (s : State) (h : Goes ps s0 s) (w : [.sealer, .span,
    .log, .budget, .outbox] ⊆ ps) : Goes ps s0 (postJob j s) := by
  unfold postJob
  repeat' (first
    | with_reducible assumption | exact reach w (Eq.refl _) | with_reducible apply postReq_goes
    | with_reducible apply updJob_goes | with_reducible apply Goes.ite | exact Or.inr (reachOne w (Eq.refl _))
    | exact Or.inl rfl | simp only [Goes.mk_eq] | with_reducible apply GoesMk.upd | split | dsimp only)

theorem pumpN_goes {ps : List Part} {s0 : State} (n : Nat) (s : State) (h : Goes ps s0 s) (w : [.sealer, .span, .log, .budget, .outbox] ⊆ ps) :
    Goes ps s0 (pumpN n s) := by
  induction n generalizing s with
  | zero => exact h
  | succ n ih =>
    unfold pumpN
    split
    · split
      · exact ih _ (postJob_goes _ _ h w)
      · exact h
    · exact h

theorem pump_goes {ps : List Part} {s0 : State} (s : State) (h : Goes ps s0 s) (w : [.sealer, .span, .log, .budget,
    .outbox] ⊆ ps) : Goes ps s0 (pump s) := by
  unfold pump
  repeat' (first
    | with_reducible assumption | exact reach w (Eq.refl _) | with_reducible apply pumpN_goes | dsimp only)

theorem volEpochUp_goes {ps : List Part} {s0 : State} (s : State) (h : Goes ps s0 s) (w : [.sealer, .log] ⊆ ps) : Goes
    ps s0 (volEpochUp s) := by
  unfold volEpochUp
  repeat' (first
    | with_reducible assumption | exact reach w (Eq.refl _) | with_reducible apply event_goes
    | with_reducible apply updVol_goes | exact Or.inr (reachOne w (Eq.refl _)) | exact Or.inl rfl
    | simp only [Goes.mk_eq] | with_reducible apply GoesMk.upd | dsimp only)

theorem tagSectors_goes {ps : List Part} {s0 : State} (r : VolRec) (i n : Nat) (s : State) (h : Goes ps s0 s) (w :
    [.sealer, .log] ⊆ ps) : Goes ps s0 (tagSectors r i n s) := by
  unfold tagSectors
  repeat' (first
    | with_reducible assumption | exact reach w (Eq.refl _) | intro _ | with_reducible apply volEpochUp_goes
    | with_reducible apply updVol_goes | with_reducible apply Goes.foldl | with_reducible apply Goes.foldl1
    | with_reducible apply Goes.foldl2 | with_reducible apply Goes.ite | exact Or.inr (reachOne w (Eq.refl _))
    | exact Or.inl rfl | simp only [Goes.mk_eq] | with_reducible apply GoesMk.upd | split | dsimp only)

theorem writeNotice_goes {ps : List Part} {s0 : State} (r : Rec) (outcome volsec : Nat) (s : State) (h : Goes ps s0 s)
    (w : [.sys, .fns, .skim, .hawk, .eng, .span, .log, .budget, .outbox] ⊆ ps) : Goes ps s0 (writeNotice r outcome
    volsec s) := by
  unfold writeNotice
  repeat' (first
    | with_reducible assumption | exact reach w (Eq.refl _) | intro _ | with_reducible apply writeEvent_goes
    | with_reducible apply Goes.foldl | with_reducible apply Goes.foldl1 | with_reducible apply Goes.foldl2
    | with_reducible apply Goes.ite | exact Or.inr (reachOne w (Eq.refl _))
    | exact Or.inr ⟨reachOne w (Eq.refl _), rfl⟩ | exact Or.inr ⟨reachOne w (Eq.refl _), rfl, rfl, rfl, rfl, rfl⟩
    | exact Or.inl rfl | simp only [Goes.mk_eq] | with_reducible apply GoesMk.upd | split | dsimp only)

theorem recSealed_goes {ps : List Part} {s0 : State} (r : Rec) (volsec : Nat) (s : State) (h : Goes ps s0 s) (w :
    [.sys, .fns, .skim, .hawk, .eng, .span, .log, .budget, .outbox] ⊆ ps) : Goes ps s0 (recSealed r volsec s) := by
  unfold recSealed
  repeat' (first
    | with_reducible assumption | exact reach w (Eq.refl _) | with_reducible apply cntHawk_goes
    | with_reducible apply writeNotice_goes | exact Or.inr (reachOne w (Eq.refl _))
    | exact Or.inr ⟨reachOne w (Eq.refl _), rfl⟩ | exact Or.inr ⟨reachOne w (Eq.refl _), rfl, rfl, rfl, rfl, rfl⟩
    | exact Or.inl rfl | simp only [Goes.mk_eq] | with_reducible apply GoesMk.upd | dsimp only)

theorem recDropped_goes {ps : List Part} {s0 : State} (r : Rec) (s : State) (h : Goes ps s0 s) (w : [.sys, .fns,
    .skim, .hawk, .eng, .span, .log, .budget, .outbox] ⊆ ps) : Goes ps s0 (recDropped r s) := by
  unfold recDropped
  repeat' (first
    | with_reducible assumption | exact reach w (Eq.refl _) | with_reducible apply event_goes
    | with_reducible apply cntHawk_goes | with_reducible apply writeNotice_goes
    | exact Or.inr (reachOne w (Eq.refl _)) | exact Or.inr ⟨reachOne w (Eq.refl _), rfl⟩
    | exact Or.inr ⟨reachOne w (Eq.refl _), rfl, rfl, rfl, rfl, rfl⟩ | exact Or.inl rfl | simp only [Goes.mk_eq]
    | with_reducible apply GoesMk.upd | dsimp only)

theorem makeRoom_goes {ps : List Part} {s0 : State} (k n : Nat) (s : State) (h : Goes ps s0 s) (w : [.sealer] ⊆ ps) :
    Goes ps s0 (makeRoom k n s).1 := by
  induction k generalizing s with
  | zero => exact h
  | succ k ih =>
    unfold makeRoom
    split
    · exact h
    · split
      · exact ih _ (updVol_goes _ _ h w)
      · exact h

theorem makeRoom_pair {ps : List Part} {s0 s1 : State} {k n : Nat} {s : State} {z} (e : makeRoom k n s = (s1, z)) (h : Goes ps s0 s)
    (w : [.sealer] ⊆ ps) : Goes ps s0 s1 := by
  have g := makeRoom_goes (s0 := s0) k n s h w
  rw [e] at g; exact g

theorem archive_goes {ps : List Part} {s0 : State} (r : Rec) (content : List Byte) (s : State) (h : Goes ps s0 s) (w :
    [.sys, .fns, .skim, .hawk, .eng, .sealer, .span, .log, .budget, .outbox] ⊆ ps) : Goes ps s0 (archive r content s)
    := by
  unfold archive
  repeat' (first
    | with_reducible assumption | exact reach w (Eq.refl _) | with_reducible apply makeRoom_goes
    | refine makeRoom_pair (by with_reducible assumption) ?_ ?_ | with_reducible apply recDropped_goes
    | with_reducible apply updVol_goes | with_reducible apply done_goes | with_reducible apply pump_goes
    | with_reducible apply Goes.ite | exact Or.inr (reachOne w (Eq.refl _))
    | exact Or.inr ⟨reachOne w (Eq.refl _), rfl⟩ | exact Or.inr ⟨reachOne w (Eq.refl _), rfl, rfl, rfl, rfl, rfl⟩
    | exact Or.inl rfl | simp only [Goes.mk_eq] | with_reducible apply GoesMk.upd | split | dsimp only)

theorem sectorsRead_goes {ps : List Part} {s0 : State} (s : State) (r : VolRec) (i n : Nat) (h : Goes ps s0 s) (w :
    [.freeCtr] ⊆ ps) : Goes ps s0 (sectorsRead s r i n).2 := by
  unfold sectorsRead
  repeat' (first
    | with_reducible assumption | exact reach w (Eq.refl _) | with_reducible apply freeOctets_goes
    | refine freeOctets_pair (by with_reducible assumption) ?_ ?_ | with_reducible apply Goes.ite
    | exact Or.inr (reachOne w (Eq.refl _)) | exact Or.inl rfl | simp only [Goes.mk_eq]
    | with_reducible apply GoesMk.upd | split | dsimp only)

theorem sectorsRead_pair {ps : List Part} {s0 s1 : State} {s : State} {r : VolRec} {i n : Nat} {z} (e : sectorsRead s
    r i n = (z, s1)) (h : Goes ps s0 s) (w : [.freeCtr] ⊆ ps) : Goes ps s0 s1 := by
  have g := sectorsRead_goes (s0 := s0) s r i n h w
  rw [e] at g; exact g

theorem volAuthFail_goes {ps : List Part} {s0 : State} (n : Nat) (s : State) (h : Goes ps s0 s) (w : [.sealer, .log] ⊆
    ps) : Goes ps s0 (volAuthFail n s) := by
  unfold volAuthFail
  repeat' (first
    | with_reducible assumption | exact reach w (Eq.refl _) | with_reducible apply event_goes
    | with_reducible apply cntSlr_goes | with_reducible apply updVolRec_goes | exact Or.inr (reachOne w (Eq.refl _))
    | exact Or.inl rfl | simp only [Goes.mk_eq] | with_reducible apply GoesMk.upd | dsimp only)

theorem dropJob_goes {ps : List Part} {s0 : State} (kind recNum tok : Nat) (s : State) (h : Goes ps s0 s) (w :
    [.sealer] ⊆ ps) : Goes ps s0 (dropJob kind recNum tok s) := by
  unfold dropJob
  repeat' (first
    | with_reducible assumption | exact reach w (Eq.refl _) | with_reducible apply updVol_goes
    | exact Or.inr (reachOne w (Eq.refl _)) | exact Or.inl rfl | simp only [Goes.mk_eq]
    | with_reducible apply GoesMk.upd | dsimp only)

theorem writeDone_goes {ps : List Part} {s0 : State} (q : VolReq) (r : VolRec) (s : State) (h : Goes ps s0 s) (w :
    [.sys, .fns, .skim, .hawk, .eng, .sealer, .span, .log, .budget, .outbox] ⊆ ps) : Goes ps s0 (writeDone q r s) :=
    by
  unfold writeDone
  repeat' (first
    | with_reducible assumption | exact reach w (Eq.refl _) | with_reducible apply cntSlr_goes
    | with_reducible apply tagSectors_goes | with_reducible apply updJob_goes | with_reducible apply done_goes
    | with_reducible apply recSealed_goes | with_reducible apply dropJob_goes | with_reducible apply Goes.ite
    | exact Or.inr (reachOne w (Eq.refl _)) | exact Or.inr ⟨reachOne w (Eq.refl _), rfl⟩
    | exact Or.inr ⟨reachOne w (Eq.refl _), rfl, rfl, rfl, rfl, rfl⟩ | exact Or.inl rfl | simp only [Goes.mk_eq]
    | with_reducible apply GoesMk.upd | split | dsimp only)

theorem readDone_goes {ps : List Part} {s0 : State} (q : VolReq) (r : VolRec) (fail : Bool) (s : State) (h : Goes ps
    s0 s) (w : [.sys, .fns, .journal, .skim, .hawk, .eng, .rng, .sealer, .span, .log, .freeCtr, .outbox] ⊆ ps) : Goes
    ps s0 (readDone q r fail s) := by
  unfold readDone
  repeat' (first
    | with_reducible assumption | exact reach w (Eq.refl _) | with_reducible apply sectorsRead_goes
    | refine sectorsRead_pair (by with_reducible assumption) ?_ ?_ | with_reducible apply cntSlr_goes
    | with_reducible apply volAuthFail_goes | with_reducible apply afterOutcome_goes
    | with_reducible apply settle_goes | with_reducible apply dropJob_goes | with_reducible apply updJob_goes
    | with_reducible apply done_goes | with_reducible apply Goes.ite | exact Or.inr (reachOne w (Eq.refl _))
    | exact Or.inr ⟨reachOne w (Eq.refl _), rfl⟩ | exact Or.inr ⟨reachOne w (Eq.refl _), rfl, rfl, rfl, rfl, rfl⟩
    | exact Or.inl rfl | simp only [Goes.mk_eq] | with_reducible apply GoesMk.upd | split | dsimp only)

theorem walkDone_goes {ps : List Part} {s0 : State} (q : VolReq) (r : VolRec) (fail : Bool) (s : State) (h : Goes ps
    s0 s) (w : [.sealer, .span, .log, .budget, .freeCtr, .outbox] ⊆ ps) : Goes ps s0 (walkDone q r fail s) := by
  unfold walkDone
  repeat' (first
    | with_reducible assumption | exact reach w (Eq.refl _) | with_reducible apply step_goes
    | with_reducible apply updJob_goes | with_reducible apply done_goes | with_reducible apply dropJob_goes
    | with_reducible apply updVolRec_goes | with_reducible apply updVol_goes | with_reducible apply sectorsRead_goes
    | refine sectorsRead_pair (by with_reducible assumption) ?_ ?_ | with_reducible apply cntSlr_goes
    | with_reducible apply volAuthFail_goes | with_reducible apply postReq_goes | with_reducible apply tagSectors_goes
    | with_reducible apply Goes.ite | exact Or.inr (reachOne w (Eq.refl _)) | exact Or.inl rfl
    | simp only [Goes.mk_eq] | with_reducible apply GoesMk.upd | split | dsimp only)

theorem recoverDone_goes {ps : List Part} {s0 : State} (q : VolReq) (fail : Bool) (s : State) (h : Goes ps s0 s) (w :
    [.sealer, .log, .freeCtr] ⊆ ps) : Goes ps s0 (recoverDone q fail s) := by
  unfold recoverDone
  repeat' (first
    | with_reducible assumption | exact reach w (Eq.refl _) | intro _ | with_reducible apply cntSlr_goes
    | with_reducible apply tagSectors_goes | with_reducible apply updVol_goes | with_reducible apply updJob_goes
    | with_reducible apply done_goes | with_reducible apply dropJob_goes | with_reducible apply Goes.foldl
    | with_reducible apply Goes.foldl1 | with_reducible apply Goes.foldl2 | with_reducible apply Goes.ite
    | exact Or.inr (reachOne w (Eq.refl _)) | exact Or.inl rfl | simp only [Goes.mk_eq]
    | with_reducible apply GoesMk.upd | split | dsimp only)

theorem reqDone_goes {ps : List Part} {s0 : State} (q : VolReq) (fail : Bool) (s : State) (h : Goes ps s0 s) (w :
    [.sys, .fns, .journal, .skim, .hawk, .eng, .rng, .sealer, .span, .log, .budget, .freeCtr, .outbox] ⊆ ps) : Goes ps
    s0 (reqDone q fail s) := by
  unfold reqDone
  repeat' (first
    | with_reducible assumption | exact reach w (Eq.refl _) | with_reducible apply event_goes
    | with_reducible apply updVol_goes | with_reducible apply pump_goes | with_reducible apply recoverDone_goes
    | with_reducible apply dropJob_goes | with_reducible apply writeDone_goes | with_reducible apply readDone_goes
    | with_reducible apply walkDone_goes | with_reducible apply Goes.ite | exact Or.inr (reachOne w (Eq.refl _))
    | exact Or.inr ⟨reachOne w (Eq.refl _), rfl⟩ | exact Or.inr ⟨reachOne w (Eq.refl _), rfl, rfl, rfl, rfl, rfl⟩
    | exact Or.inl rfl | simp only [Goes.mk_eq] | with_reducible apply GoesMk.upd | split | dsimp only)

theorem volAttachEff_goes {ps : List Part} {s0 : State} (c : Cmd) (s : State) (h : Goes ps s0 s) (w : [.hawk, .sealer,
    .span, .log, .budget, .outbox] ⊆ ps) : Goes ps s0 (volAttachEff c s).st := by
  unfold volAttachEff
  repeat' (first
    | with_reducible assumption | exact reach w (Eq.refl _) | with_reducible apply updVol_goes
    | with_reducible apply done_goes | with_reducible apply pump_goes | with_reducible apply Goes.ite
    | exact Or.inr (reachOne w (Eq.refl _)) | exact Or.inl rfl | simp only [Goes.mk_eq]
    | with_reducible apply GoesMk.upd | split | dsimp only)

theorem execVolAttach_goes {ps : List Part} {s0 : State} (c : Cmd) (s : State) (h : Goes ps s0 s) (w : [.sys,
    .journal, .deferred, .hawk, .sealer, .span, .log, .budget, .outbox] ⊆ ps) : GoesTo ps s0 (execVolAttach c s) := by
  unfold execVolAttach
  repeat' (first
    | with_reducible assumption | exact reach w (Eq.refl _) | intro _ | apply GoesTo.next
    | with_reducible apply runConfig_goes | with_reducible apply volAttachEff_goes | dsimp only)

theorem volIoEff_goes {ps : List Part} {s0 : State} (c : Cmd) (s : State) (h : Goes ps s0 s) (w : [.sys, .fns,
    .journal, .skim, .hawk, .eng, .rng, .sealer, .span, .log, .budget, .freeCtr, .outbox] ⊆ ps) : Goes ps s0 (volIoEff
    c s).st := by
  unfold volIoEff
  repeat' (first
    | with_reducible assumption | exact reach w (Eq.refl _) | with_reducible apply done_goes
    | with_reducible apply reqDone_goes | exact Or.inr (reachOne w (Eq.refl _))
    | exact Or.inr ⟨reachOne w (Eq.refl _), rfl⟩ | exact Or.inr ⟨reachOne w (Eq.refl _), rfl, rfl, rfl, rfl, rfl⟩
    | exact Or.inl rfl | simp only [Goes.mk_eq] | with_reducible apply GoesMk.upd | split | dsimp only)

theorem execVolIo_goes {ps : List Part} {s0 : State} (c : Cmd) (s : State) (h : Goes ps s0 s) (w : [.sys, .fns,
    .journal, .skim, .hawk, .eng, .rng, .sealer, .span, .log, .budget, .freeCtr, .outbox] ⊆ ps) : GoesTo ps s0
    (execVolIo c s) := by
  unfold execVolIo
  repeat' (first
    | with_reducible assumption | exact reach w (Eq.refl _) | intro _ | apply GoesTo.next
    | with_reducible apply runPlain_goes | with_reducible apply volIoEff_goes | dsimp only)

theorem execVolRead_goes {ps : List Part} {s0 : State} (c : Cmd) (s : State) (h : Goes ps s0 s) (w : [.journal,
    .sealer, .span, .log, .budget, .outbox] ⊆ ps) : GoesTo ps s0 (execVolRead c s) := by
  unfold execVolRead
  repeat' (first
    | with_reducible assumption | exact reach w (Eq.refl _) | apply GoesTo.next | with_reducible apply settle_goes
    | with_reducible apply updVol_goes | with_reducible apply done_goes | with_reducible apply pump_goes
    | with_reducible apply startCmd_goes | with_reducible apply Goes.ite | exact Or.inr (reachOne w (Eq.refl _))
    | exact Or.inl rfl | simp only [Goes.mk_eq] | with_reducible apply GoesMk.upd | split | dsimp only)

theorem volRekeyEff_goes {ps : List Part} {s0 : State} (x1 : Cmd) (s : State) (h : Goes ps s0 s) (w : [.eng, .rng,
    .keys, .sealer, .log, .budget] ⊆ ps) : Goes ps s0 (volRekeyEff x1 s).st := by
  unfold volRekeyEff
  repeat' (first
    | with_reducible assumption | exact reach w (Eq.refl _) | with_reducible apply generate_goes
    | refine generate_pair (by with_reducible assumption) ?_ ?_ | with_reducible apply done_goes
    | with_reducible apply volEpochUp_goes | with_reducible apply updVol_goes | exact Or.inr (reachOne w (Eq.refl _))
    | exact Or.inr ⟨reachOne w (Eq.refl _), rfl⟩ | exact Or.inl rfl | simp only [Goes.mk_eq]
    | with_reducible apply GoesMk.upd | dsimp only)

theorem execVolRekey_goes {ps : List Part} {s0 : State} (c : Cmd) (s : State) (h : Goes ps s0 s) (w : [.sys, .journal,
    .deferred, .eng, .pke, .rng, .keys, .sealer, .span, .log, .budget, .outbox] ⊆ ps) : GoesTo ps s0 (execVolRekey c
    s) := by
  unfold execVolRekey
  repeat' (first
    | with_reducible assumption | exact reach w (Eq.refl _) | intro _ | apply GoesTo.next
    | with_reducible apply withDraw_goes | with_reducible apply runConfigBy_goes
    | with_reducible apply applyQuorum_goes | with_reducible apply volRekeyEff_goes
    | exact Or.inr (reachOne w (Eq.refl _)) | exact Or.inr ⟨reachOne w (Eq.refl _), rfl⟩
    | exact Or.inr ⟨reachOne w (Eq.refl _), rfl, rfl, rfl, rfl, rfl⟩ | exact Or.inl rfl | simp only [Goes.mk_eq]
    | with_reducible apply GoesMk.upd | dsimp only)

theorem volumeWalk_goes {ps : List Part} {s0 : State} (s : State) (h : Goes ps s0 s) (w : [.sealer, .span, .log,
    .budget, .outbox] ⊆ ps) : Goes ps s0 (volumeWalk s) := by
  unfold volumeWalk
  repeat' (first
    | with_reducible assumption | exact reach w (Eq.refl _) | with_reducible apply pump_goes
    | with_reducible apply updVol_goes | with_reducible apply done_goes | with_reducible apply event_goes
    | with_reducible apply Goes.ite | exact Or.inr (reachOne w (Eq.refl _)) | exact Or.inl rfl
    | simp only [Goes.mk_eq] | with_reducible apply GoesMk.upd | split | dsimp only)

theorem execRekeyWalk_goes {ps : List Part} {s0 : State} (rid : Nat) (s : State) (h : Goes ps s0 s) (w : [.sealer,
    .span, .log, .budget, .freeCtr, .outbox] ⊆ ps) : GoesTo ps s0 (execRekeyWalk rid s) := by
  unfold execRekeyWalk
  repeat' (first
    | with_reducible assumption | exact reach w (Eq.refl _) | apply GoesTo.next | with_reducible apply regionWalk_goes
    | with_reducible apply volumeWalk_goes | with_reducible apply Goes.ite | split | dsimp only)

theorem execVolWriteRepost_goes {ps : List Part} {s0 : State} (idx : Nat) (s : State) (h : Goes ps s0 s) (w :
    [.sealer, .span, .log, .budget, .outbox] ⊆ ps) : GoesTo ps s0 (execVolWriteRepost idx s) := by
  unfold execVolWriteRepost
  repeat' (first
    | with_reducible assumption | exact reach w (Eq.refl _) | apply GoesTo.next | with_reducible apply updVol_goes
    | with_reducible apply postReq_goes | with_reducible apply Goes.ite | exact Or.inr (reachOne w (Eq.refl _))
    | exact Or.inl rfl | simp only [Goes.mk_eq] | with_reducible apply GoesMk.upd | split | dsimp only)

theorem execVolStall_goes {ps : List Part} {s0 : State} (idx : Nat) (s : State) (h : Goes ps s0 s) (w : [.sealer] ⊆
    ps) : GoesTo ps s0 (execVolStall idx s) := by
  unfold execVolStall
  repeat' (first
    | with_reducible assumption | exact reach w (Eq.refl _) | apply GoesTo.next | with_reducible apply updVol_goes
    | with_reducible apply Goes.ite | exact Or.inr (reachOne w (Eq.refl _)) | exact Or.inl rfl
    | simp only [Goes.mk_eq] | with_reducible apply GoesMk.upd | split | dsimp only)

theorem tamperLog_goes {ps : List Part} {s0 : State} (src resp : Nat) (suppressed backup startup : Bool) (s : State)
    (h : Goes ps s0 s) (w : [.log] ⊆ ps) : Goes ps s0 (tamperLog src resp suppressed backup startup s) := by
  unfold tamperLog
  repeat' (first
    | with_reducible assumption | exact reach w (Eq.refl _) | with_reducible apply logEv_goes | dsimp only)

theorem updFacts_goes {ps : List Part} {s0 : State} (g : BootFacts → BootFacts) (s : State) (h : Goes ps s0 s) (w :
    [.fw] ⊆ ps) : Goes ps s0 (updFacts g s) := by
  unfold updFacts
  repeat' (first
    | with_reducible assumption | exact Or.inr (reachOne w (Eq.refl _)) | exact Or.inl rfl | simp only [Goes.mk_eq]
    | with_reducible apply GoesMk.upd | dsimp only)

theorem blowPending_goes {ps : List Part} {s0 : State} (s : State) (h : Goes ps s0 s) (w : [.tamper, .log, .fw] ⊆ ps) :
    Goes ps s0 (blowPending s) := by
  unfold blowPending
  split
  · exact h
  · refine measureLife_goes _ (h.move (fun l => ?_) (tamperOnly w rfl)) (reach w rfl)
    obtain ⟨l1, l2, l3, l4, l5⟩ := l
    exact ⟨⟨l1, l2, l3, l4, Nat.min_le_left _ _⟩, Nat.le_refl _, Nat.le_refl _, Nat.le_refl _,
      Nat.le_min.2 ⟨l5, Nat.le_succ _⟩, Eq.refl _⟩

theorem logRecorded_goes {ps : List Part} {s0 : State} (s : State) (h : Goes ps s0 s) (w : [.tamper, .log] ⊆ ps) :
    Goes ps s0 (logRecorded s) := by
  unfold logRecorded
  repeat' (first
    | with_reducible assumption | exact reach w (Eq.refl _) | intro _ | with_reducible apply tamperLog_goes
    | with_reducible apply Goes.foldl | with_reducible apply Goes.foldl1 | with_reducible apply Goes.foldl2
    | exact Or.inr (reachOne w (Eq.refl _)) | exact Or.inr ⟨reachOne w (Eq.refl _), rfl⟩ | exact Or.inl rfl
    | simp only [Goes.mk_eq] | with_reducible apply GoesMk.upd | dsimp only)

theorem vbatStep_goes {ps : List Part} {s0 : State} (s : State) (h : Goes ps s0 s) (w : [.keys, .tamper, .log, .fw] ⊆
    ps) : Goes ps s0 (vbatStep s) := by
  unfold vbatStep
  repeat' (first
    | with_reducible assumption | exact reach w (Eq.refl _) | with_reducible apply logEv_goes
    | with_reducible apply updFacts_goes | with_reducible apply logRecorded_goes
    | with_reducible apply blowPending_goes | with_reducible apply Goes.ite | exact Or.inr (reachOne w (Eq.refl _))
    | exact Or.inr ⟨reachOne w (Eq.refl _), rfl⟩ | exact Or.inl rfl | simp only [Goes.mk_eq]
    | with_reducible apply GoesMk.upd | split | dsimp only)

theorem deriveSlots_goes {ps : List Part} {s0 : State} (s : State) (h : Goes ps s0 s) (w : [.keys] ⊆ ps) : Goes ps s0
    (deriveSlots s) := by
  unfold deriveSlots
  repeat' (first
    | with_reducible assumption | exact Or.inr (reachOne w (Eq.refl _)) | exact Or.inr ⟨reachOne w (Eq.refl _), rfl⟩
    | exact Or.inl rfl | simp only [Goes.mk_eq] | with_reducible apply GoesMk.upd | dsimp only)

theorem checkBbkek_goes {ps : List Part} {s0 : State} (s : State) (h : Goes ps s0 s) (w : [.keys] ⊆ ps) : Goes ps s0
    (checkBbkek s) := by
  unfold checkBbkek
  repeat' (first
    | with_reducible assumption | exact reach w (Eq.refl _) | with_reducible apply wipeOwnerSlots_goes
    | with_reducible apply eraseBbkek_goes | with_reducible apply Goes.ite | exact Or.inr (reachOne w (Eq.refl _))
    | exact Or.inr ⟨reachOne w (Eq.refl _), rfl⟩ | exact Or.inl rfl | simp only [Goes.mk_eq]
    | with_reducible apply GoesMk.upd | split | dsimp only)

theorem blowSvn_goes {ps : List Part} {s0 : State} (c svn : Nat) (s : State) (h : Goes ps s0 s) (w : [.log, .fw] ⊆ ps)
    : Goes ps s0 (blowSvn c svn s) := by
  unfold blowSvn
  repeat' (first
    | with_reducible assumption | exact reach w (Eq.refl _) | with_reducible apply measureLife_goes
    | with_reducible apply Goes.ite | exact Or.inr (reachOne w (Eq.refl _)) | exact Or.inl rfl
    | simp only [Goes.mk_eq] | with_reducible apply GoesMk.upd | split | dsimp only)

theorem takeImage_goes {ps : List Part} {s0 : State} (c : Nat) (i : FwImage) (s : State) (h : Goes ps s0 s) (w :
    [.log, .fw] ⊆ ps) : Goes ps s0 (takeImage c i s) := by
  unfold takeImage
  repeat' (first
    | with_reducible assumption | exact reach w (Eq.refl _) | with_reducible apply blowSvn_goes
    | with_reducible apply measure_goes | dsimp only)

theorem bootComp_goes {ps : List Part} {s0 t : State} {c : Nat} {s : State} (e : bootComp c s = some t) (h : Goes ps s0 s)
    (w : [.log, .fw] ⊆ ps) : Goes ps s0 t := by
  unfold bootComp at e
  split at e
  · cases e; exact takeImage_goes _ _ _ h w
  · split at e
    · cases e
      refine takeImage_goes _ _ _ ?_ w
      repeat' (first | with_reducible assumption | exact Or.inr (reachOne w (Eq.refl _)) | exact Or.inl rfl |
        simp only [Goes.mk_eq] | with_reducible apply GoesMk.upd)
    · cases e

theorem bootFailLog_goes {ps : List Part} {s0 : State} (type sev c : Nat) (s : State) (h : Goes ps s0 s) (w : [.log,
    .freeCtr] ⊆ ps) : Goes ps s0 (bootFailLog type sev c s) := by
  unfold bootFailLog
  repeat' (first
    | with_reducible assumption | exact reach w (Eq.refl _) | with_reducible apply fresh_goes
    | refine fresh_pair (by with_reducible assumption) ?_ ?_ | with_reducible apply logEv_goes | dsimp only)

theorem bootPatch_goes {ps : List Part} {s0 : State} (s : State) (h : Goes ps s0 s) (w : [.log, .fw, .freeCtr] ⊆ ps) : Goes ps s0 (bootPatch s) := by
  unfold bootPatch
  cases e : bootComp 0 s with
  | none => exact bootFailLog_goes _ _ _ _ h (reach w rfl)
  | some t => exact bootComp_goes e h (reach w rfl)

theorem bootImages_goes {ps : List Part} {s0 : State} (l : List Nat) (s : State) (h : Goes ps s0 s) (w : [.log, .fw, .freeCtr] ⊆ ps) :
    Goes ps s0 (bootImages l s).2 := by
  induction l generalizing s with
  | nil => exact h
  | cons c l ih =>
    unfold bootImages
    split
    · exact ih _ (bootComp_goes (by with_reducible assumption) h (reach w rfl))
    · exact bootFailLog_goes _ _ _ _ h (reach w rfl)

theorem bootImages_pair {ps : List Part} {s0 s1 : State} {l : List Nat} {s : State} {z} (e : bootImages l s = (z, s1)) (h : Goes ps s0 s)
    (w : [.log, .fw, .freeCtr] ⊆ ps) : Goes ps s0 s1 := by
  have g := bootImages_goes (s0 := s0) l s h w
  rw [e] at g; exact g

theorem layout_goes {ps : List Part} {s0 : State} (s : State) (h : Goes ps s0 s) (w : [.hawk, .sealer] ⊆ ps) : Goes ps
    s0 (layout s) := by
  unfold layout
  repeat' (first
    | with_reducible assumption | exact Or.inr (reachOne w (Eq.refl _)) | exact Or.inl rfl | simp only [Goes.mk_eq]
    | with_reducible apply GoesMk.upd | dsimp only)

theorem trained_goes {ps : List Part} {s0 : State} (s : State) (h : Goes ps s0 s) (w : [.sealer] ⊆ ps) : Goes ps s0
    (trained s) := by
  unfold trained
  repeat' (first
    | with_reducible assumption | exact Or.inr (reachOne w (Eq.refl _)) | exact Or.inl rfl | simp only [Goes.mk_eq]
    | with_reducible apply GoesMk.upd | dsimp only)

theorem powerUpHbm_goes {ps : List Part} {s0 : State} (s : State) (h : Goes ps s0 s) (w : [.sys, .time, .ports,
    .bpcfg, .skim, .hawk, .trowel, .publ, .eng, .pke, .rng, .sealer, .log, .freeCtr, .outbox] ⊆ ps) : Goes ps s0
    (powerUpHbm s) := by
  unfold powerUpHbm
  repeat' (first
    | with_reducible assumption | exact reach w (Eq.refl _) | with_reducible apply layout_goes
    | with_reducible apply retirePc_goes | with_reducible apply trained_goes | with_reducible apply freeOctets_goes
    | refine freeOctets_pair (by with_reducible assumption) ?_ ?_ | with_reducible apply Goes.ite
    | exact Or.inr (reachOne w (Eq.refl _)) | exact Or.inr ⟨reachOne w (Eq.refl _), rfl⟩
    | exact Or.inr ⟨reachOne w (Eq.refl _), fun c => c⟩
    | exact Or.inr ⟨reachOne w (Eq.refl _), rfl, rfl, rfl, rfl, rfl⟩ | exact Or.inl rfl | simp only [Goes.mk_eq]
    | with_reducible apply GoesMk.upd | split | dsimp only)

theorem sealedLost_goes {ps : List Part} {s0 : State} (s : State) (h : Goes ps s0 s) (w : [.fns, .journal, .skim,
    .hawk, .trowel, .publ, .sealer] ⊆ ps) : Goes ps s0 (sealedLost s) := by
  unfold sealedLost
  repeat' (first
    | with_reducible assumption | exact Or.inr (reachOne w (Eq.refl _))
    | exact Or.inr ⟨reachOne w (Eq.refl _), fun c => c⟩ | exact Or.inr ⟨reachOne w (Eq.refl _), fun c => canon_mdel c⟩
    | exact Or.inr ⟨reachOne w (Eq.refl _), fun _ _ h => absurd h List.not_mem_nil⟩
    | (refine Or.inr ⟨reachOne w (Eq.refl _), fun c => canon_map c ?_⟩; intro _ h; (try dsimp only); (repeat' split); all_goals exact canonProg_of h rfl rfl rfl)
    | exact Or.inl rfl | simp only [Goes.mk_eq] | with_reducible apply GoesMk.upd | dsimp only)

theorem checkRegions_goes {ps : List Part} {s0 : State} (s : State) (h : Goes ps s0 s) (w : [.fns, .journal, .skim,
    .hawk, .trowel, .publ, .sealer, .log, .freeCtr] ⊆ ps) : Goes ps s0 (checkRegions s) := by
  unfold checkRegions
  repeat' (first
    | with_reducible assumption | exact reach w (Eq.refl _) | intro _ | with_reducible apply fresh_goes
    | refine fresh_pair (by with_reducible assumption) ?_ ?_ | with_reducible apply logEv_goes
    | with_reducible apply sealedLost_goes | with_reducible apply Goes.foldl | with_reducible apply Goes.foldl1
    | with_reducible apply Goes.foldl2 | with_reducible apply Goes.ite | split | dsimp only)

theorem hbmStep_goes {ps : List Part} {s0 t : State} {s : State} (e : hbmStep s = some t) (h : Goes ps s0 s) (w : [.sys, .fns, .journal, .time, .ports, .bpcfg, .skim, .hawk, .trowel, .publ, .eng, .pke, .rng, .sealer, .log, .freeCtr, .outbox] ⊆ ps) :
    Goes ps s0 t := by
  unfold hbmStep at e
  dsimp only at e
  split at e
  · cases e
  · cases e
    have k : Goes ps s0 (if s.fw.facts.powerUp then powerUpHbm s else checkRegions (trained s)) :=
      Goes.ite (powerUpHbm_goes _ h (reach w rfl)) (checkRegions_goes _ (trained_goes _ h (reach w rfl)) (reach w rfl))
    split
    · exact retirePc_goes _ _ k (reach w rfl)
    · exact k

theorem badSlot_goes {ps : List Part} {s0 : State} (k : Nat) (s : State) (h : Goes ps s0 s) (w : [.keys, .log] ⊆ ps) :
    Goes ps s0 (badSlot k s) := by
  unfold badSlot
  repeat' (first
    | with_reducible assumption | exact reach w (Eq.refl _) | with_reducible apply logEv_goes
    | with_reducible apply event_goes | with_reducible apply cntKst_goes | with_reducible apply Goes.ite
    | exact Or.inr (reachOne w (Eq.refl _)) | exact Or.inr ⟨reachOne w (Eq.refl _), rfl⟩ | exact Or.inl rfl
    | simp only [Goes.mk_eq] | with_reducible apply GoesMk.upd | split | dsimp only)

theorem keysStep_goes {ps : List Part} {s0 : State} (s : State) (h : Goes ps s0 s) (w : [.keys, .log, .fw] ⊆ ps) :
    Goes ps s0 (keysStep s) := by
  unfold keysStep
  repeat' (first
    | with_reducible assumption | exact reach w (Eq.refl _) | intro _ | with_reducible apply badSlot_goes
    | with_reducible apply blowSvn_goes | with_reducible apply Goes.foldl | with_reducible apply Goes.foldl1
    | with_reducible apply Goes.foldl2 | with_reducible apply Goes.ite | exact Or.inr (reachOne w (Eq.refl _))
    | exact Or.inr ⟨reachOne w (Eq.refl _), rfl⟩ | exact Or.inl rfl | simp only [Goes.mk_eq]
    | with_reducible apply GoesMk.upd | split | dsimp only)

theorem coresStep_goes {ps : List Part} {s0 : State} (s : State) (h : Goes ps s0 s) (w : [.journal, .hawk, .trowel,
    .pair, .span, .log, .budget, .fw, .freeCtr, .outbox] ⊆ ps) : Goes ps s0 (coresStep s) := by
  unfold coresStep
  repeat' (first
    | with_reducible assumption | exact reach w (Eq.refl _) | intro _ | with_reducible apply replan_goes
    | with_reducible apply retireCore_goes | with_reducible apply updFacts_goes | with_reducible apply Goes.foldl
    | with_reducible apply Goes.foldl1 | with_reducible apply Goes.foldl2 | with_reducible apply Goes.ite
    | exact Or.inr (reachOne w (Eq.refl _)) | exact Or.inr ⟨reachOne w (Eq.refl _), fun c => c⟩ | exact Or.inl rfl
    | simp only [Goes.mk_eq] | with_reducible apply GoesMk.upd | split | dsimp only)

theorem finishStart_goes {ps : List Part} {s0 : State} (m : Nat) (s : State) (h : Goes ps s0 s) (w : [.sys, .time, .ports, .skim, .publ, .log, .fw, .outbox] ⊆ ps) (hm : m ≤ 7) :
    Goes ps s0 (finishStart m s) := by
  have k := measure_goes 12 (Config.hash 5 (tamperImage s)) _ (measureOfficers_goes _ (measureLife_goes _ h (reach w rfl)) (reach w rfl)) (reach w rfl)
  unfold finishStart
  refine enablePorts_goes _ (changeMode_goes _ _ ?_ (reach w rfl) hm) (reach w rfl)
  repeat' (first | with_reducible assumption | exact Or.inr (reachOne w (Eq.refl _)) |
      exact Or.inr ⟨reachOne w (Eq.refl _), rfl, rfl, rfl, rfl, rfl⟩ | exact Or.inl rfl | simp only [Goes.mk_eq] |
      with_reducible apply GoesMk.upd)

theorem lockStart_goes {ps : List Part} {s0 : State} (s : State) (h : Goes ps s0 s) (w : [.sys] ⊆ ps) : Goes ps s0
    (lockStart s) := by
  unfold lockStart
  repeat' (first
    | with_reducible assumption | exact Or.inr (reachOne w (Eq.refl _)) | exact Or.inr ⟨reachOne w (Eq.refl _), rfl⟩
    | exact Or.inr ⟨reachOne w (Eq.refl _), rfl, rfl, rfl, rfl, rfl⟩ | exact Or.inl rfl | simp only [Goes.mk_eq]
    | with_reducible apply GoesMk.upd | dsimp only)

theorem haltStart_goes {ps : List Part} {s0 : State} (s : State) (h : Goes ps s0 s) (w : [.sys, .time, .ports, .skim,
    .hawk, .trowel, .publ, .eng, .pke, .log, .outbox] ⊆ ps) : Goes ps s0 (haltStart s) := by
  unfold haltStart
  repeat' (first
    | with_reducible assumption | exact reach w (Eq.refl _) | with_reducible apply changeMode_goes
    | with_reducible apply stopDevice_goes | exact Or.inr (reachOne w (Eq.refl _))
    | exact Or.inr ⟨reachOne w (Eq.refl _), rfl⟩ | exact Or.inr ⟨reachOne w (Eq.refl _), fun c => c⟩
    | exact Or.inr ⟨reachOne w (Eq.refl _), rfl, rfl, rfl, rfl, rfl⟩ | exact Or.inl rfl | simp only [Goes.mk_eq]
    | with_reducible apply GoesMk.upd | dsimp only | omega)

theorem startMode_le (s : State) (h : startMode s ≠ 8) : startMode s ≤ 7 := by
  unfold startMode at h ⊢
  repeat' split
  all_goals first | omega | simp_all

theorem decideStart_goes {ps : List Part} {s0 : State} (s : State) (h : Goes ps s0 s) (w : [.sys, .time, .ports, .skim, .publ, .pair, .log, .fw, .outbox] ⊆ ps) :
    Goes ps s0 (decideStart s) := by
  unfold decideStart
  dsimp only
  split
  · refine enablePorts_goes _ ?_ (reach w rfl)
    repeat' (first | with_reducible assumption | exact Or.inr (reachOne w (Eq.refl _)) | exact Or.inl rfl |
      simp only [Goes.mk_eq] | with_reducible apply GoesMk.upd)
  · exact finishStart_goes _ _ (lockStart_goes _ h (reach w rfl)) (reach w rfl) (startMode_le s (by assumption))

theorem startRest_goes {ps : List Part} {s0 : State} (s : State) (h : Goes ps s0 s) (w : [.sys, .fns, .journal, .time, .ports, .bpcfg, .skim, .hawk, .trowel, .publ, .eng, .pke, .rng, .keys, .sealer, .pair, .span, .log, .budget, .fw, .freeCtr, .outbox] ⊆ ps) : Goes ps s0 (startRest s) := by
  unfold startRest
  split
  · exact haltStart_goes _ (logEv_goes _ _ _ _ (fresh_goes _ h (reach w rfl)) (reach w rfl)) (reach w rfl)
  · split
    · exact finishStart_goes _ _ (deriveSlots_goes _ h (reach w rfl)) (reach w rfl) (by split <;> omega)
    · have k := bootImages_goes [1, 2, 3, 4, 5, 6, 7] _ (bootPatch_goes _ (checkBbkek_goes _ (deriveSlots_goes _ h
        (reach w rfl)) (reach w rfl)) (reach w rfl)) (reach w rfl)
      split
      · rename_i e; rw [e] at k; dsimp only at k; exact haltStart_goes _ k (reach w rfl)
      · rename_i e; rw [e] at k; dsimp only at k
        split
        · exact haltStart_goes _ k (reach w rfl)
        · rename_i e'
          have k' := keysStep_goes _ (hbmStep_goes e' (startValues_goes _ k (reach w rfl)) (reach w rfl)) (reach w rfl)
          exact Goes.ite (haltStart_goes _ k' (reach w rfl)) (decideStart_goes _ (coresStep_goes _ k' (reach w rfl)) (reach w rfl))

theorem startUp_goes {ps : List Part} {s0 : State} (s : State) (h : Goes ps s0 s) (w : [.sys, .fns, .journal, .time,
    .ports, .bpcfg, .skim, .hawk, .trowel, .publ, .eng, .pke, .rng, .keys, .sealer, .tamper, .pair, .span, .log,
    .budget, .fw, .freeCtr, .outbox] ⊆ ps) : Goes ps s0 (startUp s) := by
  unfold startUp
  repeat' (first
    | with_reducible assumption | exact reach w (Eq.refl _) | with_reducible apply vbatStep_goes
    | with_reducible apply startRest_goes | with_reducible apply Goes.ite | exact Or.inr (reachOne w (Eq.refl _))
    | exact Or.inr ⟨reachOne w (Eq.refl _), rfl⟩ | exact Or.inr ⟨reachOne w (Eq.refl _), fun c => c⟩
    | exact Or.inr ⟨reachOne w (Eq.refl _), rfl, rfl, rfl, rfl, rfl⟩ | exact Or.inl rfl | simp only [Goes.mk_eq]
    | with_reducible apply GoesMk.upd | split | dsimp only)

theorem resetDevice_goes {ps : List Part} {s0 : State} (s : State) (h : Goes ps s0 s) (w : [.sys, .fns, .journal,
    .deferred, .time, .ports, .bpcfg, .skim, .hawk, .trowel, .publ, .eng, .pke, .rng, .keys, .sealer, .tamper, .pair,
    .span, .log, .budget, .fw, .injected, .freeCtr, .outbox] ⊆ ps) : Goes ps s0 (resetDevice s) := by
  unfold resetDevice
  repeat' (first
    | with_reducible assumption | exact reach w (Eq.refl _) | with_reducible apply startUp_goes
    | with_reducible apply updFacts_goes | with_reducible apply deviceReset_goes
    | with_reducible apply endedFirst_goes | exact Or.inr (reachOne w (Eq.refl _))
    | exact Or.inr ⟨reachOne w (Eq.refl _), rfl⟩ | exact Or.inr ⟨reachOne w (Eq.refl _), fun c => c⟩
    | exact Or.inr ⟨reachOne w (Eq.refl _), rfl, rfl, rfl, rfl, rfl⟩ | exact Or.inl rfl | simp only [Goes.mk_eq]
    | with_reducible apply GoesMk.upd | dsimp only)

theorem writeReset_goes {ps : List Part} {s0 : State} (v : W32) (s : State) (h : Goes ps s0 s) (w : [.sys, .fns,
    .journal, .deferred, .time, .ports, .bpcfg, .skim, .hawk, .trowel, .publ, .eng, .pke, .rng, .keys, .sealer,
    .tamper, .pair, .span, .log, .budget, .fw, .injected, .freeCtr, .outbox] ⊆ ps) : Goes ps s0 (writeReset v s) := by
  unfold writeReset
  repeat' (first
    | with_reducible assumption | exact reach w (Eq.refl _) | with_reducible apply resetDevice_goes
    | with_reducible apply event_goes | with_reducible apply Goes.ite | split | dsimp only)

theorem execSysResetWrite_goes {ps : List Part} {s0 : State} (v : W32) (s : State) (h : Goes ps s0 s) (w : [.sys,
    .fns, .journal, .deferred, .time, .ports, .bpcfg, .skim, .hawk, .trowel, .publ, .eng, .pke, .rng, .keys, .sealer,
    .tamper, .pair, .span, .log, .budget, .fw, .injected, .freeCtr, .outbox] ⊆ ps) : GoesTo ps s0 (execSysResetWrite v
    s) := by
  unfold execSysResetWrite
  repeat' (first
    | with_reducible assumption | exact reach w (Eq.refl _) | intro _ | apply GoesTo.next
    | with_reducible apply barWrite_goes | with_reducible apply writeReset_goes | dsimp only)

theorem execPorstNDeassert_goes {ps : List Part} {s0 : State} (b : BootFacts) (s : State) (h : Goes ps s0 s) (w :
    [.sys, .fns, .journal, .time, .ports, .bpcfg, .skim, .hawk, .trowel, .publ, .eng, .pke, .rng, .keys, .sealer,
    .tamper, .pair, .span, .log, .budget, .fw, .freeCtr, .outbox] ⊆ ps) : GoesTo ps s0 (execPorstNDeassert b s) := by
  unfold execPorstNDeassert
  repeat' (first
    | with_reducible assumption | exact reach w (Eq.refl _) | apply GoesTo.next | with_reducible apply powerLoss_goes
    | with_reducible apply startUp_goes | with_reducible apply updFacts_goes | with_reducible apply Goes.ite
    | exact Or.inr (reachOne w (Eq.refl _)) | exact Or.inr ⟨reachOne w (Eq.refl _), rfl⟩
    | exact Or.inr ⟨reachOne w (Eq.refl _), fun c => c⟩
    | exact Or.inr ⟨reachOne w (Eq.refl _), rfl, rfl, rfl, rfl, rfl⟩ | exact Or.inl rfl | simp only [Goes.mk_eq]
    | with_reducible apply GoesMk.upd | split | dsimp only)

theorem execAdvanceRetry_goes {ps : List Part} {s0 : State} (s : State) (h : Goes ps s0 s) (w : [.sys, .fns, .journal,
    .time, .ports, .bpcfg, .skim, .hawk, .trowel, .publ, .eng, .pke, .rng, .keys, .sealer, .tamper, .pair, .span,
    .log, .budget, .fw, .freeCtr, .outbox] ⊆ ps) : GoesTo ps s0 (execAdvanceRetry s) := by
  unfold execAdvanceRetry
  repeat' (first
    | with_reducible assumption | exact reach w (Eq.refl _) | apply GoesTo.next | with_reducible apply startRest_goes
    | with_reducible apply blowPending_goes | with_reducible apply Goes.ite | split | dsimp only)

theorem genUp_goes {ps : List Part} {s0 : State} (s : State) (h : Goes ps s0 s) (w : [.pair] ⊆ ps) : Goes ps s0 (genUp
    s) := by
  unfold genUp
  repeat' (first
    | with_reducible assumption | with_reducible apply Goes.ite | exact Or.inr (reachOne w (Eq.refl _))
    | exact Or.inl rfl | simp only [Goes.mk_eq] | with_reducible apply GoesMk.upd | split | dsimp only)

theorem execPairListenEnd_goes {ps : List Part} {s0 : State} (s : State) (h : Goes ps s0 s) (w : [.sys, .time, .ports,
    .skim, .publ, .pair, .log, .fw, .outbox] ⊆ ps) : GoesTo ps s0 (execPairListenEnd s) := by
  unfold execPairListenEnd
  repeat' (first
    | with_reducible assumption | exact reach w (Eq.refl _) | apply GoesTo.next
    | with_reducible apply finishStart_goes | with_reducible apply lockStart_goes | with_reducible apply genUp_goes
    | with_reducible apply Goes.ite | exact Or.inr (reachOne w (Eq.refl _))
    | exact Or.inr ⟨reachOne w (Eq.refl _), rfl⟩ | exact Or.inr ⟨reachOne w (Eq.refl _), rfl, rfl, rfl, rfl, rfl⟩
    | exact Or.inl rfl | simp only [Goes.mk_eq] | with_reducible apply GoesMk.upd | split | dsimp only | omega)

end Sys2Proof.Machine
end

