-- ==== Sys2Proof/Laws/GoesEzs.lean ====
section
/-! SUPPORT. Laws/GoesEzs.lean: what every operation of the files EzCore, EzAlu, EzDual, EzFlow, EzImm, EzMac, EzMem does to
the state at most (f_goes; f_pair for one that answers a pair): the parts it reaches, legality kept, counters onward. -/
set_option linter.unusedSimpArgs false
namespace Sys2Proof.Machine

theorem lathStop_goes {ps : List Part} {s0 : State} (p : Nat) (g : Prog) (s : State) (h : Goes ps s0 s) (w :
    [.journal, .hawk, .trowel, .pair, .span, .log, .budget, .freeCtr, .outbox] ⊆ ps) : Goes ps s0 (lathStop p g s) :=
    by
  unfold lathStop
  repeat' (first
    | with_reducible assumption | exact reach w (Eq.refl _) | with_reducible apply retireBut_goes
    | with_reducible apply stopWork_goes | dsimp only)

theorem raiseExc_goes {ps : List Part} {s0 : State} (p code : Nat) (g : Prog) (s : State) (h : Goes ps s0 s) (w :
    [.journal, .hawk, .trowel, .pair, .span, .log, .budget, .freeCtr, .outbox] ⊆ ps) : Goes ps s0 (raiseExc p code g
    s) := by
  unfold raiseExc
  repeat' (first
    | with_reducible assumption | exact reach w (Eq.refl _) | with_reducible apply lathStop_goes
    | with_reducible apply stopWork_goes | with_reducible apply Goes.ite | split | dsimp only)

theorem issue_goes {ps : List Part} {s0 : State} (p : Nat) (w_ : W32) (k : Prog → State → State) (s : State) (h : Goes
    ps s0 s) (hk : ∀ a0 s, Goes ps s0 s → Goes ps s0 (k a0 s)) (w : [.journal, .hawk, .trowel, .pair, .span, .log,
    .budget, .freeCtr, .outbox] ⊆ ps) : Goes ps s0 (issue p w_ k s) := by
  unfold issue
  repeat' (first
    | with_reducible assumption | with_reducible exact fun _ h => (h : canonProg (fetched _ _))
    | with_reducible exact fun _ h => h | with_reducible exact id_canon
    | with_reducible exact fun _ h => canonProg_of h rfl rfl rfl | exact reach w (Eq.refl _) | apply hk
    | with_reducible apply raiseExc_goes | with_reducible apply updProg_goes | with_reducible apply Goes.ite
    | exact Or.inr (reachOne w (Eq.refl _)) | exact Or.inr ⟨reachOne w (Eq.refl _), fun c => c⟩ | exact Or.inl rfl
    | simp only [Goes.mk_eq] | with_reducible apply GoesMk.upd | split | dsimp only)

theorem finish_goes {ps : List Part} {s0 : State} (p cost : Nat) (pc : W32) (f : Prog → Prog) (s : State) (h : Goes ps
    s0 s) (hf : ∀  g, canonProg g → canonProg (f  g)) (w : [.trowel, .budget] ⊆ ps) : Goes ps s0 (finish p cost pc f
    s) := by
  unfold finish
  repeat' (first
    | with_reducible assumption | with_reducible exact fun _ h => h | with_reducible exact id_canon
    | with_reducible exact fun _ h => canonProg_of h rfl rfl rfl | exact reach w (Eq.refl _)
    | with_reducible exact fun _ h => hf _ h | with_reducible exact fun _ h => canonProg_of (hf _ h) rfl rfl rfl
    | with_reducible apply updProg_goes | exact Or.inr (reachOne w (Eq.refl _))
    | exact Or.inr ⟨reachOne w (Eq.refl _), fun c => c⟩ | exact Or.inl rfl | simp only [Goes.mk_eq]
    | with_reducible apply GoesMk.upd | dsimp only)

theorem finishNext_goes {ps : List Part} {s0 : State} (p cost : Nat) (f : Prog → Prog) (g : Prog) (s : State) (h :
    Goes ps s0 s) (hf : ∀  g, canonProg g → canonProg (f  g)) (w : [.trowel, .budget] ⊆ ps) : Goes ps s0 (finishNext p
    cost f g s) := by
  unfold finishNext
  repeat' (first
    | with_reducible assumption | with_reducible exact fun _ h => h | with_reducible exact id_canon
    | with_reducible exact fun _ h => canonProg_of h rfl rfl rfl | exact reach w (Eq.refl _)
    | with_reducible exact fun _ h => hf _ h | with_reducible exact fun _ h => canonProg_of (hf _ h) rfl rfl rfl
    | with_reducible apply finish_goes | dsimp only)

theorem costUpTo_goes {ps : List Part} {s0 : State} (n : Nat) (s : State) (h : Goes ps s0 s) (w : [.freeCtr] ⊆ ps) :
    Goes ps s0 (costUpTo n s).2 := by
  unfold costUpTo
  repeat' (first
    | with_reducible assumption | exact Or.inr (reachOne w (Eq.refl _)) | exact Or.inl rfl | simp only [Goes.mk_eq]
    | with_reducible apply GoesMk.upd | split | dsimp only)

theorem costUpTo_pair {ps : List Part} {s0 s1 : State} {n : Nat} {s : State} {z} (e : costUpTo n s = (z, s1)) (h :
    Goes ps s0 s) (w : [.freeCtr] ⊆ ps) : Goes ps s0 s1 := by
  have g := costUpTo_goes (s0 := s0) n s h w
  rw [e] at g; exact g

theorem costOf_goes {ps : List Part} {s0 : State} (c : Nat ⊕ Nat) (s : State) (h : Goes ps s0 s) (w : [.freeCtr] ⊆ ps)
    : Goes ps s0 (costOf c s).2 := by
  unfold costOf
  repeat' (first
    | with_reducible assumption | exact reach w (Eq.refl _) | with_reducible apply costUpTo_goes
    | refine costUpTo_pair (by with_reducible assumption) ?_ ?_ | exact Or.inr (reachOne w (Eq.refl _))
    | exact Or.inl rfl | simp only [Goes.mk_eq] | with_reducible apply GoesMk.upd | split | dsimp only)

theorem costOf_pair {ps : List Part} {s0 s1 : State} {c : Nat ⊕ Nat} {s : State} {z} (e : costOf c s = (z, s1)) (h :
    Goes ps s0 s) (w : [.freeCtr] ⊆ ps) : Goes ps s0 s1 := by
  have g := costOf_goes (s0 := s0) c s h w
  rw [e] at g; exact g

theorem runLoad_goes {ps : List Part} {s0 : State} (p : Nat) (a : Fld4) (mode : BitVec 3) (b : Fld4) (sc : BitVec 2)
    (disp : BitVec 9) (size : Nat) (put : List Byte → Prog → Prog) (g : Prog) (s : State) (h : Goes ps s0 s) (hput : ∀
    a0 g, canonProg g → canonProg (put a0 g)) (w : [.journal, .hawk, .trowel, .pair, .span, .log, .budget, .freeCtr,
    .outbox] ⊆ ps) : Goes ps s0 (runLoad p a mode b sc disp size put g s) := by
  unfold runLoad
  repeat' (first
    | with_reducible assumption | (intro _ h; exact baseUpdate_canon (hput _ _ (canonProg_of h rfl rfl rfl)))
    | with_reducible exact fun _ h => h | with_reducible exact id_canon
    | with_reducible exact fun _ h => canonProg_of h rfl rfl rfl | exact reach w (Eq.refl _)
    | with_reducible exact fun _ h => hput _ h | with_reducible exact fun _ h => canonProg_of (hput _ h) rfl rfl rfl
    | with_reducible exact fun _ h => baseUpdate_canon (hput _ _ h) | with_reducible apply raiseExc_goes
    | with_reducible apply updProg_goes | with_reducible apply costOf_goes
    | refine costOf_pair (by with_reducible assumption) ?_ ?_ | with_reducible apply openWork_goes
    | with_reducible apply finishNext_goes | with_reducible apply Goes.ite | exact Or.inr (reachOne w (Eq.refl _))
    | exact Or.inr ⟨reachOne w (Eq.refl _), fun c => c⟩ | exact Or.inl rfl | simp only [Goes.mk_eq]
    | with_reducible apply GoesMk.upd | split | dsimp only)

theorem storeTo_canon {g : Prog} {a : W32} {l : List Byte} {f : Prog → Prog} (e : storeTo g a l = .ok f) :
    ∀ k, canonProg k → canonProg (f k) := by
  unfold storeTo at e
  intro k h
  dsimp only at e
  split at e
  · cases e
  · split at e
    · cases e
    · cases e; exact data_canon h
    · split at e
      · cases e; exact mbox_canon h
      · cases e
    · split at e
      · cases e
      · cases e; exact ⟨h.1, memWf_memWrN _ _ _ h.2.1, h.2.2⟩
    · cases e

theorem runStore_goes {ps : List Part} {s0 : State} (p : Nat) (a : Fld4) (mode : BitVec 3) (b : Fld4) (sc : BitVec 2)
    (disp : BitVec 9) (octs : List Byte) (g : Prog) (s : State) (h : Goes ps s0 s) (w : [.journal, .hawk, .trowel,
    .pair, .span, .log, .budget, .freeCtr, .outbox] ⊆ ps) : Goes ps s0 (runStore p a mode b sc disp octs g s) := by
  unfold runStore
  repeat' (first
    | with_reducible assumption | exact fun _ h => baseUpdate_canon (storeTo_canon (by with_reducible assumption) _ h)
    | with_reducible exact fun _ h => h | with_reducible exact id_canon
    | with_reducible exact fun _ h => canonProg_of h rfl rfl rfl | exact reach w (Eq.refl _)
    | with_reducible apply raiseExc_goes | with_reducible apply finishNext_goes
    | exact Or.inr (reachOne w (Eq.refl _)) | exact Or.inr ⟨reachOne w (Eq.refl _), fun c => c⟩ | exact Or.inl rfl
    | simp only [Goes.mk_eq] | with_reducible apply GoesMk.upd | split | dsimp only)

theorem callTo_goes {ps : List Part} {s0 : State} (p : Nat) (target : W32) (g : Prog) (s : State) (h : Goes ps s0 s)
    (w : [.journal, .hawk, .trowel, .pair, .span, .log, .budget, .freeCtr, .outbox] ⊆ ps) : Goes ps s0 (callTo p
    target g s) := by
  unfold callTo
  repeat' (first
    | with_reducible assumption | (intro _ h; exact gset_canon (data_canon h)) | with_reducible exact fun _ h => h
    | with_reducible exact id_canon | with_reducible exact fun _ h => canonProg_of h rfl rfl rfl
    | with_reducible exact fun _ h => gset_canon (canonProg_of h rfl rfl rfl)
    | with_reducible exact fun _ h => canonProg_of (gset_canon h) rfl rfl rfl
    | with_reducible exact fun _ h => gset_canon h | exact reach w (Eq.refl _) | with_reducible apply raiseExc_goes
    | with_reducible apply finish_goes | with_reducible apply Goes.ite | exact Or.inr (reachOne w (Eq.refl _))
    | exact Or.inr ⟨reachOne w (Eq.refl _), fun c => c⟩ | exact Or.inl rfl | simp only [Goes.mk_eq]
    | with_reducible apply GoesMk.upd | split | dsimp only)

theorem retFrom_goes {ps : List Part} {s0 : State} (p : Nat) (g : Prog) (s : State) (h : Goes ps s0 s) (w : [.journal,
    .hawk, .trowel, .pair, .span, .log, .budget, .freeCtr, .outbox] ⊆ ps) : Goes ps s0 (retFrom p g s) := by
  unfold retFrom
  repeat' (first
    | with_reducible assumption | with_reducible exact fun _ h => h | with_reducible exact id_canon
    | with_reducible exact fun _ h => canonProg_of h rfl rfl rfl
    | with_reducible exact fun _ h => gset_canon (canonProg_of h rfl rfl rfl)
    | with_reducible exact fun _ h => canonProg_of (gset_canon h) rfl rfl rfl
    | with_reducible exact fun _ h => gset_canon h | exact reach w (Eq.refl _) | with_reducible apply raiseExc_goes
    | with_reducible apply finish_goes | with_reducible apply Goes.ite | exact Or.inr (reachOne w (Eq.refl _))
    | exact Or.inr ⟨reachOne w (Eq.refl _), fun c => c⟩ | exact Or.inl rfl | simp only [Goes.mk_eq]
    | with_reducible apply GoesMk.upd | split | dsimp only)

theorem runAlu_goes {ps : List Part} {s0 : State} (p fn : Nat) (s : Bool) (d a b : Fld4) (f : W32 → W32 → Alu) (cost :
    Nat) (st : State) (h : Goes ps s0 st) (w : [.journal, .hawk, .trowel, .pair, .span, .log, .budget, .freeCtr,
    .outbox] ⊆ ps) : Goes ps s0 (runAlu p fn s d a b f cost st) := by
  unfold runAlu
  repeat' (first
    | with_reducible assumption | with_reducible exact fun _ h => h | with_reducible exact id_canon
    | with_reducible exact fun _ h => canonProg_of h rfl rfl rfl
    | with_reducible exact fun _ h => gset_canon (canonProg_of h rfl rfl rfl)
    | with_reducible exact fun _ h => canonProg_of (gset_canon h) rfl rfl rfl
    | with_reducible exact fun _ h => gset_canon h
    | (intro _ h; dsimp only; split <;> first | with_reducible exact gset_canon h | with_reducible exact canonProg_of (gset_canon h) rfl rfl rfl)
    | exact reach w (Eq.refl _) | intro _ | with_reducible apply issue_goes | with_reducible apply finishNext_goes
    | with_reducible apply Goes.ite | exact Or.inr (reachOne w (Eq.refl _))
    | exact Or.inr ⟨reachOne w (Eq.refl _), fun c => c⟩ | exact Or.inl rfl | simp only [Goes.mk_eq]
    | with_reducible apply GoesMk.upd | split | dsimp only)

theorem execAdd_goes {ps : List Part} {s0 : State} (p : Nat) (s : Bool) (d a b : Fld4) (st : State) (h : Goes ps s0
    st) (w : [.journal, .hawk, .trowel, .pair, .span, .log, .budget, .freeCtr, .outbox] ⊆ ps) : GoesTo ps s0 (execAdd
    p s d a b st) := by
  unfold execAdd
  repeat' (first
    | with_reducible assumption | exact reach w (Eq.refl _) | apply GoesTo.next | with_reducible apply runAlu_goes
    | dsimp only)

theorem execSub_goes {ps : List Part} {s0 : State} (p : Nat) (s : Bool) (d a b : Fld4) (st : State) (h : Goes ps s0
    st) (w : [.journal, .hawk, .trowel, .pair, .span, .log, .budget, .freeCtr, .outbox] ⊆ ps) : GoesTo ps s0 (execSub
    p s d a b st) := by
  unfold execSub
  repeat' (first
    | with_reducible assumption | exact reach w (Eq.refl _) | apply GoesTo.next | with_reducible apply runAlu_goes
    | dsimp only)

theorem execAdds_goes {ps : List Part} {s0 : State} (p : Nat) (s : Bool) (d a b : Fld4) (st : State) (h : Goes ps s0
    st) (w : [.journal, .hawk, .trowel, .pair, .span, .log, .budget, .freeCtr, .outbox] ⊆ ps) : GoesTo ps s0 (execAdds
    p s d a b st) := by
  unfold execAdds
  repeat' (first
    | with_reducible assumption | exact reach w (Eq.refl _) | apply GoesTo.next | with_reducible apply runAlu_goes
    | dsimp only)

theorem execSubs_goes {ps : List Part} {s0 : State} (p : Nat) (s : Bool) (d a b : Fld4) (st : State) (h : Goes ps s0
    st) (w : [.journal, .hawk, .trowel, .pair, .span, .log, .budget, .freeCtr, .outbox] ⊆ ps) : GoesTo ps s0 (execSubs
    p s d a b st) := by
  unfold execSubs
  repeat' (first
    | with_reducible assumption | exact reach w (Eq.refl _) | apply GoesTo.next | with_reducible apply runAlu_goes
    | dsimp only)

theorem execAnd_goes {ps : List Part} {s0 : State} (p : Nat) (s : Bool) (d a b : Fld4) (st : State) (h : Goes ps s0
    st) (w : [.journal, .hawk, .trowel, .pair, .span, .log, .budget, .freeCtr, .outbox] ⊆ ps) : GoesTo ps s0 (execAnd
    p s d a b st) := by
  unfold execAnd
  repeat' (first
    | with_reducible assumption | exact reach w (Eq.refl _) | apply GoesTo.next | with_reducible apply runAlu_goes
    | dsimp only)

theorem execOr_goes {ps : List Part} {s0 : State} (p : Nat) (s : Bool) (d a b : Fld4) (st : State) (h : Goes ps s0 st)
    (w : [.journal, .hawk, .trowel, .pair, .span, .log, .budget, .freeCtr, .outbox] ⊆ ps) : GoesTo ps s0 (execOr p s d
    a b st) := by
  unfold execOr
  repeat' (first
    | with_reducible assumption | exact reach w (Eq.refl _) | apply GoesTo.next | with_reducible apply runAlu_goes
    | dsimp only)

theorem execXor_goes {ps : List Part} {s0 : State} (p : Nat) (s : Bool) (d a b : Fld4) (st : State) (h : Goes ps s0
    st) (w : [.journal, .hawk, .trowel, .pair, .span, .log, .budget, .freeCtr, .outbox] ⊆ ps) : GoesTo ps s0 (execXor
    p s d a b st) := by
  unfold execXor
  repeat' (first
    | with_reducible assumption | exact reach w (Eq.refl _) | apply GoesTo.next | with_reducible apply runAlu_goes
    | dsimp only)

theorem execAndn_goes {ps : List Part} {s0 : State} (p : Nat) (s : Bool) (d a b : Fld4) (st : State) (h : Goes ps s0
    st) (w : [.journal, .hawk, .trowel, .pair, .span, .log, .budget, .freeCtr, .outbox] ⊆ ps) : GoesTo ps s0 (execAndn
    p s d a b st) := by
  unfold execAndn
  repeat' (first
    | with_reducible assumption | exact reach w (Eq.refl _) | apply GoesTo.next | with_reducible apply runAlu_goes
    | dsimp only)

theorem execShl_goes {ps : List Part} {s0 : State} (p : Nat) (s : Bool) (d a b : Fld4) (st : State) (h : Goes ps s0
    st) (w : [.journal, .hawk, .trowel, .pair, .span, .log, .budget, .freeCtr, .outbox] ⊆ ps) : GoesTo ps s0 (execShl
    p s d a b st) := by
  unfold execShl
  repeat' (first
    | with_reducible assumption | exact reach w (Eq.refl _) | apply GoesTo.next | with_reducible apply runAlu_goes
    | dsimp only)

theorem execShr_goes {ps : List Part} {s0 : State} (p : Nat) (s : Bool) (d a b : Fld4) (st : State) (h : Goes ps s0
    st) (w : [.journal, .hawk, .trowel, .pair, .span, .log, .budget, .freeCtr, .outbox] ⊆ ps) : GoesTo ps s0 (execShr
    p s d a b st) := by
  unfold execShr
  repeat' (first
    | with_reducible assumption | exact reach w (Eq.refl _) | apply GoesTo.next | with_reducible apply runAlu_goes
    | dsimp only)

theorem execSar_goes {ps : List Part} {s0 : State} (p : Nat) (s : Bool) (d a b : Fld4) (st : State) (h : Goes ps s0
    st) (w : [.journal, .hawk, .trowel, .pair, .span, .log, .budget, .freeCtr, .outbox] ⊆ ps) : GoesTo ps s0 (execSar
    p s d a b st) := by
  unfold execSar
  repeat' (first
    | with_reducible assumption | exact reach w (Eq.refl _) | apply GoesTo.next | with_reducible apply runAlu_goes
    | dsimp only)

theorem execAbs_goes {ps : List Part} {s0 : State} (p : Nat) (s : Bool) (d a : Fld4) (st : State) (h : Goes ps s0 st)
    (w : [.journal, .hawk, .trowel, .pair, .span, .log, .budget, .freeCtr, .outbox] ⊆ ps) : GoesTo ps s0 (execAbs p s
    d a st) := by
  unfold execAbs
  repeat' (first
    | with_reducible assumption | exact reach w (Eq.refl _) | apply GoesTo.next | with_reducible apply runAlu_goes
    | dsimp only)

theorem execMin_goes {ps : List Part} {s0 : State} (p : Nat) (s : Bool) (d a b : Fld4) (st : State) (h : Goes ps s0
    st) (w : [.journal, .hawk, .trowel, .pair, .span, .log, .budget, .freeCtr, .outbox] ⊆ ps) : GoesTo ps s0 (execMin
    p s d a b st) := by
  unfold execMin
  repeat' (first
    | with_reducible assumption | exact reach w (Eq.refl _) | apply GoesTo.next | with_reducible apply runAlu_goes
    | with_reducible apply Goes.ite | split | dsimp only)

theorem execMax_goes {ps : List Part} {s0 : State} (p : Nat) (s : Bool) (d a b : Fld4) (st : State) (h : Goes ps s0
    st) (w : [.journal, .hawk, .trowel, .pair, .span, .log, .budget, .freeCtr, .outbox] ⊆ ps) : GoesTo ps s0 (execMax
    p s d a b st) := by
  unfold execMax
  repeat' (first
    | with_reducible assumption | exact reach w (Eq.refl _) | apply GoesTo.next | with_reducible apply runAlu_goes
    | with_reducible apply Goes.ite | split | dsimp only)

theorem execMinu_goes {ps : List Part} {s0 : State} (p : Nat) (s : Bool) (d a b : Fld4) (st : State) (h : Goes ps s0
    st) (w : [.journal, .hawk, .trowel, .pair, .span, .log, .budget, .freeCtr, .outbox] ⊆ ps) : GoesTo ps s0 (execMinu
    p s d a b st) := by
  unfold execMinu
  repeat' (first
    | with_reducible assumption | exact reach w (Eq.refl _) | apply GoesTo.next | with_reducible apply runAlu_goes
    | with_reducible apply Goes.ite | split | dsimp only)

theorem execMaxu_goes {ps : List Part} {s0 : State} (p : Nat) (s : Bool) (d a b : Fld4) (st : State) (h : Goes ps s0
    st) (w : [.journal, .hawk, .trowel, .pair, .span, .log, .budget, .freeCtr, .outbox] ⊆ ps) : GoesTo ps s0 (execMaxu
    p s d a b st) := by
  unfold execMaxu
  repeat' (first
    | with_reducible assumption | exact reach w (Eq.refl _) | apply GoesTo.next | with_reducible apply runAlu_goes
    | with_reducible apply Goes.ite | split | dsimp only)

theorem execClz_goes {ps : List Part} {s0 : State} (p : Nat) (s : Bool) (d a : Fld4) (st : State) (h : Goes ps s0 st)
    (w : [.journal, .hawk, .trowel, .pair, .span, .log, .budget, .freeCtr, .outbox] ⊆ ps) : GoesTo ps s0 (execClz p s
    d a st) := by
  unfold execClz
  repeat' (first
    | with_reducible assumption | exact reach w (Eq.refl _) | apply GoesTo.next | with_reducible apply runAlu_goes
    | dsimp only)

theorem execMul_goes {ps : List Part} {s0 : State} (p : Nat) (s : Bool) (d a b : Fld4) (st : State) (h : Goes ps s0
    st) (w : [.journal, .hawk, .trowel, .pair, .span, .log, .budget, .freeCtr, .outbox] ⊆ ps) : GoesTo ps s0 (execMul
    p s d a b st) := by
  unfold execMul
  repeat' (first
    | with_reducible assumption | exact reach w (Eq.refl _) | apply GoesTo.next | with_reducible apply runAlu_goes
    | dsimp only)

theorem execMulh_goes {ps : List Part} {s0 : State} (p : Nat) (s : Bool) (d a b : Fld4) (st : State) (h : Goes ps s0
    st) (w : [.journal, .hawk, .trowel, .pair, .span, .log, .budget, .freeCtr, .outbox] ⊆ ps) : GoesTo ps s0 (execMulh
    p s d a b st) := by
  unfold execMulh
  repeat' (first
    | with_reducible assumption | exact reach w (Eq.refl _) | apply GoesTo.next | with_reducible apply runAlu_goes
    | dsimp only)

theorem execMulhu_goes {ps : List Part} {s0 : State} (p : Nat) (s : Bool) (d a b : Fld4) (st : State) (h : Goes ps s0
    st) (w : [.journal, .hawk, .trowel, .pair, .span, .log, .budget, .freeCtr, .outbox] ⊆ ps) : GoesTo ps s0
    (execMulhu p s d a b st) := by
  unfold execMulhu
  repeat' (first
    | with_reducible assumption | exact reach w (Eq.refl _) | apply GoesTo.next | with_reducible apply runAlu_goes
    | dsimp only)

theorem runDual_goes {ps : List Part} {s0 : State} (p fn : Nat) (d a b : Fld4) (f : W32 → W32 → W32) (st : State) (h :
    Goes ps s0 st) (w : [.journal, .hawk, .trowel, .pair, .span, .log, .budget, .freeCtr, .outbox] ⊆ ps) : Goes ps s0
    (runDual p fn d a b f st) := by
  unfold runDual
  repeat' (first
    | with_reducible assumption | with_reducible exact fun _ h => h | with_reducible exact id_canon
    | with_reducible exact fun _ h => canonProg_of h rfl rfl rfl
    | with_reducible exact fun _ h => gset_canon (canonProg_of h rfl rfl rfl)
    | with_reducible exact fun _ h => canonProg_of (gset_canon h) rfl rfl rfl
    | with_reducible exact fun _ h => gset_canon h | exact reach w (Eq.refl _) | intro _
    | with_reducible apply issue_goes | with_reducible apply finishNext_goes | dsimp only)

theorem execDadd_goes {ps : List Part} {s0 : State} (p : Nat) (d a b : Fld4) (st : State) (h : Goes ps s0 st) (w :
    [.journal, .hawk, .trowel, .pair, .span, .log, .budget, .freeCtr, .outbox] ⊆ ps) : GoesTo ps s0 (execDadd p d a b
    st) := by
  unfold execDadd
  repeat' (first
    | with_reducible assumption | exact reach w (Eq.refl _) | apply GoesTo.next | with_reducible apply runDual_goes
    | dsimp only)

theorem execDsub_goes {ps : List Part} {s0 : State} (p : Nat) (d a b : Fld4) (st : State) (h : Goes ps s0 st) (w :
    [.journal, .hawk, .trowel, .pair, .span, .log, .budget, .freeCtr, .outbox] ⊆ ps) : GoesTo ps s0 (execDsub p d a b
    st) := by
  unfold execDsub
  repeat' (first
    | with_reducible assumption | exact reach w (Eq.refl _) | apply GoesTo.next | with_reducible apply runDual_goes
    | dsimp only)

theorem execDmul_goes {ps : List Part} {s0 : State} (p : Nat) (d a b : Fld4) (st : State) (h : Goes ps s0 st) (w :
    [.journal, .hawk, .trowel, .pair, .span, .log, .budget, .freeCtr, .outbox] ⊆ ps) : GoesTo ps s0 (execDmul p d a b
    st) := by
  unfold execDmul
  repeat' (first
    | with_reducible assumption | exact reach w (Eq.refl _) | apply GoesTo.next | with_reducible apply runDual_goes
    | dsimp only)

theorem execDpack_goes {ps : List Part} {s0 : State} (p : Nat) (d a b : Fld4) (st : State) (h : Goes ps s0 st) (w :
    [.journal, .hawk, .trowel, .pair, .span, .log, .budget, .freeCtr, .outbox] ⊆ ps) : GoesTo ps s0 (execDpack p d a b
    st) := by
  unfold execDpack
  repeat' (first
    | with_reducible assumption | exact reach w (Eq.refl _) | apply GoesTo.next | with_reducible apply runDual_goes
    | dsimp only)

theorem execDswap_goes {ps : List Part} {s0 : State} (p : Nat) (d a : Fld4) (st : State) (h : Goes ps s0 st) (w :
    [.journal, .hawk, .trowel, .pair, .span, .log, .budget, .freeCtr, .outbox] ⊆ ps) : GoesTo ps s0 (execDswap p d a
    st) := by
  unfold execDswap
  repeat' (first
    | with_reducible assumption | exact reach w (Eq.refl _) | apply GoesTo.next | with_reducible apply runDual_goes
    | dsimp only)

theorem execBCc_goes {ps : List Part} {s0 : State} (p : Nat) (cond : Fld4) (off : BitVec 22) (st : State) (h : Goes ps
    s0 st) (w : [.journal, .hawk, .trowel, .pair, .span, .log, .budget, .freeCtr, .outbox] ⊆ ps) : GoesTo ps s0
    (execBCc p cond off st) := by
  unfold execBCc
  repeat' (first
    | with_reducible assumption | with_reducible exact fun _ h => h | with_reducible exact id_canon
    | with_reducible exact fun _ h => canonProg_of h rfl rfl rfl | exact reach w (Eq.refl _) | intro _
    | apply GoesTo.next | with_reducible apply issue_goes | with_reducible apply finish_goes
    | with_reducible apply finishNext_goes | with_reducible apply Goes.ite | split | dsimp only)

theorem execCallCc_goes {ps : List Part} {s0 : State} (p : Nat) (cond : Fld4) (off : BitVec 22) (st : State) (h : Goes
    ps s0 st) (w : [.journal, .hawk, .trowel, .pair, .span, .log, .budget, .freeCtr, .outbox] ⊆ ps) : GoesTo ps s0
    (execCallCc p cond off st) := by
  unfold execCallCc
  repeat' (first
    | with_reducible assumption | with_reducible exact fun _ h => h | with_reducible exact id_canon
    | with_reducible exact fun _ h => canonProg_of h rfl rfl rfl | exact reach w (Eq.refl _) | intro _
    | apply GoesTo.next | with_reducible apply issue_goes | with_reducible apply callTo_goes
    | with_reducible apply finishNext_goes | with_reducible apply Goes.ite | split | dsimp only)

theorem execDbnz_goes {ps : List Part} {s0 : State} (p : Nat) (cond : Fld4) (off : BitVec 22) (st : State)
    (h : Goes ps s0 st) (w : [.journal, .hawk, .trowel, .pair, .span, .log, .budget, .freeCtr, .outbox] ⊆ ps) : GoesTo ps s0 (execDbnz p cond off st) := by
  unfold execDbnz
  refine GoesTo.next (issue_goes _ _ _ _ h (fun g s h => ?_) (reach w rfl))
  by_cases e : gget g cond - 1 = 0
  · simp only [e, if_true]; exact finishNext_goes _ _ _ _ _ h (fun _ h => gset_canon h) (reach w rfl)
  · simp only [e, if_false]; exact finish_goes _ _ _ _ _ h (fun _ h => gset_canon h) (reach w rfl)

theorem execJr_goes {ps : List Part} {s0 : State} (p : Nat) (a : Fld4) (st : State) (h : Goes ps s0 st) (w :
    [.journal, .hawk, .trowel, .pair, .span, .log, .budget, .freeCtr, .outbox] ⊆ ps) : GoesTo ps s0 (execJr p a st) :=
    by
  unfold execJr
  repeat' (first
    | with_reducible assumption | with_reducible exact fun _ h => h | with_reducible exact id_canon
    | with_reducible exact fun _ h => canonProg_of h rfl rfl rfl | exact reach w (Eq.refl _) | intro _
    | apply GoesTo.next | with_reducible apply issue_goes | with_reducible apply finish_goes | dsimp only)

theorem execCallr_goes {ps : List Part} {s0 : State} (p : Nat) (a : Fld4) (st : State) (h : Goes ps s0 st) (w :
    [.journal, .hawk, .trowel, .pair, .span, .log, .budget, .freeCtr, .outbox] ⊆ ps) : GoesTo ps s0 (execCallr p a st)
    := by
  unfold execCallr
  repeat' (first
    | with_reducible assumption | exact reach w (Eq.refl _) | intro _ | apply GoesTo.next
    | with_reducible apply issue_goes | with_reducible apply callTo_goes | dsimp only)

theorem execRet_goes {ps : List Part} {s0 : State} (p : Nat) (st : State) (h : Goes ps s0 st) (w : [.journal, .hawk,
    .trowel, .pair, .span, .log, .budget, .freeCtr, .outbox] ⊆ ps) : GoesTo ps s0 (execRet p st) := by
  unfold execRet
  repeat' (first
    | with_reducible assumption | exact reach w (Eq.refl _) | intro _ | apply GoesTo.next
    | with_reducible apply issue_goes | with_reducible apply retFrom_goes | dsimp only)

theorem runImm_goes {ps : List Part} {s0 : State} (p op : Nat) (d a : Fld4) (imm : BitVec 18) (f : W32 → W32) (st :
    State) (h : Goes ps s0 st) (w : [.journal, .hawk, .trowel, .pair, .span, .log, .budget, .freeCtr, .outbox] ⊆ ps) :
    Goes ps s0 (runImm p op d a imm f st) := by
  unfold runImm
  repeat' (first
    | with_reducible assumption | with_reducible exact fun _ h => h | with_reducible exact id_canon
    | with_reducible exact fun _ h => canonProg_of h rfl rfl rfl
    | with_reducible exact fun _ h => gset_canon (canonProg_of h rfl rfl rfl)
    | with_reducible exact fun _ h => canonProg_of (gset_canon h) rfl rfl rfl
    | with_reducible exact fun _ h => gset_canon h | exact reach w (Eq.refl _) | intro _
    | with_reducible apply issue_goes | with_reducible apply finishNext_goes | dsimp only)

theorem execAddi_goes {ps : List Part} {s0 : State} (p : Nat) (d a : Fld4) (imm : BitVec 18) (st : State) (h : Goes ps
    s0 st) (w : [.journal, .hawk, .trowel, .pair, .span, .log, .budget, .freeCtr, .outbox] ⊆ ps) : GoesTo ps s0
    (execAddi p d a imm st) := by
  unfold execAddi
  repeat' (first
    | with_reducible assumption | exact reach w (Eq.refl _) | apply GoesTo.next | with_reducible apply runImm_goes
    | dsimp only)

theorem execAndi_goes {ps : List Part} {s0 : State} (p : Nat) (d a : Fld4) (imm : BitVec 18) (st : State) (h : Goes ps
    s0 st) (w : [.journal, .hawk, .trowel, .pair, .span, .log, .budget, .freeCtr, .outbox] ⊆ ps) : GoesTo ps s0
    (execAndi p d a imm st) := by
  unfold execAndi
  repeat' (first
    | with_reducible assumption | exact reach w (Eq.refl _) | apply GoesTo.next | with_reducible apply runImm_goes
    | dsimp only)

theorem execOri_goes {ps : List Part} {s0 : State} (p : Nat) (d a : Fld4) (imm : BitVec 18) (st : State) (h : Goes ps
    s0 st) (w : [.journal, .hawk, .trowel, .pair, .span, .log, .budget, .freeCtr, .outbox] ⊆ ps) : GoesTo ps s0
    (execOri p d a imm st) := by
  unfold execOri
  repeat' (first
    | with_reducible assumption | exact reach w (Eq.refl _) | apply GoesTo.next | with_reducible apply runImm_goes
    | dsimp only)

theorem execXori_goes {ps : List Part} {s0 : State} (p : Nat) (d a : Fld4) (imm : BitVec 18) (st : State) (h : Goes ps
    s0 st) (w : [.journal, .hawk, .trowel, .pair, .span, .log, .budget, .freeCtr, .outbox] ⊆ ps) : GoesTo ps s0
    (execXori p d a imm st) := by
  unfold execXori
  repeat' (first
    | with_reducible assumption | exact reach w (Eq.refl _) | apply GoesTo.next | with_reducible apply runImm_goes
    | dsimp only)

theorem execShli_goes {ps : List Part} {s0 : State} (p : Nat) (d a : Fld4) (n : BitVec 5) (st : State) (h : Goes ps s0
    st) (w : [.journal, .hawk, .trowel, .pair, .span, .log, .budget, .freeCtr, .outbox] ⊆ ps) : GoesTo ps s0 (execShli
    p d a n st) := by
  unfold execShli
  repeat' (first
    | with_reducible assumption | exact reach w (Eq.refl _) | apply GoesTo.next | with_reducible apply runImm_goes
    | dsimp only)

theorem execShri_goes {ps : List Part} {s0 : State} (p : Nat) (d a : Fld4) (n : BitVec 5) (st : State) (h : Goes ps s0
    st) (w : [.journal, .hawk, .trowel, .pair, .span, .log, .budget, .freeCtr, .outbox] ⊆ ps) : GoesTo ps s0 (execShri
    p d a n st) := by
  unfold execShri
  repeat' (first
    | with_reducible assumption | exact reach w (Eq.refl _) | apply GoesTo.next | with_reducible apply runImm_goes
    | dsimp only)

theorem execSari_goes {ps : List Part} {s0 : State} (p : Nat) (d a : Fld4) (n : BitVec 5) (st : State) (h : Goes ps s0
    st) (w : [.journal, .hawk, .trowel, .pair, .span, .log, .budget, .freeCtr, .outbox] ⊆ ps) : GoesTo ps s0 (execSari
    p d a n st) := by
  unfold execSari
  repeat' (first
    | with_reducible assumption | exact reach w (Eq.refl _) | apply GoesTo.next | with_reducible apply runImm_goes
    | dsimp only)

theorem execLui_goes {ps : List Part} {s0 : State} (p : Nat) (d : Fld4) (imm : BitVec 18) (st : State) (h : Goes ps s0
    st) (w : [.journal, .hawk, .trowel, .pair, .span, .log, .budget, .freeCtr, .outbox] ⊆ ps) : GoesTo ps s0 (execLui
    p d imm st) := by
  unfold execLui
  repeat' (first
    | with_reducible assumption | exact reach w (Eq.refl _) | apply GoesTo.next | with_reducible apply runImm_goes
    | dsimp only)

theorem execCmpi_goes {ps : List Part} {s0 : State} (p : Nat) (a : Fld4) (imm : BitVec 18) (st : State) (h : Goes ps
    s0 st) (w : [.journal, .hawk, .trowel, .pair, .span, .log, .budget, .freeCtr, .outbox] ⊆ ps) : GoesTo ps s0
    (execCmpi p a imm st) := by
  unfold execCmpi
  repeat' (first
    | with_reducible assumption | with_reducible exact fun _ h => h | with_reducible exact id_canon
    | with_reducible exact fun _ h => canonProg_of h rfl rfl rfl | exact reach w (Eq.refl _) | intro _
    | apply GoesTo.next | with_reducible apply issue_goes | with_reducible apply finishNext_goes
    | exact Or.inr (reachOne w (Eq.refl _)) | exact Or.inr ⟨reachOne w (Eq.refl _), fun c => c⟩ | exact Or.inl rfl
    | simp only [Goes.mk_eq] | with_reducible apply GoesMk.upd | dsimp only)

theorem runAcc_goes {ps : List Part} {s0 : State} (p fn : Nat) (s : Bool) (d a b : Fld4) (f : W64 → W32 → W32 → Acc)
    (st : State) (h : Goes ps s0 st) (w : [.journal, .hawk, .trowel, .pair, .span, .log, .budget, .freeCtr, .outbox] ⊆
    ps) : Goes ps s0 (runAcc p fn s d a b f st) := by
  unfold runAcc
  repeat' (first
    | with_reducible assumption | with_reducible exact fun _ h => h | with_reducible exact id_canon
    | with_reducible exact fun _ h => canonProg_of h rfl rfl rfl | with_reducible exact fun _ h => aset_canon h
    | (intro _ h; dsimp only; split <;> first | with_reducible exact aset_canon h | with_reducible exact canonProg_of (aset_canon h) rfl rfl rfl)
    | exact reach w (Eq.refl _) | intro _ | with_reducible apply issue_goes | with_reducible apply finishNext_goes
    | with_reducible apply Goes.ite | exact Or.inr (reachOne w (Eq.refl _))
    | exact Or.inr ⟨reachOne w (Eq.refl _), fun c => c⟩ | exact Or.inl rfl | simp only [Goes.mk_eq]
    | with_reducible apply GoesMk.upd | split | dsimp only)

theorem runFrom_goes {ps : List Part} {s0 : State} (p fn : Nat) (s : Bool) (d a : Fld4) (f : W64 → Alu) (st : State)
    (h : Goes ps s0 st) (w : [.journal, .hawk, .trowel, .pair, .span, .log, .budget, .freeCtr, .outbox] ⊆ ps) : Goes
    ps s0 (runFrom p fn s d a f st) := by
  unfold runFrom
  repeat' (first
    | with_reducible assumption | with_reducible exact fun _ h => h | with_reducible exact id_canon
    | with_reducible exact fun _ h => canonProg_of h rfl rfl rfl
    | with_reducible exact fun _ h => gset_canon (canonProg_of h rfl rfl rfl)
    | with_reducible exact fun _ h => canonProg_of (gset_canon h) rfl rfl rfl
    | with_reducible exact fun _ h => gset_canon h
    | (intro _ h; dsimp only; split <;> first | with_reducible exact gset_canon h | with_reducible exact canonProg_of (gset_canon h) rfl rfl rfl)
    | exact reach w (Eq.refl _) | intro _ | with_reducible apply issue_goes | with_reducible apply finishNext_goes
    | with_reducible apply Goes.ite | exact Or.inr (reachOne w (Eq.refl _))
    | exact Or.inr ⟨reachOne w (Eq.refl _), fun c => c⟩ | exact Or.inl rfl | simp only [Goes.mk_eq]
    | with_reducible apply GoesMk.upd | split | dsimp only)

theorem execMulAx_goes {ps : List Part} {s0 : State} (p : Nat) (s : Bool) (d a b : Fld4) (st : State) (h : Goes ps s0
    st) (w : [.journal, .hawk, .trowel, .pair, .span, .log, .budget, .freeCtr, .outbox] ⊆ ps) : GoesTo ps s0
    (execMulAx p s d a b st) := by
  unfold execMulAx
  repeat' (first
    | with_reducible assumption | exact reach w (Eq.refl _) | apply GoesTo.next | with_reducible apply runAcc_goes
    | dsimp only)

theorem execMac_goes {ps : List Part} {s0 : State} (p : Nat) (s : Bool) (d a b : Fld4) (st : State) (h : Goes ps s0
    st) (w : [.journal, .hawk, .trowel, .pair, .span, .log, .budget, .freeCtr, .outbox] ⊆ ps) : GoesTo ps s0 (execMac
    p s d a b st) := by
  unfold execMac
  repeat' (first
    | with_reducible assumption | exact reach w (Eq.refl _) | apply GoesTo.next | with_reducible apply runAcc_goes
    | dsimp only)

theorem execMsu_goes {ps : List Part} {s0 : State} (p : Nat) (s : Bool) (d a b : Fld4) (st : State) (h : Goes ps s0
    st) (w : [.journal, .hawk, .trowel, .pair, .span, .log, .budget, .freeCtr, .outbox] ⊆ ps) : GoesTo ps s0 (execMsu
    p s d a b st) := by
  unfold execMsu
  repeat' (first
    | with_reducible assumption | exact reach w (Eq.refl _) | apply GoesTo.next | with_reducible apply runAcc_goes
    | dsimp only)

theorem execMulu_goes {ps : List Part} {s0 : State} (p : Nat) (s : Bool) (d a b : Fld4) (st : State) (h : Goes ps s0
    st) (w : [.journal, .hawk, .trowel, .pair, .span, .log, .budget, .freeCtr, .outbox] ⊆ ps) : GoesTo ps s0 (execMulu
    p s d a b st) := by
  unfold execMulu
  repeat' (first
    | with_reducible assumption | exact reach w (Eq.refl _) | apply GoesTo.next | with_reducible apply runAcc_goes
    | dsimp only)

theorem execMacu_goes {ps : List Part} {s0 : State} (p : Nat) (s : Bool) (d a b : Fld4) (st : State) (h : Goes ps s0
    st) (w : [.journal, .hawk, .trowel, .pair, .span, .log, .budget, .freeCtr, .outbox] ⊆ ps) : GoesTo ps s0 (execMacu
    p s d a b st) := by
  unfold execMacu
  repeat' (first
    | with_reducible assumption | exact reach w (Eq.refl _) | apply GoesTo.next | with_reducible apply runAcc_goes
    | dsimp only)

theorem execMsuu_goes {ps : List Part} {s0 : State} (p : Nat) (s : Bool) (d a b : Fld4) (st : State) (h : Goes ps s0
    st) (w : [.journal, .hawk, .trowel, .pair, .span, .log, .budget, .freeCtr, .outbox] ⊆ ps) : GoesTo ps s0 (execMsuu
    p s d a b st) := by
  unfold execMsuu
  repeat' (first
    | with_reducible assumption | exact reach w (Eq.refl _) | apply GoesTo.next | with_reducible apply runAcc_goes
    | dsimp only)

theorem execMacs_goes {ps : List Part} {s0 : State} (p : Nat) (s : Bool) (d a b : Fld4) (st : State) (h : Goes ps s0
    st) (w : [.journal, .hawk, .trowel, .pair, .span, .log, .budget, .freeCtr, .outbox] ⊆ ps) : GoesTo ps s0 (execMacs
    p s d a b st) := by
  unfold execMacs
  repeat' (first
    | with_reducible assumption | exact reach w (Eq.refl _) | apply GoesTo.next | with_reducible apply runAcc_goes
    | dsimp only)

theorem execMsus_goes {ps : List Part} {s0 : State} (p : Nat) (s : Bool) (d a b : Fld4) (st : State) (h : Goes ps s0
    st) (w : [.journal, .hawk, .trowel, .pair, .span, .log, .budget, .freeCtr, .outbox] ⊆ ps) : GoesTo ps s0 (execMsus
    p s d a b st) := by
  unfold execMsus
  repeat' (first
    | with_reducible assumption | exact reach w (Eq.refl _) | apply GoesTo.next | with_reducible apply runAcc_goes
    | dsimp only)

theorem execDmac_goes {ps : List Part} {s0 : State} (p : Nat) (s : Bool) (d a b : Fld4) (st : State) (h : Goes ps s0
    st) (w : [.journal, .hawk, .trowel, .pair, .span, .log, .budget, .freeCtr, .outbox] ⊆ ps) : GoesTo ps s0 (execDmac
    p s d a b st) := by
  unfold execDmac
  repeat' (first
    | with_reducible assumption | exact reach w (Eq.refl _) | apply GoesTo.next | with_reducible apply runAcc_goes
    | dsimp only)

theorem execDmacn_goes {ps : List Part} {s0 : State} (p : Nat) (s : Bool) (d a b : Fld4) (st : State) (h : Goes ps s0
    st) (w : [.journal, .hawk, .trowel, .pair, .span, .log, .budget, .freeCtr, .outbox] ⊆ ps) : GoesTo ps s0
    (execDmacn p s d a b st) := by
  unfold execDmacn
  repeat' (first
    | with_reducible assumption | exact reach w (Eq.refl _) | apply GoesTo.next | with_reducible apply runAcc_goes
    | dsimp only)

theorem execDmacx_goes {ps : List Part} {s0 : State} (p : Nat) (s : Bool) (d a b : Fld4) (st : State) (h : Goes ps s0
    st) (w : [.journal, .hawk, .trowel, .pair, .span, .log, .budget, .freeCtr, .outbox] ⊆ ps) : GoesTo ps s0
    (execDmacx p s d a b st) := by
  unfold execDmacx
  repeat' (first
    | with_reducible assumption | exact reach w (Eq.refl _) | apply GoesTo.next | with_reducible apply runAcc_goes
    | dsimp only)

theorem execAcclr_goes {ps : List Part} {s0 : State} (p : Nat) (s : Bool) (d : Fld4) (st : State) (h : Goes ps s0 st)
    (w : [.journal, .hawk, .trowel, .pair, .span, .log, .budget, .freeCtr, .outbox] ⊆ ps) : GoesTo ps s0 (execAcclr p
    s d st) := by
  unfold execAcclr
  repeat' (first
    | with_reducible assumption | exact reach w (Eq.refl _) | apply GoesTo.next | with_reducible apply runAcc_goes
    | dsimp only)

theorem execAcw_goes {ps : List Part} {s0 : State} (p : Nat) (s : Bool) (d a b : Fld4) (st : State) (h : Goes ps s0
    st) (w : [.journal, .hawk, .trowel, .pair, .span, .log, .budget, .freeCtr, .outbox] ⊆ ps) : GoesTo ps s0 (execAcw
    p s d a b st) := by
  unfold execAcw
  repeat' (first
    | with_reducible assumption | exact reach w (Eq.refl _) | apply GoesTo.next | with_reducible apply runAcc_goes
    | dsimp only)

theorem execAcl_goes {ps : List Part} {s0 : State} (p : Nat) (s : Bool) (d a : Fld4) (st : State) (h : Goes ps s0 st)
    (w : [.journal, .hawk, .trowel, .pair, .span, .log, .budget, .freeCtr, .outbox] ⊆ ps) : GoesTo ps s0 (execAcl p s
    d a st) := by
  unfold execAcl
  repeat' (first
    | with_reducible assumption | exact reach w (Eq.refl _) | apply GoesTo.next | with_reducible apply runFrom_goes
    | dsimp only)

theorem execAch_goes {ps : List Part} {s0 : State} (p : Nat) (s : Bool) (d a : Fld4) (st : State) (h : Goes ps s0 st)
    (w : [.journal, .hawk, .trowel, .pair, .span, .log, .budget, .freeCtr, .outbox] ⊆ ps) : GoesTo ps s0 (execAch p s
    d a st) := by
  unfold execAch
  repeat' (first
    | with_reducible assumption | exact reach w (Eq.refl _) | apply GoesTo.next | with_reducible apply runFrom_goes
    | dsimp only)

theorem execAcr_goes {ps : List Part} {s0 : State} (p : Nat) (s : Bool) (d a : Fld4) (n : BitVec 6) (st : State) (h :
    Goes ps s0 st) (w : [.journal, .hawk, .trowel, .pair, .span, .log, .budget, .freeCtr, .outbox] ⊆ ps) : GoesTo ps
    s0 (execAcr p s d a n st) := by
  unfold execAcr
  repeat' (first
    | with_reducible assumption | exact reach w (Eq.refl _) | apply GoesTo.next | with_reducible apply runFrom_goes
    | dsimp only)

theorem execLdW_goes {ps : List Part} {s0 : State} (p : Nat) (d a : Fld4) (mode : BitVec 3) (b : Fld4) (sc : BitVec 2)
    (disp : BitVec 9) (st : State) (h : Goes ps s0 st) (w : [.journal, .hawk, .trowel, .pair, .span, .log, .budget,
    .freeCtr, .outbox] ⊆ ps) : GoesTo ps s0 (execLdW p d a mode b sc disp st) := by
  unfold execLdW
  repeat' (first
    | with_reducible assumption | with_reducible exact fun _ h => h | with_reducible exact id_canon
    | with_reducible exact fun _ h => canonProg_of h rfl rfl rfl | exact fun _ _ h => gset_canon h
    | exact reach w (Eq.refl _) | intro _ | apply GoesTo.next | with_reducible apply issue_goes
    | with_reducible apply runLoad_goes | dsimp only)

theorem execLdH_goes {ps : List Part} {s0 : State} (p : Nat) (d a : Fld4) (mode : BitVec 3) (b : Fld4) (sc : BitVec 2)
    (disp : BitVec 9) (st : State) (h : Goes ps s0 st) (w : [.journal, .hawk, .trowel, .pair, .span, .log, .budget,
    .freeCtr, .outbox] ⊆ ps) : GoesTo ps s0 (execLdH p d a mode b sc disp st) := by
  unfold execLdH
  repeat' (first
    | with_reducible assumption | with_reducible exact fun _ h => h | with_reducible exact id_canon
    | with_reducible exact fun _ h => canonProg_of h rfl rfl rfl | exact fun _ _ h => gset_canon h
    | exact reach w (Eq.refl _) | intro _ | apply GoesTo.next | with_reducible apply issue_goes
    | with_reducible apply runLoad_goes | dsimp only)

theorem execLdHu_goes {ps : List Part} {s0 : State} (p : Nat) (d a : Fld4) (mode : BitVec 3) (b : Fld4) (sc : BitVec
    2) (disp : BitVec 9) (st : State) (h : Goes ps s0 st) (w : [.journal, .hawk, .trowel, .pair, .span, .log, .budget,
    .freeCtr, .outbox] ⊆ ps) : GoesTo ps s0 (execLdHu p d a mode b sc disp st) := by
  unfold execLdHu
  repeat' (first
    | with_reducible assumption | with_reducible exact fun _ h => h | with_reducible exact id_canon
    | with_reducible exact fun _ h => canonProg_of h rfl rfl rfl | exact fun _ _ h => gset_canon h
    | exact reach w (Eq.refl _) | intro _ | apply GoesTo.next | with_reducible apply issue_goes
    | with_reducible apply runLoad_goes | dsimp only)

theorem execLdB_goes {ps : List Part} {s0 : State} (p : Nat) (d a : Fld4) (mode : BitVec 3) (b : Fld4) (sc : BitVec 2)
    (disp : BitVec 9) (st : State) (h : Goes ps s0 st) (w : [.journal, .hawk, .trowel, .pair, .span, .log, .budget,
    .freeCtr, .outbox] ⊆ ps) : GoesTo ps s0 (execLdB p d a mode b sc disp st) := by
  unfold execLdB
  repeat' (first
    | with_reducible assumption | with_reducible exact fun _ h => h | with_reducible exact id_canon
    | with_reducible exact fun _ h => canonProg_of h rfl rfl rfl | exact fun _ _ h => gset_canon h
    | exact reach w (Eq.refl _) | intro _ | apply GoesTo.next | with_reducible apply issue_goes
    | with_reducible apply runLoad_goes | dsimp only)

theorem execLdBu_goes {ps : List Part} {s0 : State} (p : Nat) (d a : Fld4) (mode : BitVec 3) (b : Fld4) (sc : BitVec
    2) (disp : BitVec 9) (st : State) (h : Goes ps s0 st) (w : [.journal, .hawk, .trowel, .pair, .span, .log, .budget,
    .freeCtr, .outbox] ⊆ ps) : GoesTo ps s0 (execLdBu p d a mode b sc disp st) := by
  unfold execLdBu
  repeat' (first
    | with_reducible assumption | with_reducible exact fun _ h => h | with_reducible exact id_canon
    | with_reducible exact fun _ h => canonProg_of h rfl rfl rfl | exact fun _ _ h => gset_canon h
    | exact reach w (Eq.refl _) | intro _ | apply GoesTo.next | with_reducible apply issue_goes
    | with_reducible apply runLoad_goes | dsimp only)

theorem execLdA_goes {ps : List Part} {s0 : State} (p : Nat) (d a : Fld4) (mode : BitVec 3) (b : Fld4) (sc : BitVec 2)
    (disp : BitVec 9) (st : State) (h : Goes ps s0 st) (w : [.journal, .hawk, .trowel, .pair, .span, .log, .budget,
    .freeCtr, .outbox] ⊆ ps) : GoesTo ps s0 (execLdA p d a mode b sc disp st) := by
  unfold execLdA
  repeat' (first
    | with_reducible assumption | with_reducible exact fun _ h => h | with_reducible exact id_canon
    | with_reducible exact fun _ h => canonProg_of h rfl rfl rfl | exact fun _ _ h => aset_canon h
    | exact reach w (Eq.refl _) | intro _ | apply GoesTo.next | with_reducible apply issue_goes
    | with_reducible apply runLoad_goes | dsimp only)

theorem execStW_goes {ps : List Part} {s0 : State} (p : Nat) (d a : Fld4) (mode : BitVec 3) (b : Fld4) (sc : BitVec 2)
    (disp : BitVec 9) (st : State) (h : Goes ps s0 st) (w : [.journal, .hawk, .trowel, .pair, .span, .log, .budget,
    .freeCtr, .outbox] ⊆ ps) : GoesTo ps s0 (execStW p d a mode b sc disp st) := by
  unfold execStW
  repeat' (first
    | with_reducible assumption | exact reach w (Eq.refl _) | intro _ | apply GoesTo.next
    | with_reducible apply issue_goes | with_reducible apply runStore_goes | dsimp only)

theorem execStH_goes {ps : List Part} {s0 : State} (p : Nat) (d a : Fld4) (mode : BitVec 3) (b : Fld4) (sc : BitVec 2)
    (disp : BitVec 9) (st : State) (h : Goes ps s0 st) (w : [.journal, .hawk, .trowel, .pair, .span, .log, .budget,
    .freeCtr, .outbox] ⊆ ps) : GoesTo ps s0 (execStH p d a mode b sc disp st) := by
  unfold execStH
  repeat' (first
    | with_reducible assumption | exact reach w (Eq.refl _) | intro _ | apply GoesTo.next
    | with_reducible apply issue_goes | with_reducible apply runStore_goes | dsimp only)

theorem execStB_goes {ps : List Part} {s0 : State} (p : Nat) (d a : Fld4) (mode : BitVec 3) (b : Fld4) (sc : BitVec 2)
    (disp : BitVec 9) (st : State) (h : Goes ps s0 st) (w : [.journal, .hawk, .trowel, .pair, .span, .log, .budget,
    .freeCtr, .outbox] ⊆ ps) : GoesTo ps s0 (execStB p d a mode b sc disp st) := by
  unfold execStB
  repeat' (first
    | with_reducible assumption | exact reach w (Eq.refl _) | intro _ | apply GoesTo.next
    | with_reducible apply issue_goes | with_reducible apply runStore_goes | dsimp only)

theorem execStA_goes {ps : List Part} {s0 : State} (p : Nat) (d a : Fld4) (mode : BitVec 3) (b : Fld4) (sc : BitVec 2)
    (disp : BitVec 9) (st : State) (h : Goes ps s0 st) (w : [.journal, .hawk, .trowel, .pair, .span, .log, .budget,
    .freeCtr, .outbox] ⊆ ps) : GoesTo ps s0 (execStA p d a mode b sc disp st) := by
  unfold execStA
  repeat' (first
    | with_reducible assumption | exact reach w (Eq.refl _) | intro _ | apply GoesTo.next
    | with_reducible apply issue_goes | with_reducible apply runStore_goes | dsimp only)

theorem loadForm_canon {op : Nat} {d : Fld4} {n : Nat} {put : List Byte → Prog → Prog} (e : loadForm op d = some (n, put)) :
    ∀ o g, canonProg g → canonProg (put o g) := by
  unfold loadForm at e
  intro o g h
  split at e <;> cases e <;> first | exact gset_canon h | exact aset_canon h

theorem execRowFixedWake_goes {ps : List Part} {s0 : State} (p : Nat) (st : State) (h : Goes ps s0 st) (w : [.journal, .hawk, .trowel, .pair, .span, .log, .budget, .freeCtr, .outbox] ⊆ ps) :
    GoesTo ps s0 (execRowFixedWake p st) := by
  unfold execRowFixedWake
  apply GoesTo.next
  split
  · exact h
  · dsimp only
    split
    · rename_i e
      exact runLoad_goes _ _ _ _ _ _ _ _ _ _ h (loadForm_canon e) (reach w rfl)
    · exact h

end Sys2Proof.Machine
end

