-- ==== Sys2Proof/Laws/GoesService.lean ====
section
/-! SUPPORT. Laws/GoesService.lean: what every operation of the files Tamper, Svc, Pair, Recorder, Span, Host does to
the state at most (f_goes; f_pair for one that answers a pair): the parts it reaches, legality kept, counters onward. -/
set_option linter.unusedSimpArgs false
namespace Sys2Proof.Machine

theorem haltResponse_goes {ps : List Part} {s0 : State} (s : State) (h : Goes ps s0 s) (w : [.sys, .time, .ports,
    .bpcfg, .skim, .hawk, .trowel, .publ, .eng, .pke, .rng, .tamper, .log, .outbox] ⊆ ps) : Goes ps s0 (haltResponse
    s) := by
  unfold haltResponse
  repeat' (first
    | with_reducible assumption | exact reach w (Eq.refl _) | with_reducible apply event_goes
    | with_reducible apply haltStart_goes | with_reducible apply enterHalted_goes | with_reducible apply Goes.ite
    | split | dsimp only)

theorem resetResponse_goes {ps : List Part} {s0 : State} (s : State) (h : Goes ps s0 s) (w : [.sys, .fns, .journal,
    .deferred, .time, .ports, .bpcfg, .skim, .hawk, .trowel, .publ, .eng, .pke, .rng, .keys, .sealer, .tamper, .pair,
    .span, .log, .budget, .fw, .injected, .freeCtr, .outbox] ⊆ ps) : Goes ps s0 (resetResponse s) := by
  unfold resetResponse
  repeat' (first
    | with_reducible assumption | exact reach w (Eq.refl _) | with_reducible apply event_goes
    | with_reducible apply haltResponse_goes | with_reducible apply resetDevice_goes | with_reducible apply Goes.ite
    | exact Or.inr (reachOne w (Eq.refl _)) | exact Or.inr ⟨reachOne w (Eq.refl _), rfl⟩
    | exact Or.inr ⟨reachOne w (Eq.refl _), fun c => c⟩
    | exact Or.inr ⟨reachOne w (Eq.refl _), rfl, rfl, rfl, rfl, rfl⟩ | exact Or.inl rfl | simp only [Goes.mk_eq]
    | with_reducible apply GoesMk.upd | split | dsimp only)

theorem runResponse_goes {ps : List Part} {s0 : State} (r i : Nat) (s : State) (h : Goes ps s0 s) (w : [.sys, .fns,
    .journal, .deferred, .time, .ports, .bpcfg, .skim, .hawk, .trowel, .publ, .eng, .pke, .rng, .keys, .sealer,
    .tamper, .pair, .span, .log, .budget, .fw, .injected, .freeCtr, .outbox] ⊆ ps) : Goes ps s0 (runResponse r i s) :=
    by
  unfold runResponse
  repeat' (first
    | with_reducible assumption | exact reach w (Eq.refl _) | with_reducible apply resetResponse_goes
    | with_reducible apply haltResponse_goes | with_reducible apply zeroize_goes | with_reducible apply event_goes
    | with_reducible apply zeroizeTwo_goes | exact Or.inr (reachOne w (Eq.refl _))
    | exact Or.inr ⟨reachOne w (Eq.refl _), rfl⟩ | exact Or.inr ⟨reachOne w (Eq.refl _), fun c => c⟩
    | exact Or.inr ⟨reachOne w (Eq.refl _), rfl, rfl, rfl, rfl, rfl⟩ | exact Or.inl rfl | simp only [Goes.mk_eq]
    | with_reducible apply GoesMk.upd | split | dsimp only)

theorem tamperAlarm_goes {ps : List Part} {s0 : State} (i : Nat) (s : State) (h : Goes ps s0 s) (w : [.sys, .fns,
    .journal, .deferred, .time, .ports, .bpcfg, .skim, .hawk, .trowel, .publ, .eng, .pke, .rng, .keys, .sealer,
    .tamper, .pair, .span, .log, .budget, .fw, .injected, .freeCtr, .outbox] ⊆ ps) : Goes ps s0 (tamperAlarm i s) :=
    by
  unfold tamperAlarm
  repeat' (first
    | with_reducible assumption | exact reach w (Eq.refl _) | with_reducible apply updSrc_goes
    | with_reducible apply event_goes | with_reducible apply runResponse_goes | with_reducible apply tamperLog_goes
    | with_reducible apply Goes.ite | exact Or.inr (reachOne w (Eq.refl _))
    | exact Or.inr ⟨reachOne w (Eq.refl _), rfl⟩ | exact Or.inr ⟨reachOne w (Eq.refl _), fun c => c⟩
    | exact Or.inr ⟨reachOne w (Eq.refl _), rfl, rfl, rfl, rfl, rfl⟩ | exact Or.inl rfl | simp only [Goes.mk_eq]
    | with_reducible apply GoesMk.upd | split | dsimp only)

theorem tamperDetect_goes {ps : List Part} {s0 : State} (i : Nat) (s : State) (h : Goes ps s0 s) (w : [.sys, .fns,
    .journal, .deferred, .time, .ports, .bpcfg, .skim, .hawk, .trowel, .publ, .eng, .pke, .rng, .keys, .sealer,
    .tamper, .pair, .span, .log, .budget, .fw, .injected, .freeCtr, .outbox] ⊆ ps) : Goes ps s0 (tamperDetect i s) :=
    by
  unfold tamperDetect
  repeat' (first
    | with_reducible assumption | exact reach w (Eq.refl _) | with_reducible apply tamperAlarm_goes
    | with_reducible apply updSrc_goes | with_reducible apply Goes.ite | exact Or.inr (reachOne w (Eq.refl _))
    | exact Or.inr ⟨reachOne w (Eq.refl _), rfl⟩ | exact Or.inr ⟨reachOne w (Eq.refl _), fun c => c⟩
    | exact Or.inr ⟨reachOne w (Eq.refl _), rfl, rfl, rfl, rfl, rfl⟩ | exact Or.inl rfl | simp only [Goes.mk_eq]
    | with_reducible apply GoesMk.upd | split | dsimp only)

theorem mismatchEvidence_goes {ps : List Part} {s0 : State} (engine lane cls owner : Nat) (s : State) (h : Goes ps s0
    s) (w : [.eng, .pke, .log] ⊆ ps) : Goes ps s0 (mismatchEvidence engine lane cls owner s) := by
  unfold mismatchEvidence
  repeat' (first
    | with_reducible assumption | exact reach w (Eq.refl _) | with_reducible apply event_goes
    | with_reducible apply pkeEvent_goes | with_reducible apply Goes.ite | exact Or.inr (reachOne w (Eq.refl _))
    | exact Or.inl rfl | simp only [Goes.mk_eq] | with_reducible apply GoesMk.upd | split | dsimp only)

theorem execTamperEvent_goes {ps : List Part} {s0 : State} (src engine lane cls owner : Nat) (s : State) (h : Goes ps
    s0 s) (w : [.sys, .fns, .journal, .deferred, .time, .ports, .bpcfg, .skim, .hawk, .trowel, .publ, .eng, .pke,
    .rng, .keys, .sealer, .tamper, .pair, .span, .log, .budget, .fw, .injected, .freeCtr, .outbox] ⊆ ps) : GoesTo ps
    s0 (execTamperEvent src engine lane cls owner s) := by
  unfold execTamperEvent
  repeat' (first
    | with_reducible assumption | exact reach w (Eq.refl _) | apply GoesTo.next
    | with_reducible apply tamperDetect_goes | with_reducible apply mismatchEvidence_goes
    | with_reducible apply Goes.ite | split | dsimp only)

theorem execHealthWindowEnd_goes {ps : List Part} {s0 : State} (i : Nat) (error0 error1 raw : List Byte) (s : State)
    (h : Goes ps s0 s) (w : [.sys, .fns, .journal, .deferred, .time, .ports, .bpcfg, .skim, .hawk, .trowel, .publ,
    .eng, .pke, .rng, .keys, .sealer, .tamper, .pair, .span, .log, .budget, .fw, .injected, .freeCtr, .outbox] ⊆ ps) :
    GoesTo ps s0 (execHealthWindowEnd i error0 error1 raw s) := by
  unfold execHealthWindowEnd
  repeat' (first
    | with_reducible assumption | exact reach w (Eq.refl _) | apply GoesTo.next
    | with_reducible apply healthWindow_goes | with_reducible apply tamperDetect_goes | with_reducible apply Goes.ite
    | split | dsimp only)

theorem execScrimCheck_goes {ps : List Part} {s0 : State} (net : Nat) (sent got : W32) (short : Bool) (s : State) (h :
    Goes ps s0 s) (w : [.sys, .fns, .journal, .deferred, .time, .ports, .bpcfg, .skim, .hawk, .trowel, .publ, .eng,
    .pke, .rng, .keys, .sealer, .tamper, .pair, .span, .log, .budget, .fw, .injected, .freeCtr, .outbox] ⊆ ps) :
    GoesTo ps s0 (execScrimCheck net sent got short s) := by
  unfold execScrimCheck
  repeat' (first
    | with_reducible assumption | exact reach w (Eq.refl _) | apply GoesTo.next | with_reducible apply updSrc_goes
    | with_reducible apply tamperDetect_goes | with_reducible apply Goes.ite | exact Or.inr (reachOne w (Eq.refl _))
    | exact Or.inr ⟨reachOne w (Eq.refl _), rfl⟩ | exact Or.inr ⟨reachOne w (Eq.refl _), fun c => c⟩
    | exact Or.inr ⟨reachOne w (Eq.refl _), rfl, rfl, rfl, rfl, rfl⟩ | exact Or.inl rfl | simp only [Goes.mk_eq]
    | with_reducible apply GoesMk.upd | split | dsimp only)

theorem backupTrip_goes {ps : List Part} {s0 : State} (i : Nat) (s : State) (h : Goes ps s0 s) (w : [.keys, .tamper] ⊆
    ps) : Goes ps s0 (backupTrip i s) := by
  unfold backupTrip
  repeat' (first
    | with_reducible assumption | exact reach w (Eq.refl _) | with_reducible apply eraseBbkek_goes
    | with_reducible apply updSrc_goes | with_reducible apply Goes.ite | exact Or.inr (reachOne w (Eq.refl _))
    | exact Or.inr ⟨reachOne w (Eq.refl _), rfl⟩ | exact Or.inl rfl | simp only [Goes.mk_eq]
    | with_reducible apply GoesMk.upd | split | dsimp only)

theorem backupOne_goes {ps : List Part} {s0 : State} (ev : BitVec 18) (i : Nat) (s : State) (h : Goes ps s0 s) (w :
    [.keys, .tamper] ⊆ ps) : Goes ps s0 (backupOne ev i s) := by
  unfold backupOne
  repeat' (first
    | with_reducible assumption | exact reach w (Eq.refl _) | with_reducible apply updSrc_goes
    | with_reducible apply backupTrip_goes | with_reducible apply Goes.ite | exact Or.inr (reachOne w (Eq.refl _))
    | exact Or.inr ⟨reachOne w (Eq.refl _), rfl⟩ | exact Or.inl rfl | simp only [Goes.mk_eq]
    | with_reducible apply GoesMk.upd | split | dsimp only)

theorem execBackupSample_goes {ps : List Part} {s0 : State} (ev : BitVec 18) (s : State) (h : Goes ps s0 s) (w :
    [.keys, .tamper] ⊆ ps) : GoesTo ps s0 (execBackupSample ev s) := by
  unfold execBackupSample
  repeat' (first
    | with_reducible assumption | exact reach w (Eq.refl _) | intro _ | apply GoesTo.next
    | with_reducible apply backupOne_goes | with_reducible apply Goes.foldl | with_reducible apply Goes.foldl1
    | with_reducible apply Goes.foldl2 | with_reducible apply Goes.ite | split | dsimp only)

theorem holdDie_goes {ps : List Part} {s0 : State} (s : State) (h : Goes ps s0 s) (w : [.sys, .fns, .journal, .deferred, .time, .ports, .bpcfg, .skim, .hawk, .trowel, .publ, .eng, .pke, .rng, .keys, .sealer, .tamper, .pair, .span, .log, .budget, .fw, .injected, .freeCtr, .outbox] ⊆ ps) :
    Goes ps s0 (holdDie s) := by
  unfold holdDie
  split
  · exact h
  · have k : Goes ps s0 (deviceReset (endedFirst s)) := deviceReset_goes _ (endedFirst_goes _ h (reach w rfl)) (reach w rfl)
    dsimp only
    generalize deviceReset (endedFirst s) = t at k ⊢
    simp only [Goes.mk_eq]
    repeat' (first
      | with_reducible assumption | exact Or.inr (reachOne w (Eq.refl _)) | exact Or.inr ⟨reachOne w (Eq.refl _), rfl⟩
      | exact Or.inr ⟨reachOne w (Eq.refl _), fun c => c⟩ | exact Or.inr ⟨reachOne w (Eq.refl _), rfl, rfl, rfl, rfl, rfl⟩
      | exact Or.inl rfl | with_reducible apply GoesMk.upd)

theorem execPorstNAssert_goes {ps : List Part} {s0 : State} (s : State) (h : Goes ps s0 s) (w : [.sys, .fns, .journal,
    .deferred, .time, .ports, .bpcfg, .skim, .hawk, .trowel, .publ, .eng, .pke, .rng, .keys, .sealer, .tamper, .pair,
    .span, .log, .budget, .fw, .injected, .freeCtr, .outbox] ⊆ ps) : GoesTo ps s0 (execPorstNAssert s) := by
  unfold execPorstNAssert
  repeat' (first
    | with_reducible assumption | exact reach w (Eq.refl _) | apply GoesTo.next | with_reducible apply holdDie_goes
    | dsimp only)

theorem execRailUndervoltage_goes {ps : List Part} {s0 : State} (s : State) (h : Goes ps s0 s) (w : [.sys, .fns,
    .journal, .deferred, .time, .ports, .bpcfg, .skim, .hawk, .trowel, .publ, .eng, .pke, .rng, .keys, .sealer,
    .tamper, .pair, .span, .log, .budget, .fw, .injected, .freeCtr, .outbox] ⊆ ps) : GoesTo ps s0
    (execRailUndervoltage s) := by
  unfold execRailUndervoltage
  repeat' (first
    | with_reducible assumption | exact reach w (Eq.refl _) | apply GoesTo.next | with_reducible apply holdDie_goes
    | dsimp only)

theorem execVauxLow_goes {ps : List Part} {s0 : State} (s : State) (h : Goes ps s0 s) (w : [.tamper] ⊆ ps) : GoesTo ps
    s0 (execVauxLow s) := by
  unfold execVauxLow
  repeat' (first
    | with_reducible assumption | apply GoesTo.next | exact Or.inr (reachOne w (Eq.refl _))
    | exact Or.inr ⟨reachOne w (Eq.refl _), rfl⟩ | exact Or.inl rfl | simp only [Goes.mk_eq]
    | with_reducible apply GoesMk.upd | dsimp only)

theorem execVauxWithinLimits_goes {ps : List Part} {s0 : State} (s : State) (h : Goes ps s0 s) (w : [.tamper] ⊆ ps) :
    GoesTo ps s0 (execVauxWithinLimits s) := by
  unfold execVauxWithinLimits
  repeat' (first
    | with_reducible assumption | apply GoesTo.next | exact Or.inr (reachOne w (Eq.refl _))
    | exact Or.inr ⟨reachOne w (Eq.refl _), rfl⟩ | exact Or.inl rfl | simp only [Goes.mk_eq]
    | with_reducible apply GoesMk.upd | dsimp only)

theorem execJtagAccess_goes {ps : List Part} {s0 : State} (op : JtagOp) (s : State) (h : Goes ps s0 s) (w : [.log,
    .fw] ⊆ ps) : GoesTo ps s0 (execJtagAccess op s) := by
  unfold execJtagAccess
  repeat' (first
    | with_reducible assumption | exact reach w (Eq.refl _) | apply GoesTo.next | exact GoesTo.refused
    | with_reducible apply measureLife_goes | with_reducible apply Goes.ite | exact Or.inr (reachOne w (Eq.refl _))
    | exact Or.inl rfl | simp only [Goes.mk_eq] | with_reducible apply GoesMk.upd | split | dsimp only)

theorem svcTamperEff_goes {ps : List Part} {s0 : State} (c : Cmd) (s : State) (h : Goes ps s0 s) (w : [.tamper, .log,
    .fw] ⊆ ps) : Goes ps s0 (svcTamperEff c s).st := by
  unfold svcTamperEff
  repeat' (first
    | with_reducible assumption | exact reach w (Eq.refl _) | with_reducible apply done_goes
    | with_reducible apply event_goes | with_reducible apply measure_goes | exact Or.inr (reachOne w (Eq.refl _))
    | exact Or.inr ⟨reachOne w (Eq.refl _), rfl⟩ | exact Or.inl rfl | simp only [Goes.mk_eq]
    | with_reducible apply GoesMk.upd | dsimp only)

theorem tamperShadow_goes {ps : List Part} {s0 : State} (s : State) (h : Goes ps s0 s) (w : [.sys, .fns, .journal,
    .deferred, .time, .ports, .bpcfg, .skim, .hawk, .trowel, .publ, .eng, .pke, .rng, .keys, .sealer, .tamper, .pair,
    .span, .log, .budget, .fw, .injected, .freeCtr, .outbox] ⊆ ps) : Goes ps s0 (tamperShadow s) := by
  unfold tamperShadow
  repeat' (first
    | with_reducible assumption | exact reach w (Eq.refl _) | with_reducible apply tamperDetect_goes
    | with_reducible apply Goes.ite | split | dsimp only)

theorem applyTamper_goes {ps : List Part} {s0 : State} (c : Cmd) (s : State) (h : Goes ps s0 s) (w : [.sys, .fns,
    .journal, .deferred, .time, .ports, .bpcfg, .skim, .hawk, .trowel, .publ, .eng, .pke, .rng, .keys, .sealer,
    .tamper, .pair, .span, .log, .budget, .fw, .injected, .freeCtr, .outbox] ⊆ ps) : Goes ps s0 (applyTamper c s) :=
    by
  unfold applyTamper
  repeat' (first
    | with_reducible assumption | exact reach w (Eq.refl _) | intro _ | with_reducible apply tamperShadow_goes
    | with_reducible apply applyQuorum_goes | with_reducible apply svcTamperEff_goes | with_reducible apply Goes.ite
    | split | dsimp only)

theorem execSvcTamper_goes {ps : List Part} {s0 : State} (c : Cmd) (s : State) (h : Goes ps s0 s) (w : [.sys, .fns,
    .journal, .deferred, .time, .ports, .bpcfg, .skim, .hawk, .trowel, .publ, .eng, .pke, .rng, .keys, .sealer,
    .tamper, .pair, .span, .log, .budget, .fw, .injected, .freeCtr, .outbox] ⊆ ps) : GoesTo ps s0 (execSvcTamper c s)
    := by
  unfold execSvcTamper
  repeat' (first
    | with_reducible assumption | exact reach w (Eq.refl _) | intro _ | apply GoesTo.next
    | with_reducible apply runConfigBy_goes | with_reducible apply applyTamper_goes | dsimp only)

theorem svcFlagclearEff_goes {ps : List Part} {s0 : State} (c : Cmd) (s : State) (h : Goes ps s0 s) (w : [.eng, .pke,
    .sealer, .tamper] ⊆ ps) : Goes ps s0 (svcFlagclearEff c s).st := by
  unfold svcFlagclearEff
  repeat' (first
    | with_reducible assumption | exact reach w (Eq.refl _) | with_reducible apply done_goes
    | with_reducible apply Goes.ite | exact Or.inr (reachOne w (Eq.refl _))
    | exact Or.inr ⟨reachOne w (Eq.refl _), rfl⟩ | exact Or.inl rfl | simp only [Goes.mk_eq]
    | with_reducible apply GoesMk.upd | split | dsimp only)

theorem execSvcFlagclear_goes {ps : List Part} {s0 : State} (c : Cmd) (s : State) (h : Goes ps s0 s) (w : [.journal,
    .eng, .pke, .sealer, .tamper, .span, .outbox] ⊆ ps) : GoesTo ps s0 (execSvcFlagclear c s) := by
  unfold execSvcFlagclear
  repeat' (first
    | with_reducible assumption | exact reach w (Eq.refl _) | intro _ | apply GoesTo.next
    | with_reducible apply runPlain_goes | with_reducible apply svcFlagclearEff_goes | dsimp only)

theorem modeShadow_goes {ps : List Part} {s0 : State} (s : State) (h : Goes ps s0 s) (w : [.sys, .fns, .journal,
    .deferred, .time, .ports, .bpcfg, .skim, .hawk, .trowel, .publ, .eng, .pke, .rng, .keys, .sealer, .tamper, .pair,
    .span, .log, .budget, .fw, .injected, .freeCtr, .outbox] ⊆ ps) : Goes ps s0 (modeShadow s) := by
  unfold modeShadow
  repeat' (first
    | with_reducible assumption | exact reach w (Eq.refl _) | with_reducible apply tamperDetect_goes
    | with_reducible apply Goes.ite | split | dsimp only)

theorem svcEnterEff_goes {ps : List Part} {s0 : State} (x1 : Cmd) (s : State) (h : Goes ps s0 s) (w : [.sys, .log] ⊆
    ps) : Goes ps s0 (svcEnterEff x1 s).st := by
  unfold svcEnterEff
  repeat' (first
    | with_reducible assumption | exact reach w (Eq.refl _) | with_reducible apply done_goes
    | with_reducible apply changeMode_goes | dsimp only | omega)

theorem applyEnter_goes {ps : List Part} {s0 : State} (c : Cmd) (s : State) (h : Goes ps s0 s) (w : [.sys, .fns,
    .journal, .deferred, .time, .ports, .bpcfg, .skim, .hawk, .trowel, .publ, .eng, .pke, .rng, .keys, .sealer,
    .tamper, .pair, .span, .log, .budget, .fw, .injected, .freeCtr, .outbox] ⊆ ps) : Goes ps s0 (applyEnter c s) := by
  unfold applyEnter
  repeat' (first
    | with_reducible assumption | exact reach w (Eq.refl _) | intro _ | with_reducible apply modeShadow_goes
    | with_reducible apply applyQuorum_goes | with_reducible apply svcEnterEff_goes | with_reducible apply Goes.ite
    | split | dsimp only)

theorem execSvcEnter_goes {ps : List Part} {s0 : State} (c : Cmd) (s : State) (h : Goes ps s0 s) (w : [.sys, .fns,
    .journal, .deferred, .time, .ports, .bpcfg, .skim, .hawk, .trowel, .publ, .eng, .pke, .rng, .keys, .sealer,
    .tamper, .pair, .span, .log, .budget, .fw, .injected, .freeCtr, .outbox] ⊆ ps) : GoesTo ps s0 (execSvcEnter c s)
    := by
  unfold execSvcEnter
  repeat' (first
    | with_reducible assumption | exact reach w (Eq.refl _) | intro _ | apply GoesTo.next
    | with_reducible apply runConfigBy_goes | with_reducible apply applyEnter_goes | dsimp only)

theorem svcExitEff_goes {ps : List Part} {s0 : State} (c : Cmd) (s : State) (h : Goes ps s0 s) (w : [.keys, .fw] ⊆ ps)
    : Goes ps s0 (svcExitEff c s).st := by
  unfold svcExitEff
  repeat' (first
    | with_reducible assumption | exact reach w (Eq.refl _) | with_reducible apply wipeOwnerSlots_goes
    | with_reducible apply eraseBbkek_goes | with_reducible apply done_goes | with_reducible apply Goes.ite
    | exact Or.inr (reachOne w (Eq.refl _)) | exact Or.inr ⟨reachOne w (Eq.refl _), rfl⟩ | exact Or.inl rfl
    | simp only [Goes.mk_eq] | with_reducible apply GoesMk.upd | split | dsimp only)

theorem execSvcExit_goes {ps : List Part} {s0 : State} (c : Cmd) (s : State) (h : Goes ps s0 s) (w : [.sys, .journal,
    .deferred, .keys, .span, .fw, .outbox] ⊆ ps) : GoesTo ps s0 (execSvcExit c s) := by
  unfold execSvcExit
  repeat' (first
    | with_reducible assumption | exact reach w (Eq.refl _) | intro _ | apply GoesTo.next
    | with_reducible apply runConfig_goes | with_reducible apply svcExitEff_goes | dsimp only)

theorem setOfficers_goes {ps : List Part} {s0 : State} (c : Cmd) (l : List Byte) (s : State) (h : Goes ps s0 s) (w :
    [.keys] ⊆ ps) : Goes ps s0 (setOfficers c l s) := by
  unfold setOfficers
  repeat' (first
    | with_reducible assumption | intro _ | with_reducible apply Goes.foldl | with_reducible apply Goes.foldl1
    | with_reducible apply Goes.foldl2 | with_reducible apply Goes.ite | exact Or.inr (reachOne w (Eq.refl _))
    | exact Or.inr ⟨reachOne w (Eq.refl _), rfl⟩ | exact Or.inl rfl | simp only [Goes.mk_eq]
    | with_reducible apply GoesMk.upd | split | dsimp only)

theorem svcEnrolEff_goes {ps : List Part} {s0 : State} (c : Cmd) (s : State) (h : Goes ps s0 s) (w : [.eng, .rng,
    .keys, .log, .budget, .fw] ⊆ ps) : Goes ps s0 (svcEnrolEff c s).st := by
  unfold svcEnrolEff
  repeat' (first
    | with_reducible assumption | exact reach w (Eq.refl _) | with_reducible apply generate_goes
    | refine generate_pair (by with_reducible assumption) ?_ ?_ | with_reducible apply generateKey_goes
    | refine generateKey_pair (by with_reducible assumption) ?_ ?_ | with_reducible apply done_goes
    | with_reducible apply measureOfficers_goes | with_reducible apply setOfficers_goes
    | exact Or.inr (reachOne w (Eq.refl _)) | exact Or.inr ⟨reachOne w (Eq.refl _), rfl⟩ | exact Or.inl rfl
    | simp only [Goes.mk_eq] | with_reducible apply GoesMk.upd | dsimp only)

theorem applyEnrol_goes {ps : List Part} {s0 : State} (c : Cmd) (s : State) (h : Goes ps s0 s) (w : [.sys, .journal,
    .eng, .pke, .rng, .keys, .span, .log, .budget, .fw, .outbox] ⊆ ps) : Goes ps s0 (applyEnrol c s) := by
  unfold applyEnrol
  repeat' (first
    | with_reducible assumption | exact reach w (Eq.refl _) | intro _ | with_reducible apply applyQuorum_goes
    | with_reducible apply svcEnrolEff_goes | with_reducible apply applyConfig_goes | with_reducible apply Goes.ite
    | split | dsimp only)

theorem execSvcEnrol_goes {ps : List Part} {s0 : State} (c : Cmd) (s : State) (h : Goes ps s0 s) (w : [.sys, .journal,
    .deferred, .eng, .pke, .rng, .keys, .span, .log, .budget, .fw, .outbox] ⊆ ps) : GoesTo ps s0 (execSvcEnrol c s) :=
    by
  unfold execSvcEnrol
  repeat' (first
    | with_reducible assumption | exact reach w (Eq.refl _) | intro _ | apply GoesTo.next
    | with_reducible apply withDraw_goes | with_reducible apply runConfigBy_goes
    | with_reducible apply applyEnrol_goes | exact Or.inr (reachOne w (Eq.refl _))
    | exact Or.inr ⟨reachOne w (Eq.refl _), rfl⟩ | exact Or.inr ⟨reachOne w (Eq.refl _), rfl, rfl, rfl, rfl, rfl⟩
    | exact Or.inl rfl | simp only [Goes.mk_eq] | with_reducible apply GoesMk.upd | dsimp only)

theorem svcOfficerEff_goes {ps : List Part} {s0 : State} (c : Cmd) (s : State) (h : Goes ps s0 s) (w : [.keys, .log,
    .fw] ⊆ ps) : Goes ps s0 (svcOfficerEff c s).st := by
  unfold svcOfficerEff
  repeat' (first
    | with_reducible assumption | exact reach w (Eq.refl _) | with_reducible apply done_goes
    | with_reducible apply measureOfficers_goes | with_reducible apply setOfficers_goes | dsimp only)

theorem execSvcOfficer_goes {ps : List Part} {s0 : State} (c : Cmd) (s : State) (h : Goes ps s0 s) (w : [.sys,
    .journal, .deferred, .pke, .keys, .span, .log, .budget, .fw, .outbox] ⊆ ps) : GoesTo ps s0 (execSvcOfficer c s) :=
    by
  unfold execSvcOfficer
  repeat' (first
    | with_reducible assumption | exact reach w (Eq.refl _) | intro _ | apply GoesTo.next
    | with_reducible apply runConfigBy_goes | with_reducible apply applyQuorum_goes
    | with_reducible apply svcOfficerEff_goes | dsimp only)

theorem svcReleaseEff_goes {ps : List Part} {s0 : State} (c : Cmd) (s : State) (h : Goes ps s0 s) (w : [.trowel, .keys, .log, .fw] ⊆ ps) :
    Goes ps s0 (svcReleaseEff c s).st :=
  measureLife_goes _ (h.move (fun l => ⟨l, Nat.le_refl _, Nat.le_refl _, Nat.le_succ _, Nat.le_refl _, Eq.refl _⟩)
    (fun p hp => by
      cases p
      all_goals first | exact Eq.refl _ | exact absurd (reachOne w (Eq.refl _)) hp)) (reach w rfl)

theorem execSvcRelease_goes {ps : List Part} {s0 : State} (c : Cmd) (s : State) (h : Goes ps s0 s) (w : [.sys,
    .journal, .deferred, .trowel, .pke, .keys, .span, .log, .budget, .fw, .outbox] ⊆ ps) : GoesTo ps s0
    (execSvcRelease c s) := by
  unfold execSvcRelease
  repeat' (first
    | with_reducible assumption | exact reach w (Eq.refl _) | intro _ | apply GoesTo.next
    | with_reducible apply runConfigBy_goes | with_reducible apply applyQuorum_goes
    | with_reducible apply svcReleaseEff_goes | dsimp only)

theorem execSvcAttest_goes {ps : List Part} {s0 : State} (c : Cmd) (s : State) (h : Goes ps s0 s) (w : [.journal,
    .eng, .pke, .rng, .span, .log, .budget, .outbox] ⊆ ps) : GoesTo ps s0 (execSvcAttest c s) := by
  unfold execSvcAttest
  repeat' (first
    | with_reducible assumption | exact reach w (Eq.refl _) | apply GoesTo.next
    | with_reducible apply internalSign_goes | refine internalSign_pair (by with_reducible assumption) ?_ ?_
    | with_reducible apply settle_goes | with_reducible apply Goes.ite | exact Or.inr (reachOne w (Eq.refl _))
    | exact Or.inl rfl | simp only [Goes.mk_eq] | with_reducible apply GoesMk.upd | split | dsimp only)

theorem fwWork_goes {ps : List Part} {s0 : State} (c : Cmd) (s : State) (h : Goes ps s0 s) (w : [.pke, .log, .budget]
    ⊆ ps) : Goes ps s0 (fwWork c s) := by
  unfold fwWork
  repeat' (first
    | with_reducible assumption | exact reach w (Eq.refl _) | with_reducible apply imageWork_goes
    | with_reducible apply Goes.ite | split | dsimp only)

theorem writeBank_goes {ps : List Part} {s0 : State} (i : FwImage) (s : State) (h : Goes ps s0 s) (w : [.fw] ⊆ ps) :
    Goes ps s0 (writeBank i s) := by
  unfold writeBank
  repeat' (first
    | with_reducible assumption | with_reducible apply Goes.ite | exact Or.inr (reachOne w (Eq.refl _))
    | exact Or.inl rfl | simp only [Goes.mk_eq] | with_reducible apply GoesMk.upd | split | dsimp only)

theorem commitBank_goes {ps : List Part} {s0 : State} (comp : Nat) (s : State) (h : Goes ps s0 s) (w : [.fw] ⊆ ps) :
    Goes ps s0 (commitBank comp s) := by
  unfold commitBank
  repeat' (first
    | with_reducible assumption | exact Or.inr (reachOne w (Eq.refl _)) | exact Or.inl rfl | simp only [Goes.mk_eq]
    | with_reducible apply GoesMk.upd | dsimp only)

theorem fwloadEff_goes {ps : List Part} {s0 : State} (c : Cmd) (s : State) (h : Goes ps s0 s) (w : [.fw, .freeCtr] ⊆
    ps) : Goes ps s0 (fwloadEff c s).st := by
  unfold fwloadEff
  repeat' (first
    | with_reducible assumption | exact reach w (Eq.refl _) | with_reducible apply writeBank_goes
    | with_reducible apply done_goes | with_reducible apply commitBank_goes | with_reducible apply Goes.ite
    | exact Or.inr (reachOne w (Eq.refl _)) | exact Or.inl rfl | simp only [Goes.mk_eq]
    | with_reducible apply GoesMk.upd | split | dsimp only)

theorem fwVerified_goes {ps : List Part} {s0 : State} (check : Cmd → State → Option Nat) (eff : Cmd → State → Eff) (c
    : Cmd) (s : State) (h : Goes ps s0 s) (heff : ∀ a0 s, Goes ps s0 s → Goes ps s0 (eff a0 s).st) (w : [.sys,
    .journal, .pke, .span, .log, .budget, .outbox] ⊆ ps) : Goes ps s0 (fwVerified check eff c s) := by
  unfold fwVerified
  repeat' (first
    | with_reducible assumption | exact reach w (Eq.refl _) | intro _ | apply heff
    | with_reducible apply applyConfig_goes | with_reducible apply fwWork_goes | dsimp only)

theorem fwloadPutty_goes {ps : List Part} {s0 : State} (c : Cmd) (s : State) (h : Goes ps s0 s) (w : [.journal, .pke,
    .span, .log, .budget, .fw, .freeCtr, .outbox] ⊆ ps) : Goes ps s0 (fwloadPutty c s) := by
  unfold fwloadPutty
  repeat' (first
    | with_reducible assumption | exact reach w (Eq.refl _) | with_reducible apply fwWork_goes
    | with_reducible apply settle_goes | with_reducible apply startCmd_goes | with_reducible apply writeBank_goes
    | exact Or.inr (reachOne w (Eq.refl _)) | exact Or.inl rfl | simp only [Goes.mk_eq]
    | with_reducible apply GoesMk.upd | split | dsimp only)

theorem execSvcFwloadImage_goes {ps : List Part} {s0 : State} (c : Cmd) (s : State) (h : Goes ps s0 s) (w : [.sys,
    .journal, .deferred, .pke, .span, .log, .budget, .fw, .freeCtr, .outbox] ⊆ ps) : GoesTo ps s0 (execSvcFwloadImage
    c s) := by
  unfold execSvcFwloadImage
  repeat' (first
    | with_reducible assumption | exact reach w (Eq.refl _) | intro _ | apply GoesTo.next
    | with_reducible apply fwloadPutty_goes | with_reducible apply runConfigBy_goes
    | with_reducible apply fwVerified_goes | with_reducible apply fwloadEff_goes | with_reducible apply Goes.ite
    | split | dsimp only)

theorem execPuttySwap_goes {ps : List Part} {s0 : State} (s : State) (h : Goes ps s0 s) (w : [.sys, .journal, .span,
    .log, .fw, .outbox] ⊆ ps) : GoesTo ps s0 (execPuttySwap s) := by
  unfold execPuttySwap
  repeat' (first
    | with_reducible assumption | exact reach w (Eq.refl _) | apply GoesTo.next | with_reducible apply takeImage_goes
    | with_reducible apply commitBank_goes | with_reducible apply settle_goes | with_reducible apply bumpMirrored_goes
    | with_reducible apply Goes.ite | exact Or.inr (reachOne w (Eq.refl _))
    | exact Or.inr ⟨reachOne w (Eq.refl _), rfl⟩ | exact Or.inr ⟨reachOne w (Eq.refl _), rfl, rfl, rfl, rfl, rfl⟩
    | exact Or.inl rfl | simp only [Goes.mk_eq] | with_reducible apply GoesMk.upd | split | dsimp only)

theorem execShadowSwitch_goes {ps : List Part} {s0 : State} (comp : Nat) (s : State) (h : Goes ps s0 s) (w : [.log,
    .fw] ⊆ ps) : GoesTo ps s0 (execShadowSwitch comp s) := by
  unfold execShadowSwitch
  repeat' (first
    | with_reducible assumption | exact reach w (Eq.refl _) | apply GoesTo.next | with_reducible apply takeImage_goes
    | with_reducible apply commitBank_goes | with_reducible apply Goes.ite | exact Or.inr (reachOne w (Eq.refl _))
    | exact Or.inl rfl | simp only [Goes.mk_eq] | with_reducible apply GoesMk.upd | split | dsimp only)

theorem trimsEff_goes {ps : List Part} {s0 : State} (c : Cmd) (s : State) (h : Goes ps s0 s) (w : [.log, .fw] ⊆ ps) :
    Goes ps s0 (trimsEff c s).st := by
  unfold trimsEff
  repeat' (first
    | with_reducible assumption | exact reach w (Eq.refl _) | with_reducible apply done_goes
    | with_reducible apply measure_goes | exact Or.inr (reachOne w (Eq.refl _)) | exact Or.inl rfl
    | simp only [Goes.mk_eq] | with_reducible apply GoesMk.upd | dsimp only)

theorem execSvcFwloadTrims_goes {ps : List Part} {s0 : State} (c : Cmd) (s : State) (h : Goes ps s0 s) (w : [.sys,
    .journal, .deferred, .pke, .span, .log, .budget, .fw, .outbox] ⊆ ps) : GoesTo ps s0 (execSvcFwloadTrims c s) := by
  unfold execSvcFwloadTrims
  repeat' (first
    | with_reducible assumption | exact reach w (Eq.refl _) | intro _ | apply GoesTo.next
    | with_reducible apply runConfigBy_goes | with_reducible apply fwVerified_goes
    | with_reducible apply trimsEff_goes | with_reducible apply Goes.ite | split | dsimp only)

theorem servoEff_goes {ps : List Part} {s0 : State} (c : Cmd) (s : State) (h : Goes ps s0 s) (w : [.log, .fw] ⊆ ps) :
    Goes ps s0 (servoEff c s).st := by
  unfold servoEff
  repeat' (first
    | with_reducible assumption | exact reach w (Eq.refl _) | with_reducible apply done_goes
    | with_reducible apply measure_goes | exact Or.inr (reachOne w (Eq.refl _)) | exact Or.inl rfl
    | simp only [Goes.mk_eq] | with_reducible apply GoesMk.upd | dsimp only)

theorem execSvcFwloadServo_goes {ps : List Part} {s0 : State} (c : Cmd) (s : State) (h : Goes ps s0 s) (w : [.sys,
    .journal, .deferred, .span, .log, .fw, .outbox] ⊆ ps) : GoesTo ps s0 (execSvcFwloadServo c s) := by
  unfold execSvcFwloadServo
  repeat' (first
    | with_reducible assumption | exact reach w (Eq.refl _) | intro _ | apply GoesTo.next
    | with_reducible apply runConfig_goes | with_reducible apply servoEff_goes | with_reducible apply Goes.ite | split
    | dsimp only)

theorem rootShadow_goes {ps : List Part} {s0 : State} (c : Cmd) (s : State) (h : Goes ps s0 s) (w : [.sys, .fns,
    .journal, .deferred, .time, .ports, .bpcfg, .skim, .hawk, .trowel, .publ, .eng, .pke, .rng, .keys, .sealer,
    .tamper, .pair, .span, .log, .budget, .fw, .injected, .freeCtr, .outbox] ⊆ ps) : Goes ps s0 (rootShadow c s) := by
  unfold rootShadow
  repeat' (first
    | with_reducible assumption | exact reach w (Eq.refl _) | with_reducible apply tamperDetect_goes
    | with_reducible apply Goes.ite | split | dsimp only)

theorem applyFnmap_goes {ps : List Part} {s0 : State} (c : Cmd) (s : State) (h : Goes ps s0 s) (w : [.sys, .fns,
    .journal, .deferred, .time, .ports, .bpcfg, .skim, .hawk, .trowel, .publ, .eng, .pke, .rng, .keys, .sealer,
    .tamper, .pair, .span, .log, .budget, .fw, .injected, .freeCtr, .outbox] ⊆ ps) : Goes ps s0 (applyFnmap c s) := by
  unfold applyFnmap
  repeat' (first
    | with_reducible assumption | exact reach w (Eq.refl _) | intro _ | with_reducible apply rootShadow_goes
    | with_reducible apply applyConfig_goes | with_reducible apply sysFnmapEff_goes | with_reducible apply Goes.ite
    | split | dsimp only)

theorem execSysFnmap_goes {ps : List Part} {s0 : State} (c : Cmd) (s : State) (h : Goes ps s0 s) (w : [.sys, .fns,
    .journal, .deferred, .time, .ports, .bpcfg, .skim, .hawk, .trowel, .publ, .eng, .pke, .rng, .keys, .sealer,
    .tamper, .pair, .span, .log, .budget, .fw, .injected, .freeCtr, .outbox] ⊆ ps) : GoesTo ps s0 (execSysFnmap c s)
    := by
  unfold execSysFnmap
  repeat' (first
    | with_reducible assumption | exact reach w (Eq.refl _) | intro _ | apply GoesTo.next
    | with_reducible apply runConfigBy_goes | with_reducible apply applyFnmap_goes | dsimp only)

theorem slotShadow_goes {ps : List Part} {s0 : State} (c : Cmd) (s : State) (h : Goes ps s0 s) (w : [.sys, .fns,
    .journal, .deferred, .time, .ports, .bpcfg, .skim, .hawk, .trowel, .publ, .eng, .pke, .rng, .keys, .sealer,
    .tamper, .pair, .span, .log, .budget, .fw, .injected, .freeCtr, .outbox] ⊆ ps) : Goes ps s0 (slotShadow c s) := by
  unfold slotShadow
  repeat' (first
    | with_reducible assumption | exact reach w (Eq.refl _) | with_reducible apply tamperDetect_goes
    | with_reducible apply Goes.ite | split | dsimp only)

theorem applyKeys_goes {ps : List Part} {s0 : State} (c : Cmd) (s : State) (h : Goes ps s0 s) (w : [.sys, .fns,
    .journal, .deferred, .time, .ports, .bpcfg, .skim, .hawk, .trowel, .publ, .eng, .pke, .rng, .keys, .sealer,
    .tamper, .pair, .span, .log, .budget, .fw, .injected, .freeCtr, .outbox] ⊆ ps) : Goes ps s0 (applyKeys c s) := by
  unfold applyKeys
  repeat' (first
    | with_reducible assumption | exact reach w (Eq.refl _) | with_reducible apply slotShadow_goes
    | with_reducible apply applyEnvelope_goes | with_reducible apply Goes.ite | split | dsimp only)

theorem execKeyApply_goes {ps : List Part} {s0 : State} (c : Cmd) (s : State) (h : Goes ps s0 s) (w : [.sys, .fns,
    .journal, .deferred, .time, .ports, .bpcfg, .skim, .hawk, .trowel, .publ, .eng, .pke, .rng, .keys, .sealer,
    .tamper, .pair, .span, .log, .budget, .fw, .injected, .freeCtr, .outbox] ⊆ ps) : GoesTo ps s0 (execKeyApply c s)
    := by
  unfold execKeyApply
  repeat' (first
    | with_reducible assumption | exact reach w (Eq.refl _) | intro _ | apply GoesTo.next
    | with_reducible apply withDraw_goes | with_reducible apply runConfigBy_goes | with_reducible apply applyKeys_goes
    | with_reducible apply Goes.ite | exact Or.inr (reachOne w (Eq.refl _))
    | exact Or.inr ⟨reachOne w (Eq.refl _), rfl⟩ | exact Or.inr ⟨reachOne w (Eq.refl _), fun c => c⟩
    | exact Or.inr ⟨reachOne w (Eq.refl _), rfl, rfl, rfl, rfl, rfl⟩ | exact Or.inl rfl | simp only [Goes.mk_eq]
    | with_reducible apply GoesMk.upd | split | dsimp only)

theorem tableShadow_goes {ps : List Part} {s0 : State} (s : State) (h : Goes ps s0 s) (w : [.sys, .fns, .journal,
    .deferred, .time, .ports, .bpcfg, .skim, .hawk, .trowel, .publ, .eng, .pke, .rng, .keys, .sealer, .tamper, .pair,
    .span, .log, .budget, .fw, .injected, .freeCtr, .outbox] ⊆ ps) : Goes ps s0 (tableShadow s) := by
  unfold tableShadow
  repeat' (first
    | with_reducible assumption | exact reach w (Eq.refl _) | with_reducible apply tamperDetect_goes
    | with_reducible apply Goes.ite | split | dsimp only)

theorem applyBudget_goes {ps : List Part} {s0 : State} (c : Cmd) (s : State) (h : Goes ps s0 s) (w : [.sys, .fns,
    .journal, .deferred, .time, .ports, .bpcfg, .skim, .hawk, .trowel, .publ, .eng, .pke, .rng, .keys, .sealer,
    .tamper, .pair, .span, .log, .budget, .fw, .injected, .freeCtr, .outbox] ⊆ ps) : Goes ps s0 (applyBudget c s) :=
    by
  unfold applyBudget
  repeat' (first
    | with_reducible assumption | exact reach w (Eq.refl _) | intro _ | with_reducible apply tableShadow_goes
    | with_reducible apply applyConfig_goes | with_reducible apply budgetEff_goes | with_reducible apply Goes.ite
    | split | dsimp only)

theorem execSvcFwloadBudget_goes {ps : List Part} {s0 : State} (c : Cmd) (s : State) (h : Goes ps s0 s) (w : [.sys,
    .fns, .journal, .deferred, .time, .ports, .bpcfg, .skim, .hawk, .trowel, .publ, .eng, .pke, .rng, .keys, .sealer,
    .tamper, .pair, .span, .log, .budget, .fw, .injected, .freeCtr, .outbox] ⊆ ps) : GoesTo ps s0 (execSvcFwloadBudget
    c s) := by
  unfold execSvcFwloadBudget
  repeat' (first
    | with_reducible assumption | exact reach w (Eq.refl _) | intro _ | apply GoesTo.next
    | with_reducible apply runConfigBy_goes | with_reducible apply applyBudget_goes | with_reducible apply Goes.ite
    | split | dsimp only)

theorem updPair_goes {ps : List Part} {s0 : State} (g : Pair → Pair) (s : State) (h : Goes ps s0 s) (w : [.pair] ⊆ ps)
    : Goes ps s0 (updPair g s) := by
  unfold updPair
  repeat' (first
    | with_reducible assumption | exact Or.inr (reachOne w (Eq.refl _)) | exact Or.inl rfl | simp only [Goes.mk_eq]
    | with_reducible apply GoesMk.upd | dsimp only)

theorem heard_goes {ps : List Part} {s0 : State} (s : State) (h : Goes ps s0 s) (w : [.pair] ⊆ ps) : Goes ps s0 (heard
    s) := by
  unfold heard
  repeat' (first
    | with_reducible assumption | exact reach w (Eq.refl _) | with_reducible apply updPair_goes
    | exact Or.inr (reachOne w (Eq.refl _)) | exact Or.inl rfl | simp only [Goes.mk_eq]
    | with_reducible apply GoesMk.upd | dsimp only)

theorem refit_goes {ps : List Part} {s0 : State} (s : State) (h : Goes ps s0 s) (w : [.pair, .log] ⊆ ps) : Goes ps s0
    (refit s) := by
  unfold refit
  repeat' (first
    | with_reducible assumption | exact reach w (Eq.refl _) | with_reducible apply updPair_goes
    | with_reducible apply event_goes | with_reducible apply Goes.ite | exact Or.inr (reachOne w (Eq.refl _))
    | exact Or.inl rfl | simp only [Goes.mk_eq] | with_reducible apply GoesMk.upd | split | dsimp only)

theorem becomeStandby_goes {ps : List Part} {s0 : State} (synced : Bool) (s : State) (h : Goes ps s0 s) (w : [.pair] ⊆
    ps) : Goes ps s0 (becomeStandby synced s) := by
  unfold becomeStandby
  repeat' (first
    | with_reducible assumption | exact reach w (Eq.refl _) | with_reducible apply updPair_goes
    | exact Or.inr (reachOne w (Eq.refl _)) | exact Or.inl rfl | simp only [Goes.mk_eq]
    | with_reducible apply GoesMk.upd | dsimp only)

theorem atAdmission_goes {ps : List Part} {s0 : State} (c : Cmd) (s : State) (h : Goes ps s0 s) (w : [.journal,
    .trowel, .outbox] ⊆ ps) : Goes ps s0 (atAdmission c s) := by
  unfold atAdmission
  repeat' (first
    | with_reducible assumption | exact reach w (Eq.refl _) | with_reducible apply abortMark_goes
    | with_reducible apply stampMbox_goes | with_reducible apply Goes.ite | split | dsimp only)

theorem admissionDone_goes {ps : List Part} {s0 : State} (c : Cmd) (s : State) (h : Goes ps s0 s) (w : [.journal,
    .trowel, .span, .outbox] ⊆ ps) : Goes ps s0 (admissionDone c s) := by
  unfold admissionDone
  repeat' (first
    | with_reducible assumption | exact reach w (Eq.refl _) | with_reducible apply atAdmission_goes
    | with_reducible apply sendPacket_goes | with_reducible apply Goes.ite | split | dsimp only)

theorem proceed_goes {ps : List Part} {s0 : State} (s : State) (h : Goes ps s0 s) (w : [.sys, .fns, .journal, .ports,
    .bpcfg, .skim, .hawk, .trowel, .publ, .eng, .pair, .span, .log, .budget, .outbox] ⊆ ps) : Goes ps s0 (proceed s)
    := by
  unfold proceed
  repeat' (first
    | with_reducible assumption | exact reach w (Eq.refl _) | intro _ | with_reducible apply admissionDone_goes
    | with_reducible apply releaseHeld_goes | with_reducible apply writeSheet_goes | with_reducible apply Goes.foldl
    | with_reducible apply Goes.foldl1 | with_reducible apply Goes.foldl2 | exact Or.inr (reachOne w (Eq.refl _))
    | exact Or.inr ⟨reachOne w (Eq.refl _), rfl⟩ | exact Or.inr ⟨reachOne w (Eq.refl _), fun c => c⟩
    | exact Or.inr ⟨reachOne w (Eq.refl _), rfl, rfl, rfl, rfl, rfl⟩ | exact Or.inl rfl | simp only [Goes.mk_eq]
    | with_reducible apply GoesMk.upd | dsimp only)

theorem dropWaiting_goes {ps : List Part} {s0 : State} (tok : Nat) (s : State) (h : Goes ps s0 s) (w : [.fns] ⊆ ps) :
    Goes ps s0 (dropWaiting tok s) := by
  unfold dropWaiting
  repeat' (first
    | with_reducible assumption | exact reach w (Eq.refl _) | with_reducible apply updQueue_goes
    | with_reducible apply admitted_goes | with_reducible apply Goes.ite | exact Or.inr (reachOne w (Eq.refl _))
    | exact Or.inl rfl | simp only [Goes.mk_eq] | with_reducible apply GoesMk.upd | split | dsimp only)

theorem ledgerTok_goes {ps : List Part} {s0 : State} (tok : Nat) (s : State) (h : Goes ps s0 s) (w : [.fns, .journal]
    ⊆ ps) : Goes ps s0 (ledgerTok tok s) := by
  unfold ledgerTok
  repeat' (first
    | with_reducible assumption | exact reach w (Eq.refl _) | with_reducible apply updJ_goes
    | with_reducible apply dropWaiting_goes | with_reducible apply updFn_goes | with_reducible apply Goes.ite
    | exact Or.inr (reachOne w (Eq.refl _)) | exact Or.inl rfl | simp only [Goes.mk_eq]
    | with_reducible apply GoesMk.upd | split | dsimp only)

theorem dropFrames_goes {ps : List Part} {s0 : State} (s : State) (h : Goes ps s0 s) (w : [.ports, .skim, .publ] ⊆ ps)
    : Goes ps s0 (dropFrames s) := by
  unfold dropFrames
  repeat' (first
    | with_reducible assumption | exact reach w (Eq.refl _) | intro _ | with_reducible apply frameGone_goes
    | with_reducible apply Goes.foldl | with_reducible apply Goes.foldl1 | with_reducible apply Goes.foldl2
    | exact Or.inr (reachOne w (Eq.refl _)) | exact Or.inl rfl | simp only [Goes.mk_eq]
    | with_reducible apply GoesMk.upd | dsimp only)

theorem demote_goes {ps : List Part} {s0 : State} (s : State) (h : Goes ps s0 s) (w : [.sys, .fns, .journal,
    .deferred, .ports, .skim, .hawk, .trowel, .publ, .pke, .pair, .span, .log, .outbox] ⊆ ps) : Goes ps s0 (demote s)
    := by
  unfold demote
  repeat' (first
    | with_reducible assumption | exact reach w (Eq.refl _) | intro _ | with_reducible apply event_goes
    | with_reducible apply cntPrc_goes | with_reducible apply ledgerTok_goes | with_reducible apply cancel_goes
    | with_reducible apply dropFrames_goes | with_reducible apply becomeStandby_goes | with_reducible apply refit_goes
    | with_reducible apply enterMode_goes | with_reducible apply Goes.foldl | with_reducible apply Goes.foldl1
    | with_reducible apply Goes.foldl2 | with_reducible apply Goes.ite | exact Or.inr (reachOne w (Eq.refl _))
    | exact Or.inr ⟨reachOne w (Eq.refl _), rfl⟩ | exact Or.inr ⟨reachOne w (Eq.refl _), fun c => c⟩
    | exact Or.inr ⟨reachOne w (Eq.refl _), rfl, rfl, rfl, rfl, rfl⟩ | exact Or.inl rfl | simp only [Goes.mk_eq]
    | with_reducible apply GoesMk.upd | split | dsimp only | omega)

theorem settleOne_goes {ps : List Part} {s0 : State} (tok : Nat) (j : JEntry) (s : State) (h : Goes ps s0 s) (w :
    [.fns, .ports, .bpcfg, .skim, .eng, .log, .budget, .outbox] ⊆ ps) : Goes ps s0 (settleOne tok j s) := by
  unfold settleOne
  repeat' (first
    | with_reducible assumption | exact reach w (Eq.refl _) | with_reducible apply updFn_goes
    | with_reducible apply resend_goes | with_reducible apply Goes.ite | exact Or.inr (reachOne w (Eq.refl _))
    | exact Or.inl rfl | simp only [Goes.mk_eq] | with_reducible apply GoesMk.upd | split | dsimp only)

theorem settleOther_goes {ps : List Part} {s0 : State} (handover : Bool) (s : State) (h : Goes ps s0 s) (w : [.fns,
    .ports, .bpcfg, .skim, .eng, .pair, .log, .budget, .outbox] ⊆ ps) : Goes ps s0 (settleOther handover s) := by
  unfold settleOther
  repeat' (first
    | with_reducible assumption | exact reach w (Eq.refl _) | intro _ | with_reducible apply updPair_goes
    | with_reducible apply settleOne_goes | with_reducible apply Goes.foldl | with_reducible apply Goes.foldl1
    | with_reducible apply Goes.foldl2 | exact Or.inr (reachOne w (Eq.refl _)) | exact Or.inl rfl
    | simp only [Goes.mk_eq] | with_reducible apply GoesMk.upd | dsimp only)

theorem catchUp_goes {ps : List Part} {s0 : State} (s : State) (h : Goes ps s0 s) (w : [.sys, .fns, .hawk, .eng,
    .span, .log, .budget, .outbox] ⊆ ps) : Goes ps s0 (catchUp s) := by
  unfold catchUp
  repeat' (first
    | with_reducible assumption | exact reach w (Eq.refl _) | intro _ | with_reducible apply writeSheet_goes
    | with_reducible apply Goes.foldl | with_reducible apply Goes.foldl1 | with_reducible apply Goes.foldl2
    | with_reducible apply Goes.ite | exact Or.inr (reachOne w (Eq.refl _))
    | exact Or.inr ⟨reachOne w (Eq.refl _), rfl⟩ | exact Or.inr ⟨reachOne w (Eq.refl _), rfl, rfl, rfl, rfl, rfl⟩
    | exact Or.inl rfl | simp only [Goes.mk_eq] | with_reducible apply GoesMk.upd | split | dsimp only)

theorem takeOver_goes {ps : List Part} {s0 : State} (synced : Bool) (s : State) (h : Goes ps s0 s) (w : [.sys, .fns,
    .journal, .ports, .bpcfg, .skim, .hawk, .publ, .eng, .pair, .span, .log, .budget, .outbox] ⊆ ps) : Goes ps s0
    (takeOver synced s) := by
  unfold takeOver
  repeat' (first
    | with_reducible assumption | exact reach w (Eq.refl _) | intro _ | with_reducible apply event_goes
    | with_reducible apply cntPrc_goes | with_reducible apply genUp_goes | with_reducible apply updPair_goes
    | with_reducible apply enterMode_goes | with_reducible apply settleOther_goes
    | with_reducible apply performPend_goes | with_reducible apply catchUp_goes | with_reducible apply refit_goes
    | with_reducible apply retransmit_goes | with_reducible apply svResume_goes | with_reducible apply Goes.foldl
    | with_reducible apply Goes.foldl1 | with_reducible apply Goes.foldl2 | with_reducible apply Goes.ite
    | exact Or.inr (reachOne w (Eq.refl _)) | exact Or.inr ⟨reachOne w (Eq.refl _), rfl⟩
    | exact Or.inr ⟨reachOne w (Eq.refl _), rfl, rfl, rfl, rfl, rfl⟩ | exact Or.inl rfl | simp only [Goes.mk_eq]
    | with_reducible apply GoesMk.upd | split | dsimp only | omega)

theorem execTakeover_goes {ps : List Part} {s0 : State} (announced : Bool) (s : State) (h : Goes ps s0 s) (w : [.sys,
    .fns, .journal, .ports, .bpcfg, .skim, .hawk, .publ, .eng, .pair, .span, .log, .budget, .outbox] ⊆ ps) : GoesTo ps
    s0 (execTakeover announced s) := by
  unfold execTakeover
  repeat' (first
    | with_reducible assumption | exact reach w (Eq.refl _) | apply GoesTo.next | with_reducible apply event_goes
    | with_reducible apply updPair_goes | with_reducible apply takeOver_goes | with_reducible apply Goes.ite
    | exact Or.inr (reachOne w (Eq.refl _)) | exact Or.inr ⟨reachOne w (Eq.refl _), rfl⟩
    | exact Or.inr ⟨reachOne w (Eq.refl _), rfl, rfl, rfl, rfl, rfl⟩ | exact Or.inl rfl | simp only [Goes.mk_eq]
    | with_reducible apply GoesMk.upd | split | dsimp only)

theorem execPathSuspect_goes {ps : List Part} {s0 : State} (s : State) (h : Goes ps s0 s) (w : [.pair, .log] ⊆ ps) :
    GoesTo ps s0 (execPathSuspect s) := by
  unfold execPathSuspect
  repeat' (first
    | with_reducible assumption | exact reach w (Eq.refl _) | apply GoesTo.next | with_reducible apply event_goes
    | with_reducible apply updPair_goes | with_reducible apply Goes.ite | exact Or.inr (reachOne w (Eq.refl _))
    | exact Or.inl rfl | simp only [Goes.mk_eq] | with_reducible apply GoesMk.upd | split | dsimp only)

theorem execPartnerLost_goes {ps : List Part} {s0 : State} (s : State) (h : Goes ps s0 s) (w : [.sys, .fns, .journal,
    .ports, .bpcfg, .skim, .hawk, .trowel, .publ, .eng, .pair, .span, .log, .budget, .outbox] ⊆ ps) : GoesTo ps s0
    (execPartnerLost s) := by
  unfold execPartnerLost
  repeat' (first
    | with_reducible assumption | exact reach w (Eq.refl _) | apply GoesTo.next | with_reducible apply proceed_goes
    | with_reducible apply event_goes | with_reducible apply updPair_goes | with_reducible apply Goes.ite
    | exact Or.inr (reachOne w (Eq.refl _)) | exact Or.inr ⟨reachOne w (Eq.refl _), rfl⟩
    | exact Or.inr ⟨reachOne w (Eq.refl _), fun c => c⟩
    | exact Or.inr ⟨reachOne w (Eq.refl _), rfl, rfl, rfl, rfl, rfl⟩ | exact Or.inl rfl | simp only [Goes.mk_eq]
    | with_reducible apply GoesMk.upd | split | dsimp only)

theorem hbAccepted_goes {ps : List Part} {s0 : State} (span : Bool) (h_ : Heartbeat) (s : State) (h : Goes ps s0 s) (w
    : [.sys, .fns, .journal, .deferred, .ports, .skim, .hawk, .trowel, .publ, .pke, .pair, .span, .log, .outbox] ⊆ ps)
    : Goes ps s0 (hbAccepted span h_ s) := by
  unfold hbAccepted
  repeat' (first
    | with_reducible assumption | exact reach w (Eq.refl _) | with_reducible apply cntPrc_goes
    | with_reducible apply updPair_goes | with_reducible apply demote_goes | with_reducible apply Goes.ite
    | exact Or.inr (reachOne w (Eq.refl _)) | exact Or.inr ⟨reachOne w (Eq.refl _), rfl⟩
    | exact Or.inr ⟨reachOne w (Eq.refl _), fun c => c⟩
    | exact Or.inr ⟨reachOne w (Eq.refl _), rfl, rfl, rfl, rfl, rfl⟩ | exact Or.inl rfl | simp only [Goes.mk_eq]
    | with_reducible apply GoesMk.upd | split | dsimp only)

theorem busHeartbeat_goes {ps : List Part} {s0 : State} (b dst src : Nat) (h_ : Heartbeat) (s : State) (h : Goes ps s0
    s) (w : [.sys, .fns, .journal, .deferred, .ports, .skim, .hawk, .trowel, .publ, .pke, .pair, .span, .log, .outbox]
    ⊆ ps) : Goes ps s0 (busHeartbeat b dst src h_ s) := by
  unfold busHeartbeat
  repeat' (first
    | with_reducible assumption | exact reach w (Eq.refl _) | with_reducible apply hbAccepted_goes
    | with_reducible apply updPair_goes | with_reducible apply cntPrc_goes | with_reducible apply Goes.ite
    | exact Or.inr (reachOne w (Eq.refl _)) | exact Or.inr ⟨reachOne w (Eq.refl _), rfl⟩
    | exact Or.inr ⟨reachOne w (Eq.refl _), fun c => c⟩
    | exact Or.inr ⟨reachOne w (Eq.refl _), rfl, rfl, rfl, rfl, rfl⟩ | exact Or.inl rfl | simp only [Goes.mk_eq]
    | with_reducible apply GoesMk.upd | split | dsimp only)

theorem pairTraffic_goes {ps : List Part} {s0 : State} (m : PairRx) (s : State) (h : Goes ps s0 s) (w : [.sys, .fns,
    .journal, .deferred, .ports, .skim, .hawk, .trowel, .publ, .pke, .pair, .span, .log, .outbox] ⊆ ps) : Goes ps s0
    (pairTraffic m s) := by
  unfold pairTraffic
  repeat' (first
    | with_reducible assumption | exact reach w (Eq.refl _) | with_reducible apply heard_goes
    | with_reducible apply hbAccepted_goes | with_reducible apply updPair_goes | with_reducible apply Goes.ite
    | exact Or.inr (reachOne w (Eq.refl _)) | exact Or.inr ⟨reachOne w (Eq.refl _), rfl⟩
    | exact Or.inr ⟨reachOne w (Eq.refl _), fun c => c⟩
    | exact Or.inr ⟨reachOne w (Eq.refl _), rfl, rfl, rfl, rfl, rfl⟩ | exact Or.inl rfl | simp only [Goes.mk_eq]
    | with_reducible apply GoesMk.upd | split | dsimp only)

theorem execPairHeartbeatTx_goes {ps : List Part} {s0 : State} (s : State) (h : Goes ps s0 s) (w : [.pair, .outbox] ⊆
    ps) : GoesTo ps s0 (execPairHeartbeatTx s) := by
  unfold execPairHeartbeatTx
  repeat' (first
    | with_reducible assumption | exact reach w (Eq.refl _) | apply GoesTo.next | with_reducible apply emit_goes
    | with_reducible apply updPair_goes | with_reducible apply Goes.ite | exact Or.inr (reachOne w (Eq.refl _))
    | exact Or.inl rfl | simp only [Goes.mk_eq] | with_reducible apply GoesMk.upd | split | dsimp only)

theorem execMirrorAck_goes {ps : List Part} {s0 : State} (tok : Nat) (s : State) (h : Goes ps s0 s) (w : [.journal,
    .ports, .bpcfg, .skim, .trowel, .publ, .pair, .span, .outbox] ⊆ ps) : GoesTo ps s0 (execMirrorAck tok s) := by
  unfold execMirrorAck
  repeat' (first
    | with_reducible assumption | exact reach w (Eq.refl _) | apply GoesTo.next | with_reducible apply updPair_goes
    | with_reducible apply heard_goes | with_reducible apply admissionDone_goes | with_reducible apply updJ_goes
    | with_reducible apply releaseHeld_goes | with_reducible apply Goes.ite | exact Or.inr (reachOne w (Eq.refl _))
    | exact Or.inr ⟨reachOne w (Eq.refl _), fun c => c⟩ | exact Or.inl rfl | simp only [Goes.mk_eq]
    | with_reducible apply GoesMk.upd | split | dsimp only)

theorem execStandbyAdmission_goes {ps : List Part} {s0 : State} (c : Cmd) (s : State) (h : Goes ps s0 s) (w : [.sys,
    .pair, .outbox] ⊆ ps) : GoesTo ps s0 (execStandbyAdmission c s) := by
  unfold execStandbyAdmission
  repeat' (first
    | with_reducible assumption | exact reach w (Eq.refl _) | apply GoesTo.next | with_reducible apply emit_goes
    | with_reducible apply heard_goes | with_reducible apply nextToken_goes
    | refine nextToken_pair (by with_reducible assumption) ?_ ?_ | with_reducible apply updPair_goes
    | with_reducible apply Goes.ite | exact Or.inr (reachOne w (Eq.refl _))
    | exact Or.inr ⟨reachOne w (Eq.refl _), rfl⟩ | exact Or.inr ⟨reachOne w (Eq.refl _), rfl, rfl, rfl, rfl, rfl⟩
    | exact Or.inl rfl | simp only [Goes.mk_eq] | with_reducible apply GoesMk.upd | split | dsimp only)

theorem noteFix_goes {ps : List Part} {s0 : State} (slot : Nat) (s : State) (h : Goes ps s0 s) (w : [.pair] ⊆ ps) :
    Goes ps s0 (noteFix slot s) := by
  unfold noteFix
  repeat' (first
    | with_reducible assumption | exact reach w (Eq.refl _) | with_reducible apply updPair_goes
    | with_reducible apply Goes.ite | exact Or.inr (reachOne w (Eq.refl _)) | exact Or.inl rfl
    | simp only [Goes.mk_eq] | with_reducible apply GoesMk.upd | split | dsimp only)

theorem execFixRecord_goes {ps : List Part} {s0 : State} (b part slot : Nat) (digest : List Byte) (s : State) (h :
    Goes ps s0 s) (w : [.pair, .outbox] ⊆ ps) : GoesTo ps s0 (execFixRecord b part slot digest s) := by
  unfold execFixRecord
  repeat' (first
    | with_reducible assumption | exact reach w (Eq.refl _) | apply GoesTo.next | with_reducible apply emit_goes
    | with_reducible apply noteFix_goes | with_reducible apply Goes.ite | exact Or.inr (reachOne w (Eq.refl _))
    | exact Or.inl rfl | simp only [Goes.mk_eq] | with_reducible apply GoesMk.upd | split | dsimp only)

theorem execRowsAdopt_goes {ps : List Part} {s0 : State} (b part slot : Nat) (rows : List Row) (s : State) (h : Goes
    ps s0 s) (w : [.hawk, .trowel, .pair, .log, .budget, .outbox] ⊆ ps) : GoesTo ps s0 (execRowsAdopt b part slot rows
    s) := by
  unfold execRowsAdopt
  repeat' (first
    | with_reducible assumption | exact reach w (Eq.refl _) | intro _ | apply GoesTo.next
    | with_reducible apply putFixed_goes | with_reducible apply histPut_goes | with_reducible apply emit_goes
    | with_reducible apply noteFix_goes | with_reducible apply event_goes | with_reducible apply cntPrc_goes
    | with_reducible apply Goes.foldl | with_reducible apply Goes.foldl1 | with_reducible apply Goes.foldl2
    | with_reducible apply Goes.ite | exact Or.inr (reachOne w (Eq.refl _))
    | exact Or.inr ⟨reachOne w (Eq.refl _), fun c => c⟩ | exact Or.inr ⟨reachOne w (Eq.refl _), fun c => canon_mdel c⟩
    | exact Or.inr ⟨reachOne w (Eq.refl _), fun _ _ h => absurd h List.not_mem_nil⟩
    | (refine Or.inr ⟨reachOne w (Eq.refl _), fun c => canon_map c ?_⟩; intro _ h; (try dsimp only); (repeat' split); all_goals exact canonProg_of h rfl rfl rfl)
    | exact Or.inl rfl | simp only [Goes.mk_eq] | with_reducible apply GoesMk.upd | split | dsimp only)

theorem execFixRecordAck_goes {ps : List Part} {s0 : State} (b part slot : Nat) (s : State) (h : Goes ps s0 s) (w :
    [.sys, .fns, .hawk, .eng, .pair, .span, .log, .budget, .outbox] ⊆ ps) : GoesTo ps s0 (execFixRecordAck b part slot
    s) := by
  unfold execFixRecordAck
  repeat' (first
    | with_reducible assumption | exact reach w (Eq.refl _) | intro _ | apply GoesTo.next
    | with_reducible apply updPair_goes | with_reducible apply heard_goes | with_reducible apply writeSheet_goes
    | with_reducible apply confirmSlot_goes | with_reducible apply Goes.foldl | with_reducible apply Goes.foldl1
    | with_reducible apply Goes.foldl2 | with_reducible apply Goes.ite | exact Or.inr (reachOne w (Eq.refl _))
    | exact Or.inr ⟨reachOne w (Eq.refl _), rfl⟩ | exact Or.inr ⟨reachOne w (Eq.refl _), rfl, rfl, rfl, rfl, rfl⟩
    | exact Or.inl rfl | simp only [Goes.mk_eq] | with_reducible apply GoesMk.upd | split | dsimp only)

theorem execSlotConfirm_goes {ps : List Part} {s0 : State} (slot : Nat) (s : State) (h : Goes ps s0 s) (w : [.hawk,
    .pair, .log] ⊆ ps) : GoesTo ps s0 (execSlotConfirm slot s) := by
  unfold execSlotConfirm
  repeat' (first
    | with_reducible assumption | exact reach w (Eq.refl _) | apply GoesTo.next | with_reducible apply refit_goes
    | with_reducible apply Goes.ite | exact Or.inr (reachOne w (Eq.refl _)) | exact Or.inl rfl
    | simp only [Goes.mk_eq] | with_reducible apply GoesMk.upd | split | dsimp only)

theorem blockTop_le (n top : Nat) : n ≤ blockTop n top ∧ top ≤ blockTop n top := by
  unfold blockTop
  split <;> omega

theorem execResyncComplete_goes {ps : List Part} {s0 : State} (epoch token recnum proto : Nat) (s : State) (h : Goes ps s0 s)
    (w : [.sys, .hawk, .pair, .log, .outbox] ⊆ ps) : GoesTo ps s0 (execResyncComplete epoch token recnum proto s) := by
  unfold execResyncComplete
  apply GoesTo.next
  split
  · refine refit_goes _ ?_ (reach w rfl)
    have k := h.move (t := { s with
        sys := { s.sys with
          epoch := max s.sys.epoch epoch + 1, epochTop := blockTop (max s.sys.epoch epoch + 1) s.sys.epochTop
          token := max s.sys.token token + 1, tokenTop := blockTop (max s.sys.token token + 1) s.sys.tokenTop }
        hawk := { s.hawk with
          recNum := max s.hawk.recNum recnum + 1, recTop := blockTop (max s.hawk.recNum recnum + 1) s.hawk.recTop }
        pair := { s.pair with synced := true, partnerLost := false, partnerProto := proto } }) (fun ⟨l1, l2, l3, l4, l5⟩ =>
      ⟨⟨l1, l2, (blockTop_le _ _).1, (blockTop_le _ _).1, l5⟩, Nat.le_succ_of_le (Nat.le_max_left _ _),
        Nat.le_succ_of_le (Nat.le_max_left _ _), Nat.le_refl _, Nat.le_refl _, Eq.refl _⟩)
      (fun p hp => by
        cases p
        all_goals first | exact Eq.refl _ | exact absurd (reachOne w (Eq.refl _)) hp)
    dsimp only
    split
    · exact cntPrc_goes _ _ _ k (reach w rfl)
    · exact heard_goes _ (emits_goes _ _ k (reach w rfl)) (reach w rfl)
  · exact h

theorem execHandoverSwitch_goes {ps : List Part} {s0 : State} (s : State) (h : Goes ps s0 s) (w : [.sys, .fns,
    .journal, .deferred, .ports, .bpcfg, .skim, .hawk, .trowel, .publ, .eng, .pke, .pair, .span, .log, .budget,
    .outbox] ⊆ ps) : GoesTo ps s0 (execHandoverSwitch s) := by
  unfold execHandoverSwitch
  repeat' (first
    | with_reducible assumption | exact reach w (Eq.refl _) | intro _ | apply GoesTo.next
    | with_reducible apply cancel_goes | with_reducible apply settle_goes | with_reducible apply bumpMirrored_goes
    | with_reducible apply becomeStandby_goes | with_reducible apply proceed_goes | with_reducible apply refit_goes
    | with_reducible apply changeMode_goes | with_reducible apply updPair_goes | with_reducible apply takeOver_goes
    | with_reducible apply Goes.foldl | with_reducible apply Goes.foldl1 | with_reducible apply Goes.foldl2
    | with_reducible apply Goes.ite | exact Or.inr (reachOne w (Eq.refl _))
    | exact Or.inr ⟨reachOne w (Eq.refl _), rfl⟩ | exact Or.inr ⟨reachOne w (Eq.refl _), fun c => c⟩
    | exact Or.inr ⟨reachOne w (Eq.refl _), rfl, rfl, rfl, rfl, rfl⟩ | exact Or.inl rfl | simp only [Goes.mk_eq]
    | with_reducible apply GoesMk.upd | split | dsimp only | omega)

theorem execHealthReport_goes {ps : List Part} {s0 : State} (s : State) (h : Goes ps s0 s) (w : [.pair, .log, .outbox]
    ⊆ ps) : GoesTo ps s0 (execHealthReport s) := by
  unfold execHealthReport
  repeat' (first
    | with_reducible assumption | exact reach w (Eq.refl _) | apply GoesTo.next | with_reducible apply refit_goes
    | with_reducible apply updPair_goes | with_reducible apply emit_goes | with_reducible apply Goes.ite
    | exact Or.inr (reachOne w (Eq.refl _)) | exact Or.inl rfl | simp only [Goes.mk_eq]
    | with_reducible apply GoesMk.upd | split | dsimp only)

theorem execStandbySelfTest_goes {ps : List Part} {s0 : State} (sub run fail cover code : Nat) (s : State) (h : Goes
    ps s0 s) (w : [.pair, .log, .budget] ⊆ ps) : GoesTo ps s0 (execStandbySelfTest sub run fail cover code s) := by
  unfold execStandbySelfTest
  repeat' (first
    | with_reducible assumption | exact reach w (Eq.refl _) | apply GoesTo.next | with_reducible apply updPair_goes
    | with_reducible apply refit_goes | with_reducible apply workFor_goes | with_reducible apply Goes.ite
    | exact Or.inr (reachOne w (Eq.refl _)) | exact Or.inl rfl | simp only [Goes.mk_eq]
    | with_reducible apply GoesMk.upd | split | dsimp only)

theorem pairCfgEff_goes {ps : List Part} {s0 : State} (c : Cmd) (s : State) (h : Goes ps s0 s) (w : [.pair] ⊆ ps) :
    Goes ps s0 (pairCfgEff c s).st := by
  unfold pairCfgEff
  repeat' (first
    | with_reducible assumption | exact reach w (Eq.refl _) | with_reducible apply done_goes
    | with_reducible apply updPair_goes | exact Or.inr (reachOne w (Eq.refl _)) | exact Or.inl rfl
    | simp only [Goes.mk_eq] | with_reducible apply GoesMk.upd | dsimp only)

theorem execPairCfg_goes {ps : List Part} {s0 : State} (c : Cmd) (s : State) (h : Goes ps s0 s) (w : [.sys, .journal,
    .deferred, .pair, .span, .outbox] ⊆ ps) : GoesTo ps s0 (execPairCfg c s) := by
  unfold execPairCfg
  repeat' (first
    | with_reducible assumption | exact reach w (Eq.refl _) | intro _ | apply GoesTo.next
    | with_reducible apply runConfig_goes | with_reducible apply pairCfgEff_goes | dsimp only)

theorem pairStatusEff_goes {ps : List Part} {s0 : State} (c : Cmd) (s : State) (h : Goes ps s0 s) : Goes ps s0
    (pairStatusEff c s).st := by
  unfold pairStatusEff
  repeat' (first
    | with_reducible assumption | with_reducible apply output_goes | dsimp only)

theorem execPairStatus_goes {ps : List Part} {s0 : State} (c : Cmd) (s : State) (h : Goes ps s0 s) (w : [.journal,
    .span, .outbox] ⊆ ps) : GoesTo ps s0 (execPairStatus c s) := by
  unfold execPairStatus
  repeat' (first
    | with_reducible assumption | exact reach w (Eq.refl _) | intro _ | apply GoesTo.next
    | with_reducible apply runPlain_goes | with_reducible apply pairStatusEff_goes | dsimp only)

theorem execPairHandover_goes {ps : List Part} {s0 : State} (c : Cmd) (s : State) (h : Goes ps s0 s) (w : [.journal,
    .pair, .span, .outbox] ⊆ ps) : GoesTo ps s0 (execPairHandover c s) := by
  unfold execPairHandover
  repeat' (first
    | with_reducible assumption | exact reach w (Eq.refl _) | apply GoesTo.next | with_reducible apply settle_goes
    | with_reducible apply updPair_goes | with_reducible apply startCmd_goes | with_reducible apply Goes.ite
    | exact Or.inr (reachOne w (Eq.refl _)) | exact Or.inl rfl | simp only [Goes.mk_eq]
    | with_reducible apply GoesMk.upd | split | dsimp only)

theorem pairRenumberEff_goes {ps : List Part} {s0 : State} (x1 : Cmd) (s : State) (h : Goes ps s0 s) (w : [.pair] ⊆
    ps) : Goes ps s0 (pairRenumberEff x1 s).st := by
  unfold pairRenumberEff
  repeat' (first
    | with_reducible assumption | exact reach w (Eq.refl _) | with_reducible apply done_goes
    | with_reducible apply updPair_goes | exact Or.inr (reachOne w (Eq.refl _)) | exact Or.inl rfl
    | simp only [Goes.mk_eq] | with_reducible apply GoesMk.upd | dsimp only)

theorem applyRenumber_goes {ps : List Part} {s0 : State} (c : Cmd) (s : State) (h : Goes ps s0 s) (w : [.sys,
    .journal, .pke, .keys, .pair, .span, .log, .budget, .outbox] ⊆ ps) : Goes ps s0 (applyRenumber c s) := by
  unfold applyRenumber
  repeat' (first
    | with_reducible assumption | exact reach w (Eq.refl _) | intro _ | with_reducible apply applyQuorum_goes
    | with_reducible apply pairRenumberEff_goes | with_reducible apply emit_goes | dsimp only)

theorem execPairRenumber_goes {ps : List Part} {s0 : State} (c : Cmd) (s : State) (h : Goes ps s0 s) (w : [.sys,
    .journal, .deferred, .pke, .keys, .pair, .span, .log, .budget, .outbox] ⊆ ps) : GoesTo ps s0 (execPairRenumber c
    s) := by
  unfold execPairRenumber
  repeat' (first
    | with_reducible assumption | exact reach w (Eq.refl _) | intro _ | apply GoesTo.next
    | with_reducible apply runConfigBy_goes | with_reducible apply applyRenumber_goes | dsimp only)

theorem openRecord_goes {ps : List Part} {s0 : State} (type sev : Nat) (body : List W64) (s : State) (h : Goes ps s0
    s) (w : [.bpcfg, .log] ⊆ ps) : Goes ps s0 (openRecord type sev body s) := by
  unfold openRecord
  repeat' (first
    | with_reducible assumption | exact reach w (Eq.refl _) | with_reducible apply nextSeq_goes
    | refine nextSeq_pair (by with_reducible assumption) ?_ ?_ | exact Or.inr (reachOne w (Eq.refl _))
    | exact Or.inl rfl | simp only [Goes.mk_eq] | with_reducible apply GoesMk.upd | dsimp only)

theorem notWritten_goes {ps : List Part} {s0 : State} (type : Nat) (s : State) (h : Goes ps s0 s) (w : [.log] ⊆ ps) :
    Goes ps s0 (notWritten type s) := by
  unfold notWritten
  repeat' (first
    | with_reducible assumption | exact reach w (Eq.refl _) | with_reducible apply event_goes
    | with_reducible apply countDrop_goes | with_reducible apply Goes.ite | split | dsimp only)

theorem record_goes {ps : List Part} {s0 : State} (type sev : Nat) (body : List W64) (s : State) (h : Goes ps s0 s) (w
    : [.bpcfg, .log] ⊆ ps) : Goes ps s0 (record type sev body s) := by
  unfold record
  repeat' (first
    | with_reducible assumption | exact reach w (Eq.refl _) | with_reducible apply openRecord_goes
    | with_reducible apply event_goes | with_reducible apply notWritten_goes | with_reducible apply Goes.ite
    | exact Or.inr (reachOne w (Eq.refl _)) | exact Or.inl rfl | simp only [Goes.mk_eq]
    | with_reducible apply GoesMk.upd | split | dsimp only)

theorem execLogRecord_goes {ps : List Part} {s0 : State} (s : State) (h : Goes ps s0 s) (w : [.bpcfg, .log, .budget] ⊆
    ps) : GoesTo ps s0 (execLogRecord s) := by
  unfold execLogRecord
  repeat' (first
    | with_reducible assumption | exact reach w (Eq.refl _) | apply GoesTo.next | with_reducible apply record_goes
    | with_reducible apply openWork_goes | exact Or.inr (reachOne w (Eq.refl _)) | exact Or.inl rfl
    | simp only [Goes.mk_eq] | with_reducible apply GoesMk.upd | split | dsimp only)

theorem logReadEff_goes {ps : List Part} {s0 : State} (c : Cmd) (s : State) (h : Goes ps s0 s) (w : [.log, .budget] ⊆
    ps) : Goes ps s0 (logReadEff c s).st := by
  unfold logReadEff
  repeat' (first
    | with_reducible assumption | exact reach w (Eq.refl _) | with_reducible apply openWork_goes | dsimp only)

theorem execLogRead_goes {ps : List Part} {s0 : State} (c : Cmd) (s : State) (h : Goes ps s0 s) (w : [.journal, .span,
    .log, .budget, .outbox] ⊆ ps) : GoesTo ps s0 (execLogRead c s) := by
  unfold execLogRead
  repeat' (first
    | with_reducible assumption | exact reach w (Eq.refl _) | intro _ | apply GoesTo.next
    | with_reducible apply runPlain_goes | with_reducible apply logReadEff_goes | dsimp only)

theorem logPolicyEff_goes {ps : List Part} {s0 : State} (c : Cmd) (s : State) (h : Goes ps s0 s) (w : [.log] ⊆ ps) :
    Goes ps s0 (logPolicyEff c s).st := by
  unfold logPolicyEff
  repeat' (first
    | with_reducible assumption | exact reach w (Eq.refl _) | with_reducible apply done_goes
    | exact Or.inr (reachOne w (Eq.refl _)) | exact Or.inl rfl | simp only [Goes.mk_eq]
    | with_reducible apply GoesMk.upd | dsimp only)

theorem execLogPolicy_goes {ps : List Part} {s0 : State} (c : Cmd) (s : State) (h : Goes ps s0 s) (w : [.sys,
    .journal, .deferred, .span, .log, .outbox] ⊆ ps) : GoesTo ps s0 (execLogPolicy c s) := by
  unfold execLogPolicy
  repeat' (first
    | with_reducible assumption | exact reach w (Eq.refl _) | intro _ | apply GoesTo.next
    | with_reducible apply runConfig_goes | with_reducible apply logPolicyEff_goes | dsimp only)

theorem logClearEff_goes {ps : List Part} {s0 : State} (x1 : Cmd) (s : State) (h : Goes ps s0 s) (w : [.bpcfg, .log] ⊆
    ps) : Goes ps s0 (logClearEff x1 s).st := by
  unfold logClearEff
  repeat' (first
    | with_reducible assumption | exact reach w (Eq.refl _) | with_reducible apply done_goes
    | with_reducible apply event_goes | with_reducible apply openRecord_goes | exact Or.inr (reachOne w (Eq.refl _))
    | exact Or.inl rfl | simp only [Goes.mk_eq] | with_reducible apply GoesMk.upd | dsimp only)

theorem execLogClear_goes {ps : List Part} {s0 : State} (c : Cmd) (s : State) (h : Goes ps s0 s) (w : [.journal,
    .bpcfg, .span, .log, .outbox] ⊆ ps) : GoesTo ps s0 (execLogClear c s) := by
  unfold execLogClear
  repeat' (first
    | with_reducible assumption | exact reach w (Eq.refl _) | intro _ | apply GoesTo.next
    | with_reducible apply runPlain_goes | with_reducible apply logClearEff_goes | dsimp only)

theorem updSpan_goes {ps : List Part} {s0 : State} (g : Span → Span) (s : State) (h : Goes ps s0 s) (w : [.span] ⊆ ps)
    : Goes ps s0 (updSpan g s) := by
  unfold updSpan
  repeat' (first
    | with_reducible assumption | exact Or.inr (reachOne w (Eq.refl _)) | exact Or.inl rfl | simp only [Goes.mk_eq]
    | with_reducible apply GoesMk.upd | dsimp only)

theorem flood_goes {ps : List Part} {s0 : State} (ptype arg : Nat) (body : List Byte) (s : State) (h : Goes ps s0 s)
    (w : [.outbox] ⊆ ps) : Goes ps s0 (flood ptype arg body s) := by
  unfold flood
  repeat' (first
    | with_reducible assumption | exact reach w (Eq.refl _) | with_reducible apply emits_goes | dsimp only)

theorem resendLost_goes {ps : List Part} {s0 : State} (s : State) (h : Goes ps s0 s) (w : [.span, .outbox] ⊆ ps) :
    Goes ps s0 (resendLost s) := by
  unfold resendLost
  repeat' (first
    | with_reducible assumption | exact reach w (Eq.refl _) | intro _ | with_reducible apply sendOn_goes
    | with_reducible apply updLink_goes | with_reducible apply Goes.foldl | with_reducible apply Goes.foldl1
    | with_reducible apply Goes.foldl2 | with_reducible apply Goes.ite | exact Or.inr (reachOne w (Eq.refl _))
    | exact Or.inl rfl | simp only [Goes.mk_eq] | with_reducible apply GoesMk.upd | split | dsimp only)

theorem recompute_goes {ps : List Part} {s0 : State} (s : State) (h : Goes ps s0 s) (w : [.span, .log, .outbox] ⊆ ps)
    : Goes ps s0 (recompute s) := by
  unfold recompute
  repeat' (first
    | with_reducible assumption | exact reach w (Eq.refl _) | intro _ | with_reducible apply updSpan_goes
    | with_reducible apply resendLost_goes | with_reducible apply event_goes | with_reducible apply cntSpn_goes
    | with_reducible apply Goes.foldl | with_reducible apply Goes.foldl1 | with_reducible apply Goes.foldl2
    | with_reducible apply Goes.ite | exact Or.inr (reachOne w (Eq.refl _)) | exact Or.inl rfl
    | simp only [Goes.mk_eq] | with_reducible apply GoesMk.upd | split | dsimp only)

theorem linkFails_goes {ps : List Part} {s0 : State} (a b : Nat) (s : State) (h : Goes ps s0 s) (w : [.span, .log,
    .outbox] ⊆ ps) : Goes ps s0 (linkFails a b s) := by
  unfold linkFails
  repeat' (first
    | with_reducible assumption | exact reach w (Eq.refl _) | with_reducible apply recompute_goes
    | with_reducible apply flood_goes | with_reducible apply updSpan_goes | with_reducible apply Goes.ite
    | exact Or.inr (reachOne w (Eq.refl _)) | exact Or.inl rfl | simp only [Goes.mk_eq]
    | with_reducible apply GoesMk.upd | split | dsimp only)

theorem execRoutePacket_goes {ps : List Part} {s0 : State} (failedA failedB : Nat) (s : State) (h : Goes ps s0 s) (w :
    [.span, .log, .outbox] ⊆ ps) : GoesTo ps s0 (execRoutePacket failedA failedB s) := by
  unfold execRoutePacket
  repeat' (first
    | with_reducible assumption | exact reach w (Eq.refl _) | apply GoesTo.next | with_reducible apply linkFails_goes
    | with_reducible apply Goes.ite | split | dsimp only)

theorem linkDown_goes {ps : List Part} {s0 : State} (l : Nat) (s : State) (h : Goes ps s0 s) (w : [.span, .log,
    .outbox] ⊆ ps) : Goes ps s0 (linkDown l s) := by
  unfold linkDown
  repeat' (first
    | with_reducible assumption | exact reach w (Eq.refl _) | with_reducible apply event_goes
    | with_reducible apply updLink_goes | with_reducible apply linkFails_goes | with_reducible apply Goes.ite
    | exact Or.inr (reachOne w (Eq.refl _)) | exact Or.inl rfl | simp only [Goes.mk_eq]
    | with_reducible apply GoesMk.upd | split | dsimp only)

theorem tagFailLog_goes {ps : List Part} {s0 : State} (l n : Nat) (s : State) (h : Goes ps s0 s) (w : [.log] ⊆ ps) :
    Goes ps s0 (tagFailLog l n s) := by
  unfold tagFailLog
  repeat' (first
    | with_reducible assumption | exact reach w (Eq.refl _) | with_reducible apply logEv_goes
    | with_reducible apply Goes.ite | split | dsimp only)

theorem execSpanLinkDown_goes {ps : List Part} {s0 : State} (l tagFails : Nat) (s : State) (h : Goes ps s0 s) (w :
    [.span, .log, .outbox] ⊆ ps) : GoesTo ps s0 (execSpanLinkDown l tagFails s) := by
  unfold execSpanLinkDown
  repeat' (first
    | with_reducible assumption | exact reach w (Eq.refl _) | apply GoesTo.next | with_reducible apply linkDown_goes
    | with_reducible apply tagFailLog_goes | with_reducible apply Goes.ite | split | dsimp only)

theorem execSpanLinkRetrain_goes {ps : List Part} {s0 : State} (l : Nat) (s : State) (h : Goes ps s0 s) (w : [.span] ⊆
    ps) : GoesTo ps s0 (execSpanLinkRetrain l s) := by
  unfold execSpanLinkRetrain
  repeat' (first
    | with_reducible assumption | exact reach w (Eq.refl _) | apply GoesTo.next | with_reducible apply updLink_goes
    | with_reducible apply Goes.ite | exact Or.inr (reachOne w (Eq.refl _)) | exact Or.inl rfl
    | simp only [Goes.mk_eq] | with_reducible apply GoesMk.upd | split | dsimp only)

theorem noteId_goes {ps : List Part} {s0 : State} (peer : Nat) (peerId : List Byte) (s : State) (h : Goes ps s0 s) (w
    : [.span, .log] ⊆ ps) : Goes ps s0 (noteId peer peerId s) := by
  unfold noteId
  repeat' (first
    | with_reducible assumption | exact reach w (Eq.refl _) | with_reducible apply updSpan_goes
    | with_reducible apply event_goes | with_reducible apply Goes.ite | exact Or.inr (reachOne w (Eq.refl _))
    | exact Or.inl rfl | simp only [Goes.mk_eq] | with_reducible apply GoesMk.upd | split | dsimp only)

theorem execSpanLinkTraining_goes {ps : List Part} {s0 : State} (l peer : Nat) (peerId peerNonce proof : List Byte) (s
    : State) (h : Goes ps s0 s) (w : [.eng, .rng, .pair, .span, .log, .budget, .outbox] ⊆ ps) : GoesTo ps s0
    (execSpanLinkTraining l peer peerId peerNonce proof s) := by
  unfold execSpanLinkTraining
  repeat' (first
    | with_reducible assumption | exact reach w (Eq.refl _) | apply GoesTo.next | with_reducible apply generate_goes
    | refine generate_pair (by with_reducible assumption) ?_ ?_ | with_reducible apply emit_goes
    | with_reducible apply updLink_goes | with_reducible apply noteId_goes | with_reducible apply recompute_goes
    | with_reducible apply updSpan_goes | with_reducible apply heard_goes | with_reducible apply sendWaiting_goes
    | with_reducible apply event_goes | with_reducible apply Goes.ite | exact Or.inr (reachOne w (Eq.refl _))
    | exact Or.inl rfl | simp only [Goes.mk_eq] | with_reducible apply GoesMk.upd | split | dsimp only)

theorem groupEnd_goes {ps : List Part} {s0 : State} (l : Nat) (gcmTagOk : Bool) (msg : Option PairRx) (s : State) (h :
    Goes ps s0 s) (w : [.sys, .fns, .journal, .deferred, .ports, .skim, .hawk, .trowel, .publ, .pke, .pair, .span,
    .log, .outbox] ⊆ ps) : Goes ps s0 (groupEnd l gcmTagOk msg s) := by
  unfold groupEnd
  repeat' (first
    | with_reducible assumption | exact reach w (Eq.refl _) | with_reducible apply updLink_goes
    | with_reducible apply pairTraffic_goes | with_reducible apply heard_goes | with_reducible apply cntLink_goes
    | with_reducible apply emit_goes | with_reducible apply linkDown_goes | with_reducible apply tagFailLog_goes
    | with_reducible apply Goes.ite | exact Or.inr (reachOne w (Eq.refl _))
    | exact Or.inr ⟨reachOne w (Eq.refl _), rfl⟩ | exact Or.inr ⟨reachOne w (Eq.refl _), fun c => c⟩
    | exact Or.inr ⟨reachOne w (Eq.refl _), rfl, rfl, rfl, rfl, rfl⟩ | exact Or.inl rfl | simp only [Goes.mk_eq]
    | with_reducible apply GoesMk.upd | split | dsimp only)

theorem linkAcks_goes {ps : List Part} {s0 : State} (l : Nat) (c : List Byte) (s : State) (h : Goes ps s0 s) (w :
    [.span, .outbox] ⊆ ps) : Goes ps s0 (linkAcks l c s) := by
  unfold linkAcks
  repeat' (first
    | with_reducible assumption | exact reach w (Eq.refl _) | with_reducible apply updLink_goes
    | with_reducible apply emits_goes | with_reducible apply cntLink_goes | with_reducible apply sendWaiting_goes
    | with_reducible apply Goes.ite | exact Or.inr (reachOne w (Eq.refl _)) | exact Or.inl rfl
    | simp only [Goes.mk_eq] | with_reducible apply GoesMk.upd | split | dsimp only)

theorem execSpanFlitReceive_goes {ps : List Part} {s0 : State} (l : Nat) (f : Flit) (gcmTagOk : Bool) (msg : Option
    PairRx) (s : State) (h : Goes ps s0 s) (w : [.sys, .fns, .journal, .deferred, .ports, .skim, .hawk, .trowel,
    .publ, .pke, .pair, .span, .log, .outbox] ⊆ ps) : GoesTo ps s0 (execSpanFlitReceive l f gcmTagOk msg s) := by
  unfold execSpanFlitReceive
  repeat' (first
    | with_reducible assumption | exact reach w (Eq.refl _) | apply GoesTo.next | with_reducible apply emit_goes
    | with_reducible apply cntLink_goes | with_reducible apply updLink_goes | with_reducible apply linkAcks_goes
    | with_reducible apply groupEnd_goes | with_reducible apply Goes.ite | exact Or.inr (reachOne w (Eq.refl _))
    | exact Or.inr ⟨reachOne w (Eq.refl _), rfl⟩ | exact Or.inr ⟨reachOne w (Eq.refl _), fun c => c⟩
    | exact Or.inr ⟨reachOne w (Eq.refl _), rfl, rfl, rfl, rfl, rfl⟩ | exact Or.inl rfl | simp only [Goes.mk_eq]
    | with_reducible apply GoesMk.upd | split | dsimp only)

theorem advance_goes {ps : List Part} {s0 : State} (src n : Nat) (s : State) (h : Goes ps s0 s) (w : [.span] ⊆ ps) :
    Goes ps s0 (advance src n s) := by
  induction n generalizing s with
  | zero => exact h
  | succ n ih =>
    unfold advance
    dsimp only
    split
    · exact ih _ (updSpan_goes _ _ h w)
    · exact h

theorem takePacket_goes {ps : List Part} {s0 : State} (k : Packet) (s : State) (h : Goes ps s0 s) (w : [.span] ⊆ ps) :
    Goes ps s0 (takePacket k s) := by
  unfold takePacket
  repeat' (first
    | with_reducible assumption | exact reach w (Eq.refl _) | with_reducible apply cntSpn_goes
    | with_reducible apply updSpan_goes | with_reducible apply advance_goes | with_reducible apply Goes.ite
    | exact Or.inr (reachOne w (Eq.refl _)) | exact Or.inl rfl | simp only [Goes.mk_eq]
    | with_reducible apply GoesMk.upd | split | dsimp only)

theorem execSpanPacketReceive_goes {ps : List Part} {s0 : State} (l : Nat) (k : Packet) (s : State) (h : Goes ps s0 s)
    (w : [.span, .outbox] ⊆ ps) : GoesTo ps s0 (execSpanPacketReceive l k s) := by
  unfold execSpanPacketReceive
  repeat' (first
    | with_reducible assumption | exact reach w (Eq.refl _) | apply GoesTo.next | with_reducible apply emit_goes
    | with_reducible apply sendOn_goes | with_reducible apply takePacket_goes | with_reducible apply Goes.ite
    | exact Or.inr (reachOne w (Eq.refl _)) | exact Or.inl rfl | simp only [Goes.mk_eq]
    | with_reducible apply GoesMk.upd | split | dsimp only)

theorem execSpanGapTimeout_goes {ps : List Part} {s0 : State} (src : Nat) (s : State) (h : Goes ps s0 s) (w : [.span,
    .log] ⊆ ps) : GoesTo ps s0 (execSpanGapTimeout src s) := by
  unfold execSpanGapTimeout
  repeat' (first
    | with_reducible assumption | exact reach w (Eq.refl _) | apply GoesTo.next | with_reducible apply event_goes
    | with_reducible apply updSpan_goes | with_reducible apply Goes.ite | exact Or.inr (reachOne w (Eq.refl _))
    | exact Or.inl rfl | simp only [Goes.mk_eq] | with_reducible apply GoesMk.upd | split | dsimp only)

theorem attachRing_goes {ps : List Part} {s0 : State} (c : Cmd) (salt : List Byte) (s : State) (h : Goes ps s0 s) (w :
    [.sys, .fns, .outbox] ⊆ ps) : Goes ps s0 (attachRing c salt s) := by
  unfold attachRing
  repeat' (first
    | with_reducible assumption | exact reach w (Eq.refl _) | with_reducible apply updRing_goes
    | with_reducible apply writeControl_goes | with_reducible apply Goes.ite | exact Or.inr (reachOne w (Eq.refl _))
    | exact Or.inr ⟨reachOne w (Eq.refl _), rfl⟩ | exact Or.inr ⟨reachOne w (Eq.refl _), rfl, rfl, rfl, rfl, rfl⟩
    | exact Or.inl rfl | simp only [Goes.mk_eq] | with_reducible apply GoesMk.upd | split | dsimp only)

theorem execRemoteOutcome_goes {ps : List Part} {s0 : State} (tok status : Nat) (result : W32) (epoch dev : Nat)
    (output : List Byte) (s : State) (h : Goes ps s0 s) (w : [.sys, .fns, .journal, .skim, .hawk, .eng, .rng, .span,
    .log, .freeCtr, .outbox] ⊆ ps) : GoesTo ps s0 (execRemoteOutcome tok status result epoch dev output s) := by
  unfold execRemoteOutcome
  repeat' (first
    | with_reducible assumption | exact reach w (Eq.refl _) | apply GoesTo.next | with_reducible apply output_goes
    | with_reducible apply attachRing_goes | with_reducible apply afterOutcome_goes
    | with_reducible apply settleAs_goes | with_reducible apply updSpan_goes | with_reducible apply Goes.ite
    | exact Or.inr (reachOne w (Eq.refl _)) | exact Or.inr ⟨reachOne w (Eq.refl _), rfl⟩
    | exact Or.inr ⟨reachOne w (Eq.refl _), rfl, rfl, rfl, rfl, rfl⟩ | exact Or.inl rfl | simp only [Goes.mk_eq]
    | with_reducible apply GoesMk.upd | split | dsimp only)

theorem execGatewayUnreachable_goes {ps : List Part} {s0 : State} (tok : Nat) (s : State) (h : Goes ps s0 s) (w :
    [.sys, .fns, .journal, .deferred, .skim, .hawk, .trowel, .eng, .pke, .rng, .span, .log, .freeCtr, .outbox] ⊆ ps) :
    GoesTo ps s0 (execGatewayUnreachable tok s) := by
  unfold execGatewayUnreachable
  repeat' (first
    | with_reducible assumption | exact reach w (Eq.refl _) | apply GoesTo.next
    | with_reducible apply afterOutcome_goes | with_reducible apply settleAs_goes | with_reducible apply cancel_goes
    | with_reducible apply updJ_goes | with_reducible apply Goes.ite | exact Or.inr (reachOne w (Eq.refl _))
    | exact Or.inr ⟨reachOne w (Eq.refl _), rfl⟩ | exact Or.inr ⟨reachOne w (Eq.refl _), fun c => c⟩
    | exact Or.inr ⟨reachOne w (Eq.refl _), rfl, rfl, rfl, rfl, rfl⟩ | exact Or.inl rfl | simp only [Goes.mk_eq]
    | with_reducible apply GoesMk.upd | split | dsimp only)

theorem execSheetPacket_goes {ps : List Part} {s0 : State} (f ring slot : Nat) (octets_ : List Byte) (s : State) (h :
    Goes ps s0 s) (w : [.sys, .fns, .eng, .span, .log, .budget, .outbox] ⊆ ps) : GoesTo ps s0 (execSheetPacket f ring
    slot octets_ s) := by
  unfold execSheetPacket
  repeat' (first
    | with_reducible assumption | exact reach w (Eq.refl _) | apply GoesTo.next | with_reducible apply putEntry_goes
    | with_reducible apply updRing_goes | with_reducible apply Goes.ite | exact Or.inr (reachOne w (Eq.refl _))
    | exact Or.inr ⟨reachOne w (Eq.refl _), rfl⟩ | exact Or.inr ⟨reachOne w (Eq.refl _), rfl, rfl, rfl, rfl, rfl⟩
    | exact Or.inl rfl | simp only [Goes.mk_eq] | with_reducible apply GoesMk.upd | split | dsimp only)

theorem execNumberPacket_goes {ps : List Part} {s0 : State} (devid : List Byte) (num : Nat) (s : State) (h : Goes ps
    s0 s) (w : [.sys, .outbox] ⊆ ps) : GoesTo ps s0 (execNumberPacket devid num s) := by
  unfold execNumberPacket
  repeat' (first
    | with_reducible assumption | exact reach w (Eq.refl _) | apply GoesTo.next | with_reducible apply flood_goes
    | with_reducible apply Goes.ite | exact Or.inr (reachOne w (Eq.refl _))
    | exact Or.inr ⟨reachOne w (Eq.refl _), rfl⟩ | exact Or.inr ⟨reachOne w (Eq.refl _), rfl, rfl, rfl, rfl, rfl⟩
    | exact Or.inl rfl | simp only [Goes.mk_eq] | with_reducible apply GoesMk.upd | split | dsimp only)

theorem spanCfgEff_goes {ps : List Part} {s0 : State} (c : Cmd) (s : State) (h : Goes ps s0 s) (w : [.sys, .pair,
    .span, .outbox] ⊆ ps) : Goes ps s0 (spanCfgEff c s).st := by
  unfold spanCfgEff
  repeat' (first
    | with_reducible assumption | exact reach w (Eq.refl _) | with_reducible apply updSpan_goes
    | with_reducible apply done_goes | with_reducible apply flood_goes | with_reducible apply Goes.ite
    | exact Or.inr (reachOne w (Eq.refl _)) | exact Or.inr ⟨reachOne w (Eq.refl _), rfl⟩
    | exact Or.inr ⟨reachOne w (Eq.refl _), rfl, rfl, rfl, rfl, rfl⟩ | exact Or.inl rfl | simp only [Goes.mk_eq]
    | with_reducible apply GoesMk.upd | split | dsimp only)

theorem execSpanCfg_goes {ps : List Part} {s0 : State} (c : Cmd) (s : State) (h : Goes ps s0 s) (w : [.sys, .journal,
    .deferred, .pair, .span, .outbox] ⊆ ps) : GoesTo ps s0 (execSpanCfg c s) := by
  unfold execSpanCfg
  repeat' (first
    | with_reducible assumption | exact reach w (Eq.refl _) | intro _ | apply GoesTo.next
    | with_reducible apply runConfig_goes | with_reducible apply spanCfgEff_goes | dsimp only)

theorem spanStatusEff_goes {ps : List Part} {s0 : State} (c : Cmd) (s : State) (h : Goes ps s0 s) : Goes ps s0
    (spanStatusEff c s).st := by
  unfold spanStatusEff
  repeat' (first
    | with_reducible assumption | with_reducible apply output_goes | with_reducible apply Goes.ite | split
    | dsimp only)

theorem execSpanStatus_goes {ps : List Part} {s0 : State} (c : Cmd) (s : State) (h : Goes ps s0 s) (w : [.journal,
    .span, .outbox] ⊆ ps) : GoesTo ps s0 (execSpanStatus c s) := by
  unfold execSpanStatus
  repeat' (first
    | with_reducible assumption | exact reach w (Eq.refl _) | intro _ | apply GoesTo.next
    | with_reducible apply runPlain_goes | with_reducible apply spanStatusEff_goes | dsimp only)

theorem spanRouteEff_goes {ps : List Part} {s0 : State} (c : Cmd) (s : State) (h : Goes ps s0 s) (w : [.pair, .span] ⊆
    ps) : Goes ps s0 (spanRouteEff c s).st := by
  unfold spanRouteEff
  repeat' (first
    | with_reducible assumption | exact reach w (Eq.refl _) | with_reducible apply done_goes
    | with_reducible apply updSpan_goes | with_reducible apply Goes.ite | exact Or.inr (reachOne w (Eq.refl _))
    | exact Or.inl rfl | simp only [Goes.mk_eq] | with_reducible apply GoesMk.upd | split | dsimp only)

theorem execSpanRoute_goes {ps : List Part} {s0 : State} (c : Cmd) (s : State) (h : Goes ps s0 s) (w : [.sys,
    .journal, .deferred, .pair, .span, .outbox] ⊆ ps) : GoesTo ps s0 (execSpanRoute c s) := by
  unfold execSpanRoute
  repeat' (first
    | with_reducible assumption | exact reach w (Eq.refl _) | intro _ | apply GoesTo.next
    | with_reducible apply runConfig_goes | with_reducible apply spanRouteEff_goes | dsimp only)

theorem execSpanOutcome_goes {ps : List Part} {s0 : State} (c : Cmd) (s : State) (h : Goes ps s0 s) (w : [.journal,
    .span, .outbox] ⊆ ps) : GoesTo ps s0 (execSpanOutcome c s) := by
  unfold execSpanOutcome
  repeat' (first
    | with_reducible assumption | exact reach w (Eq.refl _) | apply GoesTo.next | with_reducible apply settle_goes
    | with_reducible apply Goes.ite | exact Or.inr (reachOne w (Eq.refl _)) | exact Or.inl rfl
    | simp only [Goes.mk_eq] | with_reducible apply GoesMk.upd | split | dsimp only)

theorem hostActs_goes {ps : List Part} {s0 : State} (s : State) (h : Goes ps s0 s) (w : [.sys] ⊆ ps) : Goes ps s0
    (hostActs s) := by
  unfold hostActs
  repeat' (first
    | with_reducible assumption | exact Or.inr (reachOne w (Eq.refl _)) | exact Or.inr ⟨reachOne w (Eq.refl _), rfl⟩
    | exact Or.inr ⟨reachOne w (Eq.refl _), rfl, rfl, rfl, rfl, rfl⟩ | exact Or.inl rfl | simp only [Goes.mk_eq]
    | with_reducible apply GoesMk.upd | dsimp only)

theorem writeTail_goes {ps : List Part} {s0 : State} (f q : Nat) (v : W32) (s : State) (h : Goes ps s0 s) (w : [.sys,
    .fns, .log] ⊆ ps) : Goes ps s0 (writeTail f q v s) := by
  unfold writeTail
  repeat' (first
    | with_reducible assumption | exact reach w (Eq.refl _) | with_reducible apply queueError_goes
    | with_reducible apply hostActs_goes | with_reducible apply updQueue_goes | with_reducible apply Goes.ite
    | exact Or.inr (reachOne w (Eq.refl _)) | exact Or.inr ⟨reachOne w (Eq.refl _), rfl⟩
    | exact Or.inr ⟨reachOne w (Eq.refl _), rfl, rfl, rfl, rfl, rfl⟩ | exact Or.inl rfl | simp only [Goes.mk_eq]
    | with_reducible apply GoesMk.upd | split | dsimp only)

theorem execSqTailDoorbell_goes {ps : List Part} {s0 : State} (f q : Nat) (v : W32) (s : State) (h : Goes ps s0 s) (w
    : [.sys, .fns, .log, .outbox] ⊆ ps) : GoesTo ps s0 (execSqTailDoorbell f q v s) := by
  unfold execSqTailDoorbell
  repeat' (first
    | with_reducible assumption | exact reach w (Eq.refl _) | intro _ | apply GoesTo.next
    | with_reducible apply barWrite_goes | with_reducible apply writeTail_goes | dsimp only)

theorem forgetTok_goes {ps : List Part} {s0 : State} (tok : Nat) (s : State) (h : Goes ps s0 s) (w : [.journal,
    .outbox] ⊆ ps) : Goes ps s0 (forgetTok tok s) := by
  unfold forgetTok
  repeat' (first
    | with_reducible assumption | exact reach w (Eq.refl _) | with_reducible apply mirrorItem_goes
    | with_reducible apply Goes.ite | exact Or.inr (reachOne w (Eq.refl _)) | exact Or.inl rfl
    | simp only [Goes.mk_eq] | with_reducible apply GoesMk.upd | split | dsimp only)

theorem writeHead_goes {ps : List Part} {s0 : State} (f q : Nat) (v : W32) (s : State) (h : Goes ps s0 s) (w : [.fns,
    .journal, .log, .outbox] ⊆ ps) : Goes ps s0 (writeHead f q v s) := by
  unfold writeHead
  repeat' (first
    | with_reducible assumption | exact reach w (Eq.refl _) | intro _ | with_reducible apply queueError_goes
    | with_reducible apply forgetTok_goes | with_reducible apply updQueue_goes | with_reducible apply Goes.foldl
    | with_reducible apply Goes.foldl1 | with_reducible apply Goes.foldl2 | with_reducible apply Goes.ite
    | exact Or.inr (reachOne w (Eq.refl _)) | exact Or.inl rfl | simp only [Goes.mk_eq]
    | with_reducible apply GoesMk.upd | split | dsimp only)

theorem execCqHeadDoorbell_goes {ps : List Part} {s0 : State} (f q : Nat) (v : W32) (s : State) (h : Goes ps s0 s) (w
    : [.sys, .fns, .journal, .log, .outbox] ⊆ ps) : GoesTo ps s0 (execCqHeadDoorbell f q v s) := by
  unfold execCqHeadDoorbell
  repeat' (first
    | with_reducible assumption | exact reach w (Eq.refl _) | intro _ | apply GoesTo.next
    | with_reducible apply barWrite_goes | with_reducible apply writeHead_goes | dsimp only)

theorem clearEvt_goes {ps : List Part} {s0 : State} (w_ : Nat) (v : W32) (s : State) (h : Goes ps s0 s) (w : [.sys,
    .time, .skim, .hawk, .trowel, .eng, .rng, .keys, .sealer, .tamper, .pair, .span, .log, .budget] ⊆ ps) : Goes ps s0
    (clearEvt w_ v s) := by
  unfold clearEvt
  repeat' (first
    | with_reducible assumption | exact Or.inr (reachOne w (Eq.refl _)) | exact Or.inr ⟨reachOne w (Eq.refl _), rfl⟩
    | exact Or.inr ⟨reachOne w (Eq.refl _), fun c => c⟩
    | exact Or.inr ⟨reachOne w (Eq.refl _), rfl, rfl, rfl, rfl, rfl⟩ | exact Or.inl rfl | simp only [Goes.mk_eq]
    | with_reducible apply GoesMk.upd | split | dsimp only)

theorem w1cAt_goes {ps : List Part} {s0 t : State} {f off : Nat} {v : W32} {s : State} (e : w1cAt f off v s = some t)
    (h : Goes ps s0 s) (w : [.sys, .fns, .time, .ports, .skim, .hawk, .trowel, .eng, .pke, .rng, .keys, .sealer, .tamper, .pair, .span, .log, .budget] ⊆ ps) : Goes ps s0 t := by
  unfold w1cAt at e
  dsimp only at e
  repeat' split at e
  all_goals cases e
  · exact updFn_goes _ _ _ h (reach w rfl)
  · exact clearEvt_goes _ _ _ h (reach w rfl)
  · exact clearEvt_goes _ _ _ h (reach w rfl)
  · exact updPort_goes _ _ _ h (reach w rfl)
  · repeat' (first | with_reducible assumption | exact Or.inr (reachOne w (Eq.refl _)) | exact Or.inl rfl |
      simp only [Goes.mk_eq] | with_reducible apply GoesMk.upd)

theorem execEvtW1cWrite_goes {ps : List Part} {s0 : State} (f off : Nat) (v : W32) (s : State) (h : Goes ps s0 s)
    (w : [.sys, .fns, .time, .ports, .skim, .hawk, .trowel, .eng, .pke, .rng, .keys, .sealer, .tamper, .pair, .span, .log, .budget, .outbox] ⊆ ps) : GoesTo ps s0 (execEvtW1cWrite f off v s) := by
  unfold execEvtW1cWrite
  refine GoesTo.next (barWrite_goes _ _ _ h (fun s h => ?_) (reach w rfl))
  cases e : w1cAt f off v s with
  | none => exact h
  | some t => exact w1cAt_goes e h (reach w rfl)

theorem writeBell_goes {ps : List Part} {s0 : State} (f o : Nat) (v : W32) (s : State) (h : Goes ps s0 s) (w : [.sys,
    .fns, .journal, .log, .outbox] ⊆ ps) : Goes ps s0 (writeBell f o v s) := by
  unfold writeBell
  repeat' (first
    | with_reducible assumption | exact reach w (Eq.refl _) | with_reducible apply writeTail_goes
    | with_reducible apply writeHead_goes | with_reducible apply Goes.ite | split | dsimp only)

theorem writeRing_goes {ps : List Part} {s0 : State} (f o : Nat) (v : W32) (s : State) (h : Goes ps s0 s) (w : [.sys,
    .fns, .hawk, .log, .outbox] ⊆ ps) : Goes ps s0 (writeRing f o v s) := by
  unfold writeRing
  repeat' (first
    | with_reducible assumption | exact reach w (Eq.refl _) | with_reducible apply writeCons_goes
    | with_reducible apply Goes.ite | split | dsimp only)

theorem writeRegister_goes {ps : List Part} {s0 : State} (f off : Nat) (v : W32) (s : State) (h : Goes ps s0 s) (w :
    [.sys, .fns, .journal, .deferred, .time, .ports, .bpcfg, .skim, .hawk, .trowel, .publ, .eng, .pke, .rng, .keys,
    .sealer, .tamper, .pair, .span, .log, .budget, .fw, .injected, .freeCtr, .outbox] ⊆ ps) : Goes ps s0
    (writeRegister f off v s) := by
  unfold writeRegister
  repeat' (first
    | with_reducible assumption | exact reach w (Eq.refl _) | refine w1cAt_goes (by with_reducible assumption) ?_ ?_
    | with_reducible apply writeReset_goes | with_reducible apply writeRing_goes | with_reducible apply writeBell_goes
    | with_reducible apply Goes.ite | exact Or.inr (reachOne w (Eq.refl _))
    | exact Or.inr ⟨reachOne w (Eq.refl _), rfl⟩ | exact Or.inr ⟨reachOne w (Eq.refl _), fun c => c⟩
    | exact Or.inr ⟨reachOne w (Eq.refl _), rfl, rfl, rfl, rfl, rfl⟩ | exact Or.inl rfl | simp only [Goes.mk_eq]
    | with_reducible apply GoesMk.upd | split | dsimp only)

theorem execRegisterWrite_goes {ps : List Part} {s0 : State} (f off : Nat) (v : W32) (s : State) (h : Goes ps s0 s) (w
    : [.sys, .fns, .journal, .deferred, .time, .ports, .bpcfg, .skim, .hawk, .trowel, .publ, .eng, .pke, .rng, .keys,
    .sealer, .tamper, .pair, .span, .log, .budget, .fw, .injected, .freeCtr, .outbox] ⊆ ps) : GoesTo ps s0
    (execRegisterWrite f off v s) := by
  unfold execRegisterWrite
  repeat' (first
    | with_reducible assumption | exact reach w (Eq.refl _) | intro _ | apply GoesTo.next
    | with_reducible apply barWrite_goes | with_reducible apply writeRegister_goes | dsimp only)

theorem barRead_goes {ps : List Part} {s0 : State} (f off : Nat) (g : State → State) (s : State) (h : Goes ps s0 s)
    (hg : ∀  s, Goes ps s0 s → Goes ps s0 (g  s)) (w : [.sys, .log, .outbox] ⊆ ps) : Goes ps s0 (barRead f off g s) :=
    by
  unfold barRead
  repeat' (first
    | with_reducible assumption | exact reach w (Eq.refl _) | apply hg | with_reducible apply emit_goes
    | with_reducible apply event_goes | with_reducible apply Goes.ite | split | dsimp only)

theorem readEffect_goes {ps : List Part} {s0 : State} (f off : Nat) (s : State) (h : Goes ps s0 s) (w : [.sys, .fns,
    .journal, .deferred, .time, .ports, .bpcfg, .skim, .hawk, .trowel, .publ, .eng, .pke, .rng, .keys, .sealer,
    .tamper, .pair, .span, .log, .budget, .fw, .injected, .freeCtr, .outbox] ⊆ ps) : Goes ps s0 (readEffect f off s)
    := by
  unfold readEffect
  repeat' (first
    | with_reducible assumption | exact reach w (Eq.refl _) | with_reducible apply tamperDetect_goes
    | with_reducible apply Goes.ite | exact Or.inr (reachOne w (Eq.refl _))
    | exact Or.inr ⟨reachOne w (Eq.refl _), rfl⟩ | exact Or.inr ⟨reachOne w (Eq.refl _), fun c => c⟩
    | exact Or.inr ⟨reachOne w (Eq.refl _), rfl, rfl, rfl, rfl, rfl⟩ | exact Or.inl rfl | simp only [Goes.mk_eq]
    | with_reducible apply GoesMk.upd | split | dsimp only)

theorem execLoRegisterRead_goes {ps : List Part} {s0 : State} (f off : Nat) (s : State) (h : Goes ps s0 s) (w : [.sys,
    .fns, .journal, .deferred, .time, .ports, .bpcfg, .skim, .hawk, .trowel, .publ, .eng, .pke, .rng, .keys, .sealer,
    .tamper, .pair, .span, .log, .budget, .fw, .injected, .freeCtr, .outbox] ⊆ ps) : GoesTo ps s0 (execLoRegisterRead
    f off s) := by
  unfold execLoRegisterRead
  repeat' (first
    | with_reducible assumption | exact reach w (Eq.refl _) | intro _ | apply GoesTo.next
    | with_reducible apply barRead_goes | with_reducible apply readEffect_goes | dsimp only)

theorem execShFieldRead_goes {ps : List Part} {s0 : State} (off : Nat) (s : State) (h : Goes ps s0 s) (w : [.sys,
    .fns, .journal, .deferred, .time, .ports, .bpcfg, .skim, .hawk, .trowel, .publ, .eng, .pke, .rng, .keys, .sealer,
    .tamper, .pair, .span, .log, .budget, .fw, .injected, .freeCtr, .outbox] ⊆ ps) : GoesTo ps s0 (execShFieldRead off
    s) := by
  unfold execShFieldRead
  repeat' (first
    | with_reducible assumption | exact reach w (Eq.refl _) | intro _ | apply GoesTo.next
    | with_reducible apply barRead_goes | with_reducible apply readEffect_goes | dsimp only)

theorem execPcieConfigRequest_goes {ps : List Part} {s0 : State} (f : Nat) (s : State) (h : Goes ps s0 s) (w :
    [.outbox] ⊆ ps) : GoesTo ps s0 (execPcieConfigRequest f s) := by
  unfold execPcieConfigRequest
  repeat' (first
    | with_reducible assumption | exact reach w (Eq.refl _) | apply GoesTo.next | with_reducible apply emit_goes
    | with_reducible apply Goes.ite | split | dsimp only)

theorem execFunctionLevelReset_goes {ps : List Part} {s0 : State} (f : Nat) (s : State) (h : Goes ps s0 s) (w : [.sys,
    .fns, .journal, .deferred, .skim, .hawk, .trowel, .eng, .pke, .rng, .pair, .span, .log, .freeCtr, .outbox] ⊆ ps) :
    GoesTo ps s0 (execFunctionLevelReset f s) := by
  unfold execFunctionLevelReset
  repeat' (first
    | with_reducible assumption | exact reach w (Eq.refl _) | apply GoesTo.next | with_reducible apply emit_goes
    | with_reducible apply functionReset_goes | with_reducible apply Goes.ite | split | dsimp only)

theorem disableVfs_goes {ps : List Part} {s0 : State} (s : State) (h : Goes ps s0 s) (w : [.sys, .fns, .journal,
    .deferred, .skim, .hawk, .trowel, .eng, .pke, .rng, .pair, .span, .log, .freeCtr, .outbox] ⊆ ps) : Goes ps s0
    (disableVfs s) := by
  unfold disableVfs
  repeat' (first
    | with_reducible assumption | exact reach w (Eq.refl _) | intro _ | with_reducible apply functionReset_goes
    | with_reducible apply Goes.foldl | with_reducible apply Goes.foldl1 | with_reducible apply Goes.foldl2
    | exact Or.inr (reachOne w (Eq.refl _)) | exact Or.inr ⟨reachOne w (Eq.refl _), rfl⟩
    | exact Or.inr ⟨reachOne w (Eq.refl _), fun c => c⟩
    | exact Or.inr ⟨reachOne w (Eq.refl _), rfl, rfl, rfl, rfl, rfl⟩ | exact Or.inl rfl | simp only [Goes.mk_eq]
    | with_reducible apply GoesMk.upd | dsimp only)

theorem execConventionalReset_goes {ps : List Part} {s0 : State} (s : State) (h : Goes ps s0 s) (w : [.sys, .fns,
    .journal, .deferred, .skim, .hawk, .trowel, .eng, .pke, .rng, .pair, .span, .log, .freeCtr, .outbox] ⊆ ps) :
    GoesTo ps s0 (execConventionalReset s) := by
  unfold execConventionalReset
  repeat' (first
    | with_reducible assumption | exact reach w (Eq.refl _) | apply GoesTo.next | with_reducible apply disableVfs_goes
    | with_reducible apply functionReset_goes | with_reducible apply Goes.ite | exact Or.inr (reachOne w (Eq.refl _))
    | exact Or.inr ⟨reachOne w (Eq.refl _), rfl⟩ | exact Or.inr ⟨reachOne w (Eq.refl _), fun c => c⟩
    | exact Or.inr ⟨reachOne w (Eq.refl _), rfl, rfl, rfl, rfl, rfl⟩ | exact Or.inl rfl | simp only [Goes.mk_eq]
    | with_reducible apply GoesMk.upd | split | dsimp only)

theorem execVfEnableChange_goes {ps : List Part} {s0 : State} (on : Bool) (num : Nat) (s : State) (h : Goes ps s0 s)
    (w : [.sys, .fns, .journal, .deferred, .skim, .hawk, .trowel, .eng, .pke, .rng, .pair, .span, .log, .freeCtr,
    .outbox] ⊆ ps) : GoesTo ps s0 (execVfEnableChange on num s) := by
  unfold execVfEnableChange
  repeat' (first
    | with_reducible assumption | exact reach w (Eq.refl _) | apply GoesTo.next | with_reducible apply emit_goes
    | with_reducible apply disableVfs_goes | with_reducible apply Goes.ite | exact Or.inr (reachOne w (Eq.refl _))
    | exact Or.inr ⟨reachOne w (Eq.refl _), rfl⟩ | exact Or.inr ⟨reachOne w (Eq.refl _), fun c => c⟩
    | exact Or.inr ⟨reachOne w (Eq.refl _), rfl, rfl, rfl, rfl, rfl⟩ | exact Or.inl rfl | simp only [Goes.mk_eq]
    | with_reducible apply GoesMk.upd | split | dsimp only)

theorem execSpdmRequest_goes {ps : List Part} {s0 : State} (r : SpdmReq) (s : State) (h : Goes ps s0 s) (w : [.sys,
    .outbox] ⊆ ps) : GoesTo ps s0 (execSpdmRequest r s) := by
  unfold execSpdmRequest
  repeat' (first
    | with_reducible assumption | exact reach w (Eq.refl _) | apply GoesTo.next | with_reducible apply emit_goes
    | with_reducible apply Goes.ite | exact Or.inr (reachOne w (Eq.refl _))
    | exact Or.inr ⟨reachOne w (Eq.refl _), rfl⟩ | exact Or.inr ⟨reachOne w (Eq.refl _), rfl, rfl, rfl, rfl, rfl⟩
    | exact Or.inl rfl | simp only [Goes.mk_eq] | with_reducible apply GoesMk.upd | split | dsimp only)

theorem sendFlit_goes {ps : List Part} {s0 : State} (ackSeq : Nat) (ack nak : Bool) (s : State) (h : Goes ps s0 s) (w
    : [.sys, .outbox] ⊆ ps) : Goes ps s0 (sendFlit ackSeq ack nak s) := by
  unfold sendFlit
  repeat' (first
    | with_reducible assumption | exact reach w (Eq.refl _) | with_reducible apply emit_goes
    | exact Or.inr (reachOne w (Eq.refl _)) | exact Or.inr ⟨reachOne w (Eq.refl _), rfl⟩
    | exact Or.inr ⟨reachOne w (Eq.refl _), rfl, rfl, rfl, rfl, rfl⟩ | exact Or.inl rfl | simp only [Goes.mk_eq]
    | with_reducible apply GoesMk.upd | dsimp only)

theorem ucieAcks_goes {ps : List Part} {s0 : State} (c : List Byte) (s : State) (h : Goes ps s0 s) (w : [.sys,
    .outbox] ⊆ ps) : Goes ps s0 (ucieAcks c s) := by
  unfold ucieAcks
  repeat' (first
    | with_reducible assumption | exact reach w (Eq.refl _) | with_reducible apply emits_goes
    | with_reducible apply Goes.ite | exact Or.inr (reachOne w (Eq.refl _))
    | exact Or.inr ⟨reachOne w (Eq.refl _), rfl⟩ | exact Or.inr ⟨reachOne w (Eq.refl _), rfl, rfl, rfl, rfl, rfl⟩
    | exact Or.inl rfl | simp only [Goes.mk_eq] | with_reducible apply GoesMk.upd | split | dsimp only)

theorem execUcieLinkTraining_goes {ps : List Part} {s0 : State} (partnerLath : Bool) (rates : List Nat) (repaired :
    Bool) (s : State) (h : Goes ps s0 s) (w : [.sys, .outbox] ⊆ ps) : GoesTo ps s0 (execUcieLinkTraining partnerLath
    rates repaired s) := by
  unfold execUcieLinkTraining
  repeat' (first
    | with_reducible assumption | exact reach w (Eq.refl _) | apply GoesTo.next | with_reducible apply emit_goes
    | with_reducible apply Goes.ite | exact Or.inr (reachOne w (Eq.refl _))
    | exact Or.inr ⟨reachOne w (Eq.refl _), rfl⟩ | exact Or.inr ⟨reachOne w (Eq.refl _), rfl, rfl, rfl, rfl, rfl⟩
    | exact Or.inl rfl | simp only [Goes.mk_eq] | with_reducible apply GoesMk.upd | split | dsimp only)

theorem execUcieFlitReceive_goes {ps : List Part} {s0 : State} (f : Flit) (s : State) (h : Goes ps s0 s) (w : [.sys,
    .outbox] ⊆ ps) : GoesTo ps s0 (execUcieFlitReceive f s) := by
  unfold execUcieFlitReceive
  repeat' (first
    | with_reducible assumption | exact reach w (Eq.refl _) | apply GoesTo.next | with_reducible apply sendFlit_goes
    | with_reducible apply ucieAcks_goes | with_reducible apply Goes.ite | exact Or.inr (reachOne w (Eq.refl _))
    | exact Or.inr ⟨reachOne w (Eq.refl _), rfl⟩ | exact Or.inr ⟨reachOne w (Eq.refl _), rfl, rfl, rfl, rfl, rfl⟩
    | exact Or.inl rfl | simp only [Goes.mk_eq] | with_reducible apply GoesMk.upd | split | dsimp only)

theorem execUcieRetrain_goes {ps : List Part} {s0 : State} (replays flits : Nat) (s : State) (h : Goes ps s0 s) (w :
    [.sys, .log] ⊆ ps) : GoesTo ps s0 (execUcieRetrain replays flits s) := by
  unfold execUcieRetrain
  repeat' (first
    | with_reducible assumption | exact reach w (Eq.refl _) | apply GoesTo.next | with_reducible apply event_goes
    | with_reducible apply Goes.ite | exact Or.inr (reachOne w (Eq.refl _))
    | exact Or.inr ⟨reachOne w (Eq.refl _), rfl⟩ | exact Or.inr ⟨reachOne w (Eq.refl _), rfl, rfl, rfl, rfl, rfl⟩
    | exact Or.inl rfl | simp only [Goes.mk_eq] | with_reducible apply GoesMk.upd | split | dsimp only)

end Sys2Proof.Machine
end

