-- ==== Sys2Proof/Laws/GoesProtocol.lean ====
section
/-! SUPPORT. Laws/GoesProtocol.lean: what every operation of the files Diag, Records, Protocol, Mirror, Receive, EzSys, Tick does to
the state at most (f_goes; f_pair for one that answers a pair): the parts it reaches, legality kept, counters onward. -/
set_option linter.unusedSimpArgs false
namespace Sys2Proof.Machine

theorem testEff_goes {ps : List Part} {s0 : State} (c : Cmd) (s : State) (h : Goes ps s0 s) (w : [.log, .budget,
    .freeCtr] ⊆ ps) : Goes ps s0 (testEff c s).st := by
  unfold testEff
  repeat' (first
    | with_reducible assumption | exact reach w (Eq.refl _) | with_reducible apply fresh_goes
    | refine fresh_pair (by with_reducible assumption) ?_ ?_ | with_reducible apply workFor_goes | dsimp only)

theorem diagKatEff_goes {ps : List Part} {s0 : State} (c : Cmd) (s : State) (h : Goes ps s0 s) (w : [.log, .budget,
    .freeCtr] ⊆ ps) : Goes ps s0 (diagKatEff c s).st := by
  unfold diagKatEff
  repeat' (first
    | with_reducible assumption | exact reach w (Eq.refl _) | with_reducible apply testEff_goes | dsimp only)

theorem execDiagKat_goes {ps : List Part} {s0 : State} (c : Cmd) (s : State) (h : Goes ps s0 s) (w : [.journal, .span,
    .log, .budget, .freeCtr, .outbox] ⊆ ps) : GoesTo ps s0 (execDiagKat c s) := by
  unfold execDiagKat
  repeat' (first
    | with_reducible assumption | exact reach w (Eq.refl _) | intro _ | apply GoesTo.next
    | with_reducible apply runWork_goes | with_reducible apply diagKatEff_goes | dsimp only)

theorem diagSelftestEff_goes {ps : List Part} {s0 : State} (c : Cmd) (s : State) (h : Goes ps s0 s) (w : [.log,
    .budget, .freeCtr] ⊆ ps) : Goes ps s0 (diagSelftestEff c s).st := by
  unfold diagSelftestEff
  repeat' (first
    | with_reducible assumption | exact reach w (Eq.refl _) | with_reducible apply testEff_goes | dsimp only)

theorem execDiagSelftest_goes {ps : List Part} {s0 : State} (c : Cmd) (s : State) (h : Goes ps s0 s) (w : [.journal,
    .span, .log, .budget, .freeCtr, .outbox] ⊆ ps) : GoesTo ps s0 (execDiagSelftest c s) := by
  unfold execDiagSelftest
  repeat' (first
    | with_reducible assumption | exact reach w (Eq.refl _) | intro _ | apply GoesTo.next
    | with_reducible apply runWork_goes | with_reducible apply diagSelftestEff_goes | dsimp only)

theorem diagInjectEff_goes {ps : List Part} {s0 : State} (c : Cmd) (s : State) (h : Goes ps s0 s) (w : [.injected] ⊆
    ps) : Goes ps s0 (diagInjectEff c s).st := by
  unfold diagInjectEff
  repeat' (first
    | with_reducible assumption | exact reach w (Eq.refl _) | with_reducible apply done_goes
    | with_reducible apply Goes.ite | exact Or.inr (reachOne w (Eq.refl _)) | exact Or.inl rfl
    | simp only [Goes.mk_eq] | with_reducible apply GoesMk.upd | split | dsimp only)

theorem execDiagInject_goes {ps : List Part} {s0 : State} (c : Cmd) (s : State) (h : Goes ps s0 s) (w : [.journal,
    .span, .injected, .outbox] ⊆ ps) : GoesTo ps s0 (execDiagInject c s) := by
  unfold execDiagInject
  repeat' (first
    | with_reducible assumption | exact reach w (Eq.refl _) | intro _ | apply GoesTo.next
    | with_reducible apply runPlain_goes | with_reducible apply diagInjectEff_goes | dsimp only)

theorem recTrigEff_goes {ps : List Part} {s0 : State} (c : Cmd) (s : State) (h : Goes ps s0 s) (w : [.sys, .fns,
    .skim, .hawk, .eng, .sealer, .span, .log, .budget, .outbox] ⊆ ps) : Goes ps s0 (recTrigEff c s).st := by
  unfold recTrigEff
  repeat' (first
    | with_reducible assumption | exact reach w (Eq.refl _) | with_reducible apply archive_goes
    | with_reducible apply done_goes | with_reducible apply updTrig_goes | dsimp only)

theorem execRecTrig_goes {ps : List Part} {s0 : State} (c : Cmd) (s : State) (h : Goes ps s0 s) (w : [.sys, .fns,
    .journal, .deferred, .skim, .hawk, .eng, .sealer, .span, .log, .budget, .outbox] ⊆ ps) : GoesTo ps s0 (execRecTrig
    c s) := by
  unfold execRecTrig
  repeat' (first
    | with_reducible assumption | exact reach w (Eq.refl _) | intro _ | apply GoesTo.next
    | with_reducible apply runConfig_goes | with_reducible apply recTrigEff_goes | dsimp only)

theorem recFireEff_goes {ps : List Part} {s0 : State} (c : Cmd) (s : State) (h : Goes ps s0 s) (w : [.hawk, .log,
    .outbox] ⊆ ps) : Goes ps s0 (recFireEff c s).st := by
  unfold recFireEff
  repeat' (first
    | with_reducible assumption | exact reach w (Eq.refl _) | with_reducible apply done_goes
    | with_reducible apply fireTrig_goes | dsimp only)

theorem execRecFire_goes {ps : List Part} {s0 : State} (c : Cmd) (s : State) (h : Goes ps s0 s) (w : [.journal, .hawk,
    .span, .log, .outbox] ⊆ ps) : GoesTo ps s0 (execRecFire c s) := by
  unfold execRecFire
  repeat' (first
    | with_reducible assumption | exact reach w (Eq.refl _) | intro _ | apply GoesTo.next
    | with_reducible apply runPlain_goes | with_reducible apply recFireEff_goes | dsimp only)

theorem recLockEff_goes {ps : List Part} {s0 : State} (c : Cmd) (s : State) (h : Goes ps s0 s) (w : [.sealer] ⊆ ps) :
    Goes ps s0 (recLockEff c s).st := by
  unfold recLockEff
  repeat' (first
    | with_reducible assumption | exact reach w (Eq.refl _) | with_reducible apply done_goes
    | with_reducible apply updVolRec_goes | exact Or.inr (reachOne w (Eq.refl _)) | exact Or.inl rfl
    | simp only [Goes.mk_eq] | with_reducible apply GoesMk.upd | dsimp only)

theorem execRecLock_goes {ps : List Part} {s0 : State} (c : Cmd) (s : State) (h : Goes ps s0 s) (w : [.sys, .journal,
    .deferred, .sealer, .span, .outbox] ⊆ ps) : GoesTo ps s0 (execRecLock c s) := by
  unfold execRecLock
  repeat' (first
    | with_reducible assumption | exact reach w (Eq.refl _) | intro _ | apply GoesTo.next
    | with_reducible apply runConfig_goes | with_reducible apply recLockEff_goes | dsimp only)

theorem recListEff_goes {ps : List Part} {s0 : State} (c : Cmd) (s : State) (h : Goes ps s0 s) : Goes ps s0
    (recListEff c s).st := by
  unfold recListEff
  repeat' (first
    | with_reducible assumption | dsimp only)

theorem execRecList_goes {ps : List Part} {s0 : State} (c : Cmd) (s : State) (h : Goes ps s0 s) (w : [.journal, .span,
    .outbox] ⊆ ps) : GoesTo ps s0 (execRecList c s) := by
  unfold execRecList
  repeat' (first
    | with_reducible assumption | exact reach w (Eq.refl _) | intro _ | apply GoesTo.next
    | with_reducible apply runPlain_goes | with_reducible apply recListEff_goes | dsimp only)

theorem updRec_goes {ps : List Part} {s0 : State} (n : Nat) (g : Rec → Rec) (s : State) (h : Goes ps s0 s) (w :
    [.hawk] ⊆ ps) : Goes ps s0 (updRec n g s) := by
  unfold updRec
  repeat' (first
    | with_reducible assumption | with_reducible apply Goes.ite | exact Or.inr (reachOne w (Eq.refl _))
    | exact Or.inl rfl | simp only [Goes.mk_eq] | with_reducible apply GoesMk.upd | split | dsimp only)

theorem execRecordCopyStart_goes {ps : List Part} {s0 : State} (n : Nat) (s : State) (h : Goes ps s0 s) (w : [.hawk,
    .log, .budget] ⊆ ps) : GoesTo ps s0 (execRecordCopyStart n s) := by
  unfold execRecordCopyStart
  repeat' (first
    | with_reducible assumption | exact reach w (Eq.refl _) | apply GoesTo.next | with_reducible apply openWork_goes
    | with_reducible apply updRec_goes | with_reducible apply Goes.ite | exact Or.inr (reachOne w (Eq.refl _))
    | exact Or.inl rfl | simp only [Goes.mk_eq] | with_reducible apply GoesMk.upd | split | dsimp only)

theorem execRecordSeal_goes {ps : List Part} {s0 : State} (n : Nat) (s : State) (h : Goes ps s0 s) (w : [.sys, .fns,
    .bpcfg, .skim, .hawk, .eng, .pke, .rng, .sealer, .span, .log, .budget, .outbox] ⊆ ps) : GoesTo ps s0
    (execRecordSeal n s) := by
  unfold execRecordSeal
  repeat' (first
    | with_reducible assumption | exact reach w (Eq.refl _) | apply GoesTo.next | with_reducible apply recDropped_goes
    | with_reducible apply archive_goes | with_reducible apply engineWork_goes
    | with_reducible apply internalSign_goes | refine internalSign_pair (by with_reducible assumption) ?_ ?_
    | with_reducible apply record_goes | with_reducible apply recSealed_goes | with_reducible apply Goes.ite
    | exact Or.inr (reachOne w (Eq.refl _)) | exact Or.inr ⟨reachOne w (Eq.refl _), rfl⟩
    | exact Or.inr ⟨reachOne w (Eq.refl _), rfl, rfl, rfl, rfl, rfl⟩ | exact Or.inl rfl | simp only [Goes.mk_eq]
    | with_reducible apply GoesMk.upd | split | dsimp only)

theorem admissionFail_goes {ps : List Part} {s0 : State} (mem : List Host.Cell) (c : Cmd) (s : State) (h : Goes ps s0
    s) (w : [.sys, .fns, .log, .budget] ⊆ ps) : Goes ps s0 (admissionFail mem c s).1 := by
  unfold admissionFail
  repeat' (first
    | with_reducible assumption | exact reach w (Eq.refl _) | with_reducible apply checkRange_goes
    | refine checkRange_pair (by with_reducible assumption) ?_ ?_ | exact Or.inr (reachOne w (Eq.refl _))
    | exact Or.inr ⟨reachOne w (Eq.refl _), rfl⟩ | exact Or.inr ⟨reachOne w (Eq.refl _), rfl, rfl, rfl, rfl, rfl⟩
    | exact Or.inl rfl | simp only [Goes.mk_eq] | with_reducible apply GoesMk.upd | split | dsimp only)

theorem admissionFail_pair {ps : List Part} {s0 s1 : State} {mem : List Host.Cell} {c : Cmd} {s : State} {z} (e :
    admissionFail mem c s = (s1, z)) (h : Goes ps s0 s) (w : [.sys, .fns, .log, .budget] ⊆ ps) : Goes ps s0 s1 := by
  have g := admissionFail_goes (s0 := s0) mem c s h w
  rw [e] at g; exact g

theorem withOperands_goes {ps : List Part} {s0 : State} (mem : List Host.Cell) (c : Cmd) (s : State) (h : Goes ps s0
    s) (w : [.sys, .fns, .log, .budget] ⊆ ps) : Goes ps s0 (withOperands mem c s).1 := by
  unfold withOperands
  repeat' (first
    | with_reducible assumption | exact reach w (Eq.refl _) | with_reducible apply pinnedMap_goes
    | refine pinnedMap_pair (by with_reducible assumption) ?_ ?_ | with_reducible apply Goes.ite
    | exact Or.inr (reachOne w (Eq.refl _)) | exact Or.inr ⟨reachOne w (Eq.refl _), rfl⟩
    | exact Or.inr ⟨reachOne w (Eq.refl _), rfl, rfl, rfl, rfl, rfl⟩ | exact Or.inl rfl | simp only [Goes.mk_eq]
    | with_reducible apply GoesMk.upd | split | dsimp only)

theorem withOperands_pair {ps : List Part} {s0 s1 : State} {mem : List Host.Cell} {c : Cmd} {s : State} {z} (e :
    withOperands mem c s = (s1, z)) (h : Goes ps s0 s) (w : [.sys, .fns, .log, .budget] ⊆ ps) : Goes ps s0 s1 := by
  have g := withOperands_goes (s0 := s0) mem c s h w
  rw [e] at g; exact g

theorem newEntry_goes {ps : List Part} {s0 : State} (c : Cmd) (s : State) (h : Goes ps s0 s) (w : [.journal, .keys,
    .outbox] ⊆ ps) : Goes ps s0 (newEntry c s) := by
  unfold newEntry
  repeat' (first
    | with_reducible assumption | exact reach w (Eq.refl _) | with_reducible apply mirrorItem_goes
    | with_reducible apply Goes.ite | exact Or.inr (reachOne w (Eq.refl _))
    | exact Or.inr ⟨reachOne w (Eq.refl _), rfl⟩ | exact Or.inl rfl | simp only [Goes.mk_eq]
    | with_reducible apply GoesMk.upd | split | dsimp only)

theorem admitted_goes {ps : List Part} {s0 : State} (c : Cmd) (s : State) (h : Goes ps s0 s) (w : [.journal, .trowel,
    .keys, .span, .outbox] ⊆ ps) : Goes ps s0 (admitted c s) := by
  unfold admitted
  repeat' (first
    | with_reducible assumption | exact reach w (Eq.refl _) | with_reducible apply newEntry_goes
    | with_reducible apply mirrorItem_goes | with_reducible apply admissionDone_goes | with_reducible apply Goes.ite
    | exact Or.inr (reachOne w (Eq.refl _)) | exact Or.inr ⟨reachOne w (Eq.refl _), rfl⟩
    | exact Or.inr ⟨reachOne w (Eq.refl _), fun c => c⟩ | exact Or.inl rfl | simp only [Goes.mk_eq]
    | with_reducible apply GoesMk.upd | split | dsimp only)

theorem queueUp_goes {ps : List Part} {s0 : State} (c : Cmd) (w_ : Waiting) (s : State) (h : Goes ps s0 s) (w : [.fns]
    ⊆ ps) : Goes ps s0 (queueUp c w_ s) := by
  unfold queueUp
  repeat' (first
    | with_reducible assumption | exact reach w (Eq.refl _) | with_reducible apply updQueue_goes
    | exact Or.inr (reachOne w (Eq.refl _)) | exact Or.inl rfl | simp only [Goes.mk_eq]
    | with_reducible apply GoesMk.upd | dsimp only)

theorem refuse_goes {ps : List Part} {s0 : State} (c : Cmd) (st : Nat) (s : State) (h : Goes ps s0 s) (w : [.fns,
    .log] ⊆ ps) : Goes ps s0 (refuse c st s) := by
  unfold refuse
  repeat' (first
    | with_reducible assumption | exact reach w (Eq.refl _) | with_reducible apply fnEvent_goes
    | with_reducible apply queueUp_goes | with_reducible apply Goes.ite | split | dsimp only)

theorem accept_goes {ps : List Part} {s0 : State} (c : Cmd) (s : State) (h : Goes ps s0 s) (w : [.sys, .fns, .journal,
    .trowel, .keys, .span, .outbox] ⊆ ps) : Goes ps s0 (accept c s) := by
  unfold accept
  repeat' (first
    | with_reducible assumption | exact reach w (Eq.refl _) | with_reducible apply nextToken_goes
    | refine nextToken_pair (by with_reducible assumption) ?_ ?_ | with_reducible apply admitted_goes
    | with_reducible apply queueUp_goes | with_reducible apply Goes.ite | exact Or.inr (reachOne w (Eq.refl _))
    | exact Or.inr ⟨reachOne w (Eq.refl _), rfl⟩ | exact Or.inr ⟨reachOne w (Eq.refl _), fun c => c⟩
    | exact Or.inr ⟨reachOne w (Eq.refl _), rfl, rfl, rfl, rfl, rfl⟩ | exact Or.inl rfl | simp only [Goes.mk_eq]
    | with_reducible apply GoesMk.upd | split | dsimp only)

theorem askActive_goes {ps : List Part} {s0 : State} (c : Cmd) (s : State) (h : Goes ps s0 s) (w : [.pair, .outbox] ⊆
    ps) : Goes ps s0 (askActive c s) := by
  unfold askActive
  repeat' (first
    | with_reducible assumption | exact reach w (Eq.refl _) | with_reducible apply emit_goes
    | with_reducible apply updPair_goes | exact Or.inr (reachOne w (Eq.refl _)) | exact Or.inl rfl
    | simp only [Goes.mk_eq] | with_reducible apply GoesMk.upd | dsimp only)

theorem takeEntry_goes {ps : List Part} {s0 : State} (mem : List Host.Cell) (c : Cmd) (s : State) (h : Goes ps s0 s)
    (w : [.sys, .fns, .journal, .trowel, .keys, .pair, .span, .log, .budget, .outbox] ⊆ ps) : Goes ps s0 (takeEntry
    mem c s) := by
  unfold takeEntry
  repeat' (first
    | with_reducible assumption | exact reach w (Eq.refl _) | with_reducible apply admissionFail_goes
    | refine admissionFail_pair (by with_reducible assumption) ?_ ?_ | with_reducible apply workFor_goes
    | with_reducible apply hostMove_goes | with_reducible apply refuse_goes | with_reducible apply withOperands_goes
    | refine withOperands_pair (by with_reducible assumption) ?_ ?_ | with_reducible apply askActive_goes
    | with_reducible apply accept_goes | with_reducible apply Goes.ite | exact Or.inr (reachOne w (Eq.refl _))
    | exact Or.inr ⟨reachOne w (Eq.refl _), rfl⟩ | exact Or.inr ⟨reachOne w (Eq.refl _), fun c => c⟩
    | exact Or.inr ⟨reachOne w (Eq.refl _), rfl, rfl, rfl, rfl, rfl⟩ | exact Or.inl rfl | simp only [Goes.mk_eq]
    | with_reducible apply GoesMk.upd | split | dsimp only)

theorem execCommandFetch_goes {ps : List Part} {s0 : State} (f q : Nat) (mem : List Host.Cell) (s : State) (h : Goes
    ps s0 s) (w : [.sys, .fns, .journal, .trowel, .keys, .pair, .span, .log, .budget, .outbox] ⊆ ps) : GoesTo ps s0
    (execCommandFetch f q mem s) := by
  unfold execCommandFetch
  repeat' (first
    | with_reducible assumption | exact reach w (Eq.refl _) | apply GoesTo.next | with_reducible apply accept_goes
    | with_reducible apply updPair_goes | with_reducible apply hostActs_goes | with_reducible apply pinnedLookup_goes
    | with_reducible apply queueError_goes | with_reducible apply updQueue_goes | with_reducible apply takeEntry_goes
    | with_reducible apply Goes.ite | exact Or.inr (reachOne w (Eq.refl _))
    | exact Or.inr ⟨reachOne w (Eq.refl _), rfl⟩ | exact Or.inr ⟨reachOne w (Eq.refl _), fun c => c⟩
    | exact Or.inr ⟨reachOne w (Eq.refl _), rfl, rfl, rfl, rfl, rfl⟩ | exact Or.inl rfl | simp only [Goes.mk_eq]
    | with_reducible apply GoesMk.upd | split | dsimp only)

theorem bootstrap_goes {ps : List Part} {s0 : State} (f : Nat) (mem : List Host.Cell) (s : State) (h : Goes ps s0 s)
    (w : [.sys, .fns, .journal, .trowel, .keys, .pair, .span, .log, .budget, .outbox] ⊆ ps) : Goes ps s0 (bootstrap f
    mem s) := by
  unfold bootstrap
  repeat' (first
    | with_reducible assumption | exact reach w (Eq.refl _) | with_reducible apply hostActs_goes
    | with_reducible apply translate_goes | refine translate_pair (by with_reducible assumption) ?_ ?_
    | with_reducible apply fnEvent_goes | with_reducible apply takeEntry_goes | with_reducible apply Goes.ite
    | exact Or.inr (reachOne w (Eq.refl _)) | exact Or.inr ⟨reachOne w (Eq.refl _), rfl⟩
    | exact Or.inr ⟨reachOne w (Eq.refl _), fun c => c⟩
    | exact Or.inr ⟨reachOne w (Eq.refl _), rfl, rfl, rfl, rfl, rfl⟩ | exact Or.inl rfl | simp only [Goes.mk_eq]
    | with_reducible apply GoesMk.upd | split | dsimp only)

theorem execQueueBootstrap_goes {ps : List Part} {s0 : State} (f : Nat) (mem : List Host.Cell) (s : State) (h : Goes
    ps s0 s) (w : [.sys, .fns, .journal, .trowel, .keys, .pair, .span, .log, .budget, .outbox] ⊆ ps) : GoesTo ps s0
    (execQueueBootstrap f mem s) := by
  unfold execQueueBootstrap
  repeat' (first
    | with_reducible assumption | exact reach w (Eq.refl _) | intro _ | apply GoesTo.next
    | with_reducible apply barWrite_goes | with_reducible apply bootstrap_goes | dsimp only)

theorem execRemoteCommand_goes {ps : List Part} {s0 : State} (c : Cmd) (s : State) (h : Goes ps s0 s) (w : [.journal,
    .trowel, .keys, .span, .outbox] ⊆ ps) : GoesTo ps s0 (execRemoteCommand c s) := by
  unfold execRemoteCommand
  repeat' (first
    | with_reducible assumption | exact reach w (Eq.refl _) | apply GoesTo.next | with_reducible apply newEntry_goes
    | with_reducible apply settle_goes | with_reducible apply atAdmission_goes | with_reducible apply Goes.ite
    | exact Or.inr (reachOne w (Eq.refl _)) | exact Or.inr ⟨reachOne w (Eq.refl _), rfl⟩
    | exact Or.inr ⟨reachOne w (Eq.refl _), fun c => c⟩ | exact Or.inl rfl | simp only [Goes.mk_eq]
    | with_reducible apply GoesMk.upd | split | dsimp only)

theorem applyFw_goes {ps : List Part} {s0 : State} (c : Cmd) (s : State) (h : Goes ps s0 s) (w : [.sys, .fns,
    .journal, .deferred, .time, .ports, .bpcfg, .skim, .hawk, .trowel, .publ, .eng, .pke, .rng, .keys, .sealer,
    .tamper, .pair, .span, .log, .budget, .fw, .injected, .freeCtr, .outbox] ⊆ ps) : Goes ps s0 (applyFw c s) := by
  unfold applyFw
  repeat' (first
    | with_reducible assumption | exact reach w (Eq.refl _) | intro _ | with_reducible apply applyBudget_goes
    | with_reducible apply fwVerified_goes | with_reducible apply trimsEff_goes
    | with_reducible apply applyConfig_goes | with_reducible apply servoEff_goes | with_reducible apply fwloadEff_goes
    | with_reducible apply Goes.ite | split | dsimp only)

theorem applyLow_goes {ps : List Part} {s0 : State} (c : Cmd) (s : State) (h : Goes ps s0 s) (w : [.sys, .fns,
    .journal, .deferred, .time, .ports, .bpcfg, .skim, .hawk, .trowel, .publ, .eng, .pke, .rng, .keys, .sealer,
    .tamper, .pair, .span, .log, .budget, .fw, .injected, .freeCtr, .outbox] ⊆ ps) : Goes ps s0 (applyLow c s) := by
  unfold applyLow
  repeat' (first
    | with_reducible assumption | exact reach w (Eq.refl _) | intro _ | with_reducible apply bootstrapFailed_goes
    | with_reducible apply applyConfig_goes | with_reducible apply sysQcreateEff_goes
    | with_reducible apply sysQdeleteEff_goes | with_reducible apply sysTimecfgEff_goes
    | with_reducible apply sysTimestepEff_goes | with_reducible apply applyIndexed_goes
    | with_reducible apply sysPortcfgEff_goes | refine sysPortcfgEff_pair (by with_reducible assumption) ?_ ?_
    | with_reducible apply sysHostcfgEff_goes | with_reducible apply applyFnmap_goes
    | with_reducible apply streamMrateEff_goes | with_reducible apply streamCycrefEff_goes
    | with_reducible apply streamSubEff_goes | refine streamSubEff_pair (by with_reducible assumption) ?_ ?_
    | with_reducible apply streamUnsubEff_goes | with_reducible apply streamKeysEff_goes
    | with_reducible apply sheetHistoryEff_goes | with_reducible apply sheetGroupEff_goes
    | with_reducible apply sheetKeyEff_goes | with_reducible apply sheetRingEff_goes
    | with_reducible apply withDraw_goes | with_reducible apply sheetViewEff_goes
    | with_reducible apply loadVerified_goes | with_reducible apply trowelLoadEff_goes
    | with_reducible apply trowelBindEff_goes | with_reducible apply trowelStartEff_goes
    | with_reducible apply trowelStopEff_goes | with_reducible apply trowelUnloadEff_goes
    | with_reducible apply pubOpenEff_goes | with_reducible apply pubCloseEff_goes
    | with_reducible apply pubCurveEff_goes | with_reducible apply Goes.ite | exact Or.inr (reachOne w (Eq.refl _))
    | exact Or.inr ⟨reachOne w (Eq.refl _), rfl⟩ | exact Or.inr ⟨reachOne w (Eq.refl _), fun c => c⟩
    | exact Or.inr ⟨reachOne w (Eq.refl _), rfl, rfl, rfl, rfl, rfl⟩ | exact Or.inl rfl | simp only [Goes.mk_eq]
    | with_reducible apply GoesMk.upd | split | dsimp only)

theorem applyHigh_goes {ps : List Part} {s0 : State} (c : Cmd) (s : State) (h : Goes ps s0 s) (w : [.sys, .fns,
    .journal, .deferred, .time, .ports, .bpcfg, .skim, .hawk, .trowel, .publ, .eng, .pke, .rng, .keys, .sealer,
    .tamper, .pair, .span, .log, .budget, .fw, .injected, .freeCtr, .outbox] ⊆ ps) : Goes ps s0 (applyHigh c s) := by
  unfold applyHigh
  repeat' (first
    | with_reducible assumption | exact reach w (Eq.refl _) | intro _ | with_reducible apply applyConfig_goes
    | with_reducible apply rngPatternEff_goes | with_reducible apply withDraw_goes
    | with_reducible apply applyKeys_goes | with_reducible apply recTrigEff_goes
    | with_reducible apply recLockEff_goes | with_reducible apply volAttachEff_goes
    | with_reducible apply applyQuorum_goes | with_reducible apply volRekeyEff_goes
    | with_reducible apply pairCfgEff_goes | with_reducible apply applyRenumber_goes
    | with_reducible apply logPolicyEff_goes | with_reducible apply applyEnter_goes
    | with_reducible apply svcExitEff_goes | with_reducible apply svcOfficerEff_goes
    | with_reducible apply applyTamper_goes | with_reducible apply applyEnrol_goes
    | with_reducible apply svcReleaseEff_goes | with_reducible apply applyFw_goes
    | with_reducible apply spanCfgEff_goes | with_reducible apply spanRouteEff_goes | with_reducible apply Goes.ite
    | exact Or.inr (reachOne w (Eq.refl _)) | exact Or.inr ⟨reachOne w (Eq.refl _), rfl⟩
    | exact Or.inr ⟨reachOne w (Eq.refl _), fun c => c⟩
    | exact Or.inr ⟨reachOne w (Eq.refl _), rfl, rfl, rfl, rfl, rfl⟩ | exact Or.inl rfl | simp only [Goes.mk_eq]
    | with_reducible apply GoesMk.upd | split | dsimp only)

theorem applyOf_goes {ps : List Part} {s0 : State} (c : Cmd) (s : State) (h : Goes ps s0 s) (w : [.sys, .fns,
    .journal, .deferred, .time, .ports, .bpcfg, .skim, .hawk, .trowel, .publ, .eng, .pke, .rng, .keys, .sealer,
    .tamper, .pair, .span, .log, .budget, .fw, .injected, .freeCtr, .outbox] ⊆ ps) : Goes ps s0 (applyOf c s) := by
  unfold applyOf
  repeat' (first
    | with_reducible assumption | exact reach w (Eq.refl _) | with_reducible apply applyLow_goes
    | with_reducible apply applyHigh_goes | with_reducible apply Goes.ite | split | dsimp only)

theorem takeDeferred_goes {ps : List Part} {s0 : State} (s : State) (h : Goes ps s0 s) (w : [.sys, .fns, .journal,
    .deferred, .time, .ports, .bpcfg, .skim, .hawk, .trowel, .publ, .eng, .pke, .rng, .keys, .sealer, .tamper, .pair,
    .span, .log, .budget, .fw, .injected, .freeCtr, .outbox] ⊆ ps) : Goes ps s0 (takeDeferred s) := by
  unfold takeDeferred
  repeat' (first
    | with_reducible assumption | exact reach w (Eq.refl _) | with_reducible apply applyOf_goes
    | with_reducible apply Goes.ite | exact Or.inr (reachOne w (Eq.refl _))
    | exact Or.inr ⟨reachOne w (Eq.refl _), rfl⟩ | exact Or.inr ⟨reachOne w (Eq.refl _), fun c => c⟩
    | exact Or.inr ⟨reachOne w (Eq.refl _), rfl, rfl, rfl, rfl, rfl⟩ | exact Or.inl rfl | simp only [Goes.mk_eq]
    | with_reducible apply GoesMk.upd | split | dsimp only)

theorem discardChain_goes {ps : List Part} {s0 : State} (c : Cmd) (s : State) (h : Goes ps s0 s) (w : [.skim, .sealer,
    .log, .outbox] ⊆ ps) : Goes ps s0 (discardChain c s) := by
  unfold discardChain
  repeat' (first
    | with_reducible assumption | exact reach w (Eq.refl _) | with_reducible apply updSes_goes
    | with_reducible apply Goes.ite | exact Or.inr (reachOne w (Eq.refl _)) | exact Or.inl rfl
    | simp only [Goes.mk_eq] | with_reducible apply GoesMk.upd | split | dsimp only)

theorem zeroWrote_goes {ps : List Part} {s0 : State} (j : JEntry) (s : State) (h : Goes ps s0 s) (w : [.log, .budget,
    .outbox] ⊆ ps) : Goes ps s0 (zeroWrote j s) := by
  unfold zeroWrote
  repeat' (first
    | with_reducible assumption | exact reach w (Eq.refl _) | with_reducible apply emits_goes
    | with_reducible apply hostMove_goes | with_reducible apply Goes.ite | exact Or.inr (reachOne w (Eq.refl _))
    | exact Or.inl rfl | simp only [Goes.mk_eq] | with_reducible apply GoesMk.upd | split | dsimp only)

theorem execSafePointStop_goes {ps : List Part} {s0 : State} (tok : Nat) (s : State) (h : Goes ps s0 s) (w : [.sys,
    .fns, .journal, .deferred, .skim, .hawk, .trowel, .eng, .pke, .rng, .sealer, .span, .log, .budget, .freeCtr,
    .outbox] ⊆ ps) : GoesTo ps s0 (execSafePointStop tok s) := by
  unfold execSafePointStop
  repeat' (first
    | with_reducible assumption | exact reach w (Eq.refl _) | apply GoesTo.next
    | with_reducible apply afterOutcome_goes | with_reducible apply cancel_goes | with_reducible apply settle_goes
    | with_reducible apply discardChain_goes | with_reducible apply zeroWrote_goes | with_reducible apply stopPke_goes
    | with_reducible apply Goes.ite | exact Or.inr (reachOne w (Eq.refl _))
    | exact Or.inr ⟨reachOne w (Eq.refl _), rfl⟩ | exact Or.inr ⟨reachOne w (Eq.refl _), fun c => c⟩
    | exact Or.inr ⟨reachOne w (Eq.refl _), rfl, rfl, rfl, rfl, rfl⟩ | exact Or.inl rfl | simp only [Goes.mk_eq]
    | with_reducible apply GoesMk.upd | split | dsimp only)

theorem execEngineWorkDone_goes {ps : List Part} {s0 : State} (tok : Nat) (s : State) (h : Goes ps s0 s) (w : [.sys,
    .fns, .journal, .skim, .hawk, .eng, .rng, .span, .log, .freeCtr, .outbox] ⊆ ps) : GoesTo ps s0 (execEngineWorkDone
    tok s) := by
  unfold execEngineWorkDone
  repeat' (first
    | with_reducible assumption | exact reach w (Eq.refl _) | apply GoesTo.next
    | with_reducible apply afterOutcome_goes | with_reducible apply settle_goes | with_reducible apply Goes.ite
    | exact Or.inr (reachOne w (Eq.refl _)) | exact Or.inr ⟨reachOne w (Eq.refl _), rfl⟩
    | exact Or.inr ⟨reachOne w (Eq.refl _), rfl, rfl, rfl, rfl, rfl⟩ | exact Or.inl rfl | simp only [Goes.mk_eq]
    | with_reducible apply GoesMk.upd | split | dsimp only)

theorem postEntry_goes {ps : List Part} {s0 : State} (f q : Nat) (tag : W32) (status tok epoch : Nat) (result : W32)
    (dev : Nat) (noirq : Bool) (s : State) (h : Goes ps s0 s) (w : [.sys, .fns, .log, .budget, .outbox] ⊆ ps) : Goes
    ps s0 (postEntry f q tag status tok epoch result dev noirq s) := by
  unfold postEntry
  repeat' (first
    | with_reducible assumption | exact reach w (Eq.refl _) | with_reducible apply updQueue_goes
    | with_reducible apply emits_goes | with_reducible apply pinnedLookup_goes | with_reducible apply workFor_goes
    | with_reducible apply hostMove_goes | with_reducible apply emit_goes | with_reducible apply Goes.ite
    | exact Or.inr (reachOne w (Eq.refl _)) | exact Or.inr ⟨reachOne w (Eq.refl _), rfl⟩
    | exact Or.inr ⟨reachOne w (Eq.refl _), rfl, rfl, rfl, rfl, rfl⟩ | exact Or.inl rfl | simp only [Goes.mk_eq]
    | with_reducible apply GoesMk.upd | split | dsimp only)

theorem skipFront_goes {ps : List Part} {s0 : State} (f q : Nat) (s : State) (h : Goes ps s0 s) (w : [.fns] ⊆ ps) :
    Goes ps s0 (skipFront f q s) := by
  unfold skipFront
  repeat' (first
    | with_reducible assumption | exact reach w (Eq.refl _) | with_reducible apply updQueue_goes
    | exact Or.inr (reachOne w (Eq.refl _)) | exact Or.inl rfl | simp only [Goes.mk_eq]
    | with_reducible apply GoesMk.upd | dsimp only)

theorem postOutcome_goes {ps : List Part} {s0 : State} (f q tok : Nat) (j : JEntry) (o : Outcome) (s : State) (h :
    Goes ps s0 s) (w : [.sys, .fns, .journal, .log, .budget, .outbox] ⊆ ps) : Goes ps s0 (postOutcome f q tok j o s)
    := by
  unfold postOutcome
  repeat' (first
    | with_reducible assumption | exact reach w (Eq.refl _) | with_reducible apply emits_goes
    | with_reducible apply hostMove_goes | with_reducible apply postEntry_goes | with_reducible apply updJ_goes
    | with_reducible apply Goes.ite | exact Or.inr (reachOne w (Eq.refl _))
    | exact Or.inr ⟨reachOne w (Eq.refl _), rfl⟩ | exact Or.inr ⟨reachOne w (Eq.refl _), rfl, rfl, rfl, rfl, rfl⟩
    | exact Or.inl rfl | simp only [Goes.mk_eq] | with_reducible apply GoesMk.upd | split | dsimp only)

theorem writeFront_goes {ps : List Part} {s0 : State} (f q : Nat) (s : State) (h : Goes ps s0 s) (w : [.sys, .fns,
    .journal, .deferred, .time, .ports, .bpcfg, .skim, .hawk, .trowel, .publ, .eng, .pke, .rng, .keys, .sealer,
    .tamper, .pair, .span, .log, .budget, .fw, .injected, .freeCtr, .outbox] ⊆ ps) : Goes ps s0 (writeFront f q s) :=
    by
  unfold writeFront
  repeat' (first
    | with_reducible assumption | exact reach w (Eq.refl _) | with_reducible apply postEntry_goes
    | with_reducible apply skipFront_goes | with_reducible apply admitted_goes | with_reducible apply ledgerTok_goes
    | with_reducible apply postOutcome_goes | with_reducible apply resetDevice_goes | with_reducible apply Goes.ite
    | exact Or.inr (reachOne w (Eq.refl _)) | exact Or.inr ⟨reachOne w (Eq.refl _), rfl⟩
    | exact Or.inr ⟨reachOne w (Eq.refl _), fun c => c⟩
    | exact Or.inr ⟨reachOne w (Eq.refl _), rfl, rfl, rfl, rfl, rfl⟩ | exact Or.inl rfl | simp only [Goes.mk_eq]
    | with_reducible apply GoesMk.upd | split | dsimp only)

theorem execCompletionWrite_goes {ps : List Part} {s0 : State} (f q : Nat) (s : State) (h : Goes ps s0 s) (w : [.sys,
    .fns, .journal, .deferred, .time, .ports, .bpcfg, .skim, .hawk, .trowel, .publ, .eng, .pke, .rng, .keys, .sealer,
    .tamper, .pair, .span, .log, .budget, .fw, .injected, .freeCtr, .outbox] ⊆ ps) : GoesTo ps s0 (execCompletionWrite
    f q s) := by
  unfold execCompletionWrite
  repeat' (first
    | with_reducible assumption | exact reach w (Eq.refl _) | apply GoesTo.next | with_reducible apply writeFront_goes
    | dsimp only)

theorem writeFronts_goes {ps : List Part} {s0 : State} (f q n : Nat) (s : State) (h : Goes ps s0 s) (w : [.sys, .fns, .journal, .deferred, .time, .ports, .bpcfg, .skim, .hawk, .trowel, .publ, .eng, .pke, .rng, .keys, .sealer, .tamper, .pair, .span, .log, .budget, .fw, .injected, .freeCtr, .outbox] ⊆ ps) :
    Goes ps s0 (writeFronts f q n s) := by
  induction n generalizing s with
  | zero => exact h
  | succ n ih => exact ih _ (writeFront_goes f q s h w)

theorem execBusMasterEnableChange_goes {ps : List Part} {s0 : State} (f : Nat) (on : Bool) (s : State) (h : Goes ps s0
    s) (w : [.sys, .fns, .journal, .deferred, .time, .ports, .bpcfg, .skim, .hawk, .trowel, .publ, .eng, .pke, .rng,
    .keys, .sealer, .tamper, .pair, .span, .log, .budget, .fw, .injected, .freeCtr, .outbox] ⊆ ps) : GoesTo ps s0
    (execBusMasterEnableChange f on s) := by
  unfold execBusMasterEnableChange
  repeat' (first
    | with_reducible assumption | exact reach w (Eq.refl _) | intro _ | apply GoesTo.next
    | with_reducible apply emit_goes | with_reducible apply updFn_goes | with_reducible apply writeFronts_goes
    | with_reducible apply Goes.foldl | with_reducible apply Goes.foldl1 | with_reducible apply Goes.foldl2
    | with_reducible apply Goes.ite | exact Or.inr (reachOne w (Eq.refl _))
    | exact Or.inr ⟨reachOne w (Eq.refl _), rfl⟩ | exact Or.inr ⟨reachOne w (Eq.refl _), fun c => c⟩
    | exact Or.inr ⟨reachOne w (Eq.refl _), rfl, rfl, rfl, rfl, rfl⟩ | exact Or.inl rfl | simp only [Goes.mk_eq]
    | with_reducible apply GoesMk.upd | split | dsimp only)

theorem mirrorRing_goes {ps : List Part} {s0 : State} (c : Cmd) (epoch : Nat) (s : State) (h : Goes ps s0 s) (w :
    [.fns] ⊆ ps) : Goes ps s0 (mirrorRing c epoch s) := by
  unfold mirrorRing
  repeat' (first
    | with_reducible assumption | exact reach w (Eq.refl _) | with_reducible apply updRing_goes
    | with_reducible apply Goes.ite | exact Or.inr (reachOne w (Eq.refl _)) | exact Or.inl rfl
    | simp only [Goes.mk_eq] | with_reducible apply GoesMk.upd | split | dsimp only)

theorem mirrorLow_goes {ps : List Part} {s0 : State} (c : Cmd) (epoch : Nat) (s : State) (h : Goes ps s0 s) (w :
    [.sys, .fns, .journal, .time, .ports, .bpcfg, .skim, .hawk, .trowel, .publ, .sealer, .span, .log, .fw, .freeCtr,
    .outbox] ⊆ ps) : Goes ps s0 (mirrorLow c epoch s) := by
  unfold mirrorLow
  repeat' (first
    | with_reducible assumption | exact reach w (Eq.refl _) | with_reducible apply sysTimecfgEff_goes
    | with_reducible apply sysTimestepEff_goes | with_reducible apply sysPortcfgEff_goes
    | refine sysPortcfgEff_pair (by with_reducible assumption) ?_ ?_ | with_reducible apply sysHostcfgEff_goes
    | with_reducible apply sysFnmapEff_goes | with_reducible apply streamMrateEff_goes
    | with_reducible apply streamCycrefEff_goes | with_reducible apply streamSubEff_goes
    | refine streamSubEff_pair (by with_reducible assumption) ?_ ?_ | with_reducible apply streamUnsubEff_goes
    | with_reducible apply streamKeysEff_goes | with_reducible apply sheetHistoryEff_goes
    | with_reducible apply sheetGroupEff_goes | with_reducible apply sheetKeyEff_goes
    | with_reducible apply mirrorRing_goes | with_reducible apply sheetViewEff_goes
    | with_reducible apply trowelLoadEff_goes | with_reducible apply trowelBindEff_goes
    | with_reducible apply trowelStartEff_goes | with_reducible apply trowelStopEff_goes
    | with_reducible apply trowelUnloadEff_goes | with_reducible apply pubOpenEff_goes
    | with_reducible apply pubCloseEff_goes | with_reducible apply pubCurveEff_goes
    | exact Or.inr (reachOne w (Eq.refl _)) | exact Or.inr ⟨reachOne w (Eq.refl _), rfl⟩
    | exact Or.inr ⟨reachOne w (Eq.refl _), fun c => c⟩
    | exact Or.inr ⟨reachOne w (Eq.refl _), rfl, rfl, rfl, rfl, rfl⟩ | exact Or.inl rfl | simp only [Goes.mk_eq]
    | with_reducible apply GoesMk.upd | split | dsimp only)

theorem mirrorHigh_goes {ps : List Part} {s0 : State} (c : Cmd) (s : State) (h : Goes ps s0 s) (w : [.sys, .fns,
    .skim, .hawk, .eng, .rng, .keys, .sealer, .pair, .span, .log, .budget, .freeCtr, .outbox] ⊆ ps) : Goes ps s0
    (mirrorHigh c s) := by
  unfold mirrorHigh
  repeat' (first
    | with_reducible assumption | exact reach w (Eq.refl _) | with_reducible apply rngPatternEff_goes
    | with_reducible apply emit_goes | with_reducible apply refuse_goes | with_reducible apply keyApplyEff_goes
    | with_reducible apply recTrigEff_goes | with_reducible apply recLockEff_goes | with_reducible apply updPair_goes
    | with_reducible apply logPolicyEff_goes | exact Or.inr (reachOne w (Eq.refl _))
    | exact Or.inr ⟨reachOne w (Eq.refl _), rfl⟩ | exact Or.inr ⟨reachOne w (Eq.refl _), rfl, rfl, rfl, rfl, rfl⟩
    | exact Or.inl rfl | simp only [Goes.mk_eq] | with_reducible apply GoesMk.upd | split | dsimp only)

theorem seenEpoch_goes {ps : List Part} {s0 : State} (e : Nat) (s : State) (h : Goes ps s0 s) (w : [.sys] ⊆ ps) :
    Goes ps s0 (seenEpoch e s) :=
  h.move (fun ⟨l1, l2, l3, l4, l5⟩ =>
    ⟨⟨l1, l2, Nat.max_le.2 ⟨Nat.le_trans l3 (blockTop_le e _).2, (blockTop_le e _).1⟩, l4, l5⟩, Nat.le_max_left _ _,
      Nat.le_refl _, Nat.le_refl _, Nat.le_refl _, Eq.refl _⟩) (sysOnly w rfl)

theorem mirrorConfig_goes {ps : List Part} {s0 : State} (c : Cmd) (epoch : Nat) (s : State) (h : Goes ps s0 s)
    (w : [.sys, .fns, .journal, .time, .ports, .bpcfg, .skim, .hawk, .trowel, .publ, .eng, .rng, .keys, .sealer, .pair, .span, .log, .budget, .fw, .freeCtr, .outbox] ⊆ ps) : Goes ps s0 (mirrorConfig c epoch s) := by
  unfold mirrorConfig
  refine seenEpoch_goes _ _ ?_ (reach w rfl)
  split
  · exact h
  · split
    · exact mirrorLow_goes _ _ _ h (reach w rfl)
    · exact mirrorHigh_goes _ _ h (reach w rfl)

theorem mirrorTurn_goes {ps : List Part} {s0 : State} (c : Cmd) (epoch : Nat) (s : State) (h : Goes ps s0 s) (w :
    [.sys, .fns, .journal, .time, .ports, .bpcfg, .skim, .hawk, .trowel, .publ, .eng, .rng, .keys, .sealer, .pair,
    .span, .log, .budget, .fw, .freeCtr, .outbox] ⊆ ps) : Goes ps s0 (mirrorTurn c epoch s) := by
  unfold mirrorTurn
  repeat' (first
    | with_reducible assumption | exact reach w (Eq.refl _) | with_reducible apply updPair_goes
    | with_reducible apply mirrorConfig_goes | with_reducible apply Goes.ite | exact Or.inr (reachOne w (Eq.refl _))
    | exact Or.inr ⟨reachOne w (Eq.refl _), rfl⟩ | exact Or.inr ⟨reachOne w (Eq.refl _), fun c => c⟩
    | exact Or.inr ⟨reachOne w (Eq.refl _), rfl, rfl, rfl, rfl, rfl⟩ | exact Or.inl rfl | simp only [Goes.mk_eq]
    | with_reducible apply GoesMk.upd | split | dsimp only)

theorem takeMirrored_goes {ps : List Part} {s0 : State} (s : State) (h : Goes ps s0 s) (w : [.sys, .fns, .journal,
    .time, .ports, .bpcfg, .skim, .hawk, .trowel, .publ, .eng, .rng, .keys, .sealer, .pair, .span, .log, .budget, .fw,
    .freeCtr, .outbox] ⊆ ps) : Goes ps s0 (takeMirrored s) := by
  unfold takeMirrored
  repeat' (first
    | with_reducible assumption | exact reach w (Eq.refl _) | with_reducible apply mirrorConfig_goes
    | with_reducible apply updPair_goes | with_reducible apply Goes.ite | exact Or.inr (reachOne w (Eq.refl _))
    | exact Or.inr ⟨reachOne w (Eq.refl _), rfl⟩ | exact Or.inr ⟨reachOne w (Eq.refl _), fun c => c⟩
    | exact Or.inr ⟨reachOne w (Eq.refl _), rfl, rfl, rfl, rfl, rfl⟩ | exact Or.inl rfl | simp only [Goes.mk_eq]
    | with_reducible apply GoesMk.upd | split | dsimp only)

theorem execConfigTakeEffect_goes {ps : List Part} {s0 : State} (s : State) (h : Goes ps s0 s) (w : [.sys, .fns,
    .journal, .deferred, .time, .ports, .bpcfg, .skim, .hawk, .trowel, .publ, .eng, .pke, .rng, .keys, .sealer,
    .tamper, .pair, .span, .log, .budget, .fw, .injected, .freeCtr, .outbox] ⊆ ps) : GoesTo ps s0
    (execConfigTakeEffect s) := by
  unfold execConfigTakeEffect
  repeat' (first
    | with_reducible assumption | exact reach w (Eq.refl _) | apply GoesTo.next
    | with_reducible apply takeDeferred_goes | with_reducible apply takeMirrored_goes | with_reducible apply Goes.ite
    | split | dsimp only)

theorem seenToken_goes {ps : List Part} {s0 : State} (t : Nat) (s : State) (h : Goes ps s0 s) (w : [.sys] ⊆ ps) :
    Goes ps s0 (seenToken t s) :=
  h.move (fun ⟨l1, l2, l3, l4, l5⟩ =>
    ⟨⟨l1, l2, l3, Nat.max_le.2 ⟨Nat.le_trans l4 (blockTop_le t _).2, (blockTop_le t _).1⟩, l5⟩, Nat.le_refl _,
      Nat.le_max_left _ _, Nat.le_refl _, Nat.le_refl _, Eq.refl _⟩) (sysOnly w rfl)

theorem mirrorPub_goes {ps : List Part} {s0 : State} (k stNum : Nat) (t : List Byte) (arg : W32) (host : List Byte)
    (raise : Option (Nat × Nat × Nat)) (s : State) (h : Goes ps s0 s) (w : [.skim, .publ] ⊆ ps) : Goes ps s0
    (mirrorPub k stNum t arg host raise s) := by
  unfold mirrorPub
  repeat' (first
    | with_reducible assumption | exact reach w (Eq.refl _) | with_reducible apply updPub_goes
    | with_reducible apply Goes.ite | exact Or.inr (reachOne w (Eq.refl _)) | exact Or.inl rfl
    | simp only [Goes.mk_eq] | with_reducible apply GoesMk.upd | split | dsimp only)

theorem grant_goes {ps : List Part} {s0 : State} (c : Cmd) (s : State) (h : Goes ps s0 s) (w : [.sys, .fns, .journal,
    .trowel, .keys, .pair, .span, .outbox] ⊆ ps) : Goes ps s0 (grant c s) := by
  unfold grant
  repeat' (first
    | with_reducible assumption | exact reach w (Eq.refl _) | with_reducible apply seenToken_goes
    | with_reducible apply updPair_goes | with_reducible apply admitted_goes | with_reducible apply queueUp_goes
    | with_reducible apply Goes.ite | exact Or.inr (reachOne w (Eq.refl _))
    | exact Or.inr ⟨reachOne w (Eq.refl _), rfl⟩ | exact Or.inr ⟨reachOne w (Eq.refl _), fun c => c⟩
    | exact Or.inr ⟨reachOne w (Eq.refl _), rfl, rfl, rfl, rfl, rfl⟩ | exact Or.inl rfl | simp only [Goes.mk_eq]
    | with_reducible apply GoesMk.upd | split | dsimp only)

theorem deny_goes {ps : List Part} {s0 : State} (c : Cmd) (st : Nat) (s : State) (h : Goes ps s0 s) (w : [.fns, .pair,
    .log] ⊆ ps) : Goes ps s0 (deny c st s) := by
  unfold deny
  repeat' (first
    | with_reducible assumption | exact reach w (Eq.refl _) | with_reducible apply refuse_goes
    | with_reducible apply updPair_goes | with_reducible apply Goes.ite | exact Or.inr (reachOne w (Eq.refl _))
    | exact Or.inl rfl | simp only [Goes.mk_eq] | with_reducible apply GoesMk.upd | split | dsimp only)

theorem applyItemOf_goes {ps : List Part} {s0 : State} (m : MirrorItem) (s : State) (h : Goes ps s0 s) (w : [.sys,
    .fns, .journal, .time, .ports, .bpcfg, .skim, .hawk, .trowel, .publ, .eng, .rng, .keys, .sealer, .pair, .span,
    .log, .budget, .fw, .freeCtr, .outbox] ⊆ ps) : Goes ps s0 (applyItemOf m s) := by
  unfold applyItemOf
  repeat' (first
    | with_reducible assumption | exact fun _ h => ⟨memWf_wrote _ _, h.2⟩ | with_reducible exact fun _ h => h
    | with_reducible exact id_canon | with_reducible exact fun _ h => canonProg_of h rfl rfl rfl
    | exact reach w (Eq.refl _) | with_reducible apply mirrorTurn_goes | with_reducible apply emit_goes
    | with_reducible apply seenToken_goes | with_reducible apply updPair_goes | with_reducible apply updCtx_goes
    | with_reducible apply mirrorPub_goes | with_reducible apply pubDelta_goes | with_reducible apply updPub_goes
    | with_reducible apply updRing_goes | with_reducible apply updProg_goes | with_reducible apply seenEpoch_goes
    | with_reducible apply grant_goes | with_reducible apply deny_goes | with_reducible apply Goes.ite
    | exact Or.inr (reachOne w (Eq.refl _)) | exact Or.inr ⟨reachOne w (Eq.refl _), rfl⟩
    | exact Or.inr ⟨reachOne w (Eq.refl _), fun c => c⟩
    | exact Or.inr ⟨reachOne w (Eq.refl _), rfl, rfl, rfl, rfl, rfl⟩ | exact Or.inl rfl | simp only [Goes.mk_eq]
    | with_reducible apply GoesMk.upd | split | dsimp only)

theorem execMirrorEntry_goes {ps : List Part} {s0 : State} (m : MirrorItem) (s : State) (h : Goes ps s0 s) (w : [.sys,
    .fns, .journal, .time, .ports, .bpcfg, .skim, .hawk, .trowel, .publ, .eng, .rng, .keys, .sealer, .pair, .span,
    .log, .budget, .fw, .freeCtr, .outbox] ⊆ ps) : GoesTo ps s0 (execMirrorEntry m s) := by
  unfold execMirrorEntry
  repeat' (first
    | with_reducible assumption | exact reach w (Eq.refl _) | apply GoesTo.next
    | with_reducible apply applyItemOf_goes | with_reducible apply Goes.ite | split | dsimp only)

theorem portCount_goes {ps : List Part} {s0 : State} (port i n : Nat) (bitNo : Option Nat) (s : State) (h : Goes ps s0
    s) (w : [.ports, .log] ⊆ ps) : Goes ps s0 (portCount port i n bitNo s) := by
  unfold portCount
  repeat' (first
    | with_reducible assumption | exact reach w (Eq.refl _) | with_reducible apply portEvent_goes
    | with_reducible apply cntPort_goes | with_reducible apply Goes.ite | exact Or.inr (reachOne w (Eq.refl _))
    | exact Or.inl rfl | simp only [Goes.mk_eq] | with_reducible apply GoesMk.upd | split | dsimp only)

theorem macsecRx_goes {ps : List Part} {s0 t : State} {port : Nat} {f : RxFrame} {s : State} (e : macsecRx port f s = some t)
    (h : Goes ps s0 s) (w : [.skim] ⊆ ps) : Goes ps s0 t := by
  unfold macsecRx at e
  dsimp only at e
  repeat' split at e
  all_goals cases e
  exact updCtx_goes _ _ _ h w

theorem hsrForward_goes {ps : List Part} {s0 : State} (port q : Nat) (f : RxFrame) (s : State) (h : Goes ps s0 s) (w :
    [.ports] ⊆ ps) : Goes ps s0 (hsrForward port q f s) := by
  unfold hsrForward
  repeat' (first
    | with_reducible assumption | exact reach w (Eq.refl _) | with_reducible apply updPort_goes
    | with_reducible apply cntPort_goes | with_reducible apply enqueue_goes | with_reducible apply Goes.ite
    | exact Or.inr (reachOne w (Eq.refl _)) | exact Or.inl rfl | simp only [Goes.mk_eq]
    | with_reducible apply GoesMk.upd | split | dsimp only)

theorem hsrDecide_goes {ps : List Part} {s0 : State} (port : Nat) (f : RxFrame) (s : State) (h : Goes ps s0 s) (w :
    [.ports] ⊆ ps) : Goes ps s0 (hsrDecide port f s).1 := by
  unfold hsrDecide
  repeat' (first
    | with_reducible assumption | exact reach w (Eq.refl _) | with_reducible apply cntPort_goes
    | with_reducible apply hsrForward_goes | with_reducible apply Goes.ite | exact Or.inr (reachOne w (Eq.refl _))
    | exact Or.inl rfl | simp only [Goes.mk_eq] | with_reducible apply GoesMk.upd | split | dsimp only)

theorem hsrDecide_pair {ps : List Part} {s0 s1 : State} {port : Nat} {f : RxFrame} {s : State} {z} (e : hsrDecide port
    f s = (s1, z)) (h : Goes ps s0 s) (w : [.ports] ⊆ ps) : Goes ps s0 s1 := by
  have g := hsrDecide_goes (s0 := s0) port f s h w
  rw [e] at g; exact g

theorem badFcs_goes {ps : List Part} {s0 : State} (port : Nat) (f : RxFrame) (s : State) (h : Goes ps s0 s) (w :
    [.ports] ⊆ ps) : Goes ps s0 (badFcs port f s) := by
  unfold badFcs
  repeat' (first
    | with_reducible assumption | exact reach w (Eq.refl _) | with_reducible apply cntPort_goes
    | with_reducible apply hsrForward_goes | with_reducible apply Goes.ite | exact Or.inr (reachOne w (Eq.refl _))
    | exact Or.inl rfl | simp only [Goes.mk_eq] | with_reducible apply GoesMk.upd | split | dsimp only)

theorem checkRct_goes {ps : List Part} {s0 : State} (port : Nat) (f : RxFrame) (s : State) (h : Goes ps s0 s) (w :
    [.ports, .log] ⊆ ps) : Goes ps s0 (checkRct port f s) := by
  unfold checkRct
  repeat' (first
    | with_reducible assumption | exact reach w (Eq.refl _) | with_reducible apply cntPort_goes
    | with_reducible apply portEvent_goes | with_reducible apply Goes.ite | exact Or.inr (reachOne w (Eq.refl _))
    | exact Or.inl rfl | simp only [Goes.mk_eq] | with_reducible apply GoesMk.upd | split | dsimp only)

theorem answerArp_goes {ps : List Part} {s0 : State} (b asker : Nat) (target sender : List Byte) (s : State) (h : Goes
    ps s0 s) (w : [.ports, .bpcfg] ⊆ ps) : Goes ps s0 (answerArp b asker target sender s) := by
  unfold answerArp
  repeat' (first
    | with_reducible assumption | exact reach w (Eq.refl _) | with_reducible apply sendBoth_goes
    | with_reducible apply Goes.ite | split | dsimp only)

theorem wholeRead_goes {ps : List Part} {s0 : State} (h_ : HeldFrame) (s : State) (h : Goes ps s0 s) (w : [.skim,
    .log] ⊆ ps) : Goes ps s0 (wholeRead h_ s).1 := by
  unfold wholeRead
  repeat' (first
    | with_reducible assumption | exact reach w (Eq.refl _) | with_reducible apply readWords_goes
    | refine readWords_pair (by with_reducible assumption) ?_ ?_ | with_reducible apply Goes.ite | split | dsimp only)

theorem wholeRead_pair {ps : List Part} {s0 s1 : State} {h_ : HeldFrame} {s : State} {z} (e : wholeRead h_ s = (s1,
    z)) (h : Goes ps s0 s) (w : [.skim, .log] ⊆ ps) : Goes ps s0 s1 := by
  have g := wholeRead_goes (s0 := s0) h_ s h w
  rw [e] at g; exact g

theorem afterDup_goes {ps : List Part} {s0 : State} (h_ : HeldFrame) (tracked : Bool) (s : State) (h : Goes ps s0 s)
    (w : [.sys, .fns, .journal, .deferred, .time, .ports, .bpcfg, .skim, .hawk, .trowel, .publ, .eng, .pke, .sealer,
    .pair, .span, .log, .budget, .outbox] ⊆ ps) : Goes ps s0 (afterDup h_ tracked s) := by
  unfold afterDup
  repeat' (first
    | with_reducible assumption | exact reach w (Eq.refl _) | with_reducible apply wholeRead_goes
    | refine wholeRead_pair (by with_reducible assumption) ?_ ?_ | with_reducible apply closeDup_goes
    | with_reducible apply busHeartbeat_goes | with_reducible apply answerArp_goes
    | with_reducible apply skimFrom4_goes | exact Or.inr (reachOne w (Eq.refl _))
    | exact Or.inr ⟨reachOne w (Eq.refl _), rfl⟩ | exact Or.inr ⟨reachOne w (Eq.refl _), fun c => c⟩
    | exact Or.inr ⟨reachOne w (Eq.refl _), rfl, rfl, rfl, rfl, rfl⟩ | exact Or.inl rfl | simp only [Goes.mk_eq]
    | with_reducible apply GoesMk.upd | split | dsimp only)

theorem skimStep3_goes {ps : List Part} {s0 : State} (h_ : HeldFrame) (s : State) (h : Goes ps s0 s) (w : [.sys, .fns,
    .journal, .deferred, .time, .ports, .bpcfg, .skim, .hawk, .trowel, .publ, .eng, .pke, .sealer, .pair, .span, .log,
    .budget, .outbox] ⊆ ps) : Goes ps s0 (skimStep3 h_ s) := by
  unfold skimStep3
  repeat' (first
    | with_reducible assumption | exact reach w (Eq.refl _) | with_reducible apply bufFree_goes
    | with_reducible apply afterDup_goes | with_reducible apply readWords_goes
    | refine readWords_pair (by with_reducible assumption) ?_ ?_ | with_reducible apply dupCheck_goes
    | refine dupCheck_pair (by with_reducible assumption) ?_ ?_ | with_reducible apply dropDup_goes
    | exact Or.inr (reachOne w (Eq.refl _)) | exact Or.inr ⟨reachOne w (Eq.refl _), rfl⟩
    | exact Or.inr ⟨reachOne w (Eq.refl _), fun c => c⟩
    | exact Or.inr ⟨reachOne w (Eq.refl _), rfl, rfl, rfl, rfl, rfl⟩ | exact Or.inl rfl | simp only [Goes.mk_eq]
    | with_reducible apply GoesMk.upd | split | dsimp only)

theorem noRoom_goes {ps : List Part} {s0 : State} (b : Nat) (f : RxFrame) (s : State) (h : Goes ps s0 s) (w : [.skim,
    .hawk, .log] ⊆ ps) : Goes ps s0 (noRoom b f s) := by
  unfold noRoom
  repeat' (first
    | with_reducible assumption | exact reach w (Eq.refl _) | with_reducible apply dropOvl5_goes
    | with_reducible apply cntSkim_goes | exact Or.inr (reachOne w (Eq.refl _)) | exact Or.inl rfl
    | simp only [Goes.mk_eq] | with_reducible apply GoesMk.upd | split | dsimp only)

theorem skimReceive_goes {ps : List Part} {s0 : State} (port : Nat) (f : RxFrame) (s : State) (h : Goes ps s0 s) (w :
    [.sys, .fns, .journal, .deferred, .time, .ports, .bpcfg, .skim, .hawk, .trowel, .publ, .eng, .pke, .sealer, .pair,
    .span, .log, .budget, .freeCtr, .outbox] ⊆ ps) : Goes ps s0 (skimReceive port f s) := by
  unfold skimReceive
  repeat' (first
    | with_reducible assumption | exact reach w (Eq.refl _) | with_reducible apply cntSkim_goes
    | with_reducible apply noRoom_goes | with_reducible apply heldFrame_goes
    | refine heldFrame_pair (by with_reducible assumption) ?_ ?_ | with_reducible apply bufTake_goes
    | with_reducible apply readWords_goes | refine readWords_pair (by with_reducible assumption) ?_ ?_
    | with_reducible apply bufFree_goes | with_reducible apply answerPdelay_goes
    | with_reducible apply ptpReceive_goes | with_reducible apply skimStep3_goes | with_reducible apply Goes.ite
    | exact Or.inr (reachOne w (Eq.refl _)) | exact Or.inr ⟨reachOne w (Eq.refl _), rfl⟩
    | exact Or.inr ⟨reachOne w (Eq.refl _), fun c => c⟩
    | exact Or.inr ⟨reachOne w (Eq.refl _), rfl, rfl, rfl, rfl, rfl⟩ | exact Or.inl rfl | simp only [Goes.mk_eq]
    | with_reducible apply GoesMk.upd | split | dsimp only)

theorem rxFrom5_goes {ps : List Part} {s0 : State} (port : Nat) (f : RxFrame) (s : State) (h : Goes ps s0 s) (w : [.sys, .fns, .journal, .deferred, .time, .ports, .bpcfg, .skim, .hawk, .trowel, .publ, .eng, .pke, .sealer, .pair, .span, .log, .budget, .freeCtr, .outbox] ⊆ ps) :
    Goes ps s0 (rxFrom5 port f s) := by
  unfold rxFrom5
  have go : ∀ (f : RxFrame) (s : State), Goes ps s0 s → Goes ps s0 (match hsrDecide port f s with
      | (s, false) => s
      | (s, true) => skimReceive port f (checkRct port f s)) := by
    intro f s h
    have k := hsrDecide_goes port f s h (reach w rfl)
    split
    · rename_i e; rw [e] at k; exact k
    · rename_i e; rw [e] at k; exact skimReceive_goes _ _ _ (checkRct_goes _ _ _ k (reach w rfl)) (reach w rfl)
  dsimp only
  split
  · split
    · exact go _ _ (macsecRx_goes (by with_reducible assumption) h (reach w rfl))
    · exact portEvent_goes _ _ _ (cntPort_goes _ _ _ _ h (reach w rfl)) (reach w rfl)
  · exact go _ _ h

theorem execFrameReceive_goes {ps : List Part} {s0 : State} (port : Nat) (f : RxFrame) (s : State) (h : Goes ps s0 s)
    (w : [.sys, .fns, .journal, .deferred, .time, .ports, .bpcfg, .skim, .hawk, .trowel, .publ, .eng, .pke, .sealer,
    .pair, .span, .log, .budget, .freeCtr, .outbox] ⊆ ps) : GoesTo ps s0 (execFrameReceive port f s) := by
  unfold execFrameReceive
  repeat' (first
    | with_reducible assumption | exact reach w (Eq.refl _) | apply GoesTo.next | with_reducible apply cntPort_goes
    | with_reducible apply portCount_goes | with_reducible apply badFcs_goes | with_reducible apply rxFrom5_goes
    | with_reducible apply Goes.ite | split | dsimp only)

theorem execDupWaitRelease_goes {ps : List Part} {s0 : State} (b src seq : Nat) (s : State) (h : Goes ps s0 s) (w :
    [.sys, .fns, .journal, .deferred, .time, .ports, .bpcfg, .skim, .hawk, .trowel, .publ, .eng, .pke, .sealer, .pair,
    .span, .log, .budget, .outbox] ⊆ ps) : GoesTo ps s0 (execDupWaitRelease b src seq s) := by
  unfold execDupWaitRelease
  repeat' (first
    | with_reducible assumption | exact reach w (Eq.refl _) | apply GoesTo.next | with_reducible apply bufFree_goes
    | with_reducible apply dropDup_goes | with_reducible apply skimStep3_goes | with_reducible apply Goes.ite
    | exact Or.inr (reachOne w (Eq.refl _)) | exact Or.inr ⟨reachOne w (Eq.refl _), rfl⟩
    | exact Or.inr ⟨reachOne w (Eq.refl _), fun c => c⟩
    | exact Or.inr ⟨reachOne w (Eq.refl _), rfl, rfl, rfl, rfl, rfl⟩ | exact Or.inl rfl | simp only [Goes.mk_eq]
    | with_reducible apply GoesMk.upd | split | dsimp only)

theorem execContextFetchDone_goes {ps : List Part} {s0 : State} (k : Nat) (ok : Bool) (s : State) (h : Goes ps s0 s)
    (w : [.sys, .fns, .time, .ports, .bpcfg, .skim, .hawk, .trowel, .publ, .eng, .pke, .rng, .sealer, .span, .log,
    .budget, .freeCtr, .outbox] ⊆ ps) : GoesTo ps s0 (execContextFetchDone k ok s) := by
  unfold execContextFetchDone
  repeat' (first
    | with_reducible assumption | exact reach w (Eq.refl _) | apply GoesTo.next
    | with_reducible apply resumeFetch_goes | with_reducible apply fresh_goes
    | refine fresh_pair (by with_reducible assumption) ?_ ?_ | with_reducible apply sealFail_goes
    | with_reducible apply Goes.ite | split | dsimp only)

theorem execBrk_goes {ps : List Part} {s0 : State} (p : Nat) (st : State) (h : Goes ps s0 st) (w : [.journal, .hawk,
    .trowel, .pair, .span, .log, .budget, .freeCtr, .outbox] ⊆ ps) : GoesTo ps s0 (execBrk p st) := by
  unfold execBrk
  repeat' (first
    | with_reducible assumption | exact reach w (Eq.refl _) | intro _ | apply GoesTo.next
    | with_reducible apply issue_goes | with_reducible apply raiseExc_goes | dsimp only)

theorem execYield_goes {ps : List Part} {s0 : State} (p : Nat) (st : State) (h : Goes ps s0 st) (w : [.sys, .fns,
    .journal, .skim, .hawk, .trowel, .eng, .pair, .span, .log, .budget, .freeCtr, .outbox] ⊆ ps) : GoesTo ps s0
    (execYield p st) := by
  unfold execYield
  repeat' (first
    | with_reducible assumption | with_reducible exact fun _ h => h | with_reducible exact id_canon
    | with_reducible exact fun _ h => canonProg_of h rfl rfl rfl | exact reach w (Eq.refl _) | intro _
    | apply GoesTo.next | with_reducible apply issue_goes | with_reducible apply yieldWork_goes
    | with_reducible apply updProg_goes | exact Or.inr (reachOne w (Eq.refl _))
    | exact Or.inr ⟨reachOne w (Eq.refl _), rfl⟩ | exact Or.inr ⟨reachOne w (Eq.refl _), fun c => c⟩
    | exact Or.inr ⟨reachOne w (Eq.refl _), rfl, rfl, rfl, rfl, rfl⟩ | exact Or.inl rfl | simp only [Goes.mk_eq]
    | with_reducible apply GoesMk.upd | dsimp only)

theorem execWaitEv_goes {ps : List Part} {s0 : State} (p : Nat) (d e : Fld4) (st : State) (h : Goes ps s0 st) (w :
    [.journal, .hawk, .trowel, .pair, .span, .log, .budget, .freeCtr, .outbox] ⊆ ps) : GoesTo ps s0 (execWaitEv p d e
    st) := by
  unfold execWaitEv
  repeat' (first
    | with_reducible assumption | with_reducible exact fun _ h => h | with_reducible exact id_canon
    | with_reducible exact fun _ h => canonProg_of h rfl rfl rfl
    | with_reducible exact fun _ h => gset_canon (canonProg_of h rfl rfl rfl)
    | with_reducible exact fun _ h => canonProg_of (gset_canon h) rfl rfl rfl
    | with_reducible exact fun _ h => gset_canon h | exact reach w (Eq.refl _) | intro _ | apply GoesTo.next
    | with_reducible apply issue_goes | with_reducible apply finishNext_goes | with_reducible apply updProg_goes
    | exact Or.inr (reachOne w (Eq.refl _)) | exact Or.inr ⟨reachOne w (Eq.refl _), fun c => c⟩ | exact Or.inl rfl
    | simp only [Goes.mk_eq] | with_reducible apply GoesMk.upd | split | dsimp only)

theorem execWaitEvReturn_goes {ps : List Part} {s0 : State} (p : Nat) (st : State) (h : Goes ps s0 st) (w : [.trowel,
    .budget] ⊆ ps) : GoesTo ps s0 (execWaitEvReturn p st) := by
  unfold execWaitEvReturn
  repeat' (first
    | with_reducible assumption | with_reducible exact fun _ h => h | with_reducible exact id_canon
    | with_reducible exact fun _ h => canonProg_of h rfl rfl rfl
    | with_reducible exact fun _ h => gset_canon (canonProg_of h rfl rfl rfl)
    | with_reducible exact fun _ h => canonProg_of (gset_canon h) rfl rfl rfl
    | with_reducible exact fun _ h => gset_canon h | exact reach w (Eq.refl _) | apply GoesTo.next
    | with_reducible apply finishNext_goes | exact Or.inr (reachOne w (Eq.refl _))
    | exact Or.inr ⟨reachOne w (Eq.refl _), fun c => c⟩ | exact Or.inl rfl | simp only [Goes.mk_eq]
    | with_reducible apply GoesMk.upd | split | dsimp only)

theorem execPubRaise_goes {ps : List Part} {s0 : State} (p : Nat) (d a i : Fld4) (st : State) (h : Goes ps s0 st) (w :
    [.journal, .ports, .bpcfg, .skim, .hawk, .trowel, .publ, .eng, .pair, .span, .log, .budget, .freeCtr, .outbox] ⊆
    ps) : GoesTo ps s0 (execPubRaise p d a i st) := by
  unfold execPubRaise
  repeat' (first
    | with_reducible assumption | with_reducible exact fun _ h => h | with_reducible exact id_canon
    | with_reducible exact fun _ h => canonProg_of h rfl rfl rfl
    | with_reducible exact fun _ h => gset_canon (canonProg_of h rfl rfl rfl)
    | with_reducible exact fun _ h => canonProg_of (gset_canon h) rfl rfl rfl
    | with_reducible exact fun _ h => gset_canon h | exact reach w (Eq.refl _) | intro _ | apply GoesTo.next
    | with_reducible apply issue_goes | with_reducible apply finishNext_goes | with_reducible apply cntTrw_goes
    | with_reducible apply raised_goes | with_reducible apply Goes.ite | exact Or.inr (reachOne w (Eq.refl _))
    | exact Or.inr ⟨reachOne w (Eq.refl _), fun c => c⟩ | exact Or.inl rfl | simp only [Goes.mk_eq]
    | with_reducible apply GoesMk.upd | split | dsimp only)

theorem execMfs_goes {ps : List Part} {s0 : State} (p : Nat) (d sr : Fld4) (st : State) (h : Goes ps s0 st) (w :
    [.journal, .hawk, .trowel, .pair, .span, .log, .budget, .freeCtr, .outbox] ⊆ ps) : GoesTo ps s0 (execMfs p d sr
    st) := by
  unfold execMfs
  repeat' (first
    | with_reducible assumption | with_reducible exact fun _ h => h | with_reducible exact id_canon
    | with_reducible exact fun _ h => canonProg_of h rfl rfl rfl
    | with_reducible exact fun _ h => gset_canon (canonProg_of h rfl rfl rfl)
    | with_reducible exact fun _ h => canonProg_of (gset_canon h) rfl rfl rfl
    | with_reducible exact fun _ h => gset_canon h | exact reach w (Eq.refl _) | intro _ | apply GoesTo.next
    | with_reducible apply issue_goes | with_reducible apply finishNext_goes | dsimp only)

theorem execMts_goes {ps : List Part} {s0 : State} (p : Nat) (sr a : Fld4) (st : State) (h : Goes ps s0 st) (w :
    [.journal, .hawk, .trowel, .pair, .span, .log, .budget, .freeCtr, .outbox] ⊆ ps) : GoesTo ps s0 (execMts p sr a
    st) := by
  unfold execMts
  repeat' (first
    | with_reducible assumption | with_reducible exact fun _ h => h | with_reducible exact id_canon
    | with_reducible exact fun _ h => canonProg_of h rfl rfl rfl | exact reach w (Eq.refl _) | intro _
    | apply GoesTo.next | with_reducible apply issue_goes | with_reducible apply finishNext_goes
    | exact Or.inr (reachOne w (Eq.refl _)) | exact Or.inr ⟨reachOne w (Eq.refl _), fun c => c⟩ | exact Or.inl rfl
    | simp only [Goes.mk_eq] | with_reducible apply GoesMk.upd | dsimp only)

theorem execBudgetStop_goes {ps : List Part} {s0 : State} (p : Nat) (st : State) (h : Goes ps s0 st) (w : [.journal,
    .hawk, .trowel, .pair, .span, .log, .budget, .outbox] ⊆ ps) : GoesTo ps s0 (execBudgetStop p st) := by
  unfold execBudgetStop
  repeat' (first
    | with_reducible assumption | exact reach w (Eq.refl _) | apply GoesTo.next | with_reducible apply stopWork_goes
    | with_reducible apply Goes.ite | exact Or.inr (reachOne w (Eq.refl _))
    | exact Or.inr ⟨reachOne w (Eq.refl _), fun c => c⟩ | exact Or.inl rfl | simp only [Goes.mk_eq]
    | with_reducible apply GoesMk.upd | split | dsimp only)

theorem execTrowelCutoff_goes {ps : List Part} {s0 : State} (p : Nat) (st : State) (h : Goes ps s0 st) (w : [.journal,
    .hawk, .trowel, .pair, .span, .log, .budget, .outbox] ⊆ ps) : GoesTo ps s0 (execTrowelCutoff p st) := by
  unfold execTrowelCutoff
  repeat' (first
    | with_reducible assumption | exact reach w (Eq.refl _) | apply GoesTo.next | with_reducible apply idle_goes
    | with_reducible apply stopWork_goes | with_reducible apply Goes.ite | exact Or.inr (reachOne w (Eq.refl _))
    | exact Or.inr ⟨reachOne w (Eq.refl _), fun c => c⟩ | exact Or.inl rfl | simp only [Goes.mk_eq]
    | with_reducible apply GoesMk.upd | split | dsimp only)

theorem chargeWaiters_goes {ps : List Part} {s0 : State} (s : State) (h : Goes ps s0 s) (w : [.trowel, .budget] ⊆ ps)
    : Goes ps s0 (chargeWaiters s) := by
  unfold chargeWaiters
  repeat' (first
    | with_reducible assumption | with_reducible apply Goes.ite | exact Or.inr (reachOne w (Eq.refl _))
    | exact Or.inr ⟨reachOne w (Eq.refl _), fun c => c⟩ | exact Or.inr ⟨reachOne w (Eq.refl _), fun c => canon_mdel c⟩
    | exact Or.inr ⟨reachOne w (Eq.refl _), fun _ _ h => absurd h List.not_mem_nil⟩
    | (refine Or.inr ⟨reachOne w (Eq.refl _), fun c => canon_map c ?_⟩; intro _ h; (try dsimp only); (repeat' split); all_goals exact canonProg_of h rfl rfl rfl)
    | exact Or.inl rfl | simp only [Goes.mk_eq] | with_reducible apply GoesMk.upd | split | dsimp only)

theorem idle_goes {ps : List Part} {s0 : State} (s : State) (h : Goes ps s0 s) (w : [.time, .trowel, .log, .budget] ⊆
    ps) : Goes ps s0 (idle s) := by
  unfold idle
  repeat' (first
    | with_reducible assumption | exact reach w (Eq.refl _) | with_reducible apply chargeWaiters_goes
    | with_reducible apply tick_goes | dsimp only)

end Sys2Proof.Machine
end

