-- ==== Sys2Proof/Laws/Journal.lean ====
section
/-! SUPPORT. Laws/Journal.lean: what journalling an outcome does: the entry of its token, and nothing outside the
journal, the span and the outbox. -/
namespace Sys2Proof.Machine

theorem jent_updJ_self (t : Nat) (g : JEntry → JEntry) (s : State) : jent (updJ t g s) t = (jent s t).map g :=
  mget_mupd_self s.journal t g

theorem jent_updJ_other (t k : Nat) (g : JEntry → JEntry) (s : State) (h : k ≠ t) : jent (updJ t g s) k = jent s k :=
  mget_mupd_other s.journal t k g h

theorem sendOn_journal (l : Nat) (k : Packet) (s : State) : (sendOn l k s).journal = s.journal := by
  unfold sendOn; dsimp only; split <;> split <;> rfl

theorem sendOn_sys (l : Nat) (k : Packet) (s : State) : (sendOn l k s).sys = s.sys := by
  unfold sendOn; dsimp only; split <;> split <;> rfl

theorem sendPacket_journal (d p a : Nat) (b : List Byte) (s : State) : (sendPacket d p a b s).journal = s.journal := by
  unfold sendPacket; exact sendOn_journal _ _ _

theorem sendPacket_sys (d p a : Nat) (b : List Byte) (s : State) : (sendPacket d p a b s).sys = s.sys := by
  unfold sendPacket; exact sendOn_sys _ _ _

theorem answerGateway_sys (tok : Nat) (o : Outcome) (out : List Byte) (s : State) :
    (answerGateway tok o out s).sys = s.sys := by
  unfold answerGateway
  split
  · exact sendPacket_sys _ _ _ _ _
  · rfl

/-- The answer to the gateway marks the entry of its token and touches no other. -/
theorem answerGateway_jent (tok : Nat) (o : Outcome) (out : List Byte) (s : State) :
    (∃ g : JEntry → JEntry, jent (answerGateway tok o out s) tok = (jent s tok).map g ∧
      ∀ j, (g j).started = j.started ∧ (g j).outcome = j.outcome ∧ (g j).staged = j.staged ∧ (g j).cmd = j.cmd) ∧
    ∀ k, k ≠ tok → jent (answerGateway tok o out s) k = jent s k := by
  unfold answerGateway
  split
  · refine ⟨⟨fun j => { j with ledgered := true }, ?_, fun j => ⟨rfl, rfl, rfl, rfl⟩⟩, fun k hk => ?_⟩
    · unfold jent; rw [sendPacket_journal]; exact mget_mupd_self s.journal tok _
    · unfold jent; rw [sendPacket_journal]; exact mget_mupd_other s.journal tok k _ hk
  · exact ⟨⟨id, by simp, fun j => ⟨rfl, rfl, rfl, rfl⟩⟩, fun k _ => rfl⟩

theorem settle_sys (tok st : Nat) (r : W32) (o : List Byte) (s : State) : (settle tok st r o s).sys = s.sys := by
  unfold settle settleAs
  rw [answerGateway_sys]
  split <;> rfl

theorem devnum_eq {s t : State} (h : t.sys = s.sys) : devnum t = devnum s := by unfold devnum; rw [h]

/-- The entry of a token after its outcome is journalled. -/
theorem settle_jent {tok : Nat} {j : JEntry} (st : Nat) (r : W32) (o : List Byte) (s : State) (h : jent s tok = some j) :
    (∃ k, jent (settle tok st r o s) tok = some k ∧ k.started = true ∧
      k.outcome = some { status := st, result := r, epoch := s.sys.epoch, dev := devnum s } ∧
      k.staged = some { status := st, result := r, out := o, wrote := 0 } ∧ k.cmd = j.cmd) ∧
    ∀ k, k ≠ tok → jent (settle tok st r o s) k = jent s k := by
  unfold settle settleAs
  dsimp only
  obtain ⟨⟨g, e, hg⟩, f⟩ := answerGateway_jent tok { status := st, result := r, epoch := s.sys.epoch, dev := devnum s } o
    (if mirrors s = true then emit (.pair (.mirror (.outcome tok st r s.sys.epoch))) (updJ tok (fun j => { j with
      started := true, staged := some { status := st, result := r, out := o, wrote := 0 }
      outcome := some { status := st, result := r, epoch := s.sys.epoch, dev := devnum s }, outAck := !mirrors s }) s)
     else updJ tok (fun j => { j with
      started := true, staged := some { status := st, result := r, out := o, wrote := 0 }
      outcome := some { status := st, result := r, epoch := s.sys.epoch, dev := devnum s }, outAck := !mirrors s }) s)
  refine ⟨?_, fun k hk => ?_⟩
  · rw [e]
    split <;> simp only [jent, emit, updJ, mget_mupd_self] <;> (simp only [jent] at h; rw [h]) <;>
      refine ⟨_, rfl, ?_⟩ <;> obtain ⟨a, b, c, d⟩ := hg _ <;> exact ⟨a, b, c, d⟩
  · rw [f k hk]
    split <;> simp only [jent, emit, updJ] <;> exact mget_mupd_other _ _ _ _ hk

/-- A command that ends from a state whose journal is the one before ends in the sense of Ends. -/
theorem settle_ends {s u : State} {tok : Nat} {j : JEntry} (st : Nat) (r : W32) (o : List Byte) (hj : u.journal = s.journal)
    (h : jent s tok = some j) : Ends s (settle tok st r o u) tok st r o := by
  have h' : jent u tok = some j := by unfold jent; rw [hj]; exact h
  obtain ⟨⟨k, a, b, c, d, _⟩, f⟩ := settle_jent st r o u h'
  refine ⟨⟨k, a, b, ?_, d⟩, fun k hk => ?_⟩
  · rw [settle_sys, devnum_eq (settle_sys tok st r o u)]; exact c
  · rw [f k hk]; unfold jent; rw [hj]

/-- Staging work marks the token's entry alone. -/
theorem updJ_staged {s u : State} {tok : Nat} {j : JEntry} (st : Nat) (r : W32) (o : List Byte) (hj : u.journal = s.journal)
    (h : jent s tok = some j) (ho : j.outcome = none) :
    WorkStaged s (updJ tok (fun j => { j with
      started := true, staged := some { status := st, result := r, out := o, wrote := 0 } }) u) tok st r o := by
  have h' : jent u tok = some j := by unfold jent; rw [hj]; exact h
  refine ⟨⟨{ j with started := true, staged := some { status := st, result := r, out := o, wrote := 0 } },
    by rw [jent_updJ_self, h']; rfl, rfl, ho, rfl⟩, fun k hk => ?_⟩
  rw [jent_updJ_other _ _ _ _ hk]; unfold jent; rw [hj]

/-- What a runnable command's journal entry holds. -/
theorem runnable_jent {s : State} {c : Cmd} (h : runnable s c = true) :
    ∃ j, jent s c.tok = some j ∧ j.cmd = c ∧ j.outcome = none ∧ j.started = false ∧ j.mark = .none := by
  unfold runnable at h
  split at h
  · exact absurd h (by decide)
  · rename_i j e
    simp only [Bool.and_eq_true, decide_eq_true_eq, Bool.not_eq_true', Option.isNone_iff_eq_none] at h
    exact ⟨j, e, h.1.1.1.1.1.1.1.1, h.1.1.1.1.1.2, h.1.1.1.1.1.1.2, h.1.1.1.1.2⟩

theorem mayApply_spec {s : State} {c : Cmd} (h : mayApply s c = true) :
    runnable s c = true ∧ configTurn s c = true ∧ closingBusy c s = false := by
  unfold mayApply at h
  simp only [Bool.and_eq_true, Bool.not_eq_true'] at h
  exact ⟨h.1.1, h.1.2, h.2⟩

/-- A plain command whose check fails. -/
theorem runPlain_fails {check eff} {c : Cmd} {s : State} {st : Nat} (h : runnable s c = true) (e : check c s = some st) :
    runPlain check eff c s = settle c.tok st 0 [] s := by
  unfold runPlain; rw [if_pos h, e]

/-- A plain command whose check passes. -/
theorem runPlain_passes {check eff} {c : Cmd} {s : State} (h : runnable s c = true) (e : check c s = none) :
    runPlain check eff c s = settle c.tok (eff c s).status (eff c s).result (eff c s).out (eff c s).st := by
  unfold runPlain; rw [if_pos h, e]

/-- An engine command whose check passes. -/
theorem runWork_passes {check eff} {c : Cmd} {s : State} (h : runnable s c = true) (e : check c s = none) :
    runWork check eff c s = updJ c.tok (fun j => { j with
      started := true, staged := some { status := (eff c s).status, result := (eff c s).result, out := (eff c s).out, wrote := 0 } })
      (eff c s).st := by
  unfold runWork; rw [if_pos h, e]

/-- A configuration command that may take effect does. -/
theorem runConfigBy_applies {ap} {c : Cmd} {s : State} (h : mayApply s c = true) : runConfigBy ap c s = ap c s := by
  obtain ⟨a, b, d⟩ := mayApply_spec h
  unfold runConfigBy; simp [a, b, d]

theorem applyConfig_passes {check eff} {c : Cmd} {s : State} (e : check c s = none) (ok : (eff c s).status = 0) :
    applyConfig check eff c s = settle c.tok 0 (eff c s).result (eff c s).out
      (bumpEpoch (mirrorItem (.config c (s.sys.epoch + 1)) (eff c s).st)) := by
  unfold applyConfig; rw [e]; dsimp only; rw [if_pos ok]

theorem applyConfig_fails {check eff} {c : Cmd} {s : State} {st : Nat} (e : check c s = some st) :
    applyConfig check eff c s = settle c.tok st 0 [] s := by
  unfold applyConfig; rw [e]

theorem mirrorItem_journal (m : MirrorItem) (s : State) : (mirrorItem m s).journal = s.journal := by
  unfold mirrorItem; split <;> rfl

theorem mirrorItem_sys (m : MirrorItem) (s : State) : (mirrorItem m s).sys = s.sys := by
  unfold mirrorItem; split <;> rfl

end Sys2Proof.Machine
end

