-- ==== Sys2Proof/Laws/Programs.lean ====
section
/-! SUPPORT. Laws/Programs.lean: what issuing and completing an EZS-32 instruction does, in the terms of Safety: the
instruction of a program that issues it runs, and completing changes that program alone. -/
namespace Sys2Proof.Machine

/-- A change of an entry is the entry put there. -/
theorem mupd_const {α : Type} {m : Map α} {k : Nat} {v : α} (f : α → α) (h : mget m k = some v) :
    mupd m k f = mupd m k (fun _ => f v) := by
  induction m with
  | nil => rfl
  | cons e m ih =>
    obtain ⟨k', v'⟩ := e
    by_cases e : k = k'
    · simp only [mget, e, if_true] at h; cases h; simp [mupd, e]
    · simp only [mget, e, if_false] at h; simp [mupd, e, ih h]

theorem updProg_eq {p : Nat} {g : Prog} {s : State} (f : Prog → Prog) (h : progOf s p = some g) :
    updProg p f s = setProg p (f g) s := by
  unfold updProg setProg; rw [mupd_const f h]

theorem holder_prog {s : State} {p : Nat} {ph : Phase} {g : Prog} (h : holder s p ph = some g) :
    progOf s p = some g ∧ runningOn s g.core = some p ∧ g.phase = ph ∧ 0 < g.budget ∧ inService s = true := by
  unfold holder at h
  split at h
  · split at h
    · cases h
      rename_i e
      simp only [Bool.and_eq_true, beq_iff_eq, decide_eq_true_eq] at e
      exact ⟨‹_›, e.1.1.1, e.1.1.2, e.1.2, e.2⟩
    · cases h
  · cases h

theorem mupd_self_const {α : Type} {m : Map α} {k : Nat} {v : α} (h : mget m k = some v) : mupd m k (fun _ => v) = m := by
  induction m with
  | nil => rfl
  | cons e m ih =>
    obtain ⟨k', v'⟩ := e
    by_cases e : k = k'
    · simp only [mget, e, if_true] at h; cases h; simp [mupd, e]
    · simp only [mget, e, if_false] at h; simp [mupd, e, ih h]

theorem mupd_twice {α : Type} (m : Map α) (k : Nat) (u v : α) :
    mupd (mupd m k (fun _ => u)) k (fun _ => v) = mupd m k (fun _ => v) := by
  induction m with
  | nil => rfl
  | cons e m ih =>
    obtain ⟨k', v'⟩ := e
    by_cases e : k = k'
    · simp [mupd, e]
    · simp [mupd, e, ih]

theorem setProg_self {p : Nat} {g : Prog} {s : State} (h : progOf s p = some g) : setProg p g s = s := by
  unfold setProg; rw [mupd_self_const h]

theorem setProg_twice (p : Nat) (g g' : Prog) (s : State) : setProg p g' (setProg p g s) = setProg p g' s := by
  unfold setProg; dsimp only; rw [mupd_twice]

theorem progOf_setProg {p : Nat} {g g' : Prog} {s : State} (h : progOf s p = some g) : progOf (setProg p g' s) p = some g' := by
  unfold progOf setProg; dsimp only
  rw [mget_mupd_self]; unfold progOf at h; rw [h]; rfl

/-- The instruction that a program issues runs on the program as it is once the word is fetched. -/
theorem issue_runs {s : State} {p : Nat} {w : W32} {g : Prog} (h : Issues s p w g) (k : Prog → State → State) :
    issue p w k s = k g (setProg p g s) ∧ progOf (setProg p g s) p = some g := by
  obtain ⟨g0, a, b, rfl⟩ := h
  have e := (holder_prog a).1
  refine ⟨?_, progOf_setProg e⟩
  unfold issue
  rw [a]; dsimp only; rw [b]; dsimp only; rw [if_pos rfl]
  split
  · rename_i z
    have f : fetched s g0 = g0 := by unfold fetched; rw [z]; rfl
    rw [f, setProg_self e]
  · rw [updProg_eq _ e]

theorem finish_eq {s : State} {p : Nat} {g : Prog} (h : progOf s p = some g) (cost : Nat) (pc : W32) (f : Prog → Prog) :
    finish p cost pc f s = setProg p { f g with pc := pc, budget := (f g).budget - cost } s := by
  unfold finish; rw [updProg_eq _ h]

theorem finishNext_eq {s : State} {p : Nat} {g : Prog} (h : progOf s p = some g) (cost : Nat) (f : Prog → Prog) :
    finishNext p cost f g s = setProg p { f g with pc := g.pc + 4, budget := (f g).budget - cost } s := finish_eq h ..

theorem lupd_const {α : Type} (l : List α) (i : Nat) (v : α) : lupd l i (fun _ => v) = l.set i v := by
  induction l generalizing i with
  | nil => rfl
  | cons a l ih => cases i <;> simp [lupd, ih]

theorem gset_eq (d : Fld4) (v : W32) (g : Prog) : gset d v g = { g with regs := regWritten g d v } := by
  unfold gset regWritten
  split
  · rfl
  · rw [lupd_const]

theorem flags32_eq (r : W32) (c v : Bool) : flags32 r c v = flagWord r.msb (decide (r = 0)) c v := by
  unfold flags32
  have e : (r == 0) = decide (r = 0) := by rw [Bool.eq_iff_iff]; simp
  rw [e]
  generalize decide (r = 0) = z
  generalize r.msb = n
  revert n z c v
  decide

theorem flags64_eq (r : W64) (c v : Bool) : flags64 r c v = flagWord r.msb (decide (r = 0)) c v := by
  unfold flags64
  have e : (r == 0) = decide (r = 0) := by rw [Bool.eq_iff_iff]; simp
  rw [e]
  generalize decide (r = 0) = z
  generalize r.msb = n
  revert n z c v
  decide

/-- An ALU-group instruction that issues. -/
theorem runAlu_eq {st : State} {p fn : Nat} {S : Bool} {d a b : Fld4} {g : Prog} (f : W32 → W32 → Alu) (cost : Nat)
    (h : Issues st p (encR 0x00 d a b (b2n S) fn) g) :
    runAlu p fn S d a b f cost st =
      setProg p (aluDone g S d (f (gget g a) (gget g b)).r (f (gget g a) (gget g b)).c (f (gget g a) (gget g b)).v cost) st := by
  unfold runAlu
  rw [(issue_runs h _).1]; dsimp only
  rw [finishNext_eq (issue_runs h (fun _ u => u)).2, setProg_twice, gset_eq]
  cases S <;> simp [aluDone, stepped, flags32_eq, regWritten]

theorem runImm_eq {st : State} {p op : Nat} {d a : Fld4} {imm : BitVec 18} {g : Prog} (f : W32 → W32)
    (h : Issues st p (encI op d a imm) g) :
    runImm p op d a imm f st = setProg p (aluDone g false d (f (gget g a)) false false 1) st := by
  unfold runImm
  rw [(issue_runs h _).1, finishNext_eq (issue_runs h (fun _ u => u)).2, setProg_twice, gset_eq]
  simp [aluDone, stepped]

theorem runDual_eq {st : State} {p fn : Nat} {d a b : Fld4} {g : Prog} (f : W32 → W32 → W32)
    (h : Issues st p (encR 0x01 d a b 0 fn) g) :
    runDual p fn d a b f st = setProg p (aluDone g false d (f (gget g a) (gget g b)) false false 1) st := by
  unfold runDual
  rw [(issue_runs h _).1, finishNext_eq (issue_runs h (fun _ u => u)).2, setProg_twice, gset_eq]
  simp [aluDone, stepped]

theorem runAcc_eq {st : State} {p fn : Nat} {S : Bool} {d a b : Fld4} {g : Prog} (f : W64 → W32 → W32 → Acc)
    (h : Issues st p (encR 0x02 d a b (b2n S) fn) g) :
    runAcc p fn S d a b f st =
      setProg p (accDone g S d (f (aget g d) (gget g a) (gget g b)).r (f (aget g d) (gget g a) (gget g b)).v) st := by
  unfold runAcc
  rw [(issue_runs h _).1]; dsimp only
  rw [finishNext_eq (issue_runs h (fun _ u => u)).2, setProg_twice]
  unfold aset accDone
  by_cases e : d = 0
  · subst e; cases S <;> simp [stepped, flags64_eq]
  · simp only [if_neg e]; cases S <;> simp [stepped, flags64_eq]

theorem runFrom_eq {st : State} {p fn : Nat} {S : Bool} {d a : Fld4} {g : Prog} (f : W64 → Alu)
    (h : Issues st p (encR 0x02 d a 0 (b2n S) fn) g) :
    runFrom p fn S d a f st =
      setProg p (aluDone g S d (f (aget g a)).r (f (aget g a)).c (f (aget g a)).v 1) st := by
  unfold runFrom
  rw [(issue_runs h _).1]; dsimp only
  rw [finishNext_eq (issue_runs h (fun _ u => u)).2, setProg_twice, gset_eq]
  cases S <;> simp [aluDone, stepped, flags32_eq, regWritten]

theorem satS_eq (n : Nat) (v : Int) : satS n v = clamp n v := by
  have e : (1 : Int) ≤ 2 ^ (n - 1) := Int.add_one_le_of_lt (Int.pow_pos (by decide))
  unfold satS clamp
  omega

end Sys2Proof.Machine
end

