-- ==== Sys2Proof/Laws/State.lean ====
section
/-! SUPPORT. Laws/State.lean: what each named update of State leaves in each field, one lemma per field. -/
namespace Sys2Proof.Machine

/-! emit. -/

@[simp] theorem emit_sys (o : Output) (s : State) : (emit o s).sys = s.sys := rfl
@[simp] theorem emit_fns (o : Output) (s : State) : (emit o s).fns = s.fns := rfl
@[simp] theorem emit_journal (o : Output) (s : State) : (emit o s).journal = s.journal := rfl
@[simp] theorem emit_deferred (o : Output) (s : State) : (emit o s).deferred = s.deferred := rfl
@[simp] theorem emit_time (o : Output) (s : State) : (emit o s).time = s.time := rfl
@[simp] theorem emit_ports (o : Output) (s : State) : (emit o s).ports = s.ports := rfl
@[simp] theorem emit_bpcfg (o : Output) (s : State) : (emit o s).bpcfg = s.bpcfg := rfl
@[simp] theorem emit_skim (o : Output) (s : State) : (emit o s).skim = s.skim := rfl
@[simp] theorem emit_hawk (o : Output) (s : State) : (emit o s).hawk = s.hawk := rfl
@[simp] theorem emit_trowel (o : Output) (s : State) : (emit o s).trowel = s.trowel := rfl
@[simp] theorem emit_publ (o : Output) (s : State) : (emit o s).publ = s.publ := rfl
@[simp] theorem emit_eng (o : Output) (s : State) : (emit o s).eng = s.eng := rfl
@[simp] theorem emit_pke (o : Output) (s : State) : (emit o s).pke = s.pke := rfl
@[simp] theorem emit_rng (o : Output) (s : State) : (emit o s).rng = s.rng := rfl
@[simp] theorem emit_keys (o : Output) (s : State) : (emit o s).keys = s.keys := rfl
@[simp] theorem emit_sealer (o : Output) (s : State) : (emit o s).sealer = s.sealer := rfl
@[simp] theorem emit_tamper (o : Output) (s : State) : (emit o s).tamper = s.tamper := rfl
@[simp] theorem emit_pair (o : Output) (s : State) : (emit o s).pair = s.pair := rfl
@[simp] theorem emit_span (o : Output) (s : State) : (emit o s).span = s.span := rfl
@[simp] theorem emit_log (o : Output) (s : State) : (emit o s).log = s.log := rfl
@[simp] theorem emit_budget (o : Output) (s : State) : (emit o s).budget = s.budget := rfl
@[simp] theorem emit_fw (o : Output) (s : State) : (emit o s).fw = s.fw := rfl
@[simp] theorem emit_injected (o : Output) (s : State) : (emit o s).injected = s.injected := rfl
@[simp] theorem emit_freeCtr (o : Output) (s : State) : (emit o s).freeCtr = s.freeCtr := rfl
@[simp] theorem emit_outbox (o : Output) (s : State) : (emit o s).outbox = s.outbox ++ [o] := rfl
@[simp] theorem emit_pending (o : Output) (s : State) : (emit o s).pending = s.pending := rfl

/-! emits. -/

@[simp] theorem emits_sys (os : List Output) (s : State) : (emits os s).sys = s.sys := rfl
@[simp] theorem emits_fns (os : List Output) (s : State) : (emits os s).fns = s.fns := rfl
@[simp] theorem emits_journal (os : List Output) (s : State) : (emits os s).journal = s.journal := rfl
@[simp] theorem emits_deferred (os : List Output) (s : State) : (emits os s).deferred = s.deferred := rfl
@[simp] theorem emits_time (os : List Output) (s : State) : (emits os s).time = s.time := rfl
@[simp] theorem emits_ports (os : List Output) (s : State) : (emits os s).ports = s.ports := rfl
@[simp] theorem emits_bpcfg (os : List Output) (s : State) : (emits os s).bpcfg = s.bpcfg := rfl
@[simp] theorem emits_skim (os : List Output) (s : State) : (emits os s).skim = s.skim := rfl
@[simp] theorem emits_hawk (os : List Output) (s : State) : (emits os s).hawk = s.hawk := rfl
@[simp] theorem emits_trowel (os : List Output) (s : State) : (emits os s).trowel = s.trowel := rfl
@[simp] theorem emits_publ (os : List Output) (s : State) : (emits os s).publ = s.publ := rfl
@[simp] theorem emits_eng (os : List Output) (s : State) : (emits os s).eng = s.eng := rfl
@[simp] theorem emits_pke (os : List Output) (s : State) : (emits os s).pke = s.pke := rfl
@[simp] theorem emits_rng (os : List Output) (s : State) : (emits os s).rng = s.rng := rfl
@[simp] theorem emits_keys (os : List Output) (s : State) : (emits os s).keys = s.keys := rfl
@[simp] theorem emits_sealer (os : List Output) (s : State) : (emits os s).sealer = s.sealer := rfl
@[simp] theorem emits_tamper (os : List Output) (s : State) : (emits os s).tamper = s.tamper := rfl
@[simp] theorem emits_pair (os : List Output) (s : State) : (emits os s).pair = s.pair := rfl
@[simp] theorem emits_span (os : List Output) (s : State) : (emits os s).span = s.span := rfl
@[simp] theorem emits_log (os : List Output) (s : State) : (emits os s).log = s.log := rfl
@[simp] theorem emits_budget (os : List Output) (s : State) : (emits os s).budget = s.budget := rfl
@[simp] theorem emits_fw (os : List Output) (s : State) : (emits os s).fw = s.fw := rfl
@[simp] theorem emits_injected (os : List Output) (s : State) : (emits os s).injected = s.injected := rfl
@[simp] theorem emits_freeCtr (os : List Output) (s : State) : (emits os s).freeCtr = s.freeCtr := rfl
@[simp] theorem emits_outbox (os : List Output) (s : State) : (emits os s).outbox = s.outbox ++ os := rfl
@[simp] theorem emits_pending (os : List Output) (s : State) : (emits os s).pending = s.pending := rfl

/-! updFn. -/

@[simp] theorem updFn_sys (f : Nat) (g : Fn → Fn) (s : State) : (updFn f g s).sys = s.sys := rfl
@[simp] theorem updFn_fns (f : Nat) (g : Fn → Fn) (s : State) : (updFn f g s).fns = lupd s.fns f g := rfl
@[simp] theorem updFn_journal (f : Nat) (g : Fn → Fn) (s : State) : (updFn f g s).journal = s.journal := rfl
@[simp] theorem updFn_deferred (f : Nat) (g : Fn → Fn) (s : State) : (updFn f g s).deferred = s.deferred := rfl
@[simp] theorem updFn_time (f : Nat) (g : Fn → Fn) (s : State) : (updFn f g s).time = s.time := rfl
@[simp] theorem updFn_ports (f : Nat) (g : Fn → Fn) (s : State) : (updFn f g s).ports = s.ports := rfl
@[simp] theorem updFn_bpcfg (f : Nat) (g : Fn → Fn) (s : State) : (updFn f g s).bpcfg = s.bpcfg := rfl
@[simp] theorem updFn_skim (f : Nat) (g : Fn → Fn) (s : State) : (updFn f g s).skim = s.skim := rfl
@[simp] theorem updFn_hawk (f : Nat) (g : Fn → Fn) (s : State) : (updFn f g s).hawk = s.hawk := rfl
@[simp] theorem updFn_trowel (f : Nat) (g : Fn → Fn) (s : State) : (updFn f g s).trowel = s.trowel := rfl
@[simp] theorem updFn_publ (f : Nat) (g : Fn → Fn) (s : State) : (updFn f g s).publ = s.publ := rfl
@[simp] theorem updFn_eng (f : Nat) (g : Fn → Fn) (s : State) : (updFn f g s).eng = s.eng := rfl
@[simp] theorem updFn_pke (f : Nat) (g : Fn → Fn) (s : State) : (updFn f g s).pke = s.pke := rfl
@[simp] theorem updFn_rng (f : Nat) (g : Fn → Fn) (s : State) : (updFn f g s).rng = s.rng := rfl
@[simp] theorem updFn_keys (f : Nat) (g : Fn → Fn) (s : State) : (updFn f g s).keys = s.keys := rfl
@[simp] theorem updFn_sealer (f : Nat) (g : Fn → Fn) (s : State) : (updFn f g s).sealer = s.sealer := rfl
@[simp] theorem updFn_tamper (f : Nat) (g : Fn → Fn) (s : State) : (updFn f g s).tamper = s.tamper := rfl
@[simp] theorem updFn_pair (f : Nat) (g : Fn → Fn) (s : State) : (updFn f g s).pair = s.pair := rfl
@[simp] theorem updFn_span (f : Nat) (g : Fn → Fn) (s : State) : (updFn f g s).span = s.span := rfl
@[simp] theorem updFn_log (f : Nat) (g : Fn → Fn) (s : State) : (updFn f g s).log = s.log := rfl
@[simp] theorem updFn_budget (f : Nat) (g : Fn → Fn) (s : State) : (updFn f g s).budget = s.budget := rfl
@[simp] theorem updFn_fw (f : Nat) (g : Fn → Fn) (s : State) : (updFn f g s).fw = s.fw := rfl
@[simp] theorem updFn_injected (f : Nat) (g : Fn → Fn) (s : State) : (updFn f g s).injected = s.injected := rfl
@[simp] theorem updFn_freeCtr (f : Nat) (g : Fn → Fn) (s : State) : (updFn f g s).freeCtr = s.freeCtr := rfl
@[simp] theorem updFn_outbox (f : Nat) (g : Fn → Fn) (s : State) : (updFn f g s).outbox = s.outbox := rfl
@[simp] theorem updFn_pending (f : Nat) (g : Fn → Fn) (s : State) : (updFn f g s).pending = s.pending := rfl

/-! updQueue. -/

@[simp] theorem updQueue_sys (f q : Nat) (g : Queue → Queue) (s : State) : (updQueue f q g s).sys = s.sys := rfl
@[simp] theorem updQueue_fns (f q : Nat) (g : Queue → Queue) (s : State) :
    (updQueue f q g s).fns = lupd s.fns f (fun x => { x with queues := lupd x.queues q g }) := rfl
@[simp] theorem updQueue_journal (f q : Nat) (g : Queue → Queue) (s : State) :
    (updQueue f q g s).journal = s.journal := rfl
@[simp] theorem updQueue_deferred (f q : Nat) (g : Queue → Queue) (s : State) :
    (updQueue f q g s).deferred = s.deferred := rfl
@[simp] theorem updQueue_time (f q : Nat) (g : Queue → Queue) (s : State) : (updQueue f q g s).time = s.time := rfl
@[simp] theorem updQueue_ports (f q : Nat) (g : Queue → Queue) (s : State) : (updQueue f q g s).ports = s.ports := rfl
@[simp] theorem updQueue_bpcfg (f q : Nat) (g : Queue → Queue) (s : State) : (updQueue f q g s).bpcfg = s.bpcfg := rfl
@[simp] theorem updQueue_skim (f q : Nat) (g : Queue → Queue) (s : State) : (updQueue f q g s).skim = s.skim := rfl
@[simp] theorem updQueue_hawk (f q : Nat) (g : Queue → Queue) (s : State) : (updQueue f q g s).hawk = s.hawk := rfl
@[simp] theorem updQueue_trowel (f q : Nat) (g : Queue → Queue) (s : State) :
    (updQueue f q g s).trowel = s.trowel := rfl
@[simp] theorem updQueue_publ (f q : Nat) (g : Queue → Queue) (s : State) : (updQueue f q g s).publ = s.publ := rfl
@[simp] theorem updQueue_eng (f q : Nat) (g : Queue → Queue) (s : State) : (updQueue f q g s).eng = s.eng := rfl
@[simp] theorem updQueue_pke (f q : Nat) (g : Queue → Queue) (s : State) : (updQueue f q g s).pke = s.pke := rfl
@[simp] theorem updQueue_rng (f q : Nat) (g : Queue → Queue) (s : State) : (updQueue f q g s).rng = s.rng := rfl
@[simp] theorem updQueue_keys (f q : Nat) (g : Queue → Queue) (s : State) : (updQueue f q g s).keys = s.keys := rfl
@[simp] theorem updQueue_sealer (f q : Nat) (g : Queue → Queue) (s : State) :
    (updQueue f q g s).sealer = s.sealer := rfl
@[simp] theorem updQueue_tamper (f q : Nat) (g : Queue → Queue) (s : State) :
    (updQueue f q g s).tamper = s.tamper := rfl
@[simp] theorem updQueue_pair (f q : Nat) (g : Queue → Queue) (s : State) : (updQueue f q g s).pair = s.pair := rfl
@[simp] theorem updQueue_span (f q : Nat) (g : Queue → Queue) (s : State) : (updQueue f q g s).span = s.span := rfl
@[simp] theorem updQueue_log (f q : Nat) (g : Queue → Queue) (s : State) : (updQueue f q g s).log = s.log := rfl
@[simp] theorem updQueue_budget (f q : Nat) (g : Queue → Queue) (s : State) :
    (updQueue f q g s).budget = s.budget := rfl
@[simp] theorem updQueue_fw (f q : Nat) (g : Queue → Queue) (s : State) : (updQueue f q g s).fw = s.fw := rfl
@[simp] theorem updQueue_injected (f q : Nat) (g : Queue → Queue) (s : State) :
    (updQueue f q g s).injected = s.injected := rfl
@[simp] theorem updQueue_freeCtr (f q : Nat) (g : Queue → Queue) (s : State) :
    (updQueue f q g s).freeCtr = s.freeCtr := rfl
@[simp] theorem updQueue_outbox (f q : Nat) (g : Queue → Queue) (s : State) :
    (updQueue f q g s).outbox = s.outbox := rfl
@[simp] theorem updQueue_pending (f q : Nat) (g : Queue → Queue) (s : State) :
    (updQueue f q g s).pending = s.pending := rfl

/-! updRing. -/

@[simp] theorem updRing_sys (f r : Nat) (g : Ring → Ring) (s : State) : (updRing f r g s).sys = s.sys := rfl
@[simp] theorem updRing_fns (f r : Nat) (g : Ring → Ring) (s : State) :
    (updRing f r g s).fns = lupd s.fns f (fun x => { x with rings := lupd x.rings r g }) := rfl
@[simp] theorem updRing_journal (f r : Nat) (g : Ring → Ring) (s : State) :
    (updRing f r g s).journal = s.journal := rfl
@[simp] theorem updRing_deferred (f r : Nat) (g : Ring → Ring) (s : State) :
    (updRing f r g s).deferred = s.deferred := rfl
@[simp] theorem updRing_time (f r : Nat) (g : Ring → Ring) (s : State) : (updRing f r g s).time = s.time := rfl
@[simp] theorem updRing_ports (f r : Nat) (g : Ring → Ring) (s : State) : (updRing f r g s).ports = s.ports := rfl
@[simp] theorem updRing_bpcfg (f r : Nat) (g : Ring → Ring) (s : State) : (updRing f r g s).bpcfg = s.bpcfg := rfl
@[simp] theorem updRing_skim (f r : Nat) (g : Ring → Ring) (s : State) : (updRing f r g s).skim = s.skim := rfl
@[simp] theorem updRing_hawk (f r : Nat) (g : Ring → Ring) (s : State) : (updRing f r g s).hawk = s.hawk := rfl
@[simp] theorem updRing_trowel (f r : Nat) (g : Ring → Ring) (s : State) : (updRing f r g s).trowel = s.trowel := rfl
@[simp] theorem updRing_publ (f r : Nat) (g : Ring → Ring) (s : State) : (updRing f r g s).publ = s.publ := rfl
@[simp] theorem updRing_eng (f r : Nat) (g : Ring → Ring) (s : State) : (updRing f r g s).eng = s.eng := rfl
@[simp] theorem updRing_pke (f r : Nat) (g : Ring → Ring) (s : State) : (updRing f r g s).pke = s.pke := rfl
@[simp] theorem updRing_rng (f r : Nat) (g : Ring → Ring) (s : State) : (updRing f r g s).rng = s.rng := rfl
@[simp] theorem updRing_keys (f r : Nat) (g : Ring → Ring) (s : State) : (updRing f r g s).keys = s.keys := rfl
@[simp] theorem updRing_sealer (f r : Nat) (g : Ring → Ring) (s : State) : (updRing f r g s).sealer = s.sealer := rfl
@[simp] theorem updRing_tamper (f r : Nat) (g : Ring → Ring) (s : State) : (updRing f r g s).tamper = s.tamper := rfl
@[simp] theorem updRing_pair (f r : Nat) (g : Ring → Ring) (s : State) : (updRing f r g s).pair = s.pair := rfl
@[simp] theorem updRing_span (f r : Nat) (g : Ring → Ring) (s : State) : (updRing f r g s).span = s.span := rfl
@[simp] theorem updRing_log (f r : Nat) (g : Ring → Ring) (s : State) : (updRing f r g s).log = s.log := rfl
@[simp] theorem updRing_budget (f r : Nat) (g : Ring → Ring) (s : State) : (updRing f r g s).budget = s.budget := rfl
@[simp] theorem updRing_fw (f r : Nat) (g : Ring → Ring) (s : State) : (updRing f r g s).fw = s.fw := rfl
@[simp] theorem updRing_injected (f r : Nat) (g : Ring → Ring) (s : State) :
    (updRing f r g s).injected = s.injected := rfl
@[simp] theorem updRing_freeCtr (f r : Nat) (g : Ring → Ring) (s : State) :
    (updRing f r g s).freeCtr = s.freeCtr := rfl
@[simp] theorem updRing_outbox (f r : Nat) (g : Ring → Ring) (s : State) : (updRing f r g s).outbox = s.outbox := rfl
@[simp] theorem updRing_pending (f r : Nat) (g : Ring → Ring) (s : State) :
    (updRing f r g s).pending = s.pending := rfl

/-! updBp. -/

@[simp] theorem updBp_sys (b : Nat) (g : BpTime → BpTime) (s : State) : (updBp b g s).sys = s.sys := rfl
@[simp] theorem updBp_fns (b : Nat) (g : BpTime → BpTime) (s : State) : (updBp b g s).fns = s.fns := rfl
@[simp] theorem updBp_journal (b : Nat) (g : BpTime → BpTime) (s : State) : (updBp b g s).journal = s.journal := rfl
@[simp] theorem updBp_deferred (b : Nat) (g : BpTime → BpTime) (s : State) :
    (updBp b g s).deferred = s.deferred := rfl
@[simp] theorem updBp_time (b : Nat) (g : BpTime → BpTime) (s : State) :
    (updBp b g s).time = { s.time with bps := lupd s.time.bps b g } := rfl
@[simp] theorem updBp_ports (b : Nat) (g : BpTime → BpTime) (s : State) : (updBp b g s).ports = s.ports := rfl
@[simp] theorem updBp_bpcfg (b : Nat) (g : BpTime → BpTime) (s : State) : (updBp b g s).bpcfg = s.bpcfg := rfl
@[simp] theorem updBp_skim (b : Nat) (g : BpTime → BpTime) (s : State) : (updBp b g s).skim = s.skim := rfl
@[simp] theorem updBp_hawk (b : Nat) (g : BpTime → BpTime) (s : State) : (updBp b g s).hawk = s.hawk := rfl
@[simp] theorem updBp_trowel (b : Nat) (g : BpTime → BpTime) (s : State) : (updBp b g s).trowel = s.trowel := rfl
@[simp] theorem updBp_publ (b : Nat) (g : BpTime → BpTime) (s : State) : (updBp b g s).publ = s.publ := rfl
@[simp] theorem updBp_eng (b : Nat) (g : BpTime → BpTime) (s : State) : (updBp b g s).eng = s.eng := rfl
@[simp] theorem updBp_pke (b : Nat) (g : BpTime → BpTime) (s : State) : (updBp b g s).pke = s.pke := rfl
@[simp] theorem updBp_rng (b : Nat) (g : BpTime → BpTime) (s : State) : (updBp b g s).rng = s.rng := rfl
@[simp] theorem updBp_keys (b : Nat) (g : BpTime → BpTime) (s : State) : (updBp b g s).keys = s.keys := rfl
@[simp] theorem updBp_sealer (b : Nat) (g : BpTime → BpTime) (s : State) : (updBp b g s).sealer = s.sealer := rfl
@[simp] theorem updBp_tamper (b : Nat) (g : BpTime → BpTime) (s : State) : (updBp b g s).tamper = s.tamper := rfl
@[simp] theorem updBp_pair (b : Nat) (g : BpTime → BpTime) (s : State) : (updBp b g s).pair = s.pair := rfl
@[simp] theorem updBp_span (b : Nat) (g : BpTime → BpTime) (s : State) : (updBp b g s).span = s.span := rfl
@[simp] theorem updBp_log (b : Nat) (g : BpTime → BpTime) (s : State) : (updBp b g s).log = s.log := rfl
@[simp] theorem updBp_budget (b : Nat) (g : BpTime → BpTime) (s : State) : (updBp b g s).budget = s.budget := rfl
@[simp] theorem updBp_fw (b : Nat) (g : BpTime → BpTime) (s : State) : (updBp b g s).fw = s.fw := rfl
@[simp] theorem updBp_injected (b : Nat) (g : BpTime → BpTime) (s : State) :
    (updBp b g s).injected = s.injected := rfl
@[simp] theorem updBp_freeCtr (b : Nat) (g : BpTime → BpTime) (s : State) : (updBp b g s).freeCtr = s.freeCtr := rfl
@[simp] theorem updBp_outbox (b : Nat) (g : BpTime → BpTime) (s : State) : (updBp b g s).outbox = s.outbox := rfl
@[simp] theorem updBp_pending (b : Nat) (g : BpTime → BpTime) (s : State) : (updBp b g s).pending = s.pending := rfl

/-! updTrk. -/

@[simp] theorem updTrk_sys (b : Nat) (g : Tracker → Tracker) (s : State) : (updTrk b g s).sys = s.sys := rfl
@[simp] theorem updTrk_fns (b : Nat) (g : Tracker → Tracker) (s : State) : (updTrk b g s).fns = s.fns := rfl
@[simp] theorem updTrk_journal (b : Nat) (g : Tracker → Tracker) (s : State) :
    (updTrk b g s).journal = s.journal := rfl
@[simp] theorem updTrk_deferred (b : Nat) (g : Tracker → Tracker) (s : State) :
    (updTrk b g s).deferred = s.deferred := rfl
@[simp] theorem updTrk_time (b : Nat) (g : Tracker → Tracker) (s : State) :
    (updTrk b g s).time = { s.time with trk := lupd s.time.trk b g } := rfl
@[simp] theorem updTrk_ports (b : Nat) (g : Tracker → Tracker) (s : State) : (updTrk b g s).ports = s.ports := rfl
@[simp] theorem updTrk_bpcfg (b : Nat) (g : Tracker → Tracker) (s : State) : (updTrk b g s).bpcfg = s.bpcfg := rfl
@[simp] theorem updTrk_skim (b : Nat) (g : Tracker → Tracker) (s : State) : (updTrk b g s).skim = s.skim := rfl
@[simp] theorem updTrk_hawk (b : Nat) (g : Tracker → Tracker) (s : State) : (updTrk b g s).hawk = s.hawk := rfl
@[simp] theorem updTrk_trowel (b : Nat) (g : Tracker → Tracker) (s : State) : (updTrk b g s).trowel = s.trowel := rfl
@[simp] theorem updTrk_publ (b : Nat) (g : Tracker → Tracker) (s : State) : (updTrk b g s).publ = s.publ := rfl
@[simp] theorem updTrk_eng (b : Nat) (g : Tracker → Tracker) (s : State) : (updTrk b g s).eng = s.eng := rfl
@[simp] theorem updTrk_pke (b : Nat) (g : Tracker → Tracker) (s : State) : (updTrk b g s).pke = s.pke := rfl
@[simp] theorem updTrk_rng (b : Nat) (g : Tracker → Tracker) (s : State) : (updTrk b g s).rng = s.rng := rfl
@[simp] theorem updTrk_keys (b : Nat) (g : Tracker → Tracker) (s : State) : (updTrk b g s).keys = s.keys := rfl
@[simp] theorem updTrk_sealer (b : Nat) (g : Tracker → Tracker) (s : State) : (updTrk b g s).sealer = s.sealer := rfl
@[simp] theorem updTrk_tamper (b : Nat) (g : Tracker → Tracker) (s : State) : (updTrk b g s).tamper = s.tamper := rfl
@[simp] theorem updTrk_pair (b : Nat) (g : Tracker → Tracker) (s : State) : (updTrk b g s).pair = s.pair := rfl
@[simp] theorem updTrk_span (b : Nat) (g : Tracker → Tracker) (s : State) : (updTrk b g s).span = s.span := rfl
@[simp] theorem updTrk_log (b : Nat) (g : Tracker → Tracker) (s : State) : (updTrk b g s).log = s.log := rfl
@[simp] theorem updTrk_budget (b : Nat) (g : Tracker → Tracker) (s : State) : (updTrk b g s).budget = s.budget := rfl
@[simp] theorem updTrk_fw (b : Nat) (g : Tracker → Tracker) (s : State) : (updTrk b g s).fw = s.fw := rfl
@[simp] theorem updTrk_injected (b : Nat) (g : Tracker → Tracker) (s : State) :
    (updTrk b g s).injected = s.injected := rfl
@[simp] theorem updTrk_freeCtr (b : Nat) (g : Tracker → Tracker) (s : State) :
    (updTrk b g s).freeCtr = s.freeCtr := rfl
@[simp] theorem updTrk_outbox (b : Nat) (g : Tracker → Tracker) (s : State) : (updTrk b g s).outbox = s.outbox := rfl
@[simp] theorem updTrk_pending (b : Nat) (g : Tracker → Tracker) (s : State) :
    (updTrk b g s).pending = s.pending := rfl

/-! updPort. -/

@[simp] theorem updPort_sys (n : Nat) (g : Port → Port) (s : State) : (updPort n g s).sys = s.sys := rfl
@[simp] theorem updPort_fns (n : Nat) (g : Port → Port) (s : State) : (updPort n g s).fns = s.fns := rfl
@[simp] theorem updPort_journal (n : Nat) (g : Port → Port) (s : State) : (updPort n g s).journal = s.journal := rfl
@[simp] theorem updPort_deferred (n : Nat) (g : Port → Port) (s : State) :
    (updPort n g s).deferred = s.deferred := rfl
@[simp] theorem updPort_time (n : Nat) (g : Port → Port) (s : State) : (updPort n g s).time = s.time := rfl
@[simp] theorem updPort_ports (n : Nat) (g : Port → Port) (s : State) :
    (updPort n g s).ports = lupd s.ports n g := rfl
@[simp] theorem updPort_bpcfg (n : Nat) (g : Port → Port) (s : State) : (updPort n g s).bpcfg = s.bpcfg := rfl
@[simp] theorem updPort_skim (n : Nat) (g : Port → Port) (s : State) : (updPort n g s).skim = s.skim := rfl
@[simp] theorem updPort_hawk (n : Nat) (g : Port → Port) (s : State) : (updPort n g s).hawk = s.hawk := rfl
@[simp] theorem updPort_trowel (n : Nat) (g : Port → Port) (s : State) : (updPort n g s).trowel = s.trowel := rfl
@[simp] theorem updPort_publ (n : Nat) (g : Port → Port) (s : State) : (updPort n g s).publ = s.publ := rfl
@[simp] theorem updPort_eng (n : Nat) (g : Port → Port) (s : State) : (updPort n g s).eng = s.eng := rfl
@[simp] theorem updPort_pke (n : Nat) (g : Port → Port) (s : State) : (updPort n g s).pke = s.pke := rfl
@[simp] theorem updPort_rng (n : Nat) (g : Port → Port) (s : State) : (updPort n g s).rng = s.rng := rfl
@[simp] theorem updPort_keys (n : Nat) (g : Port → Port) (s : State) : (updPort n g s).keys = s.keys := rfl
@[simp] theorem updPort_sealer (n : Nat) (g : Port → Port) (s : State) : (updPort n g s).sealer = s.sealer := rfl
@[simp] theorem updPort_tamper (n : Nat) (g : Port → Port) (s : State) : (updPort n g s).tamper = s.tamper := rfl
@[simp] theorem updPort_pair (n : Nat) (g : Port → Port) (s : State) : (updPort n g s).pair = s.pair := rfl
@[simp] theorem updPort_span (n : Nat) (g : Port → Port) (s : State) : (updPort n g s).span = s.span := rfl
@[simp] theorem updPort_log (n : Nat) (g : Port → Port) (s : State) : (updPort n g s).log = s.log := rfl
@[simp] theorem updPort_budget (n : Nat) (g : Port → Port) (s : State) : (updPort n g s).budget = s.budget := rfl
@[simp] theorem updPort_fw (n : Nat) (g : Port → Port) (s : State) : (updPort n g s).fw = s.fw := rfl
@[simp] theorem updPort_injected (n : Nat) (g : Port → Port) (s : State) :
    (updPort n g s).injected = s.injected := rfl
@[simp] theorem updPort_freeCtr (n : Nat) (g : Port → Port) (s : State) : (updPort n g s).freeCtr = s.freeCtr := rfl
@[simp] theorem updPort_outbox (n : Nat) (g : Port → Port) (s : State) : (updPort n g s).outbox = s.outbox := rfl
@[simp] theorem updPort_pending (n : Nat) (g : Port → Port) (s : State) : (updPort n g s).pending = s.pending := rfl

/-! updCfg. -/

@[simp] theorem updCfg_sys (b : Nat) (g : BpCfg → BpCfg) (s : State) : (updCfg b g s).sys = s.sys := rfl
@[simp] theorem updCfg_fns (b : Nat) (g : BpCfg → BpCfg) (s : State) : (updCfg b g s).fns = s.fns := rfl
@[simp] theorem updCfg_journal (b : Nat) (g : BpCfg → BpCfg) (s : State) : (updCfg b g s).journal = s.journal := rfl
@[simp] theorem updCfg_deferred (b : Nat) (g : BpCfg → BpCfg) (s : State) :
    (updCfg b g s).deferred = s.deferred := rfl
@[simp] theorem updCfg_time (b : Nat) (g : BpCfg → BpCfg) (s : State) : (updCfg b g s).time = s.time := rfl
@[simp] theorem updCfg_ports (b : Nat) (g : BpCfg → BpCfg) (s : State) : (updCfg b g s).ports = s.ports := rfl
@[simp] theorem updCfg_bpcfg (b : Nat) (g : BpCfg → BpCfg) (s : State) :
    (updCfg b g s).bpcfg = lupd s.bpcfg b g := rfl
@[simp] theorem updCfg_skim (b : Nat) (g : BpCfg → BpCfg) (s : State) : (updCfg b g s).skim = s.skim := rfl
@[simp] theorem updCfg_hawk (b : Nat) (g : BpCfg → BpCfg) (s : State) : (updCfg b g s).hawk = s.hawk := rfl
@[simp] theorem updCfg_trowel (b : Nat) (g : BpCfg → BpCfg) (s : State) : (updCfg b g s).trowel = s.trowel := rfl
@[simp] theorem updCfg_publ (b : Nat) (g : BpCfg → BpCfg) (s : State) : (updCfg b g s).publ = s.publ := rfl
@[simp] theorem updCfg_eng (b : Nat) (g : BpCfg → BpCfg) (s : State) : (updCfg b g s).eng = s.eng := rfl
@[simp] theorem updCfg_pke (b : Nat) (g : BpCfg → BpCfg) (s : State) : (updCfg b g s).pke = s.pke := rfl
@[simp] theorem updCfg_rng (b : Nat) (g : BpCfg → BpCfg) (s : State) : (updCfg b g s).rng = s.rng := rfl
@[simp] theorem updCfg_keys (b : Nat) (g : BpCfg → BpCfg) (s : State) : (updCfg b g s).keys = s.keys := rfl
@[simp] theorem updCfg_sealer (b : Nat) (g : BpCfg → BpCfg) (s : State) : (updCfg b g s).sealer = s.sealer := rfl
@[simp] theorem updCfg_tamper (b : Nat) (g : BpCfg → BpCfg) (s : State) : (updCfg b g s).tamper = s.tamper := rfl
@[simp] theorem updCfg_pair (b : Nat) (g : BpCfg → BpCfg) (s : State) : (updCfg b g s).pair = s.pair := rfl
@[simp] theorem updCfg_span (b : Nat) (g : BpCfg → BpCfg) (s : State) : (updCfg b g s).span = s.span := rfl
@[simp] theorem updCfg_log (b : Nat) (g : BpCfg → BpCfg) (s : State) : (updCfg b g s).log = s.log := rfl
@[simp] theorem updCfg_budget (b : Nat) (g : BpCfg → BpCfg) (s : State) : (updCfg b g s).budget = s.budget := rfl
@[simp] theorem updCfg_fw (b : Nat) (g : BpCfg → BpCfg) (s : State) : (updCfg b g s).fw = s.fw := rfl
@[simp] theorem updCfg_injected (b : Nat) (g : BpCfg → BpCfg) (s : State) :
    (updCfg b g s).injected = s.injected := rfl
@[simp] theorem updCfg_freeCtr (b : Nat) (g : BpCfg → BpCfg) (s : State) : (updCfg b g s).freeCtr = s.freeCtr := rfl
@[simp] theorem updCfg_outbox (b : Nat) (g : BpCfg → BpCfg) (s : State) : (updCfg b g s).outbox = s.outbox := rfl
@[simp] theorem updCfg_pending (b : Nat) (g : BpCfg → BpCfg) (s : State) : (updCfg b g s).pending = s.pending := rfl

/-! updCtx. -/

@[simp] theorem updCtx_sys (k : Nat) (g : Ctx → Ctx) (s : State) : (updCtx k g s).sys = s.sys := rfl
@[simp] theorem updCtx_fns (k : Nat) (g : Ctx → Ctx) (s : State) : (updCtx k g s).fns = s.fns := rfl
@[simp] theorem updCtx_journal (k : Nat) (g : Ctx → Ctx) (s : State) : (updCtx k g s).journal = s.journal := rfl
@[simp] theorem updCtx_deferred (k : Nat) (g : Ctx → Ctx) (s : State) : (updCtx k g s).deferred = s.deferred := rfl
@[simp] theorem updCtx_time (k : Nat) (g : Ctx → Ctx) (s : State) : (updCtx k g s).time = s.time := rfl
@[simp] theorem updCtx_ports (k : Nat) (g : Ctx → Ctx) (s : State) : (updCtx k g s).ports = s.ports := rfl
@[simp] theorem updCtx_bpcfg (k : Nat) (g : Ctx → Ctx) (s : State) : (updCtx k g s).bpcfg = s.bpcfg := rfl
@[simp] theorem updCtx_skim (k : Nat) (g : Ctx → Ctx) (s : State) :
    (updCtx k g s).skim = { s.skim with ctx := mupd s.skim.ctx k g, dirty := if (mget (mupd s.skim.ctx k g) k).isSome then addOnce k s.skim.dirty else s.skim.dirty } := rfl
@[simp] theorem updCtx_hawk (k : Nat) (g : Ctx → Ctx) (s : State) : (updCtx k g s).hawk = s.hawk := rfl
@[simp] theorem updCtx_trowel (k : Nat) (g : Ctx → Ctx) (s : State) : (updCtx k g s).trowel = s.trowel := rfl
@[simp] theorem updCtx_publ (k : Nat) (g : Ctx → Ctx) (s : State) : (updCtx k g s).publ = s.publ := rfl
@[simp] theorem updCtx_eng (k : Nat) (g : Ctx → Ctx) (s : State) : (updCtx k g s).eng = s.eng := rfl
@[simp] theorem updCtx_pke (k : Nat) (g : Ctx → Ctx) (s : State) : (updCtx k g s).pke = s.pke := rfl
@[simp] theorem updCtx_rng (k : Nat) (g : Ctx → Ctx) (s : State) : (updCtx k g s).rng = s.rng := rfl
@[simp] theorem updCtx_keys (k : Nat) (g : Ctx → Ctx) (s : State) : (updCtx k g s).keys = s.keys := rfl
@[simp] theorem updCtx_sealer (k : Nat) (g : Ctx → Ctx) (s : State) : (updCtx k g s).sealer = s.sealer := rfl
@[simp] theorem updCtx_tamper (k : Nat) (g : Ctx → Ctx) (s : State) : (updCtx k g s).tamper = s.tamper := rfl
@[simp] theorem updCtx_pair (k : Nat) (g : Ctx → Ctx) (s : State) : (updCtx k g s).pair = s.pair := rfl
@[simp] theorem updCtx_span (k : Nat) (g : Ctx → Ctx) (s : State) : (updCtx k g s).span = s.span := rfl
@[simp] theorem updCtx_log (k : Nat) (g : Ctx → Ctx) (s : State) : (updCtx k g s).log = s.log := rfl
@[simp] theorem updCtx_budget (k : Nat) (g : Ctx → Ctx) (s : State) : (updCtx k g s).budget = s.budget := rfl
@[simp] theorem updCtx_fw (k : Nat) (g : Ctx → Ctx) (s : State) : (updCtx k g s).fw = s.fw := rfl
@[simp] theorem updCtx_injected (k : Nat) (g : Ctx → Ctx) (s : State) : (updCtx k g s).injected = s.injected := rfl
@[simp] theorem updCtx_freeCtr (k : Nat) (g : Ctx → Ctx) (s : State) : (updCtx k g s).freeCtr = s.freeCtr := rfl
@[simp] theorem updCtx_outbox (k : Nat) (g : Ctx → Ctx) (s : State) : (updCtx k g s).outbox = s.outbox := rfl
@[simp] theorem updCtx_pending (k : Nat) (g : Ctx → Ctx) (s : State) : (updCtx k g s).pending = s.pending := rfl

/-! updProg. -/

@[simp] theorem updProg_sys (p : Nat) (g : Prog → Prog) (s : State) : (updProg p g s).sys = s.sys := rfl
@[simp] theorem updProg_fns (p : Nat) (g : Prog → Prog) (s : State) : (updProg p g s).fns = s.fns := rfl
@[simp] theorem updProg_journal (p : Nat) (g : Prog → Prog) (s : State) : (updProg p g s).journal = s.journal := rfl
@[simp] theorem updProg_deferred (p : Nat) (g : Prog → Prog) (s : State) :
    (updProg p g s).deferred = s.deferred := rfl
@[simp] theorem updProg_time (p : Nat) (g : Prog → Prog) (s : State) : (updProg p g s).time = s.time := rfl
@[simp] theorem updProg_ports (p : Nat) (g : Prog → Prog) (s : State) : (updProg p g s).ports = s.ports := rfl
@[simp] theorem updProg_bpcfg (p : Nat) (g : Prog → Prog) (s : State) : (updProg p g s).bpcfg = s.bpcfg := rfl
@[simp] theorem updProg_skim (p : Nat) (g : Prog → Prog) (s : State) : (updProg p g s).skim = s.skim := rfl
@[simp] theorem updProg_hawk (p : Nat) (g : Prog → Prog) (s : State) : (updProg p g s).hawk = s.hawk := rfl
@[simp] theorem updProg_trowel (p : Nat) (g : Prog → Prog) (s : State) :
    (updProg p g s).trowel = { s.trowel with progs := mupd s.trowel.progs p g } := rfl
@[simp] theorem updProg_publ (p : Nat) (g : Prog → Prog) (s : State) : (updProg p g s).publ = s.publ := rfl
@[simp] theorem updProg_eng (p : Nat) (g : Prog → Prog) (s : State) : (updProg p g s).eng = s.eng := rfl
@[simp] theorem updProg_pke (p : Nat) (g : Prog → Prog) (s : State) : (updProg p g s).pke = s.pke := rfl
@[simp] theorem updProg_rng (p : Nat) (g : Prog → Prog) (s : State) : (updProg p g s).rng = s.rng := rfl
@[simp] theorem updProg_keys (p : Nat) (g : Prog → Prog) (s : State) : (updProg p g s).keys = s.keys := rfl
@[simp] theorem updProg_sealer (p : Nat) (g : Prog → Prog) (s : State) : (updProg p g s).sealer = s.sealer := rfl
@[simp] theorem updProg_tamper (p : Nat) (g : Prog → Prog) (s : State) : (updProg p g s).tamper = s.tamper := rfl
@[simp] theorem updProg_pair (p : Nat) (g : Prog → Prog) (s : State) : (updProg p g s).pair = s.pair := rfl
@[simp] theorem updProg_span (p : Nat) (g : Prog → Prog) (s : State) : (updProg p g s).span = s.span := rfl
@[simp] theorem updProg_log (p : Nat) (g : Prog → Prog) (s : State) : (updProg p g s).log = s.log := rfl
@[simp] theorem updProg_budget (p : Nat) (g : Prog → Prog) (s : State) : (updProg p g s).budget = s.budget := rfl
@[simp] theorem updProg_fw (p : Nat) (g : Prog → Prog) (s : State) : (updProg p g s).fw = s.fw := rfl
@[simp] theorem updProg_injected (p : Nat) (g : Prog → Prog) (s : State) :
    (updProg p g s).injected = s.injected := rfl
@[simp] theorem updProg_freeCtr (p : Nat) (g : Prog → Prog) (s : State) : (updProg p g s).freeCtr = s.freeCtr := rfl
@[simp] theorem updProg_outbox (p : Nat) (g : Prog → Prog) (s : State) : (updProg p g s).outbox = s.outbox := rfl
@[simp] theorem updProg_pending (p : Nat) (g : Prog → Prog) (s : State) : (updProg p g s).pending = s.pending := rfl

/-! updJ. -/

@[simp] theorem updJ_sys (t : Nat) (g : JEntry → JEntry) (s : State) : (updJ t g s).sys = s.sys := rfl
@[simp] theorem updJ_fns (t : Nat) (g : JEntry → JEntry) (s : State) : (updJ t g s).fns = s.fns := rfl
@[simp] theorem updJ_journal (t : Nat) (g : JEntry → JEntry) (s : State) :
    (updJ t g s).journal = mupd s.journal t g := rfl
@[simp] theorem updJ_deferred (t : Nat) (g : JEntry → JEntry) (s : State) : (updJ t g s).deferred = s.deferred := rfl
@[simp] theorem updJ_time (t : Nat) (g : JEntry → JEntry) (s : State) : (updJ t g s).time = s.time := rfl
@[simp] theorem updJ_ports (t : Nat) (g : JEntry → JEntry) (s : State) : (updJ t g s).ports = s.ports := rfl
@[simp] theorem updJ_bpcfg (t : Nat) (g : JEntry → JEntry) (s : State) : (updJ t g s).bpcfg = s.bpcfg := rfl
@[simp] theorem updJ_skim (t : Nat) (g : JEntry → JEntry) (s : State) : (updJ t g s).skim = s.skim := rfl
@[simp] theorem updJ_hawk (t : Nat) (g : JEntry → JEntry) (s : State) : (updJ t g s).hawk = s.hawk := rfl
@[simp] theorem updJ_trowel (t : Nat) (g : JEntry → JEntry) (s : State) : (updJ t g s).trowel = s.trowel := rfl
@[simp] theorem updJ_publ (t : Nat) (g : JEntry → JEntry) (s : State) : (updJ t g s).publ = s.publ := rfl
@[simp] theorem updJ_eng (t : Nat) (g : JEntry → JEntry) (s : State) : (updJ t g s).eng = s.eng := rfl
@[simp] theorem updJ_pke (t : Nat) (g : JEntry → JEntry) (s : State) : (updJ t g s).pke = s.pke := rfl
@[simp] theorem updJ_rng (t : Nat) (g : JEntry → JEntry) (s : State) : (updJ t g s).rng = s.rng := rfl
@[simp] theorem updJ_keys (t : Nat) (g : JEntry → JEntry) (s : State) : (updJ t g s).keys = s.keys := rfl
@[simp] theorem updJ_sealer (t : Nat) (g : JEntry → JEntry) (s : State) : (updJ t g s).sealer = s.sealer := rfl
@[simp] theorem updJ_tamper (t : Nat) (g : JEntry → JEntry) (s : State) : (updJ t g s).tamper = s.tamper := rfl
@[simp] theorem updJ_pair (t : Nat) (g : JEntry → JEntry) (s : State) : (updJ t g s).pair = s.pair := rfl
@[simp] theorem updJ_span (t : Nat) (g : JEntry → JEntry) (s : State) : (updJ t g s).span = s.span := rfl
@[simp] theorem updJ_log (t : Nat) (g : JEntry → JEntry) (s : State) : (updJ t g s).log = s.log := rfl
@[simp] theorem updJ_budget (t : Nat) (g : JEntry → JEntry) (s : State) : (updJ t g s).budget = s.budget := rfl
@[simp] theorem updJ_fw (t : Nat) (g : JEntry → JEntry) (s : State) : (updJ t g s).fw = s.fw := rfl
@[simp] theorem updJ_injected (t : Nat) (g : JEntry → JEntry) (s : State) : (updJ t g s).injected = s.injected := rfl
@[simp] theorem updJ_freeCtr (t : Nat) (g : JEntry → JEntry) (s : State) : (updJ t g s).freeCtr = s.freeCtr := rfl
@[simp] theorem updJ_outbox (t : Nat) (g : JEntry → JEntry) (s : State) : (updJ t g s).outbox = s.outbox := rfl
@[simp] theorem updJ_pending (t : Nat) (g : JEntry → JEntry) (s : State) : (updJ t g s).pending = s.pending := rfl

/-! updReg. -/

@[simp] theorem updReg_sys (r : Nat) (g : Region → Region) (s : State) : (updReg r g s).sys = s.sys := rfl
@[simp] theorem updReg_fns (r : Nat) (g : Region → Region) (s : State) : (updReg r g s).fns = s.fns := rfl
@[simp] theorem updReg_journal (r : Nat) (g : Region → Region) (s : State) : (updReg r g s).journal = s.journal := rfl
@[simp] theorem updReg_deferred (r : Nat) (g : Region → Region) (s : State) :
    (updReg r g s).deferred = s.deferred := rfl
@[simp] theorem updReg_time (r : Nat) (g : Region → Region) (s : State) : (updReg r g s).time = s.time := rfl
@[simp] theorem updReg_ports (r : Nat) (g : Region → Region) (s : State) : (updReg r g s).ports = s.ports := rfl
@[simp] theorem updReg_bpcfg (r : Nat) (g : Region → Region) (s : State) : (updReg r g s).bpcfg = s.bpcfg := rfl
@[simp] theorem updReg_skim (r : Nat) (g : Region → Region) (s : State) : (updReg r g s).skim = s.skim := rfl
@[simp] theorem updReg_hawk (r : Nat) (g : Region → Region) (s : State) : (updReg r g s).hawk = s.hawk := rfl
@[simp] theorem updReg_trowel (r : Nat) (g : Region → Region) (s : State) : (updReg r g s).trowel = s.trowel := rfl
@[simp] theorem updReg_publ (r : Nat) (g : Region → Region) (s : State) : (updReg r g s).publ = s.publ := rfl
@[simp] theorem updReg_eng (r : Nat) (g : Region → Region) (s : State) : (updReg r g s).eng = s.eng := rfl
@[simp] theorem updReg_pke (r : Nat) (g : Region → Region) (s : State) : (updReg r g s).pke = s.pke := rfl
@[simp] theorem updReg_rng (r : Nat) (g : Region → Region) (s : State) : (updReg r g s).rng = s.rng := rfl
@[simp] theorem updReg_keys (r : Nat) (g : Region → Region) (s : State) : (updReg r g s).keys = s.keys := rfl
@[simp] theorem updReg_sealer (r : Nat) (g : Region → Region) (s : State) :
    (updReg r g s).sealer = { s.sealer with regs := lupd s.sealer.regs r g } := rfl
@[simp] theorem updReg_tamper (r : Nat) (g : Region → Region) (s : State) : (updReg r g s).tamper = s.tamper := rfl
@[simp] theorem updReg_pair (r : Nat) (g : Region → Region) (s : State) : (updReg r g s).pair = s.pair := rfl
@[simp] theorem updReg_span (r : Nat) (g : Region → Region) (s : State) : (updReg r g s).span = s.span := rfl
@[simp] theorem updReg_log (r : Nat) (g : Region → Region) (s : State) : (updReg r g s).log = s.log := rfl
@[simp] theorem updReg_budget (r : Nat) (g : Region → Region) (s : State) : (updReg r g s).budget = s.budget := rfl
@[simp] theorem updReg_fw (r : Nat) (g : Region → Region) (s : State) : (updReg r g s).fw = s.fw := rfl
@[simp] theorem updReg_injected (r : Nat) (g : Region → Region) (s : State) :
    (updReg r g s).injected = s.injected := rfl
@[simp] theorem updReg_freeCtr (r : Nat) (g : Region → Region) (s : State) : (updReg r g s).freeCtr = s.freeCtr := rfl
@[simp] theorem updReg_outbox (r : Nat) (g : Region → Region) (s : State) : (updReg r g s).outbox = s.outbox := rfl
@[simp] theorem updReg_pending (r : Nat) (g : Region → Region) (s : State) : (updReg r g s).pending = s.pending := rfl

/-! updVol. -/

@[simp] theorem updVol_sys (g : Volume → Volume) (s : State) : (updVol g s).sys = s.sys := rfl
@[simp] theorem updVol_fns (g : Volume → Volume) (s : State) : (updVol g s).fns = s.fns := rfl
@[simp] theorem updVol_journal (g : Volume → Volume) (s : State) : (updVol g s).journal = s.journal := rfl
@[simp] theorem updVol_deferred (g : Volume → Volume) (s : State) : (updVol g s).deferred = s.deferred := rfl
@[simp] theorem updVol_time (g : Volume → Volume) (s : State) : (updVol g s).time = s.time := rfl
@[simp] theorem updVol_ports (g : Volume → Volume) (s : State) : (updVol g s).ports = s.ports := rfl
@[simp] theorem updVol_bpcfg (g : Volume → Volume) (s : State) : (updVol g s).bpcfg = s.bpcfg := rfl
@[simp] theorem updVol_skim (g : Volume → Volume) (s : State) : (updVol g s).skim = s.skim := rfl
@[simp] theorem updVol_hawk (g : Volume → Volume) (s : State) : (updVol g s).hawk = s.hawk := rfl
@[simp] theorem updVol_trowel (g : Volume → Volume) (s : State) : (updVol g s).trowel = s.trowel := rfl
@[simp] theorem updVol_publ (g : Volume → Volume) (s : State) : (updVol g s).publ = s.publ := rfl
@[simp] theorem updVol_eng (g : Volume → Volume) (s : State) : (updVol g s).eng = s.eng := rfl
@[simp] theorem updVol_pke (g : Volume → Volume) (s : State) : (updVol g s).pke = s.pke := rfl
@[simp] theorem updVol_rng (g : Volume → Volume) (s : State) : (updVol g s).rng = s.rng := rfl
@[simp] theorem updVol_keys (g : Volume → Volume) (s : State) : (updVol g s).keys = s.keys := rfl
@[simp] theorem updVol_sealer (g : Volume → Volume) (s : State) :
    (updVol g s).sealer = { s.sealer with vol := g s.sealer.vol } := rfl
@[simp] theorem updVol_tamper (g : Volume → Volume) (s : State) : (updVol g s).tamper = s.tamper := rfl
@[simp] theorem updVol_pair (g : Volume → Volume) (s : State) : (updVol g s).pair = s.pair := rfl
@[simp] theorem updVol_span (g : Volume → Volume) (s : State) : (updVol g s).span = s.span := rfl
@[simp] theorem updVol_log (g : Volume → Volume) (s : State) : (updVol g s).log = s.log := rfl
@[simp] theorem updVol_budget (g : Volume → Volume) (s : State) : (updVol g s).budget = s.budget := rfl
@[simp] theorem updVol_fw (g : Volume → Volume) (s : State) : (updVol g s).fw = s.fw := rfl
@[simp] theorem updVol_injected (g : Volume → Volume) (s : State) : (updVol g s).injected = s.injected := rfl
@[simp] theorem updVol_freeCtr (g : Volume → Volume) (s : State) : (updVol g s).freeCtr = s.freeCtr := rfl
@[simp] theorem updVol_outbox (g : Volume → Volume) (s : State) : (updVol g s).outbox = s.outbox := rfl
@[simp] theorem updVol_pending (g : Volume → Volume) (s : State) : (updVol g s).pending = s.pending := rfl

/-! updLink. -/

@[simp] theorem updLink_sys (l : Nat) (g : SpanLink → SpanLink) (s : State) : (updLink l g s).sys = s.sys := rfl
@[simp] theorem updLink_fns (l : Nat) (g : SpanLink → SpanLink) (s : State) : (updLink l g s).fns = s.fns := rfl
@[simp] theorem updLink_journal (l : Nat) (g : SpanLink → SpanLink) (s : State) :
    (updLink l g s).journal = s.journal := rfl
@[simp] theorem updLink_deferred (l : Nat) (g : SpanLink → SpanLink) (s : State) :
    (updLink l g s).deferred = s.deferred := rfl
@[simp] theorem updLink_time (l : Nat) (g : SpanLink → SpanLink) (s : State) : (updLink l g s).time = s.time := rfl
@[simp] theorem updLink_ports (l : Nat) (g : SpanLink → SpanLink) (s : State) : (updLink l g s).ports = s.ports := rfl
@[simp] theorem updLink_bpcfg (l : Nat) (g : SpanLink → SpanLink) (s : State) : (updLink l g s).bpcfg = s.bpcfg := rfl
@[simp] theorem updLink_skim (l : Nat) (g : SpanLink → SpanLink) (s : State) : (updLink l g s).skim = s.skim := rfl
@[simp] theorem updLink_hawk (l : Nat) (g : SpanLink → SpanLink) (s : State) : (updLink l g s).hawk = s.hawk := rfl
@[simp] theorem updLink_trowel (l : Nat) (g : SpanLink → SpanLink) (s : State) :
    (updLink l g s).trowel = s.trowel := rfl
@[simp] theorem updLink_publ (l : Nat) (g : SpanLink → SpanLink) (s : State) : (updLink l g s).publ = s.publ := rfl
@[simp] theorem updLink_eng (l : Nat) (g : SpanLink → SpanLink) (s : State) : (updLink l g s).eng = s.eng := rfl
@[simp] theorem updLink_pke (l : Nat) (g : SpanLink → SpanLink) (s : State) : (updLink l g s).pke = s.pke := rfl
@[simp] theorem updLink_rng (l : Nat) (g : SpanLink → SpanLink) (s : State) : (updLink l g s).rng = s.rng := rfl
@[simp] theorem updLink_keys (l : Nat) (g : SpanLink → SpanLink) (s : State) : (updLink l g s).keys = s.keys := rfl
@[simp] theorem updLink_sealer (l : Nat) (g : SpanLink → SpanLink) (s : State) :
    (updLink l g s).sealer = s.sealer := rfl
@[simp] theorem updLink_tamper (l : Nat) (g : SpanLink → SpanLink) (s : State) :
    (updLink l g s).tamper = s.tamper := rfl
@[simp] theorem updLink_pair (l : Nat) (g : SpanLink → SpanLink) (s : State) : (updLink l g s).pair = s.pair := rfl
@[simp] theorem updLink_span (l : Nat) (g : SpanLink → SpanLink) (s : State) :
    (updLink l g s).span = { s.span with links := lupd s.span.links l g } := rfl
@[simp] theorem updLink_log (l : Nat) (g : SpanLink → SpanLink) (s : State) : (updLink l g s).log = s.log := rfl
@[simp] theorem updLink_budget (l : Nat) (g : SpanLink → SpanLink) (s : State) :
    (updLink l g s).budget = s.budget := rfl
@[simp] theorem updLink_fw (l : Nat) (g : SpanLink → SpanLink) (s : State) : (updLink l g s).fw = s.fw := rfl
@[simp] theorem updLink_injected (l : Nat) (g : SpanLink → SpanLink) (s : State) :
    (updLink l g s).injected = s.injected := rfl
@[simp] theorem updLink_freeCtr (l : Nat) (g : SpanLink → SpanLink) (s : State) :
    (updLink l g s).freeCtr = s.freeCtr := rfl
@[simp] theorem updLink_outbox (l : Nat) (g : SpanLink → SpanLink) (s : State) :
    (updLink l g s).outbox = s.outbox := rfl
@[simp] theorem updLink_pending (l : Nat) (g : SpanLink → SpanLink) (s : State) :
    (updLink l g s).pending = s.pending := rfl

/-! updSrc. -/

@[simp] theorem updSrc_sys (i : Nat) (g : TmpSrc → TmpSrc) (s : State) : (updSrc i g s).sys = s.sys := rfl
@[simp] theorem updSrc_fns (i : Nat) (g : TmpSrc → TmpSrc) (s : State) : (updSrc i g s).fns = s.fns := rfl
@[simp] theorem updSrc_journal (i : Nat) (g : TmpSrc → TmpSrc) (s : State) : (updSrc i g s).journal = s.journal := rfl
@[simp] theorem updSrc_deferred (i : Nat) (g : TmpSrc → TmpSrc) (s : State) :
    (updSrc i g s).deferred = s.deferred := rfl
@[simp] theorem updSrc_time (i : Nat) (g : TmpSrc → TmpSrc) (s : State) : (updSrc i g s).time = s.time := rfl
@[simp] theorem updSrc_ports (i : Nat) (g : TmpSrc → TmpSrc) (s : State) : (updSrc i g s).ports = s.ports := rfl
@[simp] theorem updSrc_bpcfg (i : Nat) (g : TmpSrc → TmpSrc) (s : State) : (updSrc i g s).bpcfg = s.bpcfg := rfl
@[simp] theorem updSrc_skim (i : Nat) (g : TmpSrc → TmpSrc) (s : State) : (updSrc i g s).skim = s.skim := rfl
@[simp] theorem updSrc_hawk (i : Nat) (g : TmpSrc → TmpSrc) (s : State) : (updSrc i g s).hawk = s.hawk := rfl
@[simp] theorem updSrc_trowel (i : Nat) (g : TmpSrc → TmpSrc) (s : State) : (updSrc i g s).trowel = s.trowel := rfl
@[simp] theorem updSrc_publ (i : Nat) (g : TmpSrc → TmpSrc) (s : State) : (updSrc i g s).publ = s.publ := rfl
@[simp] theorem updSrc_eng (i : Nat) (g : TmpSrc → TmpSrc) (s : State) : (updSrc i g s).eng = s.eng := rfl
@[simp] theorem updSrc_pke (i : Nat) (g : TmpSrc → TmpSrc) (s : State) : (updSrc i g s).pke = s.pke := rfl
@[simp] theorem updSrc_rng (i : Nat) (g : TmpSrc → TmpSrc) (s : State) : (updSrc i g s).rng = s.rng := rfl
@[simp] theorem updSrc_keys (i : Nat) (g : TmpSrc → TmpSrc) (s : State) : (updSrc i g s).keys = s.keys := rfl
@[simp] theorem updSrc_sealer (i : Nat) (g : TmpSrc → TmpSrc) (s : State) : (updSrc i g s).sealer = s.sealer := rfl
@[simp] theorem updSrc_tamper (i : Nat) (g : TmpSrc → TmpSrc) (s : State) :
    (updSrc i g s).tamper = { s.tamper with srcs := lupd s.tamper.srcs i g } := rfl
@[simp] theorem updSrc_pair (i : Nat) (g : TmpSrc → TmpSrc) (s : State) : (updSrc i g s).pair = s.pair := rfl
@[simp] theorem updSrc_span (i : Nat) (g : TmpSrc → TmpSrc) (s : State) : (updSrc i g s).span = s.span := rfl
@[simp] theorem updSrc_log (i : Nat) (g : TmpSrc → TmpSrc) (s : State) : (updSrc i g s).log = s.log := rfl
@[simp] theorem updSrc_budget (i : Nat) (g : TmpSrc → TmpSrc) (s : State) : (updSrc i g s).budget = s.budget := rfl
@[simp] theorem updSrc_fw (i : Nat) (g : TmpSrc → TmpSrc) (s : State) : (updSrc i g s).fw = s.fw := rfl
@[simp] theorem updSrc_injected (i : Nat) (g : TmpSrc → TmpSrc) (s : State) :
    (updSrc i g s).injected = s.injected := rfl
@[simp] theorem updSrc_freeCtr (i : Nat) (g : TmpSrc → TmpSrc) (s : State) : (updSrc i g s).freeCtr = s.freeCtr := rfl
@[simp] theorem updSrc_outbox (i : Nat) (g : TmpSrc → TmpSrc) (s : State) : (updSrc i g s).outbox = s.outbox := rfl
@[simp] theorem updSrc_pending (i : Nat) (g : TmpSrc → TmpSrc) (s : State) : (updSrc i g s).pending = s.pending := rfl

/-! updUnit. -/

@[simp] theorem updUnit_sys (i : Nat) (g : PkeUnit → PkeUnit) (s : State) : (updUnit i g s).sys = s.sys := rfl
@[simp] theorem updUnit_fns (i : Nat) (g : PkeUnit → PkeUnit) (s : State) : (updUnit i g s).fns = s.fns := rfl
@[simp] theorem updUnit_journal (i : Nat) (g : PkeUnit → PkeUnit) (s : State) :
    (updUnit i g s).journal = s.journal := rfl
@[simp] theorem updUnit_deferred (i : Nat) (g : PkeUnit → PkeUnit) (s : State) :
    (updUnit i g s).deferred = s.deferred := rfl
@[simp] theorem updUnit_time (i : Nat) (g : PkeUnit → PkeUnit) (s : State) : (updUnit i g s).time = s.time := rfl
@[simp] theorem updUnit_ports (i : Nat) (g : PkeUnit → PkeUnit) (s : State) : (updUnit i g s).ports = s.ports := rfl
@[simp] theorem updUnit_bpcfg (i : Nat) (g : PkeUnit → PkeUnit) (s : State) : (updUnit i g s).bpcfg = s.bpcfg := rfl
@[simp] theorem updUnit_skim (i : Nat) (g : PkeUnit → PkeUnit) (s : State) : (updUnit i g s).skim = s.skim := rfl
@[simp] theorem updUnit_hawk (i : Nat) (g : PkeUnit → PkeUnit) (s : State) : (updUnit i g s).hawk = s.hawk := rfl
@[simp] theorem updUnit_trowel (i : Nat) (g : PkeUnit → PkeUnit) (s : State) :
    (updUnit i g s).trowel = s.trowel := rfl
@[simp] theorem updUnit_publ (i : Nat) (g : PkeUnit → PkeUnit) (s : State) : (updUnit i g s).publ = s.publ := rfl
@[simp] theorem updUnit_eng (i : Nat) (g : PkeUnit → PkeUnit) (s : State) : (updUnit i g s).eng = s.eng := rfl
@[simp] theorem updUnit_pke (i : Nat) (g : PkeUnit → PkeUnit) (s : State) :
    (updUnit i g s).pke = { s.pke with units := lupd s.pke.units i g } := rfl
@[simp] theorem updUnit_rng (i : Nat) (g : PkeUnit → PkeUnit) (s : State) : (updUnit i g s).rng = s.rng := rfl
@[simp] theorem updUnit_keys (i : Nat) (g : PkeUnit → PkeUnit) (s : State) : (updUnit i g s).keys = s.keys := rfl
@[simp] theorem updUnit_sealer (i : Nat) (g : PkeUnit → PkeUnit) (s : State) :
    (updUnit i g s).sealer = s.sealer := rfl
@[simp] theorem updUnit_tamper (i : Nat) (g : PkeUnit → PkeUnit) (s : State) :
    (updUnit i g s).tamper = s.tamper := rfl
@[simp] theorem updUnit_pair (i : Nat) (g : PkeUnit → PkeUnit) (s : State) : (updUnit i g s).pair = s.pair := rfl
@[simp] theorem updUnit_span (i : Nat) (g : PkeUnit → PkeUnit) (s : State) : (updUnit i g s).span = s.span := rfl
@[simp] theorem updUnit_log (i : Nat) (g : PkeUnit → PkeUnit) (s : State) : (updUnit i g s).log = s.log := rfl
@[simp] theorem updUnit_budget (i : Nat) (g : PkeUnit → PkeUnit) (s : State) :
    (updUnit i g s).budget = s.budget := rfl
@[simp] theorem updUnit_fw (i : Nat) (g : PkeUnit → PkeUnit) (s : State) : (updUnit i g s).fw = s.fw := rfl
@[simp] theorem updUnit_injected (i : Nat) (g : PkeUnit → PkeUnit) (s : State) :
    (updUnit i g s).injected = s.injected := rfl
@[simp] theorem updUnit_freeCtr (i : Nat) (g : PkeUnit → PkeUnit) (s : State) :
    (updUnit i g s).freeCtr = s.freeCtr := rfl
@[simp] theorem updUnit_outbox (i : Nat) (g : PkeUnit → PkeUnit) (s : State) :
    (updUnit i g s).outbox = s.outbox := rfl
@[simp] theorem updUnit_pending (i : Nat) (g : PkeUnit → PkeUnit) (s : State) :
    (updUnit i g s).pending = s.pending := rfl

end Sys2Proof.Machine
end

