-- ==== Sys2Proof/WellFormed.lean ====
section
/-! DEFINITION. WellFormed.lean: which commands can arrive at all: operands inside the ranges that the spec gives their
fields. The meanings do not assume it; they are total. -/
namespace Sys2Proof

/-- A submission entry has sixteen words (R360), comes from PF0 or VF 1 to 64 (R317) on queue pair 0 to 15 (R352), and
carries the opcode of its row. -/
def Cmd.wf (opc : Nat) (c : Cmd) : Bool :=
  decide (c.fn ≤ 64) && decide (c.qp < 16) && decide (c.words.length = 16) && decide ((c.words.getD 0 0).toNat % 65536 = opc)

/-- A submission entry of any opcode. -/
def Cmd.anyWf (c : Cmd) : Bool := Cmd.wf ((c.words.getD 0 0).toNat % 65536) c

/-- A program number (R216). -/
def progWf (p : Nat) : Bool := decide (p < 512)

/-- A bus pair (R88), a port (R88), a function (R317), a Lath data word (R510). -/
def bpWf (b : Nat) : Bool := decide (b < 4)
def portWf (n : Nat) : Bool := decide (n < 8)
def fnWf (f : Nat) : Bool := decide (f ≤ 64)
def lathWf (w : LathWord) : Bool := decide (w.data.length = 16)

/-- A register address of a function's window: word aligned (R11). -/
def regWf (off : Nat) : Bool := decide (off % 4 = 0) && decide (off < 65536)

/-- A frame: 48-bit addresses, tag controls of 16 bits (R92), RCT and HSR sequence numbers of 16 bits (R100, R102). -/
def RxFrame.wf (f : RxFrame) : Bool :=
  decide (f.dst < 2 ^ 48) && decide (f.src < 2 ^ 48) && f.ctags.all (fun t => decide (t < 65536)) &&
  (match f.rct with | some (n, l) => decide (n < 65536) && decide (l < 16) | none => true) &&
  (match f.hsr with | some n => decide (n < 65536) | none => true)

/-- A flit carries fourteen words (R310, R630). -/
def Flit.wf (f : Flit) : Bool := decide (f.words.length = 14) && f.words.all lathWf

/-- Special registers 0 to 7 (R254). -/
def srWf (n : Fld4) : Bool := decide (n.toNat < 8)

/-- A tamper source (R544). -/
def srcWf (n : Nat) : Bool := decide (n < 18)

/-- Quality flags of a row (R191). -/
def Row.wf (r : Row) : Bool := decide (r.vals.length = 8) && decide (r.qual.length = 8) && decide (r.rstat < 16)

/-- The command's operands lie in the ranges of their fields. -/
def Instr.wf : Instr → Bool
  | .sysInfo c => Cmd.wf 0x0001 c
  | .sysQcreate c => Cmd.wf 0x0010 c
  | .sysQdelete c => Cmd.wf 0x0011 c
  | .sysLedger c => Cmd.wf 0x0012 c
  | .sysTimecfg c => Cmd.wf 0x0020 c
  | .sysTimestep c => Cmd.wf 0x0021 c
  | .sysPortcfg c => Cmd.wf 0x0030 c
  | .sysHostcfg c => Cmd.wf 0x0040 c
  | .sysFnmap c => Cmd.wf 0x0041 c
  | .sysDadoinv c => Cmd.wf 0x0042 c
  | .sysFnreset c => Cmd.wf 0x0043 c
  | .cmdAbort c => Cmd.wf 0x0F01 c
  | .streamMrate c => Cmd.wf 0x1001 c
  | .streamCycref c => Cmd.wf 0x1002 c
  | .streamSub c => Cmd.wf 0x1003 c
  | .streamUnsub c => Cmd.wf 0x1004 c
  | .streamKeys c => Cmd.wf 0x1005 c
  | .streamStats c => Cmd.wf 0x1006 c
  | .sheetHistory c => Cmd.wf 0x2001 c
  | .sheetGroup c => Cmd.wf 0x2002 c
  | .sheetKey c => Cmd.wf 0x2003 c
  | .sheetRing c => Cmd.wf 0x2004 c
  | .sheetView c => Cmd.wf 0x2005 c
  | .trowelLoad c => Cmd.wf 0x3001 c
  | .trowelBind c => Cmd.wf 0x3002 c
  | .trowelStart c => Cmd.wf 0x3003 c
  | .trowelStop c => Cmd.wf 0x3004 c
  | .trowelUnload c => Cmd.wf 0x3005 c
  | .trowelMbsend c => Cmd.wf 0x3006 c
  | .trowelRetire c => Cmd.wf 0x3007 c
  | .pubOpen c => Cmd.wf 0x4001 c
  | .pubClose c => Cmd.wf 0x4002 c
  | .pubSend c => Cmd.wf 0x4003 c
  | .pubCurve c => Cmd.wf 0x4004 c
  | .pubStats c => Cmd.wf 0x4005 c
  | .cphOpen c => Cmd.wf 0x5001 c
  | .cphClose c => Cmd.wf 0x5002 c
  | .cphRun c => Cmd.wf 0x5003 c
  | .cphSave c => Cmd.wf 0x5004 c
  | .cphRestore c => Cmd.wf 0x5005 c
  | .hshDigest c => Cmd.wf 0x6001 c
  | .hshMac c => Cmd.wf 0x6002 c
  | .hshOpen c => Cmd.wf 0x6003 c
  | .hshUpdate c => Cmd.wf 0x6004 c
  | .hshFinal c => Cmd.wf 0x6005 c
  | .pkeSign c => Cmd.wf 0x7001 c
  | .pkeVerify c => Cmd.wf 0x7002 c
  | .pkeAgree c => Cmd.wf 0x7003 c
  | .pkeEncap c => Cmd.wf 0x7004 c
  | .pkeDecap c => Cmd.wf 0x7005 c
  | .pkeKeygen c => Cmd.wf 0x7006 c
  | .rngGet c => Cmd.wf 0x8001 c
  | .rngReseed c => Cmd.wf 0x8002 c
  | .rngPattern c => Cmd.wf 0x8003 c
  | .keyApply c => Cmd.wf 0x9001 c
  | .keyInfo c => Cmd.wf 0x9002 c
  | .keyTarget c => Cmd.wf 0x9003 c
  | .recTrig c => Cmd.wf 0xA001 c
  | .recFire c => Cmd.wf 0xA002 c
  | .recLock c => Cmd.wf 0xA003 c
  | .recList c => Cmd.wf 0xA004 c
  | .volAttach c => Cmd.wf 0xA010 c
  | .volIo c => Cmd.wf 0xA011 c
  | .volRead c => Cmd.wf 0xA012 c
  | .volRekey c => Cmd.wf 0xA013 c
  | .pairCfg c => Cmd.wf 0xB001 c
  | .pairStatus c => Cmd.wf 0xB002 c
  | .pairHandover c => Cmd.wf 0xB003 c
  | .pairRenumber c => Cmd.wf 0xB004 c
  | .logRead c => Cmd.wf 0xC001 c
  | .logPolicy c => Cmd.wf 0xC002 c
  | .logClear c => Cmd.wf 0xC003 c
  | .svcEnter c => Cmd.wf 0xD001 c
  | .svcExit c => Cmd.wf 0xD002 c
  | .svcChallenge c => Cmd.wf 0xD003 c
  | .svcOfficer c => Cmd.wf 0xD004 c
  | .svcTamper c => Cmd.wf 0xD005 c
  | .svcFlagclear c => Cmd.wf 0xD006 c
  | .svcEnrol c => Cmd.wf 0xD007 c
  | .svcRelease c => Cmd.wf 0xD008 c
  | .svcAttest c => Cmd.wf 0xD009 c
  | .svcFwloadImage c => Cmd.wf 0xD00A c
  | .svcFwloadBudget c => Cmd.wf 0xD00A c
  | .svcFwloadTrims c => Cmd.wf 0xD00A c
  | .svcFwloadServo c => Cmd.wf 0xD00A c
  | .spanCfg c => Cmd.wf 0xE001 c
  | .spanStatus c => Cmd.wf 0xE002 c
  | .spanRoute c => Cmd.wf 0xE003 c
  | .spanOutcome c => Cmd.wf 0xE004 c
  | .diagKat c => Cmd.wf 0xF001 c
  | .diagSelftest c => Cmd.wf 0xF002 c
  | .diagInject c => Cmd.wf 0xF003 c
  | .commandFetch fn qp _ => fnWf fn && decide (qp < 16)
  | .completionWrite fn qp => fnWf fn && decide (qp < 16)
  | .configTakeEffect => true
  | .safePointStop _ => true
  | .budgetWaitExceeded _ => true
  | .engineWorkDone _ => true
  | .pkeResultReady unit => decide (unit < 4)
  | .pkeWipeDone unit => decide (unit < 4)
  | .add p _ _ _ _ => progWf p
  | .sub p _ _ _ _ => progWf p
  | .adds p _ _ _ _ => progWf p
  | .subs p _ _ _ _ => progWf p
  | .and p _ _ _ _ => progWf p
  | .or p _ _ _ _ => progWf p
  | .xor p _ _ _ _ => progWf p
  | .andn p _ _ _ _ => progWf p
  | .shl p _ _ _ _ => progWf p
  | .shr p _ _ _ _ => progWf p
  | .sar p _ _ _ _ => progWf p
  | .abs p _ _ _ => progWf p
  | .min p _ _ _ _ => progWf p
  | .max p _ _ _ _ => progWf p
  | .minu p _ _ _ _ => progWf p
  | .maxu p _ _ _ _ => progWf p
  | .clz p _ _ _ => progWf p
  | .mul p _ _ _ _ => progWf p
  | .mulh p _ _ _ _ => progWf p
  | .mulhu p _ _ _ _ => progWf p
  | .addi p _ _ _ => progWf p
  | .andi p _ _ _ => progWf p
  | .ori p _ _ _ => progWf p
  | .xori p _ _ _ => progWf p
  | .shli p _ _ _ => progWf p
  | .shri p _ _ _ => progWf p
  | .sari p _ _ _ => progWf p
  | .lui p _ _ => progWf p
  | .cmpi p _ _ => progWf p
  | .ldW p _ _ _ _ _ _ => progWf p
  | .ldH p _ _ _ _ _ _ => progWf p
  | .ldHu p _ _ _ _ _ _ => progWf p
  | .ldB p _ _ _ _ _ _ => progWf p
  | .ldBu p _ _ _ _ _ _ => progWf p
  | .ldA p _ _ _ _ _ _ => progWf p
  | .stW p _ _ _ _ _ _ => progWf p
  | .stH p _ _ _ _ _ _ => progWf p
  | .stB p _ _ _ _ _ _ => progWf p
  | .stA p _ _ _ _ _ _ => progWf p
  | .bCc p _ _ => progWf p
  | .callCc p _ _ => progWf p
  | .dbnz p _ _ => progWf p
  | .dadd p _ _ _ => progWf p
  | .dsub p _ _ _ => progWf p
  | .dmul p _ _ _ => progWf p
  | .dpack p _ _ _ => progWf p
  | .dswap p _ _ => progWf p
  | .mulAx p _ _ _ _ => progWf p
  | .mac p _ _ _ _ => progWf p
  | .msu p _ _ _ _ => progWf p
  | .mulu p _ _ _ _ => progWf p
  | .macu p _ _ _ _ => progWf p
  | .msuu p _ _ _ _ => progWf p
  | .macs p _ _ _ _ => progWf p
  | .msus p _ _ _ _ => progWf p
  | .dmac p _ _ _ _ => progWf p
  | .dmacn p _ _ _ _ => progWf p
  | .dmacx p _ _ _ _ => progWf p
  | .acclr p _ _ => progWf p
  | .acw p _ _ _ _ => progWf p
  | .acl p _ _ _ => progWf p
  | .ach p _ _ _ => progWf p
  | .acr p _ _ _ _ => progWf p
  | .jr p _ => progWf p
  | .callr p _ => progWf p
  | .ret p => progWf p
  | .brk p => progWf p
  | .yield p => progWf p
  | .waitEv p _ e => progWf p && decide (e.toNat < 2)
  | .waitEvReturn p => progWf p
  | .rowFixedWake p => progWf p
  | .pubRaise p _ _ _ => progWf p
  | .mfs p _ sr => progWf p && srWf sr
  | .mts p sr _ => progWf p && srWf sr
  | .budgetStop p => progWf p
  | .trowelCutoff p => progWf p
  | .sqTailDoorbell fn qp _ => fnWf fn && decide (qp < 16)
  | .queueBootstrap fn _ => fnWf fn
  | .cqHeadDoorbell fn qp _ => fnWf fn && decide (qp < 16)
  | .ringConsWrite fn ring _ => fnWf fn && decide (ring < 5)
  | .sysResetWrite _ => true
  | .evtW1cWrite fn off _ => fnWf fn && regWf off
  | .registerWrite fn off _ => fnWf fn && regWf off
  | .loRegisterRead fn off => fnWf fn && regWf off
  | .shFieldRead off => regWf off
  | .pcieConfigRequest fn => fnWf fn
  | .functionLevelReset fn => fnWf fn
  | .conventionalReset => true
  | .vfEnableChange _ num => decide (num ≤ 64)
  | .busMasterEnableChange fn _ => fnWf fn
  | .spdmRequest _ => true
  | .ucieLinkTraining _ _ _ => true
  | .ucieFlitReceive f => f.wf
  | .ucieRetrain _ _ => true
  | .porstNAssert => true
  | .porstNDeassert _ => true
  | .railUndervoltage => true
  | .vauxLow => true
  | .backupSample _ => true
  | .advanceRetry => true
  | .scrimCheck net _ _ _ => decide (net < 8)
  | .tamperEvent src _ _ _ _ => srcWf src
  | .jtagAccess _ => true
  | .portSignalLoss port => portWf port
  | .portUp port _ => portWf port
  | .portDegraded port _ => portWf port
  | .portUndegrade port => portWf port
  | .frameReceive port f => portWf port && f.wf
  | .dupWaitRelease bp src seq => bpWf bp && decide (src < 2 ^ 48) && decide (seq < 65536)
  | .contextFetchDone _ _ => true
  | .dupWindowClear bp src => bpWf bp && decide (src < 2 ^ 48)
  | .indexSwap => true
  | .cacheLathFault _ _ => true
  | .announceTimeout bp _ => bpWf bp
  | .freerunEntry => true
  | .revertHoldExpiry bp => bpWf bp
  | .ppsInEdge => true
  | .ppsInTimeout => true
  | .ppsOutPulse _ => true
  | .osc10mChange _ => true
  | .slotStartEvent bp => bpWf bp
  | .keyPromote _ => true
  | .supervisionExpiry _ => true
  | .gooseRetransmit _ => true
  | .pubFirstState _ => true
  | .timeTrigger trig => decide (trig < 256)
  | .pendingRaiseDiscard => true
  | .budgetPeriodBoundary => true
  | .slotCloseEvent bp group => bpWf bp && decide (group < 16)
  | .trackerCoast bp => bpWf bp
  | .sheetWrite fn ring => fnWf fn && decide (ring < 5)
  | .svFrameBuild _ => true
  | .portTransmit port => portWf port
  | .prpSupervision bp => bpWf bp
  | .recordCopyStart _ => true
  | .recordSeal _ => true
  | .coreSelftest core _ => decide (core < 64)
  | .healthWindowEnd src error0 error1 raw =>
    decide (src < 4) && decide (error0.length = 32) && decide (error1.length = 32) && decide (raw.length = 512)
  | .entropyTimeout => true
  | .rngResumeTimeout => true
  | .challengeExpiry => true
  | .sealerAccess rid _ _ _ => decide (rid < 10)
  | .rekeyWalk rid => decide (rid < 10)
  | .rowRepair row _ => decide (row.pc < 16)
  | .volWriteRepost _ => true
  | .puttySwap => true
  | .shadowSwitch comp => decide (comp < 8)
  | .logRecord => true
  | .pairListenEnd => true
  | .pairHeartbeatTx => true
  | .mirrorEntry _ => true
  | .mirrorAck _ => true
  | .standbyAdmission c => Cmd.anyWf c
  | .fixRecord bp group _ _ => bpWf bp && decide (group < 32)
  | .rowsAdopt bp group _ rows => bpWf bp && decide (group < 32) && rows.all Row.wf
  | .fixRecordAck bp group _ => bpWf bp && decide (group < 32)
  | .slotConfirm _ => true
  | .takeover _ => true
  | .partnerLost => true
  | .resyncComplete _ _ _ _ => true
  | .handoverSwitch => true
  | .healthReport => true
  | .spanLinkTraining link _ _ _ _ => decide (link < 4)
  | .spanFlitReceive link f _ _ => decide (link < 4) && f.wf
  | .spanLinkDown link _ => decide (link < 4)
  | .spanLinkRetrain link => decide (link < 4)
  | .routePacket _ _ => true
  | .spanPacketReceive link _ => decide (link < 4)
  | .spanGapTimeout src => decide (src < 64)
  | .remoteCommand c => Cmd.anyWf c
  | .remoteOutcome _ _ _ _ _ _ => true
  | .gatewayUnreachable _ => true
  | .numberPacket _ _ => true
  | .sheetPacket fn ring _ _ => fnWf fn && decide (ring < 5)
  | .pdelayRequest port => portWf port
  | .pathSuspect => true
  | .volStall _ => true
  | .vauxWithinLimits => true
  | .standbySelfTest n _ _ _ _ => decide (n < 16)
end Sys2Proof
end

