-- ==== Sys2Proof/Tests/Slice0.lean ====
section
/-! SUPPORT. Slice0.lean: the ill-formed terms that WellFormed refuses, encodings and worked examples of the spec, and a
witness for the hypotheses of every statement. -/
set_option maxRecDepth 16384
set_option Elab.async false
namespace Sys2Proof.Tests
open Sys2Proof Sys2Proof.Machine

/-! States. -/

/-- START-UP is over and the device is ACTIVE, its keys usable. -/
def up : State :=
  { State.reset with
    sys := { State.reset.sys with startup := false, mode := Sh.of 2 }, keys := { State.reset.keys with keysOk := true, ksk := some [] } }

/-- A program of one instruction, with a data partition of 64 octets. -/
def prog (w : W32) : Prog :=
  { (default : Prog) with
    st := 2, img := { (default : Image) with code := [w], zdata := 64 }, regs := List.replicate 16 0, budget := 9
    phase := .running }

/-- The device with program 0 on core 0. -/
def runs (g : Prog) : State :=
  { up with trowel := { up.trowel with progs := [(0, g)], running := some 0 :: List.replicate 63 none } }

/-- A legal word is what that program issues. -/
theorem issues_prog (w : W32) (h : legalWord w = true) : Issues (runs (prog w)) 0 w (prog w) := by
  have hs : inService (runs (prog w)) = true := (rfl : _ = inService up).trans rfl
  have hr : (runningOn (runs (prog w)) 0 == some 0) = true := rfl
  refine ⟨prog w, by
    unfold holder; rw [show progOf (runs (prog w)) 0 = some (prog w) from rfl]; dsimp only
    rw [show (prog w).core = 0 from rfl, hr, hs]; rfl, ?_, rfl⟩
  have hb : badWord (runs (prog w)) (codeMem 0) 0 = false := rfl
  unfold fetchAt
  rw [show (prog w).pc = 0 from rfl, show (prog w).core = 0 from rfl, show (prog w).img.code = [w] from rfl]
  rw [show (0 : W32).toNat = 0 from rfl, hb]
  simp [h, lget]

/-! Well-formedness: an ill-formed term for each check. -/

/-- A submission entry of function f with this opcode, context, word 8 and words 9 to 15. -/
def entry (f opc ctx : Nat) (ws : List Nat) : Cmd :=
  { fn := f, qp := 0, tok := 7, input := [], maps := [], outMap := []
    words := [BitVec.ofNat 32 opc, 0, BitVec.ofNat 32 ctx, 0, 0, 0, 0, 0] ++ (ws ++ List.replicate (8 - ws.length) 0).map (BitVec.ofNat 32) }

/-- A frame of 64 octets with a good FCS. -/
def frame : RxFrame :=
  { (default : RxFrame) with octets := 64, fcsOk := true, dst := 0x010CCD040001, src := 0x00A0C9000001, payload := .other }

theorem test_wellFormed_accepts :
    ([Instr.sysInfo (entry 0 1 0 []), .add 511 false 1 2 3, .frameReceive 7 frame, .registerWrite 64 0xFFC 0,
      .waitEv 0 1 1, .mfs 0 1 7, .tamperEvent 17 0 0 0 0,
      .ucieFlitReceive ⟨0, List.replicate 14 ⟨List.replicate 16 0, 0, 0⟩⟩].all Instr.wf) = true := by decide

theorem test_wellFormed_refuses_entries :
    ([Instr.sysInfo { entry 0 1 0 [] with fn := 65 }, .sysInfo { entry 0 1 0 [] with qp := 16 },
      .sysInfo { entry 0 1 0 [] with words := [1] }, .sysInfo (entry 0 2 0 [])].any Instr.wf) = false := by decide

theorem test_wellFormed_refuses_numbers :
    ([Instr.add 512 false 1 2 3, .waitEv 0 1 2, .mfs 0 1 8, .completionWrite 0 16, .completionWrite 65 0, .pkeWipeDone 4,
      .ringConsWrite 0 5 0, .registerWrite 0 2 0, .registerWrite 0 65536 0, .vfEnableChange true 65, .scrimCheck 8 0 0 false,
      .tamperEvent 18 0 0 0 0, .portTransmit 8, .slotStartEvent 4, .slotCloseEvent 0 16, .timeTrigger 256,
      .coreSelftest 64 true, .rekeyWalk 10, .rowRepair ⟨16, 0⟩ false, .shadowSwitch 8, .fixRecordAck 0 32 0, .spanLinkRetrain 4,
      .spanGapTimeout 64, .healthWindowEnd 4 (List.replicate 32 0) (List.replicate 32 0) (List.replicate 512 0), .healthWindowEnd 0 [] (List.replicate 32 0) (List.replicate 512 0),
      .healthWindowEnd 0 (List.replicate 32 0) [] (List.replicate 512 0), .healthWindowEnd 0 (List.replicate 32 0) (List.replicate 32 0) [],
      .dupWaitRelease 0 0 65536, .standbySelfTest 16 0 0 0 0].any Instr.wf) = false := by decide

theorem test_wellFormed_refuses_frames :
    ([Instr.frameReceive 0 { frame with dst := 2 ^ 48 }, .frameReceive 0 { frame with src := 2 ^ 48 },
      .frameReceive 0 { frame with ctags := [65536] }, .frameReceive 0 { frame with rct := some (65536, 10) },
      .frameReceive 0 { frame with rct := some (0, 16) }, .frameReceive 0 { frame with hsr := some 65536 },
      .ucieFlitReceive ⟨0, []⟩, .ucieFlitReceive ⟨0, List.replicate 14 ⟨[], 0, 0⟩⟩,
      .rowsAdopt 0 0 0 [{ (default : Row) with vals := [] }],
      .rowsAdopt 0 0 0 [{ (default : Row) with vals := List.replicate 8 0, qual := List.replicate 8 0, rstat := 16 }]].any Instr.wf) =
      false := by decide

/-! Worked examples: the encodings of 07, the Lath word of 16. -/

theorem test_encoding_examples :
    encI 0x0F 13 0 4 = 0x3F400004 ∧ encM 0x20 0 13 0 0 0 160 = 0x803400A0 ∧ encM 0x18 6 13 3 5 2 0 = 0x61B5AC00 ∧
    encR 0x02 0 3 6 0 0x001 = 0x080D8001 ∧ encR 0x02 4 0 0 0 0x05F = 0x0900005F ∧
    encR 0x03 2 6 0 0 0x012 = 0x0C980012 ∧ encB 0x30 2 (BitVec.ofInt 22 (-14)) = 0xC0BFFFF2 := by decide

theorem test_encodings_legal :
    [0x3F400004, 0x803400A0, 0x61B5AC00, 0x080D8001, 0x0900005F, 0x0C980012, 0xC0BFFFF2].all legalWord = true := by decide

/-- The data of the worked example: 0x5A in d3. -/
def lathData : List Byte := [0, 0, 0, 0x5A, 0, 0, 0, 0, 0, 0, 0, 0, 0, 0, 0, 0]
theorem test_lath_check_octets : lathP 0x100 lathData = 0x5B ∧ lathQ 0x100 lathData = 0xE4 := by decide
theorem test_lath_d9_corrected :
    lathDecode 0x100 ⟨lathData.set 9 0x24, 0x5B, 0xE4⟩ = .corrected lathData := by decide
theorem test_lath_misdirected : lathDecode 0x300 ⟨lathData, 0x5B, 0xE4⟩ = .uncorrectable := by decide

/-! Words that program 0 issues (EzAddSubtract to EzMultiplyAccumulate, EzBranches, EzDecrementAndBranch). -/

/-- Program 0 issues each of these words. -/
def AllIssue (ws : List W32) : Prop := ∀ w ∈ ws, Issues (runs (prog w)) 0 w (prog w)

theorem allIssue (ws : List W32) (h : ws.all legalWord = true) : AllIssue ws :=
  fun w hw => issues_prog w (List.all_eq_true.mp h w hw)

/-- The state that an outcome names. -/
def nextOf (o : Host.Outcome State Fault Refusal) : Option State :=
  match o with
  | .next s => some s
  | _ => none

/-- Registers 1 and 2 and FLAGS of program 0 after a command on a program of one instruction, g1 and g2 given. -/
def result (i : Instr) (w a b : W32) : Option (W32 × W32) :=
  ((nextOf (exec i (runs { prog w with regs := [0, a, b] ++ List.replicate 13 0 }))).bind (progOf · 0)).map
    (fun g => (lget g.regs 1 0, g.flags))

theorem test_adds_saturates :
    result (.adds 0 true 1 1 2) (encR 0 1 1 2 1 2) 0x7FFFFFFF 1 = some (0x7FFFFFFF, 1) := by decide
theorem test_sub_borrow : result (.sub 0 true 1 1 2) (encR 0 1 1 2 1 1) 0 1 = some (0xFFFFFFFF, 8) := by decide
theorem test_shl_33 : result (.shl 0 true 1 1 2) (encR 0 1 1 2 1 8) 1 33 = some (0, 4) := by decide
theorem test_sar_40 : result (.sar 0 false 1 1 2) (encR 0 1 1 2 0 10) 0x80000000 40 = some (0xFFFFFFFF, 0) := by decide
theorem test_dmul_rounds :
    result (.dmul 0 1 1 2) (encR 1 1 1 2 0 2) 0x80004000 0x80000001 = some (0x7FFF0001, 0) := by decide

/-- EzAddSubtract, EzLogicAndShifts, EzMinMaxMultiply, with S 0 and 1, at g0 and g15. -/
theorem witness_alu :
    AllIssue ((List.range 20).flatMap fun f =>
      if f = 0x00B ∨ f = 0x010 then [encR 0 15 14 0 0 f, encR 0 0 15 0 1 f] else [encR 0 15 14 13 0 f, encR 0 0 15 14 1 f]) :=
  allIssue _ (by decide)

/-- EzImmediates, at both ends of the immediate. -/
theorem witness_immediates :
    AllIssue [encI 0x08 1 2 0x1FFFF, encI 0x09 1 2 0x20000, encI 0x0A 1 2 0, encI 0x0B 1 2 0x3FFFF,
      encI 0x0C 1 2 ((31 : BitVec 5).setWidth 18), encI 0x0D 1 2 ((0 : BitVec 5).setWidth 18),
      encI 0x0E 1 2 ((31 : BitVec 5).setWidth 18), encI 0x0F 1 0 0x3FFFF, encI 0x10 0 2 0x20000] :=
  allIssue _ (by decide)

/-- EzDualLanes, EzMultiplyAccumulate, EzAccumulatorReads. -/
theorem witness_dual_and_mac :
    AllIssue ([encR 1 1 2 3 0 0, encR 1 1 2 3 0 1, encR 1 1 2 3 0 2, encR 1 1 2 3 0 3, encR 1 1 2 0 0 4] ++
      [0x000, 0x001, 0x002, 0x004, 0x005, 0x006, 0x008, 0x009, 0x010, 0x011, 0x012, 0x021].map (encR 2 1 2 3 1) ++
      [encR 2 1 0 0 1 0x020, encR 2 4 1 0 1 0x022, encR 2 4 1 0 1 0x023, encR 2 4 0 0 0 (0x040 + (0 : BitVec 6).toNat),
       encR 2 4 1 0 1 (0x040 + (63 : BitVec 6).toNat)]) :=
  allIssue _ (by decide)

/-- EzBranches, EzDecrementAndBranch: taken and not taken, the registers being 0 and the flags clear. -/
theorem witness_branches :
    AllIssue [encB 0x30 2 (-14), encB 0x30 1 (-14), encR 3 0 15 0 0 0, encB 0x32 1 (-1), encB 0x31 0 5, encB 0x31 1 5] ∧
    condTrue (prog 0).flags 2 = true ∧ condTrue (prog 0).flags 1 = false :=
  ⟨allIssue _ (by decide), by decide +kernel, by decide +kernel⟩

/-! States of the statements about transfers, loads, stores and stops. -/

/-- The program of one instruction with g1 and sp given. -/
def prog1 (w g1 sp : W32) : Prog := { prog w with regs := [0, g1] ++ List.replicate 13 0 ++ [sp] }

/-- Program 0 issues its one instruction. -/
abbrev Ready (w g1 sp : W32) : Prop :=
  holder (runs (prog1 w g1 sp)) 0 .running = some (prog1 w g1 sp) ∧
  fetchAt (runs (prog1 w g1 sp)) (prog1 w g1 sp) = .inr w

/-- EzCallsAndReturns: calls at both ends of the data partition, taken and not, and a return. -/
theorem witness_calls :
    Ready (encB 0x31 0 5) 0 0x10040 ∧ Ready (encB 0x31 1 5) 0 0x10004 ∧ Ready (encR 3 0 1 0 0 1) 0 0x10004 ∧
    Ready (encR 3 0 0 0 0 2) 0 0x1003C ∧
    condTrue 0 0 = true ∧ condTrue 0 1 = false ∧ (0x10040 : W32).toNat % 4 = 0 ∧
    (0x10000 ≤ ((0x10004 : W32) - 4).toNat ∧ ((0x10004 : W32) - 4).toNat - 0x10000 + 4 ≤ imgData (prog 0).img) ∧
    ((0x10040 : W32) - 4).toNat - 0x10000 + 4 ≤ imgData (prog 0).img ∧
    badWord (runs (prog 0)) (dataMem 0) 0x3C = false := by decide

/-- EzLoadsFromData, EzStoresToData: each form at the last octets of the data partition, by each mode. -/
theorem witness_loads_and_stores :
    (∀ r ∈ loadRows, ∀ m ∈ [0, 1, 2, 3, 4], let n := BitVec.ofNat 32 r.2.2
      let a : W32 := if m = 2 then 0x10040 else 0x10040 - n
      Ready (encM r.2.1 0 1 m 0 0 0) a 0 ∧
      (effAddr (prog1 (encM r.2.1 0 1 m 0 0 0) a 0) 1 m 0 0 0 r.2.2).toNat = 0x10040 - r.2.2) ∧
    (∀ r ∈ storeRows, ∀ m ∈ [0, 1, 2, 3, 4], let n := BitVec.ofNat 32 r.2.2.1
      let a : W32 := if m = 2 then 0x10040 else 0x10040 - n
      Ready (encM r.2.1 0 1 m 0 0 0) a 0 ∧
      (effAddr (prog1 (encM r.2.1 0 1 m 0 0 0) a 0) 1 m 0 0 0 r.2.2.1).toNat = 0x10040 - r.2.2.1) ∧
    [1, 2, 4, 8].all (fun n => (0x10040 - n) % n = 0 ∧ 0x10040 - n - 0x10000 + n ≤ imgData (prog 0).img) ∧
    memWf none (prog 0).data = true := by decide

/-- A program with sheet-window binding 0 on row 1, sub-sample 0, that issues ld.w g2, [g1]. -/
def reader (latches : List (Nat × List Byte)) (ph : Phase) : Prog :=
  { prog1 (encM 0x18 2 1 0 0 0 0) 0x100000 0 with
    slot := 5, phase := ph, latches := latches, bind_ := { (default : Binding) with bound := true, sheets := [256] } }

/-- Its device, in which context 1 is an SV stream of group 0 whose row for slot 5 is fixed, or not. -/
def sheets (g : Prog) (fixed : Bool) : State :=
  { runs g with
    skim := { up.skim with ctx := [(1, { (default : Ctx) with kind := 1, st := 1, keyCur := 20 })] }
    hawk := { up.hawk with
      fixed := if fixed then [⟨0, 0, 5, [{ (default : Row) with stream := 1, vals := List.replicate 8 0, qual := List.replicate 8 0 }]⟩] else [] } }

/-- EzLoadsFromSheetWindow, EzRowFixedWake, EzWaits (event 0): a latched row, a fixed row, a row not fixed. -/
theorem witness_sheet_window :
    (∀ l ∈ [[], [(0x4000, List.replicate 64 (1 : Byte))]], ∀ f ∈ [true, false],
      holder (sheets (reader l .running) f) 0 .running = some (reader l .running) ∧
      fetchAt (sheets (reader l .running) f) (reader l .running) = .inr (encM 0x18 2 1 0 0 0 0)) ∧
    (effAddr (reader [] .running) 1 0 0 0 0 4).toNat = 0x100000 ∧ 0x100000 / 64 = 0x4000 ∧
    (fixedRow (sheets (reader [] .running) true) 1 0 5).isSome = true ∧
    fixedRow (sheets (reader [] .running) false) 1 0 5 = none ∧
    (∀ f ∈ [true, false], holder (sheets (reader [] .waitRow) f) 0 .waitRow = some (reader [] .waitRow)) ∧
    evOccurred (sheets (reader [] .running) true) (reader [] .running) 0 = some 0 ∧
    evOccurred (sheets (reader [] .running) false) (reader [] .running) 0 = none := by decide

/-- A program that waits for event e, its binding as above. -/
def waiter (ph : Phase) : Prog := { reader [] ph with img := { (default : Image) with code := [encR 3 2 0 0 0 0x011] } }

/-- EzWaits: issued and resumed, the event there and not. -/
theorem witness_waits :
    (∀ f ∈ [true, false],
      holder (sheets (waiter .running) f) 0 .running = some (waiter .running) ∧
      fetchAt (sheets (waiter .running) f) (waiter .running) = .inr (encR 3 2 0 0 0 0x011) ∧
      holder (sheets (waiter (.waitEv 2 0)) f) 0 (.waitEv 2 0) = some (waiter (.waitEv 2 0))) ∧
    evOccurred (sheets (waiter .running) true) (waiter .running) 0 = some 0 ∧
    evOccurred (sheets (waiter .running) false) (waiter .running) 0 = none := by decide

/-- EzYieldEndsSlotWork, EzSpecialRegistersAndRaises, EzStopsArePrecise (brk, ILLEGAL, MISALIGN, ACCESS, WRITE). -/
theorem witness_system_words :
    Ready (encR 3 0 0 0 0 0x010) 0 0 ∧ Ready (encR 3 2 0 0 0 0x020) 0 0 ∧ Ready (encR 3 2 7 0 0 0x020) 0 0 ∧
    Ready (encR 3 1 2 0 0 0x021) 0 0 ∧ Ready (encR 3 0 0 0 0 0x003) 0 0 ∧
    (∀ r ∈ loadRows, (r.2.2 = 1 ∨ Ready (encM r.2.1 0 1 0 0 0 0) 0x10001 0) ∧ Ready (encM r.2.1 0 1 0 0 0 0) 0x301000 0) ∧
    (∀ r ∈ storeRows, (r.2.2.1 = 1 ∨ Ready (encM r.2.1 0 1 0 0 0 0) 0x10001 0) ∧ Ready (encM r.2.1 0 1 0 0 0 0) 0xFFFFFFF8 0) ∧
    canonProg (prog 0) ∧ legalWord 0xFFFFFFFF = false ∧
    holder (runs (prog 0xFFFFFFFF)) 0 .running = some (prog 0xFFFFFFFF) := by decide

/-- A store into its own code of two words, at PC 0. -/
def selfStore (r : Nat) : Prog := { prog1 (encM r 0 1 0 0 0 0) 0 0 with img := { (default : Image) with code := [encM r 0 1 0 0 0 0, 0] } }

/-- EzStopsArePrecise: WRITE, FETCH outside the code, the budget, the cut-off. -/
theorem witness_stops :
    (∀ r ∈ storeRows, fetchAt (runs (selfStore r.2.1)) (selfStore r.2.1) = .inr (encM r.2.1 0 1 0 0 0 0) ∧
      0 + r.2.2.1 ≤ 4 * (selfStore r.2.1).img.code.length) ∧
    holder (runs { prog 0 with pc := 4 }) 0 .running = some { prog 0 with pc := 4 } ∧
    holder (runs { prog 0 with pc := 2 }) 0 .running = some { prog 0 with pc := 2 } ∧
    inWork (runs { prog 0 with budget := 0 }) 0 = some { prog 0 with budget := 0 } ∧
    cutoffPast { runs (prog 0) with hawk := { up.hawk with groups := [⟨4, 0, 4, some (1, 0)⟩] } } (prog 0) = true := by decide

/-- A program that raises entry 0, which names the GOOSE publication of context 0x4000. -/
def raiser (named : Bool) (raised : List Nat) : Prog :=
  { prog (encR 3 2 1 0 0 0x012) with
    raised := raised
    img := { (default : Image) with code := [encR 3 2 1 0 0 0x012], raises := if named then [some (0x4000, [])] else [] } }

/-- Its device. -/
def withPub (g : Prog) : State :=
  { runs g with skim := { up.skim with ctx := [(0x4000, { (default : Ctx) with kind := 5, st := 1 })] } }

/-- EzSpecialRegistersAndRaises: used before, no such publication, raised; and a device that does not publish. -/
theorem witness_raises :
    (∀ n ∈ [true, false], ∀ l ∈ [[], [0]],
      holder (withPub (raiser n l)) 0 .running = some (raiser n l) ∧
      fetchAt (withPub (raiser n l)) (raiser n l) = .inr (encR 3 2 1 0 0 0x012)) ∧
    raiseCtx (withPub (raiser true [])) (raiser true []) 0 = some 0x4000 ∧
    raiseCtx (withPub (raiser false [])) (raiser false []) 0 = none ∧
    publishes { withPub (raiser true []) with sys := { up.sys with mode := Sh.of 3 } } = false ∧
    holder { withPub (raiser true []) with sys := { up.sys with mode := Sh.of 3 } } 0 .running = some (raiser true []) := by decide

/-! Queue, invariant, admission (StepRunsFrontCommand to OnlyAdmittedCommandsExecute). -/

/-- The command is admitted and has not started. -/
def ready (c : Cmd) (s : State) : State :=
  { s with journal := mset s.journal c.tok { (default : JEntry) with cmd := c, admAck := true } }

/-- The device in mode m. -/
def upIn (m : Nat) : State := { up with sys := { up.sys with mode := Sh.of (BitVec.ofNat 32 m) } }

/-- A part of a state changed. -/
def timed (g : TimeUnit → TimeUnit) (s : State) : State := { s with time := g s.time }
def hawked (g : Hawk → Hawk) (s : State) : State := { s with hawk := g s.hawk }
def skimmed (g : Skim → Skim) (s : State) : State := { s with skim := g s.skim }

theorem test_step_idle : (nextOf (step up)).map (·.time.clock) = some 1 := by decide +kernel
theorem test_step_front :
    (nextOf (step { up with pending := [.pcieConfigRequest 0, .porstNAssert] })).map (fun s => (s.pending, s.outbox.length)) =
      some ([.porstNAssert], 1) := by decide +kernel

/-- StepKeepsLegal, CountersNeverGoBack, StepKeepsProgramMemories: a legal state whose step answers a next state. -/
theorem witness_legal :
    (up.sys.mode.inv = ~~~up.sys.mode.val ∧ up.sys.mode.val.toNat ≤ 7 ∧ up.sys.epoch ≤ up.sys.epochTop ∧
      up.sys.token ≤ up.sys.tokenTop ∧ up.tamper.steps ≤ 64) ∧ (nextOf (step up)).isSome = true ∧
    (∀ e ∈ (runs (prog 0)).trowel.progs, memWf none e.2.data = true ∧ memWf none e.2.dwin = true ∧ memWf none e.2.mbox = true) := by
  decide +kernel

/-- EmptyQueueIsOneNanosecond: UNSET, LOCKED and FREERUN. -/
theorem witness_idle : ∀ n ∈ [0, 1, 3], (timed (fun t => { t with tstate := n }) up).pending = [] := by decide +kernel

/-- ConfigurationWaitsForClosing, OnlyAdmittedCommandsExecute. -/
theorem witness_admission :
    let c := entry 0 0x0020 0 []
    let s := hawked (fun h => { h with closing := [default] }) (ready c up)
    runnable s c = true ∧ configTurn s c = true ∧ closingBusy c s = true ∧ runnable up c = false := by decide +kernel

/-! SystemCommands, AbortEndsOrMarks. -/

theorem witness_sysInfo :
    ∀ n ∈ [256, 512], let c := entry 0 1 0 [0, 0, 0, 0, 0, 0, 0, n]
      runnable (ready c up) c = true ∧ 256 ≤ cOutLen c := by decide +kernel

theorem witness_sysQcreate :
    ∀ n ∈ [4, 12], let c := { entry 0 0x10 15 [0x1000, 0, 0x2000, 0, n] with maps := [some [], some []] }
      let s := ready c up
      mayApply s c = true ∧ c.fn < s.fns.length ∧ cCtx c < (fnOf s c.fn).queues.length ∧ (queueOf s c.fn (cCtx c)).st = 0 ∧
      4 ≤ bits (cw c 12) 3 0 ∧ bits (cw c 12) 3 0 ≤ 12 ∧ cw64 c 8 % 4096 = 0 ∧ cw64 c 10 % 4096 = 0 ∧
      lget c.maps 0 none = some [] ∧ lget c.maps 1 none = some [] := by decide +kernel

theorem witness_sysQdelete :
    let c := entry 0 0x11 1 []
    let s := ready c (updQueue 0 1 (fun q => { q with st := 1, n := 16 }) up)
    let o := { entry 0 1 0 [] with tok := 3, qp := 1 }
    mayApply s c = true ∧ c.fn < s.fns.length ∧ cCtx c < (fnOf s c.fn).queues.length ∧ cCtx c ≠ c.qp ∧
    (queueOf s c.fn (cCtx c)).st ≠ 0 ∧ qdeleteReady c s = true ∧
    mayApply (ready o s) c = true ∧ qdeleteReady c (ready o s) = false := by decide +kernel

theorem witness_sysCommands :
    (∀ w ∈ [0, 0x100], let c := entry 0 0x12 0 [w]; runnable (ready c up) c = true ∧ bits (cw c 8) 6 0 < up.fns.length) ∧
    (let c := entry 0 0x40 0 [1]; mayApply (ready c (upIn 4)) c = true) ∧
    (∀ f ∈ [0, 64], let c := entry 0 0x41 0 [f, 0, 0x1000]
      mayApply (ready c up) c = true ∧ (cw c 8).toNat < up.fns.length ∧
      (fnOf up (cw c 8).toNat).rootInv = ~~~(fnOf up (cw c 8).toNat).root) ∧
    (let c := entry 0 0x42 0 [64]; runnable (ready c up) c = true ∧ (cw c 8).toNat < up.fns.length) ∧
    (let c := entry 0 0x43 0 [1]
     let s := ready c { up with sys := { up.sys with vfe := true, numVfs := 1 } }
     runnable s c = true ∧ (cw c 8).toNat < s.fns.length ∧ fnEnabled s (cw c 8).toNat = true ∧
     (fnOf s (cw c 8).toNat).fenced = false ∧ ∀ e ∈ s.journal, e.1 = c.tok → e.2.written = false) := by decide +kernel

/-- The command that an abort names: token 3, on the same queue pair, with command tag 0. -/
def victim : Cmd := { entry 0 1 0 [] with tok := 3 }
/-- It has started, waits for an engine, or has ended. -/
def victimIn (started : Bool) (o : Option Outcome) : State :=
  let c := entry 0 0x0F01 0 []
  { ready c up with journal := mset (ready c up).journal 3 { (default : JEntry) with
      cmd := if started then { entry 0 0x7001 0 [] with tok := 3 } else victim, admAck := true, started := started, outcome := o } }

theorem witness_abort :
    let c := entry 0 0x0F01 0 []
    Cmd.opc c = 0x0F01 ∧ runnable (ready c up) c = true ∧ abortTarget c (ready c up) = none ∧
    (∀ o ∈ [none, some (default : Outcome)], ∀ b ∈ [true, false], runnable (victimIn b o) c = true ∧
      ∃ j, abortTarget c (victimIn b o) = some (3, j) ∧ jent (victimIn b o) 3 = some j ∧ j.outcome = o ∧ j.mark = .none ∧
        j.cmd.fn = c.fn ∧ j.cmd.qp = cCtx c ∧ cTag j.cmd = cw c 8 ∧ j.started = b ∧ (b = true → safeAtOnce j = false)) := by
  refine ⟨by decide +kernel, by decide +kernel, by decide +kernel, ?_⟩
  intro o ho b hb
  simp only [List.mem_cons, List.not_mem_nil, or_false] at ho hb
  rcases ho with rfl | rfl <;> rcases hb with rfl | rfl <;>
    exact ⟨by decide +kernel, _, rfl, rfl, rfl, rfl, rfl, by decide +kernel, by decide +kernel, rfl, by decide +kernel⟩

/-! TimeAndPortConfiguration, PortEvents, TimeEvents. -/

theorem witness_configuration :
    (let c := entry 0 0x20 0 []; mayApply (ready c up) c = true) ∧
    (let c := entry 0 0x21 0 []
     let s := ready c (timed (fun t => { t with hasSrc := true, bps := [{ (default : BpTime) with qualified := true }] }) (upIn 4))
     mayApply s c = true ∧ s.time.hasSrc = true ∧ (bpOf s s.time.src).qualified = true ∧
     mayApply (ready c (upIn 4)) c = true ∧ up.time.hasSrc = false) ∧
    (let c := entry 0 0x30 3 [0]
     mayApply (ready c up) c = true ∧ sysPortcfgCheck c (ready c up) = none ∧ cCtx c < up.bpcfg.length ∧
     portcfgRetrains c { ready c up with bpcfg := List.replicate 4 { (default : BpCfg) with configured := true } } = false) ∧
    (let c := { entry 0 0x30 3 [0x40] with
       words := (entry 0 0x30 3 [0x40]).words.set 3 64
       input := (((List.replicate 64 0).set 33 0x58).set 34 2).set 36 20 }
     let s := ready c { up with keys := { up.keys with
       slots := [(20, { (default : KSlot) with ktype := 2, purpose := 8, payload := List.replicate 32 1 })] } }
     mayApply s c = true ∧ sysPortcfgCheck c s = none ∧ (saSpecs c).map (·.ctx) = [0x5800]) := by decide +kernel

/-- A device with its port n in this state, bus pairs configured with this redundancy. -/
def withPort (n st redun : Nat) : State :=
  updPort n (fun p => { p with st := st, calmAt := some 0, cnt := List.replicate 16 0,
                               queues := [[{ (default : TxFrame) with octets := 64 }], [], [], []] })
    { up with bpcfg := List.replicate 4 { BpCfg.reset with configured := true, redun := redun } }

theorem witness_ports :
    (∀ n ∈ [0, 7], ∀ st ∈ [0, 1], let s := withPort n st 0
      n < s.ports.length ∧ (cfgOf s (n / 2)).configured = true ∧ portsEnabled s = true ∧ (cfgOf s (n / 2)).ltype ≠ 1 ∧
      (lget s.ports n default).st = st) ∧
    (∀ st ∈ [2, 3], let s := withPort 7 st 0
      let p := lget s.ports 7 default
      p.st = st ∧ 15 < p.cnt.length ∧ (cfgOf s 3).degrade ≤ (cfgOf s 3).degrade ∧ p.calmAt = some 0 ∧
      10000000000 ≤ (timed (fun t => { t with clock := 10000000000 }) s).time.clock - 0 ∧
      popQueue p.queues = some ({ (default : TxFrame) with octets := 64 }, [[], [], [], []]) ∧ portUp p = true ∧
      (cfgOf s 3).macsec = false ∧ p.txsaExh = false ∧ 0 < p.queues.length) ∧
    (let s := updPort 6 (fun p => { p with st := 2, queues := List.replicate 4 [] }) (withPort 7 2 1)
     (cfgOf s 3).redun = 1 ∧ (cfgOf s 3).supAt = none ∧ inService s = true ∧ portUp (lget s.ports 6 default) = true ∧
     portUp (lget s.ports 7 default) = true ∧ (lget s.ports 6 default).txsaExh = false ∧
     3 < (lget s.ports 6 default).queues.length ∧ 3 < (lget s.ports 7 default).queues.length) := by decide +kernel

theorem witness_time :
    (∀ d ∈ [none, some { (default : PtpDs) with clockClass := 6 }, some { (default : PtpDs) with gm := 1 }], ∀ b ∈ [true, false],
      let s := timed (fun t => { t with bps := [{ (default : BpTime) with ptp := 3, lanB := b, annA := d, annB := d }] }) up
      0 < s.time.bps.length ∧ (bpOf s 0).ptp = 3 ∧ (bpOf s 0).lanB = b ∧ (bpOf s 0).annA = d ∧ (bpOf s 0).annB = d) ∧
    (let s := timed (fun t => { t with tstate := 2, errBase := 10001 }) up
     s.time.tstate = 2 ∧ s.time.holdLim < errEst s) ∧
    (let s := timed (fun t => { t with tstate := 2, errBase := 10000 }) up
     errEst s ≤ s.time.holdLim) ∧
    (let s := timed (fun t => { t with tstate := 1, hasSrc := true, src := 1, revert := 1, clock := 1000000000,
                                          bps := [{ (default : BpTime) with qualified := true }] }) up
     s.time.tstate = 1 ∧ s.time.revert ≠ 0 ∧ bestSource s = some 0 ∧ (0 : Nat) ≠ s.time.src ∧
     s.time.revert * 1000000000 ≤ s.time.clock - (bpOf s 0).since) ∧
    (let s := timed (fun t => { t with tstate := 1, ppsOk := true, clock := 2000000000 }) up
     s.time.tstate ≠ 0 ∧ s.time.ppsOk = true ∧ 2000000000 ≤ s.time.clock - s.time.ppsAt) ∧
    (∀ x ∈ [4999999980, 5000000020],
      let s := timed (fun t => { t with tstate := 2, tai := x }) up
      (s.time.tstate = 1 ∨ s.time.tstate = 2) ∧ (s.time.tai + 20) % 1000000000 ≤ 40 ∧ s.time.ppsOut = false) ∧
    (let s := timed (fun t => { t with tstate := 1, ppsOut := true, clock := 10000000 }) up
     s.time.ppsOut = true ∧ 10000000 ≤ s.time.clock - s.time.ppsRise) ∧
    (∀ n ∈ [0, 3], ∀ b ∈ [true, false],
      let s := timed (fun t => { t with tstate := n, ppsOut := b }) up
      (s.time.tstate = 0 ∨ s.time.tstate = 3) ∧ s.time.ppsOut = b) := by
  decide +kernel

theorem witness_coast :
    ∀ n ∈ [0, 2],
      let s := hawked (fun h => { h with groups := [⟨4, 0, 4, some (200, 1)⟩] })
        (skimmed (fun k => { k with ctx := [(1, { (default : Ctx) with kind := 1, st := 1 })] })
          (timed (fun t => { t with trk := [{ (default : Tracker) with
            prim := some ⟨1, 0⟩, st := 1, last := some 0, coasted := n / 2, coastN := 2 - n / 2 }] }) up))
      inService s = true ∧ coastSlot s 0 = some 200 ∧ 0 < s.time.trk.length := by decide +kernel

/-! StreamCommands, SheetCommands, ReplayWindowAcceptsOnce, GooseCases, SkimEvents, SlotsAndSheets. -/

/-- A GOOSE subscription of bus pair 0 without authentication. -/
def gooseEntry : List Byte :=
  ((((((List.replicate 256 0).set 0 2).set 1 4).set 8 2).set 0x80 1).set 0x94 255).set 0x95 255
/-- An SV context and a GOOSE context of bus pair 0. -/
def svCtx : Ctx := { (default : Ctx) with kind := 1, st := 1, cnt := List.replicate 16 0 }
def goCtx : Ctx := { (default : Ctx) with kind := 2, st := 1, cnt := List.replicate 16 0 }
/-- Key slot 20 holds a usable 32-octet key of this attribute. -/
def keyed (attr : Nat) (s : State) : State :=
  { s with keys := { s.keys with slots := [(20, { (default : KSlot) with attr := attr, payload := List.replicate 32 1 })] } }
/-- The device with SV context 1 and GOOSE context 0x1000. -/
def streams : State := skimmed (fun k => { k with ctx := [(1, svCtx), (0x1000, goCtx)] }) up

theorem witness_stream_config :
    (let c := entry 0 0x1001 3 [4000]; mayApply (ready c up) c = true ∧ bpInUse (ready c up) (cCtx c) = false ∧ cCtx c < (List.replicate 4 0).length) ∧
    (let c := entry 0 0x1002 0 [1]
     let s := ready c (timed (fun t => { t with bps := [{ (default : BpTime) with mrate := 4000 }] })
       (skimmed (fun k => { k with ctx := [(1, { svCtx with sv := { (default : SvPart) with voff := [0] } })] }) up))
     mayApply s c = true ∧ streamCycrefCheck c s = none ∧ cCtx c < s.time.trk.length ∧
     refInUse (lget s.time.trk 0 default) = none) ∧
    (let c := { entry 0 0x1003 0x1000 [] with input := gooseEntry }
     mayApply (ready c up) c = true ∧ streamSubCheck c (ready c up) = none) := by decide +kernel

theorem witness_streams :
    (∀ k ∈ [1, 0x1000], let c := entry 0 0x1004 k []
      mayApply (ready c streams) c = true ∧ ((ctxOf streams (cCtx c)).map (fun x => decide (1 ≤ x.kind ∧ x.kind ≤ 4 ∧ x.st ≠ 2))) = some true ∧
      (skimmed (fun s => { s with fetchWait := [(0x1000, default)] }) streams).skim.fetchWait.map (·.1) = [0x1000]) ∧
    (let c := entry 0 0x1005 1 [20, 5]
     mayApply (ready c (keyed 5 streams)) c = true ∧ streamKeysCheck c (ready c (keyed 5 streams)) = none ∧
     (ctxOf streams (cCtx c)).isSome = true) ∧
    (∀ n ∈ [64, 65], let c := entry 0 0x1006 1 [1, 0, 0, 0, 0, 0, 0, n]
      runnable (ready c streams) c = true ∧ ctxOf streams (cCtx c) = some svCtx ∧ 64 ≤ cOutLen c) := by decide +kernel

/-- A device that can draw random octets. -/
def drawing (s : State) : State :=
  { s with rng := { s.rng with st := 1, drbg := [{ (default : Drbg) with inst := true }] } }

theorem witness_sheets :
    (let c := entry 0 0x2001 0 [100]; mayApply (ready c up) c = true ∧ sheetHistoryCheck c (ready c up) = none) ∧
    (∀ d ∈ [1, 32], let c := entry 0 0x2002 3 [15 + 256 * d]
      mayApply (ready c up) c = true ∧ 1 ≤ bits (cw c 8) 13 8 ∧ bits (cw c 8) 13 8 ≤ 32 ∧ bits (cw c 8) 17 16 ≠ 2 ∧ cCtx c < 4 ∧
      16 * cCtx c + bits (cw c 8) 3 0 < up.hawk.groups.length) ∧
    (let c := entry 0 0x2003 20 [0]
     mayApply (ready c (keyed 4 up)) c = true ∧ (mget (keyed 4 up).keys.slots (cCtx c)).map (fun x => (x.attr, x.payload.length)) = some (4, 32) ∧
     (keyed 4 up).keys.corrupt.contains (cCtx c) = false ∧ (cw c 8).toNat < up.fns.length) ∧
    (∀ m ∈ [0, 12], let c := { entry 0 0x2004 4 [0x1000, 0, 0x2000, 0, m, 0, 64] with maps := [some [], some []] }
      let s := ready c (drawing (keyed 4 (updFn 64 (fun f => { f with sheetKey := some 20 }) up)))
      mayApply s c = true ∧ cCtx c ≤ 4 ∧ (cw c 14).toNat < s.fns.length ∧ cCtx c < (fnOf s 64).rings.length ∧
      (bits (cw c 12) 4 0 = 0 ↔ m = 0) ∧ sheetRingCheck c s = none ∧ drawReady s 0 = true) ∧
    (let c := entry 0 0x2005 4 [1, 0, 0, 0, 0, 0, 64]
     mayApply (ready c up) c = true ∧ sheetViewCheck c (ready c up) = none ∧ cCtx c < (fnOf up 64).rings.length) := by decide +kernel

/-- A window whose highest number is 100, seen with 37 (63 below it). -/
def window : SvPart := { (default : SvPart) with wvalid := true, highx := 100, window := 0x8000000000000001 }

theorem test_replay_window :
    svReplay window 37 = .replay ∧ svReplay window 36 = .old ∧
    svReplay window 38 = .accept { window with window := 0xC000000000000001 } 0 ∧
    svReplay window 164 = .accept { window with highx := 164, window := 1 } 63 ∧
    svReplay { window with wvalid := false } 9 = .accept { window with highx := 9, window := 1 } 0 := by decide +kernel

theorem test_goose_cases :
    let g : GoosePart := { (default : GoosePart) with gvalid := true, stNum := 5, sqNum := 9, t := [0, 0, 0, 9, 0, 0, 0, 0] }
    let m : GooseMsg := { (default : GooseMsg) with stNum := 5, sqNum := 10, t := [0, 0, 0, 9, 0, 0, 0, 0] }
    gooseCase g m false = .accept 0 0 ∧ gooseCase g { m with sqNum := 9 } true = .drop 5 ∧
    gooseCase g { m with stNum := 7, t := [0, 0, 0, 10, 0, 0, 0, 0] } true = .accept 2 1 ∧
    gooseCase g { m with stNum := 1, t := [0, 0, 0, 10, 0, 0, 0, 0] } true = .accept 3 0 ∧
    gooseCase g { m with stNum := 4, t := [0, 0, 0, 10, 0, 0, 0, 0] } true = .drop 5 ∧
    ahead32 1 0xFFFFFFFF = true ∧ ahead32 0x80000000 0 = false := by decide +kernel

/-- Bus pair 0 with a source in HSR, whose frame 5 waits while its pending copy is accepted, or not. -/
def dupState (acc : Bool) : State :=
  skimmed (fun k => { k with
    dupWait := [{ (default : HeldFrame) with frame := { frame with hsr := some 5 } }]
    sources := [{ (default : Source) with mac := 0x00A0C9000001, win := [⟨5, acc, 0, none⟩] }] })
    { up with bpcfg := [{ BpCfg.reset with redun := 2 }] }

theorem witness_frames :
    (∀ p ∈ [0, 7], portUp (lget up.ports p default) = false ∧ portUp (lget (withPort p 2 0).ports p default) = true ∧
      (withPort p 2 0).sys.held = false ∧ (cfgOf (withPort p 2 0) (p / 2)).redun = 0 ∧
      (cfgOf (withPort p 2 0) (p / 2)).macsec = false ∧ (withPort p 2 0).pair.listen = none) ∧
    (frame.fecCorr = 0 ∧ frame.fecUncorr = 0 ∧ frame.fcsOk = true ∧ frame.octets = 64 ∧ frame.stag = false ∧
      frame.ctags.length ≤ 1 ∧ frame.payload = .other ∧ frame.secTag = none ∧ frame.upsets = [] ∧ up.skim.buf + frame.octets ≤ 4194304) ∧
    (∀ a ∈ [true, false], ((dupState a).skim.dupWait.find? (fun h => h.port / 2 == 0 && h.frame.src == 0x00A0C9000001 &&
        dupSeq (dupState a) 0 h.frame == some 5)).isSome = true ∧
      dupPos (dupState a) 0 0x00A0C9000001 5 = some ⟨5, a, 0, none⟩) ∧
    (let s := timed (fun t => { t with clock := 400000000 }) (dupState true)
     s.skim.sources.map (fun x => (x.bp, x.mac, decide (400000000 ≤ s.time.clock - x.lastAt))) = [(0, 0x00A0C9000001, true)]) := by
  decide +kernel

/-- Slot 9 of bus pair 0 has started. -/
def slot9 (s : State) : State := timed (fun t => { t with tstate := 1, tai := 2600000, bps := List.replicate 4 { (default : BpTime) with mrate := 4000, fired := some 9 } }) s

theorem witness_skim_events :
    (let s := skimmed (fun k => { k with fetchWait := [(0x1000, default)] }) streams
     s.skim.fetchWait.map (·.1) = [0x1000] ∧ s.sys.held = false ∧ s.sys.startup = false ∧ isStopped s = false) ∧
    (let c := entry 0 0x1003 0x1000 []
     let s := skimmed (fun k => { k with rehash := true, rehashFor := [(7, 1)] }) (ready c up)
     s.skim.rehash = true ∧ s.skim.rehashFor = [(7, 1)] ∧ (∀ x ∈ s.skim.ctx, indexed x.2 = false) ∧ atSlotStart s = true ∧ (jent s 7).map (fun j => (j.cmd, j.outcome)) = some (c, none) ∧ (fnOf s c.fn).fenced = false ∧
     ∀ e ∈ s.journal, Cmd.opc e.2.cmd ≠ 0x0F01) ∧
    (ctxOf streams 1 = some svCtx ∧ resident streams 1 svCtx = true ∧ streams.skim.dirty.contains 1 = false ∧
      (skimmed (fun k => { k with dirty := [1] }) streams).skim.dirty.contains 1 = true ∧ isSvKind svCtx.kind = true) ∧
    (let s := skimmed (fun k => { k with dirty := [0x1000], resident := [0x1000] }) streams
     ctxOf s 0x1000 = some goCtx ∧ resident s 0x1000 goCtx = true ∧ s.skim.dirty.contains 0x1000 = true ∧ isGooseKind goCtx.kind = true) ∧
    (∀ w ∈ [9, 10], let x := { svCtx with nxtValid := true, switch := w }
      let s := slot9 (skimmed (fun k => { k with ctx := [(1, x)] }) up)
      ctxOf s 1 = some x ∧ (bpOf s x.bp).fired = some 9 ∧ (max (x.switch + x.overlap) x.swFrom ≤ 9 ↔ w = 9)) ∧
    (let x : Ctx := { (default : Ctx) with kind := 6, switch := 5, overlap := 4 }
     let s := slot9 (skimmed (fun k => { k with ctx := [(0x5800, x)] }) up)
     ctxOf s 0x5800 = some x ∧ x.sa.current = false ∧ x.sa.tx = false ∧ (bpOf s x.bp).fired = some 9 ∧
     max (x.switch + x.overlap) x.swFrom ≤ 9) ∧
    (let x := { goCtx with gs := { (default : GoosePart) with expiry := 9 } }
     let s := slot9 (skimmed (fun k => { k with ctx := [(0x1000, x)] }) up)
     ctxOf s 0x1000 = some x ∧ isGooseKind x.kind = true ∧ x.gs.expiry ≠ 0 ∧ (bpOf s x.bp).fired = some 9 ∧ max x.gs.expiry x.gs.expFrom ≤ 9) := by decide +kernel

/-- Slot 9 of group 0 is closed; ring 0 of PF0 is in its closing sequence. -/
def closing9 (m : Nat) : State :=
  let s := slot9 (upIn m)
  { s with
    fns := [{ Fn.reset 0 with rings := [{ (default : Ring) with
      active := true, m := 12, bufMap := [default], first := true, view := [1] }] }]
    skim := { s.skim with ctx := [(1, svCtx)] }
    hawk := { s.hawk with groups := [⟨4, 0, 4, some (9, 1)⟩], closing := [{ (default : Closing) with slot := 9, view := [1] }] } }

theorem witness_slots :
    (inService (slot9 up) = true ∧ (slot9 up).time.tstate ≠ 0 ∧ nextStart (slot9 up) 3 = some 10 ∧ 3 < (slot9 up).time.bps.length ∧
      nextStart (timed (fun t => { t with tai := 2250000 }) (slot9 up)) 3 = none) ∧
    (∀ n ∈ [9, 10], let s := slot9 (hawked (fun h => { h with trigs := List.replicate 256 { (default : Trigger) with src := .time 9 (some n) } }) up)
      (trigOf s 255).src = .time 9 (some n) ∧ (max 9 n ≤ 9 ↔ n = 9) ∧ 255 < s.hawk.trigs.length ∧ (bpOf s (trigOf s 255).bp).fired = some 9) ∧
    (∀ t ∈ [2499999, 2500000], let s := timed (fun x => { x with tai := t }) (slot9 (hawked (fun h => { h with groups := List.replicate 64 ⟨4, 0, 4, some (8, 0)⟩ }) up))
      nextClose s 3 15 = some 9 ∧ closes s 3 = true ∧ 16 * 3 + 15 < s.hawk.groups.length ∧ (bpOf s 3).fired = some 9 ∧
      closeInstant s 3 15 9 = 2500000) ∧
    (∀ m ∈ [2, 3], let s := closing9 m
      (s.hawk.closing.find? (fun c => c.fn == 0 && c.ring == 0)).map (fun c => (c.slot, c.view)) = some (9, (ringOf s 0 0).view) ∧ inService s = true ∧
      sheetReady s (ringOf s 0 0).view 9 = true ∧ publishes s = decide (m = 2) ∧ fixOwed s (ringOf s 0 0).view 9 = false ∧
      0 < s.fns.length ∧ 0 < (fnOf s 0).rings.length ∧ (ringOf s 0 0).first = true ∧ s.hawk.held = [] ∧
      ((hawked (fun h => { h with held := [default] }) s).hawk.held.any (fun h => h.fn == 0 && h.ring == 0)) = true ∧
      ringTakes s 0 0 (1 + (sheetRows s (ringOf s 0 0).view 9).length) = true ∧
      sheetReady (hawked (fun h => { h with groups := [⟨4, 0, 4, some (8, 1)⟩] }) s) (ringOf s 0 0).view 9 = false) := by decide +kernel

/-! TrowelCommands, PublicationCommands, PublicationEvents, Records, EventRecorder. -/

/-- A program image of one instruction, and the command that loads it as program 511. -/
def image : List Byte :=
  ((((List.replicate 512 0).set 0 0x56).set 1 0x4B).set 2 0x54 |>.set 3 0x57 |>.set 4 1 |>.set 0x0C 4 |>.set 0x14 4 |>.set 0x20 64) ++
  List.replicate 4631 0
def loadCmd : Cmd :=
  let c := entry 0 0x3001 0 [511, 63, 20]
  { c with words := c.words.set 3 5143, input := image }
/-- Its device: slot 20 holds the key of programs; program 511 is loaded already, or not. -/
def loadState (old : Bool) : State :=
  let s := ready loadCmd { up with
    keys := { up.keys with slots := [(20, { (default : KSlot) with attr := 5, ktype := 0x4A, purpose := 1 })] } }
  if old then { s with trowel := { s.trowel with progs := [(511, { (default : Prog) with core := 63, st := 1, img := { (default : Image) with budget := 64 } })] } } else s

/-- TrowelCommands: trowel.load, where the signature is valid (log 8). -/
theorem witness_trowelLoad (o : Bool) (h : imageSigned (loadState o) (tlKey loadCmd) loadCmd.input (cLen loadCmd) = true) :
    mayApply (loadState o) loadCmd = true ∧ trowelLoadCheck loadCmd (loadState o) = none ∧
    (progOf (loadState o) (tlProg loadCmd)).isSome = o := by
  cases o <;> refine ⟨by decide +kernel, ?_, by decide +kernel⟩ <;> unfold trowelLoadCheck <;> rw [h] <;> decide +kernel

theorem witness_trowel :
    (let c := { entry 0 0x3002 0 [0] with input := [0, 0, 0, 0, 0, 1, 0, 0, 0, 0, 0, 0] }
     let s := ready c (slot9 (runs (prog 0)))
     mayApply s c = true ∧ trowelBindCheck c s = none) ∧
    (∀ n ∈ [1, 2, 3], ∀ ph ∈ [Phase.idle, .running], let g := { prog 0 with st := n, phase := ph }
      (∀ o ∈ [0x3003, 0x3004, 0x3005], mayApply (ready (entry 0 o 0 [0]) (runs g)) (entry 0 o 0 [0]) = true) ∧
      progOf (runs g) (cw (entry 0 0x3003 0 [0]) 8).toNat = some g ∧ g.st ≠ 4 ∧ g.inMsg = none) ∧
    (let g := { prog 0 with phase := .idle, inMsg := some ([], 0, 8) }
     let c := entry 0 0x3005 0 [0]
     let s := ready { entry 0 0x3006 0 [0] with tok := 8 } (ready c (runs g))
     mayApply s c = true ∧ progOf s (cw c 8).toNat = some g ∧ (jent s 8).map (·.outcome) = some none ∧ (8 : Nat) ≠ c.tok) ∧
    (∀ k ∈ [7, 8], let g := { prog 0 with inMsg := some ([], 0, k) }
      let c := entry 0 0x3006 0 [0]
      runnable (ready c (runs g)) c = true ∧ progOf (ready c (runs g)) (cw c 8).toNat = some g) ∧
    (let c := entry 0 0x3007 0 [63]; runnable (ready c (upIn 4)) c = true) ∧
    runningOn up 63 = none ∧ inService up = true := by decide +kernel

/-- The template of a GOOSE publication with one member, and the command that opens it. -/
def template : List Byte :=
  (List.replicate 52 0).set 8 1 |>.set 9 1 |>.set 0x0C 1 |>.set 0x0E 1 |>.set 0x10 1 |>.set 44 4
def openCmd : Cmd :=
  let c := entry 0 0x4001 0x5000 []
  { c with words := c.words.set 3 52, input := template }

/-- PublicationCommands: pub.open. -/
theorem witness_pubOpen :
    mayApply (ready openCmd up) openCmd = true ∧ pubOpenCheck openCmd (ready openCmd up) = none := by decide +kernel

/-- A GOOSE publication and its device, with ports of bus pair 0 up or down. -/
def pubCtx : Ctx :=
  { (default : Ctx) with
    kind := 5, st := 1, cnt := List.replicate 16 0
    pub := { (default : PubPart) with svalid := true, nextTx := 9, curve := [4, 8, 16, 64, 256, 1024], tsteady := 1 } }
def pubs (x : Ctx) (st : Nat) : State :=
  slot9 (updPort 0 (fun p => { p with st := st }) (skimmed (fun k => { k with ctx := [(0x5000, x)] }) up))

theorem witness_publications :
    (∀ n ∈ [0, 1], let x := { pubCtx with pub := { pubCtx.pub with inFlight := n } }
      let c := entry 0 0x4002 0x5000 []
      mayApply (ready c (pubs x 2)) c = true ∧ ctxOf (pubs x 2) (cCtx c) = some x ∧ x.kind = 5 ∧ x.st ≠ 2 ∧ x.pub.inFlight = n) ∧
    (∀ st ∈ [0, 2], let c := entry 0 0x4003 0x5000 []
      runnable (ready c (pubs pubCtx st)) c = true ∧ pubCtx.pub.ptype = 0 ∧ (pubs pubCtx st).time.tstate ≠ 0 ∧
      (lanCount (pubs pubCtx st) pubCtx.bp = 0 ↔ st = 0) ∧ sendTurn c (ready c (pubs pubCtx st)) = true) ∧
    (let c := entry 0 0x4004 0x5000 [0x10001, 0x10001, 0x10001, 1]
     mayApply (ready c (pubs pubCtx 2)) c = true ∧ curveBad (curveOf c) (cw64 c 11) = false) ∧
    (let c := entry 0 0x4005 0x5000 [1, 0, 0, 0, 0, 0, 0, 64]; runnable (ready c (pubs pubCtx 2)) c = true ∧ 64 ≤ cOutLen c) := by
  decide +kernel

theorem witness_publication_events :
    (∀ n ∈ [9, 10], let x := { pubCtx with pub := { pubCtx.pub with nextTx := n } }
      ctxOf (pubs x 2) 0x5000 = some x ∧ isGoosePub x = true ∧ x.st = 1 ∧ x.pub.svalid = true ∧ x.pub.nextTx ≠ 0 ∧
      (bpOf (pubs x 2) x.bp).fired = some 9 ∧ publishes (pubs x 2) = true ∧ (max x.pub.nextTx x.pub.txFrom ≤ 9 ↔ n = 9) ∧
      (pubs x 2).publ.heldTx.any (fun h => h.2.2.1 == 0x5000) = false) ∧
    (let x := { pubCtx with pub := { (default : PubPart) with lastSlot := 8 } }
     x.pub.svalid = false ∧ x.pub.stNum = 0 ∧ x.pub.lastSlot < 9 ∧ (bpOf (pubs x 2) x.bp).fired = some 9) ∧
    (∀ f ∈ [true, false], let x := { pubCtx with pub := { (default : PubPart) with ptype := 1, nasdu := 1 } }
      let s := hawked (fun h => { h with fixed := if f then [⟨0, 0, 9, []⟩] else [] }) (pubs x 2)
      ctxOf s 0x5000 = some x ∧ isSvPub x = true ∧ publishes s = true ∧ s.time.tstate ≠ 0 ∧
      firstFixed s x.bp (svReady s 0x5000 x) = if f then some 9 else none) := by decide +kernel

/-- A record of SV context 1 over slots 2 to 9. -/
def record (copying : Bool) : Rec := { (default : Rec) with num := 1, first := 2, last := 9, rows := [1], copying := copying }
/-- Its device, its slots closed up to n, with a trigger of the host. -/
def recording (n : Nat) (copying : Bool) : State :=
  hawked (fun h => { h with
    recs := [record copying], groups := [⟨4, 0, 4, some (n, 1)⟩]
    trigs := List.replicate 256 { (default : Trigger) with src := .host } })
    (slot9 (skimmed (fun k => { k with ctx := [(1, svCtx)] }) up))

theorem witness_records :
    (let c := { entry 0 0xA001 0 [255] with input := (List.replicate 66 0).set 0x10 1 |>.set 0x40 1 }
     let s := ready c (recording 0 false)
     mayApply s c = true ∧ recTrigCheck c s = none ∧ (cw c 8).toNat < s.hawk.trigs.length) ∧
    (∀ m ∈ [2, 4], let c := entry 0 0xA002 0 [255]
      let s := ready c (hawked (fun h => { h with recs := [] })
        { recording 0 false with sys := (upIn m).sys, pair := { up.pair with standby := decide (m = 4) } })
      runnable s c = true ∧ (trigOf s (cw c 8).toNat).src = .host ∧ s.time.tstate ≠ 0 ∧ publishes s = decide (m = 2) ∧
      (trigOf s 255).fires = [] ∧ s.hawk.recs = []) ∧
    (let c := entry 0 0xA003 0 [1, 0, 1]
     let s := { ready c up with sealer := { up.sealer with vol := { up.sealer.vol with gib := 1, dir := [{ (default : VolRec) with recNum := 1 }] } } }
     mayApply s c = true ∧ volAbsent s = false ∧ (volRecOf s (cw64 c 8)).isSome = true) ∧
    (let c := entry 0 0xA004 0 []; runnable (ready c up) c = true) ∧
    (∀ n ∈ [72, 73], recOf (recording n false) 1 = some (record false) ∧ copyDue (recording n false) (record false) = decide (n = 73) ∧
      isStopped (recording n false) = false ∧ (record false).posted = none) ∧
    (let s := drawing (recording 73 true)
     recOf s 1 = some (record true) ∧ signerReady { s with rng := { s.rng with drbg := List.replicate 66 { (default : Drbg) with inst := true } } } = true ∧
     slotFail s 3 [4] ≠ none ∧ (trigOf s 0).archive = false ∧ volAbsent s = true ∧
     (trigOf (hawked (fun h => { h with trigs := [{ (default : Trigger) with archive := true }] }) s) 0).archive = true ∧
     slotFail { s with keys := { s.keys with slots := [(3, { (default : KSlot) with attr := 4 })] } } 3 [4] = none) := by decide +kernel

/-- A device whose log has one record and one event to write. -/
def logging (r : LogRec) : State := { up with log := { up.log with recs := [r], queue := [(5, 1, [2])], nextSeq := 2 } }

theorem witness_log :
    up.log.queue = [] ∧
    (∀ n ∈ [0, 65534], let r : LogRec := { (default : LogRec) with seq := 1, type := 5, body := [2], repeat_ := n }
      (logging r).log.queue = [(5, 1, [2])] ∧ (logging r).log.recs = [r] ∧ r.seq + 1 = (logging r).log.nextSeq ∧ r.repeat_ < 65535) ∧
    (let s := logging { (default : LogRec) with seq := 1, type := 5, body := [2], repeat_ := 65535 }
     folds 5 [2] s = false ∧ s.log.severity = false ∧ s.log.full = false ∧ 16 + 8 * [(2 : W64)].length ≤ logFree s) ∧
    (∀ o ∈ [0xC001, 0xC003], let c := entry 0 o 0 []; runnable (ready c (upIn 4)) c = true) ∧
    (let c := entry 0 0xC002 0 [1]; mayApply (ready c up) c = true) := by decide +kernel

/-! CipherCommands, HashCommands, PublicKeyCommands, RandomNumbers, KeyStoreCommands, ServiceCommands. -/

/-- A session context of PF0, the device that holds it as 0x5A00, and a key in slot 20. -/
def session (p : SesPart) : Ctx := { (default : Ctx) with kind := 7, st := 1, keyCur := 0xFFFF, cnt := List.replicate 16 0, ses := p }
def sessions (x : Ctx) : State := skimmed (fun k => { k with ctx := [(0x5A00, x), (0x5A01, session { (default : SesPart) with skind := 1, code := 1 })] }) up
def withKey (attr ktype klen : Nat) (s : State) : State :=
  { s with keys := { s.keys with slots := [(20, { (default : KSlot) with attr := attr, ktype := ktype, klen := klen, payload := List.replicate klen 1 })] } }

theorem witness_cphOpen :
    (∀ k ∈ [20, 0xFFFF], let c := entry 0 0x5001 0xFFFF [1, k]
      let s := ready c (withKey 0 1 16 up)
      runnable s c = true ∧ sesTurn c s = true ∧ cphOpenCheck c s = none ∧ (bits (cw c 9) 15 0 = 0xFFFF ↔ k = 0xFFFF)) ∧
    (let c := entry 0 0x5002 0x5A00 []
     let s := ready c (sessions (session default))
     runnable s c = true ∧ sesTurn c s = true ∧ (sesOf s (cCtx c)).isSome = true) := by decide +kernel

theorem witness_cphRun :
    ∀ m ∈ [0, 3, 4, 6, 7, 8], ∀ d ∈ [false, true], ∀ f ∈ [0, 1],
      let x := session { (default : SesPart) with skind := 1, code := m, dir := d, keyset := true }
      let c := entry 0 0x5003 0x5A00 [0, f, if (m = 7 ∨ m = 8) ∧ d then 0x5A01 else 0]
      let s := ready c { sessions x with sys := (upIn 4).sys }
      runnable s c = true ∧ sesTurn c s = true ∧ sesOf s (cCtx c) = some x ∧ mayRun s 2 4 c.fn = true ∧ cphRunCheck c s = none ∧
      crFinal c = decide (f = 1) ∧ (d = true → (m = 7 ∨ m = 8) → keyFits s (crOther c) 32 false = true ∧ keyFits s (crOther c) 17 false = false) ∧
      (m < 7 → dmaOk s c.fn = true) := by decide +kernel

theorem witness_cphSave :
    ∀ w ∈ [0, 1], let x := session { (default : SesPart) with skind := 1, keyset := true, pubOk := true }
      let c := entry 0 0x5004 0x5A00 [w]
      let s := ready c (drawing (sessions x))
      runnable s c = true ∧ sesTurn c s = true ∧ sesOf s (cCtx c) = some x ∧ cphSaveCheck c s = none ∧ csWrapped c = decide (w = 1) ∧
      drawReady s 0 = true := by decide +kernel

/-- A saved state of session 0x5A00, and the command that restores it; its tag passes where the hash says so (log 8). -/
def restoreCmd : Cmd := { entry 0 0x5005 0x5A00 [] with input := (List.replicate 576 0).set 5 2 }
theorem witness_cphRestore :
    let x := session { (default : SesPart) with skind := 1, keyset := true, pubOk := true }
    let s := ready restoreCmd (sessions x)
    runnable s restoreCmd = true ∧ sesTurn restoreCmd s = true ∧ sesOf s (cCtx restoreCmd) = some x ∧
    (blobTagOk restoreCmd.input x s = true → cphRestoreCheck restoreCmd s = none) ∧
    (blobTagOk restoreCmd.input x s = false → cphRestoreCheck restoreCmd s = some 0x0401) := by
  refine ⟨by decide +kernel, by decide +kernel, by decide +kernel, fun h => ?_, fun h => ?_⟩ <;>
    simp only [cphRestoreCheck] <;>
    rw [show sesOf (ready restoreCmd (sessions (session { (default : SesPart) with skind := 1, keyset := true, pubOk := true }))) (cCtx restoreCmd) =
      some (session { (default : SesPart) with skind := 1, keyset := true, pubOk := true }) by decide +kernel] <;>
    simp only [h] <;> decide +kernel

theorem witness_hash :
    (∀ a ∈ [0, 3], let c := entry 0 0x6001 0 [a]
      runnable (ready c up) c = true ∧ sesTurn c (ready c up) = true ∧ mayRun (ready c up) (hashEngine (hcode c)) 4 c.fn = true) ∧
    (∀ w ∈ [16, 48, 80], let c := entry 0 0x6002 20 [w, 0x5A01, 16]
      let s := ready c (withKey (if w = 16 then 4 else if w = 48 then 5 else 3) 5 32 (sessions (session default)))
      runnable s c = true ∧ mayRun s (hashEngine (hcode c)) 4 c.fn = true ∧ hshMacCheck c s = none ∧ hdir c = decide (w = 48) ∧
      hderive c = decide (w = 80)) ∧
    (∀ w ∈ [0, 16], ∀ k ∈ [20, 0xFFFF], let c := entry 0 0x6003 0x5A00 [w, k]
      let s := ready c (withKey 4 5 32 up)
      runnable s c = true ∧ hshOpenCheck c s = none ∧ unkeyed (hcode c) = decide (w = 0)) ∧
    (∀ h ∈ [0, 16], ∀ d ∈ [true, false], ∀ e ∈ [true, false], ∀ o ∈ [0x6004, 0x6005],
      let x := session { (default : SesPart) with skind := 2, code := h, keyset := true, dir := d, derive_ := e }
      let c := entry 0 o 0x5A00 [0, 0x5A01]
      let s := ready c (sessions x)
      runnable s c = true ∧ sesTurn c s = true ∧ sesOf s (cCtx c) = some x ∧ mayRun s (hashEngine x.ses.code) 4 c.fn = true ∧
      hshUpdateCheck c s = none ∧ hshFinalCheck c s = none) := by decide +kernel

/-- Every row of the public key engine on operands that it takes. -/
def pkeRows : List (Nat × Nat × Nat × Nat) :=
  [(0x7001, 20, 3, 0), (0x7002, 0xFFFF, 1, 0), (0x7003, 0x5A02, 4, 0x5A01), (0x7004, 0, 0xC, 0x5A01), (0x7005, 0x5A02, 0xC, 0x5A01),
   (0x7006, 0, 4, 0x5A03)]
def pkeState (c : Cmd) (a : Nat) : State :=
  let s := withKey 4 0x43 32 (sessions (session default))
  let s := skimmed (fun k => { k with ctx := k.ctx ++ [(0x5A02, session { (default : SesPart) with skind := 3, code := a, keyset := true })] }) s
  ready c { s with rng := { s.rng with st := 1, drbg := List.replicate 66 { (default : Drbg) with inst := true } } }

theorem witness_pke :
    ∀ r ∈ pkeRows, let c := entry 0 r.1 r.2.1 [r.2.2.1, r.2.2.2]
      let s := pkeState c r.2.2.1
      runnable s c = true ∧ sesTurn c s = true ∧ pkeCheck c s = none ∧ freeUnit s = some 0 ∧ 0 < s.pke.units.length ∧
      mayStart s 5 5 c.fn = true ∧ unitShare s c.fn = true ∧ s.pke.stopped = false ∧ drawReady s 65 = true ∧
      (sesOf s 0x5A01).isSome = true ∧ pkeCheck { c with words := c.words.set 8 0xFF } s ≠ none := by decide +kernel

/-- Unit 3 is at work on command c, or is wiped after it. -/
def pkeBusy (c : Cmd) (a : Nat) (busy : Bool) (m : Mark) : State :=
  let s := pkeState c a
  timed (fun t => { t with clock := pkTime c + 960 }) { s with
    journal := s.journal.map (fun e => (e.1, { e.2 with started := true, mark := m }))
    pke := { s.pke with units := List.replicate 3 default ++ [{ (default : PkeUnit) with owner := 0, busy := busy, wiping := !busy, tok := 7 }] } }

theorem witness_pke_units :
    (∀ r ∈ pkeRows, let c := entry 0 r.1 r.2.1 [r.2.2.1, r.2.2.2]
      let s := pkeBusy c r.2.2.1 true .none
      3 < s.pke.units.length ∧ (jent s (unitOf s 3).tok).map (fun j => (j.cmd, j.outcome)) = some (c, none) ∧ NothingWaits s c ∧
      (unitOf s 3).busy = true ∧ s.time.clock - (unitOf s 3).at_ ≥ pkTime c ∧ s.pke.stopped = false) ∧
    (let c := entry 0 0x7001 20 [3]
     let s := pkeBusy c 3 true .dado
     (jent s 7).map (·.mark) = some .dado ∧ pkOut c ≠ 0 ∧ NothingWaits s c ∧ (unitOf s 3).busy = true) ∧
    (let c := entry 0 0x7001 20 [3]
     let s := pkeBusy c 3 false .reset
     NothingWaits s c ∧ (unitOf s 3).wiping = true ∧ s.time.clock - (unitOf s 3).at_ ≥ 960 ∧
     (jent s (unitOf s 3).tok).map (fun j => (j.outcome, j.mark)) = some (none, .reset) ∧
     ((jent { s with journal := [] } (unitOf s 3).tok).all (fun j => j.outcome.isSome)) = true) := by
  unfold NothingWaits; decide +kernel

theorem witness_rng :
    (∀ o ∈ [0x8001, 0x8002], let c := entry 0 o 0 []
      let s := { ready c (drawing up) with rng := { (drawing up).rng with pool := [[], []] } }
      runnable s c = true ∧ drawRefused s = none ∧ drawReady s c.fn = true ∧ mayRun s 2 4 c.fn = true ∧ c.fn < s.rng.drbg.length ∧ reseedReady c s = true ∧
      rngReseedCheck c s = none ∧ leavesFailed c s = false ∧ drawRefused { s with rng := { s.rng with failed := true } } = some 0x0603 ∧
      rngReseedCheck c { s with rng := { s.rng with failed := true } } = some 0x0603) ∧
    (let c := entry 0 0x8002 0 [1]
     let s := ready c { upIn 4 with rng := { up.rng with failed := true } }
     runnable s c = true ∧ reseedReady c s = true ∧ rngReseedCheck c s = none ∧ leavesFailed c s = true) ∧
    (let c := entry 0 0x8003 0 []; mayApply (ready c (upIn 0)) c = true) := by decide +kernel

/-- The generator in state st, its source 3 in state x, after 50 ms. -/
def generator (st x : Nat) (p : Option (List Byte)) : State :=
  timed (fun t => { t with clock := 50000000 }) { up with rng := { up.rng with
    st := st, lastBad := some 3, pattern := p, srcs := List.replicate 4 { (default : RngSrc) with st := x, held := some [] } } }

/-- Windows that pass, that repeat a bit 161 times, and that hold 960 ones in 1,024 bits (R461). -/
theorem witness_health :
    (let b := rawBits (List.replicate 512 0xAA); (repetition b false 0 false).2.2 = false ∧ windowsBad b = false) ∧
    (repetition (rawBits (List.replicate 512 0)) false 0 false).2.2 = true ∧
    (let b := rawBits ((List.range 512).map (fun i => if i % 2 = 0 then 0xFF else 0x7F))
     (repetition b false 0 false).2.2 = false ∧ windowsBad b = true) := by decide +kernel

/-- RandomNumbers: whatever the digest, an error in one half makes the halves differ, and the same in both does not. -/
theorem witness_halves (octs : List Byte) :
    condHalf octs (List.replicate 32 0) ≠ condHalf octs (1 :: List.replicate 31 0) := by
  have diff : ∀ b : Byte, b ^^^ 0 ≠ b ^^^ 1 := by decide +kernel
  unfold condHalf
  generalize Config.hash 5 octs = d
  intro h
  have k := congrArg (fun x => x.headD 0) h
  cases d with
  | nil => revert k; decide +kernel
  | cons b d => exact diff b k

theorem witness_rng_events :
    (∀ x ∈ [0, 1, 2], ∀ p ∈ [none, some (List.replicate 4 1)], let s := generator 2 x p
      3 < s.rng.srcs.length ∧ s.rng.failed = false ∧ s.sys.held = false ∧ (lget s.rng.srcs 3 default).st = x ∧ x ≠ 3 ∧
      s.rng.lastBad = some 3) ∧
    (let s := generator 0 0 none
     rngSeeded s = false ∧ s.rng.timedOut = false ∧ s.rng.st ≠ 2 ∧ s.time.clock - s.rng.startAt ≥ 50000000 ∧
     up.time.clock - up.rng.startAt < 50000000) ∧
    (let s := generator 2 2 none; s.rng.st = 2 ∧ s.time.clock - s.rng.failAt ≥ 50000000 ∧ up.time.clock - up.rng.failAt < 50000000) := by
  decide +kernel

/-- The admission consumed a nonce that was valid; the quorum is 0 officers. -/
def quorate (c : Cmd) (s : State) : State :=
  { s with journal := [(7, { (default : JEntry) with cmd := c, admAck := true, nonce := some [] })] }

theorem witness_keys :
    (∀ k ∈ [20, 21], let c := entry 0 0x9002 k []
      let s := ready c (keyed 5 up)
      runnable s c = true ∧ keyInfoCheck c s = (if k = 20 then none else some 0x0301) ∧ ((mget s.keys.slots (cCtx c)).isSome = true ↔ k = 20)) ∧
    (let c := entry 0 0x9003 0 []; runnable (ready c up) c = true) ∧
    (let c := entry 0 0xD003 0 []
     let s := ready c { up with rng := { up.rng with st := 1, drbg := List.replicate 71 { (default : Drbg) with inst := true } } }
     runnable s c = true ∧ nonceFallback s = false ∧ drawReady s 70 = true ∧ nonceFallback { s with rng := { s.rng with failed := true } } = true) ∧
    (let c := entry 0 0xD007 0 [0x11]
     let s := ready c { upIn 1 with rng := { up.rng with st := 1, drbg := List.replicate 71 { (default : Drbg) with inst := true } } }
     mayApply s c = true ∧ officersThere s = false ∧ svcEnrolCheck c s = none ∧ drawReady s 70 = true ∧ offCount c = 1) ∧
    (let c := entry 0 0xD004 0 [0]
     mayApply (quorate c (upIn 4)) c = true ∧ quorumCheck c (quorate c (upIn 4)) = none ∧ nonceOf c (ready c (upIn 4)) = none ∧
     nonceOf c (quorate c (upIn 4)) = some [] ∧ tokenCount c = 0 ∧
     (countTokens c [] (quorate c (upIn 4)) (tokenCount c) []).length < 1) ∧
    (let c := entry 0 0xD008 0 []
     let s := quorate c (upIn 6)
     mayApply s c = true ∧ quorumCheck c s = none ∧ s.keys.oepoch < 64) ∧
    (∀ t ∈ [60000000000, 60000000001], let s := timed (fun x => { x with clock := t }) { up with keys := { up.keys with nonce := some ([], 0) } }
      s.keys.nonce = some ([], 0) ∧ (s.time.clock - 0 > 60000000000 ↔ t = 60000000001)) := by decide +kernel

/-- An envelope for the die whose ID is all zeros, with one item that deletes slot 0x20. -/
def envelope : List Byte :=
  (List.replicate 6419 0).set 0 0x56 |>.set 1 0x4B |>.set 2 0x4B |>.set 3 0x45 |>.set 4 1 |>.set 5 1 |>.set 6 1 |>.set 0xC 0x13 |>.set 0xD 0x19
    |>.set 128 1 |>.set 1760 2 |>.set 1764 0x20
def applyCmd : Cmd := { entry 0 0x9001 0 [] with input := envelope }
def applyState : State := ready applyCmd { up with keys := { up.keys with slots := [(4, { (default : KSlot) with attr := 5, attrInv := 2, purposeInv := 15 })] } }

/-- KeyStoreCommands: key.apply, where the envelope is this die's and its signature and content key are good (log 8). -/
theorem witness_keyApply (hd : devId = List.replicate 64 0) (hs : envSigned applyState envelope = true)
    (hk : (contentKey envelope 0).isSome = true) :
    mayApply applyState applyCmd = true ∧ envGenerates applyCmd = false ∧ (parseEnvelope applyCmd.input).isSome = true ∧
    ownEntry applyCmd.input = some 0 ∧ keyApplyCheck applyCmd applyState = none := by
  have hp : parseEnvelope envelope = some [⟨2, 0, 0, 0, 0x20, 0, 0, List.replicate 16 0, []⟩] := by decide +kernel
  have ho : ownEntry envelope = some 0 := by unfold ownEntry; rw [hd]; decide +kernel
  refine ⟨by decide +kernel, by decide +kernel, by decide +kernel, ho, ?_⟩
  obtain ⟨k, hk⟩ := Option.isSome_iff_exists.mp hk
  simp only [keyApplyCheck, show applyCmd.input = envelope from rfl, hp, ho, hs, hk,
    Option.isNone_some, Option.getD_some, List.any_cons, List.any_nil, show ((2 : Nat) == 1) = false from rfl, Bool.false_and]
  decide +kernel

/-- A budget image that holds the default table. -/
def budgetImage : List Byte :=
  ((List.replicate 32 0).set 0 1 |>.set 1 7 |>.set 2 10 |>.set 4 1) ++ Budget.defaultTable.flatten.flatMap (leOctets 2) ++ List.replicate 4 0
/-- Component 1 waits for the swap of Putty, component 7 for its switch; a slot of bus pair 0 starts now. -/
def swapping : State :=
  let s := timed (fun t => { t with tai := 2500000 }) (slot9 up)
  let f := { up.fw with putty := some (3, { (default : FwImage) with comp := 1 }), shadow := [(3, { (default : FwImage) with comp := 7 })] }
  { s with fw := f, journal := [(3, { (default : JEntry) with cmd := entry 0 0xD00A 0 [1], started := true })] }

theorem witness_service :
    (let c := entry 0 0xD001 0 []
     mayApply (quorate c up) c = true ∧ up.sys.mode.good = true ∧ quorumCheck c (quorate c up) = none ∧
     quorumCheck c (ready c up) = some 0x0A02 ∧ mayApply (ready c up) c = true) ∧
    (∀ m ∈ [2, 6], let c := entry 0 0xD002 0 [m]; mayApply (ready c (upIn 4)) c = true ∧ (cw c 8).toNat = m) ∧
    (let c := entry 0 0xD009 0 []
     let s := ready c { up with rng := { up.rng with st := 1, drbg := List.replicate 66 { (default : Drbg) with inst := true } } }
     runnable s c = true ∧ signerReady s = true) ∧
    (∀ n ∈ [175, 176], let c := entry 0 0xD00A 0 [0x20]
      let c := { c with input := budgetImage, words := c.words.set 3 (BitVec.ofNat 32 n) }
      mayApply (ready c (upIn 4)) c = true ∧ fwType c = 0x20 ∧ up.budget.tableInv = Budget.shadowOf up.budget.table ∧
      budgetImageOk c.input (cLen c) = decide (n = 176)) ∧
    (let c := entry 0 0xD00A 0 [0x22]; fwType c = 0x22 ∧ mayApply (ready c (upIn 4)) c = true) ∧
    (let s := swapping
     (jent s 3).map (·.outcome) = some none ∧ atSlotStart s = true ∧ s.hawk.closing = [] ∧ s.deferred = [] ∧ inService s = true ∧
     1 < s.fw.committed.length ∧ 7 < s.fw.meas.length ∧ (s.fw.shadow.find? (fun e => e.2.comp == 7)).isSome = true ∧
     atSlotStart (timed (fun t => { t with tai := 2500001 }) s) = false) := by decide +kernel

/-- A firmware image of type t without a body. -/
def fwCmd (t : Nat) : Cmd :=
  let c := entry 0 0xD00A 0 [t]
  { c with words := c.words.set 3 4883
           input := (List.replicate 4883 0).set 0 0x56 |>.set 1 0x4B |>.set 2 0x46 |>.set 3 0x57 |>.set 4 1 |>.set 5 (BitVec.ofNat 8 t) }

/-- ServiceCommands: an image whose digest and signature are good (log 8), and which passes its start check (log 2). -/
theorem witness_fwload (h : ∀ t, fwAuthBad (fwCmd t) = false) (hf : Config.freeBool 0 = true) :
    ∀ t ∈ [0, 1, 7, 0x21], let s := ready (fwCmd t) (upIn 4)
      mayApply s (fwCmd t) = true ∧ configTurn s (fwCmd t) = true ∧ fwType (fwCmd t) = t ∧
      (t < 8 → fwloadCheck (fwCmd t) s = none) ∧ (t = 0x21 → trimsCheck (fwCmd t) s = none) := by
  have hs : ∀ t, (ready (fwCmd t) (upIn 4)).freeCtr = 0 := fun _ => rfl
  intro t ht
  simp only [List.mem_cons, List.not_mem_nil, or_false] at ht
  simp only [fwloadCheck, trimsCheck, h, hs, hf]
  rcases ht with rfl | rfl | rfl | rfl <;> decide +kernel

/-! TamperRows, MemoryAndVolume, PairRoles, PairExchange. -/

/-- A tamper configuration: what the device was delivered with, a base period of p ms. -/
def tamperCmd (p : Nat) : Cmd :=
  { entry 0 0xD005 0 [] with
    input := leOctets 4 (1 + 256 * 18 + 65536 * p) ++ State.reset.tamper.srcs.flatMap (fun x => leOctets 4 x.cfg.val.toNat) }
/-- The device in mode m whose sources all have response r, and alarm on event n. -/
def tampered (m r n : Nat) : State :=
  let s := upIn m
  { s with tamper := { s.tamper with armed := true, srcs := List.replicate 18 { (default : TmpSrc) with cfg := Sh.of (BitVec.ofNat 32 (r + 4 * n)) } } }

theorem witness_tamper_commands :
    (∀ p ∈ [15, 16], let s := quorate (tamperCmd p) (upIn 4)
      mayApply s (tamperCmd p) = true ∧ s.tamper.bperiod.good = true ∧ (s.tamper.srcs.all (fun x => x.cfg.good)) = true ∧
      quorumCheck (tamperCmd p) s = none ∧ svcTamperCheck (tamperCmd p) s = if p = 16 then none else some 0x0102) ∧
    (∀ w ∈ [0, 1], let c := entry 0 0xD006 0 [0, w]
      runnable (ready c (upIn 4)) c = true ∧ bit (cw c 9) 0 = decide (w = 1)) := by decide +kernel

theorem witness_tamper_events :
    (∀ n ∈ [1, 2], ∀ r ∈ [0, 2, 3], let s := tampered 2 r n
      s.sys.held = false ∧ 17 < s.tamper.srcs.length ∧ mainMonitor 17 = false ∧ mainMonitor 14 = true ∧ s.tamper.armed = true ∧
      respRun s 17 = r ∧ ((windowEvents s 17 (tmpW s 17 * 1000000)).length < max 1 (tmpN s 17) ↔ n = 2) ∧
      (max 1 (tmpN s 17) ≤ (windowEvents s 17 (tmpW s 17 * 1000000)).length ↔ n = 1)) ∧
    respRun (tampered 5 2 1) 17 = 4 ∧ respRun (tampered 6 3 1) 17 = 5 ∧ respRun (tampered 2 0 1) 14 ≠ 1 ∧
    (∀ k ∈ [2, 3], let s := { tampered 2 1 1 with tamper := { (tampered 2 1 1).tamper with resets := List.replicate k 0 } }
      respRun s 17 = 1 ∧ ((recentResets s).length < 3 ↔ k = 2) ∧ mode s ≠ 6) ∧
    (tampered 2 0 1).tamper.backup = false ∧ max 1 (tmpN (tampered 2 0 2) 5) = 2 ∧
    (let s := { tampered 2 3 1 with tamper := { (tampered 2 3 1).tamper with backup := true } }
     backupSampled 17 = true ∧ max 1 (tmpN s 17) ≤ (windowEvents s 17 (max (tmpW s 17) (tmpN s 17 * s.tamper.bperiod.val.toNat) * 1000000)).length ∧
     tmpResp s 17 = 3) ∧ mode (upIn 0) = 0 := by decide +kernel

/-- A device with trained memory whose region 9 has 16 sectors, sector 3 at generation g of key epoch e, at walk w. -/
def sealed (g e : Nat) (w : Option Nat) : State :=
  { up with sealer := { up.sealer with
    hbmOk := true, inserv := 0xFFFF
    regs := List.replicate 10 { (default : Region) with size := 1, kepoch := e, walk := w, sectors := if g = 0 then [] else [(3, ⟨g, 0, false⟩)] } } }

/-- The same with the line of the sector in the metadata cache. -/
def cached (g : Nat) : State :=
  { sealed g 0 none with sealer := { (sealed g 0 none).sealer with mdc := [⟨9, 0, 0, false⟩] } }

theorem witness_sealer :
    (∀ g ∈ [0, 0xFFFFFFFE, 0xFFFFFFFF], let s := cached g
      sealerRuns s 9 3 = true ∧ 9 < s.sealer.regs.length ∧ (sectorOf s 9 3).gen = g ∧ (regOf s 9).walk = none ∧
      lineCheck s 9 3 default = none ∧ sealCheck s 9 3 default = if g = 0 then none else some 5) ∧ sealerRuns up 9 3 = false ∧
    (∀ p ∈ [3, 4], let s := sealed 1 1 (some p)
      isStopped s = false ∧ s.sealer.hbmOk = true ∧ (regOf s 9).walk = some p ∧ walkNext (regOf s 9) p = if p = 3 then some 3 else none) ∧
    (let s := { sealed 0 0 none with sealer := { (sealed 0 0 none).sealer with vol := { up.sealer.vol with walk := some 0, gib := 1 } } }
     s.sealer.vol.walk.isSome = true ∧ s.sealer.vol.gib ≠ 0 ∧ s.sealer.vol.recover = false ∧
     (s.sealer.vol.jobs.any (fun j => j.kind == 2)) = false ∧
     s.sealer.vol.dir.find? (fun r => r.vepoch != s.sealer.vol.vepoch) = none) ∧
    (∀ t ∈ [none, some 0], let s := { sealed 0 0 none with sealer := { (sealed 0 0 none).sealer with
        ppcAt := t, retired := t, dueRows := [rowKey 15 3] } }
      repairDue s 15 3 = true ∧ repairDue s 15 4 = false ∧ s.sealer.inserv.toNat / 2 ^ 15 % 2 = 1 ∧ ((s.sealer.ppcAt.all (fun t => decide (s.time.clock - t ≥ 10000000))) = true ↔ t = none) ∧
      (s.sealer.retired.isSome = true ↔ t = some 0)) := by decide +kernel

/-- MemoryAndVolume: words without their symbols do not pass as a line (where the line lies: log 90). -/
theorem witness_lineCheck (h : Config.metaPlace (sealed 1 0 none).sealer.stack 9 0 (itemIdx 3 0) = 1) :
    lineCheck (sealed 1 0 none) 9 3 default = some 5 := by
  have e : missCount (sealed 1 0 none) 9 3 = 1 := by decide +kernel
  simp only [lineCheck, e, metaCheck, metaReads, metaWord, h]
  decide +kernel

/-- A volume with record 1 of one frame of four sectors, its request and its job. -/
def volume (failed : Bool) (jobs : Bool) : State :=
  let q : VolReq := { (default : VolReq) with op := 1, nsec := 1, recNum := 1, tok := 3, failed := failed }
  timed (fun t => { t with clock := 1000000001 }) { up with sealer := { up.sealer with vol := { up.sealer.vol with
    gib := 1, ringM := 4, stageMib := 4, reqs := [q], dir := [{ (default : VolRec) with recNum := 1, nsec := 1 }]
    jobs := if jobs then [{ (default : VolJob) with recNum := 1, tok := 3 }] else [] } } }

theorem witness_volume :
    (let c := entry 0 0xA010 0 []; mayApply (ready c up) c = true) ∧
    (∀ w ∈ [0, 1], ∀ j ∈ [true, false], let c := entry 0 0xA011 0 [0, w]
      let s := ready c (volume false j)
      runnable s c = true ∧ volIoCheck c s = none ∧ (volIoReq c s).isSome = true ∧ bit (cw c 9) 0 = decide (w = 1) ∧
      (j = false → s.sealer.vol.jobs = []) ∧ (volIoReq c s).map (fun q => (q.op, q.kind, q.recNum, q.tok)) = some (1, 0, 1, 3) ∧
      (volRecOf s 1).isSome = true ∧ (s.sealer.vol.jobs.any (fun x => x.kind == 0 && x.recNum == 1 && x.tok == 3)) = j ∧
      volIoCheck c (ready c up) = some 0x0803) ∧
    (∀ j ∈ [true, false], let c := entry 0 0xA012 0 [1, 0, 0, 0, 0, 0, 0, 4096]
      let s := ready c (volume false j)
      runnable s c = true ∧ volReadCheck c s = if j then some 0x0705 else none) ∧
    (let c := entry 0 0xA013 0 []
     let s := quorate c { volume false false with sys := (upIn 4).sys, rng := { up.rng with st := 1, drbg := List.replicate 71 { (default : Drbg) with inst := true, at_ := 1000000000 } } }
     mayApply s c = true ∧ quorumCheck c s = none ∧ volRekeyCheck c s = none ∧ drawReady s 70 = true) ∧
    (∀ o ∈ [0xF001, 0xF002, 0xF003], let c := entry 0 o 0 []; runnable (ready c (upIn 4)) c = true) ∧
    (outstanding (volume false false)).any (fun r => r.idx == 0 && decide ((volume false false).time.clock - r.at_ > 1000000000)) = true ∧
    (let s := volume true false
     (s.sealer.vol.reqs.find? (fun r => r.failed && r.idx == 0)).map (fun q => (q.recNum, decide (s.time.clock - q.at_ ≥ 1000000000))) = some (1, true) ∧
     (volRecOf s 1).isSome = true ∧ s.sys.gateway = true ∧ canPost (updVol (fun v => { v with reqs := [] }) s) = true) := by decide +kernel

/-- A member of a pair, active or standby, in step with its partner or not. -/
def member (standby synced : Bool) : State :=
  let s := slot9 (upIn (if standby then 3 else 2))
  timed (fun t => { t with tai := 2500000 }) { s with pair := { s.pair with paired := true, standby := standby, synced := synced, silence := 8 } }

theorem witness_pairCfg :
    (∀ a ∈ [4, 5], let c := entry 0 0xB001 0 [0, 0, 20 + 65536 * 21]
      let k (a : Nat) : KSlot := { (default : KSlot) with attr := a, payload := List.replicate 32 1 }
      let s := ready c { up with keys := { up.keys with slots := [(20, k a), (21, k 5)] }, span := { up.span with links := [{ (default : SpanLink) with pair := true }] } }
      mayApply s c = true ∧ pairCfgCheck c s = if a = 4 then none else some 0x0303) ∧
    (∀ o ∈ [0xB002, 0xB003], let c := entry 0 o 0 []; runnable (ready c up) c = true ∧ configTurn (ready c up) c = true) ∧
    (let c := entry 0 0xB003 0 []
     let s := member false true
     pairHandoverCheck c { s with pair := { s.pair with partnerRep := (List.replicate 256 0).set 2 0x40 } } = none ∧ pairHandoverCheck c up = some 0x0901) := by
  decide +kernel

theorem witness_pairRenumber :
    let c := entry 0 0xB004 0 []
    let s := quorate c { member false true with sys := (upIn 4).sys }
    mayApply s c = true ∧ quorumCheck c s = none ∧ (partnerThere s = true → pairRenumberCheck c s = none) := by
  refine ⟨by decide +kernel, by decide +kernel, ?_⟩
  decide +kernel

theorem witness_roles :
    (∀ g ∈ [0xFFFFFFFE, 0xFFFFFFFF], ∀ a ∈ [true, false],
      let s := { member true true with pair := { (member true true).pair with gen := g, announced := a } }
      pairStandby s = true ∧ s.pair.synced = true ∧ silent s s.pair.hbSpanAt = true ∧ silent s s.pair.hbBpAt = true ∧ s.pair.announced = a ∧ s.pair.gen = g) ∧
    (let s := { member true true with pair := { (member true true).pair with hbSpanAt := some 0 } }
     s.pair.pathSuspect = false ∧ silent s s.pair.hbSpanAt ≠ silent s s.pair.hbBpAt) ∧
    (let s := timed (fun t => { t with clock := 10000000 }) { member false true with pair := { (member false true).pair with heardAt := some 0 } }
     pairActive s = true ∧ s.pair.partnerLost = false ∧ s.pair.heardAt.any (fun t => slotsPast s t s.pair.silence) = true) ∧
    (let c := entry 0 0xB003 0 []
     let s := ready c { member false true with pair := { (member false true).pair with handover := some (7, 0) } }
     pairActive s = true ∧ s.pair.handover = some (7, 0) ∧ (jent s 7).map (·.outcome) = some none ∧ atSlotStart s = true ∧
     (∀ k ∈ openTokens s, k = 7) ∧ atSlotStart (timed (fun t => { t with tai := 2500001 }) s) = false) ∧
    (let s := { member true true with pair := { (member true true).pair with mjournal := [(7, { (default : JEntry) with cmd := entry 0 0xB003 0 [] })] } }
     pairStandby s = true ∧ atSlotStart s = true ∧ s.pair.gen < 0xFFFFFFFF ∧ (s.pair.mjournal.any (fun e => Cmd.opc e.2.cmd == 0xB003 && e.2.outcome.isNone)) = true) ∧
    (let s := { member false true with span := { up.span with links := [{ (default : SpanLink) with st := 3 }] } }
     (lget s.span.links s.pair.link default).st = 3 ∧ s.pair.hbTxAt.all (fun t => decide (s.time.clock - t ≥ 10000)) = true ∧
     s.pair.reportAt.all (fun t => decide (s.time.clock - t ≥ 1000000000)) = true) ∧
    (pairStandby (member true false) = true ∧ (member true false).pair.synced = false ∧ pairActive (member false false) = true ∧
     (ringOf (updRing 64 4 (fun r => { r with active := true }) (member false false)) 64 4).active = true) ∧
    (let s := { member true true with pair := { (member true true).pair with subs := List.replicate 16 (0, 0, 0, 0) } }
     15 < s.pair.subs.length ∧ partialSub s 15 = false ∧ partialSub s 1 = true) := by decide +kernel

theorem witness_exchange :
    (pairActive (member false true) = true ∧ (fnOf (member false true) 64).unread = false ∧ (member false true).pair.handover = none ∧
      (member false true).pair.partnerLost = false ∧ (fnOf (updFn 64 (fun f => { f with unread := true }) (member false true)) 64).unread = true) ∧
    (∀ o ∈ [0x0F01, 1], ∀ a ∈ [true, false],
      let j : JEntry := { (default : JEntry) with cmd := { entry 0 o 0 [] with tok := 7 }, admAck := a, outcome := if a then some default else none }
      let s := { member false true with journal := [(7, j)] }
      pairActive s = true ∧ jent s 7 = some j ∧ j.admAck = a ∧ j.outcome.isSome = a) ∧
    (let s := hawked (fun h => { h with fixed := [⟨3, 31, 9, []⟩] }) (member true true)
     pairStandby s = true ∧ fixedRows s 3 31 9 = some [] ∧ fixedRows s 3 31 8 = none) ∧
    (let s := skimmed (fun k => { k with ctx := [(1, svCtx), (0x1000, goCtx)] }) { runs (prog 0) with
        sys := (upIn 3).sys, pair := { (member true true).pair with mjournal := [(7, { (default : JEntry) with cmd := entry 0 1 0 [] })]
                                                                    asked := [{ entry 0 1 0 [] with tok := 0 }] } }
     pairStandby s = true ∧ (mget s.pair.mjournal 7).isSome = true ∧ ctxOf s 1 = some svCtx ∧ ctxOf s 0x1000 = some goCtx ∧
     goCtx.gs.gvalid = false ∧ 4 < (fnOf s 64).rings.length ∧ progOf s 0 = some (prog 0) ∧
     closingFor (entry 0 0x20 0 []) s = false ∧ s.pair.mcfg = [] ∧ Cmd.opc (entry 0 0x20 0 []) ≠ 0x3005 ∧
     closingFor (entry 0 0x20 0 []) (hawked (fun h => { h with closing := [default] }) s) = true ∧
     { entry 0 1 0 [] with tok := 0 } ∈ s.pair.asked ∧ cDev (entry 0 1 0 []) = devnum s ∧ fromBootstrap (entry 0 1 0 []) s = false ∧
     (queueOf (updQueue 0 0 (fun q => { q with st := 1 }) s) 0 0).st ≠ 0) := by decide +kernel

/-! SpanCommands, SpanFabric. -/

/-- The device with this number and link 0 in state st, part of the pair or not. -/
def linked (dn : Option Nat) (st : Nat) (pair : Bool) (g : Span → Span) : State :=
  let l : SpanLink := { (default : SpanLink) with st := st, pair := pair, peer := 1 }
  { up with sys := { up.sys with devnum := dn }, span := g { up.span with links := l :: List.replicate 3 default, topo := 1, ringN := 2 } }

/-- span.cfg for this DEVID: number n in a ring of two; no link has a key. -/
def spanCmd (id : List Byte) (n : Nat) : Cmd := { entry 0 0xE001 0 [n, 9, 0xFFFFFFFF, 0xFFFFFFFF] with input := id }

theorem mayApply_span (x : List Byte) (n : Nat)
    (h : (fenceOk (ready (spanCmd x n) up) (spanCmd x n) && modeOk (ready (spanCmd x n) up) (spanCmd x n)) = true) :
    mayApply (ready (spanCmd x n) up) (spanCmd x n) = true := by
  rw [Bool.and_eq_true] at h
  unfold mayApply runnable
  rw [show jent (ready (spanCmd x n) up) (spanCmd x n).tok = some { (default : JEntry) with cmd := spanCmd x n, admAck := true } from rfl]
  have hc : closingBusy (spanCmd x n) (ready (spanCmd x n) up) = false := by
    unfold closingBusy closingFor
    rw [show (ready (spanCmd x n) up).hawk.closing = [] from rfl, show (ready (spanCmd x n) up).hawk.held = [] from rfl]
    simp only [List.any_nil, Bool.and_false, Bool.or_false]
    rfl
  simp only [decide_true, h, hc]
  rfl

theorem witness_spanCfg :
    mayApply (ready (spanCmd devId 1) up) (spanCmd devId 1) = true ∧ mayApply (ready (spanCmd devId 2) up) (spanCmd devId 2) = true ∧
    mayApply (ready (spanCmd [] 1) up) (spanCmd [] 1) = true ∧ spanCfgCheck (spanCmd [] 1) (ready (spanCmd [] 1) up) = none ∧
    spanCfgCheck (spanCmd devId 2) (ready (spanCmd devId 2) up) = some 0x0704 ∧
    spanCfgCheck (spanCmd devId 1) (ready (spanCmd devId 1) up) = none ∧ (spanCmd [] 1).input ≠ devId := by
  refine ⟨mayApply_span _ _ (by decide +kernel), mayApply_span _ _ (by decide +kernel), by decide +kernel, by decide +kernel,
    by decide +kernel, by decide +kernel, ?_⟩
  exact fun e => absurd (congrArg List.length e) (by simp [spanCmd, entry, devId, fit]; omega)

theorem witness_spanCommands :
    (let c := entry 0 0xE002 0 []; runnable (ready c up) c = true) ∧
    (∀ v ∈ [3, 4], let c := { entry 0 0xE003 0 [] with input := List.replicate 64 (BitVec.ofNat 8 v) }
      mayApply (ready c (upIn 4)) c = true ∧ spanRouteCheck c (ready c (upIn 4)) = if v = 3 then none else some 0x0106) ∧
    (let c := entry 0 0xE004 0 [3]
     let far (d : Nat) : JEntry := { (default : JEntry) with remote := true, cmd := entry 0 1 0 [0, 0, 0, 0, 0, 0, d] }
     let s := ready c { up with span := { up.span with late := [(3, 0)] } }
     let r := { ready c up with journal := mset (ready c up).journal 3 (far 0), span := { up.span with unreach := [cDev (far 0).cmd] } }
     runnable s c = true ∧ spanOutcomeOf (cw64 c 8) s = some 0 ∧ runnable (ready c up) c = true ∧
     spanOutcomeOf (cw64 c 8) (ready c up) = none ∧ jent (ready c up) (cw64 c 8) = none ∧
     runnable r c = true ∧ spanOutcomeOf (cw64 c 8) r = none ∧ jent r (cw64 c 8) = some (far 0) ∧ (far 0).remote = true ∧
     unreachable r (cDev (far 0).cmd) = true) := by decide +kernel

/-- A device of the span that is not the gateway. -/
def distant : State := { up with sys := { up.sys with gateway := false, devnum := some 0 } }
theorem witness_remote :
    (let c (o : Nat) := { entry 0 o 0 [] with tok := 7 }
     distant.sys.gateway = false ∧ distant.sys.devnum = some (cDev (c 1)) ∧ jent distant (c 1).tok = none ∧ opInfo (Cmd.opc (c 0xFFFF)) = none ∧
     modeOk distant (c 1) = true ∧ (opInfo (Cmd.opc (c 1))).map (fun o => (o.dyn, objectAllows (c 1) o.row.who distant)) = some (false, true) ∧
     up.sys.gateway = true) ∧
    (let c := { entry 0 1 0 [] with tok := 7 }
     let j (o : Option Outcome) : JEntry := { (default : JEntry) with remote := true, cmd := c, outcome := o }
     let s (o : Option Outcome) : State := { up with journal := [(7, j o)], span := { up.span with unreach := [0] } }
     (∀ o ∈ [none, some (default : Outcome)], jent (s o) 7 = some (j o) ∧ (j o).remote = true ∧ (j o).outcome = o) ∧
     unreachable (s none) (cDev c) = true) ∧
    (∀ b ∈ [true, false],
      let c := { entry 0 (if b then 0x7001 else 1) 0 [] with tok := 7 }
      let j : JEntry := { (default : JEntry) with cmd := c, started := b }
      let s := { distant with journal := [(7, j)], span := { up.span with unreach := [0], foreign := [(c, none)] } }
      jent s 7 = some j ∧ s.sys.gateway = false ∧ j.outcome = none ∧ (s.span.foreign.any (fun x => x.1.tok == 7)) = true ∧
      unreachable s 0 = true ∧ safeAtOnce j = !b) := by decide +kernel

/-- A flit with sequence number n whose control word is c, its symbols as sent. -/
def flit (n : Nat) (c : List Byte) : Flit :=
  { fseq := n, words := (List.range 14).map (fun w =>
      let d := if w = 13 then c else List.replicate 16 0
      { data := d, p := lathP (n * 14 + w) d, q := lathQ (n * 14 + w) d }) }

/-- Every DRBG of the device is instantiated. -/
def seeded (s : State) : State :=
  { s with rng := { s.rng with st := 1, drbg := List.replicate 71 { (default : Drbg) with inst := true } } }

theorem witness_links :
    (let s := linked (some 0) 2 false id
     0 < s.span.links.length ∧ inService (seeded s) = true ∧ (linkOf (seeded s) 0).st = 2 ∧ drawReady (seeded s) 68 = true ∧
     drawReady s 68 = false) ∧
    (∀ c ∈ [0, 4, 8], let f := flit 5 (leOctets 8 5 ++ (BitVec.ofNat 8 c :: List.replicate 7 0))
      ∀ g ∈ [0, 3], let s := linked (some 0) 3 false (fun x => { x with links := x.links.map (fun l => { l with fseq := 5, inGroup := g }) })
      0 < s.span.links.length ∧ (linkOf s 0).st = 3 ∧ (linkOf s 0).pair = false ∧ flitAccept 6 f = none ∧
      (flitAccept (linkOf s 0).fseq f).map (fun k => (ctlBit k 66, ctlBit k 67)) = some (decide (c = 4), decide (c = 8)) ∧
      ((if c = 8 then 1 else if (linkOf s 0).inGroup = 0 then 0 else (linkOf s 0).inGroup + 1) = 4 ↔ c ≠ 8 ∧ g = 3)) ∧
    (∀ st ∈ [0, 1, 2, 3], (linkOf (linked (some 0) st false id) 0).st = st) ∧
    (∀ t ∈ [99999999, 100000000], let s := timed (fun u => { u with clock := t }) (linked (some 0) 1 false id)
      (linkOf s 0).st = 1 ∧ inService s = true ∧ (s.time.clock - (linkOf s 0).downAt ≥ 100000000 ↔ t = 100000000)) ∧
    (linked (some 0) 3 false id).sys.devnum.isSome = true ∧ linkFailed (linked (some 0) 3 false id) 0 1 = false ∧
    linkFailed (linked (some 0) 3 false (fun x => { x with failed := [(1, 0)] })) 0 1 = true ∧ up.sys.devnum = none := by
  decide +kernel

/-- A packet from device 1 for device d. -/
def packet (d n : Nat) : Packet := { dst := d, src := 1, ptype := 1, seq := n, arg := 0, body := [], vc := 0 }

theorem witness_packets :
    (∀ n ∈ [9, 10, 11], ∀ held ∈ [[], [(0, packet 0 11)]],
      let s := linked (some 0) 3 false (fun x => { x with rxSeq := [(1, 9)], ahead := held })
      (linkOf s 0).st = 3 ∧ (linkOf s 0).pair = false ∧ s.sys.devnum = some (packet 0 n).dst ∧ mgetD s.span.rxSeq (packet 0 n).src 0 = 9 ∧
      ((s.span.ahead.any (fun x => x.2.src == 1 && x.2.seq == n)) = true ↔ n = 11 ∧ held ≠ []) ∧ held.length < 64) ∧
    (let s := linked (some 0) 3 false id
     (packet 1 1).dst ≠ 0 ∧ (routeLink s (packet 1 1).dst).isSome = true ∧ s.span.links.length = 4 ∧
     routeLink (linked (some 0) 3 false (fun x => { x with routes := [(1, 3)] })) 1 = some 3) ∧
    (∀ m ∈ [0, 1], ∀ cr ∈ [[0, 0], [1, 1]],
      let s := linked (some 0) 3 false (fun x => { x with
        routes := [(1, m)], links := List.replicate 4 { (default : SpanLink) with st := 3, credits := cr } })
      routeLink s 1 = some m ∧ m < s.span.links.length ∧ dateline s m = (m == 1) ∧ (linkOf s m).st = 3 ∧
      (lget (linkOf s m).credits (if dateline s m then 1 else (packet 1 1).vc) 0 ≠ 0 ↔ cr = [1, 1]) ∧ (linkOf s m).waiting = []) ∧
    (let s := linked none 3 false id; s.sys.devnum = none ∧ oppositeLink 0 < s.span.links.length ∧ (linkOf s 0).st = 3) ∧
    (linkOf (linked (some 0) 3 true id) 0).pair = true ∧
    (∀ t ∈ [999999, 1000000],
      let s := timed (fun u => { u with clock := t }) (linked (some 0) 3 false (fun x => { x with ahead := [(0, packet 0 3)] }))
      ((s.span.ahead.any (fun x => x.2.src == 1 && decide (s.time.clock - x.1 ≥ 1000000))) = true ↔ t = 1000000) ∧ 1 ∉ s.span.unreach) ∧
    (up.sys.startup = false ∧ up.sys.held = false ∧ up.sys.devnum = none ∧ mode (upIn 4) = 4 ∧ (linked (some 0) 3 false id).sys.devnum.isSome = true ∧
     mode (linked (some 0) 3 false id) ≠ 4 ∧ up.sys.gateway = true ∧ distant.sys.gateway = false) ∧
    (let s := updFn 64 (fun f => { f with bme := true, rings := List.replicate 5 { (default : Ring) with active := true, m := 12, bufMap := [⟨0, 0, 4096⟩] } }) up
     64 < s.fns.length ∧ 4 < (fnOf s 64).rings.length ∧ s.sys.gateway = true ∧ inService s = true ∧ (ringOf s 64 4).active = true ∧
     (ringOf s 64 4).stopped = false ∧ dmaOk s 64 = true ∧ (ringOf s 64 4).bufMap ≠ []) := by decide +kernel

/-! ProtocolSteps. -/

/-- The host's memory with this entry at address 0. -/
def inMemory (c : Cmd) : List Host.Cell :=
  ((c.words.flatMap w32le).zip (List.range 64)).map (fun e => (e.2, e.1))

/-- Queue 0 of PF0 with an entry at its head, its memory and its completions pinned. -/
def queued (st : Nat) (w : List Waiting) (p : Bool) : State :=
  let x : Queue := { (default : Queue) with st := st, n := 16, tail := 1, sqMap := [⟨0, 0, 4096⟩], cqMap := if p then [⟨0, 0, 4096⟩] else [], waiting := w }
  updQueue 0 0 (fun _ => x) (updFn 0 (fun f => { f with bme := true }) up)

theorem witness_fetch :
    (let s := queued 1 [] true
     askedOf s 0 0 = none ∧ mayFetch s 0 0 = true ∧ mayFetch up 0 0 = false ∧ pinnedBus (queueOf s 0 0).sqMap ((queueOf s 0 0).sqBase + 64 * (queueOf s 0 0).head) = some 0 ∧
     0 < s.fns.length ∧ 0 < (fnOf s 0).queues.length ∧ pairStandby s = false ∧
     pairStandby { s with sys := (upIn 3).sys, pair := (member true true).pair } = true ∧
     mayFetch { s with sys := (upIn 3).sys, pair := (member true true).pair } 0 0 = true ∧
     ∀ o ∈ [0x0001, 0xEEEE], (admissionFail [] (entry 0 o 0 [0, 0, 0, 0, 0, 0, 0, 256]) s).2 = if o = 1 then none else some 0x0101) ∧
    (let s := queued 0 [] true
     ReachesBar s 0 ∧ (queueOf s 0 0).st = 0 ∧ pairServed s 0 0 = true ∧ dmaOk s 0 = true ∧ bootstrapping s 0 = false ∧ handingOver s = false ∧
     (translate [] 0 0 false (hostActs s)).2 = some 0 ∧ pairStandby s = false ∧
     ∀ o ∈ [0x0001, 0x0010], let m := inMemory (entry 0 o 0 [0x1000, 0, 0x2000, 0, 4])
      hostAnswers m 0 64 = true ∧ Cmd.opc (entryAt m 0 0 0) = o ∧ cCtx (entryAt m 0 0 0) = 0 ∧
      (o = 0x0010 → (admissionFail m (entryAt m 0 0 0) (translate m 0 0 false (hostActs s)).1).2 = none)) := by
  unfold ReachesBar
  decide +kernel

theorem witness_completion :
    (∀ p ∈ [true, false], let s := queued 1 [.refused 9 0x0101 false 0] p
      (queueOf s 0 0).st ≠ 0 ∧ dmaOk s 0 = true ∧ pairServed s 0 0 = true ∧ complReachable (queueOf s 0 0) = p ∧
      (queueOf s 0 0).waiting = [.refused 9 0x0101 false 0]) ∧
    pairServed distant 0 0 = false ∧
    (∀ a ∈ [true, false], ∀ o ∈ [0x0001, 0xD002], ∀ p ∈ [true, false],
      let j : JEntry := { (default : JEntry) with cmd := entry 0 o 0 [], outcome := some default, outAck := a }
      let s := { queued 1 [.admitted 7] p with journal := [(7, j)] }
      (queueOf s 0 0).waiting = [.admitted 7] ∧ jent s 7 = some j ∧ j.ledgered = false ∧ j.outcome = some default ∧ j.outAck = a ∧
      complReachable (queueOf s 0 0) = p ∧ restarts j default = (o == 0xD002) ∧ j.written = false ∧ dmaOk s 0 = true ∧
      pairServed s 0 0 = true ∧ (queueOf s 0 0).st ≠ 0) := by decide +kernel

/-- ProtocolSteps: output that touches an invalidated page. -/
theorem witness_completionDado :
    (let j : JEntry := { (default : JEntry) with
       cmd := entry 0 1 0 [], outcome := some default, outAck := true, mark := .dado, staged := some { (default : Staged) with out := [1] } }
     let s := { queued 1 [.admitted 7] true with journal := [(7, j)] }
     jent s 7 = some j ∧ j.ledgered = false ∧ j.outAck = true ∧ complReachable (queueOf s 0 0) = true ∧ restarts j default = false) := by
  decide +kernel

theorem witness_configTakeEffect :
    let c := entry 0 0x2001 0 [100]
    let s := { ready c up with deferred := [7] }
    s.deferred = [7] ∧ closingFor c s = false ∧ s.pair.mcfg = [] ∧ (jent s 7).map (fun j => (j.cmd == c, j.outcome)) = some (true, none) ∧ modeOk s c = true ∧
    c.tok = 7 ∧ Cmd.opc c = 0x2001 ∧ sheetHistoryCheck c s = none ∧ closingFor c (hawked (fun h => { h with closing := [default] }) s) = true ∧
    (∀ b ∈ [true, false], let u := { hawked (fun h => { h with closing := if b then [default] else [] }) s with pair := { up.pair with mcfg := [(c, 5)] } }
      u.pair.mcfg = [(c, 5)] ∧ closingFor c u = b) := by
  decide +kernel

/-- A command that runs or has not started, with this mark and outcome, and an abort of it under token 5. -/
def marked (o : Nat) (started : Bool) (m : Mark) (g : Option Staged) : State :=
  { up with journal := [(5, { (default : JEntry) with cmd := { entry 0 0x0F01 0 [] with tok := 5 }, started := true }),
                        (7, { (default : JEntry) with cmd := entry 0 o 0 [], started := started, mark := m, staged := g, admAck := true })] }
def marked7 (o : Nat) (started : Bool) (m : Mark) (g : Option Staged) : JEntry :=
  { (default : JEntry) with cmd := entry 0 o 0 [], started := started, mark := m, staged := g, admAck := true }

theorem witness_safePoint :
    (∀ b ∈ [true, false], ∀ m ∈ [Mark.reset, Mark.abort 5],
      let o := if b then 0x7001 else 1
      let s := marked o b m none
      let j := marked7 o b m none
      jent s 7 = some j ∧ j.outcome = none ∧ j.mark ≠ .none ∧ j.remote = false ∧ inRehash j = false ∧ safeAtOnce j = !b ∧
      (fnOf s j.cmd.fn).fenced = false ∧ msorted none s.journal = true) ∧
    (∀ m ∈ [Mark.reset, Mark.abort 5], let s := marked 1 false m none
      let j := marked7 1 false m none
      (jent s 5).any (fun a => Cmd.opc a.cmd == 0x0F01 && a.started && a.outcome.isNone && a.cmd.fn == j.cmd.fn &&
        cCtx a.cmd == j.cmd.qp && cw a.cmd 8 == cTag j.cmd) = true) ∧
    (∀ m ∈ [Mark.none, Mark.dado, Mark.reset], ∀ out ∈ [[], [1]],
      let g : Staged := { (default : Staged) with out := out, wrote := 8 }
      let s := marked 0x7001 true m (some g)
      let j := marked7 0x7001 true m (some g)
      jent s 7 = some j ∧ j.staged = some g ∧ j.started = true ∧ j.outcome = none ∧ j.remote = false ∧ workStopped j.cmd s = false ∧
      safeAtOnce j = false ∧ g.wrote ≠ 0 ∧ g.status ≠ 0x0501 ∧ inRehash j = false) ∧
    dmaOk (updFn 0 (fun f => { f with bme := true }) (marked 0x7001 true .reset none)) 0 = true ∧
    (let s := { marked 0x7001 true .reset none with pke := { up.pke with units := [{ (default : PkeUnit) with busy := true, tok := 7 }] } }
     (List.range 4).find? (fun i => (unitOf s i).busy && (unitOf s i).tok == 7) = some 0 ∧ 0 < s.pke.units.length) ∧
    (∀ n ∈ [0, 10], let s := timed (fun t => { t with clock := n * 1000000 }) (marked 1 false .none none)
      let s := { s with budget := { s.budget with wait := 10 } }
      (s.time.clock - (marked7 1 false .none none).at_ ≥ s.budget.wait * 1000000 ↔ n = 10) ∧ inService s = true ∧ 7 ∉ s.deferred) := by
  refine ⟨?_, ?_, ?_, ?_, ?_, ?_⟩
  · decide +kernel
  · decide +kernel
  · decide +kernel
  · decide +kernel
  · decide +kernel
  · decide +kernel

/-- SafePoint rows: nothing waits for the outcome. -/
theorem witness_nothingWaits : NothingWaits (ready (entry 0 1 0 []) up) (entry 0 1 0 []) := by
  unfold NothingWaits
  decide +kernel

theorem witness_boundary :
    (∀ n ∈ [0, 70000], sourceDue (timed (fun t => { t with clock := n }) up) = decide (n = 70000)) ∧ up.budget.next = none ∧
    (∀ f ∈ [0], up.sys.held = false ∧ fnEnabled up f = true ∧ up.sys.startup = false ∧ State.reset.sys.startup = true ∧
      State.reset.sys.held = false ∧ fnEnabled State.reset f = true ∧ ∀ q, q < 16 → (queueOf up f q).waiting = []) := by decide +kernel

/-! HostRequests, ResetsAndStartUp. -/

theorem witness_doorbells :
    (∀ n ∈ [15, 16], ∀ d ∈ [2, 3], let s := updQueue 0 0 (fun x => { x with written := 2, unreleased := [7, 8] }) (queued 1 [] true)
      ReachesBar s 0 ∧ 0 < s.fns.length ∧ 0 < (fnOf s 0).queues.length ∧ takesBell s 0 0 = true ∧ msorted none s.journal = true ∧
      let x := queueOf s 0 0
      (bits (BitVec.ofNat 32 n) 11 0 < x.n ↔ n = 15) ∧ ((d + x.n - x.released % x.n) % x.n ≤ x.written - x.released ↔ d = 2)) ∧
    takesBell up 0 0 = false := by
  unfold ReachesBar
  decide +kernel

theorem witness_registers :
    (ReachesBar up 0 ∧ w1cAt 0 0x28 0 up = none ∧ w1cAt 0 0x100 0 up = none ∧ up.sys.gateway = true) ∧
    (let s := { up with sys := { up.sys with vfe := true, numVfs := 1 } }; ReachesBar s 1 ∧ 1 < s.fns.length ∧ w1cAt 1 0x10 0 s = none) ∧
    (∀ v ∈ [64, 65], ∀ a ∈ [true, false],
      let s := updRing 0 4 (fun x => { x with active := a, prod := v, m := 12 }) (updFn 0 (fun f => { f with rings := List.replicate 5 default }) up)
      0 < s.fns.length ∧ 4 < (fnOf s 0).rings.length ∧ ReachesBar s 0 ∧ (ringOf s 0 4).active = a ∧ (fnOf s 0).fenced = false ∧
      ((((ringOf s 0 4).prod + 4294967296 - (0 : W32).toNat) % 4294967296 ≤ ringUnits (ringOf s 0 4)) ↔ v = 64)) ∧
    (barLo up 0 8 = none ∧ shGood up 8 = true ∧ ideDrop up 0 = false ∧ (barLo up 0 0x10).isSome = true ∧ up.sys.startup = false ∧
      State.reset.sys.startup = true ∧ fnEnabled State.reset 0 = true ∧ State.reset.sys.held = false) ∧
    (∀ r ∈ [2, 3], let s := tampered 2 r 1
      let s := { s with sys := { s.sys with mode := { s.sys.mode with inv := 0 } } }
      barLo s 0 8 = none ∧ shGood s 8 = false ∧ s.tamper.armed = true ∧ ideDrop s 0 = false ∧ respRun s 15 = r ∧
      max 1 (tmpN s 15) ≤ (windowEvents s 15 (tmpW s 15 * 1000000)).length) := by
  unfold ReachesBar
  decide +kernel

theorem witness_resets :
    (∀ b ∈ [true, false], let s := updFn 0 (fun f => { f with fenced := b }) up
      0 < s.fns.length ∧ fnEnabled s 0 = true ∧ (fnOf s 0).fenced = b ∧ openToks 0 s = [] ∧ s.sys.held = false ∧ s.sys.startup = false) ∧
    (∀ b ∈ [true, false], let s := { up with sys := { up.sys with held := b, vfe := b } }
      s.sys.held = b ∧ s.sys.vfe = b ∧ s.sys.startup = false) ∧ up.sys.held = false ∧
    (State.reset.sys.held = false ∧ fnEnabled State.reset 0 = true ∧ State.reset.sys.startup = true) ∧
    bestRate [1, 4, 9] up.sys.rateCap ≠ 0 ∧ bestRate [9] up.sys.rateCap = 0 ∧
    (∀ n ∈ [15, 16], let s := { up with sys := { up.sys with ucieUp := true, rate := n - 13, rates := [1, 2] } }
      s.sys.ucieUp = true ∧ (n - 1 < (n - 13) * 1000000) ∧ bestRate s.sys.rates (s.sys.rate - 1) ≠ 0) ∧
    (∀ c ∈ [0, 2], let f := flit 0 (leOctets 8 0 ++ (BitVec.ofNat 8 c :: List.replicate 7 0))
      (flitAccept 0 f).map (fun k => ctlBit k 65) = some (c == 2) ∧ flitAccept 1 f = none) ∧ ReachesBar up 0 := by
  unfold ReachesBar
  decide +kernel

/-- A device whose START-UP finds this: its fuses, images, memory stack, bad copies of a key, and pairing. -/
def boots (otp img : Bool) (stack : Nat) (bad : List (Nat × Nat)) (p : Bool) : State :=
  { State.reset with
    fw := { State.reset.fw with
      factoryDone := true
      facts := { (default : BootFacts) with
        otpOk := otp, imgOk := List.replicate 8 img, altOk := List.replicate 8 img, stack := stack, badCopies := bad, powerUp := true } }
    keys := { State.reset.keys with owned := true, bbkek := some [], slots := [(3, default)] }
    pair := { State.reset.pair with paired := p } }
/-- Its images after the steps before them. -/
def images (s : State) : Bool × State := bootImages [1, 2, 3, 4, 5, 6, 7] (bootPatch (checkBbkek (deriveSlots s)))

theorem witness_startUp :
    ((boots false true 1 [] false).fw.facts.otpOk = false ∧ (boots true true 1 [] false).tamper.steps < 64 ∧
      (images (boots true false 1 [] false)).1 = false ∧ (images (boots true true 1 [] false)).1 = true) ∧
    (∀ k ∈ [0, 1], (hbmStep (startValues (images (boots true true k [] false)).2)).isSome = (k == 1)) ∧
    (∀ bad ∈ [[], [(3, 0), (3, 1)]],
      (hbmStep (startValues (images (boots true true 1 bad false)).2)).map (fun u => (keysStep u).keys.resvFault) = some (bad != [])) ∧
    (∀ p ∈ [true, false],
      (hbmStep (startValues (images (boots true true 1 [] p)).2)).map (fun u => startMode (coresStep (keysStep u))) = some (if p then 8 else 2)) := by
  decide +kernel

theorem witness_startUpEvents :
    (State.reset.fw.boots = 0 ∧ up.sys.held = false ∧ (∀ n ∈ [1], { up.fw with boots := n }.boots ≠ 0)) ∧
    (∀ b ∈ [true, false], let s := { State.reset with tamper := { State.reset.tamper with advBlocked := b, vauxOk := true, pending := some default } }
      s.sys.startup = true ∧ s.tamper.advBlocked = b ∧ s.tamper.vauxOk = true ∧ s.sys.held = false ∧ s.tamper.pending.isSome = true) ∧
    (∀ b ∈ [true, false], let s := timed (fun t => { t with clock := if b then 1000000000 else 0 }) { up with pair := { up.pair with listen := some 0 } }
      s.pair.listen = some 0 ∧ slotsPast s 0 64 = b) ∧ up.pair.listen = none := by decide +kernel

end Sys2Proof.Tests
end

section
/-! SUPPORT. The reset state, part by part (R14, R54), and the statement O3. -/
namespace Sys2Proof.Machine

/-- Every port is DISABLED after reset; a number that names no port reads as the default port, which is DISABLED too. -/
theorem reset_port_disabled (n : Nat) : (lget State.reset.ports n default).st = 0 := by
  change ((List.replicate 8 Port.reset).getD n default).st = 0
  rw [List.getD_eq_getElem?_getD, List.getElem?_replicate]
  split <;> rfl

/-- Each of the 65 functions is as Fn.reset gives it. -/
theorem reset_fnOf {f : Nat} (hf : f ≤ 64) : fnOf State.reset f = Fn.reset f := by
  have hrange : f < 65 := by omega
  change (List.getD ((List.range 65).map Fn.reset) f default) = Fn.reset f
  rw [List.getD_eq_getElem?_getD, List.getElem?_map, List.getElem?_range hrange]
  rfl

theorem reset_queueOf {f q : Nat} (hf : f ≤ 64) (hq : q < 16) : queueOf State.reset f q = default := by
  rw [queueOf, reset_fnOf hf]
  change (List.replicate 16 (default : Queue)).getD q default = default
  rw [List.getD_eq_getElem?_getD, List.getElem?_replicate_of_lt hq]
  rfl

/-- Settles O3: the constants of the reset state are read off; ports and queue pairs by their lemmas. -/
theorem resetState : Obligations.ResetState := by
  unfold Obligations.ResetState
  refine ⟨rfl, rfl, rfl, rfl, rfl, rfl, rfl, rfl, rfl, rfl, rfl, rfl, rfl, rfl, rfl, rfl, rfl, rfl,
    reset_port_disabled, ?queues, fun _ => rfl, fun _ => rfl, rfl, rfl, rfl, rfl, rfl, rfl⟩
  case queues =>
    intro f q hf hq
    rw [reset_queueOf hf hq]
    rfl

end Sys2Proof.Machine
end

section
/-! SUPPORT. Rules of the operations that the host's requests share: functions, queue pairs and rings read back after a
change, the frames of logged events, and the gate of a memory request to a BAR. -/
namespace Sys2Proof.Machine

/-! A function, queue pair or ring after a change. -/

theorem fnOf_congr {s t : State} (h : t.fns = s.fns) (f : Nat) : fnOf t f = fnOf s f := by unfold fnOf; rw [h]

theorem queueOf_congr {s t : State} (h : t.fns = s.fns) (f q : Nat) : queueOf t f q = queueOf s f q := by
  unfold queueOf; rw [fnOf_congr h]

theorem ringOf_congr {s t : State} (h : t.fns = s.fns) (f r : Nat) : ringOf t f r = ringOf s f r := by
  unfold ringOf; rw [fnOf_congr h]

theorem fnOf_updFn_self {f : Nat} {s : State} (hf : f < s.fns.length) (g : Fn → Fn) :
    fnOf (updFn f g s) f = g (fnOf s f) := lget_lupd_self s.fns f g default hf

theorem queueOf_updQueue_self {f q : Nat} {s : State} (hf : f < s.fns.length) (hq : q < (fnOf s f).queues.length)
    (g : Queue → Queue) : queueOf (updQueue f q g s) f q = g (queueOf s f q) := by
  unfold queueOf updQueue
  rw [fnOf_updFn_self hf]
  exact lget_lupd_self _ q g default hq

theorem ringOf_updRing_self {f r : Nat} {s : State} (hf : f < s.fns.length) (hr : r < (fnOf s f).rings.length)
    (g : Ring → Ring) : ringOf (updRing f r g s) f r = g (ringOf s f r) := by
  unfold ringOf updRing
  rw [fnOf_updFn_self hf]
  exact lget_lupd_self _ r g default hr

/-! Logged events. -/

theorem logEv_within (type sev : Nat) (body : List W64) (s : State) : Within [.log] s (logEv type sev body s) :=
  (logEv_goes type sev body s Goes.rfl (List.Subset.refl _)).within

theorem event_within (w b : Nat) (s : State) : Within [evtPart w, .log] s (event w b s) :=
  (event_goes w b s Goes.rfl (List.Subset.refl _)).within

theorem event_sys_window (b : Nat) (s : State) :
    (event 0 b s).sys = { s.sys with evt := setBit s.sys.evt b } := logEv_within _ _ _ (setEvt 0 b s) .sys (by decide)

theorem event_hawk_window (b : Nat) (s : State) :
    (event 6 b s).hawk = { s.hawk with evt := setBit s.hawk.evt b } :=
  logEv_within _ _ _ (setEvt 6 b s) .hawk (by decide)

theorem getLsbD_setBit_self (w : W32) {i : Nat} (hi : i < 32) : (setBit w i).getLsbD i = true := by
  rw [setBit, BitVec.getLsbD_or, BitVec.getLsbD_ofNat, Nat.testBit_two_pow_self]
  simp only [hi, decide_true, Bool.and_self, Bool.or_true]

/-- An event of function f leaves its queue pairs alone. -/
theorem queueOf_fnEvent {f : Nat} {s : State} (hf : f < s.fns.length) (b i q : Nat) :
    queueOf (fnEvent f b i s) f q = queueOf s f q := by
  unfold fnEvent
  dsimp only
  rw [queueOf_congr (logEv_within _ _ _ _ .fns (by decide))]
  split
  · rfl
  · unfold queueOf
    rw [fnOf_updFn_self hf]

/-! The gate of a memory request to a BAR (R320, R323, R336). -/

theorem barWrite_reaches {s : State} {f : Nat} (h : ReachesBar s f) (g : State → State) : barWrite f g s = g s := by
  obtain ⟨hheld, henabled, hstartup, hide⟩ := h
  simp only [barWrite, hheld, henabled, hstartup, hide, Bool.not_true, Bool.or_self, Bool.false_eq_true, if_false]

theorem barRead_startup {s : State} {f : Nat} (hheld : s.sys.held = false) (henabled : fnEnabled s f = true)
    (hstartup : s.sys.startup = true) (off : Nat) (g : State → State) :
    barRead f off g s = emit (.unsupported f) s := by
  simp only [barRead, hheld, henabled, hstartup, Bool.not_true, Bool.or_self, Bool.false_eq_true, if_false, if_true]

theorem barRead_reaches {s : State} {f : Nat} (h : ReachesBar s f) (off : Nat) (g : State → State) :
    barRead f off g s = g (emit (.mmio f off (barValue s f off)) s) := by
  obtain ⟨hheld, henabled, hstartup, hide⟩ := h
  simp only [barRead, hheld, henabled, hstartup, hide, Bool.not_true, Bool.or_self, Bool.false_eq_true, if_false]

/-! The rows of the host's writes, once the request reaches the BAR. -/

theorem exec_sqTailDoorbell {s : State} {f : Nat} (h : ReachesBar s f) (q : Nat) (v : W32) :
    exec (.sqTailDoorbell f q v) s = .next (writeTail f q v s) :=
  congrArg Host.Outcome.next (barWrite_reaches h (writeTail f q v))

theorem exec_cqHeadDoorbell {s : State} {f : Nat} (h : ReachesBar s f) (q : Nat) (v : W32) :
    exec (.cqHeadDoorbell f q v) s = .next (writeHead f q v s) :=
  congrArg Host.Outcome.next (barWrite_reaches h (writeHead f q v))

theorem exec_evtW1cWrite {s : State} {f : Nat} (h : ReachesBar s f) (off : Nat) (v : W32) :
    exec (.evtW1cWrite f off v) s = .next ((w1cAt f off v s).getD s) :=
  congrArg Host.Outcome.next (barWrite_reaches h fun s => (w1cAt f off v s).getD s)

theorem exec_registerWrite {s : State} {f : Nat} (h : ReachesBar s f) (off : Nat) (v : W32) :
    exec (.registerWrite f off v) s = .next (writeRegister f off v s) :=
  congrArg Host.Outcome.next (barWrite_reaches h (writeRegister f off v))

/-- With a gateway of its own and without one: the index is written alike. -/
theorem exec_ringConsWrite {s : State} {f : Nat} (h : ReachesBar s f) (r : Nat) (v : W32) :
    exec (.ringConsWrite f r v) s = .next (writeCons f r v s) := by
  change Host.Outcome.next (if s.sys.gateway then barWrite f (writeCons f r v) s else writeCons f r v s) = _
  rw [barWrite_reaches h, ite_self]

end Sys2Proof.Machine
end

section
/-! SUPPORT. Doorbells (R353 to R355): what a new tail and a new head do, and the journal entries that a
head forgets. -/
namespace Sys2Proof.Machine

theorem takesBell_iff {s : State} {f q : Nat} :
    takesBell s f q = true ↔ (queueOf s f q).st = 1 ∧ (fnOf s f).fenced = false := by
  simp only [takesBell, Bool.and_eq_true, beq_iff_eq, Bool.not_eq_true']

theorem queueError_within (f q cause : Nat) (s : State) : Within [.fns, .log] s (queueError f q cause s) :=
  (queueError_goes f q cause s Goes.rfl (List.Subset.refl _)).within

/-- A running pair goes to ERROR with the cause given. -/
theorem queueOf_queueError {f q : Nat} {s : State} (hf : f < s.fns.length) (hq : q < (fnOf s f).queues.length)
    (hruns : (queueOf s f q).st = 1) (cause : Nat) :
    queueOf (queueError f q cause s) f q = { queueOf s f q with st := 2, cause := cause } := by
  have hlength : f < (updQueue f q (fun x => { x with st := 2, cause := cause }) s).fns.length := by
    rw [updQueue_fns, length_lupd]; exact hf
  unfold queueError
  rw [if_pos hruns, queueOf_fnEvent hlength, queueOf_updQueue_self hf hq]

/-! The submission tail. -/

theorem writeTail_ignored {s : State} {f q : Nat} (h : takesBell s f q = false) (v : W32) : writeTail f q v s = s := by
  unfold writeTail
  dsimp only
  rw [h]
  exact if_pos rfl

theorem writeTail_inside {s : State} {f q : Nat} {v : W32} (h : takesBell s f q = true)
    (hn : bits v 11 0 < (queueOf s f q).n) :
    writeTail f q v s = hostActs (updQueue f q (fun x => { x with tail := bits v 11 0 }) s) := by
  have hin : ¬ bits v 11 0 ≥ (queueOf s f q).n := Nat.not_le.2 hn
  unfold writeTail
  dsimp only
  rw [h, if_neg (by decide), if_neg hin]

theorem writeTail_outside {s : State} {f q : Nat} {v : W32} (h : takesBell s f q = true)
    (hn : (queueOf s f q).n ≤ bits v 11 0) : writeTail f q v s = queueError f q 1 s := by
  have hout : bits v 11 0 ≥ (queueOf s f q).n := hn
  unfold writeTail
  dsimp only
  rw [h, if_neg (by decide), if_pos hout]

/-! The completion head. -/

/-- Entries that a head written as v releases, counted round the queue from those released before (R354). -/
def headStep (x : Queue) (v : W32) : Nat := (bits v 11 0 + x.n - x.released % x.n) % x.n

/-- A queue pair with d more entries released. -/
def releaseEntries (d : Nat) (x : Queue) : Queue :=
  { x with released := x.released + d, unreleased := x.unreleased.drop d }

/-- Commands forgotten one after the other. -/
def forgetToks (toks : List Nat) (s : State) : State := toks.foldl (fun s tok => forgetTok tok s) s

theorem writeHead_ignored {s : State} {f q : Nat} (h : takesBell s f q = false) (v : W32) : writeHead f q v s = s := by
  unfold writeHead
  dsimp only
  rw [h]
  exact if_pos rfl

theorem writeHead_unwritten {s : State} {f q : Nat} {v : W32} (h : takesBell s f q = true)
    (hbad : (queueOf s f q).n ≤ bits v 11 0 ∨
      (queueOf s f q).written - (queueOf s f q).released < headStep (queueOf s f q) v) :
    writeHead f q v s = queueError f q 2 s := by
  unfold writeHead
  dsimp only
  rw [h, if_neg (by decide)]
  rcases hbad with hn | hd
  · exact if_pos hn
  · split
    · rfl
    · exact if_pos hd

theorem writeHead_releases {s : State} {f q : Nat} {v : W32} (h : takesBell s f q = true)
    (hn : bits v 11 0 < (queueOf s f q).n)
    (hd : headStep (queueOf s f q) v ≤ (queueOf s f q).written - (queueOf s f q).released) :
    writeHead f q v s = forgetToks ((queueOf s f q).unreleased.take (headStep (queueOf s f q) v))
      (updQueue f q (releaseEntries (headStep (queueOf s f q) v)) s) := by
  have hin : ¬ bits v 11 0 ≥ (queueOf s f q).n := Nat.not_le.2 hn
  unfold headStep at hd
  have hwritten := Nat.not_lt.2 hd
  unfold writeHead
  dsimp only
  rw [h, if_neg (by decide), if_neg hin, if_neg hwritten]
  rfl

/-! Forgotten commands (R371). -/

/-- In a table with rising keys no key stands below the first. -/
theorem mget_below {α : Type} {m : Map α} {lo k : Nat} (hs : msorted (some lo) m = true) (hk : k ≤ lo) :
    mget m k = none := by
  induction m generalizing lo with
  | nil => rfl
  | cons e m ih =>
    obtain ⟨k', v⟩ := e
    simp only [msorted, Bool.and_eq_true, decide_eq_true_eq] at hs
    have hne : k ≠ k' := by omega
    simp only [mget, hne, if_false]
    exact ih hs.2 (by omega)

theorem mget_mdel_self {α : Type} {m : Map α} {lo : Option Nat} (hs : msorted lo m = true) (k : Nat) :
    mget (mdel m k) k = none := by
  induction m generalizing lo with
  | nil => rfl
  | cons e m ih =>
    obtain ⟨k', v⟩ := e
    have htail : msorted (some k') m = true := by
      cases lo with
      | none => exact hs
      | some lo =>
        simp only [msorted, Bool.and_eq_true] at hs
        exact hs.2
    unfold mdel
    split
    case isTrue hk => exact mget_below htail (Nat.le_of_eq hk)
    case isFalse hk => simpa only [mget, hk, if_false] using ih htail

/-- Only an entry that no ledger holds is forgotten. -/
theorem forgetTok_journal (tok : Nat) (s : State) : (forgetTok tok s).journal =
    if (jent s tok).any (fun j => !j.ledgered) then mdel s.journal tok else s.journal := by
  unfold forgetTok
  cases jent s tok with
  | none => rfl
  | some j =>
    cases hl : j.ledgered with
    | false =>
      simp only [hl, mirrorItem_journal, Option.any_some, Bool.not_false, Bool.false_eq_true, if_false, if_true]
    | true => simp only [hl, Option.any_some, Bool.not_true, Bool.false_eq_true, if_false, if_true]

theorem forgetTok_msorted {s : State} (hs : msorted none s.journal = true) (tok : Nat) :
    msorted none (forgetTok tok s).journal = true := by
  rw [forgetTok_journal]
  split
  · exact msorted_mdel _ tok hs
  · exact hs

theorem jent_forgetTok_other {k tok : Nat} (hk : k ≠ tok) (s : State) : jent (forgetTok tok s) k = jent s k := by
  unfold jent
  rw [forgetTok_journal]
  split
  · exact mget_mdel_other _ tok k hk
  · rfl

theorem jent_forgetTok_self {s : State} {tok : Nat} (hs : msorted none s.journal = true)
    (hfree : ∀ j, jent s tok = some j → j.ledgered = false) : jent (forgetTok tok s) tok = none := by
  change mget (forgetTok tok s).journal tok = none
  rw [forgetTok_journal]
  cases hj : jent s tok with
  | none => exact hj
  | some j => simpa only [Option.any_some, hfree j hj, Bool.not_false, if_true] using mget_mdel_self hs tok

theorem jent_forgetToks_other {k : Nat} {toks : List Nat} (hk : k ∉ toks) (s : State) :
    jent (forgetToks toks s) k = jent s k := by
  induction toks generalizing s with
  | nil => rfl
  | cons tok toks ih =>
    exact (ih (List.not_mem_of_not_mem_cons hk) (forgetTok tok s)).trans
      (jent_forgetTok_other (List.ne_of_not_mem_cons hk) s)

theorem jent_forgetToks_mem {s : State} {k : Nat} {toks : List Nat} (hs : msorted none s.journal = true)
    (hk : k ∈ toks) (hfree : ∀ j, jent s k = some j → j.ledgered = false) : jent (forgetToks toks s) k = none := by
  induction toks generalizing s with
  | nil => exact absurd hk List.not_mem_nil
  | cons tok toks ih =>
    change jent (forgetToks toks (forgetTok tok s)) k = none
    by_cases hrest : k ∈ toks
    · refine ih (forgetTok_msorted hs tok) hrest fun j hj => ?_
      by_cases hne : k = tok
      · subst hne; rw [jent_forgetTok_self hs hfree] at hj; exact nomatch hj
      · rw [jent_forgetTok_other hne] at hj; exact hfree j hj
    · have hself : k = tok := (List.mem_cons.1 hk).resolve_right hrest
      subst hself
      rw [jent_forgetToks_other hrest, jent_forgetTok_self hs hfree]

theorem forgetToks_goes {ps : List Part} {s0 s : State} (toks : List Nat) (h : Goes ps s0 s)
    (w : [.journal, .outbox] ⊆ ps) : Goes ps s0 (forgetToks toks s) :=
  Goes.foldl toks h fun _ tok h => forgetTok_goes tok _ h w

theorem forgetToks_fns (toks : List Nat) (s : State) : (forgetToks toks s).fns = s.fns :=
  (forgetToks_goes toks Goes.rfl (List.Subset.refl _)).within .fns (by decide)

end Sys2Proof.Machine
end

section
/-! SUPPORT. Register writes (R12, R203, R324): W1C registers, the doorbell and ring windows, SYS_RESET and CONS. -/
namespace Sys2Proof.Machine

/-! W1C registers. -/

/-- The main EVT registers of windows 0 to 14 of PF0's BAR, in window order. -/
def evtRegs (s : State) : List W32 :=
  [s.sys.evt, s.tamper.evt, s.log.evt, s.budget.evt, s.time.evt, s.skim.evt, s.hawk.evt, s.trowel.evt, s.sealer.evt,
    s.keys.evt, s.rng.evt, s.eng.evt, s.span.evt, s.pair.evt, s.sys.ddoEvt]

/-- Place of the main EVT register of window w (R324 for window 0). -/
def evtOffset (w : Nat) : Nat := if w = 0 then 0x0C else 4096 * w + 4

theorem clearEvt_evtRegs {w : Nat} (hw : w < 15) (v : W32) (s : State) :
    evtRegs (clearEvt w v s) = (evtRegs s).set w ((evtRegs s).getD w 0 &&& ~~~v) := by
  unfold clearEvt
  split
  case h_16 =>
    simp only [imp_false] at *
    omega
  all_goals rfl

theorem clearEvt_keeps (w : Nat) (v : W32) (s : State) :
    (clearEvt w v s).journal = s.journal ∧ (clearEvt w v s).fns = s.fns ∧
      (clearEvt w v s).log.queue = s.log.queue ∧ mode (clearEvt w v s) = mode s := by
  unfold clearEvt
  split <;> exact ⟨rfl, rfl, rfl, rfl⟩

theorem w1cAt_evtOffset {w : Nat} (hw : w < 15) (v : W32) (s : State) :
    w1cAt 0 (evtOffset w) v s = some (clearEvt w v s) := by
  unfold evtOffset
  split
  case isTrue h => subst h; rfl
  case isFalse h =>
    have hwindow : (4096 * w + 4) / 4096 = w := by omega
    have hplace : (4096 * w + 4) % 4096 = 4 := by omega
    have hrange : 1 ≤ w ∧ w ≤ 14 := by omega
    simp only [w1cAt, hwindow, hplace, hrange, h, ne_eq, not_true_eq_false, false_and, and_self, if_false, if_true]

theorem w1cAt_function {f : Nat} (hf : f ≠ 0) (v : W32) (s : State) :
    w1cAt f 0x0C v s = some (updFn f (fun x => { x with evt := w1c v x.evt }) s) := by
  simp only [w1cAt, ne_eq, hf, not_false_eq_true, if_true]

/-- The QUE_ window of PF0 holds no W1C register. -/
theorem w1cAt_queWindow {off : Nat} (hoff : off / 4096 = 15) (v : W32) (s : State) : w1cAt 0 off v s = none := by
  simp only [w1cAt, hoff, ne_eq, not_true_eq_false, reduceCtorEq, false_and, and_false, Nat.reduceLeDiff,
    Nat.reduceEqDiff, if_false]

theorem w1cAt_function_other {f off : Nat} (hf : f ≠ 0) (hoff : off ≠ 0x0C) (v : W32) (s : State) :
    w1cAt f off v s = none := by
  simp only [w1cAt, ne_eq, hf, hoff, not_false_eq_true, if_true, if_false]

/-! The windows of doorbells and rings. -/

theorem writeBell_tail {q : Nat} (hq : q < 16) (f : Nat) (v : W32) (s : State) :
    writeBell f (8 * q) v s = writeTail f q v s := by
  have hrange : 8 * q < 0x80 := by omega
  have hplace : 8 * q % 8 = 0 := by omega
  have hpair : 8 * q / 8 = q := by omega
  simp only [writeBell, hrange, hplace, hpair, if_true]

theorem writeBell_head {q : Nat} (hq : q < 16) (f : Nat) (v : W32) (s : State) :
    writeBell f (8 * q + 4) v s = writeHead f q v s := by
  have hrange : 8 * q + 4 < 0x80 := by omega
  have hplace : (8 * q + 4) % 8 = 4 := by omega
  have hpair : (8 * q + 4) / 8 = q := by omega
  simp only [writeBell, hrange, hplace, hpair, reduceCtorEq, if_true, if_false]

theorem writeRing_cons {r : Nat} (hr : r < 5) (f : Nat) (v : W32) (s : State) :
    writeRing f (16 * r) v s = writeCons f r v s := by
  have hplace : 16 * r % 16 = 0 := by omega
  have hring : 16 * r / 16 = r := by omega
  simp only [writeRing, hplace, hring, hr, and_self, if_true]

theorem writeRegister_w1c {f off : Nat} {v : W32} {s t : State} (h : w1cAt f off v s = some t) :
    writeRegister f off v s = t := by
  simp only [writeRegister, h]

theorem writeRegister_sysReset (v : W32) (s : State) : writeRegister 0 0x28 v s = writeReset v s := rfl

/-- Below the QUE_ window of PF0 only W1C registers and SYS_RESET take writes. -/
theorem writeRegister_ignored {off : Nat} {v : W32} {s : State} (hw1c : w1cAt 0 off v s = none) (hreset : off ≠ 0x28)
    (hwindow : off / 4096 < 15) : writeRegister 0 off v s = s := by
  have hque : off / 4096 ≠ 15 := by omega
  simp only [writeRegister, hw1c, hreset, hque, if_true, if_false]

/-- Offsets below 0x800 of PF0's QUE_ window are doorbells. -/
theorem writeRegister_queWindow {o : Nat} (ho : o < 0x800) (v : W32) (s : State) :
    writeRegister 0 (0xF000 + o) v s = writeBell 0 o v s := by
  have hwindow : (0xF000 + o) / 4096 = 15 := by omega
  have hplace : (0xF000 + o) % 4096 = o := by omega
  have hreset : 0xF000 + o ≠ 0x28 := by omega
  have hbell : ¬ o ≥ 0x800 := by omega
  simp only [writeRegister, w1cAt_queWindow hwindow, hwindow, hplace, hreset, hbell, if_true, if_false]

/-- Offsets from 0x800 of PF0's QUE_ window are its ring blocks. -/
theorem writeRegister_ringWindow {o : Nat} (ho : o < 0x800) (v : W32) (s : State) :
    writeRegister 0 (0xF800 + o) v s = writeRing 0 o v s := by
  have hwindow : (0xF800 + o) / 4096 = 15 := by omega
  have hplace : (0xF800 + o) % 4096 = 0x800 + o := by omega
  have hreset : 0xF800 + o ≠ 0x28 := by omega
  have hring : 0x800 + o ≥ 0x800 := by omega
  simp only [writeRegister, w1cAt_queWindow hwindow, hwindow, hplace, hreset, hring, if_true, if_false,
    Nat.add_sub_cancel_left]

/-- Window 1 of a VF is its doorbells. -/
theorem writeRegister_vfqWindow {f o : Nat} (hf : f ≠ 0) (ho : o < 0x1000) (v : W32) (s : State) :
    writeRegister f (0x1000 + o) v s = writeBell f o v s := by
  have hwindow : (0x1000 + o) / 4096 = 1 := by omega
  have hplace : (0x1000 + o) % 4096 = o := by omega
  have hevt : 0x1000 + o ≠ 0x0C := by omega
  simp only [writeRegister, w1cAt_function_other hf hevt, hwindow, hplace, hf, if_true, if_false]

/-! The consumer index (R203, R204, R342). -/

theorem writeCons_ignored {f r : Nat} {s : State} (h : (ringOf s f r).active = false ∨ (fnOf s f).fenced = true)
    (v : W32) : writeCons f r v s = s := by
  unfold writeCons
  dsimp only
  rcases h with h | h
  · rw [h]
    exact if_pos rfl
  · rw [h, Bool.or_true]
    exact if_pos rfl

theorem writeCons_inside {f r : Nat} {v : W32} {s : State} (hactive : (ringOf s f r).active = true)
    (hopen : (fnOf s f).fenced = false)
    (hin : ((ringOf s f r).prod + 4294967296 - v.toNat) % 4294967296 ≤ ringUnits (ringOf s f r)) :
    writeCons f r v s = updRing f r (fun x => { x with cons := v }) s := by
  have hring : ¬ ((ringOf s f r).prod + 4294967296 - v.toNat) % 4294967296 > ringUnits (ringOf s f r) :=
    Nat.not_lt.2 hin
  unfold writeCons
  dsimp only
  rw [hactive, hopen, if_neg (by decide), if_neg hring]

/-- What is left of a write outside the ring once BADCONS is set: the control block of a ring that is not stopped. -/
def reportBadCons (f r : Nat) (stopped : Bool) (s : State) : State := if stopped then s else writeControl f r s

theorem reportBadCons_goes {ps : List Part} {s0 : State} (f r : Nat) (stopped : Bool) {s : State} (h : Goes ps s0 s)
    (w : [.sys, .outbox] ⊆ ps) : Goes ps s0 (reportBadCons f r stopped s) :=
  Goes.ite h (writeControl_goes f r s h w)

theorem writeCons_outside {f r : Nat} {v : W32} {s : State} (hactive : (ringOf s f r).active = true)
    (hopen : (fnOf s f).fenced = false)
    (hout : ringUnits (ringOf s f r) < ((ringOf s f r).prod + 4294967296 - v.toNat) % 4294967296) :
    writeCons f r v s = event 6 5 (reportBadCons f r (ringOf s f r).stopped
      (updRing f r (fun x => { x with badCons := true }) s)) := by
  unfold writeCons
  dsimp only
  rw [hactive, hopen, if_neg (by decide)]
  exact if_pos hout

theorem ringOf_writeCons_outside {f r : Nat} {s : State} (hf : f < s.fns.length) (hr : r < (fnOf s f).rings.length)
    (stopped : Bool) :
    ringOf (event 6 5 (reportBadCons f r stopped (updRing f r (fun x => { x with badCons := true }) s))) f r =
      { ringOf s f r with badCons := true } := by
  rw [ringOf_congr (event_within 6 5 _ .fns (by decide)),
    ringOf_congr ((reportBadCons_goes f r stopped Goes.rfl (List.Subset.refl _)).within .fns (by decide)),
    ringOf_updRing_self hf hr]

end Sys2Proof.Machine
end

section
/-! SUPPORT. Register reads (R12, R87, R549) and what a mismatch of an SH field leads to: an alarm of source 15. -/
namespace Sys2Proof.Machine

theorem exec_loRegisterRead {s : State} {f : Nat} (h : ReachesBar s f) (off : Nat) :
    exec (.loRegisterRead f off) s = .next (readEffect f off (emit (.mmio f off (barValue s f off)) s)) :=
  congrArg Host.Outcome.next (barRead_reaches h off (readEffect f off))

theorem exec_shFieldRead {s : State} (h : ReachesBar s 0) (off : Nat) :
    exec (.shFieldRead off) s = .next (readEffect 0 off (emit (.mmio 0 off (barValue s 0 off)) s)) :=
  congrArg Host.Outcome.next (barRead_reaches h off (readEffect 0 off))

theorem barLo_emit (o : Output) (s : State) (f off : Nat) : barLo (emit o s) f off = barLo s f off := rfl

theorem shGood_emit (o : Output) (s : State) (off : Nat) : shGood (emit o s) off = shGood s off := rfl

theorem barValue_lo {s : State} {f off v : Nat} (h : barLo s f off = some v) :
    barValue s f off = BitVec.ofNat 32 v := by
  simp only [barValue, h]

/-! The effect of a read, on the state that has sent the value. -/

theorem readEffect_emit_lo {s : State} {f off v : Nat} (h : barLo s f off = some v) (o : Output) :
    readEffect f off (emit o s) =
      { emit o s with sys := { s.sys with
          hiLatch := mset s.sys.hiLatch (latchKey f (off + 4)) (BitVec.ofNat 32 (v / 4294967296)) } } := by
  simp only [readEffect, barLo_emit, h, emit_sys]

theorem readEffect_emit_none {s : State} {f off : Nat} (hlo : barLo s f off = none)
    (h : f ≠ 0 ∨ shGood s off = true) (o : Output) : readEffect f off (emit o s) = emit o s := by
  simp only [readEffect, barLo_emit, shGood_emit, hlo]
  exact if_pos h

theorem readEffect_emit_mismatch {s : State} {off : Nat} (hlo : barLo s 0 off = none) (h : shGood s off = false)
    (o : Output) : readEffect 0 off (emit o s) = tamperDetect 15 (emit o s) := by
  simp only [readEffect, barLo_emit, shGood_emit, hlo, h, ne_eq, not_true_eq_false, Bool.false_eq_true, or_self,
    if_false]

/-! Modes (R591): no update but a change of the mode field changes the mode. -/

theorem mode_congr {s t : State} (h : t.sys = s.sys) : mode t = mode s := by unfold mode; rw [h]

theorem mode_setModeField {m : Nat} (hm : m < 16) (s : State) : mode (setModeField m s) = m := by
  simp only [mode, setModeField, Sh.of, bits, BitVec.toNat_ofNat]
  omega

theorem mode_changeMode {m : Nat} (hm : m < 16) (s : State) : mode (changeMode m s) = m := by
  unfold changeMode
  split
  case isTrue h => exact h
  case isFalse => exact (mode_congr (logEv_within _ _ _ _ .sys (by decide))).trans (mode_setModeField hm s)

theorem mode_enterMode {m : Nat} (hm : m < 16) (s : State) : mode (enterMode m s) = m := by
  unfold enterMode
  split
  case isTrue h => exact h
  case isFalse => exact mode_changeMode hm (mirrorItem (.epoch (s.sys.epoch + 1)) s)

/-- A device that is not stopped yet ends in HALTED (R550). -/
theorem mode_enterHalted {s : State} (h : isStopped s = false) : mode (enterHalted s) = 5 := by
  have hentered := mode_enterMode (m := 5) (by decide) (stopDevice (announceFailure 1 s))
  unfold enterHalted
  dsimp only
  rw [h, if_neg (by decide)]
  split
  · exact (mode_congr ((rngRestart_goes _ Goes.rfl (List.Subset.refl _)).within .sys (by decide))).trans hentered
  · exact hentered

/-- HALT outside START-UP. -/
theorem mode_haltResponse {s : State} (hstartup : s.sys.startup = false) (h : isStopped s = false) :
    mode (haltResponse s) = 5 := by
  have hlogged : mode (event 1 2 s) = mode s := mode_congr (event_within 1 2 s .sys (by decide))
  have hrunning : (event 1 2 s).sys.startup = false := by rw [event_within 1 2 s .sys (by decide)]; exact hstartup
  unfold haltResponse
  dsimp only
  rw [hrunning, if_neg (by decide)]
  refine mode_enterHalted ?_
  unfold isStopped at h ⊢
  rw [hlogged]; exact h

/-! ZEROIZE (R490, R551). -/

theorem keys_zeroizeLog (step src : Nat) (s : State) : (zeroizeLog step src s).keys = s.keys :=
  logEv_within _ _ _ s .keys (by decide)

theorem keys_announceFailure (cause : Nat) (s : State) : (announceFailure cause s).keys = s.keys :=
  (announceFailure_goes cause s Goes.rfl (List.Subset.refl _)).within .keys (by decide)

theorem keys_stopDevice (s : State) : (stopDevice s).keys = s.keys :=
  (stopDevice_goes s Goes.rfl (List.Subset.refl _)).within .keys (by decide)

theorem keys_advanceTamper (src : Nat) (s : State) : (advanceTamper src s).keys = s.keys :=
  (advanceTamper_goes src s Goes.rfl (List.Subset.refl _)).within .keys (by decide)

theorem keys_enterMode {m : Nat} (hm : m ≤ 7) (s : State) : (enterMode m s).keys = s.keys :=
  (enterMode_goes m s Goes.rfl (List.Subset.refl _) hm).within .keys (by decide)

theorem bbkek_wipeOwnerSlots (s : State) : (wipeOwnerSlots s).keys.bbkek = s.keys.bbkek := rfl

theorem bbkek_zeroizeTwo (src : Nat) (s : State) : (zeroizeTwo src s).keys.bbkek = none := by
  simp only [zeroizeTwo, keys_zeroizeLog, eraseBbkek]

/-- BBKEK goes in step 1 of R551, and no later step brings it back. -/
theorem bbkek_zeroize (src : Nat) (s : State) : (zeroize src s).keys.bbkek = none := by
  have hmode (n : Nat) : (if n ≥ 64 then 7 else 6) ≤ 7 := by split <;> decide
  unfold zeroize
  dsimp only
  rw [keys_zeroizeLog, keys_enterMode (hmode _)]
  dsimp only
  rw [keys_zeroizeLog, bbkek_wipeOwnerSlots, keys_zeroizeLog]
  split <;>
    simp only [keys_advanceTamper, keys_zeroizeLog, keys_stopDevice, keys_announceFailure, bbkek_zeroizeTwo]

/-! Alarms (R545, R550, R554). -/

/-- An event that fills its window is an alarm: the die runs, and a main-power monitor is armed. -/
theorem tamperDetect_alarm {s : State} {i : Nat} (hheld : s.sys.held = false) (harmed : s.tamper.armed = true)
    (hi : i < 18) (hfull : max 1 (tmpN s i) ≤ (windowEvents s i (tmpW s i * 1000000)).length) :
    tamperDetect i s = tamperAlarm i s := by
  have hsource : ¬ i ≥ 18 := Nat.not_le.2 hi
  simp only [tamperDetect, hheld, harmed, hsource, decide_false, Bool.not_true, Bool.and_false, Bool.or_self,
    Bool.false_eq_true, if_false, if_pos hfull]

/-- An alarm runs its response on a state in which only the tamper controller and the recorder differ. -/
theorem tamperAlarm_runs (i : Nat) (s : State) :
    ∃ u, tamperAlarm i s = runResponse (respRun s i) i u ∧ Within [.tamper, .log] s u := by
  unfold tamperAlarm
  dsimp only
  refine ⟨_, rfl, (tamperLog_goes _ _ _ _ _ _ (event_goes 1 0 _ (Goes.move
    (updSrc_goes i _ s Goes.rfl (reach (List.Subset.refl _) rfl)) ?_ (tamperOnly (List.Subset.refl _) rfl))
    (List.Subset.refl _)) (reach (List.Subset.refl _) rfl)).within⟩
  exact fun h => ⟨h, Nat.le_refl _, Nat.le_refl _, Nat.le_refl _, Nat.le_refl _, rfl⟩

/-- Outside START-UP a stopped device answers no alarm with HALT (R553, R554). -/
theorem isStopped_of_respRun_halt {s : State} {i : Nat} (hstartup : s.sys.startup = false) (h : respRun s i = 2) :
    isStopped s = false := by
  have hmode : mode s ≠ 5 ∧ mode s ≠ 6 ∧ mode s ≠ 7 := by
    refine ⟨fun hm => ?_, fun hm => ?_, fun hm => ?_⟩ <;>
      · simp only [respRun, hstartup, hm, Bool.false_eq_true, if_false] at h
        (repeat' split at h) <;> exact absurd h (by decide)
  obtain ⟨h5, h6, h7⟩ := hmode
  simp only [isStopped, beq_eq_false_iff_ne.2 h5, beq_eq_false_iff_ne.2 h6, beq_eq_false_iff_ne.2 h7, Bool.or_self]

theorem mode_tamperAlarm_halt {s : State} {i : Nat} (hstartup : s.sys.startup = false) (h : respRun s i = 2) :
    mode (tamperAlarm i s) = 5 := by
  obtain ⟨u, hruns, hwithin⟩ := tamperAlarm_runs i s
  have hsys : u.sys = s.sys := hwithin .sys (by decide)
  have hstopped := isStopped_of_respRun_halt hstartup h
  rw [hruns, h]
  refine mode_haltResponse (hsys ▸ hstartup) ?_
  unfold isStopped at hstopped ⊢
  rw [mode_congr hsys]; exact hstopped

theorem bbkek_tamperAlarm_zeroize {s : State} {i : Nat} (h : respRun s i = 3) :
    (tamperAlarm i s).keys.bbkek = none := by
  obtain ⟨u, hruns, -⟩ := tamperAlarm_runs i s
  rw [hruns, h]
  exact bbkek_zeroize i (event 1 1 u)

end Sys2Proof.Machine
end

section
/-! SUPPORT. SPDM and IDE (R320 to R322, log 54), and the statement O59. -/
namespace Sys2Proof.Machine

/-- What a request to the responder changes: the session, and the streams keyed over it. -/
def spdmSys (r : SpdmReq) (y : Sys) : Sys :=
  match r with
  | .keyExchange ok => if ok then { y with spdm := true } else y
  | .ideLinkKey => if y.spdm then { y with ideLink := 2 } else y
  | .ideSelKey n lo hi => if y.spdm ∧ n < 16 then { y with ideSel := mset y.ideSel n (lo, hi) } else y
  | .ideStop none => if y.spdm then { y with ideLink := 1 } else y
  | .ideStop (some n) => if y.spdm then { y with ideSel := mdel y.ideSel n } else y
  | _ => y

theorem ite_with_sys {c : Prop} [Decidable c] (y : Sys) (s : State) :
    (if c then { s with sys := y } else s) = { s with sys := if c then y else s.sys } := by split <;> rfl

/-- After START-UP a request is answered, and changes the system part as spdmSys says. -/
theorem exec_spdmRequest {s : State} (hheld : s.sys.held = false) (hstartup : s.sys.startup = false) (r : SpdmReq) :
    exec (.spdmRequest r) s = .next { emit (.spdm (spdmAnswer r s)) s with sys := spdmSys r s.sys } := by
  change Host.Outcome.next _ = _
  rw [if_neg (ne_true_of_eq_false hheld), if_neg (ne_true_of_eq_false hstartup)]
  cases r with
  | getCertificate _ => rfl
  | getMeasurement _ => rfl
  | keyExchange _ => exact congrArg Host.Outcome.next (ite_with_sys _ _)
  | ideLinkKey => exact congrArg Host.Outcome.next (ite_with_sys _ _)
  | ideSelKey _ _ _ => exact congrArg Host.Outcome.next (ite_with_sys _ _)
  | ideStop stream =>
    cases stream with
    | none => exact congrArg Host.Outcome.next (ite_with_sys _ _)
    | some _ => exact congrArg Host.Outcome.next (ite_with_sys _ _)

/-- Settles O59: each request that reaches its BAR or configuration space is one of the writes, reads and answers whose
rules stand above. -/
theorem hostRequests : Obligations.HostRequests := by
  unfold Obligations.HostRequests
  refine ⟨?doorbells, ?writes, ?rings, ?reads, ?config, ?spdm⟩
  case doorbells =>
    intro f q v s hreach hf hq x n d
    rw [exec_sqTailDoorbell hreach, exec_cqHeadDoorbell hreach]
    have hruns (h : takesBell s f q = true) : x.st = 1 := (takesBell_iff.1 h).1
    refine ⟨fun h => ?ignored, fun h hn => ?tail, fun h hn => ?tailError, fun h hbad => ?headError,
      fun h hn hd => ?head⟩
    case ignored => exact ⟨congrArg _ (writeTail_ignored h v), congrArg _ (writeHead_ignored h v)⟩
    case tail =>
      rw [writeTail_inside h hn]
      exact ⟨_, rfl, (hostActs_goes _ (updQueue_goes f q _ s Goes.rfl (reach (List.Subset.refl _) rfl))
        (reach (List.Subset.refl _) rfl)).within, queueOf_updQueue_self hf hq _⟩
    case tailError =>
      rw [writeTail_outside h hn]
      exact ⟨_, rfl, queueError_within f q 1 s, queueOf_queueError hf hq (hruns h) 1⟩
    case headError =>
      rw [writeHead_unwritten h hbad]
      exact ⟨_, rfl, queueError_within f q 2 s, queueOf_queueError hf hq (hruns h) 2⟩
    case head =>
      rw [writeHead_releases h hn hd]
      refine ⟨_, rfl, (forgetToks_goes _ (updQueue_goes f q _ s Goes.rfl (reach (List.Subset.refl _) rfl))
        (reach (List.Subset.refl _) rfl)).within, ?_, fun k hk => jent_forgetToks_other hk _,
        fun hs k hk j hj hfree => ?_⟩
      · rw [queueOf_congr (forgetToks_fns _ _), queueOf_updQueue_self hf hq]
        rfl
      · exact jent_forgetToks_mem hs hk fun i hi => by cases hj.symm.trans hi; exact hfree
  case writes =>
    intro v s evts
    refine ⟨fun w hw hreach => ?evt, fun f hf _ hreach => ?vfEvt, fun f off hreach hnone => ?noW1c,
      fun hreach hkey => ?reset, fun hreach hkey => ?resetRefused, fun off hreach hnone hoff hwindow => ?ignored,
      fun q hq hreach => ?bells, fun f q hf hq hreach => ?vfBells, fun r hr hreach _ => ?cons⟩
    case evt =>
      have hw1c : w1cAt 0 (if w = 0 then 0x0C else 4096 * w + 4) v s = some (clearEvt w v s) := w1cAt_evtOffset hw v s
      rw [exec_evtW1cWrite hreach, exec_registerWrite hreach, writeRegister_w1c hw1c, hw1c]
      exact ⟨_, rfl, rfl, clearEvt_evtRegs hw v s, clearEvt_keeps w v s⟩
    case vfEvt => rw [exec_evtW1cWrite hreach, w1cAt_function hf]; rfl
    case noW1c => rw [exec_evtW1cWrite hreach, hnone]; rfl
    case reset =>
      rw [exec_registerWrite hreach, writeRegister_sysReset, writeReset, if_pos hkey]
    case resetRefused =>
      rw [exec_registerWrite hreach, writeRegister_sysReset, writeReset, if_neg hkey]
      exact ⟨_, rfl, event_within 0 5 s, by rw [event_sys_window]; exact getLsbD_setBit_self _ (by decide)⟩
    case ignored => rw [exec_registerWrite hreach, writeRegister_ignored hnone hoff hwindow]
    case bells =>
      rw [exec_sqTailDoorbell hreach, exec_cqHeadDoorbell hreach, exec_registerWrite hreach, exec_registerWrite hreach,
        Nat.add_assoc, writeRegister_queWindow (by omega), writeRegister_queWindow (by omega), writeBell_tail hq,
        writeBell_head hq]
      exact ⟨rfl, rfl⟩
    case vfBells =>
      rw [exec_sqTailDoorbell hreach, exec_cqHeadDoorbell hreach, exec_registerWrite hreach, exec_registerWrite hreach,
        Nat.add_assoc, writeRegister_vfqWindow hf (by omega), writeRegister_vfqWindow hf (by omega), writeBell_tail hq,
        writeBell_head hq]
      exact ⟨rfl, rfl⟩
    case cons =>
      rw [exec_registerWrite hreach, exec_ringConsWrite hreach, writeRegister_ringWindow (by omega), writeRing_cons hr]
  case rings =>
    intro f r v s hf hr hreach x
    rw [exec_ringConsWrite hreach]
    refine ⟨fun h => congrArg _ (writeCons_ignored h v),
      fun hactive hopen hin => congrArg _ (writeCons_inside hactive hopen hin), fun hactive hopen hout => ?bad⟩
    case bad =>
      rw [writeCons_outside hactive hopen hout]
      refine ⟨_, rfl, (event_goes 6 5 _ (reportBadCons_goes f r _ (updRing_goes f r _ s Goes.rfl ?_) ?_) ?_).within,
        ringOf_writeCons_outside hf hr _, ?_⟩
      iterate 3 exact reach (List.Subset.refl _) rfl
      rw [event_hawk_window]
      exact getLsbD_setBit_self _ (by decide)
  case reads =>
    intro f off s hheld henabled
    have hreach (hrun : s.sys.startup = false) (hide : ideDrop s f = false) : ReachesBar s f :=
      ⟨hheld, henabled, hrun, hide⟩
    refine ⟨fun hstartup => ?startup, fun v hrun hide hlo => ?lo, fun hrun hide hlo hgood => ?plain,
      fun hf hrun hide hlo hgood => ?sh, fun hf hrun hide hlo hgood harmed hfull => ?mismatch⟩
    case startup => exact congrArg Host.Outcome.next (barRead_startup hheld henabled hstartup off _)
    case lo =>
      rw [exec_loRegisterRead (hreach hrun hide), readEffect_emit_lo hlo, barValue_lo hlo]
      rfl
    case plain =>
      rw [exec_loRegisterRead (hreach hrun hide), readEffect_emit_none hlo hgood]
      rfl
    case sh =>
      subst hf
      rw [exec_shFieldRead (hreach hrun hide), readEffect_emit_none hlo (.inr hgood)]
      rfl
    case mismatch =>
      subst hf
      have halarm := tamperDetect_alarm (s := emit (.mmio 0 off (barValue s 0 off)) s) (i := 15) hheld harmed
        (by decide) hfull
      rw [exec_shFieldRead (hreach hrun hide), readEffect_emit_mismatch hlo hgood, halarm]
      exact ⟨_, rfl, fun h => mode_tamperAlarm_halt (s := emit _ s) hrun h,
        fun h => bbkek_tamperAlarm_zeroize (s := emit _ s) h⟩
  case config =>
    intro f s
    refine ⟨fun hheld => ?held, fun hheld => ?answered, rfl, ?device, rfl, ?bars⟩
    case held =>
      change Host.Outcome.next _ = _
      rw [if_pos hheld]
    case answered =>
      change Host.Outcome.next _ = _
      rw [hheld, if_neg (by decide)]
      split
      · rfl
      · split <;> rfl
    case device => simp only [pcieConfig, beq_iff_eq]
    case bars => simp only [pcieConfig, beq_iff_eq]
  case spdm =>
    intro r s
    refine ⟨fun hheld => ?held, fun hheld hstartup => ?startup, fun hheld hrun => ?answered⟩
    case held =>
      change Host.Outcome.next _ = _
      rw [if_pos hheld]
    case startup =>
      change Host.Outcome.next _ = _
      rw [hheld, if_neg (by decide), if_pos hstartup]
      rfl
    case answered =>
      have hexec := exec_spdmRequest hheld hrun r
      refine ⟨_, hexec, ((execSpdmRequest_goes r s Goes.rfl (List.Subset.refl _)).holds _ hexec).within, rfl,
        fun n hr hlow hhigh => ?measurement, fun ok hr => ?keyExchange, fun hr => ?linkKey,
        fun n lo hi hr hn => ?selKey, fun hr => ?stopLink, fun n hr => ?stopSel⟩
      case measurement => subst hr; exact if_pos ⟨hlow, hhigh⟩
      case keyExchange => subst hr; rfl
      case linkKey => subst hr; rfl
      case selKey => subst hr; simp only [spdmSys, hn, and_true]
      case stopLink => subst hr; rfl
      case stopSel => subst hr; rfl

end Sys2Proof.Machine
end

section
/-! SUPPORT. Rules that the publication commands share: contexts read back after a change, what a command that takes effect
leaves of the state its effect made, and parts left alone. -/
namespace Sys2Proof.Machine

/-! Parts. -/

theorem Within.mono {ps qs : List Part} {s t : State} (h : Within ps s t) (hsub : ps ⊆ qs) : Within qs s t :=
  fun p hp => h p fun hmem => hp (hsub hmem)

theorem Within.trans {ps : List Part} {s t u : State} (h : Within ps s t) (g : Within ps t u) : Within ps s u :=
  fun p hp => Part.same_trans (h p hp) (g p hp)

/-! Contexts. -/

theorem ctxOf_congr {s t : State} (h : t.skim = s.skim) (k : Nat) : ctxOf t k = ctxOf s k := by
  unfold ctxOf; rw [h]

theorem ctxOf_updCtx_self (k : Nat) (g : Ctx → Ctx) (s : State) : ctxOf (updCtx k g s) k = (ctxOf s k).map g :=
  mget_mupd_self s.skim.ctx k g

/-- Deleting an entry forgets what was changed in it before. -/
theorem mdel_mupd {α : Type} (m : Map α) (k : Nat) (f : α → α) : mdel (mupd m k f) k = mdel m k := by
  induction m with
  | nil => rfl
  | cons e m ih =>
    obtain ⟨k', v⟩ := e
    by_cases hk : k = k'
    · simp only [mupd, mdel, hk, if_true]
    · simp only [mupd, mdel, hk, if_false, ih]

theorem ctx_writeBackCtx (k : Nat) (s : State) : (writeBackCtx k s).skim.ctx = s.skim.ctx := by
  have hseal : (sealWrite 1 (k / 2) (ctxSector s k) s).skim = s.skim :=
    (sealWrite_goes 1 (k / 2) (ctxSector s k) s Goes.rfl (List.Subset.refl _)).within .skim (by decide)
  unfold writeBackCtx
  dsimp only
  split
  · rw [hseal]
  · rfl

/-- What leaves the cache stays in the context table (R140, R143). -/
theorem ctx_trimCache (s : State) : (trimCache s).skim.ctx = s.skim.ctx := by
  unfold trimCache
  dsimp only
  refine List.foldlRecOn (motive := fun t : State => t.skim.ctx = s.skim.ctx) _ _ rfl fun t ht k _ => ?_
  split
  · exact (ctx_writeBackCtx k t).trans ht
  · exact ht

theorem ctxOf_newCtx_self (k : Nat) (x : Ctx) (s : State) : ctxOf (newCtx k x s) k = some x := by
  have htable (u : State) (hu : u.skim.ctx = mset s.skim.ctx k x) : ctxOf (trimCache u) k = some x := by
    unfold ctxOf
    rw [ctx_trimCache, hu]
    exact mget_mset_self s.skim.ctx k x
  unfold newCtx
  dsimp only
  split
  · exact htable _ rfl
  · exact htable _ rfl

/-! A command whose outcome follows at once. -/

theorem settle_within (tok status : Nat) (result : W32) (out : List Byte) (s : State) :
    Within [.journal, .span, .outbox] s (settle tok status result out s) :=
  (settle_goes tok status result out s Goes.rfl (List.Subset.refl _)).within

/-- A plain command whose check passes ends as its effect says, and leaves the rest of the effect's state alone. -/
theorem runPlain_ends {check eff} {c : Cmd} {s : State} {e : Eff} (hruns : runnable s c = true)
    (hcheck : check c s = none) (heff : eff c s = e) (hjournal : e.st.journal = s.journal) :
    Ends s (runPlain check eff c s) c.tok e.status e.result e.out ∧
      Within [.journal, .span, .outbox] e.st (runPlain check eff c s) := by
  obtain ⟨j, hj, -⟩ := runnable_jent hruns
  rw [runPlain_passes hruns hcheck, heff]
  exact ⟨settle_ends _ _ _ hjournal hj, settle_within _ _ _ _ _⟩

/-- The system part of the state in which a configuration command's outcome is journalled. -/
theorem newEpoch_bumpEpoch {s u t : State} (hu : u.sys = s.sys) (ht : t.sys = (bumpEpoch u).sys) : NewEpoch s t := by
  unfold NewEpoch
  rw [ht]
  unfold bumpEpoch
  dsimp only
  rw [hu]
  exact ⟨rfl, rfl⟩

/-- A configuration command that may take effect, whose check passes and whose effect is a change of the state alone: it is
applied, and what its effect made of the other parts stands. -/
theorem runConfig_applied {check eff} {c : Cmd} {s u : State} {ps : List Part} (happlies : mayApply s c = true)
    (hcheck : check c s = none) (heff : eff c s = done u) (hwithin : Within (.outbox :: ps) s u)
    (hparts : Part.journal ∉ ps ∧ Part.sys ∉ ps) :
    Applied ps s (runConfig check eff c s) c ∧ Within [.sys, .journal, .span, .outbox] u (runConfig check eff c s) := by
  obtain ⟨hjournal, hsys⟩ := hparts
  obtain ⟨j, hj, -⟩ := runnable_jent (mayApply_spec happlies).1
  let v := mirrorItem (.config c (s.sys.epoch + 1)) u
  have hruns : runConfig check eff c s = settle c.tok 0 0 [] (bumpEpoch v) := by
    unfold runConfig
    rw [runConfigBy_applies happlies, applyConfig_passes hcheck (by rw [heff]; rfl), heff]
    rfl
  have hkept : Within [.sys, .journal, .span, .outbox] u (settle c.tok 0 0 [] (bumpEpoch v)) :=
    (settle_goes c.tok 0 0 [] _ (bumpEpoch_goes v (mirrorItem_goes _ u Goes.rfl (by decide)) (by decide)) (by decide)).within
  have hjournalled : (bumpEpoch v).journal = s.journal :=
    (mirrorItem_journal _ u).trans (hwithin .journal (by simp only [List.mem_cons, hjournal, reduceCtorEq, or_self, not_false_eq_true]))
  have husys : v.sys = s.sys :=
    (mirrorItem_sys _ u).trans (hwithin .sys (by simp only [List.mem_cons, hsys, reduceCtorEq, or_self, not_false_eq_true]))
  rw [hruns]
  refine ⟨⟨settle_ends 0 0 [] hjournalled hj, newEpoch_bumpEpoch husys (settle_sys ..), ?_⟩, hkept⟩
  refine (hwithin.mono ?_).trans (hkept.mono (List.subset_append_left ..))
  exact List.cons_subset.2 ⟨by simp, List.subset_append_right ..⟩

end Sys2Proof.Machine
end

section
/-! SUPPORT. KEY_PROMOTE of a next receive association (R110), and the statement O39, which a table with two entries of one
number refutes. -/
namespace Sys2Proof.Machine

/-! A table with rising keys holds one entry of each key. -/

theorem msorted_lt {α : Type} {m : Map α} {lo : Nat} (hs : msorted (some lo) m = true) {e : Nat × α} (he : e ∈ m) :
    lo < e.1 := by
  induction m generalizing lo with
  | nil => exact absurd he List.not_mem_nil
  | cons a m ih =>
    simp only [msorted, Bool.and_eq_true, decide_eq_true_eq] at hs
    rcases List.mem_cons.1 he with rfl | he
    · exact hs.1
    · exact Nat.lt_trans hs.1 (ih hs.2 he)

theorem mget_of_mem {α : Type} {m : Map α} (hs : msorted none m = true) {e : Nat × α} (he : e ∈ m) :
    mget m e.1 = some e.2 := by
  induction m with
  | nil => exact absurd he List.not_mem_nil
  | cons a m ih =>
    rcases List.mem_cons.1 he with rfl | he
    · exact if_pos rfl
    · have hne : e.1 ≠ a.1 := Nat.ne_of_gt (msorted_lt hs he)
      exact (if_neg hne).trans (ih (msorted_none hs) he)

/-! With rising keys the clause of O39 holds: the current association of the channel is another entry. -/

theorem currentOf_ne {s : State} {k o : Nat} {x : Ctx} (hs : msorted none s.skim.ctx = true) (hx : ctxOf s k = some x)
    (hnext : x.sa.current = false) (ho : currentOf s x.sa = some o) : k ≠ o := by
  obtain ⟨e, he, rfl⟩ := Option.map_eq_some_iff.1 ho
  have hcurrent := List.find?_some he
  rintro rfl
  cases hx.symm.trans (mget_of_mem hs (List.mem_of_find?_eq_some he))
  rw [hnext, Bool.and_false] at hcurrent
  exact absurd hcurrent (by decide)

theorem ctxOf_dropSa_other {k o : Nat} (hk : k ≠ o) (s : State) : ctxOf (dropSa o s) k = ctxOf s k :=
  mget_mdel_other s.skim.ctx o k hk

theorem ctxOf_keyPromoteLog (ctx slot : Nat) (keyId : W32) (s : State) (k : Nat) :
    ctxOf (keyPromoteLog ctx slot keyId s) k = ctxOf s k :=
  ctxOf_congr (logEv_within _ _ _ _ .skim (by decide)) k

theorem ctxOf_promoteRx {s : State} {k : Nat} {x : Ctx} (hs : msorted none s.skim.ctx = true) (hx : ctxOf s k = some x)
    (hnext : x.sa.current = false) :
    ctxOf (promoteRx k x s) k = some { x with sa := { x.sa with current := true } } := by
  unfold promoteRx
  dsimp only
  rw [ctxOf_keyPromoteLog, ctxOf_updCtx_self]
  cases ho : currentOf s x.sa with
  | none => rw [hx]; rfl
  | some o =>
    dsimp only
    rw [ctxOf_dropSa_other (currentOf_ne hs hx hnext ho), hx]; rfl

/-! With two entries of one number it is the first of them that leaves the table. -/

/-- A next receive association of port 0, and a current one of the same channel with another overlap. -/
def nextRxSa : Ctx := { (default : Ctx) with kind := 6 }
def currentRxSa : Ctx := { nextRxSa with overlap := 1, sa := { nextRxSa.sa with current := true } }

/-- A state whose context table lists both under number 0, once slot 0 of bus pair 0 has started. -/
def twiceListed : State :=
  { State.reset with
    time := { State.reset.time with bps := [{ (default : BpTime) with fired := some 0 }] }
    skim := { State.reset.skim with ctx := [(0, nextRxSa), (0, currentRxSa)] } }

theorem keyPromote_twiceListed {t : State} (h : exec (.keyPromote 0) twiceListed = .next t) :
    ctxOf t 0 = some currentRxSa := by
  cases h
  rfl

/-- Refutes O39: its clause for a next MACsec receive association speaks of every state, and in one whose context table lists
the association's number twice the device drops the next association in place of the current one. A table with rising keys
lists no number twice; there the clause holds (ctxOf_promoteRx). -/
theorem not_skimEvents : ¬ Obligations.SkimEvents := by
  unfold Obligations.SkimEvents
  intro h
  obtain ⟨-, -, -, -, -, -, -, -, -, -, hreceive, -⟩ := h twiceListed
  obtain ⟨t, hnext, -, hctx⟩ := hreceive 0 nextRxSa 0 rfl rfl rfl rfl rfl (by decide)
  have hoverlap := congrArg (Option.map Ctx.overlap) ((keyPromote_twiceListed hnext).symm.trans hctx)
  exact absurd hoverlap (by decide)

end Sys2Proof.Machine
end

section
/-! SUPPORT. The effects of the pub. commands on the context of the publication (R285 to R308). -/
namespace Sys2Proof.Machine

/-! The context in CTX. -/

theorem notPub_eq_false {s : State} {k : Nat} {x : Ctx} {draining : Bool} (hx : ctxOf s k = some x) (hkind : x.kind = 5)
    (hst : draining = false → x.st ≠ 2) : notPub s k draining = false := by
  unfold notPub
  rw [hx]
  cases draining with
  | true => simp [hkind]
  | false => simpa [hkind] using hst rfl

theorem isGoosePub_eq_true {x : Ctx} (hkind : x.kind = 5) (hgoose : x.pub.ptype = 0 ∨ x.pub.ptype = 2) :
    isGoosePub x = true := by
  unfold isGoosePub
  simpa [hkind] using hgoose

theorem ctxOf_updPub_self (k : Nat) (g : PubPart → PubPart) (s : State) :
    ctxOf (updPub k g s) k = (ctxOf s k).map (fun x => { x with pub := g x.pub }) :=
  ctxOf_updCtx_self k _ s

theorem ctxOf_cntCtx_self (k i n : Nat) (s : State) :
    ctxOf (cntCtx k i n s) k = (ctxOf s k).map (fun x => { x with cnt := lupd x.cnt i (fun v => sat32 (v + n)) }) :=
  ctxOf_updCtx_self k _ s

/-! pub.open (R285, R289, R300). -/

/-- A pub.open that no check refuses has a template in its input. -/
theorem parseTemplate_of_pubOpenCheck {c : Cmd} {s : State} (h : pubOpenCheck c s = none) :
    ∃ m, parseTemplate (poType c) (cLen c) c.input = some m := by
  cases hm : parseTemplate (poType c) (cLen c) c.input with
  | some m => exact ⟨m, rfl⟩
  | none =>
    unfold pubOpenCheck at h
    dsimp only at h
    rw [hm] at h
    split at h <;> cases h

/-- The context that pub.open allocates. -/
def openedCtx (c : Cmd) (s : State) (m : Template) : Ctx :=
  { (default : Ctx) with
    kind := 5, st := 1, bp := poBp c, fn := poFn c, gen := nextGen s (cCtx c), nameh := (Config.hash 3 m.name).take 16
    sim := m.sim, keyCur := poKey c, keyNxt := poNext c, keyIdCur := cw c 14, macAlg := poAlg c, cnt := List.replicate 16 0
    pub := openPart c (slotRate s (poBp c)) (if s.time.tstate = 0 then 0 else curSlot s (poBp c)) }

/-- The state that pub.open makes. -/
def opened (c : Cmd) (s : State) (m : Template) : State :=
  let u := newCtx (cCtx c) (openedCtx c s m) s
  { u with publ := { u.publ with templates := mset u.publ.templates (cCtx c - 0x5000) m } }

theorem pubOpenEff_eq {c : Cmd} {s : State} {m : Template} (hm : parseTemplate (poType c) (cLen c) c.input = some m) :
    pubOpenEff c s = done (opened c s m) := by
  unfold pubOpenEff
  rw [hm]
  rfl

theorem ctxOf_opened (c : Cmd) (s : State) (m : Template) : ctxOf (opened c s m) (cCtx c) = some (openedCtx c s m) :=
  ctxOf_newCtx_self (cCtx c) (openedCtx c s m) s

theorem templates_opened (c : Cmd) (s : State) (m : Template) :
    mget (opened c s m).publ.templates (cCtx c - 0x5000) = some m :=
  mget_mset_self _ _ m

/-! pub.close (R295). -/

/-- The last frame of a DRAINING publication frees it. -/
theorem frameGone_frees {s : State} {k : Nat} {x : Ctx} (hx : ctxOf s k = some x) (hkind : x.kind = 5) (hst : x.st = 2)
    (hlast : x.pub.inFlight - 1 = 0) :
    (frameGone k s).skim.ctx = mdel s.skim.ctx k ∧ (frameGone k s).publ.templates = mdel s.publ.templates (k - 0x5000) := by
  unfold frameGone
  dsimp only
  rw [ctxOf_updCtx_self, hx]
  simp only [Option.map_some, hkind, hst, hlast, beq_self_eq_true, Bool.and_self, if_true]
  exact ⟨mdel_mupd s.skim.ctx k _, rfl⟩

/-- A frame that is not the last of its publication leaves it as it is. -/
theorem ctxOf_frameGone {s : State} {k : Nat} {x : Ctx} (hx : ctxOf s k = some x) (hmore : x.pub.inFlight - 1 ≠ 0) :
    ctxOf (frameGone k s) k = some { x with pub := { x.pub with inFlight := x.pub.inFlight - 1 } } := by
  have hmore' : (x.pub.inFlight - 1 == 0) = false := beq_false_of_ne hmore
  unfold frameGone
  dsimp only
  rw [ctxOf_updCtx_self, hx]
  simp only [Option.map_some, hmore', Bool.and_false, Bool.false_eq_true, if_false]
  rw [ctxOf_updCtx_self, hx]
  rfl

theorem pubCloseEff_frees {c : Cmd} {s : State} {x : Ctx} (hx : ctxOf s (cCtx c) = some x) (hkind : x.kind = 5)
    (hnone : x.pub.inFlight = 0) :
    (pubCloseEff c s).st.skim.ctx = mdel s.skim.ctx (cCtx c) ∧
      (pubCloseEff c s).st.publ.templates = mdel s.publ.templates (cCtx c - 0x5000) := by
  have hdrained := (ctxOf_updCtx_self (cCtx c)
    (fun x => { x with st := 2, pub := { x.pub with nextTx := 0, inFlight := x.pub.inFlight + 1 } }) s).trans
    (congrArg _ hx)
  obtain ⟨hctx, htemplates⟩ := frameGone_frees hdrained hkind rfl hnone
  exact ⟨hctx.trans (mdel_mupd s.skim.ctx (cCtx c) _), htemplates⟩

theorem pubCloseEff_drains {c : Cmd} {s : State} {x : Ctx} (hx : ctxOf s (cCtx c) = some x)
    (hsome : x.pub.inFlight ≠ 0) :
    ctxOf (pubCloseEff c s).st (cCtx c) = some { x with st := 2, pub := { x.pub with nextTx := 0 } } :=
  ctxOf_frameGone ((ctxOf_updCtx_self (cCtx c)
    (fun x => { x with st := 2, pub := { x.pub with nextTx := 0, inFlight := x.pub.inFlight + 1 } }) s).trans
    (congrArg _ hx)) hsome

/-! pub.send (R290, R296). What follows the state change - the frame built and queued - keeps the publication's state: only
its SPDU number and its count of frames at ports change. -/

/-- The state of publication k in t is that in s. -/
def KeepsPub (k : Nat) (s t : State) : Prop :=
  ∀ x, ctxOf s k = some x →
    ∃ y spdu n, ctxOf t k = some y ∧ y.pub = { x.pub with spdu := spdu, inFlight := n }

theorem KeepsPub.of_skim {k : Nat} {s t : State} (h : t.skim = s.skim) : KeepsPub k s t :=
  fun x hx => ⟨x, x.pub.spdu, x.pub.inFlight, (ctxOf_congr h k).trans hx, rfl⟩

theorem KeepsPub.trans {k : Nat} {s t u : State} (h : KeepsPub k s t) (g : KeepsPub k t u) : KeepsPub k s u := by
  intro x hx
  obtain ⟨y, _, _, hy, hxy⟩ := h x hx
  obtain ⟨z, spdu, n, hz, hyz⟩ := g y hy
  exact ⟨z, spdu, n, hz, by rw [hyz, hxy]⟩

theorem keepsPub_cntCtx (k i n : Nat) (s : State) : KeepsPub k s (cntCtx k i n s) :=
  fun x hx => ⟨_, x.pub.spdu, x.pub.inFlight, (ctxOf_cntCtx_self k i n s).trans (congrArg _ hx), rfl⟩

theorem keepsPub_inFlight (k : Nat) (g : Nat → Nat) (s : State) :
    KeepsPub k s (updPub k (fun p => { p with inFlight := g p.inFlight }) s) :=
  fun x hx => ⟨_, x.pub.spdu, g x.pub.inFlight, (ctxOf_updPub_self k _ s).trans (congrArg _ hx), rfl⟩

theorem keepsPub_spdu (k : Nat) (g : Nat → Nat) (s : State) :
    KeepsPub k s (updPub k (fun p => { p with spdu := g p.spdu }) s) :=
  fun x hx => ⟨_, g x.pub.spdu, x.pub.inFlight, (ctxOf_updPub_self k _ s).trans (congrArg _ hx), rfl⟩

theorem keepsPub_sendBoth (k b q : Nat) (body : TxBody) (plain : List Byte) (vlan src : Nat) (s : State) :
    KeepsPub k s (sendBoth b q body plain vlan src s) :=
  .of_skim ((sendBoth_goes b q body plain vlan src s Goes.rfl (List.Subset.refl _)).within .skim (by decide))

theorem keepsPub_releasePub (k b : Nat) (f : TxFrame) (s : State) : KeepsPub k s (releasePub k b f s) := by
  unfold releasePub
  split
  · exact .of_skim rfl
  · exact (keepsPub_inFlight k (· + lanCount s b) s).trans <| (keepsPub_sendBoth k _ _ _ _ _ _ _).trans <|
      (keepsPub_cntCtx k _ _ _).trans <| (keepsPub_cntCtx k _ _ _).trans (keepsPub_cntCtx k _ _ _)

theorem keepsPub_pubPlain (k : Nat) (x : Ctx) (t : Template) (spdu key keyId : Nat) (apdu : List Byte) (s : State) :
    KeepsPub k s (pubPlain x t spdu key keyId apdu s).2 :=
  .of_skim ((pubPlain_goes x t spdu key keyId apdu s Goes.rfl (List.Subset.refl _)).within .skim (by decide))

theorem keepsPub_buildGoose (k slot : Nat) (s : State) : KeepsPub k s (buildGoose k slot s).1 := by
  unfold buildGoose
  dsimp only
  exact (keepsPub_pubPlain k _ _ _ _ _ _ s).trans <|
    (keepsPub_spdu k (fun n => if isRouted ((ctxOf s k).getD default) then _ else n) _).trans (keepsPub_cntCtx k _ _ _)

theorem keepsPub_sendState (k tok : Nat) (raise : Option (Nat × Nat × Nat)) (s : State) :
    KeepsPub k s (sendState k tok raise s) := by
  unfold sendState
  refine (keepsPub_buildGoose k (curSlot s ((ctxOf s k).getD default).bp) s).trans ?_
  dsimp only
  split
  · exact (KeepsPub.of_skim rfl).trans ((keepsPub_inFlight k (· + 1) _).trans (.of_skim rfl))
  · exact keepsPub_releasePub k _ _ _

/-- A publication's part with the curve that waited for this state change (R298, R300). -/
def takeCurve (p : PubPart) : PubPart :=
  match p.nextCurve with
  | some (curve, steady) => { p with curve := curve, tsteady := steady, nextCurve := none }
  | none => p

theorem takeCurve_stNum (p : PubPart) : (takeCurve p).stNum = p.stNum := by
  unfold takeCurve
  split <;> rfl

theorem takeCurve_none {p : PubPart} (h : p.nextCurve = none) : takeCurve p = p := by
  unfold takeCurve
  rw [h]

/-- A publication's part after a state change by pub.send in slot `now` (R290). -/
def changedPub (now from_ : Nat) (t input : List Byte) (p : PubPart) : PubPart :=
  { takeCurve p with
    stNum := succ32 (takeCurve p).stNum, sqNum := 0, t := t, svalid := true, stepPos := 0
    nextTx := now + interval (takeCurve p) 0, txFrom := from_, argLast := (takeCurve p).argLast, host := some input }

theorem stateChange_eq {s : State} {k : Nat} {x : Ctx} (hx : ctxOf s k = some x) (tok inst : Nat) (input : List Byte) :
    stateChange k tok inst none (some input) none s =
      sendState k tok none
        (cntCtx k 0 1 (updPub k (changedPub (curSlot s x.bp) (nextFire s x.bp) (utcAt s inst) input) s)) := by
  unfold stateChange
  rw [hx]
  rfl

/-- What a state change by pub.send makes of the publication's state (R290, R298, R300). -/
theorem stateChange_pub {s : State} {k : Nat} {x : Ctx} (hx : ctxOf s k = some x) (tok inst : Nat) (input : List Byte) :
    ∃ y, ctxOf (stateChange k tok inst none (some input) none s) k = some y ∧ y.pub.stNum = succ32 x.pub.stNum ∧
      y.pub.sqNum = 0 ∧ y.pub.host = some input ∧ y.pub.svalid = true ∧ y.pub.stepPos = 0 ∧
      (x.pub.nextCurve = none → y.pub.nextTx = curSlot s x.bp + interval x.pub 0) := by
  rw [stateChange_eq hx]
  obtain ⟨y, _, _, hy, hpub⟩ := ((keepsPub_cntCtx k 0 1 _).trans (keepsPub_sendState k tok none _)) _
    ((ctxOf_updPub_self k _ s).trans (congrArg _ hx))
  refine ⟨y, hy, ?_⟩
  rw [hpub]
  refine ⟨congrArg succ32 (takeCurve_stNum x.pub), rfl, rfl, rfl, rfl, fun hcurve => ?_⟩
  exact congrArg (fun p => curSlot s x.bp + interval p 0) (takeCurve_none hcurve)

theorem pubSendCheck_passes {c : Cmd} {s : State} {x : Ctx} (hx : ctxOf s (cCtx c) = some x) (hkind : x.kind = 5)
    (hst : x.st ≠ 2) (hgoose : x.pub.ptype = 0 ∨ x.pub.ptype = 2) (htime : s.time.tstate ≠ 0) : pubSendCheck c s = none := by
  unfold pubSendCheck
  simp [hx, notPub_eq_false hx hkind fun _ => hst, isGoosePub_eq_true hkind hgoose, htime, firstFail]

/-- With no LAN the publication keeps its state, and counts it (R98, R292). -/
theorem pubSendEff_noLan {c : Cmd} {s : State} {x : Ctx} (hx : ctxOf s (cCtx c) = some x) (hlan : lanCount s x.bp = 0) :
    pubSendEff c s = { st := cntCtx (cCtx c) 7 1 s, status := 0x0703 } := by
  unfold pubSendEff
  simp only [hx, Option.getD_some, hlan, if_true]

/-- The state that a pub.send with a LAN makes. -/
def sent (c : Cmd) (s : State) : State :=
  stateChange (cCtx c) c.tok (((jent s c.tok).map (·.tai)).getD s.time.tai) none (some c.input) none s

theorem pubSendEff_lan {c : Cmd} {s : State} {x : Ctx} (hx : ctxOf s (cCtx c) = some x) (hlan : lanCount s x.bp ≠ 0) :
    pubSendEff c s =
      { st := sent c s, result := BitVec.ofNat 32 ((ctxOf (sent c s) (cCtx c)).getD default).pub.stNum } := by
  unfold pubSendEff
  simp only [hx, Option.getD_some, hlan, if_false]
  rfl

/-! pub.curve (R298, R300) and pub.stats (R308). -/

theorem pubCurveCheck_passes {c : Cmd} {s : State} {x : Ctx} (hx : ctxOf s (cCtx c) = some x) (hkind : x.kind = 5)
    (hst : x.st ≠ 2) (hgoose : x.pub.ptype = 0 ∨ x.pub.ptype = 2) (hcurve : curveBad (curveOf c) (cw64 c 11) = false) :
    pubCurveCheck c s = none := by
  unfold pubCurveCheck
  simp [hx, notPub_eq_false hx hkind fun _ => hst, isGoosePub_eq_true hkind hgoose, hcurve, firstFail]

theorem length_leOctets (n v : Nat) : (leOctets n v).length = n := by
  induction n generalizing v with
  | zero => rfl
  | succ n ih => exact congrArg (· + 1) (ih (v / 256))

theorem length_cntOctets (x : Ctx) : (cntOctets x).length = 64 := by
  unfold cntOctets
  simp only [List.length_flatMap, length_leOctets]
  rfl

/-- The counters are output whole where the capacity holds them. -/
theorem statsEff_eq {c : Cmd} {s : State} {x : Ctx} (hx : ctxOf s (cCtx c) = some x) (hcap : 64 ≤ cOutLen c) :
    statsEff c s = { st := (statsEff c s).st, out := cntOctets x } := by
  have hwhole : (cntOctets x).take (cOutLen c) = cntOctets x :=
    List.take_of_length_le (by rw [length_cntOctets]; exact hcap)
  unfold statsEff output
  rw [hx, Option.getD_some, hwhole]
  dsimp only
  split <;> rfl

theorem ctxOf_statsEff {c : Cmd} {s : State} {x : Ctx} (hx : ctxOf s (cCtx c) = some x) :
    ctxOf (statsEff c s).st (cCtx c) = some (if bit (cw c 8) 0 then { x with cnt := List.replicate 16 0 } else x) := by
  unfold statsEff
  dsimp only
  split
  · exact (ctxOf_updCtx_self ..).trans (congrArg _ hx)
  · exact hx

end Sys2Proof.Machine
end

section
/-! The pub. commands (O42), one theorem per command. -/
namespace Sys2Proof.Machine

theorem exec_pubOpen {c : Cmd} {s : State} (happlies : mayApply s c = true) (hcheck : pubOpenCheck c s = none) :
    ∃ t m x, exec (.pubOpen c) s = .next t ∧ Applied [.skim, .publ, .sealer, .log] s t c ∧
      parseTemplate (poType c) (cLen c) c.input = some m ∧ mget t.publ.templates (cCtx c - 0x5000) = some m ∧
      ctxOf t (cCtx c) = some x ∧ x = openedCtx c s m := by
  obtain ⟨m, hm⟩ := parseTemplate_of_pubOpenCheck hcheck
  have hwithin : Within [.outbox, .skim, .publ, .sealer, .log] s (opened c s m) := by
    have h := (pubOpenEff_goes (ps := [.outbox, .skim, .publ, .sealer, .log]) c s Goes.rfl (by decide)).within
    rwa [pubOpenEff_eq hm] at h
  obtain ⟨happlied, hkept⟩ := runConfig_applied happlies hcheck (pubOpenEff_eq hm) hwithin (by decide)
  have hpubl : (runConfig pubOpenCheck pubOpenEff c s).publ = (opened c s m).publ := hkept .publ (by decide)
  refine ⟨_, m, _, rfl, happlied, hm, ?_, ?_, rfl⟩
  · rw [hpubl]
    exact templates_opened c s m
  · exact (ctxOf_congr (hkept .skim (by decide)) _).trans (ctxOf_opened c s m)

theorem exec_pubClose {c : Cmd} {s : State} {x : Ctx} (hx : ctxOf s (cCtx c) = some x) (hkind : x.kind = 5)
    (happlies : mayApply s c = true) (hst : x.st ≠ 2) :
    ∃ t, exec (.pubClose c) s = .next t ∧ Applied [.skim, .publ] s t c ∧
      t.skim = (pubCloseEff c s).st.skim ∧ t.publ = (pubCloseEff c s).st.publ := by
  have hcheck : pubCloseCheck c s = none := by
    unfold pubCloseCheck
    rw [notPub_eq_false hx hkind fun _ => hst]
    rfl
  have hwithin := (pubCloseEff_goes (ps := [.outbox, .skim, .publ]) c s Goes.rfl (by decide)).within
  obtain ⟨happlied, hkept⟩ := runConfig_applied (eff := pubCloseEff) happlies hcheck rfl hwithin (by decide)
  exact ⟨_, rfl, happlied, hkept .skim (by decide), hkept .publ (by decide)⟩

theorem exec_pubSend_turn {c : Cmd} {s : State} (hturn : sendTurn c s = true) :
    exec (.pubSend c) s = .next (runPlain pubSendCheck pubSendEff c s) :=
  congrArg Host.Outcome.next (if_pos hturn)

theorem exec_pubSend_lan {c : Cmd} {s : State} {x : Ctx} (hx : ctxOf s (cCtx c) = some x) (hruns : runnable s c = true)
    (hturn : sendTurn c s = true) (hcheck : pubSendCheck c s = none) (hlan : lanCount s x.bp ≠ 0) :
    ∃ t y, exec (.pubSend c) s = .next t ∧ Ends s t c.tok 0 (BitVec.ofNat 32 (succ32 x.pub.stNum)) [] ∧
      Within [.journal, .ports, .bpcfg, .skim, .publ, .eng, .span, .log, .budget, .outbox] s t ∧
      ctxOf t (cCtx c) = some y ∧
      y.pub.stNum = succ32 x.pub.stNum ∧ y.pub.sqNum = 0 ∧ y.pub.host = some c.input ∧ y.pub.svalid = true ∧
      y.pub.stepPos = 0 ∧ (x.pub.nextCurve = none → y.pub.nextTx = curSlot s x.bp + interval x.pub 0) := by
  have hwithin : Within [.ports, .bpcfg, .skim, .publ, .eng, .log, .budget, .outbox] s (sent c s) :=
    (stateChange_goes _ _ _ _ _ _ s Goes.rfl (List.Subset.refl _)).within
  obtain ⟨hends, hkept⟩ := runPlain_ends hruns hcheck (pubSendEff_lan hx hlan) (hwithin .journal (by decide))
  obtain ⟨y, hy, hstNum, hstate⟩ := stateChange_pub hx c.tok (((jent s c.tok).map (·.tai)).getD s.time.tai) c.input
  rw [show ctxOf (sent c s) (cCtx c) = some y from hy, Option.getD_some, hstNum] at hends
  exact ⟨_, y, exec_pubSend_turn hturn, hends, (hwithin.mono (by decide)).trans (hkept.mono (by decide)),
    (ctxOf_congr (hkept .skim (by decide)) _).trans hy, hstNum, hstate⟩

theorem exec_pubSend_noLan {c : Cmd} {s : State} {x : Ctx} (hx : ctxOf s (cCtx c) = some x) (hruns : runnable s c = true)
    (hturn : sendTurn c s = true) (hcheck : pubSendCheck c s = none) (hlan : lanCount s x.bp = 0) :
    ∃ t, exec (.pubSend c) s = .next t ∧ Ends s t c.tok 0x0703 0 [] ∧ Within [.journal, .skim, .span, .outbox] s t ∧
      ctxOf t (cCtx c) = some { x with cnt := lupd x.cnt 7 (fun v => sat32 (v + 1)) } := by
  have hwithin : Within [.skim] s (cntCtx (cCtx c) 7 1 s) := (cntCtx_goes _ _ _ s Goes.rfl (List.Subset.refl _)).within
  obtain ⟨hends, hkept⟩ := runPlain_ends hruns hcheck (pubSendEff_noLan hx hlan) (hwithin .journal (by decide))
  refine ⟨_, exec_pubSend_turn hturn, hends, (hwithin.mono (by decide)).trans (hkept.mono (by decide)), ?_⟩
  exact (ctxOf_congr (hkept .skim (by decide)) _).trans ((ctxOf_cntCtx_self ..).trans (congrArg _ hx))

theorem exec_pubCurve {c : Cmd} {s : State} {x : Ctx} (hx : ctxOf s (cCtx c) = some x) (happlies : mayApply s c = true)
    (hcheck : pubCurveCheck c s = none) :
    ∃ t, exec (.pubCurve c) s = .next t ∧ Applied [.skim] s t c ∧
      ctxOf t (cCtx c) = some { x with pub := { x.pub with nextCurve := some (curveOf c, cw64 c 11) } } := by
  have hwithin := (pubCurveEff_goes (ps := [.outbox, .skim]) c s Goes.rfl (by decide)).within
  obtain ⟨happlied, hkept⟩ := runConfig_applied (eff := pubCurveEff) happlies hcheck rfl hwithin (by decide)
  refine ⟨_, rfl, happlied, ?_⟩
  exact (ctxOf_congr (hkept .skim (by decide)) _).trans ((ctxOf_updPub_self ..).trans (congrArg _ hx))

theorem exec_pubStats {c : Cmd} {s : State} {x : Ctx} (hx : ctxOf s (cCtx c) = some x) (hkind : x.kind = 5)
    (hruns : runnable s c = true) (hcap : 64 ≤ cOutLen c) :
    ∃ t, exec (.pubStats c) s = .next t ∧ Served [.skim] s t c 0 (cntOctets x) ∧
      ctxOf t (cCtx c) = some (if bit (cw c 8) 0 then { x with cnt := List.replicate 16 0 } else x) := by
  have hcheck : pubStatsCheck c s = none := by
    unfold pubStatsCheck
    rw [notPub_eq_false (draining := true) hx hkind nofun]
    rfl
  have hwithin : Within [.skim] s (statsEff c s).st := (statsEff_goes c s Goes.rfl (List.Subset.refl _)).within
  obtain ⟨hends, hkept⟩ := runPlain_ends hruns hcheck (statsEff_eq hx hcap) (hwithin .journal (by decide))
  exact ⟨_, rfl, ⟨hends, (hwithin.mono (by decide)).trans (hkept.mono (by decide))⟩,
    (ctxOf_congr (hkept .skim (by decide)) _).trans (ctxOf_statsEff hx)⟩

/-- Settles O42: each command passes its checks, and what its effect makes of the context outlives its outcome. -/
theorem publicationCommands : Obligations.PublicationCommands := by
  unfold Obligations.PublicationCommands
  intro c s
  refine ⟨?_, fun x hx hkind => ⟨?_, ?_, ?_, ?_⟩⟩
  · intro happlies hcheck
    obtain ⟨t, m, x, hnext, happlied, hm, htemplate, hx, rfl⟩ := exec_pubOpen happlies hcheck
    exact ⟨t, m, _, hnext, happlied, hm, htemplate, hx, rfl, rfl, rfl, rfl, rfl, rfl, rfl, rfl, rfl, rfl, rfl⟩
  · intro happlies hst
    obtain ⟨t, hnext, happlied, hskim, hpubl⟩ := exec_pubClose hx hkind happlies hst
    refine ⟨t, hnext, happlied, fun hnone => ?_, fun hsome => ?_⟩
    · rw [hskim, hpubl]
      exact pubCloseEff_frees hx hkind hnone
    · rw [ctxOf_congr hskim]
      exact pubCloseEff_drains hx hsome
  · intro hruns hturn hst hgoose htime
    have hcheck := pubSendCheck_passes hx hkind hst hgoose htime
    exact ⟨exec_pubSend_lan hx hruns hturn hcheck, exec_pubSend_noLan hx hruns hturn hcheck⟩
  · intro happlies hst hgoose hcurve
    exact exec_pubCurve hx happlies (pubCurveCheck_passes hx hkind hst hgoose hcurve)
  · intro hruns hcap
    exact exec_pubStats hx hkind hruns hcap

end Sys2Proof.Machine
end

section
/-! The order of GOOSE numbers (R157). -/
namespace Sys2Proof.Machine

theorem ahead32_iff (q base : Nat) :
    ahead32 q base = true ↔
      1 ≤ (q + 4294967296 - base) % 4294967296 ∧ (q + 4294967296 - base) % 4294967296 ≤ 2147483647 :=
  decide_eq_true_iff

@[simp] theorem ahead32_self (q : Nat) : ahead32 q q = false := by
  rw [← Bool.not_eq_true, ahead32_iff, Nat.add_sub_cancel_left]
  decide

/-- Once round the 32-bit circle: the ways from one number to another and back add up to it. -/
theorem ahead32_distances_add {a b : Nat} (ha : a < 4294967296) (hb : b < 4294967296) (hne : a ≠ b) :
    (a + 4294967296 - b) % 4294967296 + (b + 4294967296 - a) % 4294967296 = 4294967296 := by
  omega

/-- Both ways cannot be shorter than half the circle. -/
theorem ahead32_asymm {a b : Nat} (ha : a < 4294967296) (hb : b < 4294967296) (hahead : ahead32 a b = true) :
    ahead32 b a = false := by
  have hne : a ≠ b := fun heq => by simp [heq] at hahead
  have hround := ahead32_distances_add ha hb hne
  rw [← Bool.not_eq_true, ahead32_iff]
  rw [ahead32_iff] at hahead
  omega

end Sys2Proof.Machine
end

section
/-! What becomes of a GOOSE message (R158): one equation for each way its stNum can stand to the stored one, and from them
which messages each answer is given to (O38). -/
namespace Sys2Proof.Machine

theorem gooseCase_of_gvalid_false {g : GoosePart} (hvalid : g.gvalid = false) (m : GooseMsg) (fresh : Bool) :
    gooseCase g m fresh = .accept 1 0 := by
  simp [gooseCase, hvalid]

/-- A repeated stNum: t and the order of sqNum decide. -/
theorem gooseCase_of_stNum_eq {g : GoosePart} {m : GooseMsg} (hvalid : g.gvalid = true) (hst : m.stNum = g.stNum)
    (fresh : Bool) :
    gooseCase g m fresh =
      if m.t = g.t then if ahead32 m.sqNum g.sqNum = true then .accept 0 0 else .drop 5 else .drop 6 := by
  by_cases ht : m.t = g.t <;> simp [gooseCase, hvalid, hst, ht]

/-- A stNum ahead is a new state, which needs a fresh and later t. -/
theorem gooseCase_of_stNum_ahead {g : GoosePart} {m : GooseMsg} (hvalid : g.gvalid = true) (hst : m.stNum ≠ g.stNum)
    (hahead : ahead32 m.stNum g.stNum = true) (fresh : Bool) :
    gooseCase g m fresh =
      if fresh = true ∧ utcTime g.t < utcTime m.t then .accept 2 (passed m.stNum g.stNum) else .drop 10 := by
  by_cases htime : fresh = true ∧ utcTime g.t < utcTime m.t <;> simp [gooseCase, hvalid, hst, hahead, htime]

/-- Another stNum not ahead is a restart if it is 1 with a fresh and later t. -/
theorem gooseCase_of_stNum_not_ahead {g : GoosePart} {m : GooseMsg} (hvalid : g.gvalid = true)
    (hst : m.stNum ≠ g.stNum) (hahead : ahead32 m.stNum g.stNum = false) (fresh : Bool) :
    gooseCase g m fresh =
      if m.stNum = 1 then if fresh = true ∧ utcTime g.t < utcTime m.t then .accept 3 0 else .drop 10
      else .drop 5 := by
  by_cases hone : m.stNum = 1
  · rw [hone] at hst hahead
    by_cases htime : fresh = true ∧ utcTime g.t < utcTime m.t <;> simp [gooseCase, hvalid, hone, hst, hahead, htime]
  · simp [gooseCase, hvalid, hst, hahead, hone]

/-- Settles O38: each answer of R158 is read off the equation for the message's stNum; the order of R157 is irreflexive and
asymmetric. -/
theorem gooseCases : Obligations.GooseCases := by
  unfold Obligations.GooseCases
  refine ⟨fun g m fresh hvalid => gooseCase_of_gvalid_false hvalid m fresh, fun g m fresh hvalid => ?_, ahead32_self,
    fun a b ha hb hahead => .inl (ahead32_asymm ha hb hahead)⟩
  by_cases hst : m.stNum = g.stNum
  · rw [gooseCase_of_stNum_eq hvalid hst]
    by_cases ht : m.t = g.t
    · cases hsq : ahead32 m.sqNum g.sqNum with
      | true => simp [hst, ht]
      | false => simp [hst, ht]
    · simp [hst, ht]
  cases hahead : ahead32 m.stNum g.stNum with
  | true =>
    rw [gooseCase_of_stNum_ahead hvalid hst hahead]
    by_cases htime : fresh = true ∧ utcTime g.t < utcTime m.t
    · simp [hst, htime]
    · simp [hst, htime]
  | false =>
    rw [gooseCase_of_stNum_not_ahead hvalid hst hahead]
    by_cases hone : m.stNum = 1
    · rw [hone] at hst
      by_cases htime : fresh = true ∧ utcTime g.t < utcTime m.t
      · simp [hone, hst, htime]
      · simp [hone, hst, htime]
    · simp [hone, hst]

end Sys2Proof.Machine
end

section
/-! SUPPORT. A configuration command whose turn has come while a closing sequence is in progress (R27, R176), and the
statement O7. -/
namespace Sys2Proof.Machine

/-- A row is run in token order, once no closing sequence that it affects is in progress. -/
def RunsAsConfig (k : Cmd → Instr) : Prop :=
  ∃ apply : Cmd → State → State, ∀ c s, exec (k c) s = .next (runConfigBy apply c s)

theorem runConfigBy_defers {apply : Cmd → State → State} {c : Cmd} {s : State} (hruns : runnable s c = true)
    (hturn : configTurn s c = true) (hbusy : closingBusy c s = true) :
    runConfigBy apply c s = { s with deferred := s.deferred ++ [c.tok] } := by
  simp only [runConfigBy, hruns, hturn, hbusy, Bool.and_self, if_true]

theorem configCommands_runAsConfig : ∀ k ∈ configCommands, RunsAsConfig k := by
  unfold configCommands
  repeat refine List.forall_mem_cons.2 ⟨⟨_, fun _ _ => rfl⟩, ?_⟩
  exact List.forall_mem_nil _

/-- Settles O7: each of the commands is run as configuration, which puts it on the waiting list. -/
theorem configurationWaitsForClosing : Obligations.ConfigurationWaitsForClosing := by
  unfold Obligations.ConfigurationWaitsForClosing
  intro k hk c s hruns hturn hbusy
  obtain ⟨apply, hexec⟩ := configCommands_runAsConfig k hk
  rw [hexec, runConfigBy_defers hruns hturn hbusy]

end Sys2Proof.Machine
end

section
/-! SUPPORT. The fields of an M-format word (R257), read back from the word that encodes them. -/
namespace Sys2Proof.Machine

theorem toNat_encM {op : Nat} (hop : op < 64) (d a : Fld4) (mode : BitVec 3) (b : Fld4) (sc : BitVec 2)
    (disp : BitVec 9) :
    (encM op d a mode b sc disp).toNat = op * 2 ^ 26 + d.toNat * 2 ^ 22 + a.toNat * 2 ^ 18 + mode.toNat * 2 ^ 15 +
      b.toNat * 2 ^ 11 + sc.toNat * 2 ^ 9 + disp.toNat := by
  unfold encM
  rw [BitVec.toNat_ofNat, Nat.mod_eq_of_lt]
  have := d.isLt
  have := a.isLt
  have := mode.isLt
  have := b.isLt
  have := sc.isLt
  have := disp.isLt
  omega

/-- The six fields of an M-format word with their places. -/
theorem bits_encM {op : Nat} (hop : op < 64) (d a : Fld4) (mode : BitVec 3) (b : Fld4) (sc : BitVec 2)
    (disp : BitVec 9) :
    let w := encM op d a mode b sc disp
    bits w 31 26 = op ∧ bits w 25 22 = d.toNat ∧ bits w 21 18 = a.toNat ∧ bits w 17 15 = mode.toNat ∧
      bits w 14 11 = b.toNat ∧ bits w 10 9 = sc.toNat ∧ bits w 8 0 = disp.toNat := by
  have := d.isLt
  have := a.isLt
  have := mode.isLt
  have := b.isLt
  have := sc.isLt
  have := disp.isLt
  simp only [bits, toNat_encM hop]
  omega

end Sys2Proof.Machine
end

section
/-! SUPPORT. ROW_FIXED_WAKE (R178, R279): what a load from the sheet window gives a program that holds no latch for the row,
and the statement O23. -/
namespace Sys2Proof.Machine

/-- The load word at PC is decoded into the row that ROW_FIXED_WAKE resumes. -/
theorem execRowFixedWake_ldW {s : State} {p : Nat} {g : Prog} {d a : Fld4} {mode : BitVec 3} {b : Fld4} {sc : BitVec 2}
    {disp : BitVec 9} (hwaits : holder s p .waitRow = some g)
    (hword : lget g.img.code (g.pc.toNat / 4) 0 = encM 0x18 d a mode b sc disp) :
    exec (.rowFixedWake p) s = .next (runLoad p a mode b sc disp 4 (putZ d) g s) := by
  obtain ⟨hop, hd, ha, hmode, hb, hsc, hdisp⟩ := bits_encM (op := 0x18) (by decide) d a mode b sc disp
  show execRowFixedWake p s = _
  unfold execRowFixedWake
  simp only [hwaits, hword, hop, hd, ha, hmode, hb, hsc, hdisp, BitVec.ofNat_toNat, BitVec.setWidth_eq, loadForm]

theorem placeAt_sheet {g : Prog} {ea : Nat} (n : Nat) (hlo : 0x100000 ≤ ea) (hhi : ea < 0x140000)
    (hbound : (ea - 0x100000) / 64 < g.bind_.sheets.length) :
    placeAt g ea n = some (.sheet ((ea - 0x100000) / 64) (ea % 64)) := by
  unfold placeAt
  rw [if_neg (by omega), if_neg (by omega), if_pos ⟨hlo, hhi⟩]
  exact if_pos hbound

theorem histMiss_sheet {g : Prog} {addr : W32} {n i o : Nat} (hplace : placeAt g addr.toNat n = some (.sheet i o)) :
    histMiss g addr n = false := by
  unfold histMiss
  rw [hplace]

/-- A sheet window row that no latch holds and that is not fixed: the load waits (R178). -/
theorem loadFrom_sheet_open {s : State} {g : Prog} {addr : W32} {n i e : Nat} (haligned : addr.toNat % n = 0)
    (hplace : placeAt g addr.toNat n = some (.sheet i (addr.toNat % 64))) (he : lget g.bind_.sheets i 0 = e)
    (hlatch : g.latches.find? (fun l => l.1 == addr.toNat / 64) = none)
    (hrow : fixedRow s (e / 256) (e % 256) g.slot = none) : loadFrom s g addr n = .wait := by
  unfold loadFrom
  simp only [haligned, hplace, hlatch, windowOctets, he, hrow, ne_eq, not_true_eq_false, if_false, Option.map_none]

/-- A sheet window row that no latch holds and that is fixed: the load reads and latches it, at 8 cycles at most (R279). -/
theorem loadFrom_sheet_fixed {s : State} {g : Prog} {addr : W32} {n i e : Nat} {r : Row} (haligned : addr.toNat % n = 0)
    (hplace : placeAt g addr.toNat n = some (.sheet i (addr.toNat % 64))) (he : lget g.bind_.sheets i 0 = e)
    (hlatch : g.latches.find? (fun l => l.1 == addr.toNat / 64) = none)
    (hrow : fixedRow s (e / 256) (e % 256) g.slot = some r) :
    loadFrom s g addr n = .ok (octets (rowOctets r) (addr.toNat % 64) n)
      (((addr.toNat / 64, rowOctets r) :: g.latches.filter (fun l => l.1 != addr.toNat / 64)).take 4) (.inr 8) := by
  unfold loadFrom
  simp only [haligned, hplace, hlatch, windowOctets, he, hrow, ne_eq, not_true_eq_false, if_false, Option.map_some,
    missMax]

/-- A load that waits leaves the program waiting. -/
theorem runLoad_wait {s : State} {p : Nat} {g : Prog} {a : Fld4} {mode : BitVec 3} {b : Fld4} {sc : BitVec 2}
    {disp : BitVec 9} {size : Nat} (put : List Byte → Prog → Prog) (hprog : progOf s p = some g)
    (hload : loadFrom s g (effAddr g a mode b sc disp size) size = .wait) :
    runLoad p a mode b sc disp size put g s = setProg p { g with phase := .waitRow } s := by
  unfold runLoad
  rw [hload]
  exact updProg_eq _ hprog

/-- A load that completes at a cost given as a maximum, and not from the history window (R279). -/
theorem runLoad_ok {s : State} {p : Nat} {g : Prog} {a : Fld4} {mode : BitVec 3} {b : Fld4} {sc : BitVec 2}
    {disp : BitVec 9} {size most : Nat} {octs : List Byte} {latches : List (Nat × List Byte)}
    (put : List Byte → Prog → Prog) (hprog : progOf s p = some g)
    (hload : loadFrom s g (effAddr g a mode b sc disp size) size = .ok octs latches (.inr most))
    (hnear : histMiss g (effAddr g a mode b sc disp size) size = false) :
    runLoad p a mode b sc disp size put g s =
      let h := baseUpdate a mode size (put octs { g with latches := latches, phase := .running })
      setProg p { h with pc := g.pc + 4, budget := h.budget - (costUpTo most s).1 } { s with freeCtr := s.freeCtr + 1 } := by
  have hprog' : progOf { s with freeCtr := s.freeCtr + 1 } p = some g := hprog
  unfold runLoad
  simp only [hload, hnear, costOf, costUpTo, Bool.false_and, Bool.false_eq_true, if_false]
  exact finishNext_eq hprog' _ _

theorem costUpTo_mem {n : Nat} (hn : 0 < n) (s : State) : 1 ≤ (costUpTo n s).1 ∧ (costUpTo n s).1 ≤ n := by
  have := Nat.mod_lt (Config.freeNat s.freeCtr) hn
  simp only [costUpTo]
  omega

/-- Destination and base update of a load change registers alone; without an update the destination keeps its value. -/
theorem baseUpdate_gset_keeps (a d : Fld4) (mode : BitVec 3) (size : Nat) (v : W32) (g : Prog) :
    let h := baseUpdate a mode size (gset d v g)
    h.budget = g.budget ∧ h.phase = g.phase ∧ h.latches = g.latches ∧
      (mode = 0 → d ≠ 0 → h.regs = g.regs.set d.toNat v) := by
  simp only [baseUpdate, gset_eq]
  split
  · next hone => exact ⟨rfl, rfl, rfl, fun hzero => by simp [hzero] at hone⟩
  · next htwo => exact ⟨rfl, rfl, rfl, fun hzero => by simp [hzero] at htwo⟩
  · exact ⟨rfl, rfl, rfl, fun _ hd => if_neg hd⟩

/-- Settles O23: the load at PC is run again; its row is still open, or fixed and latched. -/
theorem ezRowFixedWake : Obligations.EzRowFixedWake := by
  unfold Obligations.EzRowFixedWake
  intro p d a mode b sc disp s g ea e hwaits hword haligned hlo hhi hbound hlatch
  obtain ⟨hprog, -, hphase, -⟩ := holder_prog hwaits
  have hplace := placeAt_sheet 4 hlo hhi hbound
  have hexec := execRowFixedWake_ldW hwaits hword
  refine ⟨fun hopen => ?_, fun r hfixed => ?_⟩
  · have hload := loadFrom_sheet_open haligned hplace rfl hlatch hopen
    have hsame : { g with phase := .waitRow } = g := by rw [← hphase]
    rw [hexec, runLoad_wait _ hprog hload, hsame, setProg_self hprog]
  · have hload := loadFrom_sheet_fixed haligned hplace rfl hlatch hfixed
    have hruns := runLoad_ok (mode := mode) (putZ d) hprog hload (histMiss_sheet hplace)
    obtain ⟨hleast, hmost⟩ := costUpTo_mem (n := 8) (by decide) s
    obtain ⟨hbudget, hrunning, hlatches, hdest⟩ := baseUpdate_gset_keeps a d mode 4
      (BitVec.ofNat 32 (leNat (octets (rowOctets r) (ea % 64) 4))) { g with
        latches := ((ea / 64, rowOctets r) :: g.latches.filter (fun l => l.1 != ea / 64)).take 4, phase := .running }
    exact ⟨_, _, _, hexec.trans (congrArg _ hruns), rfl, hleast, hmost, rfl, congrArg (· - _) hbudget, hrunning,
      congrArg List.head? hlatches, hdest⟩

end Sys2Proof.Machine
end

section
/-! SUPPORT. The effects of the sheet. commands on groups, functions and rings (R168 to R201). -/
namespace Sys2Proof.Machine

/-! sheet.group and sheet.key (R172, R193). -/

theorem sheetGroupCheck_passes {c : Cmd} (s : State) (hleast : 1 ≤ bits (cw c 8) 13 8) (hmost : bits (cw c 8) 13 8 ≤ 32)
    (hinterpolates : bits (cw c 8) 17 16 = 2 → 5 ≤ bits (cw c 8) 13 8) : sheetGroupCheck c s = none := by
  have hzero : bits (cw c 8) 13 8 ≠ 0 := Nat.one_le_iff_ne_zero.1 hleast
  simp only [sheetGroupCheck, firstFail, ite_eq_right_iff, reduceCtorEq, imp_false, Bool.or_eq_true, Bool.and_eq_true,
    beq_iff_eq, decide_eq_true_eq]
  omega

theorem slotFail_none {s : State} {k : Nat} {attrs : List Nat} {x : KSlot} (hx : mget s.keys.slots k = some x)
    (hsound : s.keys.corrupt.contains k = false) (hksk : s.keys.ksk.isSome = true) (hattr : x.attr ∈ attrs) :
    slotFail s k attrs = none := by
  simp only [slotFail, hx, hsound, hksk, Bool.or_true, Bool.not_true, Bool.or_self, Bool.false_eq_true, if_false,
    List.contains_iff_mem, hattr, if_true]

theorem sheetKeyCheck_passes {c : Cmd} {s : State} {x : KSlot} (hx : mget s.keys.slots (cCtx c) = some x)
    (hsound : s.keys.corrupt.contains (cCtx c) = false) (hksk : s.keys.ksk.isSome = true) (hattr : x.attr = 4)
    (hlength : x.payload.length = 32) : sheetKeyCheck c s = none := by
  have hslot : slotFail s (cCtx c) [4] = none := slotFail_none hx hsound hksk (by simp only [hattr, List.mem_singleton])
  simp only [sheetKeyCheck, hslot, slotKey, hx, Option.getD_some, hlength, if_true]

/-! sheet.ring (R195, R198). -/

/-- The sheets that wait for a ring are dropped with it. -/
def dropHeld (f n : Nat) (s : State) : State :=
  { s with hawk := { s.hawk with held := s.hawk.held.filter (fun h => !(h.fn == f && h.ring == n)) } }

theorem held_dropHeld {f n : Nat} {s : State} {h : HeldSheet} (hmem : h ∈ (dropHeld f n s).hawk.held) :
    ¬(h.fn = f ∧ h.ring = n) := by
  rintro ⟨hfn, hring⟩
  simpa [hfn, hring] using (List.mem_filter.1 hmem).2

theorem sheetRingEff_deletes {c : Cmd} {s : State} (hm : bits (cw c 12) 4 0 = 0) :
    sheetRingEff c s =
      done (updRing (cw c 14).toNat (cCtx c) (fun _ => default) (dropHeld (cw c 14).toNat (cCtx c) s)) := by
  unfold sheetRingEff
  exact if_pos hm

theorem sheetRingCheck_deletes {c : Cmd} (s : State) (hring : cCtx c ≤ 4) (hm : bits (cw c 12) 4 0 = 0) :
    sheetRingCheck c s = none := by
  unfold sheetRingCheck
  simp only [Nat.not_lt.2 hring, hm, if_false, if_true]

/-- A list of checks passes when no condition in it holds. -/
theorem firstFail_eq_none_iff {l : List (Bool × Nat)} : firstFail l = none ↔ ∀ e ∈ l, e.1 = false := by
  induction l with
  | nil => simp [firstFail]
  | cons e l ih => cases h : e.1 <;> simp [firstFail, h, ih]

/-- A creation whose check passes draws its salt without being refused. -/
theorem drawRefused_of_sheetRingCheck {c : Cmd} {s : State} (hm : bits (cw c 12) 4 0 ≠ 0)
    (hcheck : sheetRingCheck c s = none) : drawRefused s = none := by
  unfold sheetRingCheck at hcheck
  simp only [hm, if_false] at hcheck
  split at hcheck
  · cases hcheck
  split at hcheck
  · cases hcheck
  · have hdraw := firstFail_eq_none_iff.1 hcheck ((drawRefused s).isSome, (drawRefused s).getD 0) (by simp)
    simpa using hdraw

/-- The ring that a creation of epoch e leaves, with this salt, in place of r. -/
def createdRing (c : Cmd) (salt : List Byte) (e : Nat) (r : Ring) : Ring :=
  { (default : Ring) with
    active := true, m := bits (cw c 12) 4 0, buf := cw64 c 8, ctl := cw64 c 10
    bufMap := toExtents ((lget c.maps 0 none).getD []), ctlMap := toExtents ((lget c.maps 1 none).getD [])
    vec := bits (cw c 12) 15 8, vecEn := bit (cw c 12) 16, salt := salt, view := r.view, tracker := r.tracker
    first := true, epoch := e }

theorem sheetRingEff_creates {c : Cmd} {s : State} (hm : bits (cw c 12) 4 0 ≠ 0) :
    let g := generate c.fn 0 16 (dropHeld (cw c 14).toNat (cCtx c) s)
    sheetRingEff c s =
      { st := writeControl (cw c 14).toNat (cCtx c) (mirrorItem (.salt (cw c 14).toNat (cCtx c) g.1)
          (updRing (cw c 14).toNat (cCtx c) (createdRing c g.1 (g.2.sys.epoch + 1)) g.2))
        out := if g.2.sys.gateway then [] else g.1 } := by
  unfold sheetRingEff
  exact if_neg hm

/-- A configuration command that may take effect, whose check passes and whose effect ends OK: its outcome is journalled
with one epoch more, and what its effect made of the other parts stands. -/
theorem runConfig_ends {check eff} {c : Cmd} {s : State} {e : Eff} (happlies : mayApply s c = true)
    (hcheck : check c s = none) (heff : eff c s = e) (hok : e.status = 0) (hjournal : e.st.journal = s.journal) :
    Ends s (runConfig check eff c s) c.tok 0 e.result e.out ∧
      (runConfig check eff c s).sys.epoch = e.st.sys.epoch + 1 ∧
      Within [.sys, .journal, .span, .outbox] e.st (runConfig check eff c s) := by
  obtain ⟨j, hj, -⟩ := runnable_jent (mayApply_spec happlies).1
  let v := mirrorItem (.config c (s.sys.epoch + 1)) e.st
  have hruns : runConfig check eff c s = settle c.tok 0 e.result e.out (bumpEpoch v) := by
    unfold runConfig
    rw [runConfigBy_applies happlies, applyConfig_passes hcheck (by rw [heff, hok]), heff]
  rw [hruns]
  refine ⟨settle_ends 0 e.result e.out ((mirrorItem_journal _ e.st).trans hjournal) hj, ?_, ?_⟩
  · rw [settle_sys, ← mirrorItem_sys (.config c (s.sys.epoch + 1)) e.st]
    rfl
  · exact (settle_goes c.tok 0 e.result e.out _
      (bumpEpoch_goes v (mirrorItem_goes _ e.st Goes.rfl (by decide)) (by decide)) (by decide)).within

theorem epoch_writeControl (f n : Nat) (s : State) : (writeControl f n s).sys.epoch = s.sys.epoch := by
  have hlookup : (pinnedLookup f s).sys.epoch = s.sys.epoch := by
    unfold pinnedLookup
    split
    · rfl
    · rfl
  unfold writeControl
  dsimp only
  split
  · exact hlookup
  · rfl

theorem ringOf_writeControl (f n : Nat) (s : State) (f' n' : Nat) : ringOf (writeControl f n s) f' n' = ringOf s f' n' :=
  ringOf_congr ((writeControl_goes f n s Goes.rfl (List.Subset.refl _)).within .fns (by decide)) f' n'

theorem ringOf_mirrorItem (i : MirrorItem) (s : State) (f n : Nat) : ringOf (mirrorItem i s) f n = ringOf s f n :=
  ringOf_congr ((mirrorItem_goes i s Goes.rfl (List.Subset.refl _)).within .fns (by decide)) f n

theorem generate_within (f i n : Nat) (s : State) : Within [.eng, .rng, .log, .budget] s (generate f i n s).2 :=
  (generate_goes f i n s Goes.rfl (List.Subset.refl _)).within

end Sys2Proof.Machine
end

section
/-! SUPPORT. The sheet. commands (O36), one theorem per command. -/
namespace Sys2Proof.Machine

theorem exec_sheetHistory {c : Cmd} {s : State} (happlies : mayApply s c = true) (hcheck : sheetHistoryCheck c s = none) :
    ∃ t, exec (.sheetHistory c) s = .next t ∧ Applied [.hawk] s t c ∧
      t.hawk = { s.hawk with depth := (cw c 8).toNat } := by
  have hwithin := (sheetHistoryEff_goes (ps := [.outbox, .hawk]) c s Goes.rfl (by decide)).within
  obtain ⟨happlied, hkept⟩ := runConfig_applied (eff := sheetHistoryEff) happlies hcheck rfl hwithin (by decide)
  exact ⟨_, rfl, happlied, hkept .hawk (by decide)⟩

theorem exec_sheetGroup {c : Cmd} {s : State} {i : Nat} (happlies : mayApply s c = true) (hcheck : sheetGroupCheck c s = none)
    (hi : i = 16 * (cCtx c % 4) + bits (cw c 8) 3 0) (hbound : i < s.hawk.groups.length) :
    ∃ t, exec (.sheetGroup c) s = .next t ∧ Applied [.hawk] s t c ∧
      lget t.hawk.groups i default = { lget s.hawk.groups i default with
        deadline := bits (cw c 8) 13 8, policy := bits (cw c 8) 17 16, hold := bits (cw c 8) 31 24 } ∧
      ∀ k, k ≠ i → lget t.hawk.groups k default = lget s.hawk.groups k default := by
  have hwithin := (sheetGroupEff_goes (ps := [.outbox, .hawk]) c s Goes.rfl (by decide)).within
  obtain ⟨happlied, hkept⟩ := runConfig_applied (eff := sheetGroupEff) happlies hcheck rfl hwithin (by decide)
  have hgroups : (runConfig sheetGroupCheck sheetGroupEff c s).hawk.groups = lupd s.hawk.groups i (fun g => { g with
      deadline := bits (cw c 8) 13 8, policy := bits (cw c 8) 17 16, hold := bits (cw c 8) 31 24 }) := by
    rw [hkept .hawk (by decide), hi]
  refine ⟨_, rfl, happlied, ?_, fun k hk => ?_⟩
  · rw [hgroups, lget_lupd_self _ _ _ _ hbound]
  · rw [hgroups, lget_lupd_other _ _ _ _ _ hk]

theorem exec_sheetKey {c : Cmd} {s : State} (happlies : mayApply s c = true) (hcheck : sheetKeyCheck c s = none)
    (hfn : (cw c 8).toNat < s.fns.length) :
    ∃ t, exec (.sheetKey c) s = .next t ∧ Applied [.fns] s t c ∧ (fnOf t (cw c 8).toNat).sheetKey = some (cCtx c) := by
  have hwithin := (sheetKeyEff_goes (ps := [.outbox, .fns]) c s Goes.rfl (by decide)).within
  obtain ⟨happlied, hkept⟩ := runConfig_applied (eff := sheetKeyEff) happlies hcheck rfl hwithin (by decide)
  refine ⟨_, rfl, happlied, ?_⟩
  rw [fnOf_congr (hkept .fns (by decide))]
  exact congrArg Fn.sheetKey (fnOf_updFn_self hfn _)

theorem exec_sheetRing_deletes {c : Cmd} {s : State} (happlies : mayApply s c = true) (hring : cCtx c ≤ 4)
    (hfn : (cw c 14).toNat < s.fns.length) (hbound : cCtx c < (fnOf s (cw c 14).toNat).rings.length)
    (hm : bits (cw c 12) 4 0 = 0) :
    ∃ t, exec (.sheetRing c) s = .next t ∧ Applied [.fns, .hawk] s t c ∧
      ringOf t (cw c 14).toNat (cCtx c) = default ∧
      ∀ h ∈ t.hawk.held, ¬(h.fn = (cw c 14).toNat ∧ h.ring = cCtx c) := by
  have hexec : exec (.sheetRing c) s = .next (runConfig sheetRingCheck sheetRingEff c s) :=
    congrArg Host.Outcome.next (if_pos hm)
  have hwithin : Within [.outbox, .fns, .hawk] s
      (updRing (cw c 14).toNat (cCtx c) (fun _ => default) (dropHeld (cw c 14).toNat (cCtx c) s)) := by
    intro p hp
    cases p
    case fns => exact absurd (by decide) hp
    case hawk => exact absurd (by decide) hp
    all_goals exact rfl
  obtain ⟨happlied, hkept⟩ :=
    runConfig_applied happlies (sheetRingCheck_deletes s hring hm) (sheetRingEff_deletes hm) hwithin (by decide)
  refine ⟨_, hexec, happlied, ?_, fun h hmem => held_dropHeld (s := s) ?_⟩
  · exact (ringOf_congr (hkept .fns (by decide)) ..).trans
      (ringOf_updRing_self (s := dropHeld (cw c 14).toNat (cCtx c) s) hfn hbound _)
  · rw [hkept .hawk (by decide)] at hmem
    exact hmem

/-- A creation runs as configuration: its draw can be made. -/
theorem exec_sheetRing_drawn {c : Cmd} {s : State} (hm : bits (cw c 12) 4 0 ≠ 0) (hcheck : sheetRingCheck c s = none)
    (hready : drawReady s 0 = true) :
    exec (.sheetRing c) s = .next (runConfig sheetRingCheck sheetRingEff c s) := by
  show execSheetRing c s = _
  simp only [execSheetRing, hm, if_false, withDraw, drawRefused_of_sheetRingCheck hm hcheck, hready, if_true]

theorem exec_sheetRing_creates {c : Cmd} {s : State} (happlies : mayApply s c = true)
    (hfn : (cw c 14).toNat < s.fns.length) (hbound : cCtx c < (fnOf s (cw c 14).toNat).rings.length)
    (hm : bits (cw c 12) 4 0 ≠ 0) (hcheck : sheetRingCheck c s = none) (hready : drawReady s 0 = true) :
    ∃ t salt, exec (.sheetRing c) s = .next t ∧
      Ends s t c.tok 0 0 (if s.sys.gateway then [] else salt) ∧ t.sys.epoch = s.sys.epoch + 1 ∧
      ringOf t (cw c 14).toNat (cCtx c) =
        createdRing c salt (s.sys.epoch + 1) (ringOf s (cw c 14).toNat (cCtx c)) := by
  let f := (cw c 14).toNat
  let n := cCtx c
  let g := generate c.fn 0 16 (dropHeld f n s)
  have hdrawn : Within [.eng, .rng, .log, .budget] (dropHeld f n s) g.2 := generate_within _ _ _ _
  have hsys : g.2.sys = s.sys := hdrawn .sys (by decide)
  have hfns : g.2.fns = s.fns := hdrawn .fns (by decide)
  have hjournal : (sheetRingEff c s).st.journal = s.journal :=
    (sheetRingEff_goes c s Goes.rfl (List.Subset.refl _)).within .journal (by decide)
  obtain ⟨hends, hepoch, hkept⟩ := runConfig_ends happlies hcheck (sheetRingEff_creates hm) rfl
    (by rw [← sheetRingEff_creates hm]; exact hjournal)
  refine ⟨_, g.1, exec_sheetRing_drawn hm hcheck hready, ?_, ?_, ?_⟩
  · rw [← hsys]
    exact hends
  · rw [hepoch, epoch_writeControl, mirrorItem_sys, updRing_sys, hsys]
  · rw [ringOf_congr (hkept .fns (by decide)), ringOf_writeControl, ringOf_mirrorItem,
      ringOf_updRing_self (by rw [hfns]; exact hfn) (by rw [fnOf_congr hfns]; exact hbound), ringOf_congr hfns, hsys]

theorem exec_sheetView {c : Cmd} {s : State} (happlies : mayApply s c = true) (hcheck : sheetViewCheck c s = none)
    (hfn : (cw c 14).toNat < s.fns.length) (hbound : cCtx c < (fnOf s (cw c 14).toNat).rings.length) :
    ∃ t, exec (.sheetView c) s = .next t ∧ Applied [.fns] s t c ∧
      ringOf t (cw c 14).toNat (cCtx c) = { ringOf s (cw c 14).toNat (cCtx c) with
        view := viewIds c, tracker := if bit (cw c 8) 0 then some (bits (cw c 8) 2 1) else none } := by
  have hwithin := (sheetViewEff_goes (ps := [.outbox, .fns]) c s Goes.rfl (by decide)).within
  obtain ⟨happlied, hkept⟩ := runConfig_applied (eff := sheetViewEff) happlies hcheck rfl hwithin (by decide)
  exact ⟨_, rfl, happlied, (ringOf_congr (hkept .fns (by decide)) ..).trans (ringOf_updRing_self hfn hbound _)⟩

/-- Settles O36: each command passes its checks, and what its effect makes of group, function and ring outlives its outcome. -/
theorem sheetCommands : Obligations.SheetCommands := by
  unfold Obligations.SheetCommands
  intro c s happlies
  refine ⟨exec_sheetHistory happlies, ?_, ?_, ?_, exec_sheetView happlies⟩
  · intro d i hleast hmost hinterpolates hbp hbound
    exact exec_sheetGroup happlies (sheetGroupCheck_passes s hleast hmost hinterpolates)
      (by rw [Nat.mod_eq_of_lt hbp]) hbound
  · intro x hx hsound hksk hattr hlength hfn
    exact exec_sheetKey happlies (sheetKeyCheck_passes hx hsound hksk hattr hlength) hfn
  · intro f hring hfn hbound
    exact ⟨exec_sheetRing_deletes happlies hring hfn hbound, exec_sheetRing_creates happlies hfn hbound⟩

end Sys2Proof.Machine
end

section
/-! SUPPORT. Triggers, records and directory entries read back after a change (R205 to R214). -/
namespace Sys2Proof.Machine

/-! Reading back what was changed. -/

theorem trigOf_congr {s t : State} (h : t.hawk.trigs = s.hawk.trigs) (i : Nat) : trigOf t i = trigOf s i := by
  unfold trigOf; rw [h]

theorem trigOf_updTrig_self {i : Nat} {s : State} (hi : i < s.hawk.trigs.length) (g : Trigger → Trigger) :
    trigOf (updTrig i g s) i = g (trigOf s i) := lget_lupd_self s.hawk.trigs i g default hi

theorem trigOf_updTrig_other {i k : Nat} (hk : k ≠ i) (g : Trigger → Trigger) (s : State) :
    trigOf (updTrig i g s) k = trigOf s k := lget_lupd_other s.hawk.trigs i k g default hk

/-- The first entry of a key, in a list whose entries of that key are changed and keep it. -/
theorem find?_map_key {α : Type} {key : α → Nat} {n : Nat} {g : α → α} (hg : ∀ a, key (g a) = key a) {l : List α}
    {a : α} (ha : l.find? (fun x => key x == n) = some a) :
    (l.map (fun x => if key x = n then g x else x)).find? (fun x => key x == n) = some (g a) := by
  have hkeeps (x : α) : key (if key x = n then g x else x) = key x := by
    split
    · exact hg x
    · rfl
  have hn : key a = n := by simpa using List.find?_some ha
  rw [List.find?_map, show (fun x => key x == n) ∘ (fun x => if key x = n then g x else x) = fun x => key x == n from
    funext fun x => by rw [Function.comp_apply, hkeeps x], ha, Option.map_some, if_pos hn]

theorem recOf_updRec_self {n : Nat} {s : State} {r : Rec} (hr : recOf s n = some r) {g : Rec → Rec}
    (hg : ∀ x, (g x).num = x.num) : recOf (updRec n g s) n = some (g r) := find?_map_key hg hr

theorem recOf_congr {s t : State} (h : t.hawk = s.hawk) (n : Nat) : recOf t n = recOf s n := by unfold recOf; rw [h]

theorem volRecOf_updVolRec_self {n : Nat} {s : State} {r : VolRec} (hr : volRecOf s n = some r) {g : VolRec → VolRec}
    (hg : ∀ x, (g x).recNum = x.recNum) : volRecOf (updVolRec n g s) n = some (g r) := find?_map_key hg hr

theorem volRecOf_congr {s t : State} (h : t.sealer = s.sealer) (n : Nat) : volRecOf t n = volRecOf s n := by
  unfold volRecOf; rw [h]

/-! Firing (R205, R206, R208). -/

theorem fireTrig_standby {s : State} (hpublishes : publishes s = false) (i slot source : Nat) (data : List Byte) :
    fireTrig i slot source data s = s := by
  simp only [fireTrig, hpublishes, Bool.not_false, Bool.true_or, if_true]

theorem hawk_mirrorItem (i : MirrorItem) (s : State) : (mirrorItem i s).hawk = s.hawk :=
  (mirrorItem_goes i s Goes.rfl (List.Subset.refl _)).within .hawk (by decide)

theorem recs_nextRecnum (s : State) : (nextRecnum s).2.hawk.recs = s.hawk.recs :=
  (congrArg Hawk.recs (hawk_mirrorItem (.recnum (s.hawk.recNum + 1)) _)).trans rfl

/-- A record that opens while no other is open (R206). -/
theorem recs_openRec {s : State} (hrecs : s.hawk.recs = []) (i slot first source : Nat) (data : List Byte) :
    ∃ r, (openRec i slot first source data s).hawk.recs = [r] ∧ r.trig = i ∧ r.trigSlot = slot ∧ r.first = first ∧
      r.last = slot + (trigOf s i).post ∧ r.num = s.hawk.recNum + 1 ∧ r.rows = (trigOf s i).rows ∧ r.copying = false := by
  have hnone : (nextRecnum s).2.hawk.recs = [] := (recs_nextRecnum s).trans hrecs
  have hfew : decide (16 ≤ (openRecs s).length) = false := by simp [openRecs, hrecs]
  simp only [openRec, ge_iff_le, hfew, Bool.false_eq_true, if_false, hnone, List.nil_append]
  exact ⟨_, rfl, rfl, rfl, rfl, rfl, rfl, rfl, rfl⟩

theorem trigs_bound_of_host {s : State} {i : Nat} (hhost : (trigOf s i).src = .host) : i < s.hawk.trigs.length := by
  refine Nat.lt_of_not_le fun hbound => ?_
  have hdefault : trigOf s i = default := by
    unfold trigOf lget
    rw [List.getD_eq_getElem?_getD, List.getElem?_eq_none hbound, Option.getD_none]
  rw [hdefault] at hhost
  cases hhost

/-- A slot in which the trigger has not fired yet, with no record open: the firing cuts one record (R205, R206). -/
theorem recs_fireTrig {s : State} {i slot : Nat} (hbound : i < s.hawk.trigs.length) (hpublishes : publishes s = true)
    (hfresh : slot ∉ (trigOf s i).fires) (hrecs : s.hawk.recs = []) (source : Nat) (data : List Byte) :
    ∃ r, (fireTrig i slot source data s).hawk.recs = [r] ∧ r.trig = i ∧ r.trigSlot = slot ∧
      r.first = slot - (trigOf s i).pre ∧ r.last = slot + (trigOf s i).post ∧ r.num = s.hawk.recNum + 1 ∧
      r.rows = (trigOf s i).rows ∧ r.copying = false := by
  let u := event 6 4 (cntHawk 7 1 s)
  let v := updTrig i (fun g => { g with fires := slot :: g.fires }) u
  have hhawk : u.hawk = { (cntHawk 7 1 s).hawk with evt := setBit s.hawk.evt 4 } := event_hawk_window 4 _
  have hnone : v.hawk.recs = [] := by
    show u.hawk.recs = []
    rw [hhawk]
    exact hrecs
  have hnum : v.hawk.recNum = s.hawk.recNum := by
    show u.hawk.recNum = s.hawk.recNum
    rw [hhawk]
    rfl
  have htrigs : u.hawk.trigs = s.hawk.trigs := by
    rw [hhawk]
    rfl
  have htrig : trigOf v i = { trigOf s i with fires := slot :: (trigOf s i).fires } := by
    rw [← trigOf_congr htrigs]
    exact trigOf_updTrig_self (htrigs ▸ hbound) _
  have hfires : fireTrig i slot source data s = openRec i slot (slot - (trigOf s i).pre) source data v := by
    have hcontains : (trigOf s i).fires.contains slot = false := by simpa using hfresh
    simp only [fireTrig, hpublishes, hcontains, Bool.not_true, Bool.or_self, Bool.false_eq_true, if_false]
    rw [show (updTrig i _ (event 6 4 (cntHawk 7 1 s))).hawk.recs = [] from hnone]
    simp [v, u]
  obtain ⟨r, hr, htrigr, hslot, hfirst, hlast, hnumr, hrows, hcopying⟩ :=
    recs_openRec hnone i slot (slot - (trigOf s i).pre) source data
  refine ⟨r, hfires ▸ hr, htrigr, hslot, hfirst, ?_, hnumr.trans (congrArg (· + 1) hnum), ?_, hcopying⟩
  · rw [hlast, htrig]
  · rw [hrows, htrig]

/-! Copying (R209). -/

/-- The slots of a record up to the first that the history ring no longer holds. -/
def copySlots (s : State) (r : Rec) : List Nat :=
  ((List.range (r.last + 1 - r.first)).map (fun i => r.first + i)).takeWhile (slotHeld s r)

/-- A record with the slots of r copied into it. -/
def copiedRec (s : State) (r x : Rec) : Rec :=
  { x with
    copying := true, truncated := x.truncated || decide ((copySlots s r).length < r.last + 1 - r.first)
    body := (copySlots s r).map (fun k => (k, slotRows s r k)) }

/-- The state after the copy, which is work of class ARCHIVE. -/
def copiedState (s : State) (r : Rec) (n : Nat) : State :=
  openWork 8 (copySlots s r).length 6 7 (updRec n (copiedRec s r) s)

theorem copiedState_within (s : State) (r : Rec) (n : Nat) : Within [.hawk, .log, .budget] s (copiedState s r n) :=
  (openWork_goes _ _ _ _ _ (updRec_goes n _ s Goes.rfl (by decide)) (by decide)).within

theorem recOf_copiedState {s : State} {r : Rec} {n : Nat} (hr : recOf s n = some r) :
    recOf (copiedState s r n) n = some (copiedRec s r r) :=
  (recOf_congr ((openWork_goes _ _ _ _ _ Goes.rfl (List.Subset.refl _)).within .hawk (by decide)) n).trans
    (recOf_updRec_self hr fun _ => rfl)

/-! Sealing (R210, R213, R214). -/

theorem hawk_writeEvent (f : Nat) (head body : List Byte) (s : State) : (writeEvent f head body s).hawk = s.hawk :=
  (writeEvent_goes f head body s Goes.rfl (List.Subset.refl _)).within .hawk (by decide)

/-- A notice leaves the open records alone. -/
theorem recs_writeNotice (r : Rec) (outcome volsec : Nat) (s : State) :
    (writeNotice r outcome volsec s).hawk.recs = s.hawk.recs := by
  have hevents (h : List Byte) (fs : List Nat) (u : State) :
      (fs.foldl (fun v f => writeEvent f h [] v) u).hawk = u.hawk :=
    List.foldlRecOn (motive := fun v : State => v.hawk = u.hawk) fs _ rfl
      fun v hv f _ => (hawk_writeEvent f h [] v).trans hv
  unfold writeNotice
  dsimp only
  split
  · rw [hevents]
  · rw [hevents]

theorem recs_recSealed (r : Rec) (volsec : Nat) (s : State) :
    (recSealed r volsec s).hawk.recs = s.hawk.recs.filter (fun x => x.num != r.num) := recs_writeNotice ..

theorem recs_recDropped (r : Rec) (s : State) :
    (recDropped r s).hawk.recs = s.hawk.recs.filter (fun x => x.num != r.num) := by
  unfold recDropped
  dsimp only
  rw [recs_writeNotice, event_hawk_window]
  rfl

/-- An internal signer has a signature unless the engine answers RETRY (R448, R452). -/
theorem internalSign_isSome (owner fn : Nat) (purpose : String) (priv ctx octs : List Byte) (s : State) :
    (internalSign owner fn purpose priv ctx octs s).1.isSome =
      (Config.pkeSign 0x0B priv ctx (Config.hash 5 octs) (signerRnd fn purpose s).1).isSome := by
  unfold internalSign
  dsimp only
  split
  · next g hsigns => rw [hsigns]; rfl
  · next hretry => rw [hretry]

theorem internalSign_within (owner fn : Nat) (purpose : String) (priv ctx octs : List Byte) (s : State) :
    Within [.eng, .pke, .rng, .log, .budget] s (internalSign owner fn purpose priv ctx octs s).2 :=
  (internalSign_pair rfl Goes.rfl (List.Subset.refl _)).within

theorem slotKey_congr {s t : State} (h : t.keys = s.keys) (k : Nat) : slotKey t k = slotKey s k := by
  unfold slotKey; rw [h]

/-- The signature of a record's manifest, after its body is hashed, and the state that the signer leaves. -/
def recordSignature (s : State) (r : Rec) : Option (List Byte) × State :=
  internalSign 0x73 0 "record" (slotKey s 3) [] (manifestHead r (recBody r))
    (engineWork 4 7 0 (digestCycles (recBody r).length) 4 0 [] s)

theorem hash_within (s : State) (r : Rec) :
    Within [.eng, .log, .budget] s (engineWork 4 7 0 (digestCycles (recBody r).length) 4 0 [] s) :=
  (engineWork_goes _ _ _ _ _ _ _ s Goes.rfl (List.Subset.refl _)).within

theorem hawk_recordSignature (s : State) (r : Rec) : (recordSignature s r).2.hawk = s.hawk :=
  Part.same_trans (hash_within s r .hawk (by decide)) (internalSign_within _ _ _ _ _ _ _ .hawk (by decide))

end Sys2Proof.Machine
end

section
/-! SUPPORT. The rec. commands and the events of a record (O44), one theorem per row. -/
namespace Sys2Proof.Machine

theorem exec_recTrig {c : Cmd} {s : State} (happlies : mayApply s c = true) (hcheck : recTrigCheck c s = none)
    (hbound : (cw c 8).toNat < s.hawk.trigs.length) :
    ∃ t, exec (.recTrig c) s = .next t ∧ Applied [.hawk] s t c ∧
      trigOf t (cw c 8).toNat = { src := armTime s (field c.input 2 1) ((trigSource c.input).getD .off), rows := trigRows c.input
                                  bp := field c.input 2 1, pre := field c.input 4 4, post := field c.input 8 4
                                  maxLen := field c.input 0xC 4, archive := field c.input 1 1 == 1
                                  fns := trigFns c.input, runLen := 0, fires := [] } ∧
      ∀ i, i ≠ (cw c 8).toNat → trigOf t i = trigOf s i := by
  have hwithin : Within [.outbox, .hawk] s (recTrigEff c s).st := (updTrig_goes _ _ s Goes.rfl (by decide)).within
  obtain ⟨happlied, hkept⟩ := runConfig_applied (eff := recTrigEff) happlies hcheck rfl hwithin (by decide)
  have hhawk : (runConfig recTrigCheck recTrigEff c s).hawk = (recTrigEff c s).st.hawk := hkept .hawk (by decide)
  have htrigs (i : Nat) : trigOf (runConfig recTrigCheck recTrigEff c s) i = trigOf (recTrigEff c s).st i :=
    trigOf_congr (congrArg Hawk.trigs hhawk) i
  exact ⟨_, rfl, happlied, (htrigs _).trans (trigOf_updTrig_self hbound _),
    fun i hi => (htrigs i).trans (trigOf_updTrig_other hi _ s)⟩

theorem exec_recFire {c : Cmd} {s : State} (hruns : runnable s c = true) (hhost : (trigOf s (cw c 8).toNat).src = .host)
    (htime : s.time.tstate ≠ 0) :
    ∃ t, exec (.recFire c) s = .next t ∧ Served [.hawk, .log] s t c 0 [] ∧ t.hawk = (recFireEff c s).st.hawk := by
  have hcheck : recFireCheck c s = none := by
    simp only [recFireCheck, firstFail, hhost, htime, ne_eq, not_true_eq_false, decide_false, beq_iff_eq,
      Bool.false_eq_true, if_false]
  have hwithin : Within [.hawk, .log, .outbox] s (recFireEff c s).st :=
    (recFireEff_goes c s Goes.rfl (List.Subset.refl _)).within
  obtain ⟨hends, hkept⟩ := runPlain_ends (eff := recFireEff) hruns hcheck rfl (hwithin .journal (by decide))
  exact ⟨_, rfl, ⟨hends, (hwithin.mono (by decide)).trans (hkept.mono (by decide))⟩, hkept .hawk (by decide)⟩

theorem exec_recLock {c : Cmd} {s : State} {r : VolRec} (happlies : mayApply s c = true) (hvol : volAbsent s = false)
    (hr : volRecOf s (cw64 c 8) = some r) :
    ∃ t, exec (.recLock c) s = .next t ∧ Applied [.sealer] s t c ∧
      volRecOf t (cw64 c 8) = some { r with locked := bit (cw c 10) 0 } := by
  have hcheck : recLockCheck c s = none := by
    simp only [recLockCheck, firstFail, hvol, hr, Option.isNone_some, Bool.false_eq_true, if_false]
  have hwithin := (recLockEff_goes (ps := [.outbox, .sealer]) c s Goes.rfl (by decide)).within
  obtain ⟨happlied, hkept⟩ := runConfig_applied (eff := recLockEff) happlies hcheck rfl hwithin (by decide)
  exact ⟨_, rfl, happlied, (volRecOf_congr (hkept .sealer (by decide)) _).trans
    (volRecOf_updVolRec_self hr fun _ => rfl)⟩

theorem exec_recList {c : Cmd} {s : State} (hruns : runnable s c = true) :
    ∃ t, exec (.recList c) s = .next t ∧ Served [] s t c (recListEff c s).result (recListEff c s).out := by
  obtain ⟨hends, hkept⟩ := runPlain_ends (check := noCheck) (eff := recListEff) (e := recListEff c s) hruns rfl rfl rfl
  exact ⟨_, rfl, hends, hkept⟩

theorem exec_recordCopyStart_due {s : State} {n : Nat} {r : Rec} (hr : recOf s n = some r) (hcopying : r.copying = false)
    (hposted : r.posted = none) (hruns : isStopped s = false) (hdue : copyDue s r = true) :
    exec (.recordCopyStart n) s = .next (copiedState s r n) := by
  show execRecordCopyStart n s = _
  simp only [execRecordCopyStart, hr, hcopying, hposted, hruns, hdue, Option.isSome_none, Bool.not_true, Bool.or_self,
    Bool.false_eq_true, if_false]
  rfl

theorem exec_recordCopyStart_notDue {s : State} {n : Nat} {r : Rec} (hr : recOf s n = some r)
    (hdue : copyDue s r = false) : exec (.recordCopyStart n) s = .next s := by
  show execRecordCopyStart n s = _
  simp only [execRecordCopyStart, hr, hdue, Bool.not_false, Bool.or_true, Bool.true_or, if_true]

section
variable {s : State} {n : Nat} {r : Rec} (hr : recOf s n = some r) (hcopying : r.copying = true)
  (hposted : r.posted = none) (hruns : isStopped s = false) (hsigner : signerReady s = true)
include hr hcopying hposted hruns hsigner

theorem exec_recordSeal_unsigned (hkey : slotFail s 3 [4] ≠ none) : exec (.recordSeal n) s = .next (recDropped r s) := by
  show execRecordSeal n s = _
  simp only [execRecordSeal, hr, hcopying, hposted, hruns, hsigner, Option.isSome_none, Bool.not_true, Bool.or_self,
    Bool.false_eq_true, if_false, Option.isSome_iff_ne_none.2 hkey, if_true]

theorem exec_recordSeal_noVolume (hkey : slotFail s 3 [4] = none) (harchive : (trigOf s r.trig).archive = true)
    (hvol : volAbsent s = true) : exec (.recordSeal n) s = .next (recDropped r s) := by
  show execRecordSeal n s = _
  simp only [execRecordSeal, hr, hcopying, hposted, hruns, hsigner, hkey, harchive, hvol, Option.isSome_none,
    Bool.not_true, Bool.or_self, Bool.and_self, Bool.false_eq_true, if_false, if_true]

/-- A record without archive is sealed where its manifest was signed, and stays where the signature is to be tried again. -/
theorem exec_recordSeal_kept (hkey : slotFail s 3 [4] = none) (harchive : (trigOf s r.trig).archive = false) :
    exec (.recordSeal n) s = .next (if (recordSignature s r).1.isSome then recSealed r (2 ^ 64 - 1) (recordSignature s r).2
      else (recordSignature s r).2) := by
  have hslot := slotKey_congr (hash_within s r .keys (by decide)) 3
  show execRecordSeal n s = _
  simp only [execRecordSeal, hr, hcopying, hposted, hruns, hsigner, hkey, hslot, harchive, Option.isSome_none,
    Bool.not_true, Bool.or_self, Bool.false_and, Bool.false_eq_true, if_false]
  unfold recordSignature
  rcases internalSign 0x73 0 "record" (slotKey s 3) [] (manifestHead r (recBody r))
    (engineWork 4 7 0 (digestCycles (recBody r).length) 4 0 [] s) with ⟨_ | g, u⟩
  · rfl
  · rfl

theorem recs_recordSeal_kept (hkey : slotFail s 3 [4] = none) (harchive : (trigOf s r.trig).archive = false) :
    ∃ t, exec (.recordSeal n) s = .next t ∧ t.hawk.recs =
      if (recordSignature s r).1.isSome then s.hawk.recs.filter (fun x => x.num != r.num) else s.hawk.recs := by
  refine ⟨_, exec_recordSeal_kept hr hcopying hposted hruns hsigner hkey harchive, ?_⟩
  split
  · rw [recs_recSealed, hawk_recordSignature]
  · rw [hawk_recordSignature]

end

/-- Settles O44: what each command and event makes of triggers, records and directory outlives its outcome. -/
theorem records : Obligations.Records := by
  unfold Obligations.Records
  intro c s
  refine ⟨exec_recTrig, ?_, fun r => exec_recLock, exec_recList, ?_, ?_⟩
  · intro g slot hruns hhost htime
    obtain ⟨t, hnext, hserved, hhawk⟩ := exec_recFire hruns hhost htime
    refine ⟨t, hnext, hserved, fun hstandby => ?_, fun hpublishes hfresh hrecs => ?_⟩
    · exact hhawk.trans (congrArg State.hawk (fireTrig_standby hstandby _ slot 0 []))
    · rw [hhawk]
      exact recs_fireTrig (trigs_bound_of_host hhost) hpublishes hfresh hrecs 0 []
  · intro n r hr hcopying hposted hruns
    refine ⟨fun hdue => ⟨_, exec_recordCopyStart_due hr hcopying hposted hruns hdue, copiedState_within s r n,
      recOf_copiedState hr⟩, exec_recordCopyStart_notDue hr⟩
  · intro n r hr hcopying hposted hruns hsigner
    refine ⟨fun hkey => ?_, fun hkey harchive hvol => ?_, fun hkey harchive => ?_⟩
    · exact ⟨_, exec_recordSeal_unsigned hr hcopying hposted hruns hsigner hkey, recs_recDropped r s⟩
    · exact ⟨_, exec_recordSeal_noVolume hr hcopying hposted hruns hsigner hkey harchive hvol, recs_recDropped r s⟩
    · rw [← internalSign_isSome 0x73]
      exact recs_recordSeal_kept hr hcopying hposted hruns hsigner hkey harchive

end Sys2Proof.Machine
end

section
/-! SUPPORT. The reset state is legal (R29, R34, R549, R556, R591) and holds no program (R217): the statement O4. -/
namespace Sys2Proof.Machine

theorem legal_reset : Legal State.reset :=
  ⟨rfl, by decide, Nat.zero_le _, Nat.zero_le _, Nat.zero_le _⟩

theorem progs_reset : State.reset.trowel.progs = [] := rfl

/-- Settles O4: counters are 0 and the mode is one of the eight; without a program every program memory is canonical. -/
theorem resetIsLegal : Obligations.ResetIsLegal := by
  unfold Obligations.ResetIsLegal
  refine ⟨legal_reset, fun e he => ?_⟩
  rw [progs_reset] at he
  exact absurd he List.not_mem_nil

end Sys2Proof.Machine
end

section
/-! SUPPORT. wait.ev (R236, R267, R279, R280): the event it waits for does not depend on the program's own cycles, and the
statement O26. -/
namespace Sys2Proof.Machine

theorem progOf_setProg_other {p q : Nat} (hq : q ≠ p) (g : Prog) (s : State) : progOf (setProg p g s) q = progOf s q :=
  mget_mupd_other s.trowel.progs p q _ hq

theorem progOf_updProg_other {p q : Nat} (hq : q ≠ p) (f : Prog → Prog) (s : State) :
    progOf (updProg p f s) q = progOf s q := mget_mupd_other s.trowel.progs p q f hq

/-- A program that issues is loaded, with the cycle that a corrected fetch took still in its BUDGET, and holds its core. -/
theorem Issues.loaded {s : State} {p : Nat} {w : W32} {g : Prog} (h : Issues s p w g) :
    (∃ b, progOf s p = some { g with budget := b }) ∧ runningOn s g.core = some p := by
  obtain ⟨g0, hholds, -, rfl⟩ := h
  obtain ⟨hprog, hruns, -⟩ := holder_prog hholds
  exact ⟨⟨g0.budget, hprog⟩, hruns⟩

/-! Rows and events are found through a program's binding alone. -/

section
variable {s : State} {p : Nat} {g0 g : Prog} (hprog : progOf s p = some g0) (hbind : g.bind_ = g0.bind_)
include hprog hbind

theorem rowHome_setProg (id : Nat) : rowHome (setProg p g s) id = rowHome s id := by
  have hhome (q : Nat) : (progOf (setProg p g s) q).map (fun h => (h.bind_.bp, h.bind_.group)) =
      (progOf s q).map (fun h => (h.bind_.bp, h.bind_.group)) := by
    by_cases hq : q = p
    · subst hq
      rw [progOf_setProg hprog, hprog, Option.map_some, Option.map_some, hbind]
    · rw [progOf_setProg_other hq]
  unfold rowHome
  simp only [hhome]
  rfl

theorem fixedRow_setProg (id sub slot : Nat) : fixedRow (setProg p g s) id sub slot = fixedRow s id sub slot := by
  unfold fixedRow
  rw [rowHome_setProg hprog hbind]
  rfl

theorem evOccurred_setProg (h : Prog) (e : Nat) : evOccurred (setProg p g s) h e = evOccurred s h e := by
  unfold evOccurred
  simp only [fixedRow_setProg hprog hbind]
  rfl

end

/-- ROWS has occurred once every bound row of the slot is fixed, and returns 0 (R236). -/
theorem evOccurred_rows (s : State) (g : Prog) : evOccurred s g 0 =
    if ∀ x ∈ g.bind_.sheets, fixedRow s (x / 256) (x % 256) g.slot ≠ none then some 0 else none := by
  simp only [evOccurred, if_true, List.all_eq_true, Option.isSome_iff_ne_none]

/-! The two rows. -/

section
variable {s : State} {p : Nat} {d e : Fld4} {g : Prog} (hissues : Issues s p (encR 0x03 d 0 e 0 0x011) g)
include hissues

/-- The event that decides is the one of the state in which the word is issued. -/
theorem evOccurred_issued : evOccurred (setProg p g s) g e.toNat = evOccurred s g e.toNat := by
  obtain ⟨⟨b, hprog⟩, -⟩ := hissues.loaded
  exact evOccurred_setProg (g := g) hprog rfl g e.toNat

theorem exec_waitEv_returns {v : W32} (hevent : evOccurred s g e.toNat = some v) :
    exec (.waitEv p d e) s = .next (setProg p { stepped g 1 with regs := regWritten g d v } s) := by
  have hprog : progOf (setProg p g s) p = some g := (issue_runs hissues fun _ u => u).2
  show execWaitEv p d e s = _
  unfold execWaitEv
  rw [(issue_runs hissues _).1]
  simp only [evOccurred_issued hissues, hevent, finishNext_eq hprog, setProg_twice, gset_eq, stepped]

theorem exec_waitEv_waits (hevent : evOccurred s g e.toNat = none) :
    exec (.waitEv p d e) s =
      .next (setProg p { g with phase := .waitEv d.toNat e.toNat, budget := g.budget - 1 } s) := by
  have hprog : progOf (setProg p g s) p = some g := (issue_runs hissues fun _ u => u).2
  show execWaitEv p d e s = _
  unfold execWaitEv
  rw [(issue_runs hissues _).1]
  simp only [evOccurred_issued hissues, hevent, updProg_eq _ hprog, setProg_twice]

end

section
variable {s : State} {p : Nat} {d e : Fld4} {g : Prog} (hwaits : holder s p (.waitEv d.toNat e.toNat) = some g)
include hwaits

theorem waitsFor_of_holder : waitsFor s p = some (g, d.toNat, e.toNat) := by
  obtain ⟨hprog, -, hphase, -⟩ := holder_prog hwaits
  unfold waitsFor
  simp only [hprog, hphase, hwaits, Option.map_some]

theorem exec_waitEvReturn_returns {v : W32} (hevent : evOccurred s g e.toNat = some v) :
    exec (.waitEvReturn p) s =
      .next (setProg p { g with phase := .running, regs := regWritten g d v, pc := g.pc + 4 } s) := by
  have hprog : progOf s p = some g := (holder_prog hwaits).1
  show execWaitEvReturn p s = _
  unfold execWaitEvReturn
  simp only [waitsFor_of_holder hwaits, hevent, finishNext_eq hprog, gset_eq, BitVec.ofNat_toNat, BitVec.setWidth_eq,
    Nat.sub_zero]

theorem exec_waitEvReturn_waits (hevent : evOccurred s g e.toNat = none) : exec (.waitEvReturn p) s = .next s := by
  show execWaitEvReturn p s = _
  unfold execWaitEvReturn
  simp only [waitsFor_of_holder hwaits, hevent]

end

/-- Settles O26: the word issued and the return each, with the event there and not. -/
theorem ezWaits : Obligations.EzWaits := by
  unfold Obligations.EzWaits
  intro p d e s g
  exact ⟨evOccurred_rows s g, fun _ hissues => exec_waitEv_returns hissues, exec_waitEv_waits,
    fun _ hwaits => exec_waitEvReturn_returns hwaits, exec_waitEvReturn_waits⟩

end Sys2Proof.Machine
end

section
/-! SUPPORT. What the operations at the end of slot work leave of programs, cores and queues (R232, R235, R238, R243, R244),
and the statement O25. -/
namespace Sys2Proof.Machine

/-- Programs, cores, their queues and the unloads that wait are the same: at most counters, events and SPARE_SHORT of the
Trowel window differ. -/
structure SameWork (s t : State) : Prop where
  progs : t.trowel.progs = s.trowel.progs
  running : t.trowel.running = s.trowel.running
  ready : t.trowel.ready = s.trowel.ready
  unloading : t.trowel.unloading = s.trowel.unloading
  retired : t.trowel.retired = s.trowel.retired

theorem SameWork.of_trowel {s t : State} (h : t.trowel = s.trowel) : SameWork s t := by
  constructor <;> rw [h]

theorem SameWork.trans {s t u : State} (h : SameWork s t) (g : SameWork t u) : SameWork s u :=
  ⟨g.progs.trans h.progs, g.running.trans h.running, g.ready.trans h.ready, g.unloading.trans h.unloading,
    g.retired.trans h.retired⟩

theorem SameWork.ite {s t u : State} {c : Prop} [Decidable c] (h : SameWork s t) (g : SameWork s u) :
    SameWork s (if c then t else u) := by
  split
  · exact h
  · exact g

theorem SameWork.progOf {s t : State} (h : SameWork s t) (p : Nat) : progOf t p = progOf s p := by
  unfold Machine.progOf
  rw [h.progs]

theorem sameWork_cntTrw (i n : Nat) (s : State) : SameWork s (cntTrw i n s) := ⟨rfl, rfl, rfl, rfl, rfl⟩

theorem sameWork_logEv (type sev : Nat) (body : List W64) (s : State) : SameWork s (logEv type sev body s) :=
  .of_trowel (logEv_within type sev body s .trowel (by decide))

theorem sameWork_trwEvent (b n : Nat) (s : State) : SameWork s (trwEvent b n s) :=
  SameWork.trans (t := setEvt 7 b s) ⟨rfl, rfl, rfl, rfl, rfl⟩ (sameWork_logEv ..)

theorem sameWork_replan (s : State) : SameWork s (replan s) := by
  have hplanned (b : Bool) : SameWork s { s with trowel := { s.trowel with spareShort := b } } := ⟨rfl, rfl, rfl, rfl, rfl⟩
  unfold replan
  dsimp only
  split
  · exact (hplanned _).trans (sameWork_logEv ..)
  · exact hplanned _

theorem fixDerived_within (p : Nat) (rows : List Row) (s : State) :
    Within [.hawk, .pair, .log, .budget, .outbox] s (fixDerived p rows s) :=
  (fixDerived_goes p rows s Goes.rfl (List.Subset.refl _)).within

theorem sameWork_fixDerived (p : Nat) (rows : List Row) (s : State) : SameWork s (fixDerived p rows s) :=
  .of_trowel (fixDerived_within p rows s .trowel (by decide))

/-- Of the Trowel part, only the count of bits that name no trigger of the program changes (R244). -/
theorem sameWork_fireSet (p : Nat) (s : State) : SameWork s (fireSet p s) := by
  unfold fireSet
  split
  · exact .of_trowel rfl
  · next g _ =>
    refine List.foldlRecOn (motive := fun t : State => SameWork s t) _ _ (.of_trowel rfl) fun t ht i _ => ?_
    split
    · exact ht.trans (.of_trowel ((fireTrig_goes i g.slot 2 [] t Goes.rfl (List.Subset.refl _)).within .trowel (by decide)))
    · exact ht.trans (sameWork_cntTrw 9 1 t)

theorem sameWork_writeEvent (f : Nat) (head body : List Byte) (s : State) : SameWork s (writeEvent f head body s) :=
  .of_trowel ((writeEvent_goes f head body s Goes.rfl (List.Subset.refl _)).within .trowel (by decide))

/-- Posting OUT counts the message in the program's sequence, and changes nothing else of its work (R243). -/
theorem sameWork_postOut {p : Nat} {s : State} {g : Prog} (hprog : progOf s p = some g) :
    ∃ n, SameWork (setProg p { g with outSeq := n } s) (postOut p s) := by
  unfold postOut
  simp only [hprog, updProg_eq _ hprog]
  split
  · refine ⟨g.outSeq, ?_⟩
    rw [show ({ g with outSeq := g.outSeq } : Prog) = g from rfl, setProg_self hprog]
    exact .of_trowel rfl
  · refine ⟨g.outSeq + 1, ?_⟩
    split
    · exact .of_trowel rfl
    split
    · exact (sameWork_cntTrw 8 1 _).trans (sameWork_trwEvent 5 p _)
    · exact (sameWork_writeEvent ..).trans ((sameWork_cntTrw 7 1 _).ite (.of_trowel rfl))

/-! Cores (R232). -/

/-- What a program that gives up core c leaves of the core and its queue, before the next one starts. -/
def coreLeft (p c : Nat) (s : State) : State :=
  { s with trowel := { s.trowel with
    running := lupd s.trowel.running c (fun o => if o = some p then none else o)
    ready := lupd s.trowel.ready c (fun l => l.filter (· != p)) } }

theorem leaveCore_eq (p c : Nat) (s : State) : leaveCore p c s = startNext c (coreLeft p c s) := rfl

/-- No program starts, or the first of the core's queue does, on a core that is free. -/
theorem startNext_cases (c : Nat) (s : State) : startNext c s = s ∨
    ∃ q ∈ lget s.trowel.ready c [], ∃ l, startNext c s = updProg q (fun g => { g with phase := .running })
      { s with trowel := { s.trowel with running := lupd s.trowel.running c (fun _ => some q)
                                         ready := lupd s.trowel.ready c (fun _ => l) } } := by
  unfold startNext
  split
  · next q l _ hready => exact .inr ⟨q, hready ▸ List.mem_cons_self, l, rfl⟩
  · exact .inl rfl

/-- The program that gives up a core does not wait for it either. -/
theorem not_mem_ready_coreLeft (p c : Nat) (s : State) : p ∉ lget (coreLeft p c s).trowel.ready c [] := by
  show p ∉ lget (lupd s.trowel.ready c _) c []
  by_cases hc : c < s.trowel.ready.length
  · rw [lget_lupd_self _ _ _ _ hc]
    intro hmem
    have hother := (List.mem_filter.1 hmem).2
    simp only [bne_self_eq_false, Bool.false_eq_true] at hother
  · have hout : (lupd s.trowel.ready c (fun l => l.filter (· != p))).length ≤ c := by
      rw [length_lupd]
      exact Nat.le_of_not_lt hc
    rw [lget, List.getD_eq_getElem?_getD, List.getElem?_eq_none hout, Option.getD_none]
    exact List.not_mem_nil

theorem runningOn_coreLeft {p c : Nat} {s : State} (hc : c < s.trowel.running.length) :
    runningOn (coreLeft p c s) c ≠ some p := by
  show lget (lupd s.trowel.running c _) c none ≠ some p
  rw [lget_lupd_self _ _ _ _ hc]
  split
  · exact nofun
  · assumption

theorem unloading_leaveCore (p c : Nat) (s : State) : (leaveCore p c s).trowel.unloading = s.trowel.unloading := by
  rw [leaveCore_eq]
  obtain hnone | ⟨q, -, l, hnext⟩ := startNext_cases c (coreLeft p c s)
  · rw [hnone]
    rfl
  · rw [hnext]
    rfl

/-- The program that gives up its core is not the next one on it. -/
theorem progOf_leaveCore (p c : Nat) (s : State) : progOf (leaveCore p c s) p = progOf s p := by
  rw [leaveCore_eq]
  obtain hnone | ⟨q, hready, l, hnext⟩ := startNext_cases c (coreLeft p c s)
  · rw [hnone]
    rfl
  · have hq : p ≠ q := fun h => not_mem_ready_coreLeft p c s (h ▸ hready)
    rw [hnext, progOf_updProg_other hq]
    rfl

theorem runningOn_leaveCore {p c : Nat} {s : State} (hc : c < s.trowel.running.length) :
    runningOn (leaveCore p c s) c ≠ some p := by
  rw [leaveCore_eq]
  obtain hnone | ⟨q, hready, l, hnext⟩ := startNext_cases c (coreLeft p c s)
  · rw [hnone]
    exact runningOn_coreLeft hc
  · have hq : p ≠ q := fun h => not_mem_ready_coreLeft p c s (h ▸ hready)
    rw [hnext]
    show lget (lupd (coreLeft p c s).trowel.running c fun _ => some q) c none ≠ some p
    rw [lget_lupd_self _ _ _ _ (by rw [coreLeft, length_lupd]; exact hc)]
    exact fun h => hq (Option.some.inj h).symm

/-! The end of slot work (R235). -/

/-- Slot work of a program for which no unload waits leaves the program idle, without its core. -/
theorem endWork_stays {p : Nat} {s : State} {g : Prog} (hprog : progOf s p = some g)
    (hstays : s.trowel.unloading.contains p = false) (hcore : g.core < s.trowel.running.length) :
    progOf (endWork p s) p = some { g with phase := .idle } ∧ runningOn (endWork p s) g.core ≠ some p := by
  let u := setProg p { g with phase := .idle } s
  have hends : endWork p s = leaveCore p g.core u := by
    unfold endWork
    simp only [hprog, updProg_eq _ hprog]
    rw [unloading_leaveCore, show (setProg p _ s).trowel.unloading = s.trowel.unloading from rfl, hstays, if_neg (by decide)]
  rw [hends]
  exact ⟨(progOf_leaveCore p g.core u).trans (progOf_setProg hprog), runningOn_leaveCore (s := u) hcore⟩

/-- The program as `yield` leaves it before its core is given up: its rows produced, the count of stops cleared (R235). -/
def yielded (rows : List Row) (n : Nat) (g : Prog) : Prog :=
  clearOut { g with produced := rows.map some, stops := 0, stopped := false, pc := g.pc + 4, outSeq := n }

theorem yieldWork_stays {p : Nat} {s : State} {g : Prog} (hprog : progOf s p = some g)
    (hstays : s.trowel.unloading.contains p = false) (hcore : g.core < s.trowel.running.length) :
    ∃ rows n, progOf (yieldWork p s) p = some { yielded rows n g with phase := .idle } ∧
      runningOn (yieldWork p s) g.core ≠ some p := by
  let rows := (List.range g.bind_.derivs.length).map fun j => windowRow g (lget g.bind_.derivs j 0) j g.slot
  let h : Prog := { g with produced := rows.map some, stops := 0, stopped := false, pc := g.pc + 4 }
  let u := fixDerived p rows (setProg p h s)
  have hfixed : SameWork (setProg p h s) u := sameWork_fixDerived p rows _
  have hu : progOf u p = some h := (hfixed.progOf p).trans (progOf_setProg hprog)
  obtain ⟨n, hposted⟩ := sameWork_postOut hu
  let v := fireSet p (postOut p u)
  have hfired : SameWork (setProg p { h with outSeq := n } u) v := hposted.trans (sameWork_fireSet p _)
  have hv : progOf v p = some { h with outSeq := n } := (hfired.progOf p).trans (progOf_setProg hu)
  have hyields : yieldWork p s = endWork p (setProg p (yielded rows n g) v) := by
    unfold yieldWork
    simp only [hprog, updProg_eq _ hprog]
    exact congrArg (endWork p) (updProg_eq clearOut hv)
  have hunloading : v.trowel.unloading = s.trowel.unloading := hfired.unloading.trans hfixed.unloading
  have hrunning : v.trowel.running = s.trowel.running := hfired.running.trans hfixed.running
  refine ⟨rows, n, ?_⟩
  rw [hyields]
  refine endWork_stays (g := yielded rows n g) (progOf_setProg hv) ?_ ?_
  · exact (congrArg (·.contains p) hunloading).trans hstays
  · exact lt_of_lt_of_eq hcore (congrArg List.length hrunning).symm

/-- Settles O25: the rows, the message and the triggers of a yield leave the program's state, and it gives up its core. -/
theorem ezYieldEndsSlotWork : Obligations.EzYieldEndsSlotWork := by
  unfold Obligations.EzYieldEndsSlotWork
  intro p s g hissues hstays hcore
  have hprog : progOf (setProg p g s) p = some g := (issue_runs hissues fun _ u => u).2
  let h : Prog := { g with budget := g.budget - 1 }
  have hexec : exec (.yield p) s = .next (yieldWork p (setProg p h s)) := by
    show execYield p s = _
    unfold execYield
    rw [(issue_runs hissues _).1, updProg_eq _ hprog, setProg_twice]
  obtain ⟨⟨b, hloaded⟩, -⟩ := hissues.loaded
  obtain ⟨rows, n, hdone, hleft⟩ := yieldWork_stays (s := setProg p h s) (g := h) (progOf_setProg hloaded) hstays hcore
  exact ⟨_, _, hexec, hdone, rfl, rfl, rfl, rfl, rfl, rfl, rfl, rfl, rfl, rfl, rfl, rfl, hleft⟩

end Sys2Proof.Machine
end

section
/-! SUPPORT. A program that is dropped (R238, R241): what goes with it, in the order of dropProg. -/
namespace Sys2Proof.Machine

/-- The history of a program's derived rows is dropped. -/
def dropRows (g : Prog) (s : State) : State := g.bind_.derivs.foldl (fun s d => histDrop (0x8000 + d) s) s

/-- A message that waits for the program ends CONTEXT_RANGE (log 30). -/
def endMessage (g : Prog) (s : State) : State :=
  match g.inMsg with
  | some (_, _, tok) => if (jent s tok).any (fun j => j.outcome.isNone) then settle tok 0x0705 0 [] s else s
  | none => s

/-- The program's slot, its bindings and an unload that waits for it are free. -/
def clearProg (p : Nat) (s : State) : State :=
  { s with trowel := { s.trowel with
    progs := mdel s.trowel.progs p, derived := s.trowel.derived.filter (fun e => e.2 != p)
    unloading := s.trowel.unloading.filter (· != p) } }

theorem dropProg_eq {p : Nat} {s : State} {g : Prog} (hprog : progOf s p = some g) :
    dropProg p s = replan (clearProg p (endMessage g (dropRows g s))) := by
  unfold dropProg
  simp only [hprog]
  rfl

theorem dropRows_within (g : Prog) (s : State) : Within [.hawk] s (dropRows g s) :=
  (Goes.foldl _ Goes.rfl fun t d ht => histDrop_goes (0x8000 + d) t ht (List.Subset.refl _)).within

theorem endMessage_none {g : Prog} (hmsg : g.inMsg = none) (s : State) : endMessage g s = s := by
  unfold endMessage
  simp only [hmsg]

theorem endMessage_waits {g : Prog} {s : State} {msg : List Byte} {d k : Nat} {j : JEntry}
    (hmsg : g.inMsg = some (msg, d, k)) (hj : jent s k = some j) (hopen : j.outcome = none) :
    endMessage g s = settle k 0x0705 0 [] s := by
  unfold endMessage
  simp only [hmsg, hj, Option.any_some, hopen, Option.isNone_none, if_true]

theorem endMessage_cases (g : Prog) (s : State) : endMessage g s = s ∨
    ∃ k j, jent s k = some j ∧ endMessage g s = settle k 0x0705 0 [] s := by
  unfold endMessage
  split
  · next k _ =>
    split
    · next hopen =>
      obtain ⟨j, hj, -⟩ := Option.any_eq_true _ _ |>.1 hopen
      exact .inr ⟨k, j, hj, rfl⟩
    · exact .inl rfl
  · exact .inl rfl

theorem trowel_endMessage (g : Prog) (s : State) : (endMessage g s).trowel = s.trowel := by
  obtain hsame | ⟨k, -, -, hends⟩ := endMessage_cases g s
  · rw [hsame]
  · rw [hends]
    exact settle_within k 0x0705 0 [] s .trowel (by decide)

theorem replan_within (s : State) : Within [.trowel, .log] s (replan s) :=
  (replan_goes s Goes.rfl (List.Subset.refl _)).within

theorem clearProg_within (p : Nat) (s : State) : Within [.trowel] s (clearProg p s) := by
  intro q hq
  cases q
  case trowel => exact absurd (List.mem_singleton_self _) hq
  all_goals exact rfl

theorem progs_dropProg {p : Nat} {s : State} {g : Prog} (hprog : progOf s p = some g) :
    (dropProg p s).trowel.progs = mdel s.trowel.progs p := by
  have htrowel : (endMessage g (dropRows g s)).trowel = s.trowel :=
    (trowel_endMessage g _).trans (dropRows_within g s .trowel (by decide))
  rw [dropProg_eq hprog, (sameWork_replan _).progs, clearProg, htrowel]

theorem dropProg_within {p : Nat} {s : State} {g : Prog} (hprog : progOf s p = some g) (hmsg : g.inMsg = none) :
    Within [.hawk, .trowel, .log] s (dropProg p s) := by
  rw [dropProg_eq hprog, endMessage_none hmsg]
  exact ((dropRows_within g s).mono (by decide)).trans
    (((clearProg_within p _).mono (by decide)).trans ((replan_within _).mono (by decide)))

/-- After a message is ended the journal is that of the settlement. -/
theorem journal_dropProg {p : Nat} {s : State} {g : Prog} (hprog : progOf s p = some g) :
    (dropProg p s).journal = (endMessage g (dropRows g s)).journal := by
  rw [dropProg_eq hprog]
  exact replan_within _ .journal (by decide)

/-- The waiting message of a dropped program has ended CONTEXT_RANGE, and no other entry differs (log 30). -/
theorem jent_dropProg {p : Nat} {s : State} {g : Prog} {msg : List Byte} {d k : Nat} {j : JEntry}
    (hprog : progOf s p = some g) (hmsg : g.inMsg = some (msg, d, k)) (hj : jent s k = some j) (hopen : j.outcome = none) :
    (∃ j', jent (dropProg p s) k = some j' ∧ j'.outcome.map (·.status) = some 0x0705) ∧
      ∀ i, i ≠ k → jent (dropProg p s) i = jent s i := by
  have hjournal : (dropRows g s).journal = s.journal := dropRows_within g s .journal (by decide)
  have hrows (i : Nat) : jent (dropRows g s) i = jent s i := by unfold jent; rw [hjournal]
  have hj' : jent (dropRows g s) k = some j := (hrows k).trans hj
  have hdropped (i : Nat) : jent (dropProg p s) i = jent (settle k 0x0705 0 [] (dropRows g s)) i := by
    unfold jent
    rw [journal_dropProg hprog, endMessage_waits hmsg hj' hopen]
  obtain ⟨⟨j', hended, -, houtcome, -⟩, hothers⟩ := settle_jent 0x0705 0 [] _ hj'
  refine ⟨⟨j', (hdropped k).trans hended, by rw [houtcome]; rfl⟩, fun i hi => ?_⟩
  rw [hdropped, hothers i hi, hrows]

end Sys2Proof.Machine
end

section
/-! SUPPORT. A core that is retired stays retired while its programs move, and no command loses its journal entry on the way
(R249, R250). -/
namespace Sys2Proof.Machine

/-- Retired cores are the same, and every command in the journal stays there. -/
structure KeepsCores (s t : State) : Prop where
  retired : t.trowel.retired = s.trowel.retired
  entries : ∀ k, (jent s k).isSome = true → (jent t k).isSome = true

theorem KeepsCores.of_journal {s t : State} (hretired : t.trowel.retired = s.trowel.retired)
    (hjournal : t.journal = s.journal) : KeepsCores s t :=
  ⟨hretired, fun k hk => by unfold jent at hk ⊢; rwa [hjournal]⟩

theorem KeepsCores.rfl {s : State} : KeepsCores s s := .of_journal (Eq.refl _) (Eq.refl _)

theorem KeepsCores.trans {s t u : State} (h : KeepsCores s t) (g : KeepsCores t u) : KeepsCores s u :=
  ⟨g.retired.trans h.retired, fun k hk => g.entries k (h.entries k hk)⟩

/-- What touches neither the Trowel part nor the journal. -/
theorem KeepsCores.of_within {ps : List Part} {s t : State} (h : Within ps s t)
    (hparts : Part.trowel ∉ ps ∧ Part.journal ∉ ps) : KeepsCores s t :=
  .of_journal (congrArg Trowel.retired (h .trowel hparts.1)) (h .journal hparts.2)

theorem keepsCores_updProg (p : Nat) (f : Prog → Prog) (s : State) : KeepsCores s (updProg p f s) := .of_journal rfl rfl

theorem keepsCores_cntTrw (i n : Nat) (s : State) : KeepsCores s (cntTrw i n s) := .of_journal rfl rfl

theorem keepsCores_trwEvent (b n : Nat) (s : State) : KeepsCores s (trwEvent b n s) :=
  .of_journal (sameWork_trwEvent b n s).retired
    ((trwEvent_goes b n s Goes.rfl (List.Subset.refl _)).within .journal (by decide))

theorem keepsCores_replan (s : State) : KeepsCores s (replan s) :=
  .of_journal (sameWork_replan s).retired (replan_within s .journal (by decide))

theorem keepsCores_fixDerived (p : Nat) (rows : List Row) (s : State) : KeepsCores s (fixDerived p rows s) :=
  .of_within (fixDerived_within p rows s) (by decide)

theorem keepsCores_leaveCore (p c : Nat) (s : State) : KeepsCores s (leaveCore p c s) := by
  rw [leaveCore_eq]
  obtain hnone | ⟨q, -, l, hnext⟩ := startNext_cases c (coreLeft p c s)
  · rw [hnone]
    exact .of_journal rfl rfl
  · rw [hnext]
    exact .of_journal rfl rfl

theorem keepsCores_settle {tok : Nat} {s : State} {j : JEntry} (hj : jent s tok = some j) (status : Nat) (result : W32)
    (out : List Byte) : KeepsCores s (settle tok status result out s) where
  retired := congrArg Trowel.retired (settle_within tok status result out s .trowel (by decide))
  entries k hk := by
    obtain ⟨⟨j', hended, -⟩, hothers⟩ := settle_jent status result out s hj
    by_cases hkt : k = tok
    · rw [hkt, hended]
      rfl
    · rw [hothers k hkt]
      exact hk

theorem keepsCores_endMessage (g : Prog) (s : State) : KeepsCores s (endMessage g s) := by
  obtain hsame | ⟨k, j, hj, hends⟩ := endMessage_cases g s
  · rw [hsame]
    exact .rfl
  · rw [hends]
    exact keepsCores_settle hj ..

theorem keepsCores_dropProg {p : Nat} {s : State} {g : Prog} (hprog : progOf s p = some g) :
    KeepsCores s (dropProg p s) := by
  rw [dropProg_eq hprog]
  have hrows : KeepsCores s (dropRows g s) := .of_within (dropRows_within g s) (by decide)
  have hclear (t : State) : KeepsCores t (clearProg p t) := .of_journal rfl rfl
  exact hrows.trans ((keepsCores_endMessage g _).trans ((hclear _).trans (keepsCores_replan _)))

theorem keepsCores_endWork (p : Nat) (s : State) : KeepsCores s (endWork p s) := by
  unfold endWork
  split
  · exact .rfl
  · next g hprog =>
    have hidle := keepsCores_updProg p (fun g => { g with phase := .idle }) s
    have hleft := hidle.trans (keepsCores_leaveCore p g.core _)
    have hloaded : progOf (leaveCore p g.core (updProg p (fun g => { g with phase := .idle }) s)) p =
        some { g with phase := .idle } := by
      rw [progOf_leaveCore, updProg_eq _ hprog, progOf_setProg hprog]
    dsimp only
    split
    · exact hleft.trans (keepsCores_dropProg hloaded)
    · exact hleft

theorem keepsCores_suspendAt (p : Nat) (s : State) : KeepsCores s (suspendAt p s) := by
  unfold suspendAt
  split
  · exact (keepsCores_updProg p _ s).trans (keepsCores_trwEvent 1 p _)
  · exact .rfl

/-- A stop: the program is marked, the stop counted and reported, its rows fixed, and slot work ends (R235, R237, R238). -/
theorem keepsCores_stopWork (p reason code : Nat) (s : State) : KeepsCores s (stopWork p reason code s) := by
  unfold stopWork
  split
  · exact .rfl
  · have hcounted (t : State) : KeepsCores t (if reason = 4 then t else cntTrw reason 1 t) := by
      split
      · exact .rfl
      · exact keepsCores_cntTrw reason 1 t
    exact (keepsCores_updProg ..).trans ((hcounted _).trans ((keepsCores_trwEvent ..).trans
      ((keepsCores_fixDerived ..).trans ((keepsCores_suspendAt ..).trans (keepsCores_endWork ..)))))

theorem keepsCores_stopForMove (p : Nat) (lath : Bool) (s : State) : KeepsCores s (stopForMove p lath s) := by
  unfold stopForMove
  split
  · exact .rfl
  split
  · exact keepsCores_stopWork p 4 0 s
  split
  · exact .rfl
  · exact keepsCores_updProg ..

theorem keepsCores_movedData (g : Prog) (s : State) : KeepsCores s (movedData g s).2 :=
  .of_within (movedData_goes g s Goes.rfl (List.Subset.refl _)).within (by decide)

/-- A move: the program is stopped, its data comes along, and it gets its new core or is UNPLACED (R250, R251). -/
theorem keepsCores_moveProg (p : Nat) (dest : Option Nat) (lath : Bool) (s : State) :
    KeepsCores s (moveProg p dest lath s) := by
  unfold moveProg
  split
  · exact .rfl
  · next g _ =>
    have hmoved := (keepsCores_stopForMove p lath s).trans (keepsCores_movedData g _)
    cases dest with
    | none => exact hmoved.trans (keepsCores_updProg ..)
    | some c =>
      exact hmoved.trans ((keepsCores_updProg ..).trans ((keepsCores_cntTrw ..).trans (keepsCores_trwEvent ..)))

/-- After its retirement a core is among those retired, and no command has lost its entry. -/
theorem retireCore_retires (c : Nat) (s : State) :
    c ∈ (retireCore c s).trowel.retired ∧ ∀ k, (jent s k).isSome = true → (jent (retireCore c s) k).isSome = true := by
  unfold retireCore retireBut
  split
  · next hretired => exact ⟨List.contains_iff_mem.1 hretired, fun _ => id⟩
  · let u : State := { s with trowel := { s.trowel with retired := s.trowel.retired ++ [c] } }
    have hmoved (l : List (Nat × Option Nat)) :
        KeepsCores u (l.foldl (fun s e => moveProg e.1 e.2 (none == some e.1) s) (trwEvent 2 c u)) :=
      List.foldlRecOn (motive := fun t : State => KeepsCores u t) l _ (keepsCores_trwEvent 2 c u)
        fun t ht e _ => ht.trans (keepsCores_moveProg e.1 e.2 _ t)
    have hkeeps := (hmoved (planFor s.trowel.retired s.trowel.progs c)).trans (keepsCores_replan _)
    refine ⟨?_, hkeeps.entries⟩
    rw [hkeeps.retired]
    exact List.mem_append_right _ (List.mem_singleton_self c)

end Sys2Proof.Machine
end

section
/-! SUPPORT. The effects of the trowel. commands on programs (R221 to R226, R234, R238, R245). -/
namespace Sys2Proof.Machine

/-! trowel.load (R221, R223, R245). -/

/-- The state in which a load is applied: the verification of its signature is charged (R223). -/
def loadCharged (c : Cmd) (s : State) : State :=
  if trowelVerifies c s then imageWork 0x71 c.fn (signedPart c.input).length s else s

theorem loadCharged_within (c : Cmd) (s : State) : Within [.pke, .log, .budget] s (loadCharged c s) := by
  unfold loadCharged
  split
  · exact (imageWork_goes _ _ _ s Goes.rfl (List.Subset.refl _)).within
  · exact Goes.rfl.within

section
variable {s u : State} (htrowel : u.trowel = s.trowel)
include htrowel

theorem progOf_congr (p : Nat) : progOf u p = progOf s p := by
  unfold progOf
  rw [htrowel]

theorem loadedProg_congr (c : Cmd) : loadedProg c u = loadedProg c s := by
  unfold loadedProg
  rw [progOf_congr htrowel]

/-- What a load is checked against: keys, programs and contexts (R221). -/
theorem trowelLoadCheck_congr (hkeys : u.keys = s.keys) (hskim : u.skim = s.skim) (c : Cmd) :
    trowelLoadCheck c u = trowelLoadCheck c s := by
  have hkey : progKeyFail u = progKeyFail s := by
    funext k
    unfold progKeyFail slotFail
    rw [hkeys]
  have hsigned : imageSigned u = imageSigned s := by
    funext k l n
    unfold imageSigned
    rw [slotKey_congr hkeys]
  have hraise : raiseBad u = raiseBad s := by
    funext fn e
    unfold raiseBad
    simp only [ctxOf_congr hskim]
  have hprogs : progOf u = progOf s := funext (progOf_congr htrowel)
  unfold trowelLoadCheck topPver
  rw [hkey, hsigned, hraise, hkeys, htrowel, hprogs, loadedProg_congr htrowel]

end

/-- The state with the image installed. -/
def installed (c : Cmd) (s : State) : State :=
  replan { s with trowel := { s.trowel with
    progs := mset s.trowel.progs (tlProg c) (loadedProg c s)
    pvers := mset s.trowel.pvers (tlProg c) (max (topPver s (tlProg c)) (parseImage (tlProg c) c.input).pver) } }

theorem trowelLoadEff_new {c : Cmd} {s : State} (hnew : progOf s (tlProg c) = none) :
    trowelLoadEff c s = done (measure 10 (parseImage (tlProg c) c.input).meas (installed c s)) := by
  unfold trowelLoadEff
  simp only [hnew, Option.isNone_none, if_true]
  rfl

theorem trowelLoadEff_swap {c : Cmd} {s : State} {g : Prog} (hloaded : progOf s (tlProg c) = some g) :
    trowelLoadEff c s = done (installed c s) := by
  unfold trowelLoadEff
  simp only [hloaded, Option.isNone_some, Bool.false_eq_true, if_false]
  rfl

theorem progs_installed (c : Cmd) (s : State) :
    (installed c s).trowel.progs = mset s.trowel.progs (tlProg c) (loadedProg c s) := (sameWork_replan _).progs

theorem fw_installed (c : Cmd) (s : State) : (installed c s).fw = s.fw := replan_within _ .fw (by decide)

theorem measure_within (i : Nat) (m : List Byte) (s : State) : Within [.log, .fw] s (measure i m s) :=
  (measure_goes i m s Goes.rfl (List.Subset.refl _)).within

/-- A measurement register is extended by a digest (R611). -/
theorem meas_measure {i : Nat} {s : State} (hi : i < s.fw.meas.length) (m : List Byte) :
    lget (measure i m s).fw.meas i [] = fit 64 (Config.hash 5 (fit 64 (lget s.fw.meas i []) ++ fit 64 m)) := by
  have hfw : (measure i m s).fw = { s.fw with
      meas := lupd s.fw.meas i (fun old => fit 64 (Config.hash 5 (fit 64 old ++ fit 64 m))) } :=
    logEv_within _ _ _ _ .fw (by decide)
  rw [hfw, lget_lupd_self _ _ _ _ hi]

theorem progs_trowelLoadEff (c : Cmd) (s : State) :
    (trowelLoadEff c s).st.trowel.progs = mset s.trowel.progs (tlProg c) (loadedProg c s) := by
  cases hprog : progOf s (tlProg c) with
  | none =>
    rw [trowelLoadEff_new hprog, ← progs_installed]
    exact congrArg Trowel.progs (measure_within _ _ _ .trowel (by decide))
  | some g =>
    rw [trowelLoadEff_swap hprog]
    exact progs_installed c s

/-- A load runs as any configuration does, on the state in which its verification is charged. -/
theorem exec_trowelLoad_eq {c : Cmd} {s : State} (happlies : mayApply s c = true) (hcheck : trowelLoadCheck c s = none) :
    exec (.trowelLoad c) s =
      .next (runConfig trowelLoadCheck (fun c s => trowelLoadEff c (loadCharged c s)) c s) := by
  have hcharged := loadCharged_within c s
  have hcheck' : trowelLoadCheck c (loadCharged c s) = none := by
    rw [trowelLoadCheck_congr (hcharged .trowel (by decide)) (hcharged .keys (by decide)) (hcharged .skim (by decide)),
      hcheck]
  have hok (u : State) : (trowelLoadEff c u).status = 0 := rfl
  have hsys : (loadCharged c s).sys = s.sys := hcharged .sys (by decide)
  show Host.Outcome.next (runConfigBy (loadVerified trowelLoadCheck trowelLoadEff) c s) = _
  unfold runConfig
  rw [runConfigBy_applies happlies, runConfigBy_applies happlies,
    applyConfig_passes (eff := fun c s => trowelLoadEff c (loadCharged c s)) hcheck (hok _)]
  show Host.Outcome.next (applyConfig trowelLoadCheck trowelLoadEff c (loadCharged c s)) = _
  rw [applyConfig_passes hcheck' (hok _), hsys]

/-! trowel.bind (R224, R226). -/

theorem trowelBindCheck_loaded {c : Cmd} {s : State} (hcheck : trowelBindCheck c s = none) :
    ∃ g, progOf s (cw c 8).toNat = some g := by
  cases hprog : progOf s (cw c 8).toNat with
  | none =>
    unfold trowelBindCheck at hcheck
    simp only [hprog, reduceCtorEq] at hcheck
  | some g => exact ⟨g, rfl⟩

/-- The rows that a program with the bindings d has produced so far (R226). -/
def keptRows (g : Prog) (d : Binding) : List (Option Row) :=
  d.derivs.map (fun n =>
    match g.bind_.derivs.findIdx? (· == n) with
    | some j => lget g.produced j none
    | none => none)

/-- Rows no longer bound lose their history, and the bindings replace the old ones (R225, R226). -/
theorem trowelBindEff_progs {c : Cmd} {s : State} {g : Prog} (hprog : progOf s (cw c 8).toNat = some g) :
    (trowelBindEff c s).st.trowel.progs = mupd s.trowel.progs (cw c 8).toNat
      (fun x => { x with bind_ := parseBind c, produced := keptRows g (parseBind c) }) := by
  have hdropped (l : List Nat) : (l.foldl (fun s n => histDrop (0x8000 + n) s) s).trowel = s.trowel :=
    (Goes.foldl (ps := [.hawk]) l Goes.rfl fun t n ht => histDrop_goes (0x8000 + n) t ht (List.Subset.refl _)).within
      .trowel (by decide)
  unfold trowelBindEff
  simp only [hprog, Option.getD_some, hdropped, done, updProg_trowel]
  rfl

/-! trowel.unload (R238). -/

/-- The state in which an unload waits for the end of slot work. -/
def unloadWaits (p : Nat) (s : State) : State :=
  { s with trowel := { s.trowel with
    progs := mupd s.trowel.progs p (fun g => { g with st := 1 }), unloading := s.trowel.unloading ++ [p] } }

theorem trowelUnloadEff_idle {c : Cmd} {s : State} {g : Prog} (hprog : progOf s (cw c 8).toNat = some g)
    (hidle : g.phase = .idle) : trowelUnloadEff c s = done (dropProg (cw c 8).toNat s) := by
  unfold trowelUnloadEff
  simp only [hprog, hidle, beq_self_eq_true, if_true]

theorem trowelUnloadEff_busy {c : Cmd} {s : State} {g : Prog} (hprog : progOf s (cw c 8).toNat = some g)
    (hbusy : g.phase ≠ .idle) : trowelUnloadEff c s = done (unloadWaits (cw c 8).toNat s) := by
  unfold trowelUnloadEff
  simp only [hprog, beq_iff_eq, hbusy, if_false]
  rfl

theorem progCheck_loaded {c : Cmd} {s : State} {g : Prog} (hprog : progOf s (cw c 8).toNat = some g) :
    progCheck c s = none := by
  unfold progCheck
  simp only [hprog, Option.isNone_some, Bool.false_eq_true, if_false]

/-- A change of the Trowel part alone. -/
theorem trowel_within (s : State) (x : Trowel) : Within [.outbox, .trowel] s { s with trowel := x } := by
  intro q hq
  cases q
  case trowel => exact absurd (by decide) hq
  all_goals exact rfl

end Sys2Proof.Machine
end

section
/-! SUPPORT. The trowel. commands and the self-test of a core (O41), one theorem per row. -/
namespace Sys2Proof.Machine

theorem exec_trowelLoad {c : Cmd} {s : State} (happlies : mayApply s c = true) (hcheck : trowelLoadCheck c s = none) :
    ∃ t, exec (.trowelLoad c) s = .next t ∧ Applied [.trowel, .pke, .log, .budget, .fw] s t c ∧
      t.trowel.progs = mset s.trowel.progs (tlProg c) (loadedProg c s) ∧
      t.fw = (trowelLoadEff c (loadCharged c s)).st.fw := by
  have hcharged := loadCharged_within c s
  have hwithin : Within [.outbox, .trowel, .pke, .log, .budget, .fw] s (trowelLoadEff c (loadCharged c s)).st :=
    (hcharged.mono (by decide)).trans (trowelLoadEff_goes c _ Goes.rfl (by decide)).within
  obtain ⟨happlied, hkept⟩ := runConfig_applied (eff := fun c s => trowelLoadEff c (loadCharged c s)) happlies hcheck rfl
    hwithin (by decide)
  have htrowel : (loadCharged c s).trowel = s.trowel := hcharged .trowel (by decide)
  have hprogs : (trowelLoadEff c (loadCharged c s)).st.trowel.progs = mset s.trowel.progs (tlProg c) (loadedProg c s) := by
    rw [progs_trowelLoadEff, loadedProg_congr htrowel, htrowel]
  exact ⟨_, exec_trowelLoad_eq happlies hcheck, happlied,
    (congrArg Trowel.progs (hkept .trowel (by decide))).trans hprogs, hkept .fw (by decide)⟩

/-- A new number: the program is as newProg makes it, and MEAS10 is extended at once (R611). -/
theorem trowelLoad_new {c : Cmd} {s : State} (hnew : progOf s (tlProg c) = none) :
    loadedProg c s = newProg (tlCore c) (tlSlot c) (tlFn c) (parseImage (tlProg c) c.input) ∧
      (10 < s.fw.meas.length → lget (trowelLoadEff c (loadCharged c s)).st.fw.meas 10 [] =
        fit 64 (Config.hash 5 (fit 64 (lget s.fw.meas 10 []) ++
          fit 64 (Config.hash 5 (signedPart c.input ++ leOctets 2 (tlProg c)))))) := by
  have hcharged := loadCharged_within c s
  have hfw : (installed c (loadCharged c s)).fw = s.fw := (fw_installed c _).trans (hcharged .fw (by decide))
  constructor
  · unfold loadedProg
    simp only [hnew]
  · intro hlength
    rw [trowelLoadEff_new ((progOf_congr (hcharged .trowel (by decide)) _).trans hnew), ← hfw]
    exact meas_measure (by rw [hfw]; exact hlength) _

/-- A loaded number: the image waits beside the one in use, and nothing is measured yet (R245, R611). -/
theorem trowelLoad_swap {c : Cmd} {s : State} {g : Prog} (hloaded : progOf s (tlProg c) = some g) :
    loadedProg c s = { g with swap := some (parseImage (tlProg c) c.input, cw64 c 12, tlKeep c), fn := tlFn c } ∧
      (trowelLoadEff c (loadCharged c s)).st.fw = s.fw := by
  have hcharged := loadCharged_within c s
  constructor
  · unfold loadedProg
    simp only [hloaded]
  · rw [trowelLoadEff_swap ((progOf_congr (hcharged .trowel (by decide)) _).trans hloaded)]
    exact (fw_installed c _).trans (hcharged .fw (by decide))

theorem exec_trowelBind {c : Cmd} {s : State} (happlies : mayApply s c = true) (hcheck : trowelBindCheck c s = none) :
    ∃ t g, exec (.trowelBind c) s = .next t ∧ Applied [.hawk, .trowel] s t c ∧
      progOf t (cw c 8).toNat = some g ∧ g.bind_ = parseBind c ∧ ∀ q, q ≠ (cw c 8).toNat → progOf t q = progOf s q := by
  obtain ⟨g, hprog⟩ := trowelBindCheck_loaded hcheck
  have hwithin := (trowelBindEff_goes (ps := [.outbox, .hawk, .trowel]) c s Goes.rfl (by decide)).within
  obtain ⟨happlied, hkept⟩ := runConfig_applied (eff := trowelBindEff) happlies hcheck rfl hwithin (by decide)
  have hprogs (q : Nat) : progOf (runConfig trowelBindCheck trowelBindEff c s) q = mget (mupd s.trowel.progs
      (cw c 8).toNat (fun x => { x with bind_ := parseBind c, produced := keptRows g (parseBind c) })) q := by
    rw [progOf_congr (hkept .trowel (by decide)), ← trowelBindEff_progs hprog]
    rfl
  refine ⟨_, _, rfl, happlied, (hprogs _).trans ((mget_mupd_self ..).trans (congrArg _ hprog)), rfl, fun q hq => ?_⟩
  exact (hprogs q).trans (mget_mupd_other _ _ _ _ hq)

/-- A command that changes its program alone. -/
theorem runConfig_updProg {check eff} {c : Cmd} {s : State} {p : Nat} {f : Prog → Prog} {g : Prog}
    (happlies : mayApply s c = true) (hcheck : check c s = none) (heff : eff c s = done (updProg p f s))
    (hprog : progOf s p = some g) :
    Applied [.trowel] s (runConfig check eff c s) c ∧ progOf (runConfig check eff c s) p = some (f g) := by
  obtain ⟨happlied, hkept⟩ := runConfig_applied happlies hcheck heff (trowel_within s _) (by decide)
  refine ⟨happlied, ?_⟩
  rw [progOf_congr (hkept .trowel (by decide)), updProg_eq f hprog, progOf_setProg hprog]

/-- A program ACTIVE, its count of stops cleared: a released one starts at RESTART (R234, R238). -/
def startedProg (g : Prog) : Prog := if g.st = 2 then g else { g with st := 2, stops := 0, restartNext := !g.firstNext }

/-- A program LOADED again, unless it is UNPLACED (R238). -/
def stoppedProg (g : Prog) : Prog := if g.st = 4 then g else { g with st := 1 }

section
variable {c : Cmd} {s : State} {g : Prog} (hprog : progOf s (cw c 8).toNat = some g)
include hprog

theorem exec_trowelStart (happlies : mayApply s c = true) (hplaced : g.st ≠ 4) :
    ∃ t, exec (.trowelStart c) s = .next t ∧ Applied [.trowel] s t c ∧
      progOf t (cw c 8).toNat = some (startedProg g) := by
  have hcheck : trowelStartCheck c s = none := by
    unfold trowelStartCheck
    simp only [hprog, hplaced, if_false]
  exact ⟨_, rfl, runConfig_updProg (eff := trowelStartEff) (f := startedProg) happlies hcheck rfl hprog⟩

theorem exec_trowelStop (happlies : mayApply s c = true) :
    ∃ t, exec (.trowelStop c) s = .next t ∧ Applied [.trowel] s t c ∧
      progOf t (cw c 8).toNat = some (stoppedProg g) :=
  ⟨_, rfl, runConfig_updProg (eff := trowelStopEff) (f := stoppedProg) happlies (progCheck_loaded hprog) rfl hprog⟩

theorem exec_trowelUnload_idle (happlies : mayApply s c = true) (hidle : g.phase = .idle) (hmsg : g.inMsg = none) :
    ∃ t, exec (.trowelUnload c) s = .next t ∧ Applied [.hawk, .trowel, .log] s t c ∧
      t.trowel.progs = mdel s.trowel.progs (cw c 8).toNat := by
  obtain ⟨happlied, hkept⟩ := runConfig_applied happlies (progCheck_loaded hprog) (trowelUnloadEff_idle hprog hidle)
    ((dropProg_within hprog hmsg).mono (by decide)) (ps := [.hawk, .trowel, .log]) (by decide)
  exact ⟨_, rfl, happlied, (congrArg Trowel.progs (hkept .trowel (by decide))).trans (progs_dropProg hprog)⟩

/-- A message that waits for the program ends with it, and the unload after it (R241; log 30). -/
theorem exec_trowelUnload_message {msg : List Byte} {d k : Nat} {j : JEntry} (happlies : mayApply s c = true)
    (hidle : g.phase = .idle) (hmsg : g.inMsg = some (msg, d, k)) (hj : jent s k = some j) (hopen : j.outcome = none)
    (hother : k ≠ c.tok) :
    ∃ t j', exec (.trowelUnload c) s = .next t ∧ Answered t c.tok 0 0 [] ∧
      t.trowel.progs = mdel s.trowel.progs (cw c 8).toNat ∧
      jent t k = some j' ∧ j'.outcome.map (·.status) = some 0x0705 := by
  let u := dropProg (cw c 8).toNat s
  let v := bumpEpoch (mirrorItem (.config c (s.sys.epoch + 1)) u)
  obtain ⟨⟨j', hended, hstatus⟩, hothers⟩ := jent_dropProg hprog hmsg hj hopen
  obtain ⟨jc, hjc, -⟩ := runnable_jent (mayApply_spec happlies).1
  have hexec : exec (.trowelUnload c) s = .next (settle c.tok 0 0 [] v) := by
    show Host.Outcome.next (runConfigBy (applyConfig progCheck trowelUnloadEff) c s) = _
    rw [runConfigBy_applies happlies, applyConfig_passes (progCheck_loaded hprog) (by rw [trowelUnloadEff_idle hprog hidle]; rfl),
      trowelUnloadEff_idle hprog hidle]
    rfl
  have hv (i : Nat) : jent v i = jent u i := by
    unfold jent
    exact congrArg (mget · i) (mirrorItem_journal _ u)
  have hends := settle_ends (s := v) 0 0 [] rfl ((hv c.tok).trans ((hothers c.tok hother.symm).trans hjc))
  have hsettled : Within [.sys, .journal, .span, .outbox] u (settle c.tok 0 0 [] v) :=
    (settle_goes c.tok 0 0 [] _ (bumpEpoch_goes _ (mirrorItem_goes _ u Goes.rfl (by decide)) (by decide)) (by decide)).within
  refine ⟨_, j', hexec, hends.1, ?_, ?_, hstatus⟩
  · rw [hsettled .trowel (by decide)]
    exact progs_dropProg hprog
  · rw [hends.2 k hother, hv, hended]

theorem exec_trowelUnload_busy (happlies : mayApply s c = true) (hbusy : g.phase ≠ .idle) :
    ∃ t, exec (.trowelUnload c) s = .next t ∧ Applied [.trowel] s t c ∧
      progOf t (cw c 8).toNat = some { g with st := 1 } ∧ (cw c 8).toNat ∈ t.trowel.unloading := by
  obtain ⟨happlied, hkept⟩ := runConfig_applied happlies (progCheck_loaded hprog) (trowelUnloadEff_busy hprog hbusy)
    (trowel_within s _) (by decide)
  have htrowel := hkept .trowel (by decide)
  refine ⟨_, rfl, happlied, ?_, ?_⟩
  · rw [progOf_congr htrowel]
    exact (mget_mupd_self s.trowel.progs _ _).trans (congrArg _ hprog)
  · rw [htrowel]
    exact List.mem_append_right _ (List.mem_singleton_self _)

theorem exec_trowelMbsend_stamped {msg : List Byte} {d : Nat} (hruns : runnable s c = true)
    (hmsg : g.inMsg = some (msg, d, c.tok)) :
    ∃ t j, exec (.trowelMbsend c) s = .next t ∧ Within [.journal] s t ∧ jent t c.tok = some j ∧ j.started = true ∧
      j.outcome = none := by
  obtain ⟨j, hj, -, hopen, -⟩ := runnable_jent hruns
  have hexec : exec (.trowelMbsend c) s = .next (startCmd c.tok s) := by
    show execTrowelMbsend c s = _
    simp only [execTrowelMbsend, hruns, hprog, hmsg, Option.any_some, beq_self_eq_true, if_true]
  refine ⟨_, { j with started := true }, hexec, (updJ_goes _ _ s Goes.rfl (List.Subset.refl _)).within, ?_, rfl, hopen⟩
  exact (jent_updJ_self ..).trans (congrArg _ hj)

theorem exec_trowelMbsend_busy {msg : List Byte} {d k : Nat} (hruns : runnable s c = true)
    (hmsg : g.inMsg = some (msg, d, k)) (hother : k ≠ c.tok) :
    ∃ t, exec (.trowelMbsend c) s = .next t ∧ Ends s t c.tok 0x0508 0 [] := by
  obtain ⟨j, hj, -⟩ := runnable_jent hruns
  have hexec : exec (.trowelMbsend c) s = .next (settle c.tok 0x0508 0 [] s) := by
    show execTrowelMbsend c s = _
    simp only [execTrowelMbsend, hruns, hprog, hmsg, Option.any_some, beq_iff_eq, hother, if_true, if_false]
  exact ⟨_, hexec, settle_ends _ _ _ rfl hj⟩

end

theorem exec_trowelRetire {c : Cmd} {s : State} (hruns : runnable s c = true) :
    ∃ t, exec (.trowelRetire c) s = .next t ∧ Answered t c.tok 0 0 [] ∧ (cw c 8).toNat ∈ t.trowel.retired := by
  let u := retireCore (cw c 8).toNat s
  obtain ⟨hretired, hentries⟩ := retireCore_retires (cw c 8).toNat s
  obtain ⟨j, hj, -⟩ := runnable_jent hruns
  obtain ⟨j', hj'⟩ := Option.isSome_iff_exists.1 (hentries c.tok (by rw [hj]; rfl))
  have hexec : exec (.trowelRetire c) s = .next (settle c.tok 0 0 [] u) :=
    congrArg Host.Outcome.next (runPlain_passes hruns rfl)
  refine ⟨_, hexec, (settle_ends (s := u) 0 0 [] rfl hj').1, ?_⟩
  rw [settle_within c.tok 0 0 [] u .trowel (by decide)]
  exact hretired

theorem exec_coreSelftest_fails {core : Nat} {s : State} (hcore : core < 64) (hfree : runningOn s core = none)
    (hservice : inService s = true) : exec (.coreSelftest core false) s = .next (retireCore core s) := by
  show execCoreSelftest core false s = _
  simp only [execCoreSelftest, hcore, decide_true, hfree, Option.isNone_none, Bool.not_false, Bool.and_self, hservice, if_true]

theorem exec_coreSelftest_passes (core : Nat) (s : State) : exec (.coreSelftest core true) s = .next s := by
  show execCoreSelftest core true s = _
  simp only [execCoreSelftest, Bool.not_true, Bool.and_false, Bool.false_and, Bool.false_eq_true, if_false]

/-- Settles O41: what each command and the self-test make of programs, cores and journal outlives their outcome. -/
theorem trowelCommands : Obligations.TrowelCommands := by
  unfold Obligations.TrowelCommands
  intro c s
  refine ⟨fun happlies hcheck => ?_, exec_trowelBind, fun g hprog => ?_, exec_trowelRetire, ?_⟩
  · obtain ⟨t, hnext, happlied, hprogs, hfw⟩ := exec_trowelLoad happlies hcheck
    have hself : progOf t (tlProg c) = some (loadedProg c s) := by
      unfold progOf
      rw [hprogs, mget_mset_self]
    refine ⟨t, hnext, happlied, fun q hq => ?_, fun hnew => ?_, fun g hloaded => ?_⟩
    · unfold progOf
      rw [hprogs, mget_mset_other _ _ _ _ hq]
    · obtain ⟨hprog, hmeas⟩ := trowelLoad_new hnew
      exact ⟨hself.trans (congrArg some hprog), hfw ▸ hmeas⟩
    · obtain ⟨hprog, hsame⟩ := trowelLoad_swap hloaded
      exact ⟨hfw.trans hsame, hself.trans (congrArg some hprog)⟩
  · exact ⟨exec_trowelStart hprog, exec_trowelStop hprog, exec_trowelUnload_idle hprog,
      fun _ _ _ _ => exec_trowelUnload_message hprog, exec_trowelUnload_busy hprog,
      fun _ _ => exec_trowelMbsend_stamped hprog, fun _ _ _ => exec_trowelMbsend_busy hprog⟩
  · intro core hcore hfree hservice
    exact ⟨⟨_, exec_coreSelftest_fails hcore hfree hservice, (retireCore_retires core s).1⟩, exec_coreSelftest_passes core s⟩

end Sys2Proof.Machine
end

section
/-! SUPPORT. What every step keeps: the laws of the 279 rows (Laws/Goes*.lean) put together, and the statement O29. -/
namespace Sys2Proof.Machine

/-- All the parts of the machine. -/
def everyPart : List Part :=
  [.sys, .fns, .journal, .deferred, .time, .ports, .bpcfg, .skim, .hawk, .trowel, .publ, .eng, .pke, .rng, .keys, .sealer,
   .tamper, .pair, .span, .log, .budget, .fw, .injected, .freeCtr, .outbox]

theorem subset_everyPart (ps : List Part) : ps ⊆ everyPart := fun p _ => by cases p <;> decide

/-- Every row goes: Legal and Canon are kept, counters go onward, and the queue is left alone. -/
theorem exec_goes : (i : Instr) → (s : State) → GoesTo everyPart s (exec i s)
  | .sysInfo c, s => execSysInfo_goes c s .rfl (subset_everyPart _)
  | .sysQcreate c, s => execSysQcreate_goes c s .rfl (subset_everyPart _)
  | .sysQdelete c, s => execSysQdelete_goes c s .rfl (subset_everyPart _)
  | .sysLedger c, s => execSysLedger_goes c s .rfl (subset_everyPart _)
  | .sysTimecfg c, s => execSysTimecfg_goes c s .rfl (subset_everyPart _)
  | .sysTimestep c, s => execSysTimestep_goes c s .rfl (subset_everyPart _)
  | .sysPortcfg c, s => execSysPortcfg_goes c s .rfl (subset_everyPart _)
  | .sysHostcfg c, s => execSysHostcfg_goes c s .rfl (subset_everyPart _)
  | .sysFnmap c, s => execSysFnmap_goes c s .rfl (subset_everyPart _)
  | .sysDadoinv c, s => execSysDadoinv_goes c s .rfl (subset_everyPart _)
  | .sysFnreset c, s => execSysFnreset_goes c s .rfl (subset_everyPart _)
  | .cmdAbort c, s => execCmdAbort_goes c s .rfl (subset_everyPart _)
  | .streamMrate c, s => execStreamMrate_goes c s .rfl (subset_everyPart _)
  | .streamCycref c, s => execStreamCycref_goes c s .rfl (subset_everyPart _)
  | .streamSub c, s => execStreamSub_goes c s .rfl (subset_everyPart _)
  | .streamUnsub c, s => execStreamUnsub_goes c s .rfl (subset_everyPart _)
  | .streamKeys c, s => execStreamKeys_goes c s .rfl (subset_everyPart _)
  | .streamStats c, s => execStreamStats_goes c s .rfl (subset_everyPart _)
  | .sheetHistory c, s => execSheetHistory_goes c s .rfl (subset_everyPart _)
  | .sheetGroup c, s => execSheetGroup_goes c s .rfl (subset_everyPart _)
  | .sheetKey c, s => execSheetKey_goes c s .rfl (subset_everyPart _)
  | .sheetRing c, s => execSheetRing_goes c s .rfl (subset_everyPart _)
  | .sheetView c, s => execSheetView_goes c s .rfl (subset_everyPart _)
  | .trowelLoad c, s => execTrowelLoad_goes c s .rfl (subset_everyPart _)
  | .trowelBind c, s => execTrowelBind_goes c s .rfl (subset_everyPart _)
  | .trowelStart c, s => execTrowelStart_goes c s .rfl (subset_everyPart _)
  | .trowelStop c, s => execTrowelStop_goes c s .rfl (subset_everyPart _)
  | .trowelUnload c, s => execTrowelUnload_goes c s .rfl (subset_everyPart _)
  | .trowelMbsend c, s => execTrowelMbsend_goes c s .rfl (subset_everyPart _)
  | .trowelRetire c, s => execTrowelRetire_goes c s .rfl (subset_everyPart _)
  | .pubOpen c, s => execPubOpen_goes c s .rfl (subset_everyPart _)
  | .pubClose c, s => execPubClose_goes c s .rfl (subset_everyPart _)
  | .pubSend c, s => execPubSend_goes c s .rfl (subset_everyPart _)
  | .pubCurve c, s => execPubCurve_goes c s .rfl (subset_everyPart _)
  | .pubStats c, s => execPubStats_goes c s .rfl (subset_everyPart _)
  | .cphOpen c, s => execCphOpen_goes c s .rfl (subset_everyPart _)
  | .cphClose c, s => execCphClose_goes c s .rfl (subset_everyPart _)
  | .cphRun c, s => execCphRun_goes c s .rfl (subset_everyPart _)
  | .cphSave c, s => execCphSave_goes c s .rfl (subset_everyPart _)
  | .cphRestore c, s => execCphRestore_goes c s .rfl (subset_everyPart _)
  | .hshDigest c, s => execHshDigest_goes c s .rfl (subset_everyPart _)
  | .hshMac c, s => execHshMac_goes c s .rfl (subset_everyPart _)
  | .hshOpen c, s => execHshOpen_goes c s .rfl (subset_everyPart _)
  | .hshUpdate c, s => execHshUpdate_goes c s .rfl (subset_everyPart _)
  | .hshFinal c, s => execHshFinal_goes c s .rfl (subset_everyPart _)
  | .pkeSign c, s => execPkeSign_goes c s .rfl (subset_everyPart _)
  | .pkeVerify c, s => execPkeVerify_goes c s .rfl (subset_everyPart _)
  | .pkeAgree c, s => execPkeAgree_goes c s .rfl (subset_everyPart _)
  | .pkeEncap c, s => execPkeEncap_goes c s .rfl (subset_everyPart _)
  | .pkeDecap c, s => execPkeDecap_goes c s .rfl (subset_everyPart _)
  | .pkeKeygen c, s => execPkeKeygen_goes c s .rfl (subset_everyPart _)
  | .rngGet c, s => execRngGet_goes c s .rfl (subset_everyPart _)
  | .rngReseed c, s => execRngReseed_goes c s .rfl (subset_everyPart _)
  | .rngPattern c, s => execRngPattern_goes c s .rfl (subset_everyPart _)
  | .keyApply c, s => execKeyApply_goes c s .rfl (subset_everyPart _)
  | .keyInfo c, s => execKeyInfo_goes c s .rfl (subset_everyPart _)
  | .keyTarget c, s => execKeyTarget_goes c s .rfl (subset_everyPart _)
  | .recTrig c, s => execRecTrig_goes c s .rfl (subset_everyPart _)
  | .recFire c, s => execRecFire_goes c s .rfl (subset_everyPart _)
  | .recLock c, s => execRecLock_goes c s .rfl (subset_everyPart _)
  | .recList c, s => execRecList_goes c s .rfl (subset_everyPart _)
  | .volAttach c, s => execVolAttach_goes c s .rfl (subset_everyPart _)
  | .volIo c, s => execVolIo_goes c s .rfl (subset_everyPart _)
  | .volRead c, s => execVolRead_goes c s .rfl (subset_everyPart _)
  | .volRekey c, s => execVolRekey_goes c s .rfl (subset_everyPart _)
  | .pairCfg c, s => execPairCfg_goes c s .rfl (subset_everyPart _)
  | .pairStatus c, s => execPairStatus_goes c s .rfl (subset_everyPart _)
  | .pairHandover c, s => execPairHandover_goes c s .rfl (subset_everyPart _)
  | .pairRenumber c, s => execPairRenumber_goes c s .rfl (subset_everyPart _)
  | .logRead c, s => execLogRead_goes c s .rfl (subset_everyPart _)
  | .logPolicy c, s => execLogPolicy_goes c s .rfl (subset_everyPart _)
  | .logClear c, s => execLogClear_goes c s .rfl (subset_everyPart _)
  | .svcEnter c, s => execSvcEnter_goes c s .rfl (subset_everyPart _)
  | .svcExit c, s => execSvcExit_goes c s .rfl (subset_everyPart _)
  | .svcChallenge c, s => execSvcChallenge_goes c s .rfl (subset_everyPart _)
  | .svcOfficer c, s => execSvcOfficer_goes c s .rfl (subset_everyPart _)
  | .svcTamper c, s => execSvcTamper_goes c s .rfl (subset_everyPart _)
  | .svcFlagclear c, s => execSvcFlagclear_goes c s .rfl (subset_everyPart _)
  | .svcEnrol c, s => execSvcEnrol_goes c s .rfl (subset_everyPart _)
  | .svcRelease c, s => execSvcRelease_goes c s .rfl (subset_everyPart _)
  | .svcAttest c, s => execSvcAttest_goes c s .rfl (subset_everyPart _)
  | .svcFwloadImage c, s => execSvcFwloadImage_goes c s .rfl (subset_everyPart _)
  | .svcFwloadBudget c, s => execSvcFwloadBudget_goes c s .rfl (subset_everyPart _)
  | .svcFwloadTrims c, s => execSvcFwloadTrims_goes c s .rfl (subset_everyPart _)
  | .svcFwloadServo c, s => execSvcFwloadServo_goes c s .rfl (subset_everyPart _)
  | .spanCfg c, s => execSpanCfg_goes c s .rfl (subset_everyPart _)
  | .spanStatus c, s => execSpanStatus_goes c s .rfl (subset_everyPart _)
  | .spanRoute c, s => execSpanRoute_goes c s .rfl (subset_everyPart _)
  | .spanOutcome c, s => execSpanOutcome_goes c s .rfl (subset_everyPart _)
  | .diagKat c, s => execDiagKat_goes c s .rfl (subset_everyPart _)
  | .diagSelftest c, s => execDiagSelftest_goes c s .rfl (subset_everyPart _)
  | .diagInject c, s => execDiagInject_goes c s .rfl (subset_everyPart _)
  | .commandFetch fn qp mem, s => execCommandFetch_goes fn qp mem s .rfl (subset_everyPart _)
  | .completionWrite fn qp, s => execCompletionWrite_goes fn qp s .rfl (subset_everyPart _)
  | .configTakeEffect, s => execConfigTakeEffect_goes s .rfl (subset_everyPart _)
  | .safePointStop tok, s => execSafePointStop_goes tok s .rfl (subset_everyPart _)
  | .budgetWaitExceeded tok, s => execBudgetWaitExceeded_goes tok s .rfl (subset_everyPart _)
  | .engineWorkDone tok, s => execEngineWorkDone_goes tok s .rfl (subset_everyPart _)
  | .pkeResultReady unit, s => execPkeResultReady_goes unit s .rfl (subset_everyPart _)
  | .pkeWipeDone unit, s => execPkeWipeDone_goes unit s .rfl (subset_everyPart _)
  | .add p fl d a b, s => execAdd_goes p fl d a b s .rfl (subset_everyPart _)
  | .sub p fl d a b, s => execSub_goes p fl d a b s .rfl (subset_everyPart _)
  | .adds p fl d a b, s => execAdds_goes p fl d a b s .rfl (subset_everyPart _)
  | .subs p fl d a b, s => execSubs_goes p fl d a b s .rfl (subset_everyPart _)
  | .and p fl d a b, s => execAnd_goes p fl d a b s .rfl (subset_everyPart _)
  | .or p fl d a b, s => execOr_goes p fl d a b s .rfl (subset_everyPart _)
  | .xor p fl d a b, s => execXor_goes p fl d a b s .rfl (subset_everyPart _)
  | .andn p fl d a b, s => execAndn_goes p fl d a b s .rfl (subset_everyPart _)
  | .shl p fl d a b, s => execShl_goes p fl d a b s .rfl (subset_everyPart _)
  | .shr p fl d a b, s => execShr_goes p fl d a b s .rfl (subset_everyPart _)
  | .sar p fl d a b, s => execSar_goes p fl d a b s .rfl (subset_everyPart _)
  | .abs p fl d a, s => execAbs_goes p fl d a s .rfl (subset_everyPart _)
  | .min p fl d a b, s => execMin_goes p fl d a b s .rfl (subset_everyPart _)
  | .max p fl d a b, s => execMax_goes p fl d a b s .rfl (subset_everyPart _)
  | .minu p fl d a b, s => execMinu_goes p fl d a b s .rfl (subset_everyPart _)
  | .maxu p fl d a b, s => execMaxu_goes p fl d a b s .rfl (subset_everyPart _)
  | .clz p fl d a, s => execClz_goes p fl d a s .rfl (subset_everyPart _)
  | .mul p fl d a b, s => execMul_goes p fl d a b s .rfl (subset_everyPart _)
  | .mulh p fl d a b, s => execMulh_goes p fl d a b s .rfl (subset_everyPart _)
  | .mulhu p fl d a b, s => execMulhu_goes p fl d a b s .rfl (subset_everyPart _)
  | .addi p d a imm, s => execAddi_goes p d a imm s .rfl (subset_everyPart _)
  | .andi p d a imm, s => execAndi_goes p d a imm s .rfl (subset_everyPart _)
  | .ori p d a imm, s => execOri_goes p d a imm s .rfl (subset_everyPart _)
  | .xori p d a imm, s => execXori_goes p d a imm s .rfl (subset_everyPart _)
  | .shli p d a n, s => execShli_goes p d a n s .rfl (subset_everyPart _)
  | .shri p d a n, s => execShri_goes p d a n s .rfl (subset_everyPart _)
  | .sari p d a n, s => execSari_goes p d a n s .rfl (subset_everyPart _)
  | .lui p d imm, s => execLui_goes p d imm s .rfl (subset_everyPart _)
  | .cmpi p a imm, s => execCmpi_goes p a imm s .rfl (subset_everyPart _)
  | .ldW p d a mode b sc disp, s => execLdW_goes p d a mode b sc disp s .rfl (subset_everyPart _)
  | .ldH p d a mode b sc disp, s => execLdH_goes p d a mode b sc disp s .rfl (subset_everyPart _)
  | .ldHu p d a mode b sc disp, s => execLdHu_goes p d a mode b sc disp s .rfl (subset_everyPart _)
  | .ldB p d a mode b sc disp, s => execLdB_goes p d a mode b sc disp s .rfl (subset_everyPart _)
  | .ldBu p d a mode b sc disp, s => execLdBu_goes p d a mode b sc disp s .rfl (subset_everyPart _)
  | .ldA p d a mode b sc disp, s => execLdA_goes p d a mode b sc disp s .rfl (subset_everyPart _)
  | .stW p d a mode b sc disp, s => execStW_goes p d a mode b sc disp s .rfl (subset_everyPart _)
  | .stH p d a mode b sc disp, s => execStH_goes p d a mode b sc disp s .rfl (subset_everyPart _)
  | .stB p d a mode b sc disp, s => execStB_goes p d a mode b sc disp s .rfl (subset_everyPart _)
  | .stA p d a mode b sc disp, s => execStA_goes p d a mode b sc disp s .rfl (subset_everyPart _)
  | .bCc p cond off, s => execBCc_goes p cond off s .rfl (subset_everyPart _)
  | .callCc p cond off, s => execCallCc_goes p cond off s .rfl (subset_everyPart _)
  | .dbnz p cond off, s => execDbnz_goes p cond off s .rfl (subset_everyPart _)
  | .dadd p d a b, s => execDadd_goes p d a b s .rfl (subset_everyPart _)
  | .dsub p d a b, s => execDsub_goes p d a b s .rfl (subset_everyPart _)
  | .dmul p d a b, s => execDmul_goes p d a b s .rfl (subset_everyPart _)
  | .dpack p d a b, s => execDpack_goes p d a b s .rfl (subset_everyPart _)
  | .dswap p d a, s => execDswap_goes p d a s .rfl (subset_everyPart _)
  | .mulAx p fl d a b, s => execMulAx_goes p fl d a b s .rfl (subset_everyPart _)
  | .mac p fl d a b, s => execMac_goes p fl d a b s .rfl (subset_everyPart _)
  | .msu p fl d a b, s => execMsu_goes p fl d a b s .rfl (subset_everyPart _)
  | .mulu p fl d a b, s => execMulu_goes p fl d a b s .rfl (subset_everyPart _)
  | .macu p fl d a b, s => execMacu_goes p fl d a b s .rfl (subset_everyPart _)
  | .msuu p fl d a b, s => execMsuu_goes p fl d a b s .rfl (subset_everyPart _)
  | .macs p fl d a b, s => execMacs_goes p fl d a b s .rfl (subset_everyPart _)
  | .msus p fl d a b, s => execMsus_goes p fl d a b s .rfl (subset_everyPart _)
  | .dmac p fl d a b, s => execDmac_goes p fl d a b s .rfl (subset_everyPart _)
  | .dmacn p fl d a b, s => execDmacn_goes p fl d a b s .rfl (subset_everyPart _)
  | .dmacx p fl d a b, s => execDmacx_goes p fl d a b s .rfl (subset_everyPart _)
  | .acclr p fl d, s => execAcclr_goes p fl d s .rfl (subset_everyPart _)
  | .acw p fl d a b, s => execAcw_goes p fl d a b s .rfl (subset_everyPart _)
  | .acl p fl d a, s => execAcl_goes p fl d a s .rfl (subset_everyPart _)
  | .ach p fl d a, s => execAch_goes p fl d a s .rfl (subset_everyPart _)
  | .acr p fl d a n, s => execAcr_goes p fl d a n s .rfl (subset_everyPart _)
  | .jr p a, s => execJr_goes p a s .rfl (subset_everyPart _)
  | .callr p a, s => execCallr_goes p a s .rfl (subset_everyPart _)
  | .ret p, s => execRet_goes p s .rfl (subset_everyPart _)
  | .brk p, s => execBrk_goes p s .rfl (subset_everyPart _)
  | .yield p, s => execYield_goes p s .rfl (subset_everyPart _)
  | .waitEv p d e, s => execWaitEv_goes p d e s .rfl (subset_everyPart _)
  | .waitEvReturn p, s => execWaitEvReturn_goes p s .rfl (subset_everyPart _)
  | .rowFixedWake p, s => execRowFixedWake_goes p s .rfl (subset_everyPart _)
  | .pubRaise p d a ix, s => execPubRaise_goes p d a ix s .rfl (subset_everyPart _)
  | .mfs p d sr, s => execMfs_goes p d sr s .rfl (subset_everyPart _)
  | .mts p sr a, s => execMts_goes p sr a s .rfl (subset_everyPart _)
  | .budgetStop p, s => execBudgetStop_goes p s .rfl (subset_everyPart _)
  | .trowelCutoff p, s => execTrowelCutoff_goes p s .rfl (subset_everyPart _)
  | .sqTailDoorbell fn qp v, s => execSqTailDoorbell_goes fn qp v s .rfl (subset_everyPart _)
  | .queueBootstrap fn mem, s => execQueueBootstrap_goes fn mem s .rfl (subset_everyPart _)
  | .cqHeadDoorbell fn qp v, s => execCqHeadDoorbell_goes fn qp v s .rfl (subset_everyPart _)
  | .ringConsWrite fn ring v, s => execRingConsWrite_goes fn ring v s .rfl (subset_everyPart _)
  | .sysResetWrite v, s => execSysResetWrite_goes v s .rfl (subset_everyPart _)
  | .evtW1cWrite fn off v, s => execEvtW1cWrite_goes fn off v s .rfl (subset_everyPart _)
  | .registerWrite fn off v, s => execRegisterWrite_goes fn off v s .rfl (subset_everyPart _)
  | .loRegisterRead fn off, s => execLoRegisterRead_goes fn off s .rfl (subset_everyPart _)
  | .shFieldRead off, s => execShFieldRead_goes off s .rfl (subset_everyPart _)
  | .pcieConfigRequest fn, s => execPcieConfigRequest_goes fn s .rfl (subset_everyPart _)
  | .functionLevelReset fn, s => execFunctionLevelReset_goes fn s .rfl (subset_everyPart _)
  | .conventionalReset, s => execConventionalReset_goes s .rfl (subset_everyPart _)
  | .vfEnableChange on num, s => execVfEnableChange_goes on num s .rfl (subset_everyPart _)
  | .busMasterEnableChange fn on, s => execBusMasterEnableChange_goes fn on s .rfl (subset_everyPart _)
  | .spdmRequest r, s => execSpdmRequest_goes r s .rfl (subset_everyPart _)
  | .ucieLinkTraining partnerLath rates repaired, s =>
    execUcieLinkTraining_goes partnerLath rates repaired s .rfl (subset_everyPart _)
  | .ucieFlitReceive f, s => execUcieFlitReceive_goes f s .rfl (subset_everyPart _)
  | .ucieRetrain replays flits, s => execUcieRetrain_goes replays flits s .rfl (subset_everyPart _)
  | .porstNAssert, s => execPorstNAssert_goes s .rfl (subset_everyPart _)
  | .porstNDeassert b, s => execPorstNDeassert_goes b s .rfl (subset_everyPart _)
  | .railUndervoltage, s => execRailUndervoltage_goes s .rfl (subset_everyPart _)
  | .vauxLow, s => execVauxLow_goes s .rfl (subset_everyPart _)
  | .backupSample events, s => execBackupSample_goes events s .rfl (subset_everyPart _)
  | .advanceRetry, s => execAdvanceRetry_goes s .rfl (subset_everyPart _)
  | .scrimCheck net sent got short, s => execScrimCheck_goes net sent got short s .rfl (subset_everyPart _)
  | .tamperEvent src engine lane cls owner, s =>
    execTamperEvent_goes src engine lane cls owner s .rfl (subset_everyPart _)
  | .jtagAccess op, s => execJtagAccess_goes op s .rfl (subset_everyPart _)
  | .portSignalLoss port, s => execPortSignalLoss_goes port s .rfl (subset_everyPart _)
  | .portUp port negotiated, s => execPortUp_goes port negotiated s .rfl (subset_everyPart _)
  | .portDegraded port errs, s => execPortDegraded_goes port errs s .rfl (subset_everyPart _)
  | .portUndegrade port, s => execPortUndegrade_goes port s .rfl (subset_everyPart _)
  | .frameReceive port f, s => execFrameReceive_goes port f s .rfl (subset_everyPart _)
  | .dupWaitRelease bp src seq, s => execDupWaitRelease_goes bp src seq s .rfl (subset_everyPart _)
  | .contextFetchDone ctx ok, s => execContextFetchDone_goes ctx ok s .rfl (subset_everyPart _)
  | .dupWindowClear bp src, s => execDupWindowClear_goes bp src s .rfl (subset_everyPart _)
  | .indexSwap, s => execIndexSwap_goes s .rfl (subset_everyPart _)
  | .cacheLathFault ctx modified, s => execCacheLathFault_goes ctx modified s .rfl (subset_everyPart _)
  | .announceTimeout bp lanB, s => execAnnounceTimeout_goes bp lanB s .rfl (subset_everyPart _)
  | .freerunEntry, s => execFreerunEntry_goes s .rfl (subset_everyPart _)
  | .revertHoldExpiry bp, s => execRevertHoldExpiry_goes bp s .rfl (subset_everyPart _)
  | .ppsInEdge, s => execPpsInEdge_goes s .rfl (subset_everyPart _)
  | .ppsInTimeout, s => execPpsInTimeout_goes s .rfl (subset_everyPart _)
  | .ppsOutPulse rise, s => execPpsOutPulse_goes rise s .rfl (subset_everyPart _)
  | .osc10mChange ok, s => execOsc10mChange_goes ok s .rfl (subset_everyPart _)
  | .slotStartEvent bp, s => execSlotStartEvent_goes bp s .rfl (subset_everyPart _)
  | .keyPromote ctx, s => execKeyPromote_goes ctx s .rfl (subset_everyPart _)
  | .supervisionExpiry ctx, s => execSupervisionExpiry_goes ctx s .rfl (subset_everyPart _)
  | .gooseRetransmit ctx, s => execGooseRetransmit_goes ctx s .rfl (subset_everyPart _)
  | .pubFirstState ctx, s => execPubFirstState_goes ctx s .rfl (subset_everyPart _)
  | .timeTrigger trig, s => execTimeTrigger_goes trig s .rfl (subset_everyPart _)
  | .pendingRaiseDiscard, s => execPendingRaiseDiscard_goes s .rfl (subset_everyPart _)
  | .budgetPeriodBoundary, s => execBudgetPeriodBoundary_goes s .rfl (subset_everyPart _)
  | .slotCloseEvent bp group, s => execSlotCloseEvent_goes bp group s .rfl (subset_everyPart _)
  | .trackerCoast bp, s => execTrackerCoast_goes bp s .rfl (subset_everyPart _)
  | .sheetWrite fn ring, s => execSheetWrite_goes fn ring s .rfl (subset_everyPart _)
  | .svFrameBuild ctx, s => execSvFrameBuild_goes ctx s .rfl (subset_everyPart _)
  | .portTransmit port, s => execPortTransmit_goes port s .rfl (subset_everyPart _)
  | .prpSupervision bp, s => execPrpSupervision_goes bp s .rfl (subset_everyPart _)
  | .recordCopyStart recNo, s => execRecordCopyStart_goes recNo s .rfl (subset_everyPart _)
  | .recordSeal recNo, s => execRecordSeal_goes recNo s .rfl (subset_everyPart _)
  | .coreSelftest core pass, s => execCoreSelftest_goes core pass s .rfl (subset_everyPart _)
  | .healthWindowEnd src error0 error1 raw, s =>
    execHealthWindowEnd_goes src error0 error1 raw s .rfl (subset_everyPart _)
  | .entropyTimeout, s => execEntropyTimeout_goes s .rfl (subset_everyPart _)
  | .rngResumeTimeout, s => execRngResumeTimeout_goes s .rfl (subset_everyPart _)
  | .challengeExpiry, s => execChallengeExpiry_goes s .rfl (subset_everyPart _)
  | .sealerAccess rid lbn op r, s => execSealerAccess_goes rid lbn op r s .rfl (subset_everyPart _)
  | .rekeyWalk rid, s => execRekeyWalk_goes rid s .rfl (subset_everyPart _)
  | .rowRepair row spareRow, s => execRowRepair_goes row spareRow s .rfl (subset_everyPart _)
  | .volWriteRepost idx, s => execVolWriteRepost_goes idx s .rfl (subset_everyPart _)
  | .puttySwap, s => execPuttySwap_goes s .rfl (subset_everyPart _)
  | .shadowSwitch comp, s => execShadowSwitch_goes comp s .rfl (subset_everyPart _)
  | .logRecord, s => execLogRecord_goes s .rfl (subset_everyPart _)
  | .pairListenEnd, s => execPairListenEnd_goes s .rfl (subset_everyPart _)
  | .pairHeartbeatTx, s => execPairHeartbeatTx_goes s .rfl (subset_everyPart _)
  | .mirrorEntry m, s => execMirrorEntry_goes m s .rfl (subset_everyPart _)
  | .mirrorAck tok, s => execMirrorAck_goes tok s .rfl (subset_everyPart _)
  | .standbyAdmission c, s => execStandbyAdmission_goes c s .rfl (subset_everyPart _)
  | .fixRecord bp group slot digest, s => execFixRecord_goes bp group slot digest s .rfl (subset_everyPart _)
  | .rowsAdopt bp group slot rows, s => execRowsAdopt_goes bp group slot rows s .rfl (subset_everyPart _)
  | .fixRecordAck bp group slot, s => execFixRecordAck_goes bp group slot s .rfl (subset_everyPart _)
  | .slotConfirm slot, s => execSlotConfirm_goes slot s .rfl (subset_everyPart _)
  | .takeover announced, s => execTakeover_goes announced s .rfl (subset_everyPart _)
  | .partnerLost, s => execPartnerLost_goes s .rfl (subset_everyPart _)
  | .resyncComplete epoch token recnum proto, s =>
    execResyncComplete_goes epoch token recnum proto s .rfl (subset_everyPart _)
  | .handoverSwitch, s => execHandoverSwitch_goes s .rfl (subset_everyPart _)
  | .healthReport, s => execHealthReport_goes s .rfl (subset_everyPart _)
  | .spanLinkTraining link peer peerId peerNonce proof, s =>
    execSpanLinkTraining_goes link peer peerId peerNonce proof s .rfl (subset_everyPart _)
  | .spanFlitReceive link f gcmTagOk msg, s => execSpanFlitReceive_goes link f gcmTagOk msg s .rfl (subset_everyPart _)
  | .spanLinkDown link tagFails, s => execSpanLinkDown_goes link tagFails s .rfl (subset_everyPart _)
  | .spanLinkRetrain link, s => execSpanLinkRetrain_goes link s .rfl (subset_everyPart _)
  | .routePacket failedA failedB, s => execRoutePacket_goes failedA failedB s .rfl (subset_everyPart _)
  | .spanPacketReceive link k, s => execSpanPacketReceive_goes link k s .rfl (subset_everyPart _)
  | .spanGapTimeout src, s => execSpanGapTimeout_goes src s .rfl (subset_everyPart _)
  | .remoteCommand c, s => execRemoteCommand_goes c s .rfl (subset_everyPart _)
  | .remoteOutcome tok status result epoch dev output, s =>
    execRemoteOutcome_goes tok status result epoch dev output s .rfl (subset_everyPart _)
  | .gatewayUnreachable tok, s => execGatewayUnreachable_goes tok s .rfl (subset_everyPart _)
  | .numberPacket devid num, s => execNumberPacket_goes devid num s .rfl (subset_everyPart _)
  | .sheetPacket fn ring slot octets, s => execSheetPacket_goes fn ring slot octets s .rfl (subset_everyPart _)
  | .pdelayRequest port, s => execPdelayRequest_goes port s .rfl (subset_everyPart _)
  | .pathSuspect, s => execPathSuspect_goes s .rfl (subset_everyPart _)
  | .volStall idx, s => execVolStall_goes idx s .rfl (subset_everyPart _)
  | .vauxWithinLimits, s => execVauxWithinLimits_goes s .rfl (subset_everyPart _)
  | .standbySelfTest sub run fail cover code, s =>
    execStandbySelfTest_goes sub run fail cover code s .rfl (subset_everyPart _)

/-- A step goes from the state with the rest of the queue. -/
theorem step_goes {s t : State} (h : step s = .next t) : Goes everyPart { s with pending := s.pending.tail } t := by
  unfold step at h
  split at h
  · next hqueue =>
    have hsame : { s with pending := s.pending.tail } = s := by rw [hqueue, List.tail_nil, ← hqueue]
    cases h
    rw [hsame]
    exact idle_goes s .rfl (subset_everyPart _)
  · next c l hqueue =>
    rw [hqueue]
    exact (exec_goes c { s with pending := l }).holds t h

/-- Settles O29: every row keeps Canon, which does not speak of the queue. -/
theorem stepKeepsProgramMemories : Obligations.StepKeepsProgramMemories := by
  unfold Obligations.StepKeepsProgramMemories
  exact fun s t hcanon hstep => (step_goes hstep).canon hcanon

end Sys2Proof.Machine
end

section
/-! SUPPORT. The ALU group (R261, R262, R271): results, carries and overflows of the model's operations as those of bit
vectors, and the statements O9, O10 and O11. -/
namespace Sys2Proof.Machine

/-- An ALU instruction that issues, with the result, C and V that its operation gives. -/
theorem runAlu_done {s : State} {p fn cost : Nat} {S : Bool} {d a b : Fld4} {g : Prog} {f : W32 → W32 → Alu} {r : W32}
    {c v : Bool} (hissues : Issues s p (encR 0x00 d a b (b2n S) fn) g) (hf : f (gget g a) (gget g b) = ⟨r, c, v⟩) :
    Host.Outcome.next (φ := Fault) (ρ := Refusal) (runAlu p fn S d a b f cost s) =
      .next (setProg p (aluDone g S d r c v cost) s) := by
  rw [runAlu_eq f cost hissues, hf]

/-! Addition and subtraction. -/

theorem addFl_eq (x y : W32) : addFl x y = ⟨x + y, x.uaddOverflow y, x.saddOverflow y⟩ := by
  have hover : outS 32 (x.toInt + y.toInt) = x.saddOverflow y := by
    simp only [outS, BitVec.saddOverflow, ← Bool.decide_or, decide_eq_decide]
    omega
  simp only [addFl, BitVec.uaddOverflow, hover]

theorem subFl_eq (x y : W32) : subFl x y = ⟨x - y, !x.usubOverflow y, x.ssubOverflow y⟩ := by
  have hover : outS 32 (x.toInt - y.toInt) = x.ssubOverflow y := by
    simp only [outS, BitVec.ssubOverflow, ← Bool.decide_or, decide_eq_decide]
    omega
  simp only [subFl, BitVec.usubOverflow, hover, ← decide_not, Nat.not_lt, ge_iff_le]

theorem addsFl_eq (x y : W32) : addsFl x y =
    ⟨BitVec.ofInt 32 (clamp 32 (x.toInt + y.toInt)), x.uaddOverflow y, x.saddOverflow y⟩ := by
  rw [addsFl, addFl_eq, satS_eq]

theorem subsFl_eq (x y : W32) : subsFl x y =
    ⟨BitVec.ofInt 32 (clamp 32 (x.toInt - y.toInt)), !x.usubOverflow y, x.ssubOverflow y⟩ := by
  rw [subsFl, subFl_eq, satS_eq]

/-- Settles O9: each row runs its operation, whose carry and overflow are those of bit vectors. -/
theorem ezAddSubtract : Obligations.EzAddSubtract := by
  unfold Obligations.EzAddSubtract
  intro p S d a b s g x y
  exact ⟨fun h => runAlu_done h (addFl_eq x y), fun h => runAlu_done h (subFl_eq x y),
    fun h => runAlu_done h (addsFl_eq x y), fun h => runAlu_done h (subsFl_eq x y)⟩

/-! Shifts: the last bit shifted out is the one next to the end of the word. -/

theorem shiftOf_eq (y : W32) : shiftOf y = (y.setWidth 8).toNat := by
  rw [BitVec.toNat_setWidth]
  rfl

theorem shlFl_eq (x y : W32) : shlFl x y =
    ⟨x <<< (y.setWidth 8).toNat, ((0#1 ++ x) <<< (y.setWidth 8).toNat).getLsbD 32, false⟩ := by
  rw [← shiftOf_eq]
  generalize hn : shiftOf y = n
  have hres : (if n < 32 then x <<< n else 0) = x <<< n := by
    split
    · rfl
    · exact (BitVec.shiftLeft_eq_zero (by omega)).symm
  have hout : (decide (1 ≤ n ∧ n ≤ 32) && x.getLsbD (32 - n)) = ((0#1 ++ x) <<< n).getLsbD 32 := by
    rw [BitVec.getLsbD_shiftLeft, BitVec.getLsbD_append]
    by_cases hzero : n = 0
    · simp [hzero]
    · by_cases hmost : n ≤ 32
      · simp [show 1 ≤ n by omega, hmost, show 32 - n < 32 by omega]
      · simp [hmost, show 32 < n by omega]
  simp only [shlFl, hn, hres, hout]

theorem shrFl_eq (x y : W32) : shrFl x y =
    ⟨x >>> (y.setWidth 8).toNat, ((x ++ 0#1) >>> (y.setWidth 8).toNat).getLsbD 0, false⟩ := by
  rw [← shiftOf_eq]
  generalize hn : shiftOf y = n
  have hres : (if n < 32 then x >>> n else 0) = x >>> n := by
    split
    · rfl
    · exact (BitVec.ushiftRight_eq_zero (by omega)).symm
  have hout : (decide (1 ≤ n) && x.getLsbD (n - 1)) = ((x ++ 0#1) >>> n).getLsbD 0 := by
    rw [BitVec.getLsbD_ushiftRight, BitVec.getLsbD_append]
    by_cases hzero : n = 0
    · simp [hzero]
    · simp [show 1 ≤ n by omega, hzero]
  simp only [shrFl, hn, hres, hout]

/-- Past the width a shift with sign fill leaves copies of the sign. -/
theorem sshiftRight_min (x : W32) (n : Nat) : x.sshiftRight (min n 32) = x.sshiftRight n := by
  by_cases hn : n ≤ 32
  · rw [Nat.min_eq_left hn]
  · ext i hi
    rw [← BitVec.getLsbD_eq_getElem, ← BitVec.getLsbD_eq_getElem, BitVec.getLsbD_sshiftRight, BitVec.getLsbD_sshiftRight,
      if_neg (by omega), if_neg (by omega)]

theorem sarFl_eq (x y : W32) : sarFl x y =
    ⟨x.sshiftRight (y.setWidth 8).toNat, ((x ++ 0#1).sshiftRight (y.setWidth 8).toNat).getLsbD 0, false⟩ := by
  rw [← shiftOf_eq]
  generalize hn : shiftOf y = n
  have hout : (decide (1 ≤ n) && (if n ≤ 32 then x.getLsbD (n - 1) else x.msb)) =
      ((x ++ 0#1).sshiftRight n).getLsbD 0 := by
    rw [BitVec.getLsbD_sshiftRight, BitVec.getLsbD_append, BitVec.msb_append]
    by_cases hzero : n = 0
    · simp [hzero]
    · by_cases hmost : n ≤ 32
      · simp [show 1 ≤ n by omega, hmost, hzero, show n < 33 by omega]
      · simp [show 1 ≤ n by omega, hmost, show ¬ n < 33 by omega]
  simp only [sarFl, hn, sshiftRight_min, hout]

/-- Settles O10: each row runs its operation; a shift's last bit out is the bit past the end of the shifted value. -/
theorem ezLogicAndShifts : Obligations.EzLogicAndShifts := by
  unfold Obligations.EzLogicAndShifts
  intro p S d a b s g x y n
  exact ⟨fun h => runAlu_done h rfl, fun h => runAlu_done h rfl, fun h => runAlu_done h rfl, fun h => runAlu_done h rfl,
    fun h => runAlu_done h (shlFl_eq x y), fun h => runAlu_done h (shrFl_eq x y), fun h => runAlu_done h (sarFl_eq x y)⟩

/-! Absolute value, minima and maxima. -/

theorem abs_saturates (x : W32) : BitVec.ofInt 32 (satS 32 x.toInt.natAbs) =
    if x = 0x80000000 then 0x7FFFFFFF else if x.msb then -x else x := by
  by_cases hmin : x = 0x80000000
  · subst hmin
    decide
  have hlow := x.le_toInt
  have hhigh := x.toInt_lt
  have hne : x.toInt ≠ (0x80000000 : W32).toInt := fun h => hmin (BitVec.eq_of_toInt_eq h)
  rw [show (0x80000000 : W32).toInt = -2147483648 by decide] at hne
  have hsat : satS 32 x.toInt.natAbs = x.toInt.natAbs := by
    unfold satS
    omega
  rw [if_neg hmin, hsat, BitVec.msb_eq_toInt]
  simp only [decide_eq_true_eq]
  split
  · next hneg => rw [Int.ofNat_natAbs_of_nonpos (by omega), BitVec.ofInt_neg, BitVec.ofInt_toInt]
  · next hpos => rw [Int.natAbs_of_nonneg (by omega), BitVec.ofInt_toInt]

/-! A choice by `<` is the choice by `≤` where it makes no difference between equals. -/

theorem ite_slt {x y u v : W32} (huv : x = y → u = v) :
    (if x.slt y then u else v) = if x.toInt ≤ y.toInt then u else v := by
  simp only [BitVec.slt_eq_decide, decide_eq_true_eq]
  rcases Int.lt_trichotomy x.toInt y.toInt with hlt | heq | hgt
  · rw [if_pos hlt, if_pos (Int.le_of_lt hlt)]
  · rw [huv (BitVec.eq_of_toInt_eq heq), ite_self, ite_self]
  · rw [if_neg (Int.lt_asymm hgt), if_neg (Int.not_le.2 hgt)]

theorem ite_ult {x y u v : W32} (huv : x = y → u = v) :
    (if x.ult y then u else v) = if x.toNat ≤ y.toNat then u else v := by
  simp only [BitVec.ult_eq_decide, decide_eq_true_eq]
  rcases Nat.lt_trichotomy x.toNat y.toNat with hlt | heq | hgt
  · rw [if_pos hlt, if_pos (Nat.le_of_lt hlt)]
  · rw [huv (BitVec.eq_of_toNat_eq heq), ite_self, ite_self]
  · rw [if_neg (Nat.lt_asymm hgt), if_neg (Nat.not_le.2 hgt)]

/-! Leading zeros. -/

/-- The scan of the low k bits has met the highest one among them. -/
theorem leadingZeros_scan (x : W32) {k : Nat} (hk : k ≤ 32) :
    (List.range k).foldl (fun n i => if x.getLsbD i then 31 - i else n) 32 =
      if x.toNat % 2 ^ k = 0 then 32 else 31 - (x.toNat % 2 ^ k).log2 := by
  induction k with
  | zero => simp [Nat.mod_one]
  | succ k ih =>
    have hlow : x.toNat % 2 ^ k < 2 ^ k := Nat.mod_lt _ (Nat.two_pow_pos k)
    have hbit : x.getLsbD k = decide (x.toNat / 2 ^ k % 2 = 1) := Nat.testBit_eq_decide_div_mod_eq
    rw [List.range_succ, List.foldl_append, ih (by omega), Nat.pow_succ, Nat.mod_mul]
    rcases Nat.mod_two_eq_zero_or_one (x.toNat / 2 ^ k) with hzero | hone
    · simp [hbit, hzero]
    · have htop : (x.toNat % 2 ^ k + 2 ^ k).log2 = k :=
        (Nat.log2_eq_iff (by omega)).2 ⟨by omega, by rw [Nat.pow_succ]; omega⟩
      simp [hbit, hone, htop]

theorem leadingZeros_eq (x : W32) : BitVec.ofNat 32 (leadingZeros x) =
    if x = 0 then 32 else BitVec.ofNat 32 (31 - x.toNat.log2) := by
  rw [leadingZeros, leadingZeros_scan x (Nat.le_refl 32), Nat.mod_eq_of_lt x.isLt]
  by_cases hx : x = 0
  · simp [hx]
  · have hne : x.toNat ≠ 0 := fun h => hx (BitVec.eq_of_toNat_eq h)
    rw [if_neg hx, if_neg hne]

/-! Products of two registers in 64 bits. -/

theorem ofInt_product (x y : W32) : BitVec.ofInt 64 (x.toInt * y.toInt) = x.signExtend 64 * y.signExtend 64 :=
  BitVec.ofInt_mul ..

theorem ofNat_product (x y : W32) : BitVec.ofNat 64 (x.toNat * y.toNat) = x.setWidth 64 * y.setWidth 64 := by
  rw [BitVec.ofNat_mul, BitVec.ofNat_toNat, BitVec.ofNat_toNat]

theorem highHalf_ofInt (v : Int) : BitVec.ofInt 32 (v / 2 ^ 32) = (BitVec.ofInt 64 v).extractLsb' 32 32 := by
  apply BitVec.eq_of_toNat_eq
  rw [BitVec.extractLsb'_toNat, BitVec.toNat_ofInt, BitVec.toNat_ofInt, Nat.shiftRight_eq_div_pow]
  omega

theorem mulh_eq (x y : W32) : BitVec.ofInt 32 (x.toInt * y.toInt / 2 ^ 32) =
    (x.signExtend 64 * y.signExtend 64).extractLsb' 32 32 := by
  rw [highHalf_ofInt, ofInt_product]

theorem mulhu_eq (x y : W32) : BitVec.ofNat 32 (x.toNat * y.toNat / 2 ^ 32) =
    (x.setWidth 64 * y.setWidth 64).extractLsb' 32 32 := by
  rw [← BitVec.ofInt_natCast, ← ofNat_product, ← BitVec.ofInt_natCast 64, ← highHalf_ofInt]
  rfl

/-- Settles O11: each row runs its operation, whose result is the one named; C and V are 0. -/
theorem ezMinMaxMultiply : Obligations.EzMinMaxMultiply := by
  unfold Obligations.EzMinMaxMultiply
  intro p S d a b s g x y
  refine ⟨fun h => runAlu_done h ?_, fun h => runAlu_done h ?_, fun h => runAlu_done h ?_, fun h => runAlu_done h ?_,
    fun h => runAlu_done h ?_, fun h => runAlu_done h ?_, fun h => runAlu_done h rfl, fun h => runAlu_done h ?_,
    fun h => runAlu_done h ?_⟩
  · exact congrArg plain (abs_saturates x)
  · exact congrArg plain (ite_slt id)
  · exact congrArg plain (ite_slt Eq.symm)
  · exact congrArg plain (ite_ult id)
  · exact congrArg plain (ite_ult Eq.symm)
  · exact congrArg plain (leadingZeros_eq x)
  · exact congrArg plain (mulh_eq x y)
  · exact congrArg plain (mulhu_eq x y)

end Sys2Proof.Machine
end

section
/-! SUPPORT. The immediate, dual and MAC groups (R260, R263 to R265): the model's lanes, products, saturations and rounding
in the terms of bit vectors, and the statements O12 to O15. -/
namespace Sys2Proof.Machine

/-- The program that issues is loaded while its instruction runs. -/
theorem Issues.progOf_issued {s : State} {p : Nat} {w : W32} {g : Prog} (h : Issues s p w g) :
    progOf (setProg p g s) p = some g := (issue_runs h fun _ u => u).2

/-- An instruction that issues and completes with PC as given. -/
theorem Issues.finish_eq {s : State} {p : Nat} {w : W32} {g : Prog} (h : Issues s p w g) (cost : Nat) (pc : W32)
    (f : Prog → Prog) :
    finish p cost pc f (setProg p g s) = setProg p { f g with pc := pc, budget := (f g).budget - cost } s := by
  rw [Machine.finish_eq h.progOf_issued, setProg_twice]

/-- An instruction that issues and completes with PC at the next one. -/
theorem Issues.finishNext_eq {s : State} {p : Nat} {w : W32} {g : Prog} (h : Issues s p w g) (cost : Nat)
    (f : Prog → Prog) :
    finishNext p cost f g (setProg p g s) =
      setProg p { f g with pc := g.pc + 4, budget := (f g).budget - cost } s := h.finish_eq ..

/-! Immediates. -/

theorem runImm_done {s : State} {p op : Nat} {d a : Fld4} {imm : BitVec 18} {g : Prog} {f : W32 → W32} {r : W32}
    (hissues : Issues s p (encI op d a imm) g) (hf : f (gget g a) = r) :
    Host.Outcome.next (φ := Fault) (ρ := Refusal) (runImm p op d a imm f s) =
      .next (setProg p (aluDone g false d r false false 1) s) := by
  rw [runImm_eq f hissues, hf]

theorem lui_value (imm : BitVec 18) : (imm.zeroExtend 32) <<< 14 = imm ++ (0 : BitVec 14) := by
  simpa using (BitVec.setWidth_append_eq_shiftLeft_setWidth_or (w'' := 32) (b := imm) (b' := 0#14)).symm

theorem exec_cmpi {s : State} {p : Nat} {a : Fld4} {imm : BitVec 18} {g : Prog}
    (hissues : Issues s p (encI 0x10 0 a imm) g) :
    exec (.cmpi p a imm) s = .next (setProg p (aluDone g true 0 (gget g a - imm.signExtend 32)
      (!(gget g a).usubOverflow (imm.signExtend 32)) ((gget g a).ssubOverflow (imm.signExtend 32)) 1) s) := by
  show execCmpi p a imm s = _
  unfold execCmpi
  rw [(issue_runs hissues _).1]
  simp only [subFl_eq, immOf, hissues.finishNext_eq, flags32_eq]
  rfl

/-- Settles O12: each row runs its operation on the extended immediate; cmpi subtracts it. -/
theorem ezImmediates : Obligations.EzImmediates := by
  unfold Obligations.EzImmediates
  intro p d a imm n s g x i
  exact ⟨fun h => runImm_done h rfl, fun h => runImm_done h rfl, fun h => runImm_done h rfl, fun h => runImm_done h rfl,
    fun h => runImm_done h rfl, fun h => runImm_done h rfl, fun h => runImm_done h rfl,
    fun h => runImm_done h (lui_value imm), exec_cmpi⟩

/-! Lanes. -/

theorem runDual_done {s : State} {p fn : Nat} {d a b : Fld4} {g : Prog} {f : W32 → W32 → W32} {r : W32}
    (hissues : Issues s p (encR 0x01 d a b 0 fn) g) (hf : f (gget g a) (gget g b) = r) :
    Host.Outcome.next (φ := Fault) (ρ := Refusal) (runDual p fn d a b f s) =
      .next (setProg p (aluDone g false d r false false 1) s) := by
  rw [runDual_eq f hissues, hf]

theorem laneLo_eq (x : W32) : laneLo x = (x.setWidth 16).toInt := by
  rw [laneLo, BitVec.setWidth_eq_extractLsb' (by decide)]

theorem laneHi_eq (x : W32) : laneHi x = ((x >>> 16).setWidth 16).toInt := by
  rw [laneHi, BitVec.setWidth_ushiftRight_eq_extractLsb]

theorem perLane_eq (f : Int → Int → Int) (x y : W32) : perLane f x y =
    BitVec.ofInt 16 (clamp 16 (f ((x >>> 16).setWidth 16).toInt ((y >>> 16).setWidth 16).toInt)) ++
      BitVec.ofInt 16 (clamp 16 (f (x.setWidth 16).toInt (y.setWidth 16).toInt)) := by
  simp only [perLane, lanes, satS_eq, laneLo_eq, laneHi_eq]

theorem dpack_value (x y : W32) : lanes (satS 16 x.toInt) (satS 16 y.toInt) =
    BitVec.ofInt 16 (clamp 16 y.toInt) ++ BitVec.ofInt 16 (clamp 16 x.toInt) := by
  simp only [lanes, satS_eq]

theorem dswap_value (x : W32) : lanes (laneHi x) (laneLo x) = x.setWidth 16 ++ (x >>> 16).setWidth 16 := by
  rw [lanes, laneLo_eq, laneHi_eq, BitVec.ofInt_toInt, BitVec.ofInt_toInt]

/-- Settles O13: each row runs its operation on the lanes. -/
theorem ezDualLanes : Obligations.EzDualLanes := by
  unfold Obligations.EzDualLanes
  intro p d a b s g lo hi two put
  have hround (v : Int) : v / 2 ^ 15 = v.shiftRight 15 := (Int.shiftRight_eq_div_pow v 15).symm
  refine ⟨fun h => runDual_done h (perLane_eq ..), fun h => runDual_done h (perLane_eq ..),
    fun h => runDual_done h ?_, fun h => runDual_done h (dpack_value ..), fun h => runDual_done h (dswap_value _)⟩
  rw [perLane_eq, hround, hround]
  dsimp only [two, hi, lo]
  generalize ((gget g a >>> 16).setWidth 16).toInt * ((gget g b >>> 16).setWidth 16).toInt + 2 ^ 14 = u
  generalize ((gget g a).setWidth 16).toInt * ((gget g b).setWidth 16).toInt + 2 ^ 14 = v
  -- A shift right with sign fill is defined by the sign of the number shifted.
  cases u <;> cases v <;> rfl

/-! Accumulations. -/

theorem runAcc_done {s : State} {p fn : Nat} {S : Bool} {d a b : Fld4} {g : Prog} {f : W64 → W32 → W32 → Acc} {r : W64}
    {v : Bool} (hissues : Issues s p (encR 0x02 d a b (b2n S) fn) g)
    (hf : f (aget g d) (gget g a) (gget g b) = ⟨r, v⟩) :
    Host.Outcome.next (φ := Fault) (ρ := Refusal) (runAcc p fn S d a b f s) = .next (setProg p (accDone g S d r v) s) := by
  rw [runAcc_eq f hissues, hf]

theorem outS_eq (n : Nat) (v : Int) : outS n v = decide (v < -(2 ^ (n - 1)) ∨ 2 ^ (n - 1) ≤ v) := by
  simp only [outS, gt_iff_lt, Int.sub_one_lt_iff]

theorem accum_eq {x : W64} {v w : Int} (hw : x.toInt + v = w) :
    accum x v = ⟨BitVec.ofInt 64 w, decide (w < -(2 ^ 63) ∨ 2 ^ 63 ≤ w)⟩ := by
  rw [accum, hw, outS_eq]

theorem accumSat_eq {x : W64} {v w : Int} (hw : x.toInt + v = w) :
    accumSat x v = ⟨BitVec.ofInt 64 (clamp 64 w), decide (w < -(2 ^ 63) ∨ 2 ^ 63 ≤ w)⟩ := by
  rw [accumSat, hw, outS_eq, satS_eq]

theorem prodU_eq (x y : W32) : prodU x y = (x.toNat : Int) * y.toNat := Int.natCast_mul ..

theorem setAcc_unsigned (x y : W32) : setAcc (prodU x y) = ⟨x.setWidth 64 * y.setWidth 64, false⟩ := by
  rw [setAcc, prodU, BitVec.ofInt_natCast, ofNat_product]

theorem setAcc_signed (x y : W32) : setAcc (x.toInt * y.toInt) = ⟨x.signExtend 64 * y.signExtend 64, false⟩ := by
  rw [setAcc, ofInt_product]

/-- Settles O14: each row sets its accumulator, or accumulates the exact amount that its products give. -/
theorem ezMultiplyAccumulate : Obligations.EzMultiplyAccumulate := by
  unfold Obligations.EzMultiplyAccumulate
  intro p S d a b s g x y ax lo hi out set wrap sat word
  refine ⟨fun h => runAcc_done h (setAcc_signed x y), fun h => runAcc_done h (accum_eq rfl),
    fun h => runAcc_done h (accum_eq rfl), fun h => runAcc_done h (setAcc_unsigned x y),
    fun h => runAcc_done h (accum_eq ?_), fun h => runAcc_done h (accum_eq ?_),
    fun h => runAcc_done h (accumSat_eq rfl), fun h => runAcc_done h (accumSat_eq rfl),
    fun h => runAcc_done h (accum_eq ?_), fun h => runAcc_done h (accum_eq ?_), fun h => runAcc_done h (accum_eq ?_),
    fun h => runAcc_done h rfl, fun h => runAcc_done h rfl⟩
  · rw [prodU_eq]; rfl
  · rw [prodU_eq]; rfl
  · simp only [laneLo_eq, laneHi_eq]; rfl
  · simp only [laneLo_eq, laneHi_eq]; rfl
  · simp only [laneLo_eq, laneHi_eq]; rfl

/-! Reads of an accumulator. -/

theorem runFrom_done {s : State} {p fn : Nat} {S : Bool} {d a : Fld4} {g : Prog} {f : W64 → Alu} {r : W32} {c v : Bool}
    (hissues : Issues s p (encR 0x02 d a 0 (b2n S) fn) g) (hf : f (aget g a) = ⟨r, c, v⟩) :
    Host.Outcome.next (φ := Fault) (ρ := Refusal) (runFrom p fn S d a f s) =
      .next (setProg p (aluDone g S d r c v 1) s) := by
  rw [runFrom_eq f hissues, hf]

theorem acl_value (v : W64) : plain (v.extractLsb' 0 32) = ⟨v.setWidth 32, false, false⟩ := by
  rw [plain, BitVec.setWidth_eq_extractLsb' (by decide)]

theorem ach_value (v : W64) : plain (v.extractLsb' 32 32) = ⟨(v >>> 32).setWidth 32, false, false⟩ := by
  rw [plain, BitVec.setWidth_ushiftRight_eq_extractLsb]

theorem shiftRight_eq_div (v : Int) (n : Nat) : v >>> n = v / 2 ^ n :=
  (Int.shiftRight_eq_div_pow v n).trans (congrArg (v / ·) (Int.natCast_pow 2 n))

theorem roundAcc_eq (n : BitVec 6) (v : W64) :
    let r : Int := (v.toInt + (if n = 0 then 0 else 2 ^ (n.toNat - 1))) >>> n.toNat
    roundAcc n.toNat v = ⟨BitVec.ofInt 32 (clamp 32 r), false, decide (r < -(2 ^ 31) ∨ 2 ^ 31 ≤ r)⟩ := by
  have hzero : n.toNat = 0 ↔ n = 0 := BitVec.toNat_inj (y := 0#6)
  simp only [roundAcc, hzero, outS_eq, satS_eq, shiftRight_eq_div]

/-- Settles O15: each row reads its half, or rounds, shifts and saturates. -/
theorem ezAccumulatorReads : Obligations.EzAccumulatorReads := by
  unfold Obligations.EzAccumulatorReads
  intro p S d a n s g ax r
  exact ⟨fun h => runFrom_done h (acl_value ax), fun h => runFrom_done h (ach_value ax),
    fun h => runFrom_done h (roundAcc_eq n ax)⟩

end Sys2Proof.Machine
end

section
/-! SUPPORT. Conditions and branches (R272 to R274): the flags read back from FLAGS, the relations that they name, and the
statements O16, O17 and O18. -/
namespace Sys2Proof.Machine

/-! Conditions. -/

/-- The four flags in FLAGS (R254). -/
theorem bits_flagWord (n z c v : Bool) : bit (flagWord n z c v) 0 = v ∧ bit (flagWord n z c v) 1 = c ∧
    bit (flagWord n z c v) 2 = z ∧ bit (flagWord n z c v) 3 = n := by
  revert n z c v
  decide

theorem condTrue_flagWord (n z c v : Bool) (k : Fld4) (hk : k ≠ 15) : condTrue (flagWord n z c v) k =
    [true, z, !z, !c, c, !c || z, c && !z, n != v, n == v, z || n != v, !z && n == v, n, !n, v, !v].getD k.toNat false := by
  obtain ⟨hv, hc, hz, hn⟩ := bits_flagWord n z c v
  simp only [condTrue, hv, hc, hz, hn]
  clear hv hc hz hn
  revert n z c v k
  decide

/-- N and V of a subtraction differ exactly when the signed relation is less than. -/
theorem sub_msb_ne_overflow (x y : W32) : ((x - y).msb != x.ssubOverflow y) = decide (x.toInt < y.toInt) := by
  have hsub : (x - y).toInt = (x.toInt - y.toInt).bmod (2 ^ 32) := BitVec.toInt_sub
  have := x.le_toInt
  have := x.toInt_lt
  have := y.le_toInt
  have := y.toInt_lt
  rw [BitVec.msb_eq_toInt, hsub, Int.bmod_def, BitVec.ssubOverflow, Bool.eq_iff_iff]
  simp only [bne_iff_ne, ne_eq, ← Bool.decide_or, decide_eq_decide, decide_eq_true_eq]
  omega

/-- The flags of a subtraction name the relations between its operands (R272). -/
theorem condTrue_sub (x y : W32) :
    let f := flagWord (x - y).msb (decide (x - y = 0)) (!x.usubOverflow y) (x.ssubOverflow y)
    condTrue f 0 = true ∧ condTrue f 1 = decide (x = y) ∧ condTrue f 2 = decide (x ≠ y) ∧
    condTrue f 3 = decide (x.toNat < y.toNat) ∧ condTrue f 4 = decide (x.toNat ≥ y.toNat) ∧
    condTrue f 5 = decide (x.toNat ≤ y.toNat) ∧ condTrue f 6 = decide (x.toNat > y.toNat) ∧
    condTrue f 7 = decide (x.toInt < y.toInt) ∧ condTrue f 8 = decide (x.toInt ≥ y.toInt) ∧
    condTrue f 9 = decide (x.toInt ≤ y.toInt) ∧ condTrue f 10 = decide (x.toInt > y.toInt) := by
  intro f
  have hz : x - y = 0 ↔ x = y := by bv_omega
  have hf : f = flagWord (x - y).msb (decide (x = y)) (!decide (x.toNat < y.toNat)) (x.ssubOverflow y) := by
    simp only [f, hz, BitVec.usubOverflow]
  have hcond := condTrue_flagWord (x - y).msb (decide (x = y)) (!decide (x.toNat < y.toNat)) (x.ssubOverflow y)
  have hlt := sub_msb_ne_overflow x y
  have hge : ((x - y).msb == x.ssubOverflow y) = decide (x.toInt ≥ y.toInt) := by
    rw [← Bool.not_not (_ == _), ← bne, hlt, ← decide_not, decide_eq_decide]
    exact Int.not_lt
  have hnat : x = y ↔ x.toNat = y.toNat := BitVec.toNat_inj.symm
  have hint : x = y ↔ x.toInt = y.toInt := BitVec.toInt_inj.symm
  rw [← hf] at hcond
  refine ⟨hcond 0 (by decide), hcond 1 (by decide), (hcond 2 (by decide)).trans ?_, (hcond 3 (by decide)).trans ?_,
    (hcond 4 (by decide)).trans ?_, (hcond 5 (by decide)).trans ?_, (hcond 6 (by decide)).trans ?_,
    (hcond 7 (by decide)).trans hlt, (hcond 8 (by decide)).trans hge, (hcond 9 (by decide)).trans ?_,
    (hcond 10 (by decide)).trans ?_⟩
  · exact (decide_not ..).symm
  · exact Bool.not_not _
  · exact (decide_not ..).symm.trans (decide_eq_decide.2 Nat.not_lt)
  · show (!!decide (x.toNat < y.toNat) || decide (x = y)) = _
    rw [Bool.not_not, ← Bool.decide_or, decide_eq_decide, hnat]
    omega
  · show (!decide (x.toNat < y.toNat) && !decide (x = y)) = _
    rw [← decide_not, ← decide_not, ← Bool.decide_and, decide_eq_decide, hnat]
    omega
  · show (decide (x = y) || (x - y).msb != x.ssubOverflow y) = _
    rw [hlt, ← Bool.decide_or, decide_eq_decide, hint]
    omega
  · show (!decide (x = y) && (x - y).msb == x.ssubOverflow y) = _
    rw [hge, ← decide_not, ← Bool.decide_and, decide_eq_decide, hint]
    omega

/-- The fields of a B-format word. -/
theorem bits_encB {op : Nat} (hop : op < 64) (cond : Fld4) (off : BitVec 22) :
    bits (encB op cond off) 31 26 = op ∧ bits (encB op cond off) 25 22 = cond.toNat := by
  have := cond.isLt
  have := off.isLt
  have hword : (encB op cond off).toNat = op * 2 ^ 26 + cond.toNat * 2 ^ 22 + off.toNat := by
    unfold encB
    rw [BitVec.toNat_ofNat, Nat.mod_eq_of_lt]
    omega
  simp only [bits, hword]
  omega

/-- Branch and call words with condition 15, and dbnz words of g0, are illegal (R272, R274). -/
theorem legalWord_encB (cond : Fld4) (off : BitVec 22) :
    legalWord (encB 0x30 cond off) = (cond.toNat != 15) ∧ legalWord (encB 0x31 cond off) = (cond.toNat != 15) ∧
      legalWord (encB 0x32 cond off) = (cond.toNat != 0) := by
  obtain ⟨hb, hbcond⟩ := bits_encB (op := 0x30) (by decide) cond off
  obtain ⟨hcall, hcallcond⟩ := bits_encB (op := 0x31) (by decide) cond off
  obtain ⟨hdbnz, hdbnzcond⟩ := bits_encB (op := 0x32) (by decide) cond off
  simp only [legalWord, hb, hbcond, hcall, hcallcond, hdbnz, hdbnzcond, and_self]

/-- Settles O16: the conditions are read off the flags, and those of a subtraction are the relations. -/
theorem ezConditionsNameRelations : Obligations.EzConditionsNameRelations := by
  unfold Obligations.EzConditionsNameRelations
  refine ⟨condTrue_flagWord, condTrue_sub, by decide, fun off => ?_⟩
  · obtain ⟨hb, hcall, -⟩ := legalWord_encB 15 off
    exact ⟨hb, hcall⟩

/-! Branches. -/

theorem exec_bCc_taken {s : State} {p : Nat} {cond : Fld4} {off : BitVec 22} {g : Prog}
    (hissues : Issues s p (encB 0x30 cond off) g) (htrue : condTrue g.flags cond = true) :
    exec (.bCc p cond off) s = .next (setProg p { g with pc := branchTarget g.pc off, budget := g.budget - 2 } s) := by
  show execBCc p cond off s = _
  unfold execBCc
  rw [(issue_runs hissues _).1, if_pos htrue, hissues.finish_eq]
  rfl

theorem exec_bCc_passes {s : State} {p : Nat} {cond : Fld4} {off : BitVec 22} {g : Prog}
    (hissues : Issues s p (encB 0x30 cond off) g) (hfalse : condTrue g.flags cond = false) :
    exec (.bCc p cond off) s = .next (setProg p (stepped g 1) s) := by
  show execBCc p cond off s = _
  unfold execBCc
  rw [(issue_runs hissues _).1, if_neg (ne_true_of_eq_false hfalse), hissues.finishNext_eq]
  rfl

theorem exec_jr {s : State} {p : Nat} {a : Fld4} {g : Prog} (hissues : Issues s p (encR 0x03 0 a 0 0 0x000) g) :
    exec (.jr p a) s = .next (setProg p { g with pc := gget g a, budget := g.budget - 2 } s) := by
  show execJr p a s = _
  unfold execJr
  rw [(issue_runs hissues _).1, hissues.finish_eq]
  rfl

/-- Settles O17: a branch completes at its target or at the next instruction, a jump at the register's value. -/
theorem ezBranches : Obligations.EzBranches := by
  unfold Obligations.EzBranches
  exact fun p cond a off s g => ⟨exec_bCc_taken, exec_bCc_passes, exec_jr⟩

theorem exec_dbnz {s : State} {p : Nat} {r : Fld4} {off : BitVec 22} {g : Prog}
    (hissues : Issues s p (encB 0x32 r off) g) :
    exec (.dbnz p r off) s = .next (setProg p { g with
      regs := regWritten g r (gget g r - 1)
      pc := if gget g r - 1 = 0 then g.pc + 4 else branchTarget g.pc off
      budget := g.budget - (if gget g r - 1 = 0 then 1 else 2) } s) := by
  show execDbnz p r off s = _
  unfold execDbnz
  rw [(issue_runs hissues _).1]
  by_cases hlast : gget g r - 1 = 0
  · simp only [if_pos hlast, hissues.finishNext_eq, gset_eq]
  · simp only [if_neg hlast, hissues.finish_eq, gset_eq]

/-- Settles O18: the register is written in both cases; the target and the cycles depend on it being 0. -/
theorem ezDecrementAndBranch : Obligations.EzDecrementAndBranch := by
  unfold Obligations.EzDecrementAndBranch
  intro p r off s g
  obtain ⟨-, -, hillegal⟩ := legalWord_encB 0 off
  exact ⟨hillegal, exec_dbnz⟩

end Sys2Proof.Machine
end

section
/-! SUPPORT. Octet memories and little-endian numbers (R7): lengths, bounds, and octets read back after a write. -/
namespace Sys2Proof.Machine

theorem length_memRdN (m : List Host.Cell) (a n : Nat) : (memRdN m a n).length = n := by
  induction n generalizing a with
  | zero => rfl
  | succ n ih => rw [memRdN, List.length_cons, ih]

theorem leNat_lt (l : List Byte) : leNat l < 2 ^ (8 * l.length) := by
  induction l with
  | nil => decide
  | cons b l ih =>
    have := b.isLt
    rw [leNat, List.length_cons, Nat.mul_succ, Nat.pow_add]
    omega

theorem leNat_memRdN_lt (m : List Host.Cell) (a n : Nat) : leNat (memRdN m a n) < 2 ^ (8 * n) := by
  have := leNat_lt (memRdN m a n)
  rwa [length_memRdN] at this

theorem getElem_leOctets {n v i : Nat} (hi : i < n) :
    (leOctets n v)[i]'(by rwa [length_leOctets]) = BitVec.ofNat 8 (v / 256 ^ i) := by
  induction n generalizing v i with
  | zero => exact absurd hi (Nat.not_lt_zero i)
  | succ n ih =>
    cases i with
    | zero => simp [leOctets]
    | succ i =>
      simp only [leOctets, List.getElem_cons_succ]
      rw [ih (Nat.lt_of_succ_lt_succ hi), Nat.div_div_eq_div_mul, Nat.pow_succ']

/-- The octets of a canonical memory that were written read back. -/
theorem memRd_memWrN_self {m : List Host.Cell} (hm : memWf none m = true) {l : List Byte} {a i : Nat} (hi : i < l.length) :
    memRd (memWrN m a l) (a + i) = l[i] := by
  induction l generalizing m a i with
  | nil => exact absurd hi (Nat.not_lt_zero i)
  | cons b l ih =>
    rw [memWrN]
    cases i with
    | zero => exact (memRd_memWrN_other _ (a + 1) a l (.inl (Nat.lt_succ_self a))).trans (memRd_memWr_self m a b hm)
    | succ i =>
      have hrest := ih (memWf_memWr m a b hm) (a := a + 1) (Nat.lt_of_succ_lt_succ hi)
      rwa [Nat.add_assoc, Nat.add_comm 1 i] at hrest

end Sys2Proof.Machine
end

section
/-! SUPPORT. The data partition in the memory map (R268 to R270, R275 to R279): where an access to it lies and what loads,
stores and the stack do there, and the statements O19, O20, O21 and O24. -/
namespace Sys2Proof.Machine

theorem placeAt_data {g : Prog} {a n : Nat} (h : InData g a n) : placeAt g a n = some (.data (a - 0x10000)) := by
  obtain ⟨hlo, hhi, hfits⟩ := h
  unfold placeAt
  rw [if_neg (by omega), if_pos ⟨hlo, hhi⟩, if_pos hfits]

/-! Calls and returns. -/

theorem stackAt_data {g : Prog} {sp : W32} (haligned : sp.toNat % 4 = 0) (hdata : InData g sp.toNat 4) :
    stackAt g sp = .inr (sp.toNat - 0x10000) := by
  unfold stackAt
  rw [if_neg (not_not_intro haligned), placeAt_data hdata]

/-- The stack pointer is written as any register but g0. -/
theorem gset_sp (v : W32) (g : Prog) : gset 15 v g = { g with regs := g.regs.set 15 v } := gset_eq 15 v g

/-- The program after a call to a target (R275, R279). -/
def called (g : Prog) (target : W32) : Prog :=
  { g with
    regs := g.regs.set 15 (gget g 15 - 4), pc := target, budget := g.budget - 3
    data := memWrN g.data ((gget g 15 - 4).toNat - 0x10000) (leOctets 4 (g.pc + 4).toNat) }

theorem callTo_data {s : State} {p : Nat} {w : W32} {g : Prog} (hissues : Issues s p w g) (target : W32)
    (haligned : (gget g 15).toNat % 4 = 0) (hdata : InData g (gget g 15 - 4).toNat 4) :
    callTo p target g (setProg p g s) = setProg p (called g target) s := by
  have hbelow : (gget g 15 - 4).toNat % 4 = 0 := by
    bv_omega
  unfold callTo
  simp only [haligned, stackAt_data hbelow hdata, ne_eq, not_true_eq_false, if_false, hissues.finish_eq, gset_sp]
  rfl

section
variable {s : State} {p : Nat} {g : Prog} (haligned : (gget g 15).toNat % 4 = 0)
include haligned

theorem exec_callCc_taken {cond : Fld4} {off : BitVec 22} (hissues : Issues s p (encB 0x31 cond off) g)
    (htrue : condTrue g.flags cond = true) (hdata : InData g (gget g 15 - 4).toNat 4) :
    exec (.callCc p cond off) s = .next (setProg p (called g (branchTarget g.pc off)) s) := by
  show execCallCc p cond off s = _
  unfold execCallCc
  rw [(issue_runs hissues _).1, if_pos htrue, callTo_data hissues _ haligned hdata]

theorem exec_callr {a : Fld4} (hissues : Issues s p (encR 0x03 0 a 0 0 0x001) g)
    (hdata : InData g (gget g 15 - 4).toNat 4) :
    exec (.callr p a) s = .next (setProg p (called g (gget g a)) s) := by
  show execCallr p a s = _
  unfold execCallr
  rw [(issue_runs hissues _).1, callTo_data hissues _ haligned hdata]

theorem exec_ret (hissues : Issues s p (encR 0x03 0 0 0 0 0x002) g) (hdata : InData g (gget g 15).toNat 4)
    (hgood : badWord s (dataMem g.core) ((gget g 15).toNat - 0x10000) = false) :
    exec (.ret p) s = .next (setProg p { g with
      regs := g.regs.set 15 (gget g 15 + 4)
      budget := g.budget - (3 + softAt s (dataMem g.core) ((gget g 15).toNat - 0x10000))
      pc := BitVec.ofNat 32 (leNat (memRdN g.data ((gget g 15).toNat - 0x10000) 4)) } s) := by
  have hgood' : badWord (setProg p g s) (dataMem g.core) ((gget g 15).toNat - 0x10000) = false := hgood
  show execRet p s = _
  unfold execRet
  rw [(issue_runs hissues _).1]
  unfold retFrom
  simp only [stackAt_data haligned hdata, hgood', Bool.false_eq_true, if_false, hissues.finish_eq, gset_sp]
  rfl

end

theorem exec_callCc_passes {s : State} {p : Nat} {cond : Fld4} {off : BitVec 22} {g : Prog}
    (hissues : Issues s p (encB 0x31 cond off) g) (hfalse : condTrue g.flags cond = false) :
    exec (.callCc p cond off) s = .next (setProg p (stepped g 1) s) := by
  show execCallCc p cond off s = _
  unfold execCallCc
  rw [(issue_runs hissues _).1, if_neg (ne_true_of_eq_false hfalse), hissues.finishNext_eq]
  rfl

/-- Settles O19: a call stores the return address below sp, and a return loads it. -/
theorem ezCallsAndReturns : Obligations.EzCallsAndReturns := by
  unfold Obligations.EzCallsAndReturns
  intro p cond a off s g sp pushed
  exact ⟨fun hissues htrue haligned hdata => exec_callCc_taken haligned hissues htrue hdata, exec_callCc_passes,
    fun hissues haligned hdata => exec_callr haligned hissues hdata,
    fun hissues haligned hdata hgood => exec_ret haligned hissues hdata hgood⟩

/-! Addresses and base registers. -/

/-- Settles O20: each mode's address is the branch of the definition that its number takes. -/
theorem ezEffectiveAddresses : Obligations.EzEffectiveAddresses := by
  unfold Obligations.EzEffectiveAddresses
  exact fun g a b sc disp size => ⟨rfl, rfl, rfl, rfl, rfl⟩

theorem baseUpdate_eq (a : Fld4) (mode : BitVec 3) (size : Nat) (g : Prog) :
    baseUpdate a mode size g = { g with regs := baseRegs g g.regs a mode size } := by
  unfold baseUpdate baseRegs
  by_cases ha : a = 0
  · simp only [gset_eq, regWritten, if_pos ha]
    split <;> rfl
  · simp only [gset_eq, regWritten, if_neg ha]
    split
    · next hone => rw [if_pos hone]
    · next htwo => rw [if_neg (by omega), if_pos htwo]
    · next hone htwo => rw [if_neg hone, if_neg htwo]

/-- The base register's update depends on the program through the base register alone. -/
theorem baseRegs_congr {g h : Prog} {a : Fld4} {mode : BitVec 3}
    (hbase : mode.toNat = 1 ∨ mode.toNat = 2 → gget h a = gget g a) (regs : List W32) (size : Nat) :
    baseRegs h regs a mode size = baseRegs g regs a mode size := by
  unfold baseRegs
  by_cases hone : mode.toNat = 1
  · rw [hbase (.inl hone)]
  · by_cases htwo : mode.toNat = 2
    · rw [hbase (.inr htwo)]
    · simp only [if_neg hone, if_neg htwo]

theorem baseRegs_of_regs_eq {g h : Prog} (hregs : h.regs = g.regs) (regs : List W32) (a : Fld4) (mode : BitVec 3)
    (size : Nat) : baseRegs h regs a mode size = baseRegs g regs a mode size :=
  baseRegs_congr (fun _ => by unfold gget; rw [hregs]) ..

theorem gget_regWritten_other {g h : Prog} {a d : Fld4} {v : W32} (hne : d ≠ a) (hregs : h.regs = regWritten g d v) :
    gget h a = gget g a := by
  have hidx : d.toNat ≠ a.toNat := fun e => hne (BitVec.eq_of_toNat_eq e)
  unfold gget lget
  rw [hregs, regWritten]
  by_cases hd : d = 0
  · rw [if_pos hd]
  · rw [if_neg hd, List.getD_eq_getElem?_getD, List.getElem?_set_ne hidx, ← List.getD_eq_getElem?_getD]

/-! Loads (R268 to R270, R279). -/

theorem loadFrom_data {s : State} {g : Prog} {addr : W32} {n : Nat} (haligned : addr.toNat % n = 0)
    (hdata : InData g addr.toNat n) (hgood : badWord s (dataMem g.core) (addr.toNat - 0x10000) = false) :
    loadFrom s g addr n = .ok (memRdN g.data (addr.toNat - 0x10000) n) g.latches
      (.inl (2 + softAt s (dataMem g.core) (addr.toNat - 0x10000))) := by
  unfold loadFrom
  simp only [haligned, placeAt_data hdata, hgood, ne_eq, not_true_eq_false, Bool.false_eq_true, if_false]

/-- A load from data that issues completes with its octets in the destination. -/
theorem runLoad_data {s : State} {p : Nat} {w : W32} {g : Prog} {a : Fld4} {mode : BitVec 3} {b : Fld4} {sc : BitVec 2}
    {disp : BitVec 9} {size o : Nat} (put : List Byte → Prog → Prog) (hissues : Issues s p w g)
    (haligned : (effAddr g a mode b sc disp size).toNat % size = 0)
    (hdata : InData g (effAddr g a mode b sc disp size).toNat size)
    (hgood : badWord s (dataMem g.core) ((effAddr g a mode b sc disp size).toNat - 0x10000) = false)
    (ho : (effAddr g a mode b sc disp size).toNat - 0x10000 = o) :
    issue p w (runLoad p a mode b sc disp size put) s =
      let h := baseUpdate a mode size (put (memRdN g.data o size) g)
      setProg p { h with pc := g.pc + 4, budget := h.budget - (2 + softAt s (dataMem g.core) o) } s := by
  subst ho
  obtain ⟨g0, hholds, -, hfetched⟩ := id hissues
  obtain ⟨-, -, hphase, -⟩ := holder_prog hholds
  have hrunning : g.phase = .running := hfetched ▸ hphase
  have hsame : { g with latches := g.latches, phase := .running } = g := by rw [← hrunning]
  have hload := loadFrom_data (s := setProg p g s) haligned hdata hgood
  have hnear : histMiss g (effAddr g a mode b sc disp size) size = false := by
    unfold histMiss
    rw [placeAt_data hdata]
  rw [(issue_runs hissues _).1]
  unfold runLoad
  simp only [hload, hnear, costOf, Bool.false_and, Bool.false_eq_true, if_false, hissues.finishNext_eq, hsame]
  rfl

/-- A load from data into a general register that is not the base register of an update (R269). -/
theorem runLoad_register {s : State} {p : Nat} {w : W32} {g : Prog} {d a : Fld4} {mode : BitVec 3} {b : Fld4}
    {sc : BitVec 2} {disp : BitVec 9} {size : Nat} {put : List Byte → Prog → Prog} {v : W32} (hissues : Issues s p w g)
    (haligned : (effAddr g a mode b sc disp size).toNat % size = 0)
    (hdata : InData g (effAddr g a mode b sc disp size).toNat size)
    (hgood : badWord s (dataMem g.core) ((effAddr g a mode b sc disp size).toNat - 0x10000) = false)
    (hapart : mode.toNat = 1 ∨ mode.toNat = 2 → d ≠ a)
    (hput : put (memRdN g.data ((effAddr g a mode b sc disp size).toNat - 0x10000) size) g = gset d v g) :
    issue p w (runLoad p a mode b sc disp size put) s =
      setProg p { stepped g (2 + softAt s (dataMem g.core) ((effAddr g a mode b sc disp size).toNat - 0x10000)) with
        regs := baseRegs g (regWritten g d v) a mode size } s := by
  have hbase : baseRegs { g with regs := regWritten g d v } (regWritten g d v) a mode size =
      baseRegs g (regWritten g d v) a mode size :=
    baseRegs_congr (fun hupdates => gget_regWritten_other (hapart hupdates) rfl) ..
  rw [runLoad_data put hissues haligned hdata hgood rfl, hput, gset_eq, baseUpdate_eq]
  simp only [hbase]
  rfl

/-- A load from data into an accumulator, which is never the base register (R270). -/
theorem runLoad_accumulator {s : State} {p : Nat} {w : W32} {g : Prog} {d a : Fld4} {mode : BitVec 3} {b : Fld4}
    {sc : BitVec 2} {disp : BitVec 9} {size : Nat} {put : List Byte → Prog → Prog} {v : W64} (hissues : Issues s p w g)
    (haligned : (effAddr g a mode b sc disp size).toNat % size = 0)
    (hdata : InData g (effAddr g a mode b sc disp size).toNat size)
    (hgood : badWord s (dataMem g.core) ((effAddr g a mode b sc disp size).toNat - 0x10000) = false)
    (hput : put (memRdN g.data ((effAddr g a mode b sc disp size).toNat - 0x10000) size) g = aset d v g) :
    issue p w (runLoad p a mode b sc disp size put) s =
      setProg p { stepped g (2 + softAt s (dataMem g.core) ((effAddr g a mode b sc disp size).toNat - 0x10000)) with
        a0 := if d = 0 then v else g.a0, a1 := if d = 0 then g.a1 else v, regs := baseRegs g g.regs a mode size } s := by
  have hregs : (aset d v g).regs = g.regs := by
    unfold aset
    split <;> rfl
  rw [runLoad_data put hissues haligned hdata hgood rfl, hput, baseUpdate_eq, baseRegs_of_regs_eq hregs, hregs, aset]
  by_cases hd : d = 0
  · simp only [if_pos hd]
    rfl
  · simp only [if_neg hd]
    rfl

/-! What the octets are worth in a register. -/

theorem sInt_eq_toInt {n v : Nat} (hn : 0 < n) (hv : v < 2 ^ (8 * n)) : sInt n v = (BitVec.ofNat (8 * n) v).toInt := by
  have htwice : 2 ^ (8 * n) = 2 * 2 ^ (8 * n - 1) := by rw [← Nat.pow_succ']; congr 1; omega
  rw [sInt, BitVec.toInt_eq_toNat_cond, BitVec.toNat_ofNat, Nat.mod_eq_of_lt hv]
  by_cases hlow : v < 2 ^ (8 * n - 1)
  · rw [if_pos hlow, if_pos (by omega)]
  · rw [if_neg hlow, if_neg (by omega)]
    exact congrArg ((v : Int) - ·) (Int.natCast_pow 2 (8 * n)).symm

theorem putS_memRdN {n : Nat} (hn : 0 < n) (d : Fld4) (m : List Host.Cell) (o : Nat) (g : Prog) :
    putS d (memRdN m o n) g = gset d ((BitVec.ofNat (8 * n) (leNat (memRdN m o n))).signExtend 32) g := by
  rw [putS, length_memRdN, sInt_eq_toInt hn (leNat_memRdN_lt m o n)]
  rfl

theorem putZ_memRdN {n : Nat} (hn : 8 * n ≤ 32) (d : Fld4) (m : List Host.Cell) (o : Nat) (g : Prog) :
    putZ d (memRdN m o n) g = gset d ((BitVec.ofNat (8 * n) (leNat (memRdN m o n))).setWidth 32) g := by
  rw [putZ, BitVec.setWidth_ofNat_of_le_of_lt hn (leNat_memRdN_lt m o n)]

/-- Settles O21: each load completes with the octets of its address, extended as the row says. -/
theorem ezLoadsFromData : Obligations.EzLoadsFromData := by
  unfold Obligations.EzLoadsFromData
  intro p d a mode b sc disp s g ea ready old cost apart done
  exact ⟨
    fun ⟨hissues, haligned, hdata, hgood⟩ hapart =>
      congrArg _ (runLoad_register hissues haligned hdata hgood hapart rfl),
    fun ⟨hissues, haligned, hdata, hgood⟩ hapart =>
      congrArg _ (runLoad_register hissues haligned hdata hgood hapart (putS_memRdN (by decide) ..)),
    fun ⟨hissues, haligned, hdata, hgood⟩ hapart =>
      congrArg _ (runLoad_register hissues haligned hdata hgood hapart (putZ_memRdN (by decide) ..)),
    fun ⟨hissues, haligned, hdata, hgood⟩ hapart =>
      congrArg _ (runLoad_register hissues haligned hdata hgood hapart (putS_memRdN (by decide) ..)),
    fun ⟨hissues, haligned, hdata, hgood⟩ hapart =>
      congrArg _ (runLoad_register hissues haligned hdata hgood hapart (putZ_memRdN (by decide) ..)),
    fun ⟨hissues, haligned, hdata, hgood⟩ => congrArg _ (runLoad_accumulator hissues haligned hdata hgood rfl)⟩

/-! Stores. -/

theorem storeTo_data {g : Prog} {addr : W32} {octs : List Byte} (haligned : addr.toNat % octs.length = 0)
    (hdata : InData g addr.toNat octs.length) :
    storeTo g addr octs = .ok (fun g => { g with data := memWrN g.data (addr.toNat - 0x10000) octs }) := by
  unfold storeTo
  simp only [haligned, placeAt_data hdata, ne_eq, not_true_eq_false, if_false]

/-- A store to data that issues completes with its octets in the data partition. -/
theorem runStore_data {s : State} {p : Nat} {w : W32} {g : Prog} {a : Fld4} {mode : BitVec 3} {b : Fld4} {sc : BitVec 2}
    {disp : BitVec 9} {octs : List Byte} (hissues : Issues s p w g)
    (haligned : (effAddr g a mode b sc disp octs.length).toNat % octs.length = 0)
    (hdata : InData g (effAddr g a mode b sc disp octs.length).toNat octs.length) :
    runStore p a mode b sc disp octs g (setProg p g s) =
      setProg p { stepped g 1 with
        data := memWrN g.data ((effAddr g a mode b sc disp octs.length).toNat - 0x10000) octs
        regs := baseRegs g g.regs a mode octs.length } s := by
  unfold runStore
  rw [storeTo_data haligned hdata]
  simp only [hissues.finishNext_eq, baseUpdate_eq]
  rw [baseRegs_of_regs_eq (g := g) rfl]
  rfl

/-- Each row of the stores runs the store of the octets of its value. -/
theorem exec_storeRows : ∀ row ∈ storeRows, ∀ (p : Nat) (d a : Fld4) (mode : BitVec 3) (b : Fld4) (sc : BitVec 2)
    (disp : BitVec 9) (s : State), exec (row.1 p d a mode b sc disp) s =
      .next (issue p (encM row.2.1 d a mode b sc disp)
        (fun g => runStore p a mode b sc disp (leOctets row.2.2.1 (row.2.2.2 g d)) g) s) := by
  simp only [storeRows, List.forall_mem_cons]
  exact ⟨fun _ _ _ _ _ _ _ _ => rfl, fun _ _ _ _ _ _ _ _ => rfl, fun _ _ _ _ _ _ _ _ => rfl,
    fun _ _ _ _ _ _ _ _ => rfl, fun _ h => absurd h List.not_mem_nil⟩

/-- Settles O24: the octets of the value lie from the address on, and the other octets as before. -/
theorem ezStoresToData : Obligations.EzStoresToData := by
  unfold Obligations.EzStoresToData
  intro row hrow p d a mode b sc disp s g size ea hissues haligned hdata
  have hlen : (leOctets size (row.2.2.2 g d)).length = size := length_leOctets ..
  refine ⟨memWrN g.data (ea - 0x10000) (leOctets size (row.2.2.2 g d)), ?_, fun k hk => ?_, fun hm i hi => ?_⟩
  · have hstore := runStore_data (octs := leOctets size (row.2.2.2 g d)) (a := a) (mode := mode) (b := b) (sc := sc)
      (disp := disp) hissues
    rw [hlen] at hstore
    rw [exec_storeRows row hrow, (issue_runs hissues _).1]
    exact congrArg _ (hstore haligned hdata)
  · exact memRd_memWrN_other _ _ _ _ (hlen.symm ▸ hk)
  · rw [memRd_memWrN_self hm (hlen.symm ▸ hi), getElem_leOctets hi]

end Sys2Proof.Machine
end

section
/-! SUPPORT. Configuration commands that are applied to a state with their preliminary work charged (R27, R388), and quorums
(R502, R505). -/
namespace Sys2Proof.Machine

/-- What runs has been accepted by the mode (R372). -/
theorem modeOk_of_runnable {s : State} {c : Cmd} (hruns : runnable s c = true) : modeOk s c = true := by
  unfold runnable at hruns
  split at hruns
  · exact absurd hruns Bool.false_ne_true
  · exact (Bool.and_eq_true_iff.1 hruns).2

section
variable {check : Cmd → State → Option Nat} {eff : Cmd → State → Eff} {c : Cmd} {s v u : State} {j : JEntry}
  (hj : jent s c.tok = some j)
include hj

/-- Applied to v, a command whose check fails ends with its status, and the rest of v stands. -/
theorem applyConfig_refused {status : Nat} (hcheck : check c v = some status) (hjournal : v.journal = s.journal) :
    Ends s (applyConfig check eff c v) c.tok status 0 [] ∧
      Within [.journal, .span, .outbox] v (applyConfig check eff c v) := by
  rw [applyConfig_fails hcheck]
  exact ⟨settle_ends _ _ _ hjournal hj, settle_within _ _ _ _ _⟩

/-- Applied to v, a command whose check passes and whose effect makes u ends OK with one epoch more, and the other parts of u
stand. -/
theorem applyConfig_ends (hcheck : check c v = none) (heff : eff c v = done u) (hjournal : u.journal = s.journal) :
    Ends s (applyConfig check eff c v) c.tok 0 0 [] ∧ (applyConfig check eff c v).sys = (bumpEpoch u).sys ∧
      Within [.sys, .journal, .span, .outbox] u (applyConfig check eff c v) := by
  let m := mirrorItem (.config c (v.sys.epoch + 1)) u
  have hruns : applyConfig check eff c v = settle c.tok 0 0 [] (bumpEpoch m) := by
    rw [applyConfig_passes hcheck (by rw [heff]; rfl), heff]
    rfl
  have hsys : (bumpEpoch m).sys = (bumpEpoch u).sys := by
    unfold bumpEpoch
    dsimp only
    rw [mirrorItem_sys]
  rw [hruns]
  exact ⟨settle_ends 0 0 [] ((mirrorItem_journal _ u).trans hjournal) hj, (settle_sys ..).trans hsys,
    (settle_goes c.tok 0 0 [] _ (bumpEpoch_goes m (mirrorItem_goes _ u Goes.rfl (by decide)) (by decide))
      (by decide)).within⟩

/-- The same, where neither the work charged nor the effect touches the system part. -/
theorem applyConfig_applied {ps : List Part} (hcheck : check c v = none) (heff : eff c v = done u) (hwithin : Within ps s u)
    (hparts : Part.journal ∉ ps ∧ Part.sys ∉ ps) :
    Applied ps s (applyConfig check eff c v) c ∧
      Within [.sys, .journal, .span, .outbox] u (applyConfig check eff c v) := by
  obtain ⟨hjournal, hsys⟩ := hparts
  obtain ⟨hends, hepoch, hkept⟩ := applyConfig_ends hj hcheck heff (hwithin .journal hjournal)
  exact ⟨⟨hends, newEpoch_bumpEpoch (hwithin .sys hsys) hepoch,
    (hwithin.mono (List.subset_append_right ..)).trans (hkept.mono (List.subset_append_left ..))⟩, hkept⟩

end

/-! Quorums (R505). -/

section
variable {s t : State} (hslots : t.keys.slots = s.keys.slots) (hcorrupt : t.keys.corrupt = s.keys.corrupt)
include hslots hcorrupt

theorem tokenCounts_congr (c : Cmd) (nonce : List Byte) : tokenCounts c nonce t = tokenCounts c nonce s := by
  funext token seen
  unfold tokenCounts slotKey
  rw [hslots, hcorrupt]

theorem countTokens_congr (c : Cmd) (nonce : List Byte) (n : Nat) (seen : List Nat) :
    countTokens c nonce t n seen = countTokens c nonce s n seen := by
  induction n generalizing seen with
  | zero => rfl
  | succ n ih => simp only [countTokens, tokenCounts_congr hslots hcorrupt, ih]

/-- A quorum is decided by the journal, the officers' slots and the quorum size. -/
theorem quorumCheck_congr (hquorum : t.keys.quorum = s.keys.quorum) (hjournal : t.journal = s.journal) (c : Cmd) :
    quorumCheck c t = quorumCheck c s := by
  have hnonce : nonceOf c t = nonceOf c s := by
    unfold nonceOf jent
    rw [hjournal]
  unfold quorumCheck
  simp only [hnonce, hslots, hquorum, countTokens_congr hslots hcorrupt]

end

theorem noteQuorum_within (c : Cmd) (s : State) : Within [.pke, .keys, .log, .budget] s (noteQuorum c s) :=
  (noteQuorum_goes c s Goes.rfl (List.Subset.refl _)).within

theorem event_keys_window (b : Nat) (s : State) :
    (event 9 b s).keys = { s.keys with evt := setBit s.keys.evt b } := logEv_within _ _ _ (setEvt 9 b s) .keys (by decide)

/-- Of the key store a quorum changes a counter and at most an event bit (R506). -/
theorem keys_noteQuorum (c : Cmd) (s : State) :
    ∃ cnt evt, (noteQuorum c s).keys = { s.keys with cnt := cnt, evt := evt } := by
  have hwork (n : Nat) : (tokensWork n c.fn s).keys = s.keys :=
    (tokensWork_goes n c.fn s Goes.rfl (List.Subset.refl _)).within .keys (by decide)
  unfold noteQuorum
  dsimp only
  split
  · rw [event_keys_window]
    simp only [cntKst, hwork]
    exact ⟨_, _, rfl⟩
  · simp only [cntKst, hwork]
    exact ⟨_, s.keys.evt, rfl⟩

theorem quorumCheck_noteQuorum (c : Cmd) (s : State) : quorumCheck c (noteQuorum c s) = quorumCheck c s := by
  obtain ⟨cnt, evt, hkeys⟩ := keys_noteQuorum c s
  exact quorumCheck_congr (by rw [hkeys]) (by rw [hkeys]) (by rw [hkeys]) (noteQuorum_within c s .journal (by decide)) c

section
variable {check : Cmd → State → Option Nat} {eff : Cmd → State → Eff} {c : Cmd} {s : State}

theorem applyQuorum_passes (hquorum : quorumCheck c s = none) :
    applyQuorum check eff c s = applyConfig check eff c (noteQuorum c s) := by
  unfold applyQuorum applyConfig
  simp only [quorumCheck_noteQuorum, hquorum]

theorem applyQuorum_refused {status : Nat} (hquorum : quorumCheck c s = some status) :
    applyQuorum check eff c s = applyConfig quorumCheck eff c (noteQuorum c s) := by
  unfold applyQuorum applyConfig
  simp only [quorumCheck_noteQuorum, hquorum]

end

end Sys2Proof.Machine
end

section
/-! SUPPORT. Firmware images (R601, R604 to R611): banks, committed banks and measurements after an image is written, committed
or taken. -/
namespace Sys2Proof.Machine

/-! Verification (R604). -/

theorem fwWork_within (c : Cmd) (s : State) : Within [.pke, .log, .budget] s (fwWork c s) :=
  (fwWork_goes c s Goes.rfl (List.Subset.refl _)).within

/-- The verdict on an image does not depend on the work of verifying it. -/
theorem fwloadCheck_fwWork (c : Cmd) (s : State) : fwloadCheck c (fwWork c s) = fwloadCheck c s := by
  unfold fwloadCheck fused
  rw [fwWork_within c s .fw (by decide), fwWork_within c s .freeCtr (by decide)]

/-! The bank that is written (R605). -/

/-- In t the image is in the bank of its component that was not committed in s. -/
def Banked (s t : State) (i : FwImage) : Prop :=
  i.comp < s.fw.banks.length → lget t.fw.banks i.comp default =
    (if lget s.fw.committed i.comp false then (some i, (lget s.fw.banks i.comp default).2)
      else ((lget s.fw.banks i.comp default).1, some i))

theorem banked_writeBank {s u t : State} (hu : u.fw = s.fw) (i : FwImage) (ht : t.fw.banks = (writeBank i u).fw.banks) :
    Banked s t i := by
  intro hlength
  rw [ht]
  unfold writeBank
  dsimp only
  rw [hu, lget_lupd_self _ _ _ _ hlength]

theorem committed_commitBank {comp : Nat} {s : State} (hlength : comp < s.fw.committed.length) :
    lget (commitBank comp s).fw.committed comp false = !lget s.fw.committed comp false :=
  lget_lupd_self _ _ _ _ hlength

/-- The state in which the image of a load is in its bank (R605). -/
def fwWritten (c : Cmd) (s : State) : State := writeBank (fwImage c) { s with freeCtr := s.freeCtr + 1 }

section
variable {c : Cmd} {s v : State} (hv : v.fw = s.fw)
include hv

theorem banked_fwWritten {t : State} (ht : t.fw.banks = (fwWritten c v).fw.banks) : Banked s t (fwImage c) :=
  banked_writeBank (u := { v with freeCtr := v.freeCtr + 1 }) hv (fwImage c) ht

theorem committed_fwWritten : (fwWritten c v).fw.committed = s.fw.committed := (congrArg Firmware.committed hv :)

theorem shadow_fwWritten : (fwWritten c v).fw.shadow = s.fw.shadow := (congrArg Firmware.shadow hv :)

end

/-- The state in which an image waits for the switch of its component. -/
def fwShadowed (c : Cmd) (s : State) : State :=
  { fwWritten c s with fw := { (fwWritten c s).fw with
    shadow := s.fw.shadow.filter (fun e => e.2.comp != (fwImage c).comp) ++ [(c.tok, fwImage c)] } }

theorem fwloadEff_primer {c : Cmd} (hprimer : fwType c = 0) (s : State) :
    fwloadEff c s = done (commitBank 0 (fwWritten c s)) := by
  unfold fwloadEff
  exact congrArg done (if_pos hprimer)

theorem fwloadEff_component {c : Cmd} (hcomponent : fwType c ≠ 0) (s : State) :
    fwloadEff c s = done (fwShadowed c s) := by
  unfold fwloadEff
  exact congrArg done (if_neg hcomponent)

/-! An image that takes effect (R601, R611). -/

/-- The same banks are committed and the same images wait in two states. -/
structure KeepsImages (s t : State) : Prop where
  committed : t.fw.committed = s.fw.committed
  putty : t.fw.putty = s.fw.putty
  shadow : t.fw.shadow = s.fw.shadow

theorem fw_measure (i : Nat) (m : List Byte) (s : State) :
    (measure i m s).fw = { s.fw with
      meas := lupd s.fw.meas i (fun old => fit 64 (Config.hash 5 (fit 64 old ++ fit 64 m))) } :=
  logEv_within _ _ _ _ .fw (by decide)

theorem meas_measureLife {i : Nat} (hi : i ≠ 8) (s : State) :
    lget (measureLife s).fw.meas i [] = lget s.fw.meas i [] := by
  unfold measureLife
  rw [fw_measure]
  exact lget_lupd_other _ _ _ _ _ hi

theorem keepsImages_measure (i : Nat) (m : List Byte) (s : State) : KeepsImages s (measure i m s) := by
  constructor <;> rw [fw_measure]

/-- Blowing a security version keeps the images, and of the measurements it extends MEAS8 alone (R601, R611). -/
theorem blowSvn_keeps (comp svn : Nat) (s : State) :
    KeepsImages s (blowSvn comp svn s) ∧ ∀ i, i ≠ 8 → lget (blowSvn comp svn s).fw.meas i [] = lget s.fw.meas i [] := by
  unfold blowSvn
  split
  · exact ⟨⟨rfl, rfl, rfl⟩, fun _ _ => rfl⟩
  split
  · let u : State := { s with fw := { s.fw with svns := lupd s.fw.svns comp (fun _ => svn) } }
    obtain ⟨hcommitted, hputty, hshadow⟩ := keepsImages_measure 8 (Config.hash 5 (lifecycle u)) u
    exact ⟨⟨hcommitted, hputty, hshadow⟩, fun i hi => meas_measureLife hi u⟩
  · exact ⟨⟨rfl, rfl, rfl⟩, fun _ _ => rfl⟩

theorem keepsImages_takeImage (comp : Nat) (i : FwImage) (s : State) : KeepsImages s (takeImage comp i s) := by
  obtain ⟨hcommitted, hputty, hshadow⟩ := (blowSvn_keeps comp i.svn (measure comp i.meas s)).1
  obtain ⟨hcommitted', hputty', hshadow'⟩ := keepsImages_measure comp i.meas s
  exact ⟨hcommitted.trans hcommitted', hputty.trans hputty', hshadow.trans hshadow'⟩

/-- An image that takes effect extends the measurement of its component. -/
theorem meas_takeImage {comp : Nat} (hcomp : comp < 8) {s : State} (hlength : comp < s.fw.meas.length) (i : FwImage) :
    lget (takeImage comp i s).fw.meas comp [] =
      fit 64 (Config.hash 5 (fit 64 (lget s.fw.meas comp []) ++ fit 64 i.meas)) := by
  unfold takeImage
  rw [(blowSvn_keeps comp i.svn _).2 comp (Nat.ne_of_lt hcomp), meas_measure hlength]

theorem takeImage_within (comp : Nat) (i : FwImage) (s : State) : Within [.log, .fw] s (takeImage comp i s) :=
  (takeImage_goes comp i s Goes.rfl (List.Subset.refl _)).within

end Sys2Proof.Machine
end

section
/-! SUPPORT. The svc. commands of modes, attestation and firmware, the swap and the switch (O51), one theorem per row. -/
namespace Sys2Proof.Machine

/-! svc.enter and svc.exit (R502, R591, R593). -/

theorem sys_logEv (type sev : Nat) (body : List W64) (s : State) : (logEv type sev body s).sys = s.sys :=
  logEv_within _ _ _ _ .sys (by decide)

theorem epoch_changeMode (m : Nat) (s : State) : (changeMode m s).sys.epoch = s.sys.epoch := by
  unfold changeMode
  split
  · rfl
  · dsimp only
    rw [sys_logEv]
    rfl

theorem wipeOwnerSlots_slots (s : State) : ∀ e ∈ (wipeOwnerSlots s).keys.slots, e.1 < 0x10 ∧ e.1 ≠ 3 ∧ e.1 ≠ 0xD := by
  intro e he
  have hkept := (List.mem_filter.1 he).2
  simpa only [Bool.and_eq_true, decide_eq_true_eq, bne_iff_ne, and_assoc] using hkept

section
variable {c : Cmd} {s : State} (happlies : mayApply s c = true)
include happlies

/-- Where both copies of the mode agree, svc.enter takes effect under its quorum. -/
theorem exec_svcEnter_eq (hgood : s.sys.mode.good = true) :
    exec (.svcEnter c) s = .next (applyQuorum noCheck svcEnterEff c s) := by
  have hmode := modeOk_of_runnable (mayApply_spec happlies).1
  show Host.Outcome.next (runConfigBy applyEnter c s) = _
  rw [runConfigBy_applies happlies]
  unfold applyEnter modeShadow
  simp only [hgood, hmode, if_true]

theorem exec_svcEnter (hgood : s.sys.mode.good = true) (hquorum : quorumCheck c s = none) :
    ∃ t, exec (.svcEnter c) s = .next t ∧ Ends s t c.tok 0 0 [] ∧ mode t = 4 ∧ t.sys.epoch = s.sys.epoch + 1 ∧
      Within [.sys, .journal, .pke, .keys, .span, .log, .budget, .outbox] s t := by
  obtain ⟨j, hj, -⟩ := runnable_jent (mayApply_spec happlies).1
  let v := noteQuorum c s
  have hnoted : Within [.pke, .keys, .log, .budget] s v := noteQuorum_within c s
  have hchanged : Within [.sys, .log] v (changeMode 4 v) :=
    (changeMode_goes 4 v Goes.rfl (List.Subset.refl _) (by decide)).within
  obtain ⟨hends, hsys, hkept⟩ := applyConfig_ends (check := noCheck) (eff := svcEnterEff) hj rfl rfl
    ((hchanged .journal (by decide)).trans (hnoted .journal (by decide)))
  refine ⟨_, exec_svcEnter_eq happlies hgood, ?_⟩
  rw [applyQuorum_passes hquorum]
  refine ⟨hends, (mode_congr hsys).trans (mode_changeMode (by decide) v), ?_,
    (hnoted.mono (by decide)).trans ((hchanged.mono (by decide)).trans (hkept.mono (by decide)))⟩
  calc _ = (changeMode 4 v).sys.epoch + 1 := congrArg Sys.epoch hsys
    _ = s.sys.epoch + 1 := by rw [epoch_changeMode, hnoted .sys (by decide)]

theorem exec_svcEnter_refused (hgood : s.sys.mode.good = true) {status : Nat} (hquorum : quorumCheck c s = some status) :
    ∃ t, exec (.svcEnter c) s = .next t ∧ Ends s t c.tok status 0 [] ∧ mode t = mode s := by
  obtain ⟨j, hj, -⟩ := runnable_jent (mayApply_spec happlies).1
  have hnoted := noteQuorum_within c s
  obtain ⟨hends, hkept⟩ := applyConfig_refused (eff := svcEnterEff) hj ((quorumCheck_noteQuorum c s).trans hquorum)
    (hnoted .journal (by decide))
  refine ⟨_, exec_svcEnter_eq happlies hgood, ?_⟩
  rw [applyQuorum_refused hquorum]
  exact ⟨hends, (mode_congr (hkept .sys (by decide))).trans (mode_congr (hnoted .sys (by decide)))⟩

theorem exec_svcExit_sealed (htarget : (cw c 8).toNat = 6) :
    ∃ t, exec (.svcExit c) s = .next t ∧ Applied [.keys, .fw] s t c ∧ t.keys.bbkek = none ∧
      t.keys.keysOk = false ∧ t.fw.exitSealed = true ∧ ∀ e ∈ t.keys.slots, e.1 < 0x10 ∧ e.1 ≠ 3 ∧ e.1 ≠ 0xD := by
  let w := wipeOwnerSlots (eraseBbkek s)
  let u : State := { w with fw := { w.fw with exitSealed := true } }
  have heff : svcExitEff c s = done u := by
    unfold svcExitEff
    exact if_pos htarget
  have hwithin : Within [.outbox, .keys, .fw] s u := by
    have hgoes := (svcExitEff_goes (ps := [.outbox, .keys, .fw]) c s Goes.rfl (by decide)).within
    rwa [heff] at hgoes
  obtain ⟨happlied, hkept⟩ := runConfig_applied (check := noCheck) happlies rfl heff hwithin (by decide)
  refine ⟨_, rfl, happlied, ?_⟩
  rw [hkept .keys (by decide), hkept .fw (by decide)]
  exact ⟨rfl, rfl, rfl, wipeOwnerSlots_slots (eraseBbkek s)⟩

theorem exec_svcExit_other (htarget : (cw c 8).toNat ≠ 6) : ∃ t, exec (.svcExit c) s = .next t ∧ Applied [] s t c :=
  have heff : svcExitEff c s = done s := by
    unfold svcExitEff
    exact if_neg htarget
  ⟨_, rfl, (runConfig_applied (check := noCheck) happlies rfl heff Goes.rfl.within (by decide)).1⟩

end

/-! svc.attest (R448, R612). -/

/-- An internal signature is the one over the hash with the random octets drawn for it; none on RETRY. -/
theorem internalSign_fst (owner fn : Nat) (purpose : String) (priv ctx octs : List Byte) (s : State) :
    (internalSign owner fn purpose priv ctx octs s).1 =
      (Config.pkeSign 0x0B priv ctx (Config.hash 5 octs) (signerRnd fn purpose s).1).map (fit 4627) := by
  unfold internalSign
  dsimp only
  cases Config.pkeSign 0x0B priv ctx (Config.hash 5 octs) (signerRnd fn purpose s).1 <;> rfl

/-- The signature of an attestation and the state that its signer leaves. -/
def attestSignature (c : Cmd) (s : State) : Option (List Byte) × State :=
  internalSign 0x74 c.fn "attest" identityKey (text "VK9612 attest") (evidence (attestNonce c) s) s

theorem attestSignature_within (c : Cmd) (s : State) :
    Within [.eng, .pke, .rng, .log, .budget] s (attestSignature c s).2 :=
  (internalSign_goes _ _ _ _ _ _ s Goes.rfl (List.Subset.refl _)).within

/-- The output of an attestation with signature g. -/
def attestOutput (c : Cmd) (s : State) (g : List Byte) : List Byte :=
  evidence (attestNonce c) s ++ g ++ (if 8499 + (Config.certificate 0).length ≤ cOutLen c then Config.certificate 0 else [])

section
variable {c : Cmd} {s : State} (hruns : runnable s c = true) (hready : signerReady s = true)
include hruns hready

theorem exec_svcAttest_signed {g : List Byte} (hsigned : (attestSignature c s).1 = some g) :
    ∃ t, exec (.svcAttest c) s = .next t ∧ Served [.eng, .pke, .rng, .log, .budget] s t c
      (BitVec.ofNat 32 (attestOutput c s g).length) (attestOutput c s g) := by
  obtain ⟨j, hj, -⟩ := runnable_jent hruns
  obtain ⟨u, hpair⟩ : ∃ u, attestSignature c s = (some g, u) := ⟨_, Prod.ext hsigned rfl⟩
  have hwithin := attestSignature_within c s
  rw [hpair] at hwithin
  have hexec : exec (.svcAttest c) s =
      .next (settle c.tok 0 (BitVec.ofNat 32 (attestOutput c s g).length) (attestOutput c s g) u) := by
    unfold attestSignature at hpair
    show execSvcAttest c s = _
    unfold execSvcAttest
    simp only [hruns, hready, hpair, Bool.and_self, if_true]
    rfl
  exact ⟨_, hexec, settle_ends _ _ _ (hwithin .journal (by decide)) hj,
    (hwithin.mono (by decide)).trans ((settle_within c.tok _ _ _ u : Within _ _ _).mono (by decide))⟩

theorem exec_svcAttest_retry (hretry : (attestSignature c s).1 = none) :
    ∃ t, exec (.svcAttest c) s = .next t ∧ Within [.eng, .pke, .rng, .log, .budget, .outbox] s t := by
  obtain ⟨u, hpair⟩ : ∃ u, attestSignature c s = (none, u) := ⟨_, Prod.ext hretry rfl⟩
  have hwithin := attestSignature_within c s
  rw [hpair] at hwithin
  have hexec : exec (.svcAttest c) s = .next u := by
    unfold attestSignature at hpair
    show execSvcAttest c s = _
    unfold execSvcAttest
    simp only [hruns, hready, hpair, Bool.and_self, if_true]
  exact ⟨_, hexec, hwithin.mono (by decide)⟩

end

/-! svc.fwload of images (R604 to R606). -/

section
variable {c : Cmd} {s : State}

theorem exec_svcFwloadImage_putty (htype : fwType c = 1) (hruns : runnable s c = true) (hturn : configTurn s c = true) :
    exec (.svcFwloadImage c) s = .next (fwloadPutty c s) := by
  show execSvcFwloadImage c s = _
  unfold execSvcFwloadImage
  rw [if_pos htype, if_pos (by rw [hruns, hturn]; rfl)]

/-- The state in which a control-firmware image waits for the swap. -/
def fwWaiting (c : Cmd) (s : State) : State :=
  let u := startCmd c.tok (fwWritten c s)
  { u with fw := { u.fw with putty := some (c.tok, fwImage c) } }

theorem fwWaiting_within (c : Cmd) (s : State) : Within [.journal, .fw, .freeCtr] s (fwWaiting c s) := by
  intro p hp
  cases p
  case journal | fw | freeCtr => exact absurd (by decide) hp
  all_goals rfl

theorem fwloadPutty_passes (hcheck : fwloadCheck c s = none) : fwloadPutty c s = fwWaiting c (fwWork c s) := by
  unfold fwloadPutty
  simp only [fwloadCheck_fwWork, hcheck]
  rfl

theorem fwloadPutty_fails {status : Nat} (hcheck : fwloadCheck c s = some status) :
    fwloadPutty c s = settle c.tok status 0 [] { fwWork c s with freeCtr := (fwWork c s).freeCtr + 1 } := by
  unfold fwloadPutty
  simp only [fwloadCheck_fwWork, hcheck]

/-- The command of the image runs on, and its image waits with its token. -/
theorem fwWaiting_waits {v : State} {j : JEntry} (hj : jent v c.tok = some j) :
    jent (fwWaiting c v) c.tok = some { j with started := true } ∧ (fwWaiting c v).fw.putty = some (c.tok, fwImage c) :=
  ⟨(jent_updJ_self c.tok _ v).trans (by rw [hj]; rfl), rfl⟩

/-- An image that waits for the swap is in its bank, which is not committed yet. -/
theorem banked_fwWaiting {v : State} (hv : v.fw = s.fw) :
    Banked s (fwWaiting c v) (fwImage c) ∧ (fwWaiting c v).fw.committed = s.fw.committed :=
  ⟨banked_fwWritten hv rfl, (committed_fwWritten (c := c) hv :)⟩

theorem exec_svcFwloadImage_waits (htype : fwType c = 1) (hruns : runnable s c = true) (hturn : configTurn s c = true)
    (hcheck : fwloadCheck c s = none) :
    ∃ t j, exec (.svcFwloadImage c) s = .next t ∧ Within [.journal, .pke, .log, .budget, .fw, .freeCtr] s t ∧
      jent t c.tok = some j ∧ j.started = true ∧ j.outcome = none ∧ t.fw.putty = some (c.tok, fwImage c) ∧
      Banked s t (fwImage c) ∧ t.fw.committed = s.fw.committed := by
  obtain ⟨j, hj, -, houtcome, -⟩ := runnable_jent hruns
  have hwork := fwWork_within c s
  have hentry : jent (fwWork c s) c.tok = some j := by
    unfold jent
    rw [hwork .journal (by decide)]
    exact hj
  obtain ⟨hstarted, hputty⟩ := fwWaiting_waits hentry
  obtain ⟨hbanked, hcommitted⟩ := banked_fwWaiting (c := c) (hwork .fw (by decide))
  have hexec : exec (.svcFwloadImage c) s = .next (fwWaiting c (fwWork c s)) := by
    rw [exec_svcFwloadImage_putty htype hruns hturn, fwloadPutty_passes hcheck]
  exact ⟨_, { j with started := true }, hexec, (hwork.mono (by decide)).trans ((fwWaiting_within c _).mono (by decide)),
    hstarted, rfl, houtcome, hputty, hbanked, hcommitted⟩

theorem exec_svcFwloadImage_putty_refused (htype : fwType c = 1) (hruns : runnable s c = true)
    (hturn : configTurn s c = true) {status : Nat} (hcheck : fwloadCheck c s = some status) :
    ∃ t, exec (.svcFwloadImage c) s = .next t ∧ Ends s t c.tok status 0 [] ∧ t.fw = s.fw := by
  obtain ⟨j, hj, -⟩ := runnable_jent hruns
  have hwork := fwWork_within c s
  refine ⟨_, (exec_svcFwloadImage_putty htype hruns hturn).trans (congrArg _ (fwloadPutty_fails hcheck)),
    settle_ends _ _ _ (hwork .journal (by decide)) hj, ?_⟩
  exact (settle_within _ _ _ _ _ .fw (by decide)).trans (hwork .fw (by decide))

section
variable (happlies : mayApply s c = true)
include happlies

theorem exec_svcFwloadImage_eq (htype : fwType c < 8) (hother : fwType c ≠ 1) :
    exec (.svcFwloadImage c) s = .next (applyConfig fwloadCheck fwloadEff c (fwWork c s)) := by
  show execSvcFwloadImage c s = _
  unfold execSvcFwloadImage
  rw [if_neg hother, if_pos htype, runConfigBy_applies happlies]
  rfl

/-- A verified image or trim is refused: its status, and the firmware part as before. -/
theorem applyConfig_fwWork_refused {check eff} {status : Nat} (hcheck : check c (fwWork c s) = some status) :
    Ends s (applyConfig check eff c (fwWork c s)) c.tok status 0 [] ∧
      (applyConfig check eff c (fwWork c s)).fw = s.fw := by
  obtain ⟨j, hj, -⟩ := runnable_jent (mayApply_spec happlies).1
  have hwork := fwWork_within c s
  obtain ⟨hends, hkept⟩ := applyConfig_refused (eff := eff) hj hcheck (hwork .journal (by decide))
  exact ⟨hends, (hkept .fw (by decide)).trans (hwork .fw (by decide))⟩

theorem exec_svcFwloadImage_refused (htype : fwType c < 8) (hother : fwType c ≠ 1) {status : Nat}
    (hcheck : fwloadCheck c s = some status) :
    ∃ t, exec (.svcFwloadImage c) s = .next t ∧ Ends s t c.tok status 0 [] ∧ t.fw = s.fw :=
  ⟨_, exec_svcFwloadImage_eq happlies htype hother,
    applyConfig_fwWork_refused happlies ((fwloadCheck_fwWork c s).trans hcheck)⟩

/-- An image whose checks pass is applied, and its effect makes the firmware part. -/
theorem exec_svcFwloadImage_applied (htype : fwType c < 8) (hother : fwType c ≠ 1) (hcheck : fwloadCheck c s = none)
    {u : State} (heff : fwloadEff c (fwWork c s) = done u) :
    ∃ t, exec (.svcFwloadImage c) s = .next t ∧ Applied [.pke, .log, .budget, .fw, .freeCtr] s t c ∧ t.fw = u.fw := by
  obtain ⟨j, hj, -⟩ := runnable_jent (mayApply_spec happlies).1
  have hwritten : Within [.fw, .freeCtr] (fwWork c s) u := by
    have hgoes := (fwloadEff_goes c (fwWork c s) Goes.rfl (List.Subset.refl _)).within
    rwa [heff] at hgoes
  obtain ⟨happlied, hkept⟩ := applyConfig_applied (ps := [.pke, .log, .budget, .fw, .freeCtr]) hj
    ((fwloadCheck_fwWork c s).trans hcheck) heff
    (((fwWork_within c s).mono (by decide)).trans (hwritten.mono (by decide))) (by decide)
  exact ⟨_, exec_svcFwloadImage_eq happlies htype hother, happlied, hkept .fw (by decide)⟩

/-- Primer's image is committed where it is written, another component's waits for its switch (R605). -/
theorem exec_svcFwloadImage (htype : fwType c < 8) (hother : fwType c ≠ 1) (hcheck : fwloadCheck c s = none) :
    ∃ t, exec (.svcFwloadImage c) s = .next t ∧ Applied [.pke, .log, .budget, .fw, .freeCtr] s t c ∧
      Banked s t (fwImage c) ∧
      (fwType c = 0 → t.fw.shadow = s.fw.shadow ∧ (0 < s.fw.committed.length →
        lget t.fw.committed 0 false = !lget s.fw.committed 0 false)) ∧
      (fwType c ≠ 0 → t.fw.committed = s.fw.committed ∧ (c.tok, fwImage c) ∈ t.fw.shadow) := by
  have hfw : (fwWork c s).fw = s.fw := fwWork_within c s .fw (by decide)
  have hcommitted := committed_fwWritten (c := c) hfw
  by_cases hprimer : fwType c = 0
  · obtain ⟨t, hexec, happlied, ht⟩ :=
      exec_svcFwloadImage_applied happlies htype hother hcheck (fwloadEff_primer hprimer (fwWork c s))
    refine ⟨t, hexec, happlied, banked_fwWritten hfw (by rw [ht]; rfl), fun _ => ⟨?_, fun hlength => ?_⟩,
      fun hcomponent => absurd hprimer hcomponent⟩
    · rw [ht]
      exact shadow_fwWritten (c := c) hfw
    · rw [ht, committed_commitBank (by rw [hcommitted]; exact hlength), hcommitted]
  · obtain ⟨t, hexec, happlied, ht⟩ :=
      exec_svcFwloadImage_applied happlies htype hother hcheck (fwloadEff_component hprimer (fwWork c s))
    refine ⟨t, hexec, happlied, banked_fwWritten hfw (by rw [ht]; rfl), fun h => absurd h hprimer, fun _ => ⟨?_, ?_⟩⟩
    · rw [ht]
      exact hcommitted
    · rw [ht]
      exact List.mem_append_right _ (List.mem_singleton_self _)

/-! svc.fwload of a budget table, of trims and of servo settings (R398, R400, R603, R610). -/

/-- Where both copies of the table agree, a budget image is checked and takes effect. -/
theorem exec_svcFwloadBudget_eq (htype : fwType c = 0x20)
    (hgood : s.budget.tableInv = Budget.shadowOf s.budget.table) :
    exec (.svcFwloadBudget c) s = .next (applyConfig budgetCheck budgetEff c s) := by
  have hmode := modeOk_of_runnable (mayApply_spec happlies).1
  show execSvcFwloadBudget c s = _
  unfold execSvcFwloadBudget
  rw [if_pos htype, runConfigBy_applies happlies]
  unfold applyBudget tableShadow
  simp only [hgood, hmode, beq_self_eq_true, if_true]

theorem exec_svcFwloadBudget (htype : fwType c = 0x20) (hgood : s.budget.tableInv = Budget.shadowOf s.budget.table)
    (himage : budgetImageOk c.input (cLen c) = true) :
    ∃ t, exec (.svcFwloadBudget c) s = .next t ∧ Applied [.budget] s t c ∧
      t.budget = { s.budget with next := some (parseTable c.input, field c.input 4 2, s.sys.epoch + 1,
        Config.hash 5 (c.input.take 176)) } := by
  obtain ⟨j, hj, -⟩ := runnable_jent (mayApply_spec happlies).1
  have hcheck : budgetCheck c s = none := if_pos himage
  obtain ⟨happlied, hkept⟩ := applyConfig_applied (eff := budgetEff) hj hcheck rfl
    (budgetEff_goes c s Goes.rfl (List.Subset.refl _)).within (by decide)
  exact ⟨_, exec_svcFwloadBudget_eq happlies htype hgood, happlied, hkept .budget (by decide)⟩

theorem exec_svcFwloadBudget_refused (htype : fwType c = 0x20)
    (hgood : s.budget.tableInv = Budget.shadowOf s.budget.table) (himage : budgetImageOk c.input (cLen c) = false) :
    ∃ t, exec (.svcFwloadBudget c) s = .next t ∧ Ends s t c.tok 0x0102 0 [] ∧ t.budget = s.budget := by
  obtain ⟨j, hj, -⟩ := runnable_jent (mayApply_spec happlies).1
  have hcheck : budgetCheck c s = some 0x0102 := if_neg (ne_true_of_eq_false himage)
  obtain ⟨hends, hkept⟩ := applyConfig_refused (eff := budgetEff) hj hcheck rfl
  exact ⟨_, exec_svcFwloadBudget_eq happlies htype hgood, hends, hkept .budget (by decide)⟩

theorem exec_svcFwloadTrims_eq (htype : fwType c = 0x21) :
    exec (.svcFwloadTrims c) s = .next (applyConfig trimsCheck trimsEff c (fwWork c s)) := by
  show execSvcFwloadTrims c s = _
  unfold execSvcFwloadTrims
  rw [if_pos htype, runConfigBy_applies happlies]
  rfl

theorem exec_svcFwloadTrims (htype : fwType c = 0x21) (hcheck : trimsCheck c s = none) :
    ∃ t, exec (.svcFwloadTrims c) s = .next t ∧ Applied [.pke, .log, .budget, .fw] s t c ∧
      t.fw.trims = (c.input.take (256 + field c.input 0x10 4)).drop 256 := by
  obtain ⟨j, hj, -⟩ := runnable_jent (mayApply_spec happlies).1
  have hmeasured := (trimsEff_goes c (fwWork c s) Goes.rfl (List.Subset.refl _)).within
  obtain ⟨happlied, hkept⟩ := applyConfig_applied (eff := trimsEff) (ps := [.pke, .log, .budget, .fw]) hj
    (show trimsCheck c (fwWork c s) = none from hcheck) rfl
    (((fwWork_within c s).mono (by decide)).trans (hmeasured.mono (by decide))) (by decide)
  refine ⟨_, exec_svcFwloadTrims_eq happlies htype, happlied, ?_⟩
  rw [hkept .fw (by decide), fw_measure]

theorem exec_svcFwloadTrims_refused (htype : fwType c = 0x21) {status : Nat} (hcheck : trimsCheck c s = some status) :
    ∃ t, exec (.svcFwloadTrims c) s = .next t ∧ Ends s t c.tok status 0 [] ∧ t.fw = s.fw :=
  ⟨_, exec_svcFwloadTrims_eq happlies htype, applyConfig_fwWork_refused happlies hcheck⟩

theorem exec_svcFwloadServo (htype : fwType c = 0x22) :
    ∃ t, exec (.svcFwloadServo c) s = .next t ∧ Applied [.fw, .log] s t c ∧ t.fw.servo = c.input := by
  have hexec : exec (.svcFwloadServo c) s = .next (runConfig noCheck servoEff c s) := congrArg _ (if_pos htype)
  obtain ⟨happlied, hkept⟩ := runConfig_applied (check := noCheck) (eff := servoEff) (ps := [.fw, .log]) happlies rfl rfl
    (servoEff_goes (ps := [.outbox, .fw, .log]) c s Goes.rfl (by decide)).within (by decide)
  refine ⟨_, hexec, happlied, ?_⟩
  rw [hkept .fw (by decide), fw_measure]

end

end

/-! PUTTY_SWAP and SHADOW_SWITCH (R601, R605, R606, R609). -/

/-- A change of the firmware part alone. -/
theorem fw_within (s : State) (x : Firmware) : Within [.log, .fw] s { s with fw := x } := by
  intro q hq
  cases q
  case fw => exact absurd (by decide) hq
  all_goals exact rfl

/-- The state in which an image of a component is taken, no longer waiting, and its bank committed. -/
def imageTaken (comp : Nat) (i : FwImage) (putty : Option (Nat × FwImage)) (shadow : List (Nat × FwImage)) (s : State) :
    State :=
  takeImage comp i (commitBank comp { s with fw := { s.fw with putty := putty, shadow := shadow } })

theorem imageTaken_within (comp : Nat) (i : FwImage) (putty : Option (Nat × FwImage)) (shadow : List (Nat × FwImage))
    (s : State) : Within [.log, .fw] s (imageTaken comp i putty shadow s) :=
  (fw_within s _).trans (takeImage_within comp i _)

/-- Which images still wait, which bank of the component is committed, and its measurement. -/
theorem fw_imageTaken (comp : Nat) (i : FwImage) (putty : Option (Nat × FwImage)) (shadow : List (Nat × FwImage))
    (s : State) : let t := imageTaken comp i putty shadow s
    t.fw.putty = putty ∧ t.fw.shadow = shadow ∧
      (comp < s.fw.committed.length → lget t.fw.committed comp false = !lget s.fw.committed comp false) ∧
      (comp < 8 → comp < s.fw.meas.length →
        lget t.fw.meas comp [] = fit 64 (Config.hash 5 (fit 64 (lget s.fw.meas comp []) ++ fit 64 i.meas))) := by
  let u : State := { s with fw := { s.fw with putty := putty, shadow := shadow } }
  obtain ⟨hcommitted, hputty, hshadow⟩ := keepsImages_takeImage comp i (commitBank comp u)
  exact ⟨hputty, hshadow, fun hlength => (congrArg (lget · comp false) hcommitted).trans
    (committed_commitBank (s := u) hlength), fun hcomp hlength => meas_takeImage (s := commitBank comp u) hcomp hlength i⟩

section
variable {s : State} {tok : Nat} {i : FwImage} {j : JEntry} (hputty : s.fw.putty = some (tok, i))
  (hj : jent s tok = some j) (houtcome : j.outcome = none)
include hputty hj houtcome

/-- While its command has no outcome, the image that waits is taken at a slot start out of closing sequences. -/
theorem exec_puttySwap_eq : exec .puttySwap s =
    .next (if atSlotStart s && s.hawk.closing.isEmpty && s.deferred.isEmpty && inService s then
      settle tok 0 0 [] (bumpMirrored (imageTaken 1 i none s.fw.shadow s)) else s) := by
  show execPuttySwap s = _
  unfold execPuttySwap
  simp only [hputty, hj, houtcome, Option.any_some, Option.isNone_none, if_true]
  rfl

theorem exec_puttySwap (hstart : atSlotStart s = true) (hclosing : s.hawk.closing = []) (hdeferred : s.deferred = [])
    (hservice : inService s = true) :
    ∃ t, exec .puttySwap s = .next t ∧ Ends s t tok 0 0 [] ∧ t.sys.epoch = s.sys.epoch + 1 ∧ t.fw.putty = none ∧
      (1 < s.fw.committed.length → lget t.fw.committed 1 false = !lget s.fw.committed 1 false) ∧
      (1 < s.fw.meas.length →
        lget t.fw.meas 1 [] = fit 64 (Config.hash 5 (fit 64 (lget s.fw.meas 1 []) ++ fit 64 i.meas))) := by
  have htaken := imageTaken_within 1 i none s.fw.shadow s
  obtain ⟨hnone, -, hcommitted, hmeas⟩ := fw_imageTaken 1 i none s.fw.shadow s
  let v := imageTaken 1 i none s.fw.shadow s
  have hbumped : Within [.sys, .outbox] v (bumpMirrored v) := (bumpMirrored_goes v Goes.rfl (List.Subset.refl _)).within
  have hsettled := settle_within tok 0 0 [] (bumpMirrored v)
  have hfw : (settle tok 0 0 [] (bumpMirrored v)).fw = v.fw :=
    (hsettled .fw (by decide)).trans (hbumped .fw (by decide))
  have hepoch : (bumpMirrored v).sys.epoch = s.sys.epoch + 1 := by
    show (mirrorItem _ v).sys.epoch + 1 = _
    rw [mirrorItem_sys, htaken .sys (by decide)]
  refine ⟨settle tok 0 0 [] (bumpMirrored v), ?_,
    settle_ends _ _ _ ((hbumped .journal (by decide)).trans (htaken .journal (by decide))) hj,
    (congrArg Sys.epoch (settle_sys ..)).trans hepoch, ?_⟩
  · rw [exec_puttySwap_eq hputty hj houtcome, hstart, hclosing, hdeferred, hservice]
    rfl
  · rw [hfw]
    exact ⟨hnone, hcommitted, hmeas (by decide)⟩

theorem exec_puttySwap_waits
    (hwaits : atSlotStart s = false ∨ s.hawk.closing ≠ [] ∨ s.deferred ≠ [] ∨ inService s = false) :
    exec .puttySwap s = .next s := by
  rw [exec_puttySwap_eq hputty hj houtcome, if_neg]
  simp only [Bool.and_eq_true, List.isEmpty_iff]
  rintro ⟨⟨⟨hstart, hclosing⟩, hdeferred⟩, hservice⟩
  obtain h | h | h | h := hwaits
  · exact absurd (h.symm.trans hstart) (by decide)
  · exact h hclosing
  · exact h hdeferred
  · exact absurd (h.symm.trans hservice) (by decide)

end

section
variable {s : State} {comp tok : Nat} {i : FwImage}
  (hwaiting : s.fw.shadow.find? (fun e => e.2.comp == comp) = some (tok, i))
include hwaiting

theorem exec_shadowSwitch_eq : exec (.shadowSwitch comp) s =
    .next (if atSlotStart s && inService s then
      imageTaken comp i s.fw.putty (s.fw.shadow.filter (fun e => e.2.comp != comp)) s else s) := by
  show execShadowSwitch comp s = _
  unfold execShadowSwitch
  simp only [hwaiting]
  rfl

theorem exec_shadowSwitch (hcomp : comp < 8) (hstart : atSlotStart s = true) (hservice : inService s = true) :
    ∃ t, exec (.shadowSwitch comp) s = .next t ∧ Within [.fw, .log] s t ∧
      (comp < s.fw.committed.length → lget t.fw.committed comp false = !lget s.fw.committed comp false) ∧
      t.fw.shadow = s.fw.shadow.filter (fun e => e.2.comp != comp) ∧
      (comp < s.fw.meas.length →
        lget t.fw.meas comp [] = fit 64 (Config.hash 5 (fit 64 (lget s.fw.meas comp []) ++ fit 64 i.meas))) := by
  obtain ⟨-, hshadow, hcommitted, hmeas⟩ :=
    fw_imageTaken comp i s.fw.putty (s.fw.shadow.filter (fun e => e.2.comp != comp)) s
  refine ⟨_, ?_, (imageTaken_within comp i s.fw.putty _ s).mono (by decide), hcommitted, hshadow, hmeas hcomp⟩
  rw [exec_shadowSwitch_eq hwaiting, hstart, hservice]
  rfl

theorem exec_shadowSwitch_waits (hwaits : atSlotStart s = false ∨ inService s = false) :
    exec (.shadowSwitch comp) s = .next s := by
  rw [exec_shadowSwitch_eq hwaiting, if_neg]
  obtain h | h := hwaits
  · rw [h, Bool.false_and]
    exact Bool.false_ne_true
  · rw [h, Bool.and_false]
    exact Bool.false_ne_true

end

/-- Settles O51: each command passes its quorum or checks, or not, and what its effect makes of the device outlives its
outcome; swap and switch take the image that waits. -/
theorem serviceCommands : Obligations.ServiceCommands := by
  unfold Obligations.ServiceCommands
  refine ⟨fun c s => ⟨fun happlies hgood => ⟨exec_svcEnter happlies hgood, fun _ => exec_svcEnter_refused happlies hgood⟩,
    fun happlies => ⟨exec_svcExit_sealed happlies, exec_svcExit_other happlies⟩, fun hruns hready => ?_,
    ⟨fun htype hruns hturn => ⟨exec_svcFwloadImage_waits htype hruns hturn,
        fun _ => exec_svcFwloadImage_putty_refused htype hruns hturn⟩,
      fun htype hother happlies => ⟨exec_svcFwloadImage happlies htype hother,
        fun _ => exec_svcFwloadImage_refused happlies htype hother⟩⟩,
    fun htype happlies hgood => ⟨exec_svcFwloadBudget happlies htype hgood,
      exec_svcFwloadBudget_refused happlies htype hgood⟩,
    fun htype happlies => ⟨exec_svcFwloadTrims happlies htype, fun _ => exec_svcFwloadTrims_refused happlies htype⟩,
    fun htype happlies => exec_svcFwloadServo happlies htype⟩,
    fun s tok i j hputty hj houtcome => ⟨exec_puttySwap hputty hj houtcome, exec_puttySwap_waits hputty hj houtcome⟩,
    fun s comp tok i hwaiting hcomp => ⟨exec_shadowSwitch hwaiting hcomp, exec_shadowSwitch_waits hwaiting⟩⟩
  have hsignature := internalSign_fst 0x74 c.fn "attest" identityKey (text "VK9612 attest") (evidence (attestNonce c) s) s
  exact ⟨fun g hsigned => exec_svcAttest_signed hruns hready (hsignature.trans (by rw [hsigned]; rfl)),
    fun hretry => exec_svcAttest_retry hruns hready (hsignature.trans (by rw [hretry]; rfl))⟩

end Sys2Proof.Machine
end

section
/-! SUPPORT. A step and its command: the statement O1, and what every step keeps of legality (R29, R34, R549, R556, R591),
the statement O5. -/
namespace Sys2Proof.Machine

/-- Settles O1: the step takes the front of the queue. -/
theorem stepRunsFrontCommand : Obligations.StepRunsFrontCommand := by
  unfold Obligations.StepRunsFrontCommand
  intro c l s
  rfl

/-- Settles O5: the queue is no part of Legal, and every row keeps it. -/
theorem stepKeepsLegal : Obligations.StepKeepsLegal := by
  unfold Obligations.StepKeepsLegal
  intro s t hlegal hstep
  have hdequeued : Legal { s with pending := s.pending.tail } := hlegal
  exact ((step_goes hstep).legal hdequeued).1

end Sys2Proof.Machine
end

section
/-! SUPPORT. The event recorder (R615 to R627): what LOG_RECORD writes for the oldest event, what log.clear leaves, and the
statement O45. -/
namespace Sys2Proof.Machine

/-- Work of a class that is not guaranteed is charged to its leaf and runs short of nothing that is logged (R397). -/
theorem charge_eq {c : Nat} (hc : 4 ≤ c) (e f cycles : Nat) (s : State) :
    charge e c f cycles s = { s with budget := (charge e c f cycles s).budget } := by
  have hclass : ¬ c < 4 := by omega
  unfold charge
  simp only [hclass, false_and, if_false]

/-- A change of the budget part alone. -/
theorem budget_within (s : State) (x : Budget) : Within [.budget] s { s with budget := x } := by
  intro p hp
  cases p
  case budget => exact absurd (List.mem_singleton_self _) hp
  all_goals rfl

theorem charge_within {c : Nat} (hc : 4 ≤ c) (e f cycles : Nat) (s : State) : Within [.budget] s (charge e c f cycles s) := by
  rw [charge_eq hc]
  exact budget_within s _

/-- The recorder's own work (R615). -/
theorem openWork_recorder (kind amount : Nat) (s : State) :
    openWork kind amount 0 9 s = { s with budget := (openWork kind amount 0 9 s).budget } :=
  charge_eq (show 4 ≤ 9 by decide) 0 0 (Config.workCycles kind amount) s

theorem openWork_recorder_within (kind amount : Nat) (s : State) : Within [.budget] s (openWork kind amount 0 9 s) :=
  charge_within (show 4 ≤ 9 by decide) 0 0 (Config.workCycles kind amount) s

/-! LOG_RECORD (R617, R618). -/

section
variable {s : State} {type sev : Nat} {body : List W64} {q : List (Nat × Nat × List W64)}

/-- The state in which the recorder's work for an event of n words is charged and the event has left the queue. -/
def dequeued (n : Nat) (q : List (Nat × Nat × List W64)) (s : State) : State :=
  { s with log := { s.log with queue := q }, budget := (openWork 15 (16 + 8 * n) 0 9 s).budget }

theorem openWork_dequeued (n : Nat) (q : List (Nat × Nat × List W64)) (s : State) :
    openWork 15 (16 + 8 * n) 0 9 { s with log := { s.log with queue := q } } = dequeued n q s := by
  rw [openWork_recorder]
  rfl

variable (hqueue : s.log.queue = (type, sev, body) :: q)
include hqueue

/-- The oldest event leaves the queue and is recorded. -/
theorem exec_logRecord_oldest : exec .logRecord s = .next (record type sev body (dequeued body.length q s)) := by
  show execLogRecord s = _
  unfold execLogRecord
  simp only [hqueue, openWork_dequeued]

theorem exec_logRecord_repeats {r : LogRec} (hlast : s.log.recs = [r]) (hseq : r.seq + 1 = s.log.nextSeq)
    (htype : r.type = type) (hbody : r.body = body) (hroom : r.repeat_ < 65535) :
    exec .logRecord s = .next { openWork 15 (16 + 8 * body.length) 0 9 s with
      log := { s.log with queue := q, recs := [{ r with repeat_ := r.repeat_ + 1 }] } } := by
  have hfolds : folds type body (dequeued body.length q s) = true := by
    unfold folds latest dequeued
    simp only [hlast, List.getLast?_singleton, Option.bind_some, hseq, if_true, Option.any_some, htype, hbody, hroom,
      beq_self_eq_true, decide_true, Bool.and_self]
  have hrecs : (dequeued body.length q s).log.recs = [r] := hlast
  have hnext : r.seq + 1 = (dequeued body.length q s).log.nextSeq := hseq
  rw [exec_logRecord_oldest hqueue, openWork_recorder]
  unfold record
  simp only [hfolds, if_true, hrecs, List.map_cons, List.map_nil, hnext]
  rfl

theorem exec_logRecord_opens (hnew : folds type body s = false) (hnative : s.log.severity = false)
    (hopen : s.log.full = false) (hroom : 16 + 8 * body.length ≤ logFree s) :
    exec .logRecord s = .next { openWork 15 (16 + 8 * body.length) 0 9 s with log := { s.log with
      queue := q, nextSeq := s.log.nextSeq + 1
      recs := s.log.recs ++ [{ seq := s.log.nextSeq, type := type, sev := sev, body := body, repeat_ := 0
                               boot := s.fw.boots % 65536 }] } } := by
  have hfolds : folds type body (dequeued body.length q s) = false := hnew
  have hseverity : (dequeued body.length q s).log.severity = false := hnative
  have hfull : (dequeued body.length q s).log.full = false := hopen
  have hfree : 16 + 8 * body.length ≤ logFree (dequeued body.length q s) := hroom
  rw [exec_logRecord_oldest hqueue, openWork_recorder]
  unfold record
  simp only [hfolds, hseverity, hfull, hfree, Bool.false_eq_true, if_false, if_true]
  rfl

end

/-! log.read and log.clear (R626, R627). -/

/-- The record with which a cleared log begins. -/
def clearedRecord (s : State) : LogRec :=
  { seq := s.log.nextSeq, type := 0x0220, sev := 6, repeat_ := 0, boot := s.fw.boots % 65536
    body := [firstSeq s, s.log.nextSeq, s.log.overflow, s.log.dropped, s.log.overwritten].map (BitVec.ofNat 64) }

/-- The recorder with no record but that one. -/
def clearedLog (s : State) : State :=
  { s with log := { s.log with
    recs := [clearedRecord s], nextSeq := s.log.nextSeq + 1, overflow := 0, dropped := 0, overwritten := 0, full := false
    clears := s.log.clears + 1 } }

theorem logClearEff_eq (c : Cmd) (s : State) : logClearEff c s = done (event 2 3 (clearedLog s)) := rfl

/-- The event of a log that has been cleared is the recorder's own: it touches its queue and its event bits alone. -/
theorem log_event_cleared (s : State) :
    ∃ queue evt, (event 2 3 s).log = { s.log with queue := queue, evt := evt } := by
  unfold event logEv
  dsimp only
  split
  · exact ⟨_, _, rfl⟩
  · exact ⟨s.log.queue, _, rfl⟩

section
variable {c : Cmd} {s : State} (hruns : runnable s c = true)
include hruns

theorem exec_logRead :
    let o := logHeader s ++ takeRecords (s.log.recs.filter (fun r => decide (cw64 c 8 ≤ r.seq))) (cOutLen c - 64)
    ∃ t, exec (.logRead c) s = .next t ∧ Served [.budget] s t c (BitVec.ofNat 32 o.length) o := by
  intro o
  have hread : Within [.budget] s (openWork 16 o.length 0 9 s) := openWork_recorder_within 16 _ s
  obtain ⟨hends, hkept⟩ := runPlain_ends (check := noCheck) (eff := logReadEff) hruns rfl rfl (hread .journal (by decide))
  exact ⟨_, rfl, hends, (hread.mono (by decide)).trans (hkept.mono (by decide))⟩

theorem exec_logClear :
    ∃ t r, exec (.logClear c) s = .next t ∧ Served [.bpcfg, .log] s t c 0 [] ∧ t.log.recs = [r] ∧ r.type = 0x0220 ∧
      r.seq = s.log.nextSeq ∧ t.log.nextSeq = s.log.nextSeq + 1 ∧ t.log.overflow = 0 ∧ t.log.dropped = 0 ∧
      t.log.overwritten = 0 ∧ t.log.full = false ∧ t.log.clears = s.log.clears + 1 := by
  have hclears : Within [.bpcfg, .log] s (event 2 3 (clearedLog s)) :=
    (logClearEff_goes c s Goes.rfl (List.Subset.refl _)).within
  obtain ⟨hends, hkept⟩ := runPlain_ends (check := noCheck) hruns rfl (logClearEff_eq c s) (hclears .journal (by decide))
  obtain ⟨queue, evt, hlog⟩ := log_event_cleared (clearedLog s)
  refine ⟨_, clearedRecord s, rfl, ⟨hends, (hclears.mono (by decide)).trans (hkept.mono (by decide))⟩, ?_⟩
  rw [hkept .log (by decide), show (done (event 2 3 (clearedLog s))).st.log = _ from hlog]
  exact ⟨rfl, rfl, rfl, rfl, rfl, rfl, rfl, rfl, rfl⟩

end

theorem exec_logPolicy {c : Cmd} {s : State} (happlies : mayApply s c = true) :
    ∃ t, exec (.logPolicy c) s = .next t ∧ Applied [.log] s t c ∧
      t.log = { s.log with severity := bit (cw c 8) 0, full := s.log.full && !(bit (cw c 8) 0) } := by
  obtain ⟨happlied, hkept⟩ := runConfig_applied (check := noCheck) (eff := logPolicyEff) (ps := [.log]) happlies rfl rfl
    (logPolicyEff_goes (ps := [.outbox, .log]) c s Goes.rfl (by decide)).within (by decide)
  exact ⟨_, rfl, happlied, hkept .log (by decide)⟩

/-- Settles O45: LOG_RECORD folds, opens or waits; each log. command by its own theorem. -/
theorem eventRecorder : Obligations.EventRecorder := by
  unfold Obligations.EventRecorder
  refine fun c s => ⟨fun hempty => ?_, fun type sev body q hqueue => ⟨fun r => exec_logRecord_repeats hqueue,
    exec_logRecord_opens hqueue⟩, fun hruns => ⟨exec_logRead hruns, exec_logClear hruns⟩, exec_logPolicy⟩
  show execLogRecord s = _
  unfold execLogRecord
  rw [hempty]

end Sys2Proof.Machine
end

section
/-! SUPPORT. Sessions read back after a change (R409 to R412), commands whose work is staged (R33), and what engine work for a
host class leaves alone (R389, R405). -/
namespace Sys2Proof.Machine

/-! Engine work of a class that is not guaranteed. -/

theorem takeLane_within (e client tok : Nat) (regs : List Byte) (s : State) :
    Within [.eng] s (takeLane e client tok regs s) :=
  (takeLane_goes e client tok regs s Goes.rfl (List.Subset.refl _)).within

theorem engineWork_within {c : Nat} (hc : 4 ≤ c) (e f cycles client tok : Nat) (regs : List Byte) (s : State) :
    Within [.eng, .budget] s (engineWork e c f cycles client tok regs s) := by
  have hcharged : Within [.budget] s (charge e c f cycles s) := charge_within hc e f cycles s
  have htaken := takeLane_within e client tok regs (charge e c f cycles s)
  exact (hcharged.mono (by decide)).trans (htaken.mono (by decide))

theorem cntEng_within (i n : Nat) (s : State) : Within [.eng] s (cntEng i n s) :=
  (cntEng_goes i n s Goes.rfl (List.Subset.refl _)).within

theorem chargeHash_within (h w client : Nat) (c : Cmd) (key : List Byte) (s : State) :
    Within [.eng, .budget] s (chargeHash h w client c key s) := by
  have hcounted := cntEng_within (hashEngine h - 2) w s
  have hworked := engineWork_within (show 4 ≤ 4 by decide) (hashEngine h) c.fn (w * hashCycles h) client c.tok key
    (cntEng (hashEngine h - 2) w s)
  exact (hcounted.mono (by decide)).trans hworked

/-! Contexts of sessions. -/

theorem sesOf_eq_some_iff {s : State} {k : Nat} {x : Ctx} : sesOf s k = some x ↔ ctxOf s k = some x ∧ x.kind = 7 := by
  unfold sesOf
  cases ctxOf s k with
  | none => simp only [reduceCtorEq, false_and]
  | some y =>
    by_cases hkind : y.kind = 7
    · simp only [hkind, if_true, Option.some.injEq]
      exact ⟨fun h => ⟨h, h ▸ hkind⟩, fun h => h.1⟩
    · simp only [hkind, if_false, reduceCtorEq, Option.some.injEq, false_iff, not_and]
      exact fun h => h ▸ hkind

/-- What of an entry survives a change of the entry that leaves it alone. -/
theorem map_mget_mupd {α β : Type} {F : α → β} {f : α → α} (hF : ∀ a, F (f a) = F a) (m : Map α) (k j : Nat) :
    (mget (mupd m k f) j).map F = (mget m j).map F := by
  by_cases hj : j = k
  · rw [hj, mget_mupd_self, Option.map_map]
    exact congrArg (Option.map · _) (funext hF)
  · rw [mget_mupd_other _ _ _ _ hj]

/-- Every session is as before: open or not, with its session part; counters and caching apart. -/
def KeepsSessions (s t : State) : Prop :=
  ∀ k, (ctxOf t k).map (fun x => (x.kind, x.ses)) = (ctxOf s k).map (fun x => (x.kind, x.ses))

theorem KeepsSessions.of_ctx {s t : State} (h : t.skim.ctx = s.skim.ctx) : KeepsSessions s t := fun k => by
  unfold ctxOf
  rw [h]

theorem KeepsSessions.of_within {ps : List Part} {s t : State} (h : Within ps s t) (hskim : Part.skim ∉ ps) :
    KeepsSessions s t := .of_ctx (congrArg Skim.ctx (h .skim hskim))

theorem KeepsSessions.trans {s t u : State} (h : KeepsSessions s t) (g : KeepsSessions t u) : KeepsSessions s u :=
  fun k => (g k).trans (h k)

theorem keepsSessions_cntCtx (k i n : Nat) (s : State) : KeepsSessions s (cntCtx k i n s) :=
  fun j => map_mget_mupd (F := fun x : Ctx => (x.kind, x.ses))
    (f := fun x => { x with cnt := lupd x.cnt i (fun v => sat32 (v + n)) }) (fun _ => rfl) s.skim.ctx k j

theorem keepsSessions_chargeHash (h w client : Nat) (c : Cmd) (key : List Byte) (s : State) :
    KeepsSessions s (chargeHash h w client c key s) := .of_within (chargeHash_within h w client c key s) (by decide)

theorem KeepsSessions.ctxOf {s t : State} (h : KeepsSessions s t) {k : Nat} {x : Ctx} (hx : ctxOf s k = some x) :
    ∃ y, Machine.ctxOf t k = some y ∧ y.kind = x.kind ∧ y.ses = x.ses := by
  have hk := h k
  rw [hx] at hk
  obtain ⟨y, hy, hpair⟩ := Option.map_eq_some_iff.1 hk
  exact ⟨y, hy, congrArg Prod.fst hpair, congrArg Prod.snd hpair⟩

/-- The session parts of open sessions. -/
theorem KeepsSessions.sesOf {s t : State} (h : KeepsSessions s t) (k : Nat) :
    (Machine.sesOf t k).map (fun x => x.ses) = (Machine.sesOf s k).map (fun x => x.ses) := by
  have hk := h k
  unfold Machine.sesOf
  cases hs : Machine.ctxOf s k with
  | none =>
    rw [hs] at hk
    rw [Option.map_eq_none_iff.1 hk]
  | some x =>
    obtain ⟨y, hy, hkind, hses⟩ := h.ctxOf hs
    simp only [hy, hkind]
    split
    · exact congrArg some hses
    · rfl

/-- The part of an open session, or the default part. -/
theorem KeepsSessions.getD {s t : State} (h : KeepsSessions s t) (k : Nat) :
    ((Machine.sesOf t k).getD default).ses = ((Machine.sesOf s k).getD default).ses := by
  have hk := h.sesOf k
  cases hs : Machine.sesOf s k with
  | none =>
    rw [hs] at hk
    rw [Option.map_eq_none_iff.1 hk]
  | some x =>
    rw [hs] at hk
    obtain ⟨y, hy, hses⟩ := Option.map_eq_some_iff.1 hk
    rw [hy]
    exact hses

/-- Whether a key fits is decided by the session's part. -/
theorem KeepsSessions.keyFits {s t : State} (h : KeepsSessions s t) (k n : Nat) (secret : Bool) :
    keyFits t k n secret = keyFits s k n secret := by
  have hk := h.sesOf k
  unfold Machine.keyFits
  cases hs : Machine.sesOf s k with
  | none =>
    rw [hs] at hk
    rw [Option.map_eq_none_iff.1 hk]
  | some x =>
    rw [hs] at hk
    obtain ⟨y, hy, hses⟩ := Option.map_eq_some_iff.1 hk
    simp only [hy, hses]

/-! State blocks and contexts (R140, R409). -/

theorem ctx_putBlock (k : Nat) (block : List Byte) (s : State) : (putBlock k block s).skim.ctx = s.skim.ctx :=
  congrArg Skim.ctx ((putBlock_goes k block s Goes.rfl (List.Subset.refl _)).within .skim (by decide))

theorem ctx_touchCtx (k : Nat) (s : State) : (touchCtx k s).skim.ctx = s.skim.ctx := ctx_trimCache _

theorem ctx_updSes (k : Nat) (g : SesPart → SesPart) (s : State) :
    (updSes k g s).skim.ctx = mupd s.skim.ctx k (fun x => { x with ses := g x.ses }) := by
  unfold updSes
  dsimp only
  split
  · exact (ctx_putBlock _ _ _).trans (ctx_touchCtx _ _)
  · rfl

theorem ctxOf_updSes_self {k : Nat} {s : State} {x : Ctx} (hx : ctxOf s k = some x) (g : SesPart → SesPart) :
    ctxOf (updSes k g s) k = some { x with ses := g x.ses } := by
  unfold ctxOf at hx ⊢
  rw [ctx_updSes, mget_mupd_self, hx]
  rfl

theorem ctxOf_updSes_other {k j : Nat} (hj : j ≠ k) (g : SesPart → SesPart) (s : State) :
    ctxOf (updSes k g s) j = ctxOf s j := by
  unfold ctxOf
  rw [ctx_updSes, mget_mupd_other _ _ _ _ hj]

theorem ctxOf_cntCtx_other {k j : Nat} (hj : j ≠ k) (i n : Nat) (s : State) : ctxOf (cntCtx k i n s) j = ctxOf s j :=
  mget_mupd_other s.skim.ctx k j _ hj

theorem ctxOf_openSession_self (k fn src : Nat) (p : SesPart) (s : State) :
    ctxOf (openSession k fn src p s) k = some { (default : Ctx) with
      kind := 7, st := 1, fn := fn, gen := nextGen s k, keyCur := src, cnt := List.replicate 16 0, ses := p } := by
  unfold openSession ctxOf
  rw [ctx_putBlock]
  exact ctxOf_newCtx_self k _ s

theorem ctx_closeSession (k : Nat) (s : State) : (closeSession k s).skim.ctx = mdel s.skim.ctx k := by
  unfold closeSession
  dsimp only
  split
  · exact ctx_putBlock k [] (freeCtx k s)
  · rfl

/-- A session that receives a key holds it. -/
theorem ctxOf_installKey_self {k : Nat} {s : State} {x : Ctx} (hx : ctxOf s k = some x) (key : List Byte) :
    ∃ z, ctxOf (installKey k key s) k = some z ∧ z.ses.keyset = true ∧ z.ses.key = key :=
  ⟨_, ctxOf_updSes_self hx _, rfl, rfl⟩

/-- The session that is to receive a key is open and has none. -/
theorem targetFail_eq_none {s : State} {fn k : Nat} (h : targetFail s fn k = none) :
    ∃ x, ctxOf s k = some x ∧ x.ses.keyset = false := by
  unfold targetFail at h
  split at h
  · next x hx =>
    refine ⟨x, (sesOf_eq_some_iff.1 hx).1, ?_⟩
    split at h
    · next hall =>
      simp only [Bool.and_eq_true, Bool.not_eq_true'] at hall
      exact hall.1.2
    · exact nomatch h
  · exact nomatch h

/-- An event of the engines is counted in their own part (R433). -/
theorem skim_event_cntEng (b i : Nat) (s : State) : (event 11 b (cntEng i 1 s)).skim = s.skim :=
  event_within 11 b (cntEng i 1 s) .skim (by decide)

/-- A failed verification is counted, and no session changes by it (R409, R433). -/
theorem skim_authFailed (k : Nat) (s : State) : (authFailed k s).skim = (cntCtx k 1 1 s).skim :=
  skim_event_cntEng 0 3 _

theorem keepsSessions_authFailed (k : Nat) (s : State) : KeepsSessions s (authFailed k s) :=
  (keepsSessions_cntCtx k 1 1 s).trans (.of_ctx (congrArg Skim.ctx (skim_authFailed k s)))

theorem ctxOf_authFailed_other {k j : Nat} (hj : j ≠ k) (s : State) : ctxOf (authFailed k s) j = ctxOf s j :=
  (ctxOf_congr (skim_authFailed k s) j).trans (ctxOf_cntCtx_other hj 1 1 s)

/-! Commands whose work is staged (R33). -/

/-- An engine command whose check passes stages what its effect says, and leaves the rest of the effect's state alone. -/
theorem runWork_stages {check eff} {c : Cmd} {s : State} {e : Eff} (hruns : runnable s c = true)
    (hcheck : check c s = none) (heff : eff c s = e) (hjournal : e.st.journal = s.journal) :
    WorkStaged s (runWork check eff c s) c.tok e.status e.result e.out ∧
      Within [.journal] e.st (runWork check eff c s) := by
  obtain ⟨j, hj, -, houtcome, -⟩ := runnable_jent hruns
  rw [runWork_passes hruns hcheck, heff]
  exact ⟨updJ_staged _ _ _ hjournal hj houtcome, (updJ_goes _ _ _ Goes.rfl (List.Subset.refl _)).within⟩

/-- The count that a result word gives of an output shorter than its room (R418, R424). -/
def outputCount (c : Cmd) (o : List Byte) : W32 :=
  if (o.take (cOutLen c)).length < cOutLen c then BitVec.ofNat 32 (o.take (cOutLen c)).length else 0

theorem output_eq (c : Cmd) (o : List Byte) (s : State) :
    output c o s = { st := s, result := outputCount c o, out := o.take (cOutLen c) } := rfl

theorem inTurn_eq {c : Cmd} {s : State} (hturn : sesTurn c s = true) (run : Cmd → State → State) :
    inTurn run c s = run c s := if_pos hturn

theorem onEngine_eq {e : Nat} {c : Cmd} {s : State} (hready : mayRun s e 4 c.fn = true) (run : Cmd → State → State) :
    onEngine e run c s = run c s := if_pos hready

end Sys2Proof.Machine
end

section
/-! SUPPORT. The hsh. commands (R410 to R419), one theorem per row, and the statement O47. -/
namespace Sys2Proof.Machine

/-! The end of a MAC (R418, R424). -/

/-- The octets of an input over which a tag is computed: in the direction that verifies the tag stands behind them. -/
def macData (dir : Bool) (n : Nat) (inp : List Byte) : List Byte := if dir then inp.take (inp.length - n) else inp

section
variable (c : Cmd) (h nlen slen n : Nat) (key inp : List Byte) (k target : Nat) (s : State)

theorem macEnd_derives (dir : Bool) :
    macEnd c h nlen slen n dir true key inp k target s =
      done (installKey target (hashOf h nlen slen key (macData dir n inp) n) s) := rfl

theorem macEnd_signs :
    macEnd c h nlen slen n false false key inp k target s = output c (hashOf h nlen slen key inp n) s := rfl

/-- Whether a tag verifies is the status; the state is as before or counts the failure. -/
theorem macEnd_verifies :
    macEnd c h nlen slen n true false key inp k target s =
      { st := if hashOf h nlen slen key (macData true n inp) n = inp.drop (inp.length - n) then s else authFailed k s
        status := if hashOf h nlen slen key (macData true n inp) n = inp.drop (inp.length - n) then 0 else 0x0401 } := by
  have heq : macEnd c h nlen slen n true false key inp k target s =
      if hashOf h nlen slen key (macData true n inp) n = inp.drop (inp.length - n) then done s
      else { st := authFailed k s, status := 0x0401 } := rfl
  rw [heq]
  split
  · rfl
  · rfl

end

theorem journal_installKey (k : Nat) (key : List Byte) (s : State) : (installKey k key s).journal = s.journal :=
  (installKey_goes k key s Goes.rfl (List.Subset.refl _)).within .journal (by decide)

theorem journal_authFailed (k : Nat) (s : State) : (authFailed k s).journal = s.journal :=
  (authFailed_goes k s Goes.rfl (List.Subset.refl _)).within .journal (by decide)

/-- How a command ends whose effect is the end of a MAC over a state with the journal as before: in each of the three ways its
work is staged, and what the end changes of the contexts. -/
theorem macEnd_stages {check eff} {c : Cmd} {s u : State} {h nlen slen n k target : Nat} {dir derive_ : Bool}
    {key inp : List Byte} (hruns : runnable s c = true) (hcheck : check c s = none)
    (heff : eff c s = macEnd c h nlen slen n dir derive_ key inp k target u) (hjournal : u.journal = s.journal) :
    let t := runWork check eff c s
    let tag := hashOf h nlen slen key (macData dir n inp) n
    (derive_ = false → dir = false →
      WorkStaged s t c.tok 0 (outputCount c tag) (tag.take (cOutLen c)) ∧ t.skim.ctx = u.skim.ctx) ∧
    (derive_ = false → dir = true →
      WorkStaged s t c.tok (if tag = inp.drop (inp.length - n) then 0 else 0x0401) 0 [] ∧
        ∀ j, j ≠ k → ctxOf t j = ctxOf u j) ∧
    (derive_ = true → (ctxOf u target).isSome = true → WorkStaged s t c.tok 0 0 [] ∧
      ∃ z, ctxOf t target = some z ∧ z.ses.keyset = true ∧ z.ses.key = tag) := by
  intro t tag
  refine ⟨?signs, ?verifies, ?derives⟩
  case signs =>
    rintro rfl rfl
    obtain ⟨hstaged, hkept⟩ := runWork_stages hruns hcheck (heff.trans (macEnd_signs ..)) hjournal
    exact ⟨hstaged, congrArg Skim.ctx (hkept .skim (by decide))⟩
  case verifies =>
    rintro rfl rfl
    obtain ⟨hstaged, hkept⟩ := runWork_stages hruns hcheck (heff.trans (macEnd_verifies ..)) (by
      dsimp only
      split
      · exact hjournal
      · exact (journal_authFailed k u).trans hjournal)
    refine ⟨hstaged, fun j hj => (ctxOf_congr (hkept .skim (by decide)) j).trans ?_⟩
    dsimp only
    split
    · rfl
    · exact ctxOf_authFailed_other hj u
  case derives =>
    rintro rfl htarget
    obtain ⟨x, hx⟩ := Option.isSome_iff_exists.1 htarget
    obtain ⟨hstaged, hkept⟩ := runWork_stages hruns hcheck (heff.trans (macEnd_derives ..))
      ((journal_installKey target tag u).trans hjournal)
    obtain ⟨z, hz, hkey⟩ := ctxOf_installKey_self hx tag
    exact ⟨hstaged, z, (ctxOf_congr (hkept .skim (by decide)) target).trans hz, hkey⟩

/-! hsh.digest and hsh.mac. -/

/-- A key derived by a one-shot command goes to an open session (R443). -/
theorem target_of_hshMacCheck {c : Cmd} {s : State} (hcheck : hshMacCheck c s = none) (hderives : hderive c = true) :
    (ctxOf s (bits (cw c 9) 15 0)).isSome = true := by
  unfold hshMacCheck at hcheck
  split at hcheck
  · exact nomatch hcheck
  · rw [hderives] at hcheck
    simp only [if_true] at hcheck
    split at hcheck
    · exact nomatch hcheck
    · next htarget =>
      obtain ⟨x, hx, -⟩ := targetFail_eq_none htarget
      rw [hx]
      rfl

section
variable {c : Cmd} {s : State}

theorem exec_hshDigest (hruns : runnable s c = true) (hready : mayRun s (hashEngine (hcode c)) 4 c.fn = true) :
    let o := hashOf (hcode c) (hnlen c) (hslen c) [] (c.input.take (cLen c)) (outOf (hcode c) c)
    ∃ t, exec (.hshDigest c) s = .next t ∧ WorkStaged s t c.tok 0 (outputCount c o) (o.take (cOutLen c)) ∧
      Within [.journal, .eng, .span, .budget, .outbox] s t := by
  intro o
  have hcharged := chargeHash_within (hcode c) (hashWork (hcode c) (cLen c) (outOf (hcode c) c)) (oneShot c.fn) c [] s
  obtain ⟨hstaged, hkept⟩ := runWork_stages (check := noCheck) (eff := hshDigestEff) hruns rfl (output_eq c o _)
    (hcharged .journal (by decide))
  exact ⟨_, congrArg Host.Outcome.next (onEngine_eq hready _), hstaged,
    (hcharged.mono (by decide)).trans (hkept.mono (by decide))⟩

/-- The state in which a one-shot MAC is charged. -/
def macCharged (c : Cmd) (s : State) : State :=
  chargeHash (hcode c) (hashWork (hcode c) (cLen c) (htlen c)) (oneShot c.fn) c (slotKey s (cCtx c)) s

theorem macCharged_within (c : Cmd) (s : State) : Within [.eng, .budget] s (macCharged c s) :=
  chargeHash_within _ _ _ _ _ _

theorem exec_hshMac (hruns : runnable s c = true) (hturn : sesTurn c s = true)
    (hready : mayRun s (hashEngine (hcode c)) 4 c.fn = true) (hcheck : hshMacCheck c s = none) :
    let inp := c.input.take (cLen c)
    let tag := hashOf (hcode c) (hnlen c) (hslen c) (slotKey s (cCtx c)) (macData (hdir c) (htlen c) inp) (htlen c)
    ∃ t, exec (.hshMac c) s = .next t ∧ Within [.journal, .skim, .eng, .sealer, .span, .log, .budget, .outbox] s t ∧
      (hderive c = false → hdir c = false → WorkStaged s t c.tok 0 (outputCount c tag) (tag.take (cOutLen c))) ∧
      (hderive c = false → hdir c = true →
        WorkStaged s t c.tok (if tag = inp.drop (inp.length - htlen c) then 0 else 0x0401) 0 []) ∧
      (hderive c = true → WorkStaged s t c.tok 0 0 [] ∧
        ∃ z, ctxOf t (bits (cw c 9) 15 0) = some z ∧ z.ses.keyset = true ∧ z.ses.key = tag) := by
  intro inp tag
  have hexec : exec (.hshMac c) s = .next (runWork hshMacCheck hshMacEff c s) :=
    congrArg Host.Outcome.next ((inTurn_eq hturn _).trans (onEngine_eq hready _))
  have hcharged := macCharged_within c s
  obtain ⟨hsigns, hverifies, hderives⟩ := macEnd_stages (eff := hshMacEff) (u := macCharged c s) hruns hcheck rfl
    (hcharged .journal (by decide))
  refine ⟨_, hexec, ((execHshMac_goes c s .rfl (List.Subset.refl _)).holds _ hexec).within,
    fun hkeeps hdir => (hsigns hkeeps hdir).1, fun hkeeps hdir => (hverifies hkeeps hdir).1,
    fun hderive => hderives hderive ?_⟩
  rw [ctxOf_congr (hcharged .skim (by decide))]
  exact target_of_hshMacCheck hcheck hderive

/-! Hash sessions. -/

theorem exec_hshOpen (hruns : runnable s c = true) (hturn : sesTurn c s = true) (hcheck : hshOpenCheck c s = none) :
    ∃ t x, exec (.hshOpen c) s = .next t ∧ Served [.skim, .sealer, .log] s t c 0 [] ∧ ctxOf t (cCtx c) = some x ∧
      x.kind = 7 ∧ x.st = 1 ∧ x.fn = c.fn ∧ x.ses.skind = 2 ∧ x.ses.code = hcode c ∧ x.ses.dir = hdir c ∧
      x.ses.tlen = htlen c ∧ x.ses.nlen = hnlen c ∧ x.ses.slen = hslen c ∧ x.ses.chain = [] ∧
      (unkeyed (hcode c) = false → (cw c 9).toNat ≠ 0xFFFF →
        x.ses.keyset = true ∧ x.ses.key = slotKey s (cw c 9).toNat) ∧
      (unkeyed (hcode c) = true → x.ses.keyset = true) ∧
      (unkeyed (hcode c) = false → (cw c 9).toNat = 0xFFFF → x.ses.keyset = false) := by
  have hopened := (hshOpenEff_goes c s Goes.rfl (List.Subset.refl _)).within
  obtain ⟨hends, hkept⟩ := runPlain_ends (eff := hshOpenEff) hruns hcheck rfl (hopened .journal (by decide))
  refine ⟨_, _, congrArg Host.Outcome.next (inTurn_eq hturn _),
    ⟨hends, (hopened.mono (by decide)).trans (hkept.mono (by decide))⟩,
    (ctxOf_congr (hkept .skim (by decide)) _).trans (ctxOf_openSession_self ..),
    rfl, rfl, rfl, rfl, rfl, rfl, rfl, rfl, rfl, rfl, fun hkeyed hslot => ?_, fun hunkeyed => ?_, fun hkeyed hnone => ?_⟩
  · have hslotted : ((cw c 9).toNat != 0xFFFF) = true := bne_iff_ne.2 hslot
    simp only [hkeyed, hslotted, Bool.not_false, Bool.and_self, Bool.false_or, if_true, and_self]
  · simp only [hunkeyed, Bool.true_or]
  · simp only [hkeyed, hnone, bne_self_eq_false, Bool.and_false, Bool.or_self]

theorem getD_sesOf {s : State} {k : Nat} {x : Ctx} (hx : sesOf s k = some x) : (sesOf s k).getD default = x := by
  rw [hx]
  rfl

/-- All the input that a hash session has taken, that of its end included. -/
def finalInput (c : Cmd) (p : SesPart) : List Byte := p.chain ++ c.input.take (cLen c)

/-- The last blocks of a hash session are charged. -/
def finalCharged (c : Cmd) (p : SesPart) (s : State) : State :=
  chargeHash p.code (hashWork p.code (finalInput c p).length (if unkeyed p.code then outOf p.code c else p.tlen) -
    p.chain.length / hashBlock p.code) (cCtx c) c p.key s

/-- The session is closed then. -/
def finalClosed (c : Cmd) (p : SesPart) (s : State) : State := closeSession (cCtx c) (finalCharged c p s)

theorem finalCharged_within (c : Cmd) (p : SesPart) (s : State) : Within [.eng, .budget] s (finalCharged c p s) :=
  chargeHash_within _ _ _ _ _ _

theorem finalClosed_within (c : Cmd) (p : SesPart) (s : State) :
    Within [.skim, .eng, .sealer, .log, .budget, .outbox] s (finalClosed c p s) := by
  have hclosed := (closeSession_goes (cCtx c) (finalCharged c p s) Goes.rfl (List.Subset.refl _)).within
  exact ((finalCharged_within c p s).mono (by decide)).trans (hclosed.mono (by decide))

theorem ctx_finalClosed (c : Cmd) (p : SesPart) (s : State) :
    (finalClosed c p s).skim.ctx = mdel s.skim.ctx (cCtx c) := by
  unfold finalClosed
  rw [ctx_closeSession, finalCharged_within c p s .skim (by decide)]

section
variable {x : Ctx} (hx : sesOf s (cCtx c) = some x)
include hx

theorem hshFinalEff_unkeyed (hunkeyed : unkeyed x.ses.code = true) :
    hshFinalEff c s = output c (hashOf x.ses.code x.ses.nlen x.ses.slen [] (finalInput c x.ses) (outOf x.ses.code c))
      (finalClosed c x.ses s) := by
  unfold hshFinalEff finalClosed finalCharged finalInput
  simp only [getD_sesOf hx, hunkeyed, if_true]

theorem hshFinalEff_keyed (hkeyed : unkeyed x.ses.code = false) :
    hshFinalEff c s = macEnd c x.ses.code x.ses.nlen x.ses.slen x.ses.tlen x.ses.dir x.ses.derive_ x.ses.key
      (finalInput c x.ses) 0x10000 (bits (cw c 9) 15 0) (finalClosed c x.ses s) := by
  unfold hshFinalEff finalClosed finalCharged finalInput
  simp only [getD_sesOf hx, hkeyed, Bool.false_eq_true, if_false]

/-- A key derived by a session goes to another one, since the session itself has its key (R410, R443). -/
theorem target_of_hshFinalCheck (hcheck : hshFinalCheck c s = none) (hderives : x.ses.derive_ = true) :
    (mget (mdel s.skim.ctx (cCtx c)) (bits (cw c 9) 15 0)).isSome = true := by
  unfold hshFinalCheck hashSesFail at hcheck
  simp only [hx, Option.getD_some, hderives, if_true] at hcheck
  split at hcheck
  · exact nomatch hcheck
  · next hsession =>
    have hkey : x.ses.keyset = true := by
      have hall := (firstFail_eq_none_iff.1 hsession) (!x.ses.keyset, 0x0301) (by simp only [List.mem_cons, true_or, or_true])
      simpa only [Bool.not_eq_false'] using hall
    split at hcheck
    · exact nomatch hcheck
    · next htarget =>
      obtain ⟨y, hy, hnone⟩ := targetFail_eq_none htarget
      have hother : bits (cw c 9) 15 0 ≠ cCtx c := by
        intro hsame
        rw [hsame, (sesOf_eq_some_iff.1 hx).1] at hy
        cases hy
        exact absurd (hkey.symm.trans hnone) (by decide)
      rw [mget_mdel_other _ _ _ hother, show mget s.skim.ctx _ = some y from hy]
      rfl

end

section
variable {x : Ctx} (hruns : runnable s c = true) (hturn : sesTurn c s = true) (hx : sesOf s (cCtx c) = some x)
  (hready : mayRun s (hashEngine x.ses.code) 4 c.fn = true)
include hruns hturn hx hready

theorem exec_hshUpdate (hcheck : hshUpdateCheck c s = none) :
    ∃ t y, exec (.hshUpdate c) s = .next t ∧ WorkStaged s t c.tok 0 0 [] ∧
      Within [.journal, .skim, .eng, .sealer, .span, .log, .budget, .outbox] s t ∧ ctxOf t (cCtx c) = some y ∧
      y.ses = { x.ses with
        chain := x.ses.chain ++ c.input.take (cLen c), octets := x.ses.octets + cLen c, streamed := true } := by
  have hexec : exec (.hshUpdate c) s = .next (runWork hshUpdateCheck hshUpdateEff c s) := by
    rw [← getD_sesOf hx] at hready
    exact congrArg Host.Outcome.next ((inTurn_eq hturn _).trans (onEngine_eq hready _))
  have hupdated := (hshUpdateEff_goes c s Goes.rfl (List.Subset.refl _)).within
  obtain ⟨hstaged, hkept⟩ := runWork_stages (eff := hshUpdateEff) hruns hcheck rfl (hupdated .journal (by decide))
  let v := updSes (cCtx c) (fun p => { p with
    chain := p.chain ++ c.input.take (cLen c), octets := p.octets + cLen c, streamed := true }) s
  have hsessions : KeepsSessions v (hshUpdateEff c s).st :=
    (keepsSessions_cntCtx (cCtx c) 0 1 v).trans (keepsSessions_chargeHash _ _ _ _ _ _)
  obtain ⟨y, hy, -, hses⟩ := (hsessions.trans (.of_within hkept (by decide))).ctxOf
    (ctxOf_updSes_self (sesOf_eq_some_iff.1 hx).1 _)
  exact ⟨_, y, hexec, hstaged, ((execHshUpdate_goes c s .rfl (List.Subset.refl _)).holds _ hexec).within, hy, hses⟩

theorem exec_hshFinal (hcheck : hshFinalCheck c s = none) :
    let p := x.ses
    let all := finalInput c p
    let tag := hashOf p.code p.nlen p.slen p.key (macData p.dir p.tlen all) p.tlen
    ∃ t, exec (.hshFinal c) s = .next t ∧
      Within [.journal, .skim, .eng, .sealer, .span, .log, .budget, .outbox] s t ∧
      (unkeyed p.code = true →
        let o := hashOf p.code p.nlen p.slen [] all (outOf p.code c)
        WorkStaged s t c.tok 0 (outputCount c o) (o.take (cOutLen c)) ∧ t.skim.ctx = mdel s.skim.ctx (cCtx c)) ∧
      (unkeyed p.code = false → p.derive_ = false → p.dir = false →
        WorkStaged s t c.tok 0 (outputCount c tag) (tag.take (cOutLen c)) ∧ t.skim.ctx = mdel s.skim.ctx (cCtx c)) ∧
      (unkeyed p.code = false → p.derive_ = false → p.dir = true →
        WorkStaged s t c.tok (if tag = all.drop (all.length - p.tlen) then 0 else 0x0401) 0 [] ∧
        ∀ k, k < 0x10000 → ctxOf t k = mget (mdel s.skim.ctx (cCtx c)) k) ∧
      (unkeyed p.code = false → p.derive_ = true → WorkStaged s t c.tok 0 0 [] ∧
        ∃ z, ctxOf t (bits (cw c 9) 15 0) = some z ∧ z.ses.keyset = true ∧ z.ses.key = tag) := by
  intro p all tag
  have hexec : exec (.hshFinal c) s = .next (runWork hshFinalCheck hshFinalEff c s) := by
    rw [← getD_sesOf hx] at hready
    exact congrArg Host.Outcome.next ((inTurn_eq hturn _).trans (onEngine_eq hready _))
  have hclosed := finalClosed_within c p s
  have hjournal : (finalClosed c p s).journal = s.journal := hclosed .journal (by decide)
  have hctx : (finalClosed c p s).skim.ctx = mdel s.skim.ctx (cCtx c) := ctx_finalClosed c p s
  refine ⟨_, hexec, ((execHshFinal_goes c s .rfl (List.Subset.refl _)).holds _ hexec).within, fun hunkeyed => ?_, ?_⟩
  · obtain ⟨hstaged, hkept⟩ := runWork_stages hruns hcheck ((hshFinalEff_unkeyed hx hunkeyed).trans (output_eq ..)) hjournal
    exact ⟨hstaged, (congrArg Skim.ctx (hkept .skim (by decide))).trans hctx⟩
  · have hends := fun hkeyed => macEnd_stages hruns hcheck (hshFinalEff_keyed hx hkeyed) hjournal
    refine ⟨fun hkeyed hkeeps hdir => ?_, fun hkeyed hkeeps hdir => ?_, fun hkeyed hderive => ?_⟩
    · obtain ⟨hstaged, hskim⟩ := (hends hkeyed).1 hkeeps hdir
      exact ⟨hstaged, hskim.trans hctx⟩
    · obtain ⟨hstaged, hother⟩ := (hends hkeyed).2.1 hkeeps hdir
      refine ⟨hstaged, fun k hk => (hother k (by omega)).trans ?_⟩
      unfold ctxOf
      rw [hctx]
    · refine (hends hkeyed).2.2 hderive ?_
      unfold ctxOf
      rw [hctx]
      exact target_of_hshFinalCheck hx hcheck hderive

end

end

/-- Settles O47: each row by its own theorem. -/
theorem hashCommands : Obligations.HashCommands := by
  unfold Obligations.HashCommands
  intro c s hruns hturn
  exact ⟨exec_hshDigest hruns, exec_hshMac hruns hturn, exec_hshOpen hruns hturn, fun x hx hready =>
    ⟨exec_hshUpdate hruns hturn hx hready, exec_hshFinal hruns hturn hx hready⟩⟩

end Sys2Proof.Machine
end

section
/-! SUPPORT. The cph. commands of sessions (R411 to R414, R425 to R430): opening, closing, saving and restoring, one theorem per
row. -/
namespace Sys2Proof.Machine

section
variable {c : Cmd} {s : State} (hruns : runnable s c = true) (hturn : sesTurn c s = true)
include hruns hturn

theorem exec_cphOpen (hcheck : cphOpenCheck c s = none) :
    ∃ t x, exec (.cphOpen c) s = .next t ∧ Served [.skim, .sealer, .log] s t c 0 [] ∧ ctxOf t (cCtx c) = some x ∧
      x.kind = 7 ∧ x.st = 1 ∧ x.fn = c.fn ∧ x.ses.skind = 1 ∧ x.ses.code = coMode c ∧ x.ses.dir = coDir c ∧
      x.ses.tlen = coTlen c ∧ x.ses.unitlg = coUnit c ∧ x.ses.final = false ∧ x.ses.chain = [] ∧
      (bits (cw c 9) 15 0 ≠ 0xFFFF → x.ses.keyset = true ∧ x.ses.key = slotKey s (bits (cw c 9) 15 0)) ∧
      (bits (cw c 9) 15 0 = 0xFFFF → x.ses.keyset = false) := by
  have hopened := (cphOpenEff_goes c s Goes.rfl (List.Subset.refl _)).within
  obtain ⟨hends, hkept⟩ := runPlain_ends (eff := cphOpenEff) hruns hcheck rfl (hopened .journal (by decide))
  refine ⟨_, _, congrArg Host.Outcome.next (inTurn_eq hturn _),
    ⟨hends, (hopened.mono (by decide)).trans (hkept.mono (by decide))⟩,
    (ctxOf_congr (hkept .skim (by decide)) _).trans (ctxOf_openSession_self ..),
    rfl, rfl, rfl, rfl, rfl, rfl, rfl, rfl, rfl, rfl, fun hslot => ?_, fun hnone => ?_⟩
  · exact ⟨decide_eq_true hslot, if_pos (decide_eq_true hslot)⟩
  · exact decide_eq_false (not_not_intro hnone)

theorem exec_cphClose (hopen : (sesOf s (cCtx c)).isSome = true) :
    ∃ t, exec (.cphClose c) s = .next t ∧ Served [.skim, .sealer, .log] s t c 0 [] ∧
      t.skim.ctx = mdel s.skim.ctx (cCtx c) := by
  have hcheck : cphCloseCheck c s = none := by
    unfold cphCloseCheck
    rw [Option.isNone_eq_false_iff.2 hopen]
    rfl
  have hclosed := (cphCloseEff_goes c s Goes.rfl (List.Subset.refl _)).within
  obtain ⟨hends, hkept⟩ := runPlain_ends (eff := cphCloseEff) hruns hcheck rfl (hclosed .journal (by decide))
  exact ⟨_, congrArg Host.Outcome.next (inTurn_eq hturn _),
    ⟨hends, (hclosed.mono (by decide)).trans (hkept.mono (by decide))⟩,
    (congrArg Skim.ctx (hkept .skim (by decide))).trans (ctx_closeSession _ s)⟩

end

/-! cph.save (R425 to R428). -/

/-- The state in which a save has been counted and its sequence number taken. -/
def saved (c : Cmd) (seq : Nat) (s : State) : State :=
  cntCtx (cCtx c) 3 1 (updSes (cCtx c) (fun p => { p with saveSeq := seq }) s)

theorem saved_within (c : Cmd) (seq : Nat) (s : State) : Within [.skim, .sealer, .log, .outbox] s (saved c seq s) :=
  (cntCtx_goes (cCtx c) 3 1 _ (updSes_goes (cCtx c) _ s Goes.rfl (List.Subset.refl _)) (by decide)).within

/-- The session whose number a save has taken. -/
theorem ctxOf_saved {c : Cmd} {s : State} {x : Ctx} (hx : ctxOf s (cCtx c) = some x) (seq : Nat) :
    ∃ y, ctxOf (saved c seq s) (cCtx c) = some y ∧ y.ses = { x.ses with saveSeq := seq } := by
  obtain ⟨y, hy, -, hses⟩ := (keepsSessions_cntCtx (cCtx c) 3 1 _).ctxOf
    (ctxOf_updSes_self hx (fun p => { p with saveSeq := seq }))
  exact ⟨y, hy, hses⟩

/-- The chaining state of a session as its saved form holds it. -/
def savedState (p : SesPart) : List Byte := fit 496 (Config.packState p.iv p.aad p.chain p.octets p.streamed p.final)

/-- The saved form of a session without wrapping (R427). -/
def openBlob (c : Cmd) (x : Ctx) : List Byte :=
  let head := blobHead (cCtx c) x (x.ses.saveSeq + 1) false []
  head ++ savedState x.ses ++ (Config.hash 3 (head ++ savedState x.ses)).take 16

/-- The saved form of a session wrapped under a key, with the IV drawn for it (R427, R428). -/
def wrappedBlob (c : Cmd) (x : Ctx) (key iv : List Byte) : List Byte :=
  let head := blobHead (cCtx c) x (x.ses.saveSeq + 1) true iv
  let ct := fit 496 (Config.cipher 3 false key iv (savedState x.ses))
  head ++ ct ++ fit 16 (Config.tag 3 key iv head ct)

section
variable {c : Cmd} {s : State} {x : Ctx} (hx : sesOf s (cCtx c) = some x)
include hx

theorem cphSaveEff_open (hform : csWrapped c = false) :
    cphSaveEff c s = output c (openBlob c x) (saved c (x.ses.saveSeq + 1) s) := by
  unfold cphSaveEff
  simp only [hform, Bool.false_eq_true, if_false, getD_sesOf hx]
  rfl

theorem cphSaveEff_wrapped (hform : csWrapped c = true) :
    cphSaveEff c s = output c (wrappedBlob c x (fnOf s x.fn).ctxKey (generate c.fn 0 12 s).1)
      (saved c (x.ses.saveSeq + 1) (generate c.fn 0 12 s).2) := by
  have hfns : (saved c (x.ses.saveSeq + 1) (generate c.fn 0 12 s).2).fns = s.fns :=
    (saved_within _ _ _ .fns (by decide)).trans (generate_within c.fn 0 12 s .fns (by decide))
  rw [← fnOf_congr hfns]
  unfold cphSaveEff
  simp only [hform, if_true, getD_sesOf hx]
  rfl

/-- A wrapped form is saved only where the random octets it needs are to be had. -/
theorem drawRefused_of_cphSaveCheck (hform : csWrapped c = true) (hcheck : cphSaveCheck c s = none) :
    drawRefused s = none := by
  unfold cphSaveCheck at hcheck
  rw [hx] at hcheck
  have hall := (firstFail_eq_none_iff.1 hcheck) (csWrapped c && (drawRefused s).isSome, (drawRefused s).getD 0)
    (by simp only [List.mem_cons, true_or, or_true])
  simpa only [hform, Bool.true_and, Option.isSome_eq_false_iff, Option.isNone_iff_eq_none] using hall

variable (hruns : runnable s c = true) (hturn : sesTurn c s = true) (hcheck : cphSaveCheck c s = none)
include hruns hturn hcheck

theorem exec_cphSave_open (hform : csWrapped c = false) :
    let o := (openBlob c x).take (cOutLen c)
    ∃ t y, exec (.cphSave c) s = .next t ∧
      Served [.skim, .sealer, .log] s t c (if o.length < cOutLen c then BitVec.ofNat 32 o.length else 0) o ∧
      ctxOf t (cCtx c) = some y ∧ y.ses = { x.ses with saveSeq := x.ses.saveSeq + 1 } := by
  intro o
  have hsaved := saved_within c (x.ses.saveSeq + 1) s
  obtain ⟨hends, hkept⟩ := runPlain_ends hruns hcheck ((cphSaveEff_open hx hform).trans (output_eq ..))
    (hsaved .journal (by decide))
  obtain ⟨y, hy, hses⟩ := ctxOf_saved (sesOf_eq_some_iff.1 hx).1 (x.ses.saveSeq + 1)
  have hexec : exec (.cphSave c) s = .next (runPlain cphSaveCheck cphSaveEff c s) :=
    congrArg Host.Outcome.next ((inTurn_eq hturn _).trans (if_neg (ne_true_of_eq_false hform)))
  exact ⟨_, y, hexec, ⟨hends, (hsaved.mono (by decide)).trans (hkept.mono (by decide))⟩,
    (ctxOf_congr (hkept .skim (by decide)) _).trans hy, hses⟩

theorem exec_cphSave_wrapped (hform : csWrapped c = true) (hready : drawReady s 0 = true) :
    let o := (wrappedBlob c x (fnOf s x.fn).ctxKey (generate c.fn 0 12 s).1).take (cOutLen c)
    ∃ t y, exec (.cphSave c) s = .next t ∧
      Served [.skim, .eng, .rng, .sealer, .log, .budget] s t c
        (if o.length < cOutLen c then BitVec.ofNat 32 o.length else 0) o ∧
      ctxOf t (cCtx c) = some y ∧ y.ses = { x.ses with saveSeq := x.ses.saveSeq + 1 } := by
  intro o
  have hdrawn := generate_within c.fn 0 12 s
  have hsaved := (hdrawn.mono (qs := [.skim, .eng, .rng, .sealer, .log, .budget, .outbox]) (by decide)).trans
    ((saved_within c (x.ses.saveSeq + 1) (generate c.fn 0 12 s).2).mono (by decide))
  obtain ⟨hends, hkept⟩ := runPlain_ends hruns hcheck ((cphSaveEff_wrapped hx hform).trans (output_eq ..))
    (hsaved .journal (by decide))
  obtain ⟨y, hy, hses⟩ := ctxOf_saved
    ((ctxOf_congr (hdrawn .skim (by decide)) _).trans (sesOf_eq_some_iff.1 hx).1) (x.ses.saveSeq + 1)
  have hexec : exec (.cphSave c) s = .next (runPlain cphSaveCheck cphSaveEff c s) := by
    refine congrArg Host.Outcome.next ((inTurn_eq hturn _).trans ((if_pos hform).trans ?_))
    unfold withDraw
    rw [drawRefused_of_cphSaveCheck hx hform hcheck]
    exact if_pos hready
  exact ⟨_, y, hexec, ⟨hends, (hsaved.mono (by decide)).trans (hkept.mono (by decide))⟩,
    (ctxOf_congr (hkept .skim (by decide)) _).trans hy, hses⟩

end

/-! cph.restore (R429, R430). -/

section
variable {c : Cmd} {s : State} {x : Ctx} (hx : sesOf s (cCtx c) = some x) (hruns : runnable s c = true)
  (hturn : sesTurn c s = true)
include hx hruns hturn

theorem exec_cphRestore (hcheck : cphRestoreCheck c s = none) :
    ∃ t y, exec (.cphRestore c) s = .next t ∧ Served [.skim, .sealer, .log] s t c 0 [] ∧ ctxOf t (cCtx c) = some y ∧
      (y.ses.iv, y.ses.aad, y.ses.chain, y.ses.octets, y.ses.streamed, y.ses.final) =
        Config.unpackState (blobState c.input x s) ∧
      y.ses.key = x.ses.key ∧ y.ses.keyset = x.ses.keyset ∧ y.ses.dir = x.ses.dir := by
  have hexec : exec (.cphRestore c) s = .next (runPlain cphRestoreCheck cphRestoreEff c s) := by
    refine congrArg Host.Outcome.next ((inTurn_eq hturn _).trans ?_)
    simp only [hruns, if_true, hcheck]
  have hrestored := (cphRestoreEff_goes c s Goes.rfl (List.Subset.refl _)).within
  obtain ⟨hends, hkept⟩ := runPlain_ends (eff := cphRestoreEff) hruns hcheck rfl (hrestored .journal (by decide))
  obtain ⟨y, hy, -, hses⟩ := (keepsSessions_cntCtx (cCtx c) 4 1 _).ctxOf
    (ctxOf_updSes_self (sesOf_eq_some_iff.1 hx).1 _)
  refine ⟨_, y, hexec, ⟨hends, (hrestored.mono (by decide)).trans (hkept.mono (by decide))⟩,
    (ctxOf_congr (hkept .skim (by decide)) _).trans hy, ?_⟩
  rw [hses, getD_sesOf hx]
  exact ⟨rfl, rfl, rfl, rfl⟩

/-- A refused restore is counted, and the session keeps its state. -/
theorem exec_cphRestore_refused {status : Nat} (hcheck : cphRestoreCheck c s = some status) :
    ∃ t y, exec (.cphRestore c) s = .next t ∧ Ends s t c.tok status 0 [] ∧
      Within [.journal, .skim, .eng, .span, .log, .outbox] s t ∧ ctxOf t (cCtx c) = some y ∧ y.ses = x.ses := by
  obtain ⟨j, hj, -⟩ := runnable_jent hruns
  have hexec : exec (.cphRestore c) s = .next (settle c.tok status 0 [] (noteRestore c s)) := by
    refine congrArg Host.Outcome.next ((inTurn_eq hturn _).trans ?_)
    simp only [hruns, if_true, hcheck]
  have hnoted := (noteRestore_goes c s Goes.rfl (List.Subset.refl _)).within
  have hsettled := settle_within c.tok status 0 [] (noteRestore c s)
  have hsessions : KeepsSessions s (noteRestore c s) := by
    have hcounted (u : State) : KeepsSessions u (event 11 2 (cntEng 5 1 (cntCtx (cCtx c) 5 1 u))) :=
      (keepsSessions_cntCtx (cCtx c) 5 1 u).trans (.of_ctx (congrArg Skim.ctx (skim_event_cntEng 2 5 _)))
    unfold noteRestore
    rw [hcheck]
    dsimp only
    split
    · exact (keepsSessions_authFailed (cCtx c) s).trans (hcounted _)
    · exact hcounted s
  obtain ⟨y, hy, -, hses⟩ := (hsessions.trans (.of_within hsettled (by decide))).ctxOf (sesOf_eq_some_iff.1 hx).1
  exact ⟨_, y, hexec, settle_ends _ _ _ (hnoted .journal (by decide)) hj,
    (hnoted.mono (by decide)).trans (hsettled.mono (by decide)), hy, hses⟩

end

end Sys2Proof.Machine
end

section
/-! SUPPORT. cph.run (R411, R415, R420 to R424): what a run takes and writes in each mode, its outcome as it is staged, and the
statement O46. -/
namespace Sys2Proof.Machine

/-! A run's parts: additional data, data, tag at the end of the input, and all data of the session (R413, R415). -/

def runAad (c : Cmd) (p : SesPart) : List Byte := (crParts c p).1
def runData (c : Cmd) (p : SesPart) : List Byte := (crParts c p).2.1
def runTag (c : Cmd) (p : SesPart) : List Byte := (crParts c p).2.2
def runAll (c : Cmd) (p : SesPart) : List Byte := p.chain ++ runData c p

/-- The octets that the mode makes of the run's data. -/
def runOutput (c : Cmd) (p : SesPart) : List Byte :=
  fit (runData c p).length ((Config.cipher p.code p.dir p.key p.iv (runAll c p)).drop p.chain.length)

/-- The tag of GMAC or CMAC over all data. -/
def macTag (c : Cmd) (p : SesPart) : List Byte :=
  fit p.tlen (if p.code = 4 then Config.tag 4 p.key p.iv (runAll c p) [] else Config.tag 6 p.key [] [] (runAll c p))

/-- The ciphertext of a GCM session: what it has taken, or what it has made of that. -/
def gcmCipher (c : Cmd) (p : SesPart) : List Byte :=
  if p.dir then runAll c p else Config.cipher 3 false p.key p.iv (runAll c p)

/-- The tag of GCM over all additional data and the ciphertext. -/
def gcmTag (c : Cmd) (p : SesPart) : List Byte := fit p.tlen (Config.tag 3 p.key p.iv (p.aad ++ runAad c p) (gcmCipher c p))

/-- The input of a wrap: the command's own, or the key of the session named. -/
def wrapInput (c : Cmd) (s : State) : List Byte :=
  if crOther c = 0 then c.input.take (cLen c) else ((sesOf s (crOther c)).getD default).ses.key

/-- The state in which a run is counted and charged. -/
def runCharged (c : Cmd) (p : SesPart) (s : State) : State :=
  engineWork 2 4 c.fn (cphCost c p s).2 (cCtx c) c.tok (p.key ++ p.iv) (cntEng 0 (cphCost c p s).1 (cntCtx (cCtx c) 0 1 s))

/-- The state in which the session holds the octets that the run has taken. -/
def runTaken (c : Cmd) (p : SesPart) (s : State) : State :=
  updSes (cCtx c) (afterRun c (runAad c p) (runData c p)) (runCharged c p s)

/-- The state in which a wrap or unwrap is counted in its session, which holds no data. -/
def wrapTaken (c : Cmd) (p : SesPart) (s : State) : State :=
  updSes (cCtx c) (fun p => { p with
    streamed := p.streamed || !crFinal c, final := p.final || crFinal c, octets := p.octets + cLen c }) (runCharged c p s)

theorem runCharged_within (c : Cmd) (p : SesPart) (s : State) : Within [.skim, .eng, .budget] s (runCharged c p s) := by
  have hcounted := (cntEng_goes 0 (cphCost c p s).1 _ (cntCtx_goes (ps := [.skim, .eng]) (cCtx c) 0 1 s Goes.rfl (by decide))
    (by decide)).within
  have hworked := engineWork_within (show 4 ≤ 4 by decide) 2 c.fn (cphCost c p s).2 (cCtx c) c.tok (p.key ++ p.iv)
    (cntEng 0 (cphCost c p s).1 (cntCtx (cCtx c) 0 1 s))
  exact (hcounted.mono (by decide)).trans (hworked.mono (by decide))

theorem keepsSessions_runCharged (c : Cmd) (p : SesPart) (s : State) : KeepsSessions s (runCharged c p s) :=
  (keepsSessions_cntCtx (cCtx c) 0 1 s).trans ((KeepsSessions.of_within (cntEng_within _ _ _) (by decide)).trans
    (.of_within (engineWork_within (show 4 ≤ 4 by decide) _ _ _ _ _ _ _) (by decide)))

/-- The session of a run holds what the run has taken. -/
theorem ctxOf_runTaken {c : Cmd} {s : State} {x : Ctx} (hx : sesOf s (cCtx c) = some x) :
    ∃ y, ctxOf (runTaken c x.ses s) (cCtx c) = some y ∧ y.ses = afterRun c (runAad c x.ses) (runData c x.ses) x.ses := by
  obtain ⟨y, hy, -, hses⟩ := (keepsSessions_runCharged c x.ses s).ctxOf (sesOf_eq_some_iff.1 hx).1
  exact ⟨_, ctxOf_updSes_self hy _, congrArg (afterRun c _ _) hses⟩

/-! What a run does, mode by mode. -/

/-- An effect that outputs these octets and counts them. -/
def ranTo (s : State) (o : List Byte) : Eff := { st := s, result := BitVec.ofNat 32 o.length, out := o }

/-- The final run of a GCM decryption: the plaintext, erased in ACTIVE and STANDBY where the tag does not match (R422). -/
def gcmOpened (c : Cmd) (p : SesPart) (s : State) : Eff :=
  if gcmTag c p = runTag c p then ranTo (runTaken c p s) (runOutput c p)
  else if !s.sys.startup && (mode s == 2 || mode s == 3) then
    { st := authFailed (cCtx c) (runTaken c p s), status := 0x0401, out := List.replicate (runOutput c p).length 0 }
  else { ranTo (event 11 1 (cntEng 4 1 (cntCtx (cCtx c) 2 1 (runTaken c p s)))) (runOutput c p) with status := 0x0402 }

/-- A run of GMAC or CMAC: nothing, the tag, or whether it verifies. -/
def macRan (c : Cmd) (p : SesPart) (s : State) : Eff :=
  if !crFinal c then ranTo (runTaken c p s) []
  else if !p.dir then ranTo (runTaken c p s) (macTag c p)
  else if macTag c p = runTag c p then ranTo (runTaken c p s) [] else cphFail c (runTaken c p s)

/-- An unwrapped key goes to the session named, where it fits (R410). -/
def unwrapped (c : Cmd) (p : SesPart) (s : State) : Eff :=
  match Config.unwrap p.code p.key (c.input.take (cLen c)) with
  | none => cphFail c (wrapTaken c p s)
  | some key =>
    if keyFits s (crOther c) key.length false then done (installKey (crOther c) key (wrapTaken c p s))
    else { st := wrapTaken c p s, status := 0x0303 }

section
variable {c : Cmd} {s : State} {x : Ctx} (hx : sesOf s (cCtx c) = some x)
include hx

/-- What a run does, by the mode of its session. -/
theorem cphRunEff_eq : cphRunEff c s =
    if x.ses.code = 7 ∨ x.ses.code = 8 then
      if x.ses.dir then unwrapped c x.ses s
      else ranTo (wrapTaken c x.ses s) (fit (crOut c x.ses s) (Config.wrap x.ses.code x.ses.key (wrapInput c s)))
    else if x.ses.code = 4 ∨ x.ses.code = 6 then macRan c x.ses s
    else if x.ses.code ≠ 3 ∨ !crFinal c then ranTo (runTaken c x.ses s) (runOutput c x.ses)
    else if !x.ses.dir then ranTo (runTaken c x.ses s) (runOutput c x.ses ++ gcmTag c x.ses)
    else gcmOpened c x.ses s := by
  have hsessions := keepsSessions_runCharged c x.ses s
  have hsys : (runCharged c x.ses s).sys = s.sys := runCharged_within c x.ses s .sys (by decide)
  have hfits := hsessions.keyFits (crOther c)
  have hinput : wrapInput c (runCharged c x.ses s) = wrapInput c s := by
    unfold wrapInput
    rw [hsessions.getD]
  have hout : crOut c x.ses (runCharged c x.ses s) = crOut c x.ses s := by
    unfold crOut wrapLen
    rw [hsessions.getD]
  unfold gcmOpened unwrapped
  simp only [← hinput, ← hout, ← hsys, ← mode_congr hsys, ← hfits]
  unfold cphRunEff
  simp only [getD_sesOf hx]
  rfl

end

/-! What the check of a run has settled, and how the run is staged. -/

section
variable {c : Cmd} {s : State} {x : Ctx} (hx : sesOf s (cCtx c) = some x)
include hx

/-- A run that may start is of a cipher session with a key, and an unwrap has a session for its key. -/
theorem cphRunCheck_eq_none (hcheck : cphRunCheck c s = none) :
    x.ses.skind = 1 ∧ x.ses.keyset = true ∧
      (x.ses.code = 7 ∨ x.ses.code = 8 → x.ses.dir = true → targetFail s c.fn (crOther c) = none) := by
  unfold cphRunCheck at hcheck
  rw [hx] at hcheck
  dsimp only at hcheck
  split at hcheck
  · exact nomatch hcheck
  · next hsession =>
    have hall := firstFail_eq_none_iff.1 hsession
    have hkind := hall (x.ses.skind != 1 || x.ses.final, 0x0705) (by simp only [List.mem_cons, true_or])
    have hkey := hall (!x.ses.keyset, 0x0301) (by simp only [List.mem_cons, true_or, or_true])
    simp only [Bool.or_eq_false_iff, bne_eq_false_iff_eq] at hkind
    refine ⟨hkind.1, by simpa only [Bool.not_eq_false'] using hkey, fun hwraps hdir => ?_⟩
    have hkw : (x.ses.code == 7 || x.ses.code == 8) = true := by
      simpa only [Bool.or_eq_true, beq_iff_eq] using hwraps
    simpa only [hkw, hdir, Bool.and_self, if_true] using hcheck

/-- The session that receives an unwrapped key is another one, since the session itself has its key. -/
theorem other_of_cphRunCheck (hcheck : cphRunCheck c s = none) (hwraps : x.ses.code = 7 ∨ x.ses.code = 8)
    (hdir : x.ses.dir = true) : crOther c ≠ cCtx c ∧ ∃ y, ctxOf s (crOther c) = some y := by
  obtain ⟨-, hkey, htarget⟩ := cphRunCheck_eq_none hx hcheck
  obtain ⟨y, hy, hnone⟩ := targetFail_eq_none (htarget hwraps hdir)
  refine ⟨fun hsame => ?_, y, hy⟩
  rw [hsame, (sesOf_eq_some_iff.1 hx).1] at hy
  cases hy
  exact absurd (hkey.symm.trans hnone) (by decide)

/-- What a run has written before its work is staged: the plaintext of a GCM decryption where DMA may be issued. -/
theorem plainFirst_eq (hskind : x.ses.skind = 1) :
    plainFirst c s = if x.ses.code = 3 ∧ x.ses.dir = true ∧ dmaOk s c.fn = true then some (runOutput c x.ses) else none := by
  unfold plainFirst
  simp only [hx, hskind, true_and]
  split
  · next hall =>
    obtain ⟨hcode, hdir, -⟩ := hall
    unfold runOutput runAll runData
    rw [hcode, hdir]
  · rfl

end

theorem hostMove_within (n f : Nat) (s : State) : Within [.budget] s (hostMove n f s) := by
  unfold hostMove
  split
  · exact Goes.rfl.within
  · exact charge_within (show 4 ≤ 4 by decide) 1 f _ s

/-- The state of a run whose work is staged. -/
def ranWork (c : Cmd) (s : State) : State := runWork cphRunCheck cphRunEff c s

/-- The state of a run whose plaintext stands in host memory. -/
def wroteFirst (c : Cmd) (o : List Byte) (g : Staged) (s : State) : State :=
  emits (outWrites c o) (hostMove o.length c.fn (updJ c.tok (fun j => { j with
    staged := some { g with out := if g.status = 0x0401 then g.out else [], wrote := o.length } }) s))

section
variable {c : Cmd} {s : State}

theorem runCipher_of_none (hfirst : plainFirst c s = none) : runCipher c s = ranWork c s := by
  unfold runCipher
  simp only [hfirst]
  rfl

theorem runCipher_of_some {o : List Byte} {j : JEntry} {g : Staged} (hruns : runnable s c = true)
    (hfirst : plainFirst c s = some o) (hj : jent (ranWork c s) c.tok = some j) (houtcome : j.outcome = none)
    (hg : j.staged = some g) : runCipher c s = if o.isEmpty then ranWork c s else wroteFirst c o g (ranWork c s) := by
  unfold ranWork at hj
  unfold runCipher
  simp only [hfirst, hj, Option.bind_some, houtcome, Option.isNone_none, if_true, hg, hruns, Bool.true_and]
  cases o with
  | nil => rfl
  | cons a l => rfl

theorem wroteFirst_within (c : Cmd) (o : List Byte) (g : Staged) (u : State) :
    Within [.journal, .budget, .outbox] u (wroteFirst c o g u) := by
  have hstaged := (updJ_goes (ps := [.journal]) c.tok (fun j => { j with
    staged := some { g with out := if g.status = 0x0401 then g.out else [], wrote := o.length } }) u Goes.rfl
    (List.Subset.refl _)).within
  have hmoved := hostMove_within o.length c.fn (updJ c.tok (fun j => { j with
    staged := some { g with out := if g.status = 0x0401 then g.out else [], wrote := o.length } }) u)
  exact ((hstaged.mono (by decide)).trans (hmoved.mono (by decide))).trans
    ((emits_goes (ps := [.outbox]) (outWrites c o) _ Goes.rfl (List.Subset.refl _)).within.mono (by decide))

theorem jent_wroteFirst {o : List Byte} {j : JEntry} {g : Staged} {u : State} (hj : jent u c.tok = some j) :
    jent (wroteFirst c o g u) c.tok = some { j with
      staged := some { g with out := if g.status = 0x0401 then g.out else [], wrote := o.length } } := by
  have hkept : (wroteFirst c o g u).journal = _ := hostMove_within o.length c.fn _ .journal (by decide)
  unfold jent
  rw [hkept]
  exact (jent_updJ_self c.tok _ u).trans (congrArg (Option.map _) hj)

end

/-! No ending of a run changes a session further. -/

theorem keepsSessions_cphFail (c : Cmd) (s : State) : KeepsSessions s (cphFail c s).st := keepsSessions_authFailed _ s

theorem keepsSessions_macRan (c : Cmd) (p : SesPart) (s : State) : KeepsSessions (runTaken c p s) (macRan c p s).st := by
  unfold macRan
  split
  · exact .of_ctx rfl
  · split
    · exact .of_ctx rfl
    · split
      · exact .of_ctx rfl
      · exact keepsSessions_cphFail c _

theorem keepsSessions_gcmOpened (c : Cmd) (p : SesPart) (s : State) :
    KeepsSessions (runTaken c p s) (gcmOpened c p s).st := by
  unfold gcmOpened
  split
  · exact .of_ctx rfl
  · split
    · exact keepsSessions_authFailed _ _
    · exact (keepsSessions_cntCtx (cCtx c) 2 1 _).trans (.of_ctx (congrArg Skim.ctx (skim_event_cntEng 1 4 _)))

theorem keepsSessions_cphRunEff {c : Cmd} {s : State} {x : Ctx} (hx : sesOf s (cCtx c) = some x)
    (hmode : x.ses.code ∉ [7, 8]) : KeepsSessions (runTaken c x.ses s) (cphRunEff c s).st := by
  rw [cphRunEff_eq hx, if_neg (by simpa only [List.mem_cons, List.not_mem_nil, or_false] using hmode)]
  split
  · exact keepsSessions_macRan c x.ses s
  · split
    · exact .of_ctx rfl
    · split
      · exact .of_ctx rfl
      · exact keepsSessions_gcmOpened c x.ses s

/-- The status of a run of a GCM decryption. -/
def openStatus (c : Cmd) (p : SesPart) (s : State) : Nat :=
  if crFinal c = false then 0
  else if gcmTag c p = runTag c p then 0
  else if mode s = 2 ∨ mode s = 3 then 0x0401 else 0x0402

theorem cphRunEff_opens {c : Cmd} {s : State} {x : Ctx} (hx : sesOf s (cCtx c) = some x) (hruns : runnable s c = true)
    (hmode : x.ses.code = 3) (hdir : x.ses.dir = true) :
    (cphRunEff c s).status = openStatus c x.ses s ∧
      (cphRunEff c s).result = (if (cphRunEff c s).status = 0x0401 then 0 else BitVec.ofNat 32 (runOutput c x.ses).length) ∧
      ((cphRunEff c s).status = 0x0401 → (cphRunEff c s).out = List.replicate (runOutput c x.ses).length 0) := by
  have hup : s.sys.startup = false := by
    have hmodeOk := modeOk_of_runnable hruns
    simp only [modeOk, Bool.and_eq_true, Bool.not_eq_true'] at hmodeOk
    exact hmodeOk.1.1.1
  have heff : cphRunEff c s = if crFinal c = false then ranTo (runTaken c x.ses s) (runOutput c x.ses)
      else gcmOpened c x.ses s := by
    rw [cphRunEff_eq hx]
    cases hfinal : crFinal c <;> simp [hmode, hdir]
  rw [heff]
  unfold openStatus
  split
  · exact ⟨rfl, rfl, fun h => nomatch h⟩
  · unfold gcmOpened
    split
    · exact ⟨rfl, rfl, fun h => nomatch h⟩
    · simp only [hup, Bool.not_false, Bool.true_and, Bool.or_eq_true, beq_iff_eq]
      split
      · exact ⟨rfl, rfl, fun _ => rfl⟩
      · exact ⟨rfl, rfl, fun h => nomatch h⟩

section
variable {c : Cmd} {s : State} {x : Ctx} (hx : sesOf s (cCtx c) = some x) (hruns : runnable s c = true)
  (hturn : sesTurn c s = true) (hready : mayRun s 2 4 c.fn = true) (hcheck : cphRunCheck c s = none)

theorem exec_cphRun (hturn : sesTurn c s = true) (hready : mayRun s 2 4 c.fn = true) :
    exec (.cphRun c) s = .next (runCipher c s) :=
  congrArg Host.Outcome.next ((inTurn_eq hturn _).trans (onEngine_eq hready _))

/-- The work of a run is staged as its effect says. -/
theorem ranWork_stages {e : Eff} (hruns : runnable s c = true) (hcheck : cphRunCheck c s = none)
    (heff : cphRunEff c s = e) : WorkStaged s (ranWork c s) c.tok e.status e.result e.out ∧ Within [.journal] e.st (ranWork c s) :=
  runWork_stages hruns hcheck heff
    (heff ▸ (cphRunEff_goes c s Goes.rfl (List.Subset.refl _)).within .journal (by decide))

include hx hcheck

/-- Only a GCM decryption writes before its work is staged. -/
theorem runCipher_eq (hmode : ¬(x.ses.code = 3 ∧ x.ses.dir = true)) : runCipher c s = ranWork c s := by
  refine runCipher_of_none ((plainFirst_eq hx (cphRunCheck_eq_none hx hcheck).1).trans (if_neg fun hall => hmode ?_))
  obtain ⟨hcode, hdir, -⟩ := hall
  exact ⟨hcode, hdir⟩

include hruns

/-- What a run writes first changes no session. -/
theorem runCipher_within : Within [.journal, .budget, .outbox] (ranWork c s) (runCipher c s) := by
  obtain ⟨⟨⟨j, hj, -, houtcome, hg⟩, -⟩, -⟩ := ranWork_stages hruns hcheck rfl
  have hfirst := plainFirst_eq hx (cphRunCheck_eq_none hx hcheck).1
  split at hfirst
  · rw [runCipher_of_some hruns hfirst hj houtcome hg]
    split
    · exact Goes.rfl.within
    · exact wroteFirst_within c _ _ _
  · rw [runCipher_of_none hfirst]
    exact Goes.rfl.within

include hturn hready

/-- A run other than a GCM decryption ends as its effect says. -/
theorem exec_cphRun_stages {e : Eff} (hmode : ¬(x.ses.code = 3 ∧ x.ses.dir = true)) (heff : cphRunEff c s = e) :
    ∃ t, exec (.cphRun c) s = .next t ∧ WorkStaged s t c.tok e.status e.result e.out ∧ Within [.journal] e.st t :=
  ⟨_, (exec_cphRun hturn hready).trans (congrArg _ (runCipher_eq hx hcheck hmode)), ranWork_stages hruns hcheck heff⟩

/-! The outcome mode by mode. -/

theorem exec_cphRun_takes (hmode : x.ses.code ∉ [7, 8]) :
    ∃ t y, exec (.cphRun c) s = .next t ∧
      Within [.journal, .skim, .eng, .sealer, .span, .log, .budget, .outbox] s t ∧
      ctxOf t (cCtx c) = some y ∧ y.ses = afterRun c (runAad c x.ses) (runData c x.ses) x.ses := by
  have hexec := exec_cphRun (s := s) hturn hready
  obtain ⟨-, hkept⟩ := ranWork_stages hruns hcheck rfl
  have hwritten := runCipher_within hx hruns hcheck
  have hsessions := (keepsSessions_cphRunEff hx hmode).trans
    ((KeepsSessions.of_within hkept (by decide)).trans (.of_within hwritten (by decide)))
  obtain ⟨z, hz, hses⟩ := ctxOf_runTaken hx
  obtain ⟨y, hy, -, hsame⟩ := hsessions.ctxOf hz
  exact ⟨_, y, hexec, ((execCphRun_goes c s .rfl (List.Subset.refl _)).holds _ hexec).within, hy, hsame.trans hses⟩

theorem exec_cphRun_stream (hmode : x.ses.code ∉ [3, 4, 6, 7, 8]) :
    ∃ t, exec (.cphRun c) s = .next t ∧
      WorkStaged s t c.tok 0 (BitVec.ofNat 32 (runOutput c x.ses).length) (runOutput c x.ses) := by
  simp only [List.mem_cons, List.not_mem_nil, or_false, not_or] at hmode
  obtain ⟨hgcm, hgmac, hcmac, hkw, hkwp⟩ := hmode
  have heff := cphRunEff_eq hx
  simp only [hgcm, hgmac, hcmac, hkw, hkwp, or_self, if_false, ne_eq, not_false_eq_true, true_or, if_true] at heff
  obtain ⟨t, hexec, hstaged, -⟩ := exec_cphRun_stages hx hruns hturn hready hcheck (fun hall => hgcm hall.1) heff
  exact ⟨t, hexec, hstaged⟩

theorem exec_cphRun_encrypts (hmode : x.ses.code = 3) (hdir : x.ses.dir = false) :
    let o := runOutput c x.ses ++ (if crFinal c then
      fit x.ses.tlen (Config.tag 3 x.ses.key x.ses.iv (x.ses.aad ++ runAad c x.ses)
        (Config.cipher 3 false x.ses.key x.ses.iv (runAll c x.ses))) else [])
    ∃ t, exec (.cphRun c) s = .next t ∧ WorkStaged s t c.tok 0 (BitVec.ofNat 32 o.length) o := by
  intro o
  have heff : cphRunEff c s = ranTo (runTaken c x.ses s) o := by
    have htag : gcmTag c x.ses = fit x.ses.tlen (Config.tag 3 x.ses.key x.ses.iv (x.ses.aad ++ runAad c x.ses)
        (Config.cipher 3 false x.ses.key x.ses.iv (runAll c x.ses))) := by
      unfold gcmTag gcmCipher
      rw [hdir]
      rfl
    rw [cphRunEff_eq hx, htag]
    cases hfinal : crFinal c <;> simp [o, hmode, hdir, hfinal]
  obtain ⟨t, hexec, hstaged, -⟩ := exec_cphRun_stages hx hruns hturn hready hcheck
    (fun hall => Bool.false_ne_true (hdir.symm.trans hall.2)) heff
  exact ⟨t, hexec, hstaged⟩

/-- A run of a GCM decryption stages its status and result word, and the plaintext stands in the output before (R421). -/
theorem exec_cphRun_decrypts (hmode : x.ses.code = 3) (hdir : x.ses.dir = true) :
    ∃ t j g, exec (.cphRun c) s = .next t ∧ jent t c.tok = some j ∧ j.started = true ∧ j.outcome = none ∧
      j.staged = some g ∧ g.status = openStatus c x.ses s ∧
      g.result = (if g.status = 0x0401 then 0 else BitVec.ofNat 32 (runOutput c x.ses).length) ∧
      (g.status = 0x0401 → g.out = List.replicate (runOutput c x.ses).length 0) ∧
      (dmaOk s c.fn = true → runOutput c x.ses ≠ [] →
        (∀ o ∈ outWrites c (runOutput c x.ses), o ∈ t.outbox) ∧ g.wrote = (runOutput c x.ses).length) := by
  have hexec := exec_cphRun (s := s) hturn hready
  obtain ⟨⟨⟨j, hj, hstarted, houtcome, hg⟩, -⟩, -⟩ := ranWork_stages hruns hcheck rfl
  obtain ⟨hstatus, hresult, hzeros⟩ := cphRunEff_opens hx hruns hmode hdir
  have hfirst := plainFirst_eq hx (cphRunCheck_eq_none hx hcheck).1
  simp only [hmode, hdir, true_and] at hfirst
  by_cases hdma : dmaOk s c.fn = true ∧ runOutput c x.ses ≠ []
  · obtain ⟨hmay, hsome⟩ := hdma
    rw [if_pos hmay] at hfirst
    have hwrote := runCipher_of_some hruns hfirst hj houtcome hg
    rw [if_neg (by simpa only [List.isEmpty_iff] using hsome)] at hwrote
    refine ⟨_, _, _, hexec.trans (congrArg _ hwrote), jent_wroteFirst hj, hstarted, houtcome, rfl, hstatus, hresult,
      fun hfailed => ?_, fun _ _ => ⟨fun o ho => List.mem_append_right _ ho, rfl⟩⟩
    exact (if_pos hfailed).trans (hzeros hfailed)
  · have hwrote : runCipher c s = ranWork c s := by
      by_cases hmay : dmaOk s c.fn = true
      · have hnone : runOutput c x.ses = [] := Classical.byContradiction fun hsome => hdma ⟨hmay, hsome⟩
        rw [if_pos hmay, hnone] at hfirst
        exact runCipher_of_some hruns hfirst hj houtcome hg
      · exact runCipher_of_none (hfirst.trans (if_neg hmay))
    exact ⟨_, _, _, hexec.trans (congrArg _ hwrote), hj, hstarted, houtcome, hg, hstatus, hresult, hzeros,
      fun hmay hsome => absurd ⟨hmay, hsome⟩ hdma⟩

theorem exec_cphRun_mac (hmode : x.ses.code = 4 ∨ x.ses.code = 6) :
    ∃ t, exec (.cphRun c) s = .next t ∧
      (crFinal c = false → WorkStaged s t c.tok 0 0 []) ∧
      (crFinal c = true → x.ses.dir = false →
        WorkStaged s t c.tok 0 (BitVec.ofNat 32 (macTag c x.ses).length) (macTag c x.ses)) ∧
      (crFinal c = true → x.ses.dir = true →
        WorkStaged s t c.tok (if macTag c x.ses = runTag c x.ses then 0 else 0x0401) 0 []) := by
  have hwraps : ¬(x.ses.code = 7 ∨ x.ses.code = 8) := by omega
  have heff : cphRunEff c s = macRan c x.ses s := by rw [cphRunEff_eq hx, if_neg hwraps, if_pos hmode]
  obtain ⟨t, hexec, hstaged, -⟩ := exec_cphRun_stages hx hruns hturn hready hcheck (by omega) heff
  refine ⟨t, hexec, fun hfinal => ?_, fun hfinal hdir => ?_, fun hfinal hdir => ?_⟩
  · unfold macRan at hstaged
    simp only [hfinal, Bool.not_false, if_true] at hstaged
    exact hstaged
  · unfold macRan at hstaged
    simp only [hfinal, hdir, Bool.not_true, Bool.not_false, Bool.false_eq_true, if_false, if_true] at hstaged
    exact hstaged
  · unfold macRan at hstaged
    simp only [hfinal, hdir, Bool.not_true, Bool.false_eq_true, if_false] at hstaged
    split
    · next heq =>
      rw [if_pos heq] at hstaged
      exact hstaged
    · next hne =>
      rw [if_neg hne] at hstaged
      exact hstaged

theorem exec_cphRun_wraps (hmode : x.ses.code = 7 ∨ x.ses.code = 8) (hdir : x.ses.dir = false) :
    let o := fit (crOut c x.ses s) (Config.wrap x.ses.code x.ses.key (wrapInput c s))
    ∃ t, exec (.cphRun c) s = .next t ∧ WorkStaged s t c.tok 0 (BitVec.ofNat 32 o.length) o := by
  intro o
  have heff : cphRunEff c s = ranTo (wrapTaken c x.ses s) o := by
    rw [cphRunEff_eq hx, if_pos hmode, hdir]
    rfl
  obtain ⟨t, hexec, hstaged, -⟩ := exec_cphRun_stages hx hruns hturn hready hcheck (by omega) heff
  exact ⟨t, hexec, hstaged⟩

theorem exec_cphRun_unwraps (hmode : x.ses.code = 7 ∨ x.ses.code = 8) (hdir : x.ses.dir = true) :
    ∃ t, exec (.cphRun c) s = .next t ∧
      (Config.unwrap x.ses.code x.ses.key (c.input.take (cLen c)) = none → WorkStaged s t c.tok 0x0401 0 [] ∧
        (ctxOf t (crOther c)).map (fun y => y.ses) = (ctxOf s (crOther c)).map (fun y => y.ses)) ∧
      (∀ key, Config.unwrap x.ses.code x.ses.key (c.input.take (cLen c)) = some key →
        (keyFits s (crOther c) key.length false = true → WorkStaged s t c.tok 0 0 [] ∧
          ∃ z, ctxOf t (crOther c) = some z ∧ z.ses.keyset = true ∧ z.ses.key = key) ∧
        (keyFits s (crOther c) key.length false = false → WorkStaged s t c.tok 0x0303 0 [])) := by
  obtain ⟨hother, y, hy⟩ := other_of_cphRunCheck hx hcheck hmode hdir
  have heff : cphRunEff c s = unwrapped c x.ses s := by rw [cphRunEff_eq hx, if_pos hmode, if_pos hdir]
  obtain ⟨t, hexec, hstaged, hkept⟩ := exec_cphRun_stages hx hruns hturn hready hcheck (by omega) heff
  obtain ⟨y', hy', -, hses⟩ := (keepsSessions_runCharged c x.ses s).ctxOf hy
  have htaken : ctxOf (wrapTaken c x.ses s) (crOther c) = some y' := (ctxOf_updSes_other hother _ _).trans hy'
  unfold unwrapped at hstaged hkept
  refine ⟨t, hexec, fun hnone => ?_, fun key hkey => ⟨fun hfits => ?_, fun hfits => ?_⟩⟩
  · simp only [hnone] at hstaged hkept
    refine ⟨hstaged, ?_⟩
    have hsame := (ctxOf_congr (hkept .skim (by decide)) (crOther c)).trans
      ((ctxOf_authFailed_other hother (wrapTaken c x.ses s)).trans htaken)
    rw [hsame, hy, Option.map_some, Option.map_some, hses]
  · simp only [hkey, hfits, if_true] at hstaged hkept
    obtain ⟨z, hz, hinstalled⟩ := ctxOf_installKey_self htaken key
    exact ⟨hstaged, z, (ctxOf_congr (hkept .skim (by decide)) _).trans hz, hinstalled⟩
  · simp only [hkey, hfits, Bool.false_eq_true, if_false] at hstaged
    exact hstaged

end

/-- Settles O46: each row by its own theorem, cph.run by the mode of its session. -/
theorem cipherCommands : Obligations.CipherCommands := by
  unfold Obligations.CipherCommands
  intro c s hruns hturn
  refine ⟨exec_cphOpen hruns hturn, exec_cphClose hruns hturn, fun x hx => ⟨fun hready hcheck =>
    ⟨exec_cphRun_takes hx hruns hturn hready hcheck, exec_cphRun_stream hx hruns hturn hready hcheck,
      exec_cphRun_encrypts hx hruns hturn hready hcheck, fun hmode hdir => ?_,
      exec_cphRun_mac hx hruns hturn hready hcheck, exec_cphRun_wraps hx hruns hturn hready hcheck,
      exec_cphRun_unwraps hx hruns hturn hready hcheck⟩,
    exec_cphSave_open hx hruns hturn, exec_cphSave_wrapped hx hruns hturn, exec_cphRestore hx hruns hturn,
    fun _ => exec_cphRestore_refused hx hruns hturn⟩⟩
  have htag : gcmTag c x.ses = fit x.ses.tlen (Config.tag 3 x.ses.key x.ses.iv (x.ses.aad ++ runAad c x.ses)
      (runAll c x.ses)) := by
    unfold gcmTag gcmCipher
    rw [hdir]
    rfl
  have hopens := exec_cphRun_decrypts hx hruns hturn hready hcheck hmode hdir
  unfold openStatus at hopens
  rw [htag] at hopens
  exact hopens

end Sys2Proof.Machine
end

section
/-! SUPPORT. The random number generator (R460 to R477): seeding and generating, draws that end all at once, health windows, and
the statement O49. -/
namespace Sys2Proof.Machine

/-! Events and counters of the RNG (R477). -/

theorem event_rng_window (b : Nat) (s : State) :
    (event 10 b s).rng = { s.rng with evt := setBit s.rng.evt b } := logEv_within _ _ _ (setEvt 10 b s) .rng (by decide)

theorem ends_congr {s t u : State} {tok status : Nat} {result : W32} {out : List Byte} (h : Ends s t tok status result out)
    (hjournal : u.journal = t.journal) (hsys : u.sys = t.sys) : Ends s u tok status result out := by
  obtain ⟨⟨j, hj, hstarted, houtcome, hstaged⟩, hothers⟩ := h
  have hsame (k : Nat) : jent u k = jent t k := congrArg (mget · k) hjournal
  refine ⟨⟨j, (hsame tok).trans hj, hstarted, ?_, hstaged⟩, fun k hk => (hsame k).trans (hothers k hk)⟩
  rw [hsys, devnum_eq hsys]
  exact houtcome

/-! Instances (R464 to R467). -/

theorem drbgOf_updDrbg_self {i : Nat} {s : State} (hi : i < s.rng.drbg.length) (g : Drbg → Drbg) :
    drbgOf (updDrbg i g s) i = g (drbgOf s i) := lget_lupd_self _ _ _ _ hi

theorem length_updDrbg (i : Nat) (g : Drbg → Drbg) (s : State) :
    (updDrbg i g s).rng.drbg.length = s.rng.drbg.length := length_lupd _ _ _

/-- A new generator is seeded at the present time and has generated nothing. -/
theorem drbgOf_instantiate {i : Nat} {s : State} (hi : i < s.rng.drbg.length) :
    (drbgOf (instantiate i s) i).inst = true ∧ (drbgOf (instantiate i s) i).gens = 0 ∧
      (drbgOf (instantiate i s) i).at_ = s.time.clock ∧ (drbgOf (instantiate i s) i).want = false := by
  have hnew : drbgOf (instantiate i s) i = _ :=
    drbgOf_updDrbg_self (s := { s with rng := { s.rng with pool := s.rng.pool.drop 2 } }) hi _
  rw [hnew]
  exact ⟨rfl, rfl, rfl, rfl⟩

/-- So is a reseeded one, which stays instantiated. -/
theorem drbgOf_reseed {i : Nat} {s : State} (hi : i < s.rng.drbg.length) :
    (drbgOf (reseed i s) i).inst = (drbgOf s i).inst ∧ (drbgOf (reseed i s) i).gens = 0 ∧
      (drbgOf (reseed i s) i).at_ = s.time.clock ∧ (drbgOf (reseed i s) i).want = false := by
  have hnew : drbgOf (reseed i s) i = _ :=
    drbgOf_updDrbg_self (s := { s with rng := { s.rng with pool := s.rng.pool.drop 1 } }) hi _
  rw [hnew]
  exact ⟨rfl, rfl, rfl, rfl⟩

theorem length_seedFor (i : Nat) (s : State) : (seedFor i s).rng.drbg.length = s.rng.drbg.length := by
  unfold seedFor
  split
  · exact length_updDrbg i _ _
  · split
    · exact length_updDrbg i _ _
    · rfl

/-- A generate is counted. -/
theorem drbgOf_generate {f i : Nat} {s : State} (hi : i < s.rng.drbg.length) (n : Nat) :
    (drbgOf (generate f i n s).2 i).gens = (drbgOf (seedFor i s) i).gens + 1 := by
  let u := cntRng 3 1 (updDrbg i (fun d => { d with gens := d.gens + 1 }) (seedFor i s))
  have hworked : (generate f i n s).2.rng = u.rng :=
    (generateWork_goes f i n _ u Goes.rfl (List.Subset.refl _)).within .rng (by decide)
  have hcounted := drbgOf_updDrbg_self (s := seedFor i s) (by rw [length_seedFor]; exact hi)
    (fun d => { d with gens := d.gens + 1 })
  unfold drbgOf at hcounted ⊢
  rw [hworked]
  exact congrArg Drbg.gens hcounted

/-! rng. commands. -/

section
variable {c : Cmd} {s : State}

theorem exec_rngGet (hruns : runnable s c = true) (hmay : drawRefused s = none) (hready : drawReady s c.fn = true)
    (hlane : mayRun s 2 4 c.fn = true) :
    ∃ t, exec (.rngGet c) s = .next t ∧
      WorkStaged s t c.tok 0 0 (Config.drbg (drbgOf (seedFor c.fn s) c.fn).seed (drbgOf (seedFor c.fn s) c.fn).gens
        (cOutLen c)) ∧
      Within [.journal, .eng, .rng, .span, .log, .budget, .outbox] s t ∧
      (c.fn < s.rng.drbg.length → (drbgOf t c.fn).gens = (drbgOf (seedFor c.fn s) c.fn).gens + 1) := by
  have hexec : exec (.rngGet c) s = .next (runWork drawCheck rngGetEff c s) := by
    refine congrArg Host.Outcome.next ((if_pos (by rw [hlane]; rfl)).trans ?_)
    unfold withDraw
    rw [hmay]
    exact if_pos hready
  have hdrawn := generate_within c.fn c.fn (cOutLen c) s
  obtain ⟨hstaged, hkept⟩ := runWork_stages (check := drawCheck) (eff := rngGetEff) hruns hmay rfl
    (hdrawn .journal (by decide))
  refine ⟨_, hexec, hstaged, (hdrawn.mono (by decide)).trans (hkept.mono (by decide)), fun hf => ?_⟩
  rw [← drbgOf_generate (f := c.fn) hf (cOutLen c)]
  unfold drbgOf
  rw [hkept .rng (by decide)]
  rfl

/-- A draw that can never be made ends with its status, and is counted. -/
theorem exec_rngGet_refused {status : Nat} (hruns : runnable s c = true) (hrefused : drawRefused s = some status) :
    ∃ t, exec (.rngGet c) s = .next t ∧ Ends s t c.tok status 0 [] := by
  obtain ⟨j, hj, -⟩ := runnable_jent hruns
  have hexec : exec (.rngGet c) s = .next (cntRng 4 1 (settle c.tok status 0 [] s)) := by
    refine congrArg Host.Outcome.next ((if_pos (by rw [hrefused, Option.isSome_some, Bool.or_true])).trans ?_)
    unfold withDraw runWork drawCheck
    simp only [hrefused, hruns, if_true]
  exact ⟨_, hexec, ends_congr (settle_ends _ _ _ rfl hj) rfl rfl⟩

theorem exec_rngReseed (hruns : runnable s c = true) (hready : reseedReady c s = true)
    (hcheck : rngReseedCheck c s = none) :
    ∃ t, exec (.rngReseed c) s = .next t ∧ Served [.rng] s t c 0 [] ∧
      (leavesFailed c s = false → c.fn < s.rng.drbg.length → (drbgOf t c.fn).inst = true ∧ (drbgOf t c.fn).gens = 0 ∧
        (drbgOf t c.fn).at_ = s.time.clock ∧ (drbgOf t c.fn).want = false) ∧
      (leavesFailed c s = true → t.rng.failed = false ∧ t.rng.st = 0 ∧ ∀ x ∈ t.rng.srcs, x.st = 0) := by
  have hexec : exec (.rngReseed c) s = .next (runPlain rngReseedCheck rngReseedEff c s) := by
    refine congrArg Host.Outcome.next ((if_pos hready).trans (if_neg ?_))
    rw [hcheck]
    exact Bool.false_ne_true
  have hdone : rngReseedEff c s = done (rngReseedEff c s).st := by
    unfold rngReseedEff
    split
    · rfl
    · split <;> rfl
  have hseeded := (rngReseedEff_goes c s Goes.rfl (List.Subset.refl _)).within
  obtain ⟨hends, hkept⟩ := runPlain_ends hruns hcheck hdone (hseeded .journal (by decide))
  have hrng : (runPlain rngReseedCheck rngReseedEff c s).rng = (rngReseedEff c s).st.rng := hkept .rng (by decide)
  refine ⟨_, hexec, ⟨hends, (hseeded.mono (by decide)).trans (hkept.mono (by decide))⟩, fun hstays hf => ?_, fun hleaves => ?_⟩
  · unfold drbgOf
    rw [hrng]
    unfold rngReseedEff
    rw [if_neg (ne_true_of_eq_false hstays)]
    split
    · next hinst =>
      have hlen : c.fn < (updDrbg c.fn (fun d => { d with want := true }) s).rng.drbg.length := by
        rw [length_updDrbg]
        exact hf
      have hmarked := drbgOf_updDrbg_self hf (fun d => { d with want := true })
      obtain ⟨hkeeps, hfresh⟩ := drbgOf_reseed hlen
      exact ⟨hkeeps.trans ((congrArg Drbg.inst hmarked).trans hinst), hfresh⟩
    · exact drbgOf_instantiate hf
  · rw [hrng]
    unfold rngReseedEff
    rw [if_pos hleaves]
    refine ⟨rfl, rfl, fun x hx => ?_⟩
    obtain ⟨y, -, rfl⟩ := List.mem_map.1 hx
    rfl

theorem exec_rngReseed_refused {status : Nat} (hruns : runnable s c = true) (hcheck : rngReseedCheck c s = some status) :
    ∃ t, exec (.rngReseed c) s = .next t ∧ Ends s t c.tok status 0 [] := by
  obtain ⟨j, hj, -⟩ := runnable_jent hruns
  have hready : reseedReady c s = true := by
    unfold rngReseedCheck at hcheck
    unfold reseedReady
    split at hcheck
    · exact nomatch hcheck
    · rw [hcheck, Option.isSome_some, Bool.or_true, Bool.true_or]
  have hexec : exec (.rngReseed c) s = .next (cntRng 4 1 (settle c.tok status 0 [] s)) := by
    refine congrArg Host.Outcome.next ((if_pos hready).trans ((if_pos (by rw [hcheck, hruns]; rfl)).trans ?_))
    rw [runPlain_fails hruns hcheck]
  exact ⟨_, hexec, ends_congr (settle_ends _ _ _ rfl hj) rfl rfl⟩

theorem exec_rngPattern (happlies : mayApply s c = true) :
    ∃ t, exec (.rngPattern c) s = .next t ∧ Applied [.rng] s t c ∧
      t.rng.pattern = if cLen c = 0 then none else some c.input := by
  have hset := (rngPatternEff_goes c s Goes.rfl (List.Subset.refl _)).within
  obtain ⟨happlied, hkept⟩ := runConfig_applied (check := noCheck) (eff := rngPatternEff) (ps := [.rng]) happlies rfl rfl
    (hset.mono (by decide)) (by decide)
  exact ⟨_, rfl, happlied, congrArg Rng.pattern (hkept .rng (by decide))⟩

end

end Sys2Proof.Machine
end

section
/-! SUPPORT. Health windows of the RNG (R461 to R463, R472 to R475) and its time limits (R470, R473), and the statement O49. -/
namespace Sys2Proof.Machine

/-! Draws that end all at once (R470, R472). -/

theorem runnable_congr {s t : State} (hjournal : t.journal = s.journal) (hfns : t.fns = s.fns) (hsys : t.sys = s.sys)
    (hdeferred : t.deferred = s.deferred) (c : Cmd) : runnable t c = runnable s c := by
  unfold runnable jent fenceOk modeOk
  rw [hjournal, hdeferred, hsys, mode_congr hsys, queueOf_congr hfns]

/-- Which draws are open is decided by the journal, the queues and the mode. -/
theorem openDraws_of_within {ps : List Part} {s t : State} (h : Within ps s t)
    (hparts : Part.journal ∉ ps ∧ Part.fns ∉ ps ∧ Part.sys ∉ ps ∧ Part.deferred ∉ ps) : openDraws t = openDraws s := by
  obtain ⟨hjournal, hfns, hsys, hdeferred⟩ := hparts
  unfold openDraws
  simp only [runnable_congr (h .journal hjournal) (h .fns hfns) (h .sys hsys) (h .deferred hdeferred)]
  rw [h .journal hjournal]

/-- The status with which the command of a token has ended. -/
def endedWith (s : State) (tok : Nat) : Option Nat := ((jent s tok).bind (fun j => j.outcome)).map (fun o => o.status)

theorem endedWith_congr {s t : State} (h : t.journal = s.journal) (tok : Nat) : endedWith t tok = endedWith s tok := by
  unfold endedWith jent
  rw [h]

theorem mget_isSome_of_mem {α : Type} {m : Map α} {e : Nat × α} (he : e ∈ m) : (mget m e.1).isSome = true := by
  induction m with
  | nil => exact nomatch he
  | cons b m ih =>
    unfold mget
    split
    · rfl
    · next hother =>
      cases he with
      | head => exact absurd rfl hother
      | tail _ htail => exact ih htail

theorem jent_of_openDraws {s : State} {tok : Nat} (h : tok ∈ openDraws s) : (jent s tok).isSome = true := by
  obtain ⟨e, he, rfl⟩ := List.mem_map.1 h
  exact mget_isSome_of_mem (List.mem_filter.1 he).1

theorem endedWith_settle_self {s : State} {tok : Nat} (hopen : (jent s tok).isSome = true) (status : Nat) :
    endedWith (settle tok status 0 [] s) tok = some status := by
  obtain ⟨j, hj⟩ := Option.isSome_iff_exists.1 hopen
  obtain ⟨⟨k, hk, -, houtcome, -⟩, -⟩ := settle_jent status 0 [] s hj
  unfold endedWith
  rw [hk, Option.bind_some, houtcome]
  rfl

theorem jent_settle_other {s : State} {tok k : Nat} (hopen : (jent s tok).isSome = true) (status : Nat) (hk : k ≠ tok) :
    jent (settle tok status 0 [] s) k = jent s k := by
  obtain ⟨j, hj⟩ := Option.isSome_iff_exists.1 hopen
  exact (settle_jent status 0 [] s hj).2 k hk

theorem isSome_jent_settle {s : State} {tok : Nat} (hopen : (jent s tok).isSome = true) (status k : Nat)
    (hk : (jent s k).isSome = true) : (jent (settle tok status 0 [] s) k).isSome = true := by
  by_cases hsame : k = tok
  · obtain ⟨j, hj⟩ := Option.isSome_iff_exists.1 hopen
    obtain ⟨⟨e, he, -⟩, -⟩ := settle_jent status 0 [] s hj
    rw [hsame, he]
    rfl
  · rw [jent_settle_other hopen status hsame]
    exact hk

/-- Commands that are in the journal all end, and one that has ended so stays so. -/
theorem endedWith_foldl_settle (status tok : Nat) (l : List Nat) :
    ∀ s : State, (∀ k ∈ l, (jent s k).isSome = true) → tok ∈ l ∨ endedWith s tok = some status →
      endedWith (l.foldl (fun s k => settle k status 0 [] s) s) tok = some status := by
  induction l with
  | nil => exact fun s _ h => h.resolve_left List.not_mem_nil
  | cons k l ih =>
    intro s hopen h
    have hk := hopen k List.mem_cons_self
    refine ih _ (fun j hj => isSome_jent_settle hk status j (hopen j (List.mem_cons_of_mem k hj))) ?_
    by_cases hsame : tok = k
    · exact Or.inr (hsame ▸ endedWith_settle_self hk status)
    · refine h.imp (fun hmem => (List.mem_cons.1 hmem).resolve_left hsame) fun hended => ?_
      unfold endedWith at hended ⊢
      rw [jent_settle_other hk status hsame]
      exact hended

/-- Every open draw ends with the status. -/
theorem endedWith_endDraws (status : Nat) (s : State) {tok : Nat} (h : tok ∈ openDraws s) :
    endedWith (endDraws status s) tok = some status :=
  (endedWith_congr rfl tok).trans
    (endedWith_foldl_settle status tok (openDraws s) s (fun _ hk => jent_of_openDraws hk) (Or.inl h))

/-- Of the RNG only a counter changes with them. -/
theorem rng_endDraws (status : Nat) (s : State) : ∃ cnt, (endDraws status s).rng = { s.rng with cnt := cnt } := by
  have hsettled (l : List Nat) : ∀ u : State, (l.foldl (fun u k => settle k status 0 [] u) u).rng = u.rng := by
    induction l with
    | nil => exact fun _ => rfl
    | cons k l ih => exact fun u => (ih _).trans (settle_within k status 0 [] u .rng (by decide))
  unfold endDraws cntRng
  dsimp only
  rw [hsettled]
  exact ⟨_, rfl⟩

/-! Health windows (R461 to R463, R472 to R475). -/

/-- A source of the RNG. -/
def rngSrc (s : State) (i : Nat) : RngSrc := lget s.rng.srcs i default

theorem rngSrc_updRsrc_self {i : Nat} {s : State} (hi : i < s.rng.srcs.length) (g : RngSrc → RngSrc) :
    rngSrc (updRsrc i g s) i = g (rngSrc s i) := lget_lupd_self _ _ _ _ hi

theorem length_updRsrc (i : Nat) (g : RngSrc → RngSrc) (s : State) :
    (updRsrc i g s).rng.srcs.length = s.rng.srcs.length := length_lupd _ _ _

theorem lget_map {α : Type} (f : α → α) (l : List α) {i : Nat} (d : α) (hi : i < l.length) :
    lget (l.map f) i d = f (lget l i d) := by
  unfold lget
  rw [List.getD_eq_getElem _ _ (by rw [List.length_map]; exact hi), List.getD_eq_getElem _ _ hi, List.getElem_map]

theorem updRsrc_within (i : Nat) (g : RngSrc → RngSrc) (s : State) : Within [.rng] s (updRsrc i g s) :=
  (updRsrc_goes i g s Goes.rfl (List.Subset.refl _)).within

theorem releaseBlock_within (i : Nat) (b : List Byte) (s : State) : Within [.rng] s (releaseBlock i b s) :=
  (releaseBlock_goes i b s Goes.rfl (List.Subset.refl _)).within

theorem firstSeed_within (s : State) : Within [.rng] s (firstSeed s) :=
  (firstSeed_goes s Goes.rfl (List.Subset.refl _)).within

theorem srcs_firstSeed (s : State) : (firstSeed s).rng.srcs = s.rng.srcs := by
  unfold firstSeed
  split <;> rfl

/-- The state in which a window's bits are remembered in its source. -/
def windowNoted (i : Nat) (octs : List Byte) (s : State) : State :=
  let r := repetition (rawBits octs) (rngSrc s i).lastBit (rngSrc s i).run false
  updRsrc i (fun x => { x with patPos := x.patPos + 512, lastBit := r.1, run := r.2.1 }) s

/-- The state in which the block held before has been released. -/
def heldReleased (i : Nat) (held : Option (List Byte)) (s : State) : State :=
  match held with
  | some h => releaseBlock i h s
  | none => s

section
variable (i : Nat) (octs : List Byte) (block : Option (List Byte)) (s : State)

theorem healthWindow_eq : healthWindow i octs block s =
    if windowFail (rngSrc s i) octs ≠ 0 then healthFail i (windowFail (rngSrc s i) octs) (windowNoted i octs s)
    else if (rngSrc s i).st = 1 then
      firstSeed (updRsrc i (fun x => { x with held := block }) (heldReleased i (rngSrc s i).held (windowNoted i octs s)))
    else rngResume i (updRsrc i (fun x => { x with st := 1 }) (windowNoted i octs s)) := rfl

end

theorem windowNoted_within (i : Nat) (octs : List Byte) (s : State) : Within [.rng] s (windowNoted i octs s) :=
  updRsrc_within _ _ _

theorem heldReleased_within (i : Nat) (held : Option (List Byte)) (s : State) : Within [.rng] s (heldReleased i held s) := by
  cases held with
  | none => exact Goes.rfl.within
  | some h => exact releaseBlock_within i h s

theorem heldReleased_keeps (i : Nat) (held : Option (List Byte)) (s : State) :
    (heldReleased i held s).rng.srcs = s.rng.srcs ∧ (heldReleased i held s).rng.st = s.rng.st := by
  cases held <;> exact ⟨rfl, rfl⟩

/-- The pool of 32 takes the block released, where it has room (R463). -/
def poolWith (held : Option (List Byte)) (pool : List (List Byte)) : List (List Byte) :=
  match held with
  | some h => if pool.length < 32 then pool ++ [h] else pool
  | none => pool

theorem pool_heldReleased (i : Nat) (held : Option (List Byte)) (s : State) :
    (heldReleased i held s).rng.pool = poolWith held s.rng.pool := by
  cases held <;> rfl

/-- Of the RNG, output that resumes changes the state, the instances' marks and an event bit. -/
theorem rng_rngResume (i : Nat) (s : State) : ∃ drbg evt, (rngResume i s).rng =
    { s.rng with
      st := if s.rng.st = 2 ∧ s.rng.lastBad = some i then (if rngSeeded s then 1 else 0) else s.rng.st
      drbg := drbg, evt := evt } := by
  unfold rngResume
  split
  · rw [event_rng_window]
    exact ⟨_, _, rfl⟩
  · exact ⟨_, _, rfl⟩

section
variable {i : Nat} {octs : List Byte} {s : State} (hi : i < s.rng.srcs.length)
include hi

/-- A running source that passes holds the new block, and the one held before is released. -/
theorem healthWindow_conditions (block : Option (List Byte)) (hpasses : windowFail (rngSrc s i) octs = 0)
    (hst : (rngSrc s i).st = 1) :
    Within [.rng] s (healthWindow i octs block s) ∧ (rngSrc (healthWindow i octs block s) i).held = block ∧
      (s.rng.st ≠ 0 → (healthWindow i octs block s).rng.pool = poolWith (rngSrc s i).held s.rng.pool) := by
  let v := heldReleased i (rngSrc s i).held (windowNoted i octs s)
  let w := updRsrc i (fun x => { x with held := block }) v
  obtain ⟨hsrcs, hrunning⟩ := heldReleased_keeps i (rngSrc s i).held (windowNoted i octs s)
  have heq : healthWindow i octs block s = firstSeed w := by
    rw [healthWindow_eq, if_neg (not_not_intro hpasses), if_pos hst]
  have hwithin : Within [.rng] s w := ((windowNoted_within i octs s).trans (heldReleased_within _ _ _)).trans (updRsrc_within _ _ _)
  rw [heq]
  refine ⟨hwithin.trans (firstSeed_within w), ?_, fun hseeded => ?_⟩
  · unfold rngSrc
    rw [srcs_firstSeed]
    exact congrArg RngSrc.held (rngSrc_updRsrc_self (s := v) (by
      rw [show v.rng.srcs = _ from hsrcs]
      exact (length_updRsrc i _ s).symm ▸ hi) _)
  · have hkept : firstSeed w = w := if_neg fun hall => hseeded (hrunning.symm.trans hall.1)
    rw [hkept]
    exact pool_heldReleased i _ (windowNoted i octs s)

/-- A source that passes its start-up tests runs, and output resumes where it was the one that stopped it. -/
theorem healthWindow_resumes (block : Option (List Byte)) (hpasses : windowFail (rngSrc s i) octs = 0)
    (hst : (rngSrc s i).st ≠ 1) :
    Within [.rng, .log, .outbox] s (healthWindow i octs block s) ∧ (rngSrc (healthWindow i octs block s) i).st = 1 ∧
      (healthWindow i octs block s).rng.pool = s.rng.pool ∧
      (s.rng.st = 2 → s.rng.lastBad = some i → (healthWindow i octs block s).rng.st = if rngSeeded s then 1 else 0) := by
  let w := updRsrc i (fun x => { x with st := 1 }) (windowNoted i octs s)
  have heq : healthWindow i octs block s = rngResume i w := by
    rw [healthWindow_eq, if_neg (not_not_intro hpasses), if_neg hst]
  obtain ⟨drbg, evt, hrng⟩ := rng_rngResume i w
  have hwithin : Within [.rng] s w := (windowNoted_within i octs s).trans (updRsrc_within _ _ _)
  have hresumed := (rngResume_goes i w Goes.rfl (List.Subset.refl _)).within
  have hsrc := rngSrc_updRsrc_self (s := windowNoted i octs s) (i := i) ((length_updRsrc i _ s).symm ▸ hi)
    (fun x => { x with st := 1 })
  rw [heq]
  refine ⟨(hwithin.mono (by decide)).trans (hresumed.mono (by decide)), ?_, ?_, fun hstopped hlast => ?_⟩
  · unfold rngSrc at hsrc ⊢
    rw [hrng]
    exact congrArg RngSrc.st hsrc
  · rw [hrng]
    rfl
  · rw [hrng]
    exact if_pos ⟨hstopped, hlast⟩

end

/-- The source after a window that has failed (R472). -/
def srcFailed (kind : Nat) (x : RngSrc) : RngSrc :=
  { x with st := 2, lastFail := kind, fails := min 255 (x.fails + 1), held := none, run := 0 }

theorem within_rng (rng : Rng) (s : State) : Within [.rng] s { s with rng := rng } := by
  intro p hp
  cases p with
  | rng => exact absurd (List.mem_singleton.2 rfl) hp
  | _ => rfl

/-- The RNG after a window of source i has failed: output is stopped. -/
def rngFailed (i kind clock : Nat) (r : Rng) : Rng :=
  { r with
    srcs := lupd r.srcs i (srcFailed kind), st := 2, consec := min 3 (r.consec + 1), lastBad := some i, failAt := clock
    cnt := addAt r.cnt 1 1 }

/-- The state in which the failure is noted and its event raised. -/
def failureNoted (i kind : Nat) (s : State) : State := event 10 0 { s with rng := rngFailed i kind s.time.clock s.rng }

/-- The RNG after the third failure in a row: no source runs (R475). -/
def rngHalted (r : Rng) : Rng := { r with failed := true, srcs := r.srcs.map (fun x => { x with st := 3, held := none }) }

theorem failureNoted_within (i kind : Nat) (s : State) : Within [.rng, .log] s (failureNoted i kind s) :=
  ((within_rng _ s).mono (by decide)).trans (event_within 10 0 _)

theorem healthFail_eq (i kind : Nat) (s : State) : healthFail i kind s =
    if min 3 (s.rng.consec + 1) = 3 then
      event 10 1 { endDraws 0x0602 (failureNoted i kind s) with rng := rngHalted (endDraws 0x0602 (failureNoted i kind s)).rng }
    else endDraws 0x0602 (failureNoted i kind s) := rfl

/-- Of the RNG a failure leaves what its window has made of it, with the counters and the event register apart. -/
theorem rng_healthFail (i kind : Nat) (s : State) : ∃ cnt evt, (healthFail i kind s).rng =
    let r := rngFailed i kind s.time.clock s.rng
    { (if min 3 (s.rng.consec + 1) = 3 then rngHalted r else r) with cnt := cnt, evt := evt } := by
  obtain ⟨cnt, hdraws⟩ := rng_endDraws 0x0602 (failureNoted i kind s)
  have hnoted : (failureNoted i kind s).rng = _ := event_rng_window 0 { s with rng := rngFailed i kind s.time.clock s.rng }
  rw [healthFail_eq]
  split
  · rw [event_rng_window]
    dsimp only
    rw [hdraws, hnoted]
    exact ⟨_, _, rfl⟩
  · rw [hdraws, hnoted]
    exact ⟨_, _, rfl⟩

/-- Every draw open before ends with RNG_FAULT. -/
theorem endedWith_healthFail (i kind : Nat) (s : State) {tok : Nat} (h : tok ∈ openDraws s) :
    endedWith (healthFail i kind s) tok = some 0x0602 := by
  have hopen : tok ∈ openDraws (failureNoted i kind s) := by
    rw [openDraws_of_within (failureNoted_within i kind s) (by decide)]
    exact h
  have hended := endedWith_endDraws 0x0602 (failureNoted i kind s) hopen
  rw [healthFail_eq]
  generalize endDraws 0x0602 (failureNoted i kind s) = u at hended ⊢
  split
  · have hkept := event_within 10 1 { u with rng := rngHalted u.rng } .journal (by decide)
    exact (endedWith_congr hkept tok).trans hended
  · exact hended

/-- A window that fails stops output and its source; the third in a row stops every source (R472, R475). -/
theorem healthWindow_fails {i : Nat} {octs : List Byte} {s : State} (hi : i < s.rng.srcs.length)
    (hrunning : s.rng.failed = false) (block : Option (List Byte)) (hfails : windowFail (rngSrc s i) octs ≠ 0) :
    let t := healthWindow i octs block s
    Within [.journal, .rng, .span, .log, .outbox] s t ∧ t.rng.st = 2 ∧ t.rng.consec = min 3 (s.rng.consec + 1) ∧
      (rngSrc t i).st = (if s.rng.consec + 1 ≥ 3 then 3 else 2) ∧ (rngSrc t i).lastFail = windowFail (rngSrc s i) octs ∧
      (rngSrc t i).held = none ∧ t.rng.failed = decide (s.rng.consec + 1 ≥ 3) ∧
      ∀ tok ∈ openDraws s, endedWith t tok = some 0x0602 := by
  intro t
  let v := windowNoted i octs s
  let kind := windowFail (rngSrc s i) octs
  have hv : Within [.rng] s v := windowNoted_within i octs s
  have hlen : i < v.rng.srcs.length := (length_updRsrc i _ s).symm ▸ hi
  have heq : t = healthFail i kind v := (healthWindow_eq i octs block s).trans (if_pos hfails)
  have hwithin := (healthFail_goes i kind v Goes.rfl (List.Subset.refl _)).within
  obtain ⟨cnt, evt, hrng⟩ := rng_healthFail i kind v
  have hsrc : lget (rngFailed i kind v.time.clock v.rng).srcs i default = srcFailed kind (rngSrc v i) :=
    lget_lupd_self _ _ _ _ hlen
  have hthird : min 3 (v.rng.consec + 1) = 3 ↔ s.rng.consec + 1 ≥ 3 := by
    change min 3 (s.rng.consec + 1) = 3 ↔ _
    omega
  have hended : rngSrc (healthFail i kind v) i =
      if s.rng.consec + 1 ≥ 3 then { srcFailed kind (rngSrc v i) with st := 3, held := none }
      else srcFailed kind (rngSrc v i) := by
    unfold rngSrc at hsrc ⊢
    rw [hrng]
    by_cases hlast : s.rng.consec + 1 ≥ 3
    · have hhalted : lget (rngHalted (rngFailed i kind v.time.clock v.rng)).srcs i default = _ :=
        lget_map _ _ _ ((length_lupd _ _ _).symm ▸ hlen)
      simp only [hthird.2 hlast, hlast, if_true, hhalted, hsrc]
    · simp only [mt hthird.1 hlast, hlast, if_false, hsrc]
  rw [heq]
  refine ⟨(hv.mono (by decide)).trans hwithin, ?_, ?_, ?_, ?_, ?_, ?_, fun tok htok => endedWith_healthFail i kind v ?_⟩
  · rw [hrng]
    dsimp only
    split <;> rfl
  · rw [hrng]
    dsimp only
    split <;> rfl
  · rw [hended]
    split <;> rfl
  · rw [hended]
    split <;> rfl
  · rw [hended]
    split <;> rfl
  · rw [hrng]
    by_cases hlast : s.rng.consec + 1 ≥ 3
    · simp only [hthird.2 hlast, hlast, if_true, decide_true]
      rfl
    · simp only [mt hthird.1 hlast, hlast, if_false, decide_false]
      exact hrunning
  · rw [openDraws_of_within hv (by decide)]
    exact htok

/-! HEALTH_WINDOW_END. -/

section
variable {i : Nat} {e0 e1 raw : List Byte} {s : State} (hfour : i < 4) (hrunning : s.rng.failed = false)
  (hheld : s.sys.held = false) (hst : (rngSrc s i).st ≠ 3)
include hfour hrunning hheld hst

/-- The window of a source that runs is judged, and a mismatch of the conditioning core is a tamper event (R462). -/
theorem exec_healthWindowEnd_eq : exec (.healthWindowEnd i e0 e1 raw) s = .next (
      let octs := windowRaw (rngSrc s i) raw s
      if condHalf octs e0 = condHalf octs e1 then healthWindow i octs (some (condHalf octs e0)) s
      else if (rngSrc s i).st = 1 ∧ windowFail (rngSrc s i) octs = 0 then tamperDetect 14 (healthWindow i octs none s)
      else healthWindow i octs none s) := by
  refine congrArg Host.Outcome.next (if_neg ?_)
  rw [hrunning, hheld]
  simp only [Bool.false_eq_true, false_or, or_false, not_or]
  exact ⟨hst, by omega⟩

/-- Where the source is not conditioned, the block that the window is given does not matter. -/
theorem exec_healthWindowEnd_unconditioned
    (hnone : ¬((rngSrc s i).st = 1 ∧ windowFail (rngSrc s i) (windowRaw (rngSrc s i) raw s) = 0)) :
    ∃ block, exec (.healthWindowEnd i e0 e1 raw) s = .next (healthWindow i (windowRaw (rngSrc s i) raw s) block s) := by
  rw [exec_healthWindowEnd_eq hfour hrunning hheld hst]
  dsimp only
  split
  · exact ⟨_, rfl⟩
  · exact ⟨_, rfl⟩

end

theorem windowFail_eq_zero_iff (x : RngSrc) (octs : List Byte) : windowFail x octs = 0 ↔
    (repetition (rawBits octs) x.lastBit x.run false).2.2 = false ∧ windowsBad (rawBits octs) = false := by
  unfold windowFail
  split
  · next hrct => simp only [hrct, Nat.one_ne_zero, Bool.true_eq_false, false_and]
  · next hrct =>
    rw [Bool.not_eq_true] at hrct
    split
    · next hapt => simp only [hapt, Bool.true_eq_false, and_false, OfNat.ofNat_ne_zero]
    · next hapt => simp only [hrct, Bool.not_eq_true _ ▸ hapt, and_self]

/-- Which test a failed window has failed. -/
theorem windowFail_of_fails {x : RngSrc} {octs : List Byte} (h : windowFail x octs ≠ 0) :
    windowFail x octs = if (repetition (rawBits octs) x.lastBit x.run false).2.2 then 1 else 2 := by
  unfold windowFail at h ⊢
  split
  · rfl
  · next hrct =>
    rw [if_neg hrct] at h
    split
    · rfl
    · next hapt => exact absurd (if_neg hapt) h

/-! ENTROPY_TIMEOUT and RNG_RESUME_TIMEOUT (R470, R471, R473). -/

/-- Of the RNG the fallback derivation sets FALLBACK and an event bit. -/
theorem rng_fallbackValues (s : State) :
    (fallbackValues s).rng = { s.rng with fallback := true, evt := setBit s.rng.evt 3 } := by
  let v := drawnValues (fun k => fallbackOf (leOctets 4 k) s) s
  have hindexed : (startIndex v).rng = s.rng := (startIndex_goes v Goes.rfl (List.Subset.refl _)).within .rng (by decide)
  unfold fallbackValues
  rw [event_rng_window]
  dsimp only
  rw [hindexed]

theorem exec_entropyTimeout {s : State} (hunseeded : rngSeeded s = false) (hfirst : s.rng.timedOut = false)
    (hrunning : s.rng.failed = false) (hlate : s.time.clock - s.rng.startAt ≥ 50000000) :
    ∃ t, exec .entropyTimeout s = .next t ∧
      Within [.fns, .journal, .skim, .eng, .rng, .span, .log, .freeCtr, .outbox] s t ∧
      t.rng.timedOut = true ∧ t.rng.fallback = true ∧ ∀ tok ∈ openDraws s, endedWith t tok = some 0x0601 := by
  let u := endDraws 0x0601 s
  let v := event 10 2 { u with rng := { u.rng with timedOut := true } }
  have hexec : exec .entropyTimeout s = .next (fallbackValues v) := by
    refine congrArg Host.Outcome.next (if_pos ?_)
    rw [hunseeded, hfirst, hrunning]
    exact ⟨Bool.false_ne_true, Bool.false_ne_true, Bool.false_ne_true, hlate⟩
  refine ⟨_, hexec, ((execEntropyTimeout_goes s .rfl (List.Subset.refl _)).holds _ hexec).within, ?_⟩
  have hvalues := (fallbackValues_goes v Goes.rfl (List.Subset.refl _)).within
  have hlogged := event_within 10 2 { u with rng := { u.rng with timedOut := true } }
  have hrng := rng_fallbackValues v
  have hv : v.rng = _ := event_rng_window 2 { u with rng := { u.rng with timedOut := true } }
  refine ⟨?_, ?_, fun tok htok => ?_⟩
  · rw [hrng, hv]
  · rw [hrng]
  · rw [endedWith_congr (hvalues .journal (by decide)), endedWith_congr (hlogged .journal (by decide))]
    exact endedWith_endDraws 0x0601 s htok

theorem exec_entropyTimeout_early {s : State} (hearly : s.time.clock - s.rng.startAt < 50000000) :
    exec .entropyTimeout s = .next s :=
  congrArg Host.Outcome.next (if_neg fun hall => absurd hall.2.2.2 (by omega))

theorem exec_rngResumeTimeout {s : State} (hstopped : s.rng.st = 2) (hrunning : s.rng.failed = false)
    (hlate : s.time.clock - s.rng.failAt ≥ 50000000) :
    ∃ t, exec .rngResumeTimeout s = .next t ∧ Within [.journal, .rng, .span, .log, .outbox] s t ∧
      ∀ tok ∈ openDraws s, endedWith t tok = some 0x0601 := by
  have hexec : exec .rngResumeTimeout s = .next (event 10 2 (endDraws 0x0601 s)) := by
    refine congrArg Host.Outcome.next (if_pos ?_)
    rw [hrunning]
    exact ⟨hstopped, Bool.false_ne_true, hlate⟩
  refine ⟨_, hexec, ((execRngResumeTimeout_goes s .rfl (List.Subset.refl _)).holds _ hexec).within, fun tok htok => ?_⟩
  rw [endedWith_congr (event_within 10 2 (endDraws 0x0601 s) .journal (by decide))]
  exact endedWith_endDraws 0x0601 s htok

theorem exec_rngResumeTimeout_early {s : State} (hearly : s.time.clock - s.rng.failAt < 50000000) :
    exec .rngResumeTimeout s = .next s :=
  congrArg Host.Outcome.next (if_neg fun hall => absurd hall.2.2 (by omega))

/-- Settles O49: the commands, the windows by their verdict, and the time limits. -/
theorem randomNumbers : Obligations.RandomNumbers := by
  unfold Obligations.RandomNumbers
  refine ⟨fun c s => ⟨exec_rngGet, fun _ => exec_rngGet_refused, exec_rngReseed, fun _ => exec_rngReseed_refused,
    exec_rngPattern⟩, ?_, fun s => ⟨exec_entropyTimeout, exec_entropyTimeout_early, exec_rngResumeTimeout,
    exec_rngResumeTimeout_early⟩⟩
  intro i e0 e1 raw s hfour hi hrunning hheld x window rct apt half hst
  have hwindow : exec (.healthWindowEnd i e0 e1 raw) s = .next (
      if half e0 = half e1 then healthWindow i window (some (half e0)) s
      else if x.st = 1 ∧ windowFail x window = 0 then tamperDetect 14 (healthWindow i window none s)
      else healthWindow i window none s) := exec_healthWindowEnd_eq hfour hrunning hheld hst
  have hpasses : windowFail x window = 0 ↔ rct = false ∧ apt = false := windowFail_eq_zero_iff x window
  refine ⟨fun hrct hapt hone heq => ?_, fun hrct hapt hone hne => ?_, fun hrct hapt hother => ?_, fun hbad => ?_⟩
  · obtain ⟨hwithin, hblock, hpool⟩ := healthWindow_conditions hi (some (half e0)) (hpasses.2 ⟨hrct, hapt⟩) hone
    rw [if_pos heq] at hwindow
    exact ⟨_, hwindow, hwithin, hblock, hpool⟩
  · have hzero := hpasses.2 ⟨hrct, hapt⟩
    obtain ⟨hwithin, hblock, -⟩ := healthWindow_conditions hi none hzero hone
    rw [if_neg hne, if_pos ⟨hone, hzero⟩] at hwindow
    exact ⟨_, hwindow, hwithin, hblock⟩
  · obtain ⟨block, hexec⟩ := exec_healthWindowEnd_unconditioned (e0 := e0) (e1 := e1) (raw := raw) hfour hrunning hheld hst
      (fun hall => hother hall.1)
    exact ⟨_, hexec, healthWindow_resumes hi block (hpasses.2 ⟨hrct, hapt⟩) hother⟩
  · have hfails : windowFail x window ≠ 0 := fun hzero => by
      obtain ⟨hrct, hapt⟩ := hpasses.1 hzero
      simp only [hrct, hapt, Bool.false_eq_true, or_self] at hbad
    obtain ⟨block, hexec⟩ := exec_healthWindowEnd_unconditioned (e0 := e0) (e1 := e1) (raw := raw) hfour hrunning hheld hst
      (fun hall => hfails hall.2)
    obtain ⟨hwithin, hstopped, hconsec, hsrc, hlast, hblock, hhalted, hended⟩ := healthWindow_fails hi hrunning block hfails
    exact ⟨_, hexec, hwithin, hstopped, hconsec, hsrc, hlast.trans (windowFail_of_fails hfails), hblock, hhalted, hended⟩

end Sys2Proof.Machine
end

section
/-! SUPPORT. The key store (R479 to R506): key.info, key.target and the challenge, the owner's and officers' slots, and the
commands under quorum, one theorem per row. -/
namespace Sys2Proof.Machine

/-! key.info and key.target (R483, R493). -/

section
variable {c : Cmd} {s : State} (hruns : runnable s c = true)
include hruns

theorem exec_keyInfo {x : KSlot} (hcheck : keyInfoCheck c s = none) (hx : mget s.keys.slots (cCtx c) = some x) :
    let o := descriptor x ++ (if 64 + (shownKey x).length ≤ cOutLen c then shownKey x else [])
    ∃ t, exec (.keyInfo c) s = .next t ∧ Served [] s t c (BitVec.ofNat 32 o.length) o := by
  intro o
  have heff : keyInfoEff c s = { st := s, result := BitVec.ofNat 32 o.length, out := o } := by
    unfold keyInfoEff
    rw [hx]
    rfl
  obtain ⟨hends, hkept⟩ := runPlain_ends hruns hcheck heff rfl
  exact ⟨_, rfl, hends, hkept⟩

theorem exec_keyInfo_refused {status : Nat} (hcheck : keyInfoCheck c s = some status) :
    ∃ t, exec (.keyInfo c) s = .next t ∧ Ends s t c.tok status 0 [] := by
  obtain ⟨j, hj, -⟩ := runnable_jent hruns
  exact ⟨_, congrArg Host.Outcome.next (runPlain_fails hruns hcheck), settle_ends _ _ _ rfl hj⟩

theorem exec_keyTarget :
    let o := devId ++ leOctets 4 s.keys.ucount ++ [BitVec.ofNat 8 s.keys.oepoch, BitVec.ofNat 8 (64 - s.keys.oepoch)] ++
      List.replicate 10 0 ++ fit 1568 (Config.pkePublic 0x0C kemKey)
    ∃ t, exec (.keyTarget c) s = .next t ∧ Served [] s t c (outputCount c o) (o.take (cOutLen c)) := by
  intro o
  obtain ⟨hends, hkept⟩ := runPlain_ends (check := noCheck) (eff := keyTargetEff) hruns rfl (output_eq c o s) rfl
  exact ⟨_, rfl, hends, hkept⟩

end

/-! Challenges (R503). -/

theorem length_fit (n : Nat) (l : List Byte) : (fit n l).length = n := by
  unfold fit
  rw [List.length_append, List.length_take, List.length_replicate]
  omega

/-- The nonce that the fallback derives from the challenge count. -/
def derivedNonce (s : State) : List Byte :=
  Config.kmac 11 (Config.kmac 11 Config.drk (text "challenge") 32 []) (leOctets 8 s.fw.boots ++ leOctets 8 (s.keys.chalCount + 1))
    32 []

/-- A nonce is drawn, or derived where it cannot be. -/
theorem drawNonce_fst (s : State) :
    (drawNonce s).1 = if nonceFallback s then derivedNonce s else (generate 0 70 32 s).1 := by
  unfold drawNonce
  split <;> rfl

theorem exec_svcChallenge {c : Cmd} {s : State} (hruns : runnable s c = true)
    (hready : nonceFallback s = true ∨ drawReady s 70 = true) :
    ∃ t n, exec (.svcChallenge c) s = .next t ∧
      Served [.eng, .rng, .keys, .log, .budget] s t c (outputCount c n) (n.take (cOutLen c)) ∧ n.length = 32 ∧
      t.keys.nonce = some (n, s.time.clock) ∧
      (nonceFallback s = false → n = fit 32 (generate 0 70 32 s).1) ∧
      (nonceFallback s = true → n = fit 32 (derivedNonce s)) := by
  have hexec : exec (.svcChallenge c) s = .next (runPlain noCheck svcChallengeEff c s) :=
    congrArg Host.Outcome.next (if_pos (Bool.or_eq_true_iff.2 hready))
  have hdrawn := (drawNonce_goes s Goes.rfl (List.Subset.refl _)).within
  have hchallenged := (svcChallengeEff_goes c s Goes.rfl (List.Subset.refl _)).within
  obtain ⟨hends, hkept⟩ := runPlain_ends (check := noCheck) (eff := svcChallengeEff) hruns rfl (output_eq c _ _)
    (hchallenged .journal (by decide))
  refine ⟨_, fit 32 (drawNonce s).1, hexec, ⟨hends, (hchallenged.mono (by decide)).trans (hkept.mono (by decide))⟩,
    length_fit _ _, ?_, fun hdraws => ?_, fun hderives => ?_⟩
  · have hheld : (svcChallengeEff c s).st.keys.nonce = some (fit 32 (drawNonce s).1, (drawNonce s).2.time.clock) := rfl
    rw [hdrawn .time (by decide)] at hheld
    rw [← hheld]
    exact congrArg KeyStore.nonce (hkept .keys (by decide))
  · rw [drawNonce_fst, hdraws]
    rfl
  · rw [drawNonce_fst, hderives]
    rfl

section
variable {s : State} {n : List Byte} {at_ : Nat} (hnonce : s.keys.nonce = some (n, at_))
include hnonce

theorem exec_challengeExpiry (hlate : s.time.clock - at_ > 60000000000) :
    ∃ t, exec .challengeExpiry s = .next t ∧ Within [.keys] s t ∧ t.keys.nonce = none ∧
      { t.keys with nonce := s.keys.nonce } = s.keys := by
  have hexpired : chalValid s = false := by
    unfold chalValid
    rw [hnonce]
    exact decide_eq_false (Nat.not_le.2 hlate)
  have hexec : exec .challengeExpiry s = .next { s with keys := { s.keys with nonce := none } } := by
    refine congrArg Host.Outcome.next (if_pos ?_)
    rw [hnonce, hexpired]
    rfl
  exact ⟨_, hexec, ((execChallengeExpiry_goes s .rfl (List.Subset.refl _)).holds _ hexec).within, rfl, rfl⟩

theorem exec_challengeExpiry_early (hearly : s.time.clock - at_ ≤ 60000000000) : exec .challengeExpiry s = .next s := by
  have hvalid : chalValid s = true := by
    unfold chalValid
    rw [hnonce]
    exact decide_eq_true hearly
  refine congrArg Host.Outcome.next (if_neg ?_)
  rw [hvalid, Bool.not_true, Bool.and_false]
  exact Bool.false_ne_true

end

/-! The owner's and officers' slots (R498, R499). -/

/-- Officer i of the octets that a command carries. -/
def officerSlot (l : List Byte) (s : State) (i : Nat) : KSlot :=
  slotOf 5 0x4A 0 1 2592 s.keys.oepoch 0 (s.sys.epoch + 1) 0 [] (octets l (2592 * i) 2592)

/-- The slots after the first n officers: filled up to a count, empty from there. -/
def officersSet (count : Nat) (one : Nat → KSlot) (n : Nat) (m : Map KSlot) : Map KSlot :=
  (List.range n).foldl (fun m i => if i < count then mset m (5 + i) (one i) else mdel m (5 + i)) m

section
variable (count : Nat) (one : Nat → KSlot) (n : Nat) (m : Map KSlot)

theorem officersSet_succ : officersSet count one (n + 1) m =
    if n < count then mset (officersSet count one n m) (5 + n) (one n) else mdel (officersSet count one n m) (5 + n) := by
  unfold officersSet
  rw [List.range_succ, List.foldl_append]
  rfl

theorem mget_officersSet_other (k : Nat) (hk : k < 5 ∨ 5 + n ≤ k) : mget (officersSet count one n m) k = mget m k := by
  induction n with
  | zero => rfl
  | succ n ih =>
    rw [officersSet_succ]
    split
    · rw [mget_mset_other _ _ _ _ (by omega), ih (by omega)]
    · rw [mget_mdel_other _ _ _ (by omega), ih (by omega)]

theorem mget_officersSet_filled (i : Nat) (hi : i < n) (hcount : i < count) :
    mget (officersSet count one n m) (5 + i) = some (one i) := by
  induction n with
  | zero => exact absurd hi (Nat.not_lt_zero i)
  | succ n ih =>
    rw [officersSet_succ]
    by_cases hlast : i = n
    · rw [if_pos (hlast ▸ hcount), hlast, mget_mset_self]
    · split
      · rw [mget_mset_other _ _ _ _ (by omega), ih (by omega)]
      · rw [mget_mdel_other _ _ _ (by omega), ih (by omega)]

variable {m} (hsorted : msorted none m = true)
include hsorted

theorem msorted_officersSet : msorted none (officersSet count one n m) = true := by
  induction n with
  | zero => exact hsorted
  | succ n ih =>
    rw [officersSet_succ]
    split
    · exact msorted_mset _ _ _ ih
    · exact msorted_mdel _ _ ih

theorem mget_officersSet_empty (i : Nat) (hi : i < n) (hcount : count ≤ i) :
    mget (officersSet count one n m) (5 + i) = none := by
  induction n with
  | zero => exact absurd hi (Nat.not_lt_zero i)
  | succ n ih =>
    rw [officersSet_succ]
    by_cases hlast : i = n
    · rw [if_neg (by omega), hlast]
      exact mget_mdel_self (msorted_officersSet count one n hsorted) _
    · split
      · rw [mget_mset_other _ _ _ _ (by omega), ih (by omega)]
      · rw [mget_mdel_other _ _ _ (by omega), ih (by omega)]

end

/-- The officers of a command are registered: their slots filled from its octets, the others of the eight empty. -/
structure Officers (c : Cmd) (before after : Map KSlot) (l : List Byte) : Prop where
  filled : ∀ i, i < 8 → i < offCount c → ∃ x, mget after (5 + i) = some x ∧ x.attr = 5 ∧ x.ktype = 0x4A ∧
    x.payload = octets l (2592 * i) 2592
  empty : msorted none before = true → ∀ i, i < 8 → offCount c ≤ i → mget after (5 + i) = none

theorem slots_setOfficers (c : Cmd) (l : List Byte) (s : State) :
    (setOfficers c l s).keys.slots = officersSet (offCount c) (officerSlot l s) 8 s.keys.slots := by
  unfold setOfficers officersSet officerSlot
  rfl

theorem officers_setOfficers (c : Cmd) (l : List Byte) (s : State) {before : Map KSlot}
    (hsorted : msorted none before = true → msorted none s.keys.slots = true) :
    Officers c before (setOfficers c l s).keys.slots l where
  filled i hi hcount := by
    rw [slots_setOfficers]
    exact ⟨_, mget_officersSet_filled _ _ 8 _ i hi hcount, rfl, rfl, rfl⟩
  empty h i hi hcount := by
    rw [slots_setOfficers]
    exact mget_officersSet_empty _ _ 8 (hsorted h) i hi hcount

theorem mget_setOfficers_other (c : Cmd) (l : List Byte) (s : State) {k : Nat} (hk : k < 5 ∨ 12 < k) :
    mget (setOfficers c l s).keys.slots k = mget s.keys.slots k := by
  rw [slots_setOfficers]
  exact mget_officersSet_other _ _ 8 _ k (by omega)

/-! Commands under quorum (R502, R505). -/

section
variable {c : Cmd} {s : State} (happlies : mayApply s c = true)
include happlies

/-- A command under quorum whose quorum, check and effect on the state with the quorum noted agree takes effect. -/
theorem applyQuorum_applied {check eff} {u : State} {ps qs : List Part} (hquorum : quorumCheck c s = none)
    (hcheck : check c (noteQuorum c s) = none) (heff : eff c (noteQuorum c s) = done u) (hwithin : Within ps (noteQuorum c s) u)
    (hparts : [.pke, .keys, .log, .budget] ++ ps ⊆ qs ∧ Part.journal ∉ qs ∧ Part.sys ∉ qs) :
    Applied qs s (applyQuorum check eff c s) c ∧
      Within [.sys, .journal, .span, .outbox] u (applyQuorum check eff c s) := by
  obtain ⟨j, hj, -⟩ := runnable_jent (mayApply_spec happlies).1
  obtain ⟨hsub, hjournal, hsys⟩ := hparts
  rw [applyQuorum_passes hquorum]
  exact applyConfig_applied hj hcheck heff
    (((noteQuorum_within c s).mono fun p hp => hsub (List.mem_append_left _ hp)).trans
      (hwithin.mono fun p hp => hsub (List.mem_append_right _ hp))) ⟨hjournal, hsys⟩

/-- A quorum that fails ends the command with its status, and no slot changes. -/
theorem applyQuorum_fails {check eff} {status : Nat} (hquorum : quorumCheck c s = some status) :
    Ends s (applyQuorum check eff c s) c.tok status 0 [] ∧
      (applyQuorum check eff c s).keys.slots = s.keys.slots := by
  obtain ⟨j, hj, -⟩ := runnable_jent (mayApply_spec happlies).1
  have hnoted := noteQuorum_within c s
  obtain ⟨cnt, evt, hkeys⟩ := keys_noteQuorum c s
  obtain ⟨hends, hkept⟩ := applyConfig_refused (eff := eff) hj ((quorumCheck_noteQuorum c s).trans hquorum)
    (hnoted .journal (by decide))
  rw [applyQuorum_refused hquorum]
  exact ⟨hends, by rw [hkept .keys (by decide), hkeys]⟩

/-- svc.officer and svc.release are commands under quorum (R502). -/
theorem exec_quorum_fails {row : Cmd → Instr} (hrow : row ∈ [Instr.svcOfficer, Instr.svcRelease]) {status : Nat}
    (hquorum : quorumCheck c s = some status) :
    ∃ t, exec (row c) s = .next t ∧ Ends s t c.tok status 0 [] ∧ t.keys.slots = s.keys.slots := by
  simp only [List.mem_cons, List.not_mem_nil, or_false] at hrow
  obtain rfl | rfl := hrow
  · exact ⟨_, congrArg Host.Outcome.next (runConfigBy_applies happlies), applyQuorum_fails happlies hquorum⟩
  · exact ⟨_, congrArg Host.Outcome.next (runConfigBy_applies happlies), applyQuorum_fails happlies hquorum⟩

theorem exec_svcOfficer (hquorum : quorumCheck c s = none) :
    ∃ t, exec (.svcOfficer c) s = .next t ∧ Applied [.pke, .keys, .log, .budget, .fw] s t c ∧
      t.keys.quorum = offQuorum c ∧ Officers c s.keys.slots t.keys.slots (opData c) ∧
      ∀ k, (k < 5 ∨ 12 < k) → mget t.keys.slots k = mget s.keys.slots k := by
  let v := noteQuorum c s
  let u := setOfficers c (opData c) v
  have hset := (svcOfficerEff_goes c v Goes.rfl (List.Subset.refl _)).within
  obtain ⟨happlied, hkept⟩ := applyQuorum_applied (check := noCheck) (eff := svcOfficerEff)
    (qs := [.pke, .keys, .log, .budget, .fw]) happlies hquorum rfl rfl hset (by decide)
  have hmeasured : (measureOfficers u).keys = u.keys :=
    (measureOfficers_goes u Goes.rfl (List.Subset.refl _)).within .keys (by decide)
  have hkeys := Eq.trans (hkept .keys (by decide)) hmeasured
  obtain ⟨cnt, evt, hnoted⟩ := keys_noteQuorum c s
  have hslots : v.keys.slots = s.keys.slots := (congrArg KeyStore.slots hnoted :)
  refine ⟨_, congrArg Host.Outcome.next (runConfigBy_applies happlies), happlied, ?_, ?_, fun k hk => ?_⟩
  · rw [hkeys]
    rfl
  · rw [hkeys]
    exact officers_setOfficers c _ v fun h => hslots ▸ h
  · rw [hkeys, ← hslots]
    exact mget_setOfficers_other c _ v hk

theorem exec_svcRelease (hquorum : quorumCheck c s = none) (hepoch : s.keys.oepoch < 64) :
    ∃ t, exec (.svcRelease c) s = .next t ∧ Applied [.pke, .trowel, .keys, .log, .budget, .fw] s t c ∧
      t.keys.oepoch = s.keys.oepoch + 1 ∧ t.keys.ucount = 0 ∧ t.keys.owned = false ∧ t.trowel.pvers = [] ∧
      t.fw.released = true := by
  let v := noteQuorum c s
  obtain ⟨cnt, evt, hnoted⟩ := keys_noteQuorum c s
  have hold : v.keys.oepoch = s.keys.oepoch := (congrArg KeyStore.oepoch hnoted :)
  have hcheck : svcReleaseCheck c v = none := by
    unfold svcReleaseCheck
    rw [hold]
    exact firstFail_eq_none_iff.2 fun p hp => List.mem_singleton.1 hp ▸ decide_eq_false (Nat.not_le.2 hepoch)
  have hreleased := (svcReleaseEff_goes c v Goes.rfl (List.Subset.refl _)).within
  obtain ⟨happlied, hkept⟩ := applyQuorum_applied (check := svcReleaseCheck) (eff := svcReleaseEff)
    (qs := [.pke, .trowel, .keys, .log, .budget, .fw]) happlies hquorum hcheck rfl hreleased (by decide)
  let u : State := { v with
    keys := { v.keys with oepoch := v.keys.oepoch + 1, ucount := 0, owned := false }
    trowel := { v.trowel with pvers := [] }, fw := { v.fw with released := true } }
  have hmeasured : Within [.log, .fw] u (measureLife u) := measure_within _ _ u
  refine ⟨_, congrArg Host.Outcome.next (runConfigBy_applies happlies), happlied, ?_⟩
  rw [hkept .keys (by decide), hkept .trowel (by decide), hkept .fw (by decide)]
  have hkeys : (measureLife u).keys = u.keys := hmeasured .keys (by decide)
  have htrowel : (measureLife u).trowel = u.trowel := hmeasured .trowel (by decide)
  have hfw : (measureLife u).fw.released = u.fw.released := (congrArg Firmware.released (fw_measure 8 (Config.hash 5 (lifecycle u)) u) :)
  change (measureLife u).keys.oepoch = _ ∧ (measureLife u).keys.ucount = _ ∧ (measureLife u).keys.owned = _ ∧
    (measureLife u).trowel.pvers = _ ∧ (measureLife u).fw.released = _
  rw [hkeys, htrowel, hfw]
  exact ⟨congrArg (· + 1) hold, rfl, rfl, rfl, rfl⟩

end

end Sys2Proof.Machine
end

section
/-! SUPPORT. svc.enrol (R499) and key.apply (R491 to R496), and the statement O50. -/
namespace Sys2Proof.Machine

/-! svc.enrol. -/

/-- The keys drawn for a new owner and the state that the draws leave: the base key, the record key and the volume key. -/
def enrolDraws (s : State) : List Byte × List Byte × List Byte × State :=
  let (kek, s) := generate 0 70 32 s
  let (rec, s) := generateKey 0x4A 4896 s
  let (vol, s) := generate 0 70 64 s
  (kek, rec, vol, s)

/-- The state in which the base key of the owner is in force. -/
def enrolKeyed (s : State) : State :=
  let (kek, _, _, s) := enrolDraws s
  let s := { s with keys := { s.keys with bbkek := some kek, keysOk := true, owned := true } }
  { s with keys := { s.keys with ksk := kskOf s } }

/-- The state in which the owner's own slots are filled. -/
def enrolSlotted (c : Cmd) (s : State) : State :=
  let (_, rec, vol, _) := enrolDraws s
  let e := (enrolKeyed s).sys.epoch + 1
  let auth := slotOf 5 0x4A 0 1 2592 (enrolKeyed s).keys.oepoch 0 e 0 [] (octets (opData c) 0 2592)
  let rk := slotOf 4 0x4A 0 1 4896 (enrolKeyed s).keys.oepoch 0 e 0 [] rec
  { enrolKeyed s with keys := { (enrolKeyed s).keys with
    slots := mset (mset (mset (enrolKeyed s).keys.slots 3 rk) 4 auth) 0xD (volKeySlot (enrolKeyed s) vol)
    corrupt := (enrolKeyed s).keys.corrupt.filter (fun k => !decide (3 ≤ k ∧ k ≤ 13)) } }

theorem svcEnrolEff_eq (c : Cmd) (s : State) : svcEnrolEff c s =
    done (measureOfficers (setOfficers c ((opData c).drop 2592) (enrolSlotted c s))) := by
  unfold svcEnrolEff enrolSlotted enrolKeyed enrolDraws
  rfl

theorem enrolDraws_within (s : State) : Within [.eng, .rng, .log, .budget] s (enrolDraws s).2.2.2 := by
  have hbase := generate_within 0 70 32 s
  have hrecord := (generateKey_goes 0x4A 4896 (generate 0 70 32 s).2 Goes.rfl (List.Subset.refl _)).within
  exact (hbase.trans hrecord).trans (generate_within 0 70 64 _)

/-- The state to which an enrolment is applied: with its quorum noted, where one is needed. -/
theorem applyEnrol_eq {c : Cmd} {s : State} (hquorum : officersThere s = true → quorumCheck c s = none) :
    ∃ v cnt evt, Within [.pke, .keys, .log, .budget] s v ∧ v.keys = { s.keys with cnt := cnt, evt := evt } ∧
      applyEnrol c s = applyConfig svcEnrolCheck svcEnrolEff c v := by
  unfold applyEnrol
  split
  · next hofficers =>
    obtain ⟨cnt, evt, hkeys⟩ := keys_noteQuorum c s
    exact ⟨_, cnt, evt, noteQuorum_within c s, hkeys, applyQuorum_passes (hquorum hofficers)⟩
  · exact ⟨s, s.keys.cnt, s.keys.evt, Goes.rfl.within, rfl, rfl⟩

theorem svcEnrolCheck_congr {c : Cmd} {s t : State} (hoepoch : t.keys.oepoch = s.keys.oepoch) (hrng : t.rng = s.rng) :
    svcEnrolCheck c t = svcEnrolCheck c s := by
  unfold svcEnrolCheck drawRefused rngSeeded drbgOf
  rw [hoepoch, hrng]

theorem drawRefused_of_svcEnrolCheck {c : Cmd} {s : State} (hcheck : svcEnrolCheck c s = none) : drawRefused s = none := by
  have hall := (firstFail_eq_none_iff.1 hcheck) ((drawRefused s).isSome, (drawRefused s).getD 0)
    (by simp only [List.mem_cons, true_or, or_true])
  simpa only [Option.isSome_eq_false_iff, Option.isNone_iff_eq_none] using hall

theorem withDraw_runs {i : Nat} {run : Cmd → State → State} {c : Cmd} {s : State} (hmay : drawRefused s = none)
    (hready : drawReady s i = true) : withDraw i run c s = run c s := by
  unfold withDraw
  rw [hmay]
  exact if_pos hready

/-- The slots of a new owner: authority, record and volume keys, officers. -/
theorem slots_enrolled {c : Cmd} {v s : State} {cnt : List Nat} {evt : W32}
    (hkeys : v.keys = { s.keys with cnt := cnt, evt := evt }) :
    let m := (setOfficers c ((opData c).drop 2592) (enrolSlotted c v)).keys.slots
    (∃ x, mget m 4 = some x ∧ x.attr = 5 ∧ x.payload = octets (opData c) 0 2592) ∧ (mget m 3).isSome = true ∧
      (mget m 0xD).isSome = true ∧ Officers c s.keys.slots m ((opData c).drop 2592) := by
  intro m
  have hbase : (enrolKeyed v).keys.slots = s.keys.slots := by
    have hdrawn : (enrolDraws v).2.2.2.keys = v.keys := enrolDraws_within v .keys (by decide)
    exact (congrArg KeyStore.slots (hdrawn.trans hkeys) :)
  have hother (k : Nat) (hk : k < 5 ∨ 12 < k) : mget m k = mget (enrolSlotted c v).keys.slots k :=
    mget_setOfficers_other c _ _ hk
  refine ⟨⟨slotOf 5 0x4A 0 1 2592 (enrolKeyed v).keys.oepoch 0 ((enrolKeyed v).sys.epoch + 1) 0 [] (octets (opData c) 0 2592),
    ?_, rfl, rfl⟩, ?_, ?_, officers_setOfficers c _ _ fun hsorted => ?_⟩
  · exact (hother 4 (by decide)).trans ((mget_mset_other _ _ _ _ (by decide)).trans (mget_mset_self _ _ _))
  · rw [hother 3 (by decide)]
    exact congrArg Option.isSome
      ((mget_mset_other _ _ _ _ (by decide)).trans ((mget_mset_other _ _ _ _ (by decide)).trans (mget_mset_self _ _ _)))
  · rw [hother 0xD (by decide)]
    exact congrArg Option.isSome (mget_mset_self _ _ _)
  · exact msorted_mset _ _ _ (msorted_mset _ _ _ (msorted_mset _ _ _ (hbase ▸ hsorted)))

theorem exec_svcEnrol {c : Cmd} {s : State} (happlies : mayApply s c = true)
    (hquorum : officersThere s = true → quorumCheck c s = none) (hcheck : svcEnrolCheck c s = none)
    (hready : drawReady s 70 = true) :
    ∃ t x, exec (.svcEnrol c) s = .next t ∧ Applied [.eng, .pke, .rng, .keys, .log, .budget, .fw] s t c ∧
      t.keys.owned = true ∧ t.keys.keysOk = true ∧ t.keys.bbkek.isSome = true ∧ t.keys.ksk = kskOf t ∧
      t.keys.quorum = offQuorum c ∧ mget t.keys.slots 4 = some x ∧ x.attr = 5 ∧ x.payload = octets (opData c) 0 2592 ∧
      (mget t.keys.slots 3).isSome = true ∧ (mget t.keys.slots 0xD).isSome = true ∧
      Officers c s.keys.slots t.keys.slots ((opData c).drop 2592) := by
  obtain ⟨j, hj, -⟩ := runnable_jent (mayApply_spec happlies).1
  obtain ⟨v, cnt, evt, hnoted, hkeys, happly⟩ := applyEnrol_eq hquorum
  let u := setOfficers c ((opData c).drop 2592) (enrolSlotted c v)
  have hexec : exec (.svcEnrol c) s = .next (applyConfig svcEnrolCheck svcEnrolEff c v) := by
    refine congrArg Host.Outcome.next ((withDraw_runs (drawRefused_of_svcEnrolCheck hcheck) hready).trans ?_)
    rw [runConfigBy_applies happlies, happly]
  have hpasses : svcEnrolCheck c v = none :=
    (svcEnrolCheck_congr (congrArg KeyStore.oepoch hkeys :) (hnoted .rng (by decide))).trans hcheck
  have henrolled : Within [.eng, .rng, .keys, .log, .budget, .fw] v (measureOfficers u) := by
    have hgoes := (svcEnrolEff_goes c v Goes.rfl (List.Subset.refl _)).within
    rwa [svcEnrolEff_eq] at hgoes
  obtain ⟨happlied, hkept⟩ := applyConfig_applied (ps := [.eng, .pke, .rng, .keys, .log, .budget, .fw]) hj hpasses
    (svcEnrolEff_eq c v) ((hnoted.mono (by decide)).trans (henrolled.mono (by decide))) (by decide)
  have hstored : (applyConfig svcEnrolCheck svcEnrolEff c v).keys = u.keys :=
    (hkept .keys (by decide)).trans ((measureOfficers_goes u Goes.rfl (List.Subset.refl _)).within .keys (by decide))
  obtain ⟨⟨x, hx, hattr, hpayload⟩, hrecord, hvolume, hofficers⟩ := slots_enrolled (c := c) hkeys
  refine ⟨_, x, hexec, happlied, ?_⟩
  unfold kskOf
  rw [hstored]
  exact ⟨rfl, rfl, rfl, rfl, rfl, hx, hattr, hpayload, hrecord, hvolume, hofficers⟩

/-! The items of an envelope (R491, R494, R495). -/

/-- What a slot holds after an item has filled it. -/
structure ItemLoaded (ucount oepoch epoch : Nat) (cek : List Byte) (i : EnvItem) (x : KSlot) : Prop where
  attr : x.attr = i.attr
  ktype : x.ktype = i.ktype
  purpose : x.purpose = i.purpose
  klen : x.klen = i.klen
  label : x.label = i.label
  oepoch : x.oepoch = oepoch
  ucount : x.ucount = ucount
  epoch : x.epoch = epoch
  source : x.source = if i.op = 1 then 2 else 3
  keyFp : x.keyFp = fingerprint x.payload
  written : i.op = 1 → x.payload = (itemPayload cek i).getD []

theorem generateKey_within (ktype klen : Nat) (s : State) : Within [.eng, .rng, .log, .budget] s (generateKey ktype klen s).2 :=
  (generateKey_goes ktype klen s Goes.rfl (List.Subset.refl _)).within

theorem applyItem_within (n : Nat) (cek : List Byte) (i : EnvItem) (s : State) :
    Within [.eng, .rng, .keys, .log, .budget] s (applyItem n cek i s) :=
  (applyItem_goes n cek i s Goes.rfl (List.Subset.refl _)).within

/-- The state in which a slot's corruption is forgotten. -/
def itemFreed (i : EnvItem) (s : State) : State :=
  { s with keys := { s.keys with corrupt := s.keys.corrupt.filter (· != i.slot) } }

/-- The payload of an item, and the state after it is made. -/
def itemMade (cek : List Byte) (i : EnvItem) (s : State) : List Byte × State :=
  if i.op = 1 then ((itemPayload cek i).getD [], s) else generateKey i.ktype i.klen s

/-- The slot that an item fills, from its payload. -/
def itemSlot (n : Nat) (i : EnvItem) (payload : List Byte) (s : State) : KSlot :=
  slotOf i.attr i.ktype i.purpose (if i.op = 1 then 2 else 3) i.klen s.keys.oepoch n (s.sys.epoch + 1)
    (if i.purpose / 4 % 2 = 1 then i.keyId else 0) i.label payload

theorem itemMade_within (cek : List Byte) (i : EnvItem) (s : State) :
    Within [.eng, .rng, .log, .budget] s (itemMade cek i s).2 := by
  unfold itemMade
  split
  · exact Goes.rfl.within
  · exact generateKey_within _ _ _

section
variable (n : Nat) (cek : List Byte) (i : EnvItem) (s : State)

theorem applyItem_erases (hop : i.op = 2) :
    applyItem n cek i s = { itemFreed i s with keys := { (itemFreed i s).keys with slots := mdel s.keys.slots i.slot } } :=
  if_pos hop

/-- An item that does not erase fills its slot. -/
theorem applyItem_loads (hop : i.op ≠ 2) : ∃ x, ItemLoaded n s.keys.oepoch (s.sys.epoch + 1) cek i x ∧
    (applyItem n cek i s).keys = { (itemFreed i s).keys with slots := mset s.keys.slots i.slot x } := by
  have hmade := itemMade_within cek i (itemFreed i s)
  have hkeys : (itemMade cek i (itemFreed i s)).2.keys = (itemFreed i s).keys := hmade .keys (by decide)
  have hsys : (itemMade cek i (itemFreed i s)).2.sys = s.sys := hmade .sys (by decide)
  have heq : applyItem n cek i s =
      let (p, s) := itemMade cek i (itemFreed i s)
      { s with keys := { s.keys with slots := mset s.keys.slots i.slot (itemSlot n i p s) } } := if_neg hop
  rw [heq]
  dsimp only [itemSlot]
  rw [hkeys, hsys]
  refine ⟨_, ⟨rfl, rfl, rfl, rfl, rfl, rfl, rfl, rfl, rfl, rfl, fun hwrite => ?_⟩, rfl⟩
  exact congrArg Prod.fst (if_pos hwrite)

theorem mget_applyItem_other {k : Nat} (hk : i.slot ≠ k) : mget (applyItem n cek i s).keys.slots k = mget s.keys.slots k := by
  by_cases hop : i.op = 2
  · rw [applyItem_erases _ _ _ _ hop]
    exact mget_mdel_other _ _ _ (Ne.symm hk)
  · obtain ⟨x, -, hkeys⟩ := applyItem_loads n cek i s hop
    rw [hkeys]
    exact mget_mset_other _ _ _ _ (Ne.symm hk)

theorem msorted_applyItem (hsorted : msorted none s.keys.slots = true) :
    msorted none (applyItem n cek i s).keys.slots = true := by
  by_cases hop : i.op = 2
  · rw [applyItem_erases _ _ _ _ hop]
    exact msorted_mdel _ _ hsorted
  · obtain ⟨x, -, hkeys⟩ := applyItem_loads n cek i s hop
    rw [hkeys]
    exact msorted_mset _ _ _ hsorted

theorem oepoch_applyItem : (applyItem n cek i s).keys.oepoch = s.keys.oepoch := by
  by_cases hop : i.op = 2
  · rw [applyItem_erases _ _ _ _ hop]
    rfl
  · obtain ⟨x, -, hkeys⟩ := applyItem_loads n cek i s hop
    rw [hkeys]
    rfl

end

/-- Every item of an envelope, in order. -/
def applyItems (n : Nat) (cek : List Byte) (items : List EnvItem) (s : State) : State :=
  items.foldl (fun s i => applyItem n cek i s) s

section
variable (n : Nat) (cek : List Byte)

theorem applyItems_within (items : List EnvItem) :
    ∀ s, Within [.eng, .rng, .keys, .log, .budget] s (applyItems n cek items s) := by
  induction items with
  | nil => exact fun _ => Goes.rfl.within
  | cons i items ih => exact fun s => (applyItem_within n cek i s).trans (ih _)

theorem mget_applyItems_other {k : Nat} (items : List EnvItem) :
    ∀ s, (∀ i ∈ items, i.slot ≠ k) → mget (applyItems n cek items s).keys.slots k = mget s.keys.slots k := by
  induction items with
  | nil => exact fun _ _ => rfl
  | cons i items ih =>
    exact fun s hother => (ih _ fun j hj => hother j (List.mem_cons_of_mem i hj)).trans
      (mget_applyItem_other n cek i s (hother i List.mem_cons_self))

/-- Slots behind the first item are others than its own. -/
theorem slot_ne_of_nodup {i : EnvItem} {items : List EnvItem} (hnodup : ((i :: items).map (·.slot)).Nodup) :
    ∀ j ∈ items, j.slot ≠ i.slot := fun j hj hsame => by
  rw [List.map_cons, List.nodup_cons] at hnodup
  exact hnodup.1 (hsame ▸ List.mem_map_of_mem hj)

/-- Every item that does not erase has filled its slot. -/
theorem applyItems_loads (items : List EnvItem) : ∀ s, (items.map (·.slot)).Nodup → ∀ i ∈ items, i.op ≠ 2 →
    ∃ x, mget (applyItems n cek items s).keys.slots i.slot = some x ∧
      ItemLoaded n s.keys.oepoch (s.sys.epoch + 1) cek i x := by
  induction items with
  | nil => exact fun _ _ i hi => absurd hi List.not_mem_nil
  | cons i items ih =>
    intro s hnodup k hk hop
    obtain rfl | hrest := List.mem_cons.1 hk
    · obtain ⟨x, hloaded, hkeys⟩ := applyItem_loads n cek k s hop
      refine ⟨x, (mget_applyItems_other n cek items _ (slot_ne_of_nodup hnodup)).trans ?_, hloaded⟩
      rw [hkeys]
      exact mget_mset_self _ _ _
    · have htail := ih (applyItem n cek i s) (List.nodup_cons.1 hnodup).2 k hrest hop
      rw [oepoch_applyItem, applyItem_within n cek i s .sys (by decide)] at htail
      exact htail

/-- Every item that erases leaves its slot empty. -/
theorem applyItems_erases (items : List EnvItem) : ∀ s, (items.map (·.slot)).Nodup → msorted none s.keys.slots = true →
    ∀ i ∈ items, i.op = 2 → mget (applyItems n cek items s).keys.slots i.slot = none := by
  induction items with
  | nil => exact fun _ _ _ i hi => absurd hi List.not_mem_nil
  | cons i items ih =>
    intro s hnodup hsorted k hk hop
    obtain rfl | hrest := List.mem_cons.1 hk
    · refine (mget_applyItems_other n cek items _ (slot_ne_of_nodup hnodup)).trans ?_
      exact (congrArg (fun t : State => mget t.keys.slots k.slot) (applyItem_erases n cek k s hop)).trans
        (mget_mdel_self hsorted _)
    · exact ih (applyItem n cek i s) (List.nodup_cons.1 hnodup).2 (msorted_applyItem n cek i s hsorted) k hrest hop

end

end Sys2Proof.Machine
end

section
/-! SUPPORT. key.apply (R494 to R496) as one change, and the statement O50. -/
namespace Sys2Proof.Machine

theorem nodup_of_parseEnvelope {l : List Byte} {items : List EnvItem} (h : parseEnvelope l = some items) :
    (items.map (·.slot)).Nodup := by
  unfold parseEnvelope at h
  dsimp only at h
  split at h
  · exact nomatch h
  · split at h
    · next parsed e _ =>
      split at h
      · next hall =>
        cases h
        exact hall.2
      · exact nomatch h
    · exact nomatch h

theorem envGenerates_eq {c : Cmd} {items : List EnvItem} (hitems : parseEnvelope c.input = some items) :
    envGenerates c = items.any (fun i => i.op == 3) := by
  unfold envGenerates
  rw [hitems]
  rfl

/-- Whether an envelope may take effect is not decided by counters, events or work charged. -/
theorem keyApplyCheck_congr {c : Cmd} {s t : State} {cnt : List Nat} {evt : W32}
    (hwithin : Within [.pke, .keys, .log, .budget] s t) (hkeys : t.keys = { s.keys with cnt := cnt, evt := evt }) :
    keyApplyCheck c t = keyApplyCheck c s := by
  unfold keyApplyCheck slotFail envSigned slotKey slotInUse poolAfter poolFree reservedUnits partnerThere drawRefused
    rngSeeded drbgOf
  rw [hkeys, hwithin .pair (by decide), hwithin .skim (by decide), hwithin .fns (by decide), hwithin .rng (by decide),
    hwithin .freeCtr (by decide)]

section
variable {c : Cmd} {s : State} {items : List EnvItem} {r : Nat} (hitems : parseEnvelope c.input = some items)
  (hown : ownEntry c.input = some r)
include hitems hown

/-- What the check of an envelope has settled: the payloads that it writes unwrap, and keys that it generates can be drawn. -/
theorem keyApplyCheck_eq_none (hcheck : keyApplyCheck c s = none) :
    (∀ i ∈ items, i.op = 1 → (itemPayload ((contentKey c.input r).getD []) i).isSome = true) ∧
      (envGenerates c = true → drawRefused s = none) := by
  unfold keyApplyCheck at hcheck
  simp only [hitems, hown] at hcheck
  split at hcheck
  · exact nomatch hcheck
  · split at hcheck
    · exact nomatch hcheck
    · have hall := firstFail_eq_none_iff.1 hcheck
      have hpayloads := hall (!envSigned s c.input || (contentKey c.input r).isNone ||
        items.any (fun i => i.op == 1 && (itemPayload ((contentKey c.input r).getD []) i).isNone), 0x0401)
        (by simp only [List.mem_cons, true_or])
      have hdraws := hall (items.any (fun i => i.op == 3) && (drawRefused s).isSome, (drawRefused s).getD 0)
        (by simp only [List.mem_cons, true_or, or_true])
      refine ⟨fun i hi hwrite => ?_, fun hgenerates => ?_⟩
      · have hnone := (Bool.or_eq_false_iff.1 hpayloads).2
        have hitem := List.any_eq_false.1 hnone i hi
        simpa [hwrite, Option.isSome_iff_ne_none] using hitem
      · rw [envGenerates_eq hitems] at hgenerates
        simpa [hgenerates] using hdraws

/-- The state in which a partner has been handed the envelope (R496). -/
def envHanded (c : Cmd) (s : State) : State :=
  if s.pair.paired && !s.pair.standby then emit (.pair (.handOver c)) { s with freeCtr := s.freeCtr + 1 } else s

/-- The state in which every item and the update count are in force. -/
def envApplied (c : Cmd) (items : List EnvItem) (r : Nat) (s : State) : State :=
  let u := applyItems (entryCount c.input r) ((contentKey c.input r).getD []) items (envHanded c s)
  { u with keys := { u.keys with ucount := entryCount c.input r } }

/-- The state in which that is counted and its events raised. -/
def envNoted (n : Nat) (s : State) : State :=
  if n = 0xFFFFFFFF then event 9 4 (event 9 0 (cntKst 0 1 s)) else event 9 0 (cntKst 0 1 s)

theorem keyApplyEff_eq : keyApplyEff c s = done (envNoted (entryCount c.input r) (envApplied c items r s)) := by
  unfold keyApplyEff
  simp only [hitems, hown, Option.getD_some]
  rfl

omit hitems hown in
theorem envHanded_within (c : Cmd) (s : State) : Within [.freeCtr, .outbox] s (envHanded c s) := by
  intro p hp
  unfold envHanded
  split
  · cases p with
    | freeCtr => exact absurd (by decide) hp
    | outbox => exact absurd (by decide) hp
    | _ => rfl
  · cases p <;> rfl

omit hitems hown in
/-- Of the key store the notes change a counter and the event register. -/
theorem keys_envNoted (n : Nat) (s : State) : ∃ cnt evt, (envNoted n s).keys = { s.keys with cnt := cnt, evt := evt } := by
  unfold envNoted
  split
  · rw [event_keys_window, event_keys_window]
    exact ⟨_, _, rfl⟩
  · rw [event_keys_window]
    exact ⟨_, _, rfl⟩

end

/-! The command. -/

theorem envWork_within (s : State) : Within [.pke, .log, .budget] s (envWork s) :=
  (envWork_goes s Goes.rfl (List.Subset.refl _)).within

/-- The state in which the verification of an envelope that gets so far is charged. -/
def envCharged (c : Cmd) (s : State) : State := if envVerifies c s then envWork s else s

theorem envCharged_within (c : Cmd) (s : State) : Within [.pke, .log, .budget] s (envCharged c s) := by
  unfold envCharged
  split
  · exact envWork_within s
  · exact Goes.rfl.within

theorem keyApplyCheck_envCharged (c : Cmd) (s : State) : keyApplyCheck c (envCharged c s) = keyApplyCheck c s :=
  keyApplyCheck_congr (cnt := s.keys.cnt) (evt := s.keys.evt) ((envCharged_within c s).mono (by decide))
    (envCharged_within c s .keys (by decide))

section
variable {c : Cmd} {s : State} (happlies : mayApply s c = true) (hready : envGenerates c = true → drawReady s 70 = true)
  (hgood : ((parseEnvelope c.input).getD []).all (fun i => (mget s.keys.slots i.slot).all (fun x =>
    x.attr + x.attrInv == 7 && x.purpose + x.purposeInv == 15)) = true)
include happlies hgood

/-- Where both copies of the slots' attributes agree, the envelope is applied. -/
theorem runConfigBy_applyKeys : runConfigBy applyKeys c s = applyEnvelope c s := by
  have hmode := modeOk_of_runnable (mayApply_spec happlies).1
  have hshadow : slotShadow c s = s := if_pos hgood
  rw [runConfigBy_applies happlies]
  unfold applyKeys
  simp only [hshadow, hmode, if_true]

include hready

theorem exec_keyApply_eq (hmay : envGenerates c = true → drawRefused s = none) :
    exec (.keyApply c) s = .next (applyEnvelope c s) := by
  refine congrArg Host.Outcome.next (Eq.trans ?_ (runConfigBy_applyKeys happlies hgood))
  split
  · next hgenerates => exact withDraw_runs (hmay hgenerates) (hready hgenerates)
  · rfl

omit hready in
/-- An envelope whose keys cannot be drawn is refused, and the refused draw counted. -/
theorem exec_keyApply_counted (hgenerates : envGenerates c = true) {status : Nat} (hrefused : drawRefused s = some status) :
    exec (.keyApply c) s = .next (cntRng 4 1 (applyEnvelope c s)) := by
  refine congrArg Host.Outcome.next ((if_pos hgenerates).trans ?_)
  unfold withDraw
  simp only [hrefused, (mayApply_spec happlies).1, if_true, runConfigBy_applyKeys happlies hgood]

theorem exec_keyApply {items : List EnvItem} {r : Nat} (hcheck : keyApplyCheck c s = none)
    (hitems : parseEnvelope c.input = some items) (hown : ownEntry c.input = some r) :
    ∃ t, exec (.keyApply c) s = .next t ∧ Applied [.eng, .pke, .rng, .keys, .log, .budget, .freeCtr] s t c ∧
      t.keys.ucount = entryCount c.input r ∧
      (∀ i ∈ items, i.op ≠ 2 → ∃ x, mget t.keys.slots i.slot = some x ∧
        ItemLoaded (entryCount c.input r) s.keys.oepoch (s.sys.epoch + 1) ((contentKey c.input r).getD []) i x) ∧
      (msorted none s.keys.slots = true → ∀ i ∈ items, i.op = 2 → mget t.keys.slots i.slot = none) ∧
      (∀ k, (∀ i ∈ items, i.slot ≠ k) → mget t.keys.slots k = mget s.keys.slots k) := by
  obtain ⟨j, hj, -⟩ := runnable_jent (mayApply_spec happlies).1
  obtain ⟨-, hmay⟩ := keyApplyCheck_eq_none hitems hown hcheck
  let n := entryCount c.input r
  let cek := (contentKey c.input r).getD []
  let v := envCharged c s
  let h := envHanded c v
  have hcharged : Within [.pke, .log, .budget] s v := envCharged_within c s
  have hhanded : Within [.freeCtr, .outbox] v h := envHanded_within c v
  have hpasses : keyApplyCheck c v = none := (keyApplyCheck_envCharged c s).trans hcheck
  have heff : keyApplyEff c v = done (envNoted n (envApplied c items r v)) := keyApplyEff_eq hitems hown
  have hdone : applyEnvelope c s = applyConfig keyApplyCheck keyApplyEff c v := by
    refine if_neg ?_
    rw [show keyApplyCheck c (if envVerifies c s = true then envWork s else s) = none from hpasses]
    exact Bool.false_ne_true
  have hwithin := (keyApplyEff_goes c v Goes.rfl (List.Subset.refl _)).within
  rw [heff] at hwithin
  obtain ⟨⟨hends, hepoch, happlied⟩, hkept⟩ := applyConfig_applied
    (ps := [.eng, .pke, .rng, .keys, .log, .budget, .freeCtr, .outbox]) hj hpasses heff
    ((hcharged.mono (by decide)).trans (hwithin.mono (by decide))) (by decide)
  obtain ⟨cnt, evt, hnoted⟩ := keys_envNoted n (envApplied c items r v)
  have hkeys := (hkept .keys (by decide)).trans hnoted
  have hslots : (applyConfig keyApplyCheck keyApplyEff c v).keys.slots = (applyItems n cek items h).keys.slots :=
    (congrArg KeyStore.slots hkeys :)
  have hbefore : h.keys = s.keys := (hhanded .keys (by decide)).trans (hcharged .keys (by decide))
  have hsys : h.sys = s.sys := (hhanded .sys (by decide)).trans (hcharged .sys (by decide))
  have hnodup := nodup_of_parseEnvelope hitems
  refine ⟨_, (exec_keyApply_eq happlies hready hgood hmay).trans (congrArg Host.Outcome.next hdone),
    ⟨hends, hepoch, happlied.mono (by decide)⟩, (congrArg KeyStore.ucount hkeys :), ?_⟩
  rw [hslots, ← hbefore, ← hsys]
  exact ⟨applyItems_loads n cek items h hnodup, applyItems_erases n cek items h hnodup,
    fun k hother => mget_applyItems_other n cek items h hother⟩

theorem exec_keyApply_refused {status : Nat} (hcheck : keyApplyCheck c s = some status) :
    ∃ t, exec (.keyApply c) s = .next t ∧ Ends s t c.tok status 0 [] ∧
      Within [.journal, .pke, .rng, .keys, .span, .log, .budget, .outbox] s t ∧ t.keys.slots = s.keys.slots ∧
      t.keys.ucount = s.keys.ucount := by
  obtain ⟨j, hj, -⟩ := runnable_jent (mayApply_spec happlies).1
  let v := envCharged c s
  let w := event 9 1 (cntKst 1 1 v)
  have hcharged : Within [.pke, .log, .budget] s v := envCharged_within c s
  have hkeys : w.keys = { s.keys with cnt := (cntKst 1 1 v).keys.cnt, evt := setBit s.keys.evt 1 } := by
    have hevent : w.keys = _ := event_keys_window 1 (cntKst 1 1 v)
    rw [hevent, ← show v.keys = s.keys from hcharged .keys (by decide)]
    rfl
  have hwithin : Within [.pke, .keys, .log, .budget] s w :=
    (hcharged.mono (by decide)).trans
      ((event_goes 9 1 _ (cntKst_goes (ps := [.keys, .log]) 1 1 v Goes.rfl (by decide)) (by decide)).within.mono (by decide))
  have hfails : keyApplyCheck c v = some status := (keyApplyCheck_envCharged c s).trans hcheck
  have hdone : applyEnvelope c s = applyConfig keyApplyCheck keyApplyEff c w := by
    refine if_pos ?_
    rw [show keyApplyCheck c (if envVerifies c s = true then envWork s else s) = some status from hfails]
    rfl
  obtain ⟨hends, hkept⟩ := applyConfig_refused (eff := keyApplyEff) hj ((keyApplyCheck_congr hwithin hkeys).trans hcheck)
    (hwithin .journal (by decide))
  let t := applyConfig keyApplyCheck keyApplyEff c w
  have hstored : t.keys = _ := (hkept .keys (by decide)).trans hkeys
  have hslots : t.keys.slots = s.keys.slots := (congrArg KeyStore.slots hstored :)
  have hucount : t.keys.ucount = s.keys.ucount := (congrArg KeyStore.ucount hstored :)
  have hall : Within [.journal, .pke, .rng, .keys, .span, .log, .budget, .outbox] s t :=
    (hwithin.mono (by decide)).trans (hkept.mono (by decide))
  by_cases hdraw : envGenerates c = true ∧ (drawRefused s).isSome = true
  · obtain ⟨hgenerates, hsome⟩ := hdraw
    obtain ⟨st, hrefused⟩ := Option.isSome_iff_exists.1 hsome
    have hcounted : Within [.rng] t (cntRng 4 1 t) := (cntRng_goes 4 1 t Goes.rfl (List.Subset.refl _)).within
    have hexec := exec_keyApply_counted happlies hgood hgenerates hrefused
    rw [hdone] at hexec
    exact ⟨_, hexec, ends_congr hends rfl rfl, hall.trans (hcounted.mono (by decide)), hslots, hucount⟩
  · have hmay : envGenerates c = true → drawRefused s = none := fun hgenerates => by
      simpa only [hgenerates, true_and, Bool.not_eq_true, Option.isSome_eq_false_iff, Option.isNone_iff_eq_none] using hdraw
    exact ⟨_, (exec_keyApply_eq happlies hready hgood hmay).trans (congrArg Host.Outcome.next hdone), hends, hall, hslots, hucount⟩

end

/-- What the statement says of a slot that an item has filled. -/
theorem ItemLoaded.spelled {n oepoch epoch : Nat} {cek : List Byte} {i : EnvItem} {x : KSlot}
    (h : ItemLoaded n oepoch epoch cek i x) (hpayload : i.op = 1 → (itemPayload cek i).isSome = true) :
    x.attr = i.attr ∧ x.ktype = i.ktype ∧ x.purpose = i.purpose ∧ x.klen = i.klen ∧ x.label = i.label ∧ x.oepoch = oepoch ∧
      x.ucount = n ∧ x.epoch = epoch ∧ x.source = (if i.op = 1 then 2 else 3) ∧ x.keyFp = fingerprint x.payload ∧
      (i.op = 1 → itemPayload cek i = some x.payload) := by
  refine ⟨h.attr, h.ktype, h.purpose, h.klen, h.label, h.oepoch, h.ucount, h.epoch, h.source, h.keyFp, fun hwrite => ?_⟩
  obtain ⟨payload, hsome⟩ := Option.isSome_iff_exists.1 (hpayload hwrite)
  rw [h.written hwrite, hsome]
  rfl

/-- Settles O50: each row by its own theorem. -/
theorem keyStoreCommands : Obligations.KeyStoreCommands := by
  unfold Obligations.KeyStoreCommands
  refine ⟨fun c s => ⟨fun x hruns hcheck hx => exec_keyInfo hruns hcheck hx, fun _ hruns => exec_keyInfo_refused hruns, exec_keyTarget,
    exec_svcChallenge, fun happlies hready hgood => ⟨fun items r hcheck hitems hown => ?_,
      fun _ => exec_keyApply_refused happlies hready hgood⟩,
    ⟨fun happlies hquorum hcheck hready => ?_, fun happlies hquorum => ?_⟩, exec_svcRelease,
    fun happlies row hrow => ⟨fun hnonce => ?_, fun n hnonce hslots hfew => ?_⟩⟩,
    fun s n at_ hnonce => ⟨exec_challengeExpiry hnonce, exec_challengeExpiry_early hnonce⟩⟩
  · obtain ⟨t, hexec, happlied, hucount, hloaded, hrest⟩ := exec_keyApply happlies hready hgood hcheck hitems hown
    obtain ⟨hpayloads, -⟩ := keyApplyCheck_eq_none hitems hown hcheck
    refine ⟨t, hexec, happlied, hucount, fun i hi hop => ?_, hrest⟩
    obtain ⟨x, hx, hitem⟩ := hloaded i hi hop
    exact ⟨x, hx, hitem.spelled (hpayloads i hi)⟩
  · obtain ⟨t, x, hexec, happlied, howned, hok, hbase, hksk, hquorum, hx, hattr, hpayload, hrecord, hvolume, hofficers⟩ :=
      exec_svcEnrol happlies hquorum hcheck hready
    exact ⟨t, x, hexec, happlied, howned, hok, hbase, hksk, hquorum, hx, hattr, hpayload, hrecord, hvolume,
      hofficers.filled, hofficers.empty⟩
  · obtain ⟨t, hexec, happlied, hsize, hofficers, hothers⟩ := exec_svcOfficer happlies hquorum
    exact ⟨t, hexec, happlied, hsize, ⟨hofficers.filled, hofficers.empty⟩, hothers⟩
  · refine exec_quorum_fails happlies hrow ?_
    unfold quorumCheck
    rw [hnonce]
  · refine exec_quorum_fails happlies hrow ?_
    have hthere : ((List.range (tokenCount c)).any (fun i =>
        (mget s.keys.slots (5 + field (tokenAt c i) 5 1)).isNone || decide (field (tokenAt c i) 5 1 > 7))) = false := by
      refine List.any_eq_false.2 fun i hi => ?_
      obtain ⟨hofficer, hslot⟩ := hslots i (List.mem_range.1 hi)
      rw [Option.isNone_eq_false_iff.2 hslot, decide_eq_false (by omega)]
      exact Bool.false_ne_true
    unfold quorumCheck
    simp only [hnonce, hthere, hfew, Bool.false_eq_true, if_false, if_true]

end Sys2Proof.Machine
end

section
/-! SUPPORT. Tamper alarms and their responses (R545 to R556): what each leaves of the tamper controller, the mode, the keys and
the evidence registers. -/
namespace Sys2Proof.Machine

theorem event_tamper_window (b : Nat) (s : State) :
    (event 1 b s).tamper = { s.tamper with evt := setBit s.tamper.evt b } := logEv_within _ _ _ (setEvt 1 b s) .tamper (by decide)

theorem zeroizeLog_within (step src : Nat) (s : State) : Within [.log] s (zeroizeLog step src s) := logEv_within _ _ _ _

theorem stopDevice_within (s : State) :
    Within [.time, .ports, .skim, .hawk, .trowel, .publ, .eng, .pke, .log, .outbox] s (stopDevice s) :=
  (stopDevice_goes s Goes.rfl (List.Subset.refl _)).within

theorem announceFailure_within (cause : Nat) (s : State) :
    Within [.ports, .bpcfg, .skim, .log, .outbox] s (announceFailure cause s) :=
  (announceFailure_goes cause s Goes.rfl (List.Subset.refl _)).within

theorem enterMode_within {m : Nat} (hm : m ≤ 7) (s : State) : Within [.sys, .log, .outbox] s (enterMode m s) :=
  (enterMode_goes m s Goes.rfl (List.Subset.refl _) hm).within

theorem advanceTamper_within (src : Nat) (s : State) : Within [.tamper, .log, .fw] s (advanceTamper src s) :=
  (advanceTamper_goes src s Goes.rfl (List.Subset.refl _)).within

/-! ZEROIZE in its parts (R551). -/

/-- The state after step 4: announced, and everything stopped. -/
def zeroizeStopped (src : Nat) (s : State) : State :=
  let two := zeroizeTwo src s
  let next := if two.tamper.steps + b2n s.keys.bbkek.isSome ≥ 64 then 7 else 6
  zeroizeLog 4 src (stopDevice (zeroizeLog 3 src (announceFailure (if next = 7 then 3 else 2) two)))

/-- The state after step 6: the tamper counter advanced, and the owner's slots empty. -/
def zeroizeAdvanced (src : Nat) (s : State) : State :=
  let u := zeroizeStopped src s
  zeroizeLog 6 src (wipeOwnerSlots (zeroizeLog 5 src (if s.keys.bbkek.isSome then advanceTamper src u else u)))

theorem zeroize_eq (src : Nat) (s : State) : zeroize src s =
    zeroizeLog 7 src (enterMode (if (zeroizeAdvanced src s).tamper.steps ≥ 64 then 7 else 6)
      { zeroizeAdvanced src s with sys := { (zeroizeAdvanced src s).sys with startup := false } }) := rfl

section
variable (src : Nat) (s : State)

theorem tamper_zeroizeTwo : (zeroizeTwo src s).tamper =
    { s.tamper with sticky := setBit s.tamper.sticky src, lastz := lastzWord (eraseBbkek s) src false s.keys.bbkek.isSome } := by
  unfold zeroizeTwo
  rw [zeroizeLog_within 2 src _ .tamper (by decide)]
  dsimp only
  rw [zeroizeLog_within 1 src _ .tamper (by decide)]
  unfold lastzWord
  rw [mode_congr (zeroizeLog_within 1 src _ .sys (by decide)), zeroizeLog_within 1 src _ .sys (by decide)]
  rfl

theorem sys_zeroizeTwo : (zeroizeTwo src s).sys = s.sys :=
  (zeroizeTwo_goes src s Goes.rfl (List.Subset.refl _)).within .sys (by decide)

theorem tamper_zeroizeStopped : (zeroizeStopped src s).tamper = (zeroizeTwo src s).tamper := by
  unfold zeroizeStopped
  dsimp only
  rw [zeroizeLog_within 4 src _ .tamper (by decide), stopDevice_within _ .tamper (by decide),
    zeroizeLog_within 3 src _ .tamper (by decide), announceFailure_within _ _ .tamper (by decide)]

/-- Of the tamper controller an advance changes the steps, or the pending source while VAUX is out of its limits (R556). -/
theorem tamper_advanceTamper : (advanceTamper src s).tamper =
    if s.tamper.vauxOk then { s.tamper with steps := min 64 (s.tamper.steps + 1) } else { s.tamper with pending := some src } := by
  unfold advanceTamper
  split
  · exact (measure_within _ _ _ : Within [.log, .fw] _ (measureLife _)) .tamper (by decide)
  · rfl

theorem tamper_zeroizeAdvanced : (zeroizeAdvanced src s).tamper =
    if s.keys.bbkek.isSome then
      (if s.tamper.vauxOk then { (zeroizeTwo src s).tamper with steps := min 64 (s.tamper.steps + 1) }
        else { (zeroizeTwo src s).tamper with pending := some src })
    else (zeroizeTwo src s).tamper := by
  unfold zeroizeAdvanced
  dsimp only
  rw [zeroizeLog_within 6 src _ .tamper (by decide)]
  change (zeroizeLog 5 src _).tamper = _
  rw [zeroizeLog_within 5 src _ .tamper (by decide)]
  split
  · rw [tamper_advanceTamper, tamper_zeroizeStopped, tamper_zeroizeTwo]
  · exact tamper_zeroizeStopped src s

theorem tamper_zeroize : (zeroize src s).tamper = (zeroizeAdvanced src s).tamper := by
  rw [zeroize_eq, zeroizeLog_within 7 src _ .tamper (by decide), enterMode_within (by split <;> decide) _ .tamper (by decide)]

/-- SPENT once every step is blown, else SEALED (R525, R551). -/
theorem mode_zeroize : mode (zeroize src s) = if (zeroize src s).tamper.steps ≥ 64 then 7 else 6 := by
  rw [tamper_zeroize, zeroize_eq, mode_congr (zeroizeLog_within 7 src _ .sys (by decide)),
    mode_enterMode (by split <;> decide)]

/-- One step is blown where there was a key and VAUX is within its limits (R556). -/
theorem steps_zeroize : (zeroize src s).tamper.steps =
    if s.keys.bbkek.isSome ∧ s.tamper.vauxOk then min 64 (s.tamper.steps + 1) else s.tamper.steps := by
  rw [tamper_zeroize, tamper_zeroizeAdvanced, tamper_zeroizeTwo]
  cases s.keys.bbkek.isSome <;> cases s.tamper.vauxOk <;> rfl

end

/-! The flag and the count of an alarm stay through its response (R550, R555). -/

/-- The flag of source i is set, and its alarms number n. -/
structure AlarmCounted (i n : Nat) (t : State) : Prop where
  sticky : t.tamper.sticky.getLsbD i = true
  alarms : (lget t.tamper.srcs i default).alarms = n

theorem AlarmCounted.of_within {ps : List Part} {i n : Nat} {s t : State} (h : AlarmCounted i n s) (hwithin : Within ps s t)
    (htamper : Part.tamper ∉ ps) : AlarmCounted i n t := by
  have hsame := hwithin .tamper htamper
  exact ⟨hsame ▸ h.sticky, hsame ▸ h.alarms⟩

theorem AlarmCounted.event {i n : Nat} {s : State} (h : AlarmCounted i n s) (b : Nat) : AlarmCounted i n (event 1 b s) := by
  constructor
  · rw [event_tamper_window]
    exact h.sticky
  · rw [event_tamper_window]
    exact h.alarms

theorem AlarmCounted.zeroizeTwo {i n : Nat} {s : State} (hi : i < 32) (h : AlarmCounted i n s) :
    AlarmCounted i n (zeroizeTwo i s) := by
  constructor
  · rw [tamper_zeroizeTwo]
    exact getLsbD_setBit_self _ hi
  · rw [tamper_zeroizeTwo]
    exact h.alarms

theorem AlarmCounted.zeroize {i n : Nat} {s : State} (hi : i < 32) (h : AlarmCounted i n s) :
    AlarmCounted i n (zeroize i s) := by
  obtain ⟨hsticky, halarms⟩ := h.zeroizeTwo hi
  constructor
  · rw [tamper_zeroize, tamper_zeroizeAdvanced]
    split
    · split <;> exact hsticky
    · exact hsticky
  · rw [tamper_zeroize, tamper_zeroizeAdvanced]
    split
    · split <;> exact halarms
    · exact halarms

theorem haltStart_within (s : State) :
    Within [.sys, .time, .ports, .skim, .hawk, .trowel, .publ, .eng, .pke, .log, .outbox] s (haltStart s) :=
  (haltStart_goes s Goes.rfl (List.Subset.refl _)).within

theorem enterHalted_within (s : State) :
    Within [.sys, .time, .ports, .bpcfg, .skim, .hawk, .trowel, .publ, .eng, .pke, .rng, .log, .outbox] s (enterHalted s) :=
  (enterHalted_goes s Goes.rfl (List.Subset.refl _)).within

theorem AlarmCounted.haltResponse {i n : Nat} {s : State} (h : AlarmCounted i n s) : AlarmCounted i n (haltResponse s) := by
  unfold Machine.haltResponse
  dsimp only
  split
  · exact (h.event 2).of_within (haltStart_within _) (by decide)
  · exact (h.event 2).of_within (enterHalted_within _) (by decide)

/-- No response but RESET ends the count. -/
theorem AlarmCounted.runResponse {r i n : Nat} {s : State} (hi : i < 32) (hr : r ≠ 1) (h : AlarmCounted i n s) :
    AlarmCounted i n (runResponse r i s) := by
  unfold Machine.runResponse
  split
  · exact absurd rfl hr
  · exact h.haltResponse
  · exact (h.event 1).zeroize hi
  · exact h.event 4
  · exact (h.event 1).zeroizeTwo hi
  · exact h

/-! The mode after HALT (R550, R554, R591). -/

theorem mode_haltStart (s : State) : mode (haltStart s) = 5 := mode_changeMode (by decide) (stopDevice s)

/-- HALT of a device that starts up or is not stopped. -/
theorem mode_haltResponse_of {s : State} (h : s.sys.startup = true ∨ isStopped s = false) : mode (haltResponse s) = 5 := by
  by_cases hstartup : s.sys.startup = true
  · have hstarting : (event 1 2 s).sys.startup = true := by rw [event_within 1 2 s .sys (by decide)]; exact hstartup
    unfold haltResponse
    dsimp only
    rw [hstarting, if_pos rfl]
    exact mode_haltStart _
  · exact mode_haltResponse (Bool.eq_false_iff.2 hstartup) (h.resolve_left hstartup)

/-- Outside START-UP only SEALED answers an alarm with RESET of the stopped modes (R554). -/
theorem isStopped_of_respRun_reset {s : State} {i : Nat} (hstartup : s.sys.startup = false) (h : respRun s i = 1)
    (hsealed : mode s ≠ 6) : isStopped s = false := by
  have hmode : mode s ≠ 5 ∧ mode s ≠ 7 := by
    refine ⟨fun hm => ?_, fun hm => ?_⟩ <;>
      · simp only [respRun, hstartup, hm, Bool.false_eq_true, if_false] at h
        split at h <;> exact absurd h (by decide)
  obtain ⟨h5, h7⟩ := hmode
  simp only [isStopped, beq_eq_false_iff_ne.2 h5, beq_eq_false_iff_ne.2 hsealed, beq_eq_false_iff_ne.2 h7, Bool.or_self]

/-! Evidence of a redundancy mismatch (R433, R459) stays through every response but RESET. -/

/-- The engines' mismatch registers are as before, and what was stopped stays stopped. -/
structure KeepsEvidence (s t : State) : Prop where
  eng : t.eng.mismatch = s.eng.mismatch ∧ (s.eng.stopped = true → t.eng.stopped = true)
  pke : t.pke.mismatch = s.pke.mismatch ∧ (s.pke.stopped = true → t.pke.stopped = true)

theorem KeepsEvidence.of_eq {s t : State} (heng : t.eng = s.eng) (hpke : t.pke = s.pke) : KeepsEvidence s t :=
  ⟨⟨congrArg Engines.mismatch heng, fun hs => heng ▸ hs⟩, ⟨congrArg Pke.mismatch hpke, fun hs => hpke ▸ hs⟩⟩

theorem KeepsEvidence.of_within {ps : List Part} {s t : State} (h : Within ps s t)
    (hparts : Part.eng ∉ ps ∧ Part.pke ∉ ps) : KeepsEvidence s t := by
  obtain ⟨heng, hpke⟩ := hparts
  exact .of_eq (h .eng heng) (h .pke hpke)

theorem KeepsEvidence.trans {s t u : State} (h : KeepsEvidence s t) (g : KeepsEvidence t u) : KeepsEvidence s u :=
  ⟨⟨g.eng.1.trans h.eng.1, fun hs => g.eng.2 (h.eng.2 hs)⟩, ⟨g.pke.1.trans h.pke.1, fun hs => g.pke.2 (h.pke.2 hs)⟩⟩

theorem keepsEvidence_stopDevice (s : State) : KeepsEvidence s (stopDevice s) := by
  have hports := (Goes.foldl (ps := [.time, .ports, .skim, .publ, .log, .outbox]) (f := fun s n => portDisable n s)
    (List.range 8) (Goes.rfl (s := s)) fun u n hu => portDisable_goes n u hu (List.Subset.refl _)).within
  unfold stopDevice
  generalize (List.range 8).foldl (fun s n => portDisable n s) s = u at hports ⊢
  have heng : u.eng = s.eng := hports .eng (by decide)
  have hpke : u.pke = s.pke := hports .pke (by decide)
  exact ⟨⟨(congrArg Engines.mismatch heng :), fun _ => rfl⟩, ⟨(congrArg Pke.mismatch hpke :), fun _ => rfl⟩⟩

/-- START-UP that ends in HALTED. -/
theorem keepsEvidence_haltStart (s : State) : KeepsEvidence s (haltStart s) := by
  have hmode := (changeMode_goes 5 (stopDevice s) Goes.rfl (List.Subset.refl _) (by decide)).within
  have hchanged : KeepsEvidence (stopDevice s) (changeMode 5 (stopDevice s)) := .of_within hmode (by decide)
  exact ((keepsEvidence_stopDevice s).trans hchanged).trans (.of_eq rfl rfl)

theorem keepsEvidence_haltResponse (s : State) : KeepsEvidence s (haltResponse s) := by
  have hnoted : KeepsEvidence s (event 1 2 s) := .of_within (event_within 1 2 s) (by decide)
  unfold haltResponse
  dsimp only
  split
  · exact hnoted.trans (keepsEvidence_haltStart _)
  · unfold enterHalted
    split
    · exact hnoted
    · have hstopped : KeepsEvidence s (enterMode 5 (stopDevice (announceFailure 1 (event 1 2 s)))) :=
        hnoted.trans ((KeepsEvidence.of_within (announceFailure_within 1 _) (by decide)).trans
          ((keepsEvidence_stopDevice _).trans (.of_within (enterMode_within (by decide) _) (by decide))))
      dsimp only
      split
      · exact hstopped.trans (.of_within ((rngRestart_goes _ Goes.rfl (List.Subset.refl _)).within) (by decide))
      · exact hstopped

theorem keepsEvidence_zeroizeTwo (src : Nat) (s : State) : KeepsEvidence s (zeroizeTwo src s) :=
  .of_within (zeroizeTwo_goes src s Goes.rfl (List.Subset.refl _)).within (by decide)

theorem keepsEvidence_zeroizeLog (step src : Nat) (s : State) : KeepsEvidence s (zeroizeLog step src s) :=
  .of_within (zeroizeLog_within step src s) (by decide)

theorem keepsEvidence_zeroize (src : Nat) (s : State) : KeepsEvidence s (zeroize src s) := by
  have hstopped : KeepsEvidence s (zeroizeStopped src s) :=
    (keepsEvidence_zeroizeTwo src s).trans ((KeepsEvidence.of_within (announceFailure_within _ _) (by decide)).trans
      ((keepsEvidence_zeroizeLog 3 src _).trans ((keepsEvidence_stopDevice _).trans (keepsEvidence_zeroizeLog 4 src _))))
  have hadvanced : KeepsEvidence (zeroizeStopped src s) (zeroizeAdvanced src s) := by
    have hempty (u : State) : KeepsEvidence u (wipeOwnerSlots u) := .of_eq rfl rfl
    have hwiped (u : State) : KeepsEvidence u (zeroizeLog 6 src (wipeOwnerSlots (zeroizeLog 5 src u))) :=
      (keepsEvidence_zeroizeLog 5 src u).trans ((hempty _).trans (keepsEvidence_zeroizeLog 6 src _))
    unfold zeroizeAdvanced
    dsimp only
    split
    · exact (KeepsEvidence.of_within (advanceTamper_within src _) (by decide)).trans (hwiped _)
    · exact hwiped _
  have hended (u : State) (n : Nat) : KeepsEvidence u (zeroizeLog 7 src (enterMode (if n ≥ 64 then 7 else 6)
      { u with sys := { u.sys with startup := false } })) := by
    have hmode : (if n ≥ 64 then 7 else 6) ≤ 7 := by split <;> decide
    have hrun : KeepsEvidence u { u with sys := { u.sys with startup := false } } := .of_eq rfl rfl
    exact hrun.trans ((KeepsEvidence.of_within (enterMode_within hmode _) (by decide)).trans (keepsEvidence_zeroizeLog 7 src _))
  rw [zeroize_eq]
  exact (hstopped.trans hadvanced).trans (hended _ _)

theorem keepsEvidence_runResponse {r i : Nat} (hr : r ≠ 1) (s : State) : KeepsEvidence s (runResponse r i s) := by
  unfold runResponse
  split
  · exact absurd rfl hr
  · exact keepsEvidence_haltResponse s
  · exact (KeepsEvidence.of_within (event_within 1 1 s) (by decide)).trans (keepsEvidence_zeroize i _)
  · exact .of_within (event_within 1 4 s) (by decide)
  · exact (KeepsEvidence.of_within (event_within 1 1 s) (by decide)).trans (keepsEvidence_zeroizeTwo i _)
  · exact .of_within Goes.rfl.within (ps := []) (by decide)

end Sys2Proof.Machine
end

section
/-! SUPPORT. Tamper rows (R544 to R555, R561): configuration, flags, events of sources, evidence and net checks, one theorem per
clause. -/
namespace Sys2Proof.Machine

theorem lget_map_range {α : Type} (f : Nat → α) {n i : Nat} {d : α} (hi : i < n) :
    lget ((List.range n).map f) i d = f i := by
  unfold lget
  rw [List.getD_eq_getElem _ _ (by rw [List.length_map, List.length_range]; exact hi), List.getElem_map, List.getElem_range]

/-- What of an entry survives a change of an entry that leaves it alone. -/
theorem lget_lupd_keeps {α β : Type} {F : α → β} {f : α → α} (hF : ∀ a, F (f a) = F a) (l : List α) (i j : Nat) (d : α) :
    F (lget (lupd l i f) j d) = F (lget l j d) := by
  by_cases hj : j = i
  · by_cases hi : i < l.length
    · rw [hj, lget_lupd_self _ _ _ _ hi, hF]
    · unfold lget
      rw [hj, List.getD_eq_default _ _ (by rw [length_lupd]; omega), List.getD_eq_default _ _ (by omega)]
  · rw [lget_lupd_other _ _ _ _ _ hj]

/-! svc.tamper and svc.flagclear (R555, R561). -/

section
variable {c : Cmd} {s : State} (happlies : mayApply s c = true) (hperiod : s.tamper.bperiod.good = true)
  (hsources : s.tamper.srcs.all (fun x => x.cfg.good) = true)
include happlies hperiod hsources

/-- Where both copies of the configuration agree, svc.tamper takes effect under its quorum. -/
theorem exec_svcTamper_eq : exec (.svcTamper c) s = .next (applyQuorum svcTamperCheck svcTamperEff c s) := by
  have hmode := modeOk_of_runnable (mayApply_spec happlies).1
  refine congrArg Host.Outcome.next ((runConfigBy_applies happlies).trans ?_)
  unfold applyTamper tamperShadow
  simp only [hperiod, hsources, hmode, Bool.and_self, if_true]

/-- The sources with the configuration of an image in force. -/
def srcsConfigured (c : Cmd) (s : State) : List TmpSrc :=
  (List.range 18).map (fun i =>
    { lget s.tamper.srcs i default with cfg := Sh.of (word32 (opData c) (4 + 4 * i)), events := [] })

theorem exec_svcTamper (hquorum : quorumCheck c s = none) (hcheck : svcTamperCheck c s = none) :
    ∃ t, exec (.svcTamper c) s = .next t ∧ Applied [.pke, .keys, .tamper, .fw, .log, .budget] s t c ∧
      t.tamper.bperiod = Sh.of (BitVec.ofNat 32 (bits (word32 (opData c) 0) 26 16)) ∧ t.tamper.srcs.length = 18 ∧
      ∀ i, i < 18 → (lget t.tamper.srcs i default).cfg = Sh.of (word32 (opData c) (4 + 4 * i)) := by
  let v := noteQuorum c s
  let w : State := { v with tamper := { v.tamper with
    bperiod := Sh.of (BitVec.ofNat 32 (bits (word32 (opData c) 0) 26 16)), srcs := srcsConfigured c v } }
  let u := event 1 5 (measure 12 (Config.hash 5 (opData c)) w)
  have hset := (svcTamperEff_goes c v Goes.rfl (List.Subset.refl _)).within
  obtain ⟨happlied, hkept⟩ := applyQuorum_applied (check := svcTamperCheck) (eff := svcTamperEff) (u := u)
    (qs := [.pke, .keys, .tamper, .fw, .log, .budget]) happlies hquorum hcheck rfl hset (by decide)
  have htamper : u.tamper = { w.tamper with evt := setBit w.tamper.evt 5 } := by
    have hevent : u.tamper = _ := event_tamper_window 5 (measure 12 (Config.hash 5 (opData c)) w)
    rw [hevent, measure_within 12 _ w .tamper (by decide)]
  refine ⟨_, exec_svcTamper_eq happlies hperiod hsources, happlied, ?_⟩
  rw [hkept .tamper (by decide), htamper]
  refine ⟨rfl, ?_, fun i hi => ?_⟩
  · exact (List.length_map ..).trans List.length_range
  · have hsrc : lget (srcsConfigured c v) i default = _ := lget_map_range _ hi
    exact congrArg TmpSrc.cfg hsrc

theorem exec_svcTamper_refused (hquorum : quorumCheck c s = none) {status : Nat} (hcheck : svcTamperCheck c s = some status) :
    ∃ t, exec (.svcTamper c) s = .next t ∧ Ends s t c.tok status 0 [] ∧ t.tamper = s.tamper := by
  obtain ⟨j, hj, -⟩ := runnable_jent (mayApply_spec happlies).1
  have hnoted := noteQuorum_within c s
  obtain ⟨hends, hkept⟩ := applyConfig_refused (check := svcTamperCheck) (eff := svcTamperEff) (v := noteQuorum c s) hj hcheck
    (hnoted .journal (by decide))
  refine ⟨_, exec_svcTamper_eq happlies hperiod hsources, ?_⟩
  rw [applyQuorum_passes hquorum]
  exact ⟨hends, (hkept .tamper (by decide)).trans (hnoted .tamper (by decide))⟩

end

theorem event_eng_window (b : Nat) (s : State) :
    (event 11 b s).eng = { s.eng with evt := setBit s.eng.evt b } := logEv_within _ _ _ (setEvt 11 b s) .eng (by decide)

theorem pkeEvent_pke_window (b : Nat) (s : State) :
    (pkeEvent b s).pke = { s.pke with evt := setBit s.pke.evt b } := logEv_within _ _ _ _ .pke (by decide)

/-- A VALID bit that is masked out is clear. -/
theorem bit_and_not_twoPow (w : W32) {i : Nat} (hi : i < 32) : bit (w &&& ~~~(BitVec.twoPow 32 i)) i = false := by
  unfold bit
  rw [BitVec.getLsbD_and, BitVec.getLsbD_not, BitVec.getLsbD_twoPow]
  simp [hi]

/-- The flags after those of a mask are cleared, and set again where the source is still in alarm condition. -/
def flagsCleared (c : Cmd) (s : State) : W32 :=
  let mask := cw c 8 &&& 0x7FFFF
  let still := pack ((List.range 18).map (fun i => (b2n (lget s.tamper.srcs i default).cond, i)))
  (s.tamper.sticky &&& ~~~mask) ||| (still &&& mask)

theorem exec_svcFlagclear {c : Cmd} {s : State} (hruns : runnable s c = true) :
    ∃ t, exec (.svcFlagclear c) s = .next t ∧ Served [.eng, .pke, .sealer, .tamper] s t c 0 [] ∧
      t.tamper.sticky = flagsCleared c s ∧
      (if bit (cw c 9) 0 then bit t.tamper.lastz 12 = false ∧ bit t.eng.mismatch 18 = false ∧ bit t.pke.mismatch 22 = false ∧
          bit t.sealer.fail 12 = false
        else t.tamper.lastz = s.tamper.lastz ∧ t.eng = s.eng ∧ t.pke = s.pke ∧ t.sealer = s.sealer) := by
  have hcleared := (svcFlagclearEff_goes c s Goes.rfl (List.Subset.refl _)).within
  have heff : svcFlagclearEff c s = done (svcFlagclearEff c s).st := rfl
  obtain ⟨hends, hkept⟩ := runPlain_ends (check := noCheck) (eff := svcFlagclearEff) hruns rfl heff
    (hcleared .journal (by decide))
  refine ⟨_, rfl, ⟨hends, (hcleared.mono (by decide)).trans (hkept.mono (by decide))⟩, ?_⟩
  rw [hkept .tamper (by decide), hkept .eng (by decide), hkept .pke (by decide), hkept .sealer (by decide)]
  unfold svcFlagclearEff
  dsimp only [done]
  by_cases hvalid : bit (cw c 9) 0 = true
  · simp only [hvalid, if_true]
    exact ⟨rfl, bit_and_not_twoPow (i := 12) _ (by decide), bit_and_not_twoPow (i := 18) _ (by decide),
      bit_and_not_twoPow (i := 22) _ (by decide), bit_and_not_twoPow (i := 12) _ (by decide)⟩
  · simp only [hvalid]
    exact ⟨rfl, rfl, rfl, rfl, rfl⟩

/-! Alarms (R545, R550 to R555). -/

/-- The state in which the flag of an alarm is set and its event raised. -/
def alarmFlagged (i : Nat) (s : State) : State :=
  event 1 0 { s with tamper := { s.tamper with
    srcs := lupd s.tamper.srcs i (fun x => { x with alarms := x.alarms + 1, events := [] })
    sticky := setBit s.tamper.sticky i } }

/-- The state in which the alarm is also in the log, and its response begins. -/
def alarmNoted (i : Nat) (s : State) : State :=
  let r := respRun s i
  tamperLog i (if r = 5 then 3 else if r = 4 then tmpResp (alarmFlagged i s) i else r) (r == 4) false
    (alarmFlagged i s).sys.startup (alarmFlagged i s)

section
variable (i : Nat) (s : State)

theorem tamperAlarm_eq : tamperAlarm i s = runResponse (respRun s i) i (alarmNoted i s) := rfl

theorem alarmNoted_within : Within [.tamper, .log] s (alarmNoted i s) := by
  have hflagged : Within [.tamper, .log] s (alarmFlagged i s) :=
    (tamperOnly (l := [.tamper]) (by decide) rfl).trans (event_within 1 0 _)
  exact hflagged.trans ((logEv_within _ _ _ _ : Within [.log] _ (alarmNoted i s)).mono (by decide))

theorem tamper_alarmNoted : (alarmNoted i s).tamper = { s.tamper with
    srcs := lupd s.tamper.srcs i (fun x => { x with alarms := x.alarms + 1, events := [] })
    sticky := setBit s.tamper.sticky i, evt := setBit s.tamper.evt 0 } := by
  have hlogged : (alarmNoted i s).tamper = (alarmFlagged i s).tamper := logEv_within _ _ _ _ .tamper (by decide)
  rw [hlogged]
  unfold alarmFlagged
  rw [event_tamper_window]

end

section
variable {i : Nat} {s : State}

/-- The alarm of a source is counted and its flag set, whatever the response but RESET. -/
theorem tamperAlarm_counted (hi : i < 18) (hsource : i < s.tamper.srcs.length) (hr : respRun s i ≠ 1) :
    AlarmCounted i ((lget s.tamper.srcs i default).alarms + 1) (tamperAlarm i s) := by
  rw [tamperAlarm_eq]
  refine AlarmCounted.runResponse (by omega) hr ⟨?_, ?_⟩
  · rw [tamper_alarmNoted]
    exact getLsbD_setBit_self _ (by omega)
  · rw [tamper_alarmNoted]
    exact congrArg TmpSrc.alarms (lget_lupd_self _ _ _ _ hsource)

/-- LOG and a suppressed response change only the controller and the log (R553). -/
theorem tamperAlarm_logs (hr : respRun s i = 0 ∨ respRun s i = 4) : Within [.tamper, .log] s (tamperAlarm i s) := by
  rw [tamperAlarm_eq]
  obtain hnone | hsuppressed := hr
  · rw [hnone]
    exact alarmNoted_within i s
  · rw [hsuppressed]
    exact (alarmNoted_within i s).trans (event_within 1 4 _)

theorem isStopped_congr {s t : State} (h : t.sys = s.sys) : isStopped t = isStopped s := by
  unfold isStopped
  rw [mode_congr h]

/-- HALT ends in HALTED, in START-UP and outside it. -/
theorem mode_tamperAlarm_halts (hr : respRun s i = 2) : mode (tamperAlarm i s) = 5 := by
  have hsys : (alarmNoted i s).sys = s.sys := alarmNoted_within i s .sys (by decide)
  rw [tamperAlarm_eq, hr]
  refine mode_haltResponse_of ?_
  rw [hsys, isStopped_congr hsys]
  by_cases hstartup : s.sys.startup = true
  · exact Or.inl hstartup
  · exact Or.inr (isStopped_of_respRun_halt (Bool.eq_false_iff.2 hstartup) hr)

/-- ZEROIZE (R551, R556). -/
theorem tamperAlarm_zeroizes (hr : respRun s i = 3) :
    (tamperAlarm i s).keys.bbkek = none ∧
      mode (tamperAlarm i s) = (if (tamperAlarm i s).tamper.steps ≥ 64 then 7 else 6) ∧
      (tamperAlarm i s).tamper.steps =
        (if s.keys.bbkek.isSome ∧ s.tamper.vauxOk then min 64 (s.tamper.steps + 1) else s.tamper.steps) := by
  let u := event 1 1 (alarmNoted i s)
  have heq : tamperAlarm i s = zeroize i u := by
    rw [tamperAlarm_eq, hr]
    rfl
  have hkeys : u.keys = s.keys :=
    (event_within 1 1 (alarmNoted i s) .keys (by decide)).trans (alarmNoted_within i s .keys (by decide))
  have htamper : u.tamper = { (alarmNoted i s).tamper with evt := setBit (alarmNoted i s).tamper.evt 1 } :=
    event_tamper_window 1 _
  rw [heq]
  refine ⟨bbkek_zeroize i u, mode_zeroize i u, ?_⟩
  rw [steps_zeroize, hkeys, htamper, tamper_alarmNoted]

/-- Steps 1 and 2 of ZEROIZE leave the mode (R554). -/
theorem tamperAlarm_zeroizesTwo (hr : respRun s i = 5) :
    (tamperAlarm i s).keys.bbkek = none ∧ mode (tamperAlarm i s) = mode s := by
  have heq : tamperAlarm i s = zeroizeTwo i (event 1 1 (alarmNoted i s)) := by
    rw [tamperAlarm_eq, hr]
    rfl
  rw [heq]
  refine ⟨bbkek_zeroizeTwo i _, mode_congr ?_⟩
  rw [sys_zeroizeTwo, event_within 1 1 (alarmNoted i s) .sys (by decide), alarmNoted_within i s .sys (by decide)]

theorem recentResets_alarmNoted : recentResets (alarmNoted i s) = recentResets s := by
  unfold recentResets
  rw [tamper_alarmNoted, alarmNoted_within i s .time (by decide)]

/-- RESET restarts the device while fewer than three have been recent (R552). -/
theorem tamperAlarm_resets (hr : respRun s i = 1) (hfew : (recentResets s).length < 3) :
    ∃ u, tamperAlarm i s = resetDevice u ∧ Within [.tamper, .log, .outbox] s u ∧
      u.tamper.resets = recentResets s ++ [s.time.clock] := by
  let v : State := { alarmNoted i s with tamper := { (alarmNoted i s).tamper with
    resets := recentResets (alarmNoted i s) ++ [(alarmNoted i s).time.clock] } }
  have heq : tamperAlarm i s = resetDevice (event 1 3 v) := by
    rw [tamperAlarm_eq, hr]
    refine if_neg ?_
    rw [recentResets_alarmNoted]
    omega
  have hnoted : Within [.tamper, .log] s v :=
    (alarmNoted_within i s).trans (tamperOnly (l := [.tamper]) (by decide) rfl)
  refine ⟨_, heq, (hnoted.trans (event_within 1 3 v)).mono (by decide), ?_⟩
  rw [event_tamper_window]
  change recentResets (alarmNoted i s) ++ [(alarmNoted i s).time.clock] = _
  rw [recentResets_alarmNoted, alarmNoted_within i s .time (by decide)]

/-- The fourth within 10 s halts it (R552). -/
theorem mode_tamperAlarm_resets (hr : respRun s i = 1) (hmany : 3 ≤ (recentResets s).length)
    (hmode : mode s ≠ 6 ∨ s.sys.startup = true) : mode (tamperAlarm i s) = 5 := by
  let u := event 1 6 (alarmNoted i s)
  have hsys : u.sys = s.sys :=
    (event_within 1 6 (alarmNoted i s) .sys (by decide)).trans (alarmNoted_within i s .sys (by decide))
  have hseal : ¬(mode u = 6 ∧ ¬u.sys.startup = true) := by
    rw [mode_congr hsys, hsys]
    rintro ⟨hsealed, hrun⟩
    exact hmode.elim (fun hne => hne hsealed) hrun
  have heq : tamperAlarm i s = haltResponse u := by
    rw [tamperAlarm_eq, hr]
    refine (if_pos ?_).trans (if_neg hseal)
    rw [recentResets_alarmNoted]
    exact hmany
  rw [heq]
  refine mode_haltResponse_of ?_
  rw [hsys, isStopped_congr hsys]
  by_cases hstartup : s.sys.startup = true
  · exact Or.inl hstartup
  · exact Or.inr (isStopped_of_respRun_reset (Bool.eq_false_iff.2 hstartup) hr (hmode.resolve_right hstartup))

end

/-! Events of sources (R545, R546). -/

/-- An event that counts either fills its window or is remembered. -/
theorem tamperDetect_eq {i : Nat} {s : State} (hheld : s.sys.held = false) (hi : i < 18)
    (harmed : mainMonitor i = true → s.tamper.armed = true) :
    tamperDetect i s =
      if (windowEvents s i (tmpW s i * 1000000)).length ≥ max 1 (tmpN s i) then tamperAlarm i s
      else updSrc i (fun x => { x with events := windowEvents s i (tmpW s i * 1000000) }) s := by
  refine if_neg ?_
  have hunarmed : (mainMonitor i && !s.tamper.armed) = false := by
    cases hmain : mainMonitor i with
    | false => rfl
    | true => rw [harmed hmain]; rfl
  rw [hheld, hunarmed, decide_eq_false (Nat.not_le.2 hi)]
  exact Bool.false_ne_true

theorem updSrc_within (i : Nat) (g : TmpSrc → TmpSrc) (s : State) : Within [.tamper] s (updSrc i g s) :=
  (updSrc_goes i g s Goes.rfl (List.Subset.refl _)).within

/-- A detected event of any source but the redundancy mismatch. -/
theorem exec_tamperEvent_eq {src engine lane cls owner : Nat} {s : State} (hheld : s.sys.held = false) (hsrc : src < 18)
    (harmed : mainMonitor src = true → s.tamper.armed = true) :
    exec (.tamperEvent src engine lane cls owner) s =
      .next (tamperDetect src (if src = 14 then mismatchEvidence engine lane cls owner s else s)) := by
  refine congrArg Host.Outcome.next (if_neg ?_)
  have hunarmed : (mainMonitor src && !s.tamper.armed) = false := by
    cases hmain : mainMonitor src with
    | false => rfl
    | true => rw [harmed hmain]; rfl
  rw [hheld, hunarmed, decide_eq_false (Nat.not_le.2 hsrc)]
  exact Bool.false_ne_true

theorem exec_tamperEvent_ignored {src engine lane cls owner : Nat} {s : State}
    (h : s.sys.held = true ∨ 18 ≤ src ∨ (mainMonitor src = true ∧ s.tamper.armed = false)) :
    exec (.tamperEvent src engine lane cls owner) s = .next s := by
  refine congrArg Host.Outcome.next (if_pos ?_)
  simp only [Bool.or_eq_true, Bool.and_eq_true, Bool.not_eq_true', decide_eq_true_eq]
  obtain hheld | hsrc | hunarmed := h
  · exact Or.inl (Or.inl hheld)
  · exact Or.inr hsrc
  · exact Or.inl (Or.inr hunarmed)

/-! Evidence of a redundancy mismatch (R433, R459). -/

theorem mismatchEvidence_within (engine lane cls owner : Nat) (s : State) :
    Within [.eng, .pke, .log] s (mismatchEvidence engine lane cls owner s) :=
  (mismatchEvidence_goes engine lane cls owner s Goes.rfl (List.Subset.refl _)).within

theorem eng_mismatchEvidence {engine : Nat} (hengine : 1 ≤ engine ∧ engine ≤ 3) (lane cls owner : Nat) (s : State) :
    (mismatchEvidence engine lane cls owner s).eng.stopped = true ∧
      (mismatchEvidence engine lane cls owner s).eng.mismatch =
        pack [(engine, 0), (lane % 32, 2), (cls % 16, 7), (owner % 128, 11), (1, 18)] := by
  unfold mismatchEvidence
  rw [if_pos hengine, event_eng_window]
  exact ⟨rfl, rfl⟩

theorem pke_mismatchEvidence {engine : Nat} (hengine : engine = 4 ∨ engine = 5) (lane cls owner : Nat) (s : State) :
    (mismatchEvidence engine lane cls owner s).pke.stopped = true ∧
      (mismatchEvidence engine lane cls owner s).pke.mismatch =
        pack [(lane % 4, 0), ((lget s.pke.units (lane % 4) default).alg % 256, 2), (cls % 16, 10), (owner % 128, 14),
          (b2n (engine == 5), 21), (1, 22)] := by
  unfold mismatchEvidence
  rw [if_neg (by omega), if_pos hengine]
  dsimp only
  rw [pkeEvent_pke_window]
  exact ⟨rfl, rfl⟩

/-- A detected event whose response is not RESET leaves the evidence. -/
theorem keepsEvidence_tamperDetect {i : Nat} {s : State} (hr : respRun s i ≠ 1) : KeepsEvidence s (tamperDetect i s) := by
  unfold tamperDetect
  split
  · exact .of_eq rfl rfl
  · dsimp only
    split
    · rw [tamperAlarm_eq]
      exact (KeepsEvidence.of_within (alarmNoted_within i s) (by decide)).trans (keepsEvidence_runResponse hr _)
    · exact .of_eq rfl rfl

end Sys2Proof.Machine
end

section
/-! SUPPORT. Net checks (R547), backup operation (R546, R558), the die held in reset (R339, R658) and JTAG (R663), and the
statement O52. -/
namespace Sys2Proof.Machine

/-! A source whose condition is noted is filtered and answered as before. -/

/-- The state in which the condition of a source is noted. -/
def condNoted (j : Nat) (on : Bool) (s : State) : State := updSrc j (fun x => { x with cond := on }) s

section
variable (j : Nat) (on : Bool) (s : State)

theorem cfg_condNoted : (lget (condNoted j on s).tamper.srcs j default).cfg = (lget s.tamper.srcs j default).cfg :=
  lget_lupd_keeps (F := TmpSrc.cfg) (f := fun x => { x with cond := on }) (fun _ => rfl) _ _ _ _

theorem events_condNoted : (lget (condNoted j on s).tamper.srcs j default).events = (lget s.tamper.srcs j default).events :=
  lget_lupd_keeps (F := TmpSrc.events) (f := fun x => { x with cond := on }) (fun _ => rfl) _ _ _ _

theorem tmpN_condNoted : tmpN (condNoted j on s) j = tmpN s j := by
  unfold tmpN
  rw [cfg_condNoted]

theorem tmpW_condNoted : tmpW (condNoted j on s) j = tmpW s j := by
  unfold tmpW
  rw [cfg_condNoted]

theorem tmpResp_condNoted : tmpResp (condNoted j on s) j = tmpResp s j := by
  unfold tmpResp
  rw [cfg_condNoted]

theorem respRun_condNoted : respRun (condNoted j on s) j = respRun s j := by
  have hsys : (condNoted j on s).sys = s.sys := rfl
  unfold respRun
  rw [tmpResp_condNoted, hsys, mode_congr hsys]

theorem windowEvents_condNoted (w : Nat) : windowEvents (condNoted j on s) j w = windowEvents s j w := by
  have htime : (condNoted j on s).time = s.time := rfl
  unfold windowEvents
  rw [events_condNoted, htime]

end

/-! SCRIM_CHECK. -/

section
variable {net : Nat} {sent got : W32} {short : Bool} {s : State} (hnet : net < 6) (hsource : net < s.tamper.srcs.length)
  (hheld : s.sys.held = false) (hmain : s.tamper.backup = false)

theorem exec_scrimCheck_eq (hnet : net < 6) (hheld : s.sys.held = false) (hmain : s.tamper.backup = false) :
    exec (.scrimCheck net sent got short) s = .next (
      if short || sent != got then tamperDetect net (condNoted net (short || sent != got) s)
      else condNoted net (short || sent != got) s) := by
  refine congrArg Host.Outcome.next (if_pos ?_)
  rw [hheld, hmain]
  exact ⟨hnet, Bool.false_ne_true, Bool.false_ne_true⟩

/-- What a detected event does to a net whose condition is noted. -/
theorem tamperDetect_condNoted (hnet : net < 6) (hheld : s.sys.held = false) (bad : Bool) :
    tamperDetect net (condNoted net bad s) =
      if (windowEvents s net (tmpW s net * 1000000)).length ≥ max 1 (tmpN s net) then tamperAlarm net (condNoted net bad s)
      else updSrc net (fun x => { x with events := windowEvents s net (tmpW s net * 1000000) }) (condNoted net bad s) := by
  have hunmonitored : mainMonitor net = true → (condNoted net bad s).tamper.armed = true := fun hmonitor => by
    have hnone : ∀ n, n < 6 → mainMonitor n = false := by decide
    exact absurd (hmonitor.symm.trans (hnone net hnet)) (by decide)
  rw [tamperDetect_eq (s := condNoted net bad s) hheld (by omega) hunmonitored, tmpW_condNoted, tmpN_condNoted,
    windowEvents_condNoted]

include hnet hheld hmain

theorem exec_scrimCheck_alarms (hbad : short = true ∨ sent ≠ got)
    (hfull : max 1 (tmpN s net) ≤ (windowEvents s net (tmpW s net * 1000000)).length) :
    ∃ t, exec (.scrimCheck net sent got short) s = .next t ∧ (respRun s net = 2 → mode t = 5) ∧
      (respRun s net = 3 → t.keys.bbkek = none) := by
  have hfails : (short || sent != got) = true := by
    simpa only [Bool.or_eq_true, bne_iff_ne] using hbad
  have hexec := exec_scrimCheck_eq (sent := sent) (got := got) (short := short) hnet hheld hmain
  rw [hfails, if_pos rfl, tamperDetect_condNoted hnet hheld, if_pos hfull] at hexec
  have hresp := respRun_condNoted net true s
  exact ⟨_, hexec, fun hr => mode_tamperAlarm_halts (hresp.trans hr), fun hr => bbkek_tamperAlarm_zeroize (hresp.trans hr)⟩

include hsource

/-- A net that returns what was sent is in no alarm condition. -/
theorem exec_scrimCheck_good (hshort : short = false) (hsame : sent = got) :
    ∃ t, exec (.scrimCheck net sent got short) s = .next t ∧ Within [.tamper] s t ∧
      (lget t.tamper.srcs net default).cond = false ∧ t.tamper.sticky = s.tamper.sticky := by
  have hgood : (short || sent != got) = false := by rw [hshort, hsame, bne_self_eq_false, Bool.or_self]
  have hexec := exec_scrimCheck_eq (sent := sent) (got := got) (short := short) hnet hheld hmain
  rw [hgood] at hexec
  exact ⟨_, hexec, updSrc_within _ _ s, congrArg TmpSrc.cond (lget_lupd_self _ _ _ _ hsource), rfl⟩

theorem exec_scrimCheck_remembers (hbad : short = true ∨ sent ≠ got)
    (hfew : (windowEvents s net (tmpW s net * 1000000)).length < max 1 (tmpN s net)) :
    ∃ t, exec (.scrimCheck net sent got short) s = .next t ∧ Within [.tamper] s t ∧
      (lget t.tamper.srcs net default).cond = true ∧
      (lget t.tamper.srcs net default).events = windowEvents s net (tmpW s net * 1000000) := by
  have hfails : (short || sent != got) = true := by
    simpa only [Bool.or_eq_true, bne_iff_ne] using hbad
  have hexec := exec_scrimCheck_eq (sent := sent) (got := got) (short := short) hnet hheld hmain
  rw [hfails, if_pos rfl, tamperDetect_condNoted hnet hheld, if_neg (Nat.not_le.2 hfew)] at hexec
  have hnoted : lget (condNoted net true s).tamper.srcs net default = _ := lget_lupd_self _ _ _ _ hsource
  have hlength : net < (condNoted net true s).tamper.srcs.length := by
    unfold condNoted updSrc
    rw [length_lupd]
    exact hsource
  have hsrc := lget_lupd_self (condNoted net true s).tamper.srcs net
    (fun x => { x with events := windowEvents s net (tmpW s net * 1000000) }) default hlength
  refine ⟨_, hexec, (updSrc_within _ _ s).trans (updSrc_within _ _ _), ?_, congrArg TmpSrc.events hsrc⟩
  exact (congrArg TmpSrc.cond hsrc).trans (congrArg TmpSrc.cond hnoted)

end

/-! BACKUP_SAMPLE (R558). -/

/-- What the sampling of other sources leaves of source i: the source and the period as before, its flag and its record, and an
erased base key. -/
structure BackupKeeps (i : Nat) (s t : State) : Prop where
  within : Within [.keys, .tamper] s t
  source : lget t.tamper.srcs i default = lget s.tamper.srcs i default
  length : t.tamper.srcs.length = s.tamper.srcs.length
  period : t.tamper.bperiod = s.tamper.bperiod
  sticky : s.tamper.sticky.getLsbD i = true → t.tamper.sticky.getLsbD i = true
  recorded : i ∈ s.tamper.recorded → i ∈ t.tamper.recorded
  bbkek : s.keys.bbkek = none → t.keys.bbkek = none

theorem BackupKeeps.rfl {i : Nat} {s : State} : BackupKeeps i s s :=
  ⟨Goes.rfl.within, Eq.refl _, Eq.refl _, Eq.refl _, id, id, id⟩

theorem BackupKeeps.trans {i : Nat} {s t u : State} (h : BackupKeeps i s t) (g : BackupKeeps i t u) : BackupKeeps i s u where
  within := h.within.trans g.within
  source := g.source.trans h.source
  length := g.length.trans h.length
  period := g.period.trans h.period
  sticky := g.sticky ∘ h.sticky
  recorded := g.recorded ∘ h.recorded
  bbkek := g.bbkek ∘ h.bbkek

theorem backupKeeps_updSrc {i j : Nat} (hij : i ≠ j) (g : TmpSrc → TmpSrc) (s : State) : BackupKeeps i s (updSrc j g s) where
  within := (updSrc_within j g s).mono (by decide)
  source := lget_lupd_other _ _ _ _ _ hij
  length := length_lupd _ _ _
  period := Eq.refl _
  sticky := id
  recorded := id
  bbkek := id

theorem getLsbD_setBit_of {w : W32} {i : Nat} (j : Nat) (h : w.getLsbD i = true) : (setBit w j).getLsbD i = true := by
  unfold setBit
  rw [BitVec.getLsbD_or, h, Bool.true_or]

theorem backupTrip_within (j : Nat) (s : State) : Within [.keys, .tamper] s (backupTrip j s) :=
  (backupTrip_goes j s Goes.rfl (List.Subset.refl _)).within

theorem tamper_backupTrip (j : Nat) (s : State) : ∃ pending, (backupTrip j s).tamper = { s.tamper with
    srcs := lupd s.tamper.srcs j (fun x => { x with events := [] })
    sticky := setBit s.tamper.sticky j, recorded := s.tamper.recorded ++ [j], pending := pending } := by
  unfold backupTrip
  dsimp only [updSrc]
  split
  · exact ⟨_, rfl⟩
  · exact ⟨_, rfl⟩

theorem bbkek_backupTrip (j : Nat) (s : State) :
    (backupTrip j s).keys.bbkek = if tmpResp s j = 3 then none else s.keys.bbkek := by
  unfold backupTrip
  dsimp only [updSrc]
  split <;> rfl

theorem backupKeeps_backupTrip {i j : Nat} (hij : i ≠ j) (s : State) : BackupKeeps i s (backupTrip j s) := by
  obtain ⟨pending, htamper⟩ := tamper_backupTrip j s
  refine ⟨backupTrip_within j s, ?_, ?_, ?_, fun h => ?_, fun h => ?_, fun h => ?_⟩
  · rw [htamper]
    exact lget_lupd_other _ _ _ _ _ hij
  · rw [htamper]
    exact length_lupd _ _ _
  · rw [htamper]
  · rw [htamper]
    exact getLsbD_setBit_of j h
  · rw [htamper]
    exact List.mem_append_left _ h
  · rw [bbkek_backupTrip, h, ite_self]

/-- The events of a source within the window of backup operation. -/
def backupEvents (s : State) (i : Nat) : List Nat :=
  windowEvents s i (max (tmpW s i) (tmpN s i * s.tamper.bperiod.val.toNat) * 1000000)

theorem backupOne_eq {ev : BitVec 18} {j : Nat} (hsampled : backupSampled j = true) (s : State) :
    backupOne ev j s =
      if ev.getLsbD j then
        if (backupEvents (condNoted j (ev.getLsbD j) s) j).length ≥ max 1 (tmpN (condNoted j (ev.getLsbD j) s) j) then
          backupTrip j (condNoted j (ev.getLsbD j) s)
        else updSrc j (fun x => { x with events := backupEvents (condNoted j (ev.getLsbD j) s) j }) (condNoted j (ev.getLsbD j) s)
      else condNoted j (ev.getLsbD j) s := by
  unfold backupOne
  rw [hsampled]
  rfl

theorem backupOne_unsampled {ev : BitVec 18} {j : Nat} (hsampled : backupSampled j = false) (s : State) :
    backupOne ev j s = s := by
  unfold backupOne
  rw [hsampled]
  rfl

/-- The sample of one source leaves every other. -/
theorem backupKeeps_backupOne {i j : Nat} (hij : i ≠ j) (ev : BitVec 18) (s : State) : BackupKeeps i s (backupOne ev j s) := by
  cases hsampled : backupSampled j with
  | false =>
    rw [backupOne_unsampled hsampled]
    exact .rfl
  | true =>
    have hnoted : BackupKeeps i s (condNoted j (ev.getLsbD j) s) := backupKeeps_updSrc hij _ s
    rw [backupOne_eq hsampled]
    split
    · split
      · exact hnoted.trans (backupKeeps_backupTrip hij _)
      · exact hnoted.trans (backupKeeps_updSrc hij _ _)
    · exact hnoted

/-- Samples of a list of sources, in order. -/
def backupAll (ev : BitVec 18) (l : List Nat) (s : State) : State := l.foldl (fun s i => backupOne ev i s) s

theorem backupKeeps_backupAll {i : Nat} (ev : BitVec 18) (l : List Nat) :
    ∀ s, i ∉ l → BackupKeeps i s (backupAll ev l s) := by
  induction l with
  | nil => exact fun _ _ => .rfl
  | cons j l ih =>
    intro s hi
    rw [List.mem_cons, not_or] at hi
    exact (backupKeeps_backupOne hi.1 ev s).trans (ih _ hi.2)

/-- Around the sample of source i in the sweep of all 18, the other samples leave it. -/
theorem backupAll_split {i : Nat} (hi : i < 18) (ev : BitVec 18) (s : State) :
    ∃ u, BackupKeeps i s u ∧ BackupKeeps i (backupOne ev i u) (backupAll ev (List.range 18) s) := by
  obtain ⟨l, r, hrange⟩ := List.append_of_mem (List.mem_range.2 hi)
  have hnodup := List.nodup_range (n := 18)
  rw [hrange, List.nodup_append] at hnodup
  obtain ⟨-, hright, hdisjoint⟩ := hnodup
  have hleft : i ∉ l := fun h => hdisjoint i h i List.mem_cons_self rfl
  refine ⟨backupAll ev l s, backupKeeps_backupAll ev l s hleft, ?_⟩
  have hall : backupAll ev (List.range 18) s = backupAll ev r (backupOne ev i (backupAll ev l s)) := by
    unfold backupAll
    rw [hrange, List.foldl_append]
    rfl
  rw [hall]
  exact backupKeeps_backupAll ev r _ (List.nodup_cons.1 hright).1

/-- A source that is left alone has the same filter and the same events. -/
theorem BackupKeeps.filter {i : Nat} {s t : State} (h : BackupKeeps i s t) :
    tmpN t i = tmpN s i ∧ tmpResp t i = tmpResp s i ∧ backupEvents t i = backupEvents s i := by
  have hclock : t.time = s.time := h.within .time (by decide)
  unfold backupEvents windowEvents tmpN tmpW tmpResp
  rw [h.source, h.period, hclock]
  exact ⟨Eq.refl _, Eq.refl _, Eq.refl _⟩

theorem backupEvents_condNoted (j : Nat) (on : Bool) (s : State) : backupEvents (condNoted j on s) j = backupEvents s j := by
  unfold backupEvents
  rw [windowEvents_condNoted, tmpN_condNoted, tmpW_condNoted]
  rfl

/-- A sampled source is in alarm condition as the sample says. -/
theorem cond_backupOne {ev : BitVec 18} {j : Nat} {s : State} (hsampled : backupSampled j = true)
    (hsource : j < s.tamper.srcs.length) : (lget (backupOne ev j s).tamper.srcs j default).cond = ev.getLsbD j := by
  have hnoted : lget (condNoted j (ev.getLsbD j) s).tamper.srcs j default = _ := lget_lupd_self _ _ _ _ hsource
  have hcond : (lget (condNoted j (ev.getLsbD j) s).tamper.srcs j default).cond = ev.getLsbD j := by rw [hnoted]
  have hkept {f : TmpSrc → TmpSrc} (hf : ∀ x, (f x).cond = x.cond) :
      (lget (lupd (condNoted j (ev.getLsbD j) s).tamper.srcs j f) j default).cond = ev.getLsbD j :=
    (lget_lupd_keeps (F := TmpSrc.cond) hf _ j j default).trans hcond
  rw [backupOne_eq hsampled]
  split
  · split
    · obtain ⟨pending, htamper⟩ := tamper_backupTrip j (condNoted j (ev.getLsbD j) s)
      rw [htamper]
      exact hkept fun _ => rfl
    · exact hkept fun _ => rfl
  · exact hcond

/-- A source that fills its window trips. -/
theorem backupOne_trips {ev : BitVec 18} {j : Nat} {s : State} (hj : j < 32) (hsampled : backupSampled j = true)
    (hon : ev.getLsbD j = true) (hfull : max 1 (tmpN s j) ≤ (backupEvents s j).length) :
    (backupOne ev j s).tamper.sticky.getLsbD j = true ∧ j ∈ (backupOne ev j s).tamper.recorded ∧
      (tmpResp s j = 3 → (backupOne ev j s).keys.bbkek = none) := by
  obtain ⟨pending, htamper⟩ := tamper_backupTrip j (condNoted j (ev.getLsbD j) s)
  rw [backupOne_eq hsampled, if_pos hon, tmpN_condNoted, backupEvents_condNoted, if_pos hfull, htamper, bbkek_backupTrip,
    tmpResp_condNoted]
  exact ⟨getLsbD_setBit_self _ hj, List.mem_append_right _ (List.mem_singleton_self j), fun h => if_pos h⟩

/-- Without an alarm condition no key and no flag changes. -/
theorem backupAll_quiet (l : List Nat) :
    ∀ s, (backupAll 0 l s).keys = s.keys ∧ (backupAll 0 l s).tamper.sticky = s.tamper.sticky := by
  have hone (j : Nat) (s : State) : (backupOne 0 j s).keys = s.keys ∧ (backupOne 0 j s).tamper.sticky = s.tamper.sticky := by
    cases hsampled : backupSampled j with
    | false =>
      rw [backupOne_unsampled hsampled]
      exact ⟨rfl, rfl⟩
    | true =>
      rw [backupOne_eq hsampled, if_neg (by simp)]
      exact ⟨rfl, rfl⟩
  induction l with
  | nil => exact fun _ => ⟨rfl, rfl⟩
  | cons j l ih => exact fun s => ⟨(ih _).1.trans (hone j s).1, (ih _).2.trans (hone j s).2⟩

theorem exec_backupSample {ev : BitVec 18} {s : State} (hbackup : s.tamper.backup = true) :
    ∃ t, exec (.backupSample ev) s = .next t ∧ Within [.keys, .tamper] s t ∧
      (∀ i, i < 18 → i < s.tamper.srcs.length → backupSampled i = true →
        (lget t.tamper.srcs i default).cond = ev.getLsbD i) ∧
      (∀ i, i < 18 → backupSampled i = true → ev.getLsbD i = true → max 1 (tmpN s i) ≤ (backupEvents s i).length →
        t.tamper.sticky.getLsbD i = true ∧ i ∈ t.tamper.recorded ∧ (tmpResp s i = 3 → t.keys.bbkek = none)) ∧
      (ev = 0 → t.keys = s.keys ∧ t.tamper.sticky = s.tamper.sticky) := by
  have hexec : exec (.backupSample ev) s = .next (backupAll ev (List.range 18) s) := congrArg Host.Outcome.next (if_pos hbackup)
  refine ⟨_, hexec, (execBackupSample_goes ev s .rfl (List.Subset.refl _)).holds _ hexec |>.within,
    fun i hi hsource hsampled => ?_, fun i hi hsampled hon hfull => ?_, fun hnone => ?_⟩
  · obtain ⟨u, hbefore, hafter⟩ := backupAll_split hi ev s
    rw [hafter.source]
    exact cond_backupOne hsampled (hbefore.length.symm ▸ hsource)
  · obtain ⟨u, hbefore, hafter⟩ := backupAll_split hi ev s
    obtain ⟨hn, hresp, hevents⟩ := hbefore.filter
    obtain ⟨hsticky, hrecorded, herased⟩ := backupOne_trips (s := u) (by omega) hsampled hon (by rw [hn, hevents]; exact hfull)
    exact ⟨hafter.sticky hsticky, hafter.recorded hrecorded, fun h => hafter.bbkek (herased (hresp.trans h))⟩
  · rw [hnone]
    exact backupAll_quiet _ s

end Sys2Proof.Machine
end

section
/-! SUPPORT. The die held in reset (R339, R546, R658), VAUX (R558, R650) and JTAG (R663), and the statement O52. -/
namespace Sys2Proof.Machine

/-! A device reset keeps the mode and the key store's slots (R340). Neither the results found before it nor the settling of
commands changes the mode field. -/

/-- The mode field is as before. -/
def KeepsMode (s t : State) : Prop := t.sys.mode = s.sys.mode

theorem KeepsMode.of_within {ps : List Part} {s t : State} (h : Within ps s t) (hsys : Part.sys ∉ ps) : KeepsMode s t :=
  congrArg Sys.mode (h .sys hsys)

theorem KeepsMode.trans {s t u : State} (h : KeepsMode s t) (g : KeepsMode t u) : KeepsMode s u := Eq.trans g h

theorem keepsMode_bumpMirrored (s : State) : KeepsMode s (bumpMirrored s) :=
  (congrArg Sys.mode ((mirrorItem_goes (.epoch (s.sys.epoch + 1)) s Goes.rfl (List.Subset.refl _)).within .sys (by decide)) :)

theorem keepsMode_releaseFn (f : Nat) (s : State) : KeepsMode s (releaseFn f s) := by
  unfold releaseFn
  dsimp only
  generalize hopen : (s.skim.ctx.filter (fun x => x.2.kind == 7 && x.2.fn == f)).map (·.1) = l
  have hfreed := (Goes.foldl (ps := [.skim]) (f := fun s k => freeCtx k s) l (Goes.rfl (s := s))
    fun u k hu => freeCtx_goes k u hu (List.Subset.refl _)).within
  generalize l.foldl (fun s k => freeCtx k s) s = u at hfreed ⊢
  have hkept : KeepsMode s u := .of_within hfreed (by decide)
  exact hkept.trans (keepsMode_bumpMirrored _)

/-- The state in which a function's new context key is drawn and its generator forgotten. -/
def fnRekeyed (f : Nat) (s : State) : State :=
  let s := wipeLanes f (ledgerFn f s)
  let (key, s) := freeOctets 32 s
  let s := updDrbg f (fun _ => default) (updFn f (fun x => { x with ctxKey := key }) s)
  if drawReady s f then instantiate f s else s

theorem fnRekeyed_within (f : Nat) (s : State) : Within [.fns, .journal, .eng, .rng, .freeCtr] s (fnRekeyed f s) := by
  have hwiped : Within [.fns, .journal, .eng, .rng, .freeCtr] s (wipeLanes f (ledgerFn f s)) :=
    (wipeLanes_goes f _ (ledgerFn_goes f s Goes.rfl (by decide)) (by decide)).within
  have hdrawn (u : State) : Within [.fns, .journal, .eng, .rng, .freeCtr] u
      (updDrbg f (fun _ => default) (updFn f (fun x => { x with ctxKey := (freeOctets 32 u).1 }) (freeOctets 32 u).2)) := by
    intro p hp
    cases p with
    | fns | rng | freeCtr => exact absurd (by decide) hp
    | _ => rfl
  unfold fnRekeyed
  dsimp only
  split
  · exact (hwiped.trans (hdrawn _)).trans ((instantiate_goes f _ Goes.rfl (List.Subset.refl _)).within.mono (by decide))
  · exact hwiped.trans (hdrawn _)

theorem finishFnReset_eq (f : Nat) (s : State) : finishFnReset f s =
    fnEvent f 3 0 (event 0 2 (updFn f (fun x => { x with fenced := false, evt := 0 }) (releaseFn f (fnRekeyed f s)))) := rfl

theorem keepsMode_finishFnReset (f : Nat) (s : State) : KeepsMode s (finishFnReset f s) := by
  have hreleased := (KeepsMode.of_within (fnRekeyed_within f s) (by decide)).trans (keepsMode_releaseFn f (fnRekeyed f s))
  rw [finishFnReset_eq]
  generalize releaseFn f (fnRekeyed f s) = u at hreleased ⊢
  have hevent : KeepsMode u (event 0 2 (updFn f (fun x => { x with fenced := false, evt := 0 }) u)) :=
    (congrArg Sys.mode (event_sys_window 2 (updFn f (fun x => { x with fenced := false, evt := 0 }) u)) :)
  have hlogged := (fnEvent_goes f 3 0 (event 0 2 (updFn f (fun x => { x with fenced := false, evt := 0 }) u)) Goes.rfl
    (List.Subset.refl _)).within
  exact hreleased.trans (hevent.trans (.of_within hlogged (by decide)))

theorem keepsMode_afterOutcome (tok : Nat) (s : State) : KeepsMode s (afterOutcome tok s) := by
  unfold afterOutcome
  split
  · exact Eq.refl _
  · have hsettled : KeepsMode s (settleAborts tok s) :=
      .of_within (settleAborts_goes tok s Goes.rfl (List.Subset.refl _)).within (by decide)
    dsimp only
    split
    · exact hsettled.trans (keepsMode_finishFnReset _ _)
    · exact hsettled

/-- A result found leaves the mode. -/
theorem keepsMode_resultReady (i : Nat) (s : State) : KeepsMode s (resultReady i s) := by
  have hends (tok cycles f : Nat) (e : Eff) (he : KeepsMode s e.st) : KeepsMode s
      (startWipe i (afterOutcome tok (settle tok e.status e.result e.out (charge 5 5 f cycles e.st)))) := by
    have hcharged : KeepsMode e.st (charge 5 5 f cycles e.st) := .of_within (charge_within (by decide) 5 f cycles e.st) (by decide)
    have hsettled := settle_within tok e.status e.result e.out (charge 5 5 f cycles e.st)
    have hwiped (u : State) := (startWipe_goes i u Goes.rfl (List.Subset.refl _)).within
    exact (he.trans hcharged).trans ((KeepsMode.of_within hsettled (by decide)).trans
      ((keepsMode_afterOutcome tok _).trans (.of_within (hwiped _) (by decide))))
  unfold resultReady
  dsimp only
  split
  · exact Eq.refl _
  · split
    · refine hends _ _ _ _ ?_
      split
      · exact Eq.refl _
      · exact KeepsMode.trans (t := cntPke 0 1 s) (Eq.refl _)
          (.of_within (pkeResult_goes _ _ _ Goes.rfl (List.Subset.refl _)).within (by decide))
    · exact Eq.refl _

theorem keepsMode_endedFirst (s : State) : KeepsMode s (endedFirst s) := by
  unfold endedFirst
  generalize List.range 4 = l
  induction l generalizing s with
  | nil => exact Eq.refl _
  | cons i l ih => exact (keepsMode_resultReady i s).trans (ih _)

/-- The state of a device reset in which every command is settled, every ledger written and every session gone. -/
def resetSettled (s : State) : State :=
  let s := dropUnadmitted (fun _ => true) s
  let open_ := (s.journal.filter (fun e => e.2.outcome.isNone)).map (·.1)
  let s := open_.foldl (fun s t => if (jent s t).any inRehash then endRehash t s else cancel t 0x0503 s) s
  let s := (List.range 65).foldl (fun s f => ledgerFn f s) s
  let s := { s with journal := s.journal.filter (fun e => !e.2.written) }
  dropSessions (if s.time.ppsOut then emit (.pps false) s else s)

theorem deviceReset_eq (s : State) : deviceReset s = resetRegisters (resetSettled s) := rfl

theorem resetSettled_within (s : State) :
    Within [.fns, .journal, .deferred, .skim, .trowel, .publ, .pke, .span, .outbox] s (resetSettled s) := by
  let u := dropUnadmitted (fun _ => true) s
  let l := (u.journal.filter (fun e => e.2.outcome.isNone)).map (·.1)
  have hdropped := dropUnadmitted_goes (ps := [.fns, .journal, .deferred, .skim, .trowel, .publ, .pke, .span, .outbox])
    (fun _ => true) s Goes.rfl (by decide)
  have hcancelled := Goes.foldl (f := fun s t => if (jent s t).any inRehash then endRehash t s else cancel t 0x0503 s) l hdropped
    fun v t hv => by
      split
      · exact endRehash_goes t v hv (by decide)
      · exact cancel_goes t 0x0503 v hv (by decide)
  have hledgered := (Goes.foldl (f := fun s f => ledgerFn f s) (List.range 65) hcancelled
    fun v f hv => ledgerFn_goes f v hv (by decide)).within
  have hended (w : State) : Within [.fns, .journal, .deferred, .skim, .trowel, .publ, .pke, .span, .outbox] w
      (dropSessions (if w.time.ppsOut then emit (.pps false) { w with journal := w.journal.filter (fun e => !e.2.written) }
        else { w with journal := w.journal.filter (fun e => !e.2.written) })) := by
    intro p hp
    split
    · cases p with
      | journal | skim | publ | outbox => exact absurd (by decide) hp
      | _ => rfl
    · cases p with
      | journal | skim | publ | outbox => exact absurd (by decide) hp
      | _ => rfl
  exact hledgered.trans (hended _)

theorem deviceReset_keeps (s : State) : KeepsMode s (deviceReset s) ∧
    (deviceReset s).keys.bbkek = s.keys.bbkek ∧ (deviceReset s).keys.slots = s.keys.slots := by
  have hsettled := resetSettled_within s
  have hsys : (resetSettled s).sys = s.sys := hsettled .sys (by decide)
  have hkeys : (resetSettled s).keys = s.keys := hsettled .keys (by decide)
  rw [deviceReset_eq]
  generalize resetSettled s = u at hsys hkeys ⊢
  exact ⟨(congrArg Sys.mode hsys :), (congrArg KeyStore.bbkek hkeys :), (congrArg KeyStore.slots hkeys :)⟩

/-! PORST_N_ASSERT and RAIL_UNDERVOLTAGE. -/

theorem exec_hold_eq {row : Instr} (hrow : row ∈ [Instr.porstNAssert, Instr.railUndervoltage]) (s : State) :
    exec row s = .next (holdDie s) := by
  simp only [List.mem_cons, List.not_mem_nil, or_false] at hrow
  obtain rfl | rfl := hrow
  · rfl
  · rfl

/-- The die is held in reset, and backup operation begins with the keys and the mode as they were. -/
theorem holdDie_holds {s : State} (hrunning : s.sys.held = false) :
    (holdDie s).sys.held = true ∧ (holdDie s).tamper.backup = true ∧ (holdDie s).tamper.armed = false ∧
      (holdDie s).keys.bbkek = s.keys.bbkek ∧ (holdDie s).keys.slots = s.keys.slots ∧ mode (holdDie s) = mode s := by
  have hended : (endedFirst s).keys = s.keys :=
    (endedFirst_goes s Goes.rfl (List.Subset.refl _)).within .keys (by decide)
  obtain ⟨hmode, hbase, hslots⟩ := deviceReset_keeps (endedFirst s)
  have hfield := (keepsMode_endedFirst s).trans hmode
  unfold holdDie
  rw [hrunning, if_neg Bool.false_ne_true]
  generalize deviceReset (endedFirst s) = u at hbase hslots hfield ⊢
  exact ⟨rfl, rfl, rfl, hbase.trans (congrArg KeyStore.bbkek hended), hslots.trans (congrArg KeyStore.slots hended),
    congrArg (fun x : Sh => bits x.val 3 0) hfield⟩

/-! JTAG. -/

theorem exec_jtagAccess_closed {op : JtagOp} {s : State} (hmode : mode s ≠ 0) : exec (.jtagAccess op) s = .next s :=
  if_neg hmode

theorem exec_jtagAccess_blows {s : State} (hmode : mode s = 0) :
    ∃ t, exec (.jtagAccess .blowFactoryDone) s = .next t ∧ Within [.fw, .log] s t ∧ t.fw.factoryDone = true := by
  let u : State := { s with fw := { s.fw with factoryDone := true } }
  have hexec : exec (.jtagAccess .blowFactoryDone) s = .next (measureLife u) := if_pos hmode
  refine ⟨_, hexec, ((execJtagAccess_goes .blowFactoryDone s .rfl (List.Subset.refl _)).holds _ hexec).within.mono (by decide), ?_⟩
  exact (congrArg Firmware.factoryDone (fw_measure 8 (Config.hash 5 (lifecycle u)) u) :)

/-! The statement. -/

/-- An event of another source than the redundancy mismatch. -/
theorem exec_tamperEvent_other {src engine lane cls owner : Nat} {s : State} (hheld : s.sys.held = false) (hsrc : src < 18)
    (hother : src ≠ 14) (harmed : mainMonitor src = true → s.tamper.armed = true) :
    exec (.tamperEvent src engine lane cls owner) s = .next (
      if (windowEvents s src (tmpW s src * 1000000)).length ≥ max 1 (tmpN s src) then tamperAlarm src s
      else updSrc src (fun x => { x with events := windowEvents s src (tmpW s src * 1000000) }) s) := by
  rw [exec_tamperEvent_eq hheld hsrc harmed, if_neg hother, tamperDetect_eq hheld hsrc harmed]

/-- An event of the redundancy mismatch leaves its evidence. -/
theorem exec_tamperEvent_mismatch (engine lane cls owner : Nat) {s : State} (hheld : s.sys.held = false)
    (harmed : s.tamper.armed = true) (hr : respRun s 14 ≠ 1) :
    ∃ t, exec (.tamperEvent 14 engine lane cls owner) s = .next t ∧
      KeepsEvidence (mismatchEvidence engine lane cls owner s) t := by
  have hwithin := mismatchEvidence_within engine lane cls owner s
  have hsame : respRun (mismatchEvidence engine lane cls owner s) 14 = respRun s 14 := by
    unfold respRun tmpResp
    rw [hwithin .sys (by decide), mode_congr (hwithin .sys (by decide)), hwithin .tamper (by decide)]
  exact ⟨_, exec_tamperEvent_eq hheld (by decide) fun _ => harmed, keepsEvidence_tamperDetect (hsame ▸ hr)⟩

/-- Settles O52: each row by its own theorem, an alarm by its response. -/
theorem tamperRows : Obligations.TamperRows := by
  unfold Obligations.TamperRows
  refine ⟨fun c s => ⟨fun happlies hperiod hsources => ⟨exec_svcTamper happlies hperiod hsources,
      fun hquorum _ => exec_svcTamper_refused happlies hperiod hsources hquorum⟩, exec_svcFlagclear⟩,
    fun src engine lane cls owner s => ⟨exec_tamperEvent_ignored, fun hheld hsrc hsource hother harmed => ?_⟩,
    fun engine lane cls owner s hheld harmed hr => ?_,
    fun net sent got short s hnet hsource hheld hmain => ⟨exec_scrimCheck_good hnet hsource hheld hmain,
      exec_scrimCheck_remembers hnet hsource hheld hmain, exec_scrimCheck_alarms hnet hheld hmain⟩,
    fun ev s => ⟨fun hmain => congrArg Host.Outcome.next (if_neg (ne_true_of_eq_false hmain)), exec_backupSample⟩,
    fun s => ⟨fun row hrow => ⟨fun hheld => ?_, fun hrunning => ⟨_, exec_hold_eq hrow s, holdDie_holds hrunning⟩⟩, rfl, rfl,
      fun _ => exec_jtagAccess_closed, exec_jtagAccess_blows, fun hmode => if_pos hmode⟩⟩
  · have hexec := exec_tamperEvent_other (engine := engine) (lane := lane) (cls := cls) (owner := owner) hheld hsrc hother harmed
    refine ⟨fun hfew => ?_, fun hfull => ?_⟩
    · rw [if_neg (Nat.not_le.2 hfew)] at hexec
      exact ⟨_, hexec, updSrc_within _ _ s, congrArg TmpSrc.events (lget_lupd_self _ _ _ _ hsource)⟩
    · rw [if_pos hfull] at hexec
      refine ⟨_, hexec, fun hr => ?_, fun hr => ?_, mode_tamperAlarm_halts, tamperAlarm_zeroizes, tamperAlarm_zeroizesTwo,
        tamperAlarm_resets, mode_tamperAlarm_resets⟩
      · obtain ⟨hsticky, halarms⟩ := tamperAlarm_counted hsrc hsource hr
        exact ⟨hsticky, halarms⟩
      · have hlogged := tamperAlarm_logs hr
        exact ⟨mode_congr (hlogged .sys (by decide)), hlogged .keys (by decide), hlogged .journal (by decide)⟩
  · obtain ⟨t, hexec, heng, hpke⟩ := exec_tamperEvent_mismatch engine lane cls owner hheld harmed hr
    refine ⟨fun hengine => ?_, fun hengine => ?_⟩
    · obtain ⟨hstopped, hmismatch⟩ := eng_mismatchEvidence hengine lane cls owner s
      exact ⟨t, hexec, heng.2 hstopped, heng.1.trans hmismatch⟩
    · obtain ⟨hstopped, hmismatch⟩ := pke_mismatchEvidence hengine lane cls owner s
      exact ⟨t, hexec, hpke.2 hstopped, hpke.1.trans hmismatch⟩
  · rw [exec_hold_eq hrow]
    exact congrArg Host.Outcome.next (if_pos hheld)

end Sys2Proof.Machine
end
